-- ==== Sys2Proof/Word.lean ====
section
/-!
DEFINITION. The 36-bit word of R8, its bit fields, and the sparse map in which the model keeps
everything that the manual addresses by a number.
-/

namespace Sys2Proof

/-- R8: a word is 36 bits, numbered [35:0]. -/
abbrev W := BitVec 36

/-- The field of `len` bits whose lowest bit is `lo`, as a number. -/
def W.fld (w : W) (lo len : Nat) : Nat := (w.toNat >>> lo) % 2 ^ len

/-- Bit `i` of a word. -/
def W.bit (w : W) (i : Nat) : Bool := w.getLsbD i

/-- A word with `v` (cut to `len` bits) placed at `lo` and every other bit zero. -/
def W.at (lo len v : Nat) : W := BitVec.ofNat 36 ((v % 2 ^ len) <<< lo)

/-- `w` with the field of `len` bits at `lo` replaced by `v`. -/
def W.put (w : W) (lo len v : Nat) : W :=
  (w &&& ~~~ (W.at lo len (2 ^ len - 1))) ||| W.at lo len v

/-- One bit as a number, 1 for true. -/
def b2n (b : Bool) : Nat := if b then 1 else 0

/-- `x` brought to the nearest value of `[lo, hi]`. -/
def clampTo (lo hi x : Nat) : Nat := if x < lo then lo else if hi < x then hi else x

/-- R6: a saturating count of 36 bits, one step. -/
def W.satInc (w : W) : W := if w = BitVec.allOnes 36 then w else w + 1

/-- A sparse map from numbers: an unlisted key holds the default. The listed keys rise strictly and
no listed value equals its default, so that equal maps are equal data. -/
abbrev Sparse (α : Type) := List (Nat × α)

/-- The value at key `k`. -/
def Sparse.get {α : Type} (d : Nat → α) : Sparse α → Nat → α
  | [], k => d k
  | (k', v) :: m, k => if k = k' then v else Sparse.get d m k

/-- `m` without an entry at `k`. -/
def Sparse.del {α : Type} : Sparse α → Nat → Sparse α
  | [], _ => []
  | (k', v) :: m, k => if k = k' then Sparse.del m k else (k', v) :: Sparse.del m k

/-- `m` with an entry `(k, v)` put in its place in the order of the keys. -/
def Sparse.ins {α : Type} : Sparse α → Nat → α → Sparse α
  | [], k, v => [(k, v)]
  | (k', v') :: m, k, v =>
    if k < k' then (k, v) :: (k', v') :: m
    else if k = k' then (k, v) :: m
    else (k', v') :: Sparse.ins m k v

/-- The write of `v` at `k`: writing the default removes the entry. -/
def Sparse.set {α : Type} [DecidableEq α] (d : Nat → α) (m : Sparse α) (k : Nat) (v : α) : Sparse α :=
  if v = d k then Sparse.del m k else Sparse.ins m k v

/-- The canonical form: keys strictly rising and no entry equal to its default. -/
def Sparse.wf {α : Type} [DecidableEq α] (d : Nat → α) : Sparse α → Bool
  | [] => true
  | [(k, v)] => decide (v ≠ d k)
  | (k, v) :: (k', v') :: m =>
    decide (v ≠ d k) && decide (k < k') && Sparse.wf d ((k', v') :: m)

/-- The first element that satisfies `p`, and the list without it. -/
def takeFirst {α : Type} (p : α → Bool) : List α → Option (α × List α)
  | [] => none
  | x :: xs => if p x then some (x, xs) else
    match takeFirst p xs with
    | none => none
    | some (y, ys) => some (y, x :: ys)

/-- The first `some` that `f` gives along a list. -/
def firstSome {α β : Type} (f : α → Option β) : List α → Option β
  | [] => none
  | x :: xs => match f x with
    | some y => some y
    | none => firstSome f xs

/-- `f` applied to the state for every element of a list, in order. -/
def forEach {α σ : Type} (f : α → σ → σ) : List α → σ → σ
  | [], s => s
  | x :: xs, s => forEach f xs (f x s)

/-- The `i`-th word of a list, zero beyond its end (R239: absent argument words read as zero). -/
def wordAt (ws : List W) (i : Nat) : W := ws.getD i 0

end Sys2Proof
end

