-- ==== Sys2Proof/Syntax.lean ====
section
/-!
DEFINITION. The commands of KNL-6408: one constructor per row of the table of operations and events,
with the operands that the outside world supplies with it. A row that only says that a moment has
come (a timer expires, an arbiter picks) carries the place at which it comes and nothing else; what
it acts on stands in the state.
-/

namespace Sys2Proof

/-- NI(t, p), the attach point of port p at tile t (R2, R4). -/
structure NiId where
  t : Fin 64
  p : Fin 7
  deriving DecidableEq, Repr

/-- R5: the index n = 7t + p. -/
def NiId.idx (n : NiId) : Nat := 7 * n.t.val + n.p.val

/-- The channels on which a unit sends (R24), and the packets that the NI itself generates (R36). -/
inductive Chan | oreq | irsp | cpo | own
  deriving DecidableEq, Repr

/-- A head flit as the unit presents it (R32), with the packet's payload words from W4 on.
`w0` is the whole word W0, so that a malformed DST can be presented; `ft` is X_FT of the head;
`poi` is X_POI of the flits, flit j in bit j.
`tailIn` says that every flit of the packet has crossed into fc when the NI reads the head (R50). -/
structure Head where
  w0 : W := 0
  opc : BitVec 6
  sc : BitVec 3 := 0
  len : BitVec 2 := 0
  cnt : BitVec 9 := 0
  tag : BitVec 8 := 0
  flg : BitVec 8 := 0
  arg : W := 0
  ft : BitVec 3 := 3
  words : List W := []
  poi : BitVec 4 := 0
  tailIn : Bool := true
  deriving DecidableEq, Repr

/-- A guard: beside an NI, or beside an Opcon core (R165). -/
inductive GuardId
  | ni (n : NiId)
  | core (c : Fin 2)
  deriving DecidableEq, Repr

/-- Which of the three words of a guard region is written (R166). -/
inductive RegionWord | start | stop | perm
  deriving DecidableEq, Repr

/-- What a quarter of an arriving flit shows under its check bits (R332): nothing, one wrong wire
(by the index of R262), or an uncorrectable error. -/
inductive Quarter | clean | ce (wire : Fin 312) | ue
  deriving DecidableEq, Repr

/-- What the check bits of one tile-memory word show when it is read (R337). -/
inductive MemErr | clean | ce | ue
  deriving DecidableEq, Repr

/-- The masters that act directly on the control matrix (R137). -/
inductive Master | core (c : Fin 2) | dbg | hrp
  deriving DecidableEq, Repr

/-- A fanfare control message of R205. -/
structure XMsg where
  src : Fin 16384
  status : Fin 16 := 0
  gfid : BitVec 32
  coord : Fin 16384
  ltH : W := 0
  ltL : W := 0
  count : Fin 32768 := 0
  mode : Fin 4 := 0
  recov : BitVec 32 := 0
  applyH : W := 0
  applyL : W := 0
  deriving DecidableEq, Repr

/-- An inbound extension frame after its Ethernet header (R204): the addresses' instance fields and
prefixes, the 32 header bytes in fields, and the body. -/
structure ExtFrame where
  daPfx : BitVec 34
  daInst : Fin 16384
  ver : BitVec 4
  kind : BitVec 4
  flits : BitVec 8
  src : Fin 16384
  dst : Fin 16384
  seq : BitVec 32
  /-- SRC of the packet's header (W1 of R32) -/
  msgSrc : BitVec 23
  head : Head
  ctl : Option (Fin 6 × XMsg) := none
  deriving DecidableEq, Repr

/-- The commands. -/
inductive Instr
  -- units' packets and the NI (R24 to R56)
  | rd (n : NiId) (h : Head)
  | ldres (n : NiId) (h : Head)
  | wr (n : NiId) (h : Head)
  | stcond (n : NiId) (h : Head)
  | storeBufferDrain (n : NiId)
  | fop (n : NiId) (h : Head)
  | lkacq (n : NiId) (h : Head)
  | lkrnw (n : NiId) (h : Head)
  | lkrel (n : NiId) (h : Head)
  | barAgent (n : NiId) (h : Head)
  | barTile (n : NiId) (h : Head)
  | barSys (n : NiId) (h : Head)
  | barrierComplete (n : NiId)
  | barTimeout (n : NiId)
  | msg (n : NiId) (h : Head)
  | rdresp (n : NiId) (h : Head)
  | wrack (n : NiId) (h : Head)
  | fopresp (n : NiId) (h : Head)
  | lkresp (n : NiId) (h : Head)
  | cell (n : NiId) (h : Head)
  | cellmc (n : NiId) (h : Head)
  | orphanFlit (n : NiId) (ch : Chan)
  | sequenceFail (n : NiId) (ch : Chan)
  | niInject (n : NiId) (ch : Chan)
  | pktTo (n : NiId) (ch : Chan)
  | unitReset (n : NiId)
  | unitResetRelease (n : NiId)
  | drain (n : NiId)
  | drainEnd (n : NiId)
  | drainTimeout (n : NiId)
  | niEnable (n : NiId)
  | inboundRequest (n : NiId)
  | responseReceived (n : NiId)
  | kill (n : NiId)
  | routerKill (t : Fin 64) (i : Fin 23)
  | fstage (n : NiId)
  | fstgdSend (n : NiId) (fid : BitVec 8)
  | timStrobe (n : NiId) (late : Bool)
  -- admission (R97 to R118)
  | rsvreq (n : NiId)
  | rsvreqStanding (n : NiId)
  | rsvgnt (n : NiId)
  | rsvref (n : NiId)
  | rsvrel (n : NiId)
  | rsvrelWithdraw (n : NiId)
  | rsvrelStanding (n : NiId)
  | niRsvPush (n : NiId) (v : W)
  | rsvIdle (n : NiId) (dst : BitVec 23) (sc : Fin 8)
  | mcLinger (n : NiId) (d : NiId)
  | mcRefill (n : NiId)
  | admissionTimeout (n : NiId)
  | rsvAnswerLost (n : NiId)
  | reorderSkip (n : NiId) (slot : Fin 256)
  | handleReclaim (n : NiId) (handle : BitVec 16)
  | cellDeliver (n : NiId) (dfc : Fin 8)
  | reorderPresent (n : NiId)
  | cellmcCopy (n : NiId)
  | groupCacheFill (n : NiId)
  | niPhold (n : NiId) (v : W)
  | phold (n : NiId)
  | niMcInv (n : NiId) (v : W)
  | spraySeedWrite (n : NiId) (v : W)
  | tokenRefill (n : NiId)
  | puntToken (n : NiId)
  -- routers and links (R57 to R92, R257 to R263, R332 to R336)
  | headRoute (t : Fin 64) (i : Fin 23) (lost : Bool)
  | replicate (t : Fin 64) (i : Fin 23)
  | startNext (t : Fin 64) (o : Fin 23) (ue : BitVec 4)
  | pip (t : Fin 64) (o : Fin 23)
  | linkFlit (t : Fin 64) (i : Fin 16) (q0 q1 q2 q3 : Quarter)
  | nak (t : Fin 64) (i : Fin 16)
  | nakRetry (t : Fin 64) (i : Fin 16)
  | returnParityFail (t : Fin 64) (i : Fin 16) (half : Fin 2)
  | resyncReq (t : Fin 64) (i : Fin 23)
  | resyncMark (t : Fin 64) (i : Fin 23)
  | resyncGrant (t : Fin 64) (i : Fin 23)
  | narrow (t : Fin 64) (i : Fin 16) (half : Fin 2)
  | widen (t : Fin 64) (i : Fin 16) (half : Fin 2)
  | linkLost (t : Fin 64) (i : Fin 16)
  | sliceFault (t : Fin 64) (sl : Fin 2)
  | saturatedWindow (t : Fin 64) (o : Fin 23)
  | routeChange
  | emptyScan
  -- tile memory (R134 to R160, R265, R266, R337 to R339)
  | tmemRd (t : Fin 64) (e : MemErr)
  | tmemLdres (t : Fin 64) (e : MemErr)
  | tmemWr (t : Fin 64)
  | tmemStcond (t : Fin 64)
  | add36 (t : Fin 64) (e : MemErr)
  | add72 (t : Fin 64) (e : MemErr)
  | swap36 (t : Fin 64) (e : MemErr)
  | cas36 (t : Fin 64) (e : MemErr)
  | max36 (t : Fin 64) (e : MemErr)
  | min36 (t : Fin 64) (e : MemErr)
  | and36 (t : Fin 64) (e : MemErr)
  | or36 (t : Fin 64) (e : MemErr)
  | tmemLkacq (t : Fin 64) (e : MemErr)
  | tmemLkrnw (t : Fin 64) (e : MemErr)
  | tmemLkrel (t : Fin 64) (e : MemErr)
  | epochUpdate (t : Fin 64) (n : NiId)
  | scrub (t : Fin 64) (e : MemErr)
  | rowMigration (t : Fin 64) (k : Fin 64) (bank : Fin 6) (row : Fin 128)
  | migrationDone (t : Fin 64)
  | bankMigration (t : Fin 64) (bank : Fin 6)
  -- control matrix and resets (R137 to R142, R322 to R331, R361, R362, R401)
  | hrpRequest (wr : Bool) (addr : W) (len : Fin 16) (data : List W)
  | dbgRequest (wr : Bool) (addr : W) (len : Fin 16) (data : List W)
  | bridgeWrite (port : Fin 2)
  | registerWrite (addr : W) (ws : List (BitVec 23 × W))
  | rcRead (m : Master) (addr : W)
  | mtxRemap (v : W)
  | mtxRstTile (v : W)
  | mtxRstNi (v : W)
  | opcRstHold (c : Fin 2)
  | opcRstPulse (c : Fin 2)
  | tileRst (t : Fin 64)
  | niRst (n : NiId)
  | opcRst (c : Fin 2)
  | fabRst
  -- guards (R165 to R177)
  | grdUpdateHold (g : GuardId)
  | grdEnable (g : GuardId)
  | grdDisable (g : GuardId)
  | grdRegionWrite (g : GuardId) (k : Fin 16) (f : RegionWord) (v : W)
  | grdUpdTo (n : NiId)
  -- fabric time and fanfares (R179 to R209, R341)
  | tcEdge
  | beat
  | treeCalibrate (t : Fin 64) (rtt0 rtt1 : BitVec 16) (residual : BitVec 12)
  | tkSwitchWrite
  | beatMissing
  | switchoverDone
  | tkLostBoth (t : Fin 64)
  | tkSnap
  | tkFadj (v : W)
  | tkPstep (v : W)
  | stepEdge
  | ppsEdge (sub : Fin 16)
  | alarm
  | holdoverTick
  | fnfCmdGo (k : Fin 8)
  | fnfCmdStageOnly (k : Fin 8)
  | fnfCmdStop (k : Fin 8)
  | fnfCmdAbort (k : Fin 8)
  | fstgd (c : Fin 2)
  | farm (c : Fin 2)
  | arm (t : Fin 64) (fid : BitVec 8)
  | stgTo (k : Fin 8)
  | lost (fid : BitVec 8) (n : NiId)
  | launch (fid : BitVec 8)
  | launchEdge (fid : BitVec 8)
  | abort (fid : BitVec 8)
  | fabrt (n : NiId)
  | deferredReset
  | busy (t : Fin 64) (endTc : Fin 601)
  | freeingEnd (k : Fin 8)
  | abortedEnd (k : Fin 8)
  | fnfStatRead (k : Fin 8) (m : Master)
  | pwrWarnAssert
  | brace
  | braceEnd
  | release
  | xarm
  | xstaged
  | xconfirm
  | xabort
  | xconfirmDeadline (k : Fin 8)
  | noconfirm (k : Fin 8)
  | xreportSend (k : Fin 8)
  | xreport
  | commitReport (k : Fin 8)
  | extMsgOut
  | extFrameIn (f : ExtFrame)
  -- mailboxes and firmware (R213 to R238)
  | mbxDb (ws : List (Fin 64 × Bool))
  | mbxSession
  | sessionResetRun
  | commandStart
  | commandComplete
  | badop
  | shadowScan
  | budgetCheck
  | ticketGo
  | ticketAbort (k : Fin 8)
  | heartbeat (c : Fin 2)
  | opcTrap (c : Fin 2) (cause : BitVec 8) (addr : W)
  | takeover
  | bootRomStart
  | imageCheckDone
  | handover
  | opcClkSel (c : Fin 2) (sel : Bool)
  | c1Run
  -- firmware commands (R245 to R255)
  | sessionReset
  | sessionInfo
  | cfgStatus
  | fenceSlice
  | fenceLink
  | tileService
  | unitEnable
  | topoRead
  | profileSet
  | mcGroupSet
  | mcGroupClear
  | mcGroupRead
  | missSet
  | puntSet
  | clsTbSet
  | clsDestSet
  | clsWrrSet
  | admSet
  | mcCfgSet
  | lateSet
  | clsRead
  | grdSet
  | grdOff
  | grdRead
  | tkSwitch
  | alarmSet
  | alarmRead
  | fnfRun
  | fnfStage
  | fnfXrun
  | fnfStop
  | fnfAbort
  | fnfStatus
  | pwrTileSet
  | tileClaim
  | pwrRetain
  | pwrRead
  | bistCfg
  | bistTurn
  | bistResult
  | fwLoad
  | fwCommit
  | fwInfo
  | logRead
  | cntRead
  -- power (R291 to R309)
  | targetRun (t : Fin 64)
  | targetLowGear (t : Fin 64)
  | targetSlim (t : Fin 64) (slice : Fin 2)
  | targetDoze (t : Fin 64)
  | targetOff (t : Fin 64)
  | pwrClaim (t : Fin 64) (owner : BitVec 23)
  | pwrRelease (t : Fin 64) (owner : BitVec 23)
  | profileWrite (v : W)
  | loadInterval (t : Fin 64) (rload mload : Fin 101)
  | gearDown (t : Fin 64)
  | vtransEnd (t : Fin 64)
  | dozeEntry (t : Fin 64)
  | wakeFlag (t : Fin 64) (i : Fin 16)
  | piccoloSample (t : Fin 64) (lines : BitVec 21)
  | wakeComplete (t : Fin 64)
  | retentionEntry
  | wake
  | retentionWake (bad : List (Fin 64 × Fin 2))
  | backup
  -- self-test (R275 to R288)
  | post (memRes : List W) (sigs : List (Fin 64 × Fin 2 × Fin 12 × W)) (rows : List (Fin 64 × Fin 6 × Fin 128))
      (holdFault tmemFault sramFault : Bool) (durUs : BitVec 16)
  | postDone
  | turnTick
  | turnGo (t : Fin 64) (v : W)
  | narrowTimeout (t : Fin 64)
  | partDone (t : Fin 64) (misr : W)
  | turnAbandon (t : Fin 64)
  | widenRouter (t : Fin 64)
  | testStale (t : Fin 64) (u : Fin 8)
  | readmitTest (t : Fin 64) (sl : Fin 2) (misrs : List W)
  | train (t : Fin 64) (sl : Fin 2) (i : Fin 16)
  | trainDone (t : Fin 64) (sl : Fin 2) (i : Fin 16) (bad : Option (Fin 312))
  | laneRepair (t : Fin 64) (sl : Fin 2) (i : Fin 16) (bad : List (List (Fin 312)))
  | scanRequest
  | zeroizeDone
  -- debug, event log, fuses, resets of masters, waiting flags
  | debugHalt (c : Fin 2)
  | debugResume (c : Fin 2)
  | eventRecord
  | evlPost (node : BitVec 23) (ws : List W)
  | mirrorGap (c : Fin 2)
  | unitInterrupt (n : NiId) (lines : BitVec 4)
  | fuseBlow (addr : BitVec 11) (vppOk : Bool)
  | fabRstAssert
  | hrpRst
  | dbgRst
  | ocOk (c : Fin 2)
  | tkStbyOk (k : Fin 2)
  | opcStbyOk
  | lnkWinEnd
  | vddAonUp
  deriving DecidableEq, Repr

end Sys2Proof
end

