-- ==== Sys2Proof/Config.lean ====
section
/-!
DEFINITION. What an implementation fixes and the manual does not state. Every constant of this file
is opaque: nothing in Lean can evaluate it, so a statement holds for every value of it.
Assumption log entries 3 and 4 name them.
-/

namespace Sys2Proof.Config

/-- R71: the n-th number of the spray generator of one NI, from its seed. The manual names a
generator and gives neither its width nor its law. UNVERIFIED, safe: a free value. -/
opaque sprayPick : (seed : Nat) → (n : Nat) → Nat

/-- R133, R217: the contents of the boot ROM, by word offset. Free value. -/
opaque bootRom : Nat → W

/-- R275, R287: the golden MISR value of a part (0–11) under the turn pattern set. Free value. -/
opaque goldenTurn : Nat → W

/-- R275: the golden MISR value of a part (0–11) under the POST pattern set. Free value. -/
opaque goldenPost : Nat → W

/-- R279: the golden results of the memory phase of POST, in the order in which they are folded. -/
opaque goldenPostMem : List W

/-- R233: the SHA-384 digest of a byte string, as 12 words of the byte-string packing of R232.
The function is defined by FIPS 180-4 and not by the manual. Free value. -/
opaque sha384 : List Nat → List W

/-- R233: whether (r, s) is a valid FIPS 186-5 ECDSA P-384 signature by the key over the message.
Arguments: key bytes, r bytes, s bytes, message bytes. Free value. -/
opaque ecdsaValid : List Nat → List Nat → List Nat → List Nat → Bool

/-- The n-th word of all that the manual leaves open where the machine goes on: `State.freeN` counts those that
have been used. Log entry 4 lists the places. Free value. -/
opaque freeWord : Nat → W

end Sys2Proof.Config
end

