-- ==== Sys2Proof/Machine/RegMap.lean ====
section
/-!
DEFINITION. The register map of R380 to R400 as data: the blocks, the offsets by name, and for every
register its access type (R6), its reset value and the fields that a write reaches, with the range
that each field reads back in. RSV bits are the bits that no field covers.
-/

namespace Sys2Proof.Machine

/-- R6: register access types. `fw` is RW owned by firmware. -/
inductive Access | rw | ro | wo | w1c | rc | fw | rsv
  deriving DecidableEq, Repr

/-- One field of a register: lowest bit, length, least and greatest legal value. A value outside the
range reads back as the nearest legal one. -/
structure Fld where
  lo : Nat
  len : Nat
  mn : Nat
  mx : Nat
  deriving DecidableEq, Repr

/-- Register words whose read-back rule is not a plain clamp of each field. -/
inductive Rule
  | plain
  | profile   -- R23: the value 3 is taken as 1
  | period    -- R200, R227: brought into 1,000 to 1,000,000,000; 0 stays 0
  | fadj      -- R180: signed, ±4,294,967
  | ftLow     -- R179: NS above 999,999,999 is taken as 999,999,999, FRAC unchanged
  deriving DecidableEq, Repr

/-- `cnt` registers at `off`, `off + stride`, …. -/
structure Row where
  off : Nat
  cnt : Nat := 1
  stride : Nat := 1
  acc : Access
  rst : Nat := 0
  flds : List Fld := []
  rule : Rule := .plain
  deriving DecidableEq, Repr

/-- A field with its whole range legal. -/
def fl (lo len : Nat) : Fld := ⟨lo, len, 0, 2 ^ len - 1⟩
/-- A field with a range. -/
def flr (lo len mn mx : Nat) : Fld := ⟨lo, len, mn, mx⟩

/-- The blocks of R380 and R138. -/
inductive Block
  | rtr (t : Nat) | slc (t s : Nat) | ni (t p : Nat) | tmem (t : Nat) | ta (t : Nat)
  | grdNi (t p : Nat) | grdOpc (c : Nat)
  | mtx | tk | fnf | pwr | bst | opc | mbx | evl | ext | ident | dbg
  deriving DecidableEq, Repr

/-! ### Addresses (R5, R138, R380) -/

def tileBase (t : Nat) : Nat := 0xF00000000 + t * 0x10000
def rtrReg (t o : Nat) : Nat := tileBase t + o
def slcReg (t s o : Nat) : Nat := tileBase t + 0x1000 + s * 0x1000 + o
/-- NI p of tile t by the index n = 7t + p of R5. -/
def niReg (n o : Nat) : Nat := tileBase (n / 7) + 0x4000 + (n % 7) * 0x800 + o
def tmemReg (t o : Nat) : Nat := tileBase t + 0x6800 + o
def taReg (t o : Nat) : Nat := tileBase t + 0xC000 + o
def globalReg (b o : Nat) : Nat := 0xF01000000 + b * 0x10000 + o
def mtxReg (o : Nat) : Nat := globalReg 0 o
def tkReg (o : Nat) : Nat := globalReg 1 o
def fnfReg (o : Nat) : Nat := globalReg 2 o
def pwrReg (o : Nat) : Nat := globalReg 3 o
def bstReg (o : Nat) : Nat := globalReg 4 o
def opcReg (o : Nat) : Nat := globalReg 5 o
def mbxReg (o : Nat) : Nat := globalReg 6 o
def evlReg (o : Nat) : Nat := globalReg 7 o
def extReg (o : Nat) : Nat := globalReg 8 o
def idReg (o : Nat) : Nat := globalReg 9 o
def dbgReg (o : Nat) : Nat := globalReg 10 o
/-- R211: slot k of the fanfare block. -/
def slotReg (k o : Nat) : Nat := fnfReg (0x100 + 0x10 * k + o)

/-! ### Offsets by name, in the order of R384 to R400 -/

namespace Off
def RTR_ID := 0x000
def RTR_CTRL := 0x001
def RTR_STAT := 0x002
def RTR_HOLD_MASK_LO := 0x004
def RTR_HOLD_MASK_HI := 0x005
def RTR_OLD_CNT := 0x006
def RTR_OLD_FWD := 0x007
def RTR_KNIGHT_CNT := 0x008
def RTR_SWAP_CNT := 0x009
def RTR_MC_CNT := 0x00A
def RTR_UNROUTE_CNT := 0x00B
def RTR_UNROUTE_INFO := 0x00C
def RTR_LOCAL_FENCE := 0x00D
def RTR_MAP_EPOCH := 0x00E
def RTR_LOCAL_HALF := 0x00F
def RTR_WRR_W0 := 0x010
def RTR_WRR_W1 := 0x011
def RTR_AGE_LIM := 0x012
def RTR_AGE_ESC_CNT := 0x013
def RTR_HOTSPOT_CNT := 0x014
def RTR_HOTSPOT_INFO := 0x015
def RTR_SC5_HALF_CNT := 0x016
def RTR_RESYNC_CNT := 0x017
def RTR_LNK_CFG := 0x018
def RTR_FAULT_DROP_CNT := 0x019
def RTR_BUF_UE_CNT := 0x01A
def RTR_FMAP := 0x100
def SLC_STAT := 0x000
def SLC_READMIT_CNT := 0x001
def SLC_NARROW_MAX := 0x002
def LNK_CTRL (i : Nat) := 0x100 + 0x20 * i
def LNK_STAT (i : Nat) := 0x101 + 0x20 * i
def LNK_REPAIR_CNT (i : Nat) := 0x102 + 0x20 * i
def LNK_CE_CNT (i : Nat) := 0x103 + 0x20 * i
def LNK_TX_REMAP (i k : Nat) := 0x104 + 0x20 * i + k
def LNK_RX_REMAP (i k : Nat) := 0x110 + 0x20 * i + k
def LNK_CE_TRK (i : Nat) := 0x11C + 0x20 * i
def LNK_NAK_CNT (i : Nat) := 0x11D + 0x20 * i
def LNK_RFAIL (i : Nat) := 0x11E + 0x20 * i
def NI_CTRL := 0x000
def NI_STAT := 0x001
def NI_CFG := 0x002
def NI_NODE := 0x003
def NI_DRAIN_TO := 0x004
def NI_PKT_TO := 0x005
def NI_FT_COMP := 0x006
def NI_ERR := 0x008
def NI_ERR_MASK := 0x009
def NI_ERR_INFO := 0x00A
def NI_KILL_TX_CNT := 0x00B
def NI_KILL_RX_CNT := 0x00C
def NI_DROP_CNT := 0x00D
def NI_ABORT_CNT := 0x00E
def NI_FWD_CNT := 0x00F
def NI_SPRAY_SEED := 0x020
def NI_REORD_TO := 0x021
def NI_REORD_STAT := 0x022
def NI_REORD_SKIP_CNT := 0x023
def NI_UNREACH_CNT := 0x024
def NI_TB_SC7 := 0x030
def NI_TB_SC6 := 0x031
def NI_TB_SC5 := 0x032
def NI_TB_LEVEL := 0x033
def NI_DEST_SC7_LO := 0x034
def NI_DEST_SC5_LO := 0x038
def NI_DEST_SC5_HI := 0x039
def NI_ADM_TO := 0x03A
def NI_RSV_CFG := 0x03B
def NI_RSV_PUSH := 0x03C
def NI_RSV_STAT := 0x03D
def NI_RSV_ERR := 0x03E
def NI_REFUSE_CNT := 0x03F
def NI_ADM_WAIT_MAX := 0x040
def NI_HI_UNDECL_CNT := 0x041
def NI_TX_FLIT (sc : Nat) := 0x048 + sc
def NI_RX_FLIT (sc : Nat) := 0x050 + sc
def NI_MC_CFG := 0x060
def NI_MC_INV := 0x061
def NI_MC_STAT := 0x062
def NI_MC_ERR := 0x063
def NI_MC_MISS_CNT := 0x064
def NI_MC_NOCRED_CNT := 0x065
def NI_LATE_CFG := 0x068
def NI_LATE_MAX := 0x069
def NI_LATE_INFO := 0x06A
def NI_LATE_FT := 0x06B
def NI_LATE_LOST_CNT := 0x06C
def NI_LATE_H5 (b : Nat) := 0x070 + b
def NI_LATE_HN (b : Nat) := 0x080 + b
def NI_PHOLD := 0x090
def NI_PHOLD_DST := 0x091
def NI_PHOLD_CNT := 0x092
def NI_PUNT_DST (i : Nat) := 0x098 + i
def NI_PUNT_TB := 0x09C
def NI_PUNT_LEVEL := 0x09D
def NI_PUNT_CNT := 0x09E
def NI_PUNT_WAIT_CNT := 0x09F
def NI_MISS_ACT := 0x0A0
def NI_EPOCH := 0x0B0
def NI_RES_STAT := 0x0B1
def NI_BAR_STAT := 0x0B2
def NI_XCLS_WAIT_CNT := 0x0B3
def CDC_UC_PER := 0x0C0
def CDC_STAT := 0x0C1
def CDC_LOST_EVT := 0x0C2
def CDC_LOST_TIM := 0x0C3
def CDC_LAT_MAX := 0x0C4
def NI_FAULT_CNT := 0x0C8
def NI_UINT := 0x0C9
def NI_UINT_MASK := 0x0CA
def GRD_CTRL := 0x00
def GRD_STAT := 0x01
def GRD_ERR := 0x02
def GRD_ERR_MASK := 0x03
def GRD_FAULT_ADDR := 0x04
def GRD_FAULT_INFO := 0x05
def GRD_NOTICE_LINE := 0x06
def GRD_NOTICE_CNT := 0x07
def GRD_FAULT_CNT := 0x08
def GRD_UPD_TO := 0x09
def GRD_START (k : Nat) := 0x10 + 4 * k
def GRD_END (k : Nat) := 0x11 + 4 * k
def GRD_PERM (k : Nat) := 0x12 + 4 * k
def TMEM_USEC := 0x010
def TMEM_FOP_CNT := 0x011
def TMEM_LOCK_TORN_CNT := 0x012
def TMEM_LOCK_INFO := 0x013
def TMEM_RES_CNT := 0x014
def TMEM_STC_FAIL_CNT := 0x015
def TMEM_ECC_CFG := 0x020
def TMEM_CE_CNT := 0x021
def TMEM_UE_CNT := 0x022
def TMEM_UE_ADDR := 0x023
def TMEM_ROW_TRK := 0x024
def TMEM_SCRUB_STAT := 0x025
def TMEM_POI_WR_CNT := 0x026
def TMEM_BANK_MAP := 0x030
def TMEM_MIG_STAT := 0x031
def TMEM_SPARE_USED := 0x032
def TMEM_SPARE (k : Nat) := 0x040 + k
def TMEM_EPOCH (node : Nat) := 0x200 + node
def PWR_TA_REQ := 0x000
def PWR_TA_STAT := 0x001
def PWR_TILE_CLAIM := 0x002
def PWR_REFUSE_CNT := 0x003
def PWR_LAST_REFUSER := 0x004
def PWR_REFUSE_BY (k : Nat) := 0x004 + k
def PWR_WAKE_CNT := 0x00C
def PWR_PIC_STAT := 0x00D
def PWR_VT_CNT := 0x00E
def BST_TA_LOAD := 0x100
def BST_TA_CTRL := 0x101
def BST_TA_STAT := 0x102
def BST_TA_REC (u j : Nat) := 0x110 + 8 * u + j
def CDC_TA_STAT := 0x180
def CDC_TA_LOST := 0x181
def MTX_REMAP := 0x0000
def MTX_DECODE_MISS := 0x0001
def MTX_DECODE_FIRST := 0x0002
def MTX_DECODE_ADDR := 0x0003
def MTX_COLL_CNT := 0x0004
def MTX_COLL_INFO := 0x0005
def MTX_BAR_TO := 0x0008
def MTX_BAR_STAT := 0x0009
def MTX_BAR_TO_CNT := 0x000A
def MTX_POST_LEVEL := 0x000B
def MTX_RST_TILE := 0x0010
def MTX_RST_NI := 0x0011
def MTX_RST_OPC := 0x0012
def MTX_RST_STAT := 0x0013
def MTX_RST_CAUSE := 0x0014
def MTX_RST_CNT := 0x0015
def MTX_RST_CUT_CNT := 0x0016
def CDC_HRP_PER := 0x0020
def CDC_DBG_PER := 0x0021
def CDC_OPC_STAT := 0x0022
def CDC_OPC_LOST := 0x0023
def TK_CTRL := 0x0000
def TK_STAT := 0x0001
def TK_SNAP := 0x0002
def TK_SNAP_H := 0x0003
def TK_SNAP_L := 0x0004
def TK_FADJ := 0x0008
def TK_INC := 0x0009
def TK_PSTEP := 0x000A
def TK_PPS_COMP := 0x000B
def TK_PPS_SET := 0x000C
def TK_PPS_CAP_H := 0x000D
def TK_PPS_CAP_L := 0x000E
def TK_PPS_CNT := 0x000F
def TK_ALARM_H := 0x0010
def TK_ALARM_L := 0x0011
def TK_ALARM_CTRL := 0x0012
def TK_ALARM_STAT := 0x0013
def TK_BRACE_FT_H := 0x0014
def TK_BRACE_FT_L := 0x0015
def TK_BRACE_DUR := 0x0016
def TK_SW_CNT := 0x0017
def TK_TREE_SKEW := 0x0018
def TK_TREE_DLY (t : Nat) := 0x0040 + t
def FNF_CTRL := 0x0000
def FNF_SEQ := 0x0001
def FNF_STG_TO := 0x0002
def FNF_PWR_WIN := 0x0003
def FNF_APPLY_CNT := 0x0004
def FNF_ABORT_CNT := 0x0005
def FNF_LATE_CNT := 0x0006
def FNF_CLAMP_CNT := 0x0007
def FNF_DEFER_CNT := 0x0008
def FNF_LIST := 0x0
def FNF_LEN := 0x1
def FNF_LT_H := 0x2
def FNF_LT_L := 0x3
def FNF_PER := 0x4
def FNF_CMD := 0x5
def FNF_STAT := 0x6
def FNF_LAUNCH := 0x7
def FNF_LATE := 0x8
def FNF_GFID := 0x9
def FNF_XLIST := 0xA
def FNF_XCNT := 0xB
def FNF_XREC := 0xC
def FNF_BAD := 0xD
def FNF_XHIST (j : Nat) := 0x0400 + 2 * j
def PWR_CTRL := 0x0000
def PWR_STAT := 0x0001
def PWR_WAKE_CFG := 0x0002
def PWR_WAKE_CAUSE := 0x0003
def PWR_WAKE_FT_H := 0x0004
def PWR_WAKE_FT_L := 0x0005
def PWR_BRACE_CNT := 0x0006
def PWR_BRACE_MAX := 0x0007
def PWR_LATE_FT_H := 0x0008
def PWR_LATE_FT_L := 0x0009
def PWR_RET_STAT := 0x000A
def PWR_PROFILE := 0x0010
def PWR_SC5_TILES_LO := 0x0014
def PWR_SC5_TILES_HI := 0x0015
def PWR_PROFILE_STAT := 0x0016
def PWR_AUTO_T := 0x0020
def PWR_AUTO_E := 0x0021
def PWR_PIC_CFG := 0x0022
def RETENTION := 0x8000
def BST_CFG := 0x0000
def BST_NIGHT := 0x0001
def BST_EXCL_LO := 0x0002
def BST_EXCL_HI := 0x0003
def BST_STALE := 0x0004
def BST_POLICY := 0x0005
def BST_POST_STAT := 0x0010
def BST_POST_SIG := 0x0011
def BST_POST_REF := 0x0012
def BST_POST_COV := 0x0013
def BST_POST_DUR := 0x0014
def BST_POST_ROWS := 0x0015
def BST_TURN_CNT := 0x0020
def BST_PASS_CNT := 0x0021
def BST_ABANDON_CNT := 0x0022
def BST_NOSTART_CNT := 0x0023
def BST_FAIL_CNT := 0x0024
def BST_SKIP_CNT := 0x0025
def BST_ZERO_STAT := 0x0030
def OPC_FW_STAT := 0x0000
def OPC_CFG_EPOCH := 0x0001
def OPC_HB (c : Nat) := 0x0002 + c
def OPC_CTRL := 0x0004
def OPC_CLK (c : Nat) := 0x0005 + c
def OPC_TRAP (c : Nat) := 0x0007 + c
def OPC_SHADOW_CNT := 0x0009
def OPC_SHADOW_LAST := 0x000A
def OPC_SCAN_STAT := 0x000B
def OPC_CLAMP_CNT := 0x000C
def OPC_SUPER_CNT := 0x000D
def OPC_KEY_STAT := 0x0010
def OPC_KEY_SHADOW (s i : Nat) := 0x0020 + 0x10 * s + i
def OPC_SC5_BOUND := 0x0040
def OPC_SC5_WORST_SRC := 0x0041
def OPC_SC5_WORST_DST := 0x0042
def OPC_PHOLD_BOUND := 0x0043
def OPC_IMG_STAT := 0x0044
def OPC_IMG_BANK := 0x0045
def OPC_FO_STAT := 0x0046
def MBX_DB (n : Nat) := 0x0000 + n
def MBX_STAT (n : Nat) := 0x0040 + n
def MBX_STAMP (n : Nat) := 0x0080 + n
def MBX_SESSION := 0x00C0
def MBX_AVAIL := 0x00C1
def MBX_DONE_LO := 0x00C2
def MBX_DONE_HI := 0x00C3
def MBX_IRQ_EN_LO := 0x00C4
def MBX_IRQ_EN_HI := 0x00C5
def MBX_OVR_LO := 0x00C6
def MBX_OVR_HI := 0x00C7
def MBX_SESS_STAT := 0x00C8
def MBX_STAMP_NOW := 0x00C9
def EVL_WR_POS := 0x0000
def EVL_QLVL := 0x0001
def EVL_LOST_CNT := 0x0002
def EVL_MIRROR (c : Nat) := 0x0003 + c
def EVL_IRQ_PEND := 0x0008
def EVL_IRQ_ROUTE (s : Nat) := 0x0010 + s
def EVL_MSI_ADDR := 0x0020
def EVL_MSI_DATA := 0x0021
def EVL_MSI_CNT := 0x0022
def EVL_POST (i : Nat) := 0x0030 + i
def EVL_UINT_LO (k : Nat) := 0x0040 + 2 * k
def EVL_UINT_HI (k : Nat) := 0x0041 + 2 * k
def EXT_CTRL := 0x0000
def EXT_INST := 0x0001
def EXT_PC := 0x0002
def EXT_MAC_PFX := 0x0003
def EXT_XRPT_ADDR := 0x0004
def EXT_XREPORT_TO := 0x0005
def EXT_TX_CNT := 0x0008
def EXT_RX_CNT := 0x0009
def EXT_LOST_CNT := 0x000A
def EXT_BAD_CNT := 0x000B
def EXT_DROP_CNT := 0x000C
def KNL_ID := 0x0000
def KNL_FUSE_STAT := 0x0001
def KNL_SHAPE := 0x0002
def KNL_POP (w : Nat) := 0x0010 + w
def DBG_PEEK := 0x0000
def DBG_FREEZE_LEASE := 0x0001
def DBG_HALT := 0x0002
def DBG_HALT_STAT := 0x0003
end Off

/-! ### The tables -/

/-- R384. -/
def rtrRows : List Row := [
  { off := 0x000, acc := .ro },
  { off := 0x001, acc := .fw, rst := 2, flds := [fl 0 3] },
  { off := 0x002, acc := .ro, rst := 3 },
  { off := 0x004, cnt := 2, acc := .fw, flds := [fl 0 32] },
  { off := 0x006, cnt := 5, acc := .ro },
  { off := 0x00B, acc := .rc },
  { off := 0x00C, cnt := 2, acc := .ro },
  { off := 0x00E, acc := .fw, flds := [fl 0 16] },
  { off := 0x00F, acc := .ro },
  { off := 0x010, acc := .fw, rst := 0x20100801,
    flds := [flr 0 8 1 255, flr 8 8 1 255, flr 16 8 1 255, flr 24 8 1 255] },
  { off := 0x011, acc := .fw, rst := 0x40, flds := [flr 0 8 1 255] },
  { off := 0x012, acc := .fw, rst := 0x800, flds := [flr 0 16 64 65535] },
  { off := 0x013, acc := .ro },
  { off := 0x014, acc := .rc },
  { off := 0x015, cnt := 3, acc := .ro },
  { off := 0x018, acc := .fw, rst := 0x3E8310, flds := [flr 0 8 1 255, flr 8 4 1 15, flr 12 16 1 65535] },
  { off := 0x019, acc := .rc },
  { off := 0x01A, acc := .ro },
  { off := 0x100, cnt := 64, acc := .fw, flds := [fl 0 18] }]

/-- R385: the words of one link group, at 0x100 + 0x20·i; the last word of the group is RSV. -/
def linkRows : List Row := [
  { off := 0x00, acc := .fw, flds := [fl 0 1] },
  { off := 0x01, cnt := 3, acc := .ro },
  { off := 0x04, cnt := 24, acc := .fw, flds := [flr 0 9 0 311, fl 9 1] },
  { off := 0x1C, cnt := 3, acc := .ro },
  { off := 0x1F, acc := .rsv }]

/-- R385: the words of a slice below the link groups. -/
def slcRows : List Row := [
  { off := 0x000, cnt := 2, acc := .ro },
  { off := 0x002, acc := .rc }]

/-- R386. The rows with positional reset values are completed in `resetValue`. -/
def niRows : List Row := [
  { off := 0x000, acc := .rw, rst := 0xC, flds := [fl 0 4] },
  { off := 0x001, cnt := 3, acc := .ro },
  { off := 0x004, acc := .rw, rst := 0x64, flds := [flr 0 14 1 10000] },
  { off := 0x005, acc := .rw, rst := 0x64, flds := [flr 0 16 1 65535] },
  { off := 0x006, acc := .rw, flds := [fl 0 16] },
  { off := 0x008, acc := .w1c, flds := [fl 0 7] },
  { off := 0x009, acc := .rw, flds := [fl 0 36] },
  { off := 0x00A, acc := .ro },
  { off := 0x00B, cnt := 4, acc := .rc },
  { off := 0x00F, acc := .ro },
  { off := 0x020, acc := .rw, flds := [fl 0 23] },
  { off := 0x021, acc := .rw, rst := 0x32, flds := [flr 0 14 1 10000] },
  { off := 0x022, acc := .ro },
  { off := 0x023, cnt := 2, acc := .rc },
  { off := 0x030, cnt := 2, acc := .rw, rst := 0x20040, flds := [flr 0 11 1 1024, flr 12 11 4 1024] },
  { off := 0x032, acc := .rw, rst := 0x8080, flds := [flr 0 11 1 1024, flr 12 11 4 1024] },
  { off := 0x033, acc := .ro, rst := 0x2010020 },
  { off := 0x034, cnt := 6, acc := .rw, rst := 0xFFFFFFFF, flds := [fl 0 32] },
  { off := 0x03A, acc := .rw, rst := 0xC8, flds := [flr 0 13 10 5000] },
  { off := 0x03B, acc := .rw, rst := 0x64043, flds := [fl 0 4, flr 4 5 1 16, flr 12 12 1 4095] },
  { off := 0x03C, acc := .wo },
  { off := 0x03D, acc := .ro },
  { off := 0x03E, acc := .w1c, flds := [fl 0 4] },
  { off := 0x03F, cnt := 3, acc := .rc },
  { off := 0x048, cnt := 16, acc := .ro },
  { off := 0x060, acc := .rw, rst := 0x3E804, flds := [fl 0 1, flr 1 4 1 8, flr 8 13 1 8191] },
  { off := 0x061, acc := .wo },
  { off := 0x062, acc := .ro },
  { off := 0x063, acc := .w1c, flds := [fl 0 3] },
  { off := 0x064, acc := .ro },
  { off := 0x065, acc := .rc },
  { off := 0x068, acc := .rw, rst := 0x400018, flds := [flr 0 12 1 4095, fl 12 16] },
  { off := 0x069, acc := .rc },
  { off := 0x06A, cnt := 2, acc := .ro },
  { off := 0x06C, acc := .rc },
  { off := 0x070, cnt := 32, acc := .ro },
  { off := 0x090, acc := .wo },
  { off := 0x091, acc := .rw, flds := [fl 0 23] },
  { off := 0x092, acc := .ro },
  { off := 0x098, cnt := 4, acc := .rw, rst := 0x800000024, flds := [fl 0 23, fl 35 1] },
  { off := 0x09C, acc := .rw, rst := 0x2004B0, flds := [flr 0 16 24 65535, flr 16 8 1 255] },
  { off := 0x09D, acc := .ro, rst := 0x20 },
  { off := 0x09E, acc := .ro },
  { off := 0x09F, acc := .rc },
  { off := 0x0A0, acc := .fw, flds := [fl 0 24] },
  { off := 0x0B0, cnt := 4, acc := .ro },
  { off := 0x0C0, acc := .ro },
  { off := 0x0C1, acc := .w1c, flds := [fl 0 3] },
  { off := 0x0C2, cnt := 3, acc := .rc },
  { off := 0x0C8, acc := .rc },
  { off := 0x0C9, acc := .ro },
  { off := 0x0CA, acc := .rw, flds := [fl 0 4] }]

/-- R387. -/
def grdRows : List Row := [
  { off := 0x00, acc := .rw, flds := [fl 0 2] },
  { off := 0x01, acc := .ro },
  { off := 0x02, acc := .w1c, flds := [fl 0 5] },
  { off := 0x03, acc := .rw, flds := [fl 0 36] },
  { off := 0x04, cnt := 3, acc := .ro },
  { off := 0x07, cnt := 2, acc := .rc },
  { off := 0x09, acc := .rw, rst := 0x32, flds := [flr 0 14 1 10000] },
  { off := 0x10, cnt := 16, stride := 4, acc := .rw, flds := [fl 0 36] },
  { off := 0x11, cnt := 16, stride := 4, acc := .rw, flds := [fl 0 36] },
  { off := 0x12, cnt := 16, stride := 4, acc := .rw, flds := [fl 0 4] },
  { off := 0x13, cnt := 16, stride := 4, acc := .rsv }]

/-- R388. -/
def tmemRows : List Row := [
  { off := 0x010, cnt := 2, acc := .ro },
  { off := 0x012, acc := .rc },
  { off := 0x013, cnt := 3, acc := .ro },
  { off := 0x020, acc := .fw, rst := 0x14B0008, flds := [flr 0 8 1 255, flr 8 16 24 65535, fl 24 1] },
  { off := 0x021, acc := .ro },
  { off := 0x022, acc := .rc },
  { off := 0x023, cnt := 4, acc := .ro },
  { off := 0x030, acc := .fw, rst := 6, flds := [fl 0 4] },
  { off := 0x031, cnt := 2, acc := .ro },
  { off := 0x040, cnt := 64, acc := .fw, flds := [fl 0 11] },
  { off := 0x200, cnt := 512, acc := .ro }]

/-- R389. -/
def taRows : List Row := [
  { off := 0x000, acc := .fw, flds := [flr 0 3 0 4, fl 3 1] },
  { off := 0x001, acc := .ro },
  { off := 0x002, acc := .rw, flds := [fl 0 26] },
  { off := 0x003, cnt := 12, acc := .ro },
  { off := 0x100, acc := .ro },
  { off := 0x101, acc := .wo },
  { off := 0x102, acc := .ro },
  { off := 0x110, cnt := 8, stride := 8, acc := .ro },
  { off := 0x111, cnt := 8, stride := 8, acc := .ro },
  { off := 0x112, cnt := 8, stride := 8, acc := .ro },
  { off := 0x113, cnt := 8, stride := 8, acc := .ro },
  { off := 0x114, cnt := 8, stride := 8, acc := .ro },
  { off := 0x115, cnt := 8, stride := 8, acc := .ro },
  { off := 0x116, cnt := 8, stride := 8, acc := .rsv },
  { off := 0x117, cnt := 8, stride := 8, acc := .rsv },
  { off := 0x180, acc := .w1c, flds := [fl 0 2] },
  { off := 0x181, acc := .rc }]

/-- R390. -/
def mtxRows : List Row := [
  { off := 0x00, acc := .rw, flds := [fl 0 1] },
  { off := 0x01, acc := .rc },
  { off := 0x02, cnt := 4, acc := .ro },
  { off := 0x08, acc := .rw, rst := 0x64, flds := [flr 0 14 1 10000] },
  { off := 0x09, acc := .ro },
  { off := 0x0A, acc := .rc },
  { off := 0x0B, acc := .ro },
  { off := 0x10, cnt := 3, acc := .wo },
  { off := 0x13, cnt := 3, acc := .ro },
  { off := 0x16, acc := .rc },
  { off := 0x20, cnt := 2, acc := .ro },
  { off := 0x22, acc := .w1c, flds := [fl 0 2] },
  { off := 0x23, acc := .rc }]

/-- R391. -/
def tkRows : List Row := [
  { off := 0x00, acc := .rw, flds := [fl 0 3] },
  { off := 0x01, acc := .ro },
  { off := 0x02, acc := .wo },
  { off := 0x03, cnt := 2, acc := .ro },
  { off := 0x08, acc := .rw, flds := [fl 0 32], rule := .fadj },
  { off := 0x09, acc := .ro, rst := 0xD5555555 },
  { off := 0x0A, acc := .wo },
  { off := 0x0B, acc := .rw, flds := [fl 0 16] },
  { off := 0x0C, acc := .rw, flds := [fl 0 36] },
  { off := 0x0D, cnt := 3, acc := .ro },
  { off := 0x10, acc := .rw, flds := [fl 0 36] },
  { off := 0x11, acc := .rw, flds := [fl 0 36], rule := .ftLow },
  { off := 0x12, acc := .rw, flds := [fl 0 1] },
  { off := 0x13, acc := .w1c, flds := [fl 0 2] },
  { off := 0x14, cnt := 5, acc := .ro },
  { off := 0x40, cnt := 64, acc := .ro }]

/-- R392. -/
def fnfRows : List Row := [
  { off := 0x00, acc := .fw, rst := 1, flds := [fl 0 2] },
  { off := 0x01, acc := .ro },
  { off := 0x02, acc := .fw, rst := 0x64, flds := [flr 0 14 1 10000] },
  { off := 0x03, acc := .fw, rst := 0xA, flds := [fl 0 14] },
  { off := 0x04, cnt := 5, acc := .ro },
  { off := 0x100, cnt := 8, stride := 16, acc := .fw, flds := [fl 0 36] },
  { off := 0x101, cnt := 8, stride := 16, acc := .fw, rst := 1, flds := [flr 0 13 1 4096, fl 13 13] },
  { off := 0x102, cnt := 8, stride := 16, acc := .fw, flds := [fl 0 36] },
  { off := 0x103, cnt := 8, stride := 16, acc := .fw, flds := [fl 0 36], rule := .ftLow },
  { off := 0x104, cnt := 8, stride := 16, acc := .fw, flds := [fl 0 30], rule := .period },
  { off := 0x105, cnt := 8, stride := 16, acc := .wo },
  { off := 0x106, cnt := 8, stride := 16, acc := .ro },
  { off := 0x107, cnt := 8, stride := 16, acc := .ro },
  { off := 0x108, cnt := 8, stride := 16, acc := .ro },
  { off := 0x109, cnt := 8, stride := 16, acc := .fw, flds := [fl 0 32] },
  { off := 0x10A, cnt := 8, stride := 16, acc := .fw, flds := [fl 0 36] },
  { off := 0x10B, cnt := 8, stride := 16, acc := .fw, flds := [fl 0 17] },
  { off := 0x10C, cnt := 8, stride := 16, acc := .fw, flds := [fl 0 32] },
  { off := 0x10D, cnt := 8, stride := 16, acc := .ro },
  { off := 0x10E, cnt := 8, stride := 16, acc := .rsv },
  { off := 0x10F, cnt := 8, stride := 16, acc := .rsv },
  { off := 0x400, cnt := 128, acc := .ro }]

/-- R310: the fields of PWR_AUTO_T and PWR_AUTO_E. -/
def autoFlds : List Fld := [flr 0 7 1 50, flr 7 7 1 50, flr 14 10 1 1023, flr 24 10 1 1023]

/-- R393. -/
def pwrRows : List Row := [
  { off := 0x00, acc := .rw, rst := 0x12C, flds := [flr 0 16 1 65535] },
  { off := 0x01, acc := .ro },
  { off := 0x02, acc := .fw, rst := 3, flds := [fl 0 2] },
  { off := 0x03, cnt := 4, acc := .ro },
  { off := 0x07, acc := .rc },
  { off := 0x08, cnt := 3, acc := .ro },
  { off := 0x10, acc := .fw, rst := 1, flds := [fl 0 2], rule := .profile },
  { off := 0x14, cnt := 2, acc := .fw, rst := 0xFFFFFFFF, flds := [fl 0 32] },
  { off := 0x16, acc := .ro, rst := 1 },
  { off := 0x20, acc := .fw, rst := 0x64191194, flds := autoFlds },
  { off := 0x21, acc := .fw, rst := 0x140516A3, flds := autoFlds },
  { off := 0x22, acc := .fw, rst := 0x20402, flds := [flr 0 10 1 1000, flr 10 5 1 21, flr 15 8 1 255] },
  { off := 0x8000, cnt := 8192, acc := .rw, flds := [fl 0 36] }]

/-- R394. -/
def bstRows : List Row := [
  { off := 0x00, acc := .fw, rst := 0x28007D0, flds := [flr 0 20 100 1000000, flr 20 7 1 90, fl 27 1] },
  { off := 0x01, acc := .fw, flds := [flr 0 17 0 86399, flr 17 17 0 86400] },
  { off := 0x02, cnt := 2, acc := .fw, flds := [fl 0 32] },
  { off := 0x04, acc := .fw, rst := 0x3C, flds := [flr 0 16 1 65535] },
  { off := 0x05, acc := .ro },
  { off := 0x10, cnt := 6, acc := .ro },
  { off := 0x20, cnt := 4, acc := .ro },
  { off := 0x24, acc := .rc },
  { off := 0x25, acc := .ro },
  { off := 0x30, acc := .ro }]

/-- R395. -/
def opcRows : List Row := [
  { off := 0x00, acc := .fw, flds := [fl 0 28] },
  { off := 0x01, cnt := 3, acc := .fw, flds := [fl 0 36] },
  { off := 0x04, acc := .rw, flds := [fl 0 1] },
  { off := 0x05, cnt := 2, acc := .rw, flds := [fl 0 1] },
  { off := 0x07, cnt := 4, acc := .fw, flds := [fl 0 36] },
  { off := 0x0B, acc := .fw, flds := [fl 0 32] },
  { off := 0x0C, cnt := 2, acc := .fw, flds := [fl 0 36] },
  { off := 0x10, acc := .ro },
  { off := 0x20, cnt := 12, acc := .ro },
  { off := 0x30, cnt := 12, acc := .ro },
  { off := 0x40, acc := .fw, flds := [fl 0 13] },
  { off := 0x41, cnt := 2, acc := .fw, flds := [fl 0 23] },
  { off := 0x43, acc := .fw, flds := [fl 0 19] },
  { off := 0x44, acc := .fw, flds := [fl 0 6, fl 12 24] },
  { off := 0x45, acc := .fw, flds := [fl 0 2] },
  { off := 0x46, acc := .fw, flds := [fl 0 22] }]

/-- R396. -/
def mbxRows : List Row := [
  { off := 0x00, cnt := 64, acc := .wo },
  { off := 0x40, cnt := 128, acc := .ro },
  { off := 0xC0, acc := .wo },
  { off := 0xC1, acc := .ro },
  { off := 0xC2, cnt := 2, acc := .w1c, flds := [fl 0 32] },
  { off := 0xC4, acc := .rw, rst := 0xFF, flds := [fl 0 32] },
  { off := 0xC5, acc := .rw, flds := [fl 0 32] },
  { off := 0xC6, cnt := 2, acc := .w1c, flds := [fl 0 32] },
  { off := 0xC8, acc := .fw, flds := [fl 0 30] },
  { off := 0xC9, acc := .ro }]

/-- R397. Bits 5 and 8–11 of EVL_IRQ_PEND follow their condition, so a write does not reach them. -/
def evlRows : List Row := [
  { off := 0x00, cnt := 5, acc := .ro },
  { off := 0x08, acc := .w1c, flds := [fl 0 5, fl 6 1] },
  { off := 0x10, cnt := 12, acc := .rw, flds := [fl 0 5, fl 8 8] },
  { off := 0x20, acc := .rw, flds := [fl 0 36] },
  { off := 0x21, acc := .rw, flds := [fl 8 28] },
  { off := 0x22, acc := .ro },
  { off := 0x30, cnt := 8, acc := .wo },
  { off := 0x40, cnt := 8, acc := .ro }]

/-- R398. -/
def extRows : List Row := [
  { off := 0x00, acc := .rw, rst := 0x3C, flds := [fl 0 4, flr 4 4 1 15] },
  { off := 0x01, acc := .rw, flds := [fl 0 14] },
  { off := 0x02, acc := .rw, flds := [fl 0 23] },
  { off := 0x03, acc := .rw, flds := [fl 0 34] },
  { off := 0x04, acc := .rw, flds := [fl 0 36] },
  { off := 0x05, acc := .rw, rst := 0x3E8, flds := [flr 0 16 1 65535] },
  { off := 0x08, cnt := 2, acc := .ro },
  { off := 0x0A, cnt := 3, acc := .rc }]

/-- R399. -/
def identRows : List Row := [
  { off := 0x00, acc := .ro, rst := 0x640800A1 },
  { off := 0x01, acc := .ro },
  { off := 0x02, acc := .ro, rst := 0x248788 },
  { off := 0x10, cnt := 10, acc := .ro }]

/-- R400. -/
def dbgRows : List Row := [
  { off := 0x00, acc := .rw, rst := 1, flds := [fl 0 1] },
  { off := 0x01, cnt := 2, acc := .rw, flds := [fl 0 2] },
  { off := 0x03, acc := .ro }]

/-- The first row that lists offset `o`. -/
def findRow : List Row → Nat → Option Row
  | [], _ => none
  | r :: rs, o =>
    if r.off ≤ o ∧ (o - r.off) % r.stride = 0 ∧ (o - r.off) / r.stride < r.cnt then some r
    else findRow rs o

/-- R3: p6 is present at tiles 0, 7, 56 and 63 only. -/
def hasP6 (t : Nat) : Bool := t = 0 || t = 7 || t = 56 || t = 63

/-- R380, R138: the block and offset that a control-matrix address names. -/
def blockOf (a : Nat) : Option (Block × Nat) :=
  if 0xF00000000 ≤ a ∧ a < 0xF00400000 then
    let t := (a - 0xF00000000) / 0x10000
    let o := a % 0x10000
    if o < 0x1000 then some (.rtr t, o)
    else if o < 0x3000 then some (.slc t (o / 0x1000 - 1), o % 0x1000)
    else if 0x4000 ≤ o ∧ o < 0x7800 then
      let p := (o - 0x4000) / 0x800
      let q := o % 0x800
      if p = 5 then some (.tmem t, q)
      else if p = 6 ∧ !hasP6 t then none
      else if 0x100 ≤ q ∧ q < 0x150 then some (.grdNi t p, q - 0x100)
      else some (.ni t p, q)
    else if 0xC000 ≤ o ∧ o < 0xD000 then some (.ta t, o - 0xC000)
    else none
  else if 0xF01000000 ≤ a ∧ a < 0xF010B0000 then
    let b := (a - 0xF01000000) / 0x10000
    let o := a % 0x10000
    match b with
    | 0 => some (.mtx, o)
    | 1 => some (.tk, o)
    | 2 => some (.fnf, o)
    | 3 => some (.pwr, o)
    | 4 => some (.bst, o)
    | 5 => if 0x100 ≤ o ∧ o < 0x150 then some (.grdOpc 0, o - 0x100)
           else if 0x180 ≤ o ∧ o < 0x1D0 then some (.grdOpc 1, o - 0x180)
           else some (.opc, o)
    | 6 => some (.mbx, o)
    | 7 => some (.evl, o)
    | 8 => some (.ext, o)
    | 9 => some (.ident, o)
    | _ => some (.dbg, o)
  else none

/-- R85, R127: the registers that are implemented at some ports only. -/
def implementedAt (p o : Nat) : Bool :=
  if 0x021 ≤ o ∧ o ≤ 0x023 then p ≤ 3
  else if (0x068 ≤ o ∧ o ≤ 0x06C) ∨ (0x070 ≤ o ∧ o ≤ 0x08F) then p ≤ 1
  else if 0x090 ≤ o ∧ o ≤ 0x092 ∨ o = 0x0A0 then p = 0
  else true

/-- The row of a register within its block; `none` is an unlisted word (R381). -/
def rowOf (b : Block) (o : Nat) : Option Row :=
  match b with
  | .rtr _ => findRow rtrRows o
  | .slc t _ =>
    if 0x100 ≤ o ∧ o < 0x300 then
      let i := (o - 0x100) / 0x20
      if i = t % 8 ∨ i = 8 + t / 8 then some { off := o, acc := .rsv }
      else findRow linkRows ((o - 0x100) % 0x20)
    else findRow slcRows o
  | .ni _ p => match findRow niRows o with
    | none => none
    | some r => if implementedAt p o then some r else some { off := o, acc := .rsv }
  | .grdNi _ _ => match findRow grdRows o with
    | none => none
    | some r => some (if 0x10 ≤ o ∧ o % 4 = 2 then { r with flds := [fl 0 3] } else r)
  | .grdOpc _ => match findRow grdRows o with
    | none => none
    | some r => if o = 0x09 then some { off := o, acc := .rsv } else some r
  | .tmem _ => findRow tmemRows o
  | .ta _ => findRow taRows o
  | .mtx => findRow mtxRows o
  | .tk => findRow tkRows o
  | .fnf => findRow fnfRows o
  | .pwr => findRow pwrRows o
  | .bst => findRow bstRows o
  | .opc => findRow opcRows o
  | .mbx => findRow mbxRows o
  | .evl => findRow evlRows o
  | .ext => findRow extRows o
  | .ident => findRow identRows o
  | .dbg => findRow dbgRows o

/-- The block, offset and row of a listed register. -/
def regAt (a : Nat) : Option (Block × Nat × Row) :=
  match blockOf a with
  | none => none
  | some (b, o) => match rowOf b o with
    | none => none
    | some r => some (b, o, r)

/-- The reset value of a word of the register space (R383 to R400), the positional ones included. -/
def resetOf (b : Block) (o : Nat) (r : Row) : W :=
  match b with
  | .rtr t => if o = 0 then BitVec.ofNat 36 t else BitVec.ofNat 36 r.rst
  | .ni t p =>
    if r.acc = .rsv then 0
    else if o = Off.NI_CTRL ∧ p = 6 then 0xF
    else if o = Off.NI_SPRAY_SEED then BitVec.ofNat 36 (8 * t + p)
    else if o = Off.NI_MC_CFG ∧ (p = 2 ∨ p = 3) then 0x3E805
    else if o = Off.NI_PHOLD_DST then BitVec.ofNat 36 (8 * (8 * (t / 8) + 3) + 4)
    else if 0x098 ≤ o ∧ o ≤ 0x09B then BitVec.ofNat 36 (0x800000024 + 0x80 * (o - 0x098))
    else BitVec.ofNat 36 r.rst
  | .evl => if 0x10 ≤ o ∧ o ≤ 0x1B then
      BitVec.ofNat 36 ((o - 0x10) % 8 + (if 2 ≤ o - 0x10 ∧ o - 0x10 ≤ 5 then 8 else 0))
    else BitVec.ofNat 36 r.rst
  | _ => BitVec.ofNat 36 r.rst

/-- What an unwritten word of the register space holds. -/
def resetValue (a : Nat) : W :=
  match regAt a with
  | none => 0
  | some (b, o, r) => resetOf b o r

/-- One field of a written word, brought into its range. -/
def legalFld (v : W) (f : Fld) : W := W.at f.lo f.len (clampTo f.mn f.mx (v.fld f.lo f.len))

/-- R179: the clamp of a word that holds an FT_L value. -/
def ftLowClamp (v : W) : W :=
  W.at 6 30 (clampTo 0 999999999 (v.fld 6 30)) ||| W.at 0 6 (v.fld 0 6)

/-- R180: TK_FADJ, a two's complement number in [31:0] brought into ±4,294,967. -/
def fadjClamp (v : W) : W :=
  let x := v.fld 0 32
  if x < 2 ^ 31 then W.at 0 32 (clampTo 0 4294967 x)
  else W.at 0 32 (clampTo (2 ^ 32 - 4294967) (2 ^ 32 - 1) x)

/-- The word that a register holds after `v` is written to it: RSV bits zero, every field clamped. -/
def legalize (r : Row) (v : W) : W :=
  match r.rule with
  | .plain => r.flds.foldl (fun acc f => acc ||| legalFld v f) 0
  | .profile => if v.fld 0 2 = 3 then 1 else W.at 0 2 (v.fld 0 2)
  | .period => if v.fld 0 30 = 0 then 0 else W.at 0 30 (clampTo 1000 1000000000 (v.fld 0 30))
  | .fadj => fadjClamp v
  | .ftLow => ftLowClamp v

/-- R84: in a fence-map word for tile t′ the bits of its own row and column are RSV. -/
def fmapMask (t' : Nat) (v : W) : W :=
  v &&& ~~~ (W.at (t' % 8) 1 1) &&& ~~~ (W.at (8 + t' / 8) 1 1)

/-- What a write of `v` leaves in the register at block `b`, offset `o`. -/
def legalizeAt (b : Block) (o : Nat) (r : Row) (v : W) : W :=
  match b with
  | .rtr _ => if 0x100 ≤ o then fmapMask (o - 0x100) (legalize r v) else legalize r v
  | _ => legalize r v

end Sys2Proof.Machine
end

