-- ==== Sys2Proof/Machine/State.lean ====
section
/-!
DEFINITION. The state of KNL-6408 as plain data, and the state right after reset. Registers stand in
one sparse map keyed by fabric word address, memory words in another; queues, buffers and records
that the manual names without giving them an address are fields of the blocks that hold them.
-/

namespace Sys2Proof.Machine

/-- No command of this block stops in a fault: every failure that the manual describes is an answer,
a flag or a record in the state. -/
inductive Fault
  deriving DecidableEq, Repr

/-- Why a command is turned away. -/
inductive Refusal
  /-- Raised by an arm of `exec` whose command has no meaning yet. Safe: nothing is claimed of it. -/
  | notModelled (mnemonic : String)
  deriving DecidableEq, Repr

/-- A packet (R32 to R35). `len` is flits minus 1, `mask` the tile mask of a CELLMC (R33), `killed`
says that the packet is ended by KILL instead of its TAIL (R50). `poi` has bit j set when flit j carries poison (R340). `id` is the model's serial number of
the access that the packet belongs to. -/
structure Pkt where
  id : Nat := 0
  opc : Nat := 0
  dst : Nat := 0
  src : Nat := 0
  sc : Nat := 0
  len : Nat := 0
  cnt : Nat := 0
  tag : Nat := 0
  flg : Nat := 0
  arg : W := 0
  words : List W := []
  poi : Nat := 0
  split : Bool := false
  mask : Nat := 0
  killed : Bool := false
  /-- which packet in the network this is; every packet injected and every branch made has its own -/
  key : Nat := 0
  deriving DecidableEq, Repr

/-- An accepted OREQ_ packet in acceptance order (R45). A write stays until its WRACK returns, with
`left` set once it has left for injection; any other packet stays only while writes precede it. -/
structure OEntry where
  pkt : Pkt
  left : Bool := false
  deriving DecidableEq, Repr

/-- A head that waits for injection at stage 2 or 3 of R47, with its channel. -/
structure Staged where
  ch : Chan
  pkt : Pkt
  /-- R136: a response of the tile memory controller, whose entry of the request queue it still holds -/
  tmem : Bool := false
  waitedCls : Bool := false
  waitedPunt : Bool := false
  /-- R90: an attempt at stage 2 or 3 has found the head held there -/
  waits : Bool := false
  /-- R115: the attach points of which the CELLMC takes a standing credit as it is injected -/
  debts : List Nat := []
  /-- R112: the CELLMC has been counted in NI_UNREACH_CNT -/
  cut : Bool := false
  /-- R100: first handle and count of the grant that the CELL's handle came from -/
  grant : Nat × Nat := (0, 0)
  deriving DecidableEq, Repr

/-- An outstanding request (R39): the access it is, and the words it touches. -/
structure Req where
  id : Nat
  tag : Nat
  opc : Nat
  sc : Nat
  addr : Nat
  words : Nat
  deriving DecidableEq, Repr

/-- A barrier in progress (R148): its scope, its tag and the serial numbers of the marked accesses. -/
structure Bar where
  scope : Nat
  tag : Nat
  sc : Nat := 0
  marks : List Nat
  deriving DecidableEq, Repr

/-- A beat sequence presented to the unit: the channel of R24 and the packet, or KILL (R31). -/
inductive OutChan | orsp | ireq | cpi
  deriving DecidableEq, Repr

structure Beat where
  ch : OutChan
  pkt : Pkt
  kill : Bool := false
  deriving DecidableEq, Repr

/-- An inbound request delivered to the unit and not yet answered (R37, R51). -/
structure Inb where
  src : Nat
  tag : Nat
  opc : Nat
  sc : Nat
  id : Nat
  deriving DecidableEq, Repr

/-- A cell head held at CPO_ until it is admitted (R43, R115). `asked` lists the attach points for
which an RSVREQ has been sent on its behalf, `fill` says that a group read is outstanding (R112),
`cut` that an unreachable tile has been removed and counted. -/
structure CellWait where
  pkt : Pkt
  since : Nat
  asked : List Nat := []
  fill : Bool := false
  cut : Bool := false
  deriving DecidableEq, Repr

/-- The RSVREQ that a source NI has outstanding (R98). -/
structure RsvOut where
  dst : Nat
  sc : Nat
  cnt : Nat
  standing : Bool := false
  withdrawn : Bool := false
  /-- R51: withdrawn by a reset of the unit, so that whatever is granted goes back at once -/
  gone : Bool := false
  since : Nat := 0
  deriving DecidableEq, Repr

/-- A handle that a source NI holds (R98), with its reorder slot (R73). -/
structure HeldH where
  dst : Nat
  sc : Nat
  handle : Nat
  slot : Option Nat := none
  /-- R100: first handle and count of its grant -/
  grant : Nat × Nat := (0, 0)
  deriving DecidableEq, Repr

/-- A run of consecutive handles on the free list (R97). -/
structure Run where
  first : Nat
  len : Nat
  deriving DecidableEq, Repr

/-- A handle granted and not yet resolved (R99, R73): the cell that waits in its reorder slot. -/
structure Grant where
  handle : Nat
  src : Nat
  sc : Nat
  slot : Option Nat := none
  waiting : Option Pkt := none
  deriving DecidableEq, Repr

/-- A parked answer record (R99); the oldest stands first. -/
structure Parked where
  src : Nat
  sc : Nat
  cnt : Nat
  standing : Bool := false
  deriving DecidableEq, Repr

/-- An entry of the group cache (R112). -/
structure GroupEnt where
  group : Nat
  mask : Nat
  valid : Bool
  deriving DecidableEq, Repr

/-- A hold-store entry (R55, R192). -/
structure HoldEnt where
  fid : Nat
  addr : Nat
  data : List W
  last : Bool
  /-- R55: presented on IREQ_ where the entry is the unit's -/
  delivered : Bool := false
  /-- FSTGD has been sent for the fanfare -/
  sent : Bool := false
  /-- the coordinator that sent the entry -/
  src : Nat := 0
  deriving DecidableEq, Repr

/-- A strobe of the time channel (R319): TIM_APPLY or TIM_ABORT with its fanfare. -/
structure Strobe where
  apply : Bool
  fid : Nat
  deriving DecidableEq, Repr

/-- A lateness tracker (R120). -/
structure LateTrk where
  src : Nat
  sc : Nat
  a0 : Nat
  k : Nat
  deriving DecidableEq, Repr

/-- What one NI holds beside its registers. -/
structure Ni where
  /-- R93: heads in the inject FIFOs that wait for their tails before they are read, in Profile L -/
  fifo : List (Chan × Head) := []
  oq : List OEntry := []
  held : List Pkt := []
  stage : List Staged := []
  outst : List Req := []
  bar : Option Bar := none
  openP : List (Chan × Pkt) := []
  /-- R40: on each channel the last packet of several flits that was taken with its tail in -/
  lastP : List (Chan × Pkt) := []
  eject : List Pkt := []
  out : List Beat := []
  inb : List Inb := []
  cell : Option CellWait := none
  rsv : Option RsvOut := none
  handles : List HeldH := []
  credits : Sparse Nat := []
  free : List Run := []
  grants : List Grant := []
  parked : List Parked := []
  pvt : List Rat := [0, 0, 0, 0, 0]
  nextSlot : Nat := 0
  standing : List (Nat × List Nat) := []
  cache : Sparse (Option GroupEnt) := []
  hold : List HoldEnt := []
  strobes : List Strobe := []
  /-- strobes presented to the unit on TIM_APPLY and TIM_ABORT -/
  tim : List Strobe := []
  late : List LateTrk := []
  sprayN : Nat := 0
  urst : Bool := false
  draining : Bool := false
  drained : Bool := false
  /-- R52: the drain ended by NI_DRAIN_TO, and what was left counts as after a reset of the unit -/
  expired : Bool := false
  /-- R97: the handles of each pushed run that are neither delivered nor taken back -/
  runs : List (List Nat) := []
  /-- R50: packets already presented in part, for which KILL has arrived -/
  killPend : List Pkt := []
  /-- R170, R96, R121: fc of the last GUARD_NOTICE, SC_UNDECL and LATE_CELL record -/
  noticeFc : Option Nat := none
  undeclFc : Option Nat := none
  lateFc : Option Nat := none
  /-- R115: group lanes read and held, keyed by tile and word of the lane table -/
  lanes : Sparse (Option W) := []
  /-- R302: BARACK that the clamp of a dark tile holds back -/
  barack : Option Pkt := none
  /-- R115: destinations and classes for which a refill is still to be asked -/
  refill : List (Nat × Nat) := []
  deriving DecidableEq, Repr

/-- A packet in a router's input buffer: input port, VC, the flits that have arrived over the link, the
output computed for it and whether that is a knight hop or a turn swap, the fc since which it has been
ready (R87). A branch made by replication carries the number of the group of branches that share its
slots, and `debited` once its pips have been taken (R78). -/
structure Flight where
  pkt : Pkt
  inp : Nat
  vc : Nat
  arrived : Nat := 0
  out : Option Nat := none
  knight : Bool := false
  swap : Bool := false
  since : Option Nat := none
  grp : Option Nat := none
  debited : Bool := false
  /-- R80: for a branch, the tiles of the packet that was replicated -/
  dests : Nat := 0
  /-- R87: the input port that it took at the router that sent it -/
  via : Nat := 0
  deriving DecidableEq, Repr

/-- A packet started onward before all its flits had arrived at input port `inp` (R59, R60): the flits
still to come, which go on to output `out`, or are discarded when it is `none` (R69, R336). -/
structure Trail where
  inp : Nat
  vc : Nat
  pkt : Pkt
  left : Nat
  out : Option Nat
  via : Nat := 0
  deriving DecidableEq, Repr

/-- The sender's counts for one receiving input port (R61): flits held per VN and VC (index
4·VN + VC), slots counted as held in the SC5 reserve, shared slots held, the width of the layout, the
slots that a narrowing still has to free (R257), and whether the reserve has counted all its slots free. -/
structure Cnt where
  vcs : Sparse Nat := []
  resv : Nat := 0
  shared : Nat := 0
  half : Bool := false
  deficit : Nat := 0
  ready8 : Bool := true
  deriving DecidableEq, Repr

/-- A pip on its way back (R63): the sender's key of the port, the VC it names, and on the pip of a
packet's last flit the packet's destination tiles (R80). -/
structure Pip where
  key : Nat
  vc : Nat
  dests : Nat := 0
  deriving DecidableEq, Repr

/-- The steps of a port's resynchronisation (R257): the request, the mark and the grant that travel. -/
inductive Resync | req | mark | grant
  deriving DecidableEq, Repr

/-- A resynchronisation of one input port: the layout it brings and, once computed, the counts. -/
structure ResyncSt where
  port : Nat
  phase : Resync := .req
  /-- R257: the upstream side has stopped already, in a resynchronisation that this one replaces -/
  stopped : Bool := false
  half : Bool := false
  cnt : Cnt := {}
  deriving DecidableEq, Repr

/-- One network link index of a router. For the outgoing link: flits sent and acknowledged, modulo 32
(R334), the half fenced by replay escalation (R335), the run of return words that failed parity on each
half (R10) and whether the sender has rewound. For the incoming link: flits accepted, whether NAK has been sent and
for which packet, the halves that failed, and the run of replay failures. -/
structure LinkSt where
  sent : Nat := 0
  acked : Nat := 0
  esc : Option Nat := none
  parity0 : Nat := 0
  parity1 : Nat := 0
  replaying : Bool := false
  accepted : Nat := 0
  nakFor : Option Nat := none
  nakHalves : List Nat := []
  nakFence : Option Nat := none
  failRun : Nat := 0
  deriving DecidableEq, Repr

/-- The arbitration state of one output (R87): virtual times and the input served last. R87 gives no value of the
round robin after reset; the model starts at 0, so that the first search begins at input 1 (DESIGN CHOICE, log
entry 38). -/
structure OutSt where
  vt : List Rat := [0, 0, 0, 0, 0]
  rr : Nat := 0
  deriving DecidableEq, Repr

/-- What one router holds beside its registers. -/
structure Router where
  inq : List Flight := []
  trail : List Trail := []
  cnts : Sparse Cnt := []
  pips : List Pip := []
  links : Sparse LinkSt := []
  outs : Sparse OutSt := []
  resync : List ResyncSt := []
  grpN : Nat := 0
  hotFc : Option Nat := none
  deriving DecidableEq, Repr

/-- Who waits for a tile-memory request: the data fabric, a master on the memory path (R142), or nobody for a word
that a launch has written and that requests before it precede (R194). -/
inductive Via | fabric | mem (m : Master) | entry
  deriving DecidableEq, Repr

/-- A request in a tile memory controller's queue (R136). -/
structure TReq where
  pkt : Pkt
  via : Via := .fabric
  deriving DecidableEq, Repr

/-- A migration in progress (R265, R266). -/
structure Mig where
  bank : Bool
  b : Nat
  spare : Nat := 0
  back : Bool := false
  /-- R273: fc at its start -/
  since : Nat := 0
  deriving DecidableEq, Repr

/-- What one tile memory controller holds beside its registers and its words. -/
structure Tmc where
  q : List TReq := []
  fopDone : Nat := 0
  fopOld : List W := []
  resv : List (Nat × Nat) := []
  mig : Option Mig := none
  migWait : List Mig := []
  leftOut : List W := []
  /-- R265, R339: bank and row of the rows whose migration is due -/
  rowDue : List (Nat × Nat) := []
  /-- R285: a bank session is under way -/
  session : Bool := false
  deriving DecidableEq, Repr

/-- The phases of a turn or of a narrowing (R283, R258). -/
inductive TurnPhase | narrowing | testing | comparing | closing
  deriving DecidableEq, Repr

/-- A turn in progress at a tile agent (R283): unit and part, the fc of GO, the code and signature with
which it closes. -/
structure Turn where
  unit : Nat
  part : Nat
  phase : TurnPhase
  go : Nat := 0
  code : Nat := 1
  misr : W := 0
  deriving DecidableEq, Repr

/-- Why a router is narrowed (R258). -/
inductive NarWhy | turn | slim | repair
  deriving DecidableEq, Repr

/-- A narrowing in progress: the departing slice, the reason, the fc since which it runs, and whether
NARROW_SLOW has been logged. -/
structure Nar where
  sl : Nat
  why : NarWhy
  since : Nat
  slow : Bool := false
  deriving DecidableEq, Repr

/-- A request to the tile agent that waits for the end of a voltage transition or of brace (R296, R308). -/
inductive WaitReq | target (v : W) | claim (v : W) | turn (v : W)
  deriving DecidableEq, Repr

/-- A reset that has been requested and not yet applied, or is held back under R195; `core` is the NI part of an OPC_RST
(R325). -/
inductive HeldReset | ni (n : Nat) | tile (t : Nat) | core (c : Nat)
  deriving DecidableEq, Repr

/-- What one tile agent holds beside its registers: runs of 1 µs intervals below the thresholds (R280,
R295), the voltage transition under way and what waits for its end (R296), narrowing and widening (R258,
R259), the piccolo's counts (R299), the turn (R283), fences by a fault that still has to be announced and
its end (R198), the launch edge its apply path last ran at (R198), the loss of the time tree (R341), the profile
taken (R21), and what entries to Doze and to Slim keep. -/
structure Agent where
  idleRun : Nat := 0
  midleRun : Nat := 0
  gearRun : Nat := 0
  vtUp : Bool := false
  vtDue : Option Bool := none
  waitReq : List WaitReq := []
  lines : List (Nat × Nat) := []
  heldInt : List (Nat × Nat) := []
  pic : List Nat := []
  turn : Option Turn := none
  nar : Option Nar := none
  wide : Option Nat := none
  /-- R259: a slice that waits for the widening before it -/
  wideQ : List Nat := []
  /-- R198, R283: the launches, each with its number, that were due when the widening began and hold it -/
  wideFor : List (Nat × Nat) := []
  busyDue : Bool := false
  busyTo : Option Nat := none
  applyTc : Option Nat := none
  tkLost : Bool := false
  prof : Nat := 1
  /-- R21: SPRAY and SC5_RSV of a launch that a voltage transition holds back -/
  ctrlDue : Option Nat := none
  /-- R298: fc at which an output of the router last sent a flit, and fc of the last attempt at Doze -/
  outFc : Nat := 0
  dozeFc : Option Nat := none
  /-- R298: fc at which an entry to Doze has begun -/
  entering : Option Nat := none
  /-- R292: a request for Slim, with its slice, that waits for the narrowing or widening under way -/
  slimDue : Option Nat := none
  /-- R293: the refuser of the last request for Slim -/
  slimNo : Option Nat := none
  deriving DecidableEq, Repr

/-- One entry of a fanfare after its address is resolved (R191, R192). -/
structure FEnt where
  addr : Nat
  data : List W
  ni : Nat
  last : Bool := false
  /-- R192: where its record stands in the staging list; an entry that firmware has composed has no address that the
  manual gives (log entry 4) -/
  at_ : Option Nat := none
  deriving DecidableEq, Repr

/-- A participant of a cross-instance fanfare (R206): its instance, whether it has answered OK or
ALREADY, and its outcome so far (R208). -/
structure Part where
  inst : Nat
  ok : Bool := false
  already : Bool := false
  outcome : Nat := 0
  deriving DecidableEq, Repr

/-- What the coordinator of a cross-instance fanfare keeps until the commit report (R206 to R209): the
slot, the GFID, LT, the participants, whether XCONFIRM has been sent, whether the fanfare has failed. -/
structure XCo where
  slot : Nat
  gfid : Nat
  lt : Nat
  parts : List Part := []
  conf : Bool := false
  failed : Bool := false
  deriving DecidableEq, Repr

/-- The report that a participant owes at LT + 1 µs (R206, R208). -/
structure XRep where
  slot : Nat
  gfid : Nat
  coord : Nat
  lt : Nat
  outcome : Nat
  applyFt : Nat := 0
  deriving DecidableEq, Repr

/-- What a fanfare slot holds beside its registers (R190): the generation of its next FID, its entries,
those still to be sent, the counts of FSTGD that are awaited by NI, the end of a cadence asked for, the
ticket that it carries (R243); for a cross-instance fanfare whether the slot coordinates it or takes part
in one of instance `coord`, and whether XCONFIRM has been sent or has come (R206). -/
structure Slot where
  gen : Nat := 0
  ents : List FEnt := []
  todo : List FEnt := []
  /-- R192: the check pass has been made -/
  checked : Bool := false
  /-- R192: how many entries of `todo` stand in the prefetch store -/
  pre : Nat := 0
  /-- the list, where firmware has composed it -/
  composed : Option (List FEnt) := none
  want : List (Nat × Nat) := []
  stageOnly : Bool := false
  stopReq : Bool := false
  cross : Bool := false
  part : Bool := false
  coord : Nat := 0
  confirmed : Bool := false
  ticket : Option Nat := none
  deriving DecidableEq, Repr

/-- An armed fanfare in the launch tables (R193). Times are FT in 1/64 ns, edges are tc counts: LT, LT_0
of a cadence, the arm sequence, the period, the launches performed, when the last one ran, the first edge
that R189 and R198 leave it, the edge that its LAUNCH names, whether brace holds it, and the NIs that hold its entries. -/
structure Launch where
  fid : Nat
  lt : Nat
  lt0 : Nat
  aseq : Nat
  per : Nat := 0
  n : Nat := 0
  lastAt : Nat := 0
  minEdge : Nat := 0
  edge : Option Nat := none
  held : Bool := false
  nis : List Nat := []
  /-- R195: NIs whose unit has lost its own entries in the last 500 ns before the launch -/
  gone : List Nat := []
  deriving DecidableEq, Repr

/-- The running command (R225): mailbox, copy, header and arguments as copied, then the answer; whether
its effect is done, whether it changes anything (R230), whether it is to be started a second time. -/
structure Running where
  mbx : Nat
  copy : Nat
  hdr : W
  args : List W
  code : Nat := 0
  data : List W := []
  done : Bool := false
  changed : Bool := false
  begun : Bool := false
  /-- R216: the address of the first access of firmware, while the command runs, that met a decode miss -/
  stop : Option Nat := none
  /-- R248: the checks of R95 and R123 are to run again after completion -/
  checks : Bool := false
  /-- R308: registers that are data words of the answer, read once brace holds none of the command's writes -/
  later : List Nat := []
  deriving DecidableEq, Repr

/-- A change in the apply queue (R243): its ticket, entries and LT, the slot once GO has been issued, whether
the checks of R244 follow; a route change has the new map, the affected tiles and the tiles to drain (R246). A
number of 65,536 is that of a route change for which no command holds a ticket. -/
structure Ticket where
  num : Nat
  ents : List (Nat × List W) := []
  lt : Nat := 0
  check : Bool := false
  slot : Option Nat := none
  /-- R243: the LT of a change that no fanfare can carry, once GO has been due -/
  land : Option Nat := none
  route : Bool := false
  map : List Nat := []
  aff : Nat := 0
  deriving DecidableEq, Repr

/-- A route change in progress (R79): the hold fanfare, the scans, the map fanfare. -/
inductive RcPhase | hold | scan1 | scan2 | map
  deriving DecidableEq, Repr

structure RouteCh where
  ticket : Nat
  newMap : List Nat
  aff : Nat
  phase : RcPhase
  fwd : List Nat := []
  ltA : Nat := 0
  deriving DecidableEq, Repr

/-- What firmware still has to do once the installed map or the hardware lets it (R256, R263, R264, R283, R292,
R303): to start a turn and to end it, to write Slim, to gate a tile or take it to Off, to fence a slice or link
halves, to bring link halves back after their training, to bring a tile back and to enable its NIs. -/
inductive JobKind | turnGo | turnEnd | slim | gateOut | off | fence | linkFence | linkOpen | restore | enable
  deriving DecidableEq, Repr

structure Job where
  kind : JobKind
  t : Nat
  a : Nat := 0
  b : Nat := 0
  deriving DecidableEq, Repr

/-- What POST has found before its results are compared (R276, R278): the memory results, the parts whose MISR
differs, the rows spared, the arrays that failed, the duration. -/
structure PostRes where
  memRes : List W
  bad : List (Nat × Nat × Nat × W)
  rows : List (Nat × Nat × Nat)
  hold : Bool
  tmem : Bool
  sram : Bool
  dur : Nat
  deriving DecidableEq, Repr

/-- A change of the apply queue whose fanfare has launched while firmware could not act: its ticket, the entries carried,
LT, the tiles that the fanfare could not reach. -/
structure Noted where
  num : Nat
  carried : List FEnt
  lt : Nat
  miss : List Nat
  deriving DecidableEq, Repr

/-- A session reset under way (R231). -/
structure Session where
  stamp : Nat
  cmds : List Nat := []
  count : Nat := 1
  deriving DecidableEq, Repr

/-- An event on its way to the record writer (R346, R347). -/
structure Ev where
  ftH : W
  ftL : W
  node : Nat
  code : Nat
  sev : Nat
  arg : W
  cont : Option (List W) := none
  deriving DecidableEq, Repr

/-- A request that a register port has outstanding, and its answer (R361, R362). -/
structure PortReq where
  id : Nat
  wr : Bool
  len : Nat
  ans : Option (Nat × List W) := none
  /-- R132: a word of the debug access port's write burst has no target -/
  bad : Bool := false
  deriving DecidableEq, Repr

/-- A write that brace holds unacknowledged (R308): address, value, the master's node, and the request of
the register port that waits for it. -/
structure HeldWrite where
  addr : Nat
  val : W
  node : Nat
  ack : Option (Master × Nat) := none
  /-- the serial number of the access that the write is, by which a barrier marks it (R148) -/
  id : Nat := 0
  /-- R132: another word of the same write of an Opcon core has no target -/
  bad : Bool := false
  deriving DecidableEq, Repr

/-- An entry of the bridge's posted-write queue (R141). -/
structure Posted where
  pkt : Pkt
  port : Nat
  deriving DecidableEq, Repr

/-- A direct control-matrix access of an Opcon core that its guard holds (R173): a read of one word, or a write
of words that waits in the core's write queue (R171). -/
structure CoreAcc where
  wr : Bool
  addr : Nat
  words : List W := []
  /-- the serial number of the access -/
  id : Nat := 0
  deriving DecidableEq, Repr

/-- An Opcon core (R213, R153, R324). `dead` is the cause for which the standby is to take over from it
(R270): 0 for none, 1 its heartbeat, 2 a trap, 3 OPC_RST. -/
structure OpCore where
  run : Bool := false
  halted : Bool := false
  /-- R362: the level of DBG_HALT_REQ[c] -/
  haltReq : Bool := false
  /-- R160: FT at the halt, in µs -/
  haltUsec : Nat := 0
  /-- R168: the core runs user code; no command of the table changes it (log entry 29) -/
  user : Bool := false
  /-- R171, R173: accesses of the core that its guard holds, in their order -/
  wq : List CoreAcc := []
  /-- R171: GUARD traps and GUARD_NOTICE interrupts raised at the core, and fc of its last GUARD_NOTICE record -/
  gtraps : Nat := 0
  gnotices : Nat := 0
  noticeFc : Option Nat := none
  /-- R132, R140: the statuses of the core's control-matrix writes that have completed; those of its reads stand in
  `coreOut` -/
  acks : List Nat := []
  /-- R270: FT of the last heartbeat -/
  hbFt : Nat := 0
  /-- R216: FT_L at the last trap, for which OPC_TRAP_c has no field -/
  trapFt : W := 0
  rstHold : Bool := false
  rstReq : Bool := false
  dead : Nat := 0
  /-- R270: FT at which the core last restarted after a failure -/
  backFt : Option Nat := none
  deriving DecidableEq, Repr

/-- The body of an extension frame (R204, R205): a MSG, or a fanfare control message with its TYPE. -/
inductive FrameBody
  | msg (p : Pkt)
  | ctl (type : Nat) (m : XMsg)
  deriving DecidableEq, Repr

/-- A frame that the bridge has given to the designated cluster (R202): destination instance, SEQ, body. -/
structure Frame where
  dest : Nat
  seq : Nat
  body : FrameBody
  /-- R204, R205: the frame's bytes, without FCS -/
  bytes : List (BitVec 8) := []
  deriving DecidableEq, Repr

/-- The whole machine. -/
structure State where
  /-- the commands that wait, first in, first out -/
  pending : List Instr := []
  /-- every register that has a word address, keyed by that address -/
  regs : Sparse W := []
  /-- tile memory and Opcon SRAM, keyed by fabric word address -/
  mem : Sparse W := []
  /-- addresses of the words of tile memory that are uncorrectable (R337), rising -/
  poison : List Nat := []
  nis : Sparse Ni := []
  routers : Sparse Router := []
  tmcs : Sparse Tmc := []
  agents : Sparse Agent := []
  slots : Sparse Slot := []
  cores : Sparse OpCore := []
  /-- the next serial number of an access -/
  nextId : Nat := 1
  /-- R223: the fc count -/
  fc : Nat := 0
  /-- FT of the active Time Keeper in units of 2^−24 of 1/64 ns (R180) -/
  ft : Nat := 0
  /-- R188: phase steps that have been issued: offset in 1/64 ns and the tc edge of each -/
  steps : List (Int × Nat) := []
  /-- R199: each brace whose release edge is still to come, by the edge of its BRACE and, once it has ended, of its
  RELEASE, in their order -/
  braces : List (Nat × Option Nat) := []
  braceOn : Bool := false
  /-- R341: no Time Keeper is active -/
  tkNone : Bool := false
  /-- R185: the switchover in progress was not requested -/
  tkUnasked : Bool := false
  /-- R185: the tc count at the end of the last switchover -/
  swEnd : Option Nat := none
  /-- R269: the Time Keepers that firmware holds in reset, and the FT at which each last came back -/
  tkDead : Nat := 0
  tkBack : Sparse (Option Nat) := []
  /-- R184: branches measured in the current round, and the largest residual in it -/
  calN : Nat := 0
  calMax : Nat := 0
  /-- R269: branches that a returning Time Keeper has still to measure before it is standby -/
  calDue : Nat := 0
  /-- R22: the tiles that a direct write of PWR_PROFILE has still to reach -/
  profDue : List Nat := []
  /-- R308: FT when PWR_WARN asserted -/
  warnFt : Nat := 0
  launches : List Launch := []
  /-- R192: slots that stage, in the order of their GO commands -/
  stageQ : List Nat := []
  /-- R195: FID and node of targets that have lost entries, on their way to the Time Keeper -/
  losts : List (Nat × Nat) := []
  /-- R195: ABORT on its way down the tree, by FID -/
  aborts : List Nat := []
  /-- resets asked for, and those held back in the last 500 ns of R195 -/
  rstReq : List HeldReset := []
  heldResets : List HeldReset := []
  /-- R303, R305: the RW registers of NI and guard blocks that firmware has saved -/
  savedRegs : Sparse W := []
  /-- always-on writes held during brace (R308) -/
  heldWrites : List HeldWrite := []
  posted : List Posted := []
  hrpQ : List PortReq := []
  dbgQ : List PortReq := []
  hrpOut : List (Bool × List W) := []
  dbgOut : List (Nat × List W) := []
  /-- R132: core, status and words of each read of an Opcon core -/
  coreOut : List (Nat × Nat × List W) := []
  /-- the event queue and what a full queue has lost (R348, R349) -/
  evq : List Ev := []
  evLost : Nat := 0
  evLostFirst : Nat := 0
  evLostLast : Nat := 0
  /-- Opcon firmware (R215): shadows, kept headers, the running command, sessions, tickets, maps -/
  shadows : Sparse W := []
  hdrs : Sparse W := []
  running : Option Running := none
  session : Option Session := none
  tickets : List Ticket := []
  tickLast : Nat := 0
  tickApplied : Nat := 0
  tickAborted : Nat := 0
  tickReason : Nat := 0
  tickLt : Nat := 0
  /-- R173, R270: launches that firmware has still to take note of -/
  fwLater : List Noted := []
  pendMap : Sparse Nat := []
  fenceTicket : Option Nat := none
  route : Option RouteCh := none
  jobs : List Job := []
  /-- R264: NIs to be enabled again -/
  wasEnabled : List Nat := []
  /-- R264, R303: the group-table words that firmware has applied -/
  groupMem : Sparse W := []
  /-- R95, R123: a trigger of the checks has come -/
  checkDue : Bool := false
  /-- R263: outgoing link halves (tile, link, slice) that a replay escalation or a wire's error count has made due for a
  lane repair, and those under repair -/
  repairDue : List (Nat × Nat × Nat) := []
  repairs : List (Nat × Nat × Nat) := []
  slicePtr : Nat := 0
  bankPtr : Nat := 0
  /-- R282: fc at the last tick of the schedulers -/
  turnFc : Option Nat := none
  /-- R282: units named by BIST_TURN, by tile and unit -/
  placed : List (Nat × Nat) := []
  staleLogged : List (Nat × Nat) := []
  /-- R282: FT of the last passing turn, keyed by 8·tile + unit -/
  lastPass : Sparse Nat := []
  /-- R235: the bank under check, and the accepted bank that waits for the quiescent point -/
  imgCheck : Option Nat := none
  imgReady : Option Nat := none
  /-- R236: word 0 of the vector page as it stood before the last handover -/
  vecKept : W := 0
  /-- R218: after a wake core 1 waits for core 0 to run on oc -/
  c1Wait : Bool := false
  /-- R305: the wake sources that PWR_RETAIN has asked for -/
  retain : Option W := none
  /-- the extension bridge (R202 to R206): sequence numbers per instance, control messages taken
  apart, messages seen, frames given to the designated cluster -/
  seqTx : Sparse Nat := []
  seqRx : Sparse Nat := []
  xin : List (Nat × XMsg) := []
  xseen : List (Nat × Nat × Nat) := []
  xco : List XCo := []
  xrep : List XRep := []
  xout : List (Nat × Nat × XMsg) := []
  frames : List Frame := []
  /-- R202: cells of frames that wait at the bridge for CPO_ of NI(56, 6) -/
  xcells : List Head := []
  xhistN : Nat := 0
  /-- supply, reset and test sequences: FAB_RST_N low, the cold start under way, safe state, scan -/
  inReset : Bool := true
  /-- R276, R328: from the release of FAB_RST to the POST decision -/
  postRun : Bool := false
  /-- R328: from the POST decision to the next BEAT -/
  timWait : Bool := false
  /-- R300: tiles that have waked since the last BEAT -/
  timDue : List Nat := []
  safe : Bool := false
  scanOn : Bool := false
  scanReq : Bool := false
  /-- R288: the request has fallen since the zeroization under way began -/
  scanFell : Bool := false
  /-- R351: the event-log copies that are away and have missed no record yet. -/
  mirrorNone : List Nat := []
  warn : Bool := false
  /-- R309: the main rail is away and the always-on domain runs from the backup cell -/
  onCell : Bool := false
  /-- R329: the always-on domain has lost its power since the last cold start -/
  aonLost : Bool := false
  /-- R308: FAB_RST came during brace -/
  braceReset : Bool := false
  postRes : Option PostRes := none
  /-- R287: FT at the end of POST -/
  postFt : Nat := 0
  /-- R373: the data register of the fuse programmer -/
  fuseDr : Nat := 0
  /-- R373: fc at which its last blow ends, and whether VPP_FUSE was in range at its last GO -/
  fuseEnd : Nat := 0
  vppOk : Bool := false
  /-- fuse bits (R372), bit b of the number is fuse b; those blown since the last sensing -/
  fuses : Nat
  fusesSensed : Nat
  /-- the number of free words read so far (log entry 4) -/
  freeN : Nat := 0
  deriving DecidableEq, Repr

/-- R16: the p4 slots of the reference placement: lookup engines, traffic-manager slices and host
CPU bridges. -/
def p4Reference : List Nat :=
  [1, 6, 9, 14, 17, 22, 25, 30, 33, 38, 41, 46, 49, 54, 57, 62,
   3, 11, 19, 27, 35, 43, 51, 59, 4, 20, 36, 52]

/-- R364: the POP fuses of the reference placement, as a number over the fuse bits of R372. -/
def referenceFuses : Nat :=
  (List.range 64).foldl (fun acc t =>
    acc + 0xF <<< (800 + 5 * t) + (if t ∈ p4Reference then 1 <<< (804 + 5 * t) else 0)) 0

/-- The state in which every register of the map stands at its reset value: FAB_RST has just been
released, nothing is in flight, POST is still to run (R328). The fuses are those of the reference
placement with nothing else blown (log entry 6). -/
def State.reset : State :=
  { fuses := referenceFuses, fusesSensed := referenceFuses, inReset := false, postRun := true }

/-! ### The sparse parts, read and written -/

def niDefault (_ : Nat) : Ni := {}
def rtDefault (_ : Nat) : Router := {}
def tmcDefault (_ : Nat) : Tmc := {}
def taDefault (_ : Nat) : Agent := {}
def slotDefault (_ : Nat) : Slot := {}
def coreDefault (_ : Nat) : OpCore := {}
/-- What a word of tile memory or Opcon SRAM that nothing has written reads as (log entry 5). -/
def memDefault (_ : Nat) : W := 0

namespace State

def reg (s : State) (a : Nat) : W := Sparse.get resetValue s.regs a
def setReg (s : State) (a : Nat) (v : W) : State := { s with regs := Sparse.set resetValue s.regs a v }
def word (s : State) (a : Nat) : W := Sparse.get memDefault s.mem a
def setWord (s : State) (a : Nat) (v : W) : State := { s with mem := Sparse.set memDefault s.mem a v }
def ni (s : State) (n : Nat) : Ni := Sparse.get niDefault s.nis n
def setNi (s : State) (n : Nat) (x : Ni) : State := { s with nis := Sparse.set niDefault s.nis n x }
def rt (s : State) (t : Nat) : Router := Sparse.get rtDefault s.routers t
def setRt (s : State) (t : Nat) (x : Router) : State := { s with routers := Sparse.set rtDefault s.routers t x }
def tmc (s : State) (t : Nat) : Tmc := Sparse.get tmcDefault s.tmcs t
def setTmc (s : State) (t : Nat) (x : Tmc) : State := { s with tmcs := Sparse.set tmcDefault s.tmcs t x }
def ta (s : State) (t : Nat) : Agent := Sparse.get taDefault s.agents t
def setTa (s : State) (t : Nat) (x : Agent) : State := { s with agents := Sparse.set taDefault s.agents t x }
def slot (s : State) (k : Nat) : Slot := Sparse.get slotDefault s.slots k
def setSlot (s : State) (k : Nat) (x : Slot) : State := { s with slots := Sparse.set slotDefault s.slots k x }
def core (s : State) (c : Nat) : OpCore := Sparse.get coreDefault s.cores c
def setCore (s : State) (c : Nat) (x : OpCore) : State := { s with cores := Sparse.set coreDefault s.cores c x }

end State

end Sys2Proof.Machine
end

