-- ==== Sys2Proof/Machine/Ops.lean ====
section
/-!
DEFINITION. The operations that every family uses: names of nodes, counters and fields of registers,
fabric time as two words, decode misses, events on their way to the log, error bits.
-/

namespace Sys2Proof.Machine

/-! ### Nodes (R4, R5) -/

/-- R212: the block's own instance number. -/
def inst (s : State) : Nat := (s.reg (extReg Off.EXT_INST)).fld 0 14
def nodeTP (s : State) (t p : Nat) : Nat := 512 * inst s + 8 * t + p
/-- The node ID of NI n. -/
def nodeOf (s : State) (n : Nat) : Nat := nodeTP s (n / 7) (n % 7)
def nodeInst (d : Nat) : Nat := d / 512
def nodeTile (d : Nat) : Nat := d / 8 % 64
def nodePort (d : Nat) : Nat := d % 8
def niOf (t p : Nat) : Nat := 7 * t + p
/-- The NI index that a node ID of this instance names. -/
def nodeNi (d : Nat) : Nat := niOf (nodeTile d) (nodePort d)
/-- R3, R4: whether a node ID names an attach point of some tile. -/
def nodeNamed (d : Nat) : Bool := decide (nodePort d < 6) || (nodePort d = 6 && hasP6 (nodeTile d))
/-- R137: node IDs of the masters of the control matrix. -/
def coreNode (s : State) (c : Nat) : Nat := if c = 0 then nodeTP s 0 6 else nodeTP s 63 6
def dbgNode (s : State) : Nat := nodeTP s 7 6
def hrpNode (s : State) : Nat := nodeTP s 63 7
def masterNode (s : State) : Master → Nat
  | .core c => coreNode s c.val
  | .dbg => dbgNode s
  | .hrp => hrpNode s

/-! ### Registers -/

def setFld (s : State) (a lo len v : Nat) : State := s.setReg a ((s.reg a).put lo len v)
def getFld (s : State) (a lo len : Nat) : Nat := (s.reg a).fld lo len
def regBit (s : State) (a i : Nat) : Bool := (s.reg a).bit i
def setBit (s : State) (a i : Nat) (b : Bool) : State := setFld s a i 1 (b2n b)
/-- A count that saturates at 36 bits (R6). -/
def incSat (s : State) (a : Nat) : State := s.setReg a (s.reg a).satInc
def addSat (s : State) (a k : Nat) : State :=
  s.setReg a (BitVec.ofNat 36 (min ((s.reg a).toNat + k) (2 ^ 36 - 1)))
/-- A count that wraps at 36 bits. -/
def incWrap (s : State) (a : Nat) : State := s.setReg a (s.reg a + 1)
def addWrap (s : State) (a k : Nat) : State := s.setReg a (s.reg a + BitVec.ofNat 36 k)
/-- A count held in one field: it wraps within the field. -/
def incFld (s : State) (a lo len : Nat) : State := setFld s a lo len (getFld s a lo len + 1)
/-- A register that keeps the largest value it has seen. -/
def maxReg (s : State) (a v : Nat) : State :=
  if (s.reg a).toNat < v then s.setReg a (BitVec.ofNat 36 (min v (2 ^ 36 - 1))) else s
def natW (x : Nat) : W := BitVec.ofNat 36 x

/-! ### Fabric time (R8, R180): FT counts 1/64 ns; the model's count has 24 further bits -/

def ftSec : Nat := 64000000000
def ftFrac : Nat := 2 ^ 24
/-- FT of the active Time Keeper in 1/64 ns. -/
def ftNow (s : State) : Nat := s.ft / ftFrac
/-- FT of tile t's copy. R184 bounds its difference from the active count; the model has none (log entry 2). -/
def ftTile (s : State) (_t : Nat) : Nat := ftNow s
def ftHi (x : Nat) : W := natW (x / ftSec)
def ftLo (x : Nat) : W := natW (x % ftSec)
/-- A time from its two words, FT_L brought into range (R179). -/
def ftOfWords (h l : W) : Nat := h.toNat * ftSec + (ftLowClamp l).toNat

/-! ### Decode misses (R132, R161) -/

inductive Where | source | target | matrix
  deriving DecidableEq, Repr
def Where.code : Where → Nat
  | .source => 0
  | .target => 1
  | .matrix => 2

/-- Every decode miss counts once; the first since the count was zero is recorded. -/
def decodeMiss (s : State) (node : Nat) (wr : Bool) (wh : Where) (addr : Nat) : State :=
  let s1 := if s.reg (mtxReg Off.MTX_DECODE_MISS) = 0 then
      (s.setReg (mtxReg Off.MTX_DECODE_FIRST)
        (W.at 0 23 node ||| W.at 23 1 (b2n wr) ||| W.at 24 2 wh.code)).setReg
        (mtxReg Off.MTX_DECODE_ADDR) (natW addr)
    else s
  incSat s1 (mtxReg Off.MTX_DECODE_MISS)

/-! ### Events (R346 to R350) -/

/-- An event code with its severity, as the table of R350 numbers them. -/
structure EvCode where
  code : Nat
  sev : Nat
  deriving DecidableEq, Repr

namespace EvC
def PAD : EvCode := ⟨0x000, 0⟩
def WIRE_CE : EvCode := ⟨0x010, 1⟩
def LINK_HALF_FENCED : EvCode := ⟨0x011, 2⟩
def LINK_LOST : EvCode := ⟨0x012, 2⟩
def PKT_LOST : EvCode := ⟨0x013, 2⟩
def BUF_UE : EvCode := ⟨0x014, 2⟩
def UNROUTED : EvCode := ⟨0x015, 2⟩
def HOTSPOT : EvCode := ⟨0x016, 1⟩
def NARROW_SLOW : EvCode := ⟨0x017, 1⟩
def LANE_EXHAUSTED : EvCode := ⟨0x018, 2⟩
def LANE_FAIL : EvCode := ⟨0x019, 2⟩
def REORDER_SKIP : EvCode := ⟨0x01A, 1⟩
def ROUTE_CHANGE : EvCode := ⟨0x01B, 0⟩
def SLICE_FAULT : EvCode := ⟨0x020, 2⟩
def SLICE_FAIL : EvCode := ⟨0x021, 2⟩
def READMIT_FAIL : EvCode := ⟨0x022, 2⟩
def POST_RESULT : EvCode := ⟨0x023, 0⟩
def TEST_STALE : EvCode := ⟨0x024, 1⟩
def TILE_RESET : EvCode := ⟨0x025, 1⟩
def ROW_CE : EvCode := ⟨0x030, 1⟩
def TMEM_UE : EvCode := ⟨0x031, 2⟩
def ROW_EXHAUSTED : EvCode := ⟨0x032, 2⟩
def BANK_RETIRED : EvCode := ⟨0x033, 2⟩
def NI_ERROR : EvCode := ⟨0x040, 1⟩
def UNIT_DRAINED : EvCode := ⟨0x041, 0⟩
def GUARD_NOTICE : EvCode := ⟨0x042, 1⟩
def GUARD_OVERLAP : EvCode := ⟨0x043, 2⟩
def GUARD_UPD_TO : EvCode := ⟨0x044, 2⟩
def SC_UNDECL : EvCode := ⟨0x045, 1⟩
def LATE_CELL : EvCode := ⟨0x046, 1⟩
def BAR_TIMEOUT : EvCode := ⟨0x047, 2⟩
def TIME_LATE : EvCode := ⟨0x048, 1⟩
def FNF_UNIT_LOST : EvCode := ⟨0x049, 2⟩
def CDC_OVERRUN : EvCode := ⟨0x04A, 1⟩
def TK_SWITCH : EvCode := ⟨0x060, 1⟩
def SWITCH_REFUSED : EvCode := ⟨0x061, 1⟩
def TK_DEAD : EvCode := ⟨0x062, 2⟩
def TK_LOST_BOTH : EvCode := ⟨0x063, 3⟩
def FNF_APPLY : EvCode := ⟨0x064, 0⟩
def FNF_ABORT : EvCode := ⟨0x065, 1⟩
def FNF_LATE : EvCode := ⟨0x066, 1⟩
def FNF_SHORT : EvCode := ⟨0x067, 0⟩
def XFNF_REPORT : EvCode := ⟨0x068, 1⟩
def BRACE_END : EvCode := ⟨0x069, 1⟩
def BRACE_RESET : EvCode := ⟨0x06A, 2⟩
def LATE_ALARM : EvCode := ⟨0x06B, 1⟩
def WAKE : EvCode := ⟨0x06C, 0⟩
def PROFILE_READY : EvCode := ⟨0x06D, 0⟩
def SC5_BOUND : EvCode := ⟨0x06E, 0⟩
def TICKET_ABORT : EvCode := ⟨0x06F, 1⟩
def SHADOW_DIVERGE : EvCode := ⟨0x080, 1⟩
def OPC_DECERR : EvCode := ⟨0x081, 1⟩
def OPC_TRAP : EvCode := ⟨0x082, 2⟩
def OPC_FAILOVER : EvCode := ⟨0x083, 2⟩
def OPC_DEAD : EvCode := ⟨0x084, 2⟩
def FW_HANDOVER : EvCode := ⟨0x085, 0⟩
def FW_REVERTED : EvCode := ⟨0x086, 2⟩
def SIG_PARTIAL : EvCode := ⟨0x087, 1⟩
def IMG_REJECT : EvCode := ⟨0x088, 1⟩
def FLOOD : EvCode := ⟨0x0F0, 2⟩
def MIRROR_GAP : EvCode := ⟨0x0F1, 1⟩
end EvC

/-- R346: the data words placed: the first in ARG, up to four more in one continuation. -/
def mkEv (ft node : Nat) (c : EvCode) (data : List W) : Ev :=
  { ftH := ftHi ft, ftL := ftLo ft, node := node, code := c.code, sev := c.sev, arg := wordAt data 0,
    cont := if data.length ≤ 1 then none
      else some [wordAt data 1, wordAt data 2, wordAt data 3, wordAt data 4] }

/-- R348, R349: an event reaches the writer's queue of 16, or is counted as lost. -/
def pushEv (s : State) (e : Ev) : State :=
  if s.evq.length < 16 then { s with evq := s.evq ++ [e] }
  else
    let ft := e.ftH.toNat * ftSec + e.ftL.toNat
    { s with evLost := s.evLost + 1, evLostFirst := if s.evLost = 0 then ft else s.evLostFirst,
             evLostLast := ft }

def logAt (s : State) (ft node : Nat) (c : EvCode) (data : List W) : State :=
  pushEv s (mkEv ft node c data)

/-! ### Event crossings (R321) -/

/-- The event crossings into tile agents: from an NI, from a router, from a tile memory controller. -/
inductive Xing
  | ni (n : Nat)
  | rtr (t : Nat)
  | tmem (t : Nat)
  deriving DecidableEq, Repr
/-- Events of an NI; events that a router and that a tile memory controller raise; the tile agent raises the others of its
tile. -/
def niEvent (c : Nat) : Bool := decide (0x040 ≤ c ∧ c ≤ 0x049) || decide (c = 0x01A)
def rtrEvent (c : Nat) : Bool := decide (0x010 ≤ c ∧ c ≤ 0x016) || decide (c = 0x020)
def tmemEvent (c : Nat) : Bool := decide (c = 0x030 ∨ c = 0x031)
def Xing.node (s : State) : Xing → Nat
  | .ni n => nodeOf s n
  | .rtr t => nodeTP s t 5
  | .tmem t => nodeTP s t 5
def Xing.tile : Xing → Nat
  | .ni n => n / 7
  | .rtr t => t
  | .tmem t => t
def Xing.carries (x : Xing) (e : Ev) : Bool :=
  match x with
  | .ni _ => niEvent e.code
  | .rtr _ => rtrEvent e.code
  | .tmem _ => tmemEvent e.code
/-- The entries of a crossing that are held: the events of its source that EVENT_RECORD has still to take (DESIGN CHOICE,
log entry 36). -/
def crossHeld (s : State) (x : Xing) : Nat :=
  (s.evq.filter (fun e => decide (e.node = x.node s) && x.carries e)).length
/-- A lost count of 18 bits saturates. -/
def incFldSat (s : State) (a lo len : Nat) : State := setFld s a lo len (min (getFld s a lo len + 1) (2 ^ len - 1))
/-- An OVERRUN flag is set; its rise is logged. -/
def overrun (s : State) (ft node a bit : Nat) : State :=
  let s1 := setBit s a bit true
  if regBit s a bit then s1 else logAt s1 ft node EvC.CDC_OVERRUN []
/-- A full crossing loses the event. -/
def loseCrossing (s : State) (x : Xing) : State :=
  let ft := ftTile s x.tile
  match x with
  | .ni n => overrun (incSat s (niReg n Off.CDC_LOST_EVT)) ft (x.node s) (niReg n Off.CDC_STAT) 0
  | .rtr t => overrun (incFldSat s (taReg t Off.CDC_TA_LOST) 0 18) ft (x.node s) (taReg t Off.CDC_TA_STAT) 0
  | .tmem t => overrun (incFldSat s (taReg t Off.CDC_TA_LOST) 18 18) ft (x.node s) (taReg t Off.CDC_TA_STAT) 1
/-- An event passes its crossing, of 15 entries. -/
def logCross (s : State) (x : Xing) (c : EvCode) (data : List W) : State :=
  if crossHeld s x < 15 then logAt s (ftTile s x.tile) (x.node s) c data else loseCrossing s x
/-- R347: an event of an NI, its guard or its crossings. -/
def logNi (s : State) (n : Nat) (c : EvCode) (data : List W) : State := logCross s (.ni n) c data
/-- R347: any other event of tile t. -/
def logTile (s : State) (t : Nat) (c : EvCode) (data : List W) : State :=
  if rtrEvent c.code then logCross s (.rtr t) c data
  else if tmemEvent c.code then logCross s (.tmem t) c data
  else logAt s (ftTile s t) (nodeTP s t 5) c data
/-- R347: an event of a global block. -/
def logGlobal (s : State) (c : EvCode) (data : List W) : State :=
  logAt s (ftNow s) (nodeTP s 0 7) c data

/-- R213: the node of the active Opcon core, by which firmware posts events (R347). -/
def activeCore (s : State) : Nat := getFld s (opcReg Off.OPC_FW_STAT) 26 1
def logFw (s : State) (c : EvCode) (data : List W) : State :=
  logAt s (ftNow s) (coreNode s (activeCore s)) c data

/-! ### Error registers (R152, R352) -/

/-- R152: the agent's reservation record is cleared. -/
def loseRecord (s : State) (n : Nat) : State := s.setReg (niReg n Off.NI_RES_STAT) 0

/-- R352: the sticky registers, in the order of their codes. -/
inductive ErrReg | ni | rsv | mc | grd | cdc
  deriving DecidableEq, Repr
def ErrReg.code : ErrReg → Nat
  | .ni => 0
  | .rsv => 1
  | .mc => 2
  | .grd => 3
  | .cdc => 4

/-- A sticky bit of the register at `a`, of NI n, its guard or its crossings, is set; NI_ERROR is logged when it rises
unmasked and the manual names no other event for it. -/
def raiseBit (s : State) (n : Nat) (r : ErrReg) (a : Nat) (mask : W) (bit : Nat) (named : Bool) : State :=
  let s1 := setBit s a bit true
  if regBit s a bit || mask.bit bit || named then s1
  else logNi s1 n EvC.NI_ERROR [W.at 33 3 r.code ||| W.at 0 8 (2 ^ bit)]

namespace ErrB
def BADPKT := 0
def TAGDUP := 1
def PKT_TO := 2
def KILL_TX := 3
def KILL_RX := 4
def RESP_DROP := 5
def TIM_LATE := 6
end ErrB

/-! The channel codes of NI_ERR_INFO (R56). -/

namespace ErrCh
def OREQ := 0
def ORSP := 1
def IREQ := 2
def IRSP := 3
def CPO := 4
def CPI := 5
def TIM := 6
end ErrCh

/-- R152: an error bit that becomes set, and was not set before in `s`, clears the record; one that is set already does
not. -/
def loseAtRise (s : State) (a bit n : Nat) (s1 : State) : State := if regBit s a bit then s1 else loseRecord s1 n

/-- R56: an NI_ERR bit is set; the first since NI_ERR was all zero is recorded. -/
def raiseErr (s : State) (n bit opc tag ch : Nat) : State :=
  let a := niReg n Off.NI_ERR
  let s1 := if s.reg a = 0 then
      s.setReg (niReg n Off.NI_ERR_INFO) (W.at 30 6 opc ||| W.at 8 8 tag ||| W.at 4 3 ch ||| W.at 0 4 bit)
    else s
  loseAtRise s a bit n (raiseBit s1 n .ni a (s.reg (niReg n Off.NI_ERR_MASK)) bit
    (bit = ErrB.TIM_LATE))

/-- NI_RSV_ERR (R104) and NI_MC_ERR (R127) bits. -/
def raiseRsvErr (s : State) (n bit : Nat) : State :=
  loseAtRise s (niReg n Off.NI_RSV_ERR) bit n (raiseBit s n .rsv (niReg n Off.NI_RSV_ERR) 0 bit false)
def raiseMcErr (s : State) (n bit : Nat) : State :=
  loseAtRise s (niReg n Off.NI_MC_ERR) bit n (raiseBit s n .mc (niReg n Off.NI_MC_ERR) 0 bit false)

/-! ### Small helpers over the state's blocks -/

def modNi (s : State) (n : Nat) (f : Ni → Ni) : State := s.setNi n (f (s.ni n))
def modRt (s : State) (t : Nat) (f : Router → Router) : State := s.setRt t (f (s.rt t))
def modTmc (s : State) (t : Nat) (f : Tmc → Tmc) : State := s.setTmc t (f (s.tmc t))
def modTa (s : State) (t : Nat) (f : Agent → Agent) : State := s.setTa t (f (s.ta t))
def modSlot (s : State) (k : Nat) (f : Slot → Slot) : State := s.setSlot k (f (s.slot k))
def modCore (s : State) (c : Nat) (f : OpCore → OpCore) : State := s.setCore c (f (s.core c))

/-- What a command answers: the next state. -/
abbrev Res := Host.Outcome State Fault Refusal
def ok (s : State) : Res := .next s
/-- An event whose condition does not hold does not happen (log entry 1). -/
def when_ (c : Bool) (s s' : State) : Res := .next (if c then s' else s)

/-- R29: NI_CTRL fields. -/
def niEn (s : State) (n : Nat) : Bool := regBit s (niReg n Off.NI_CTRL) 0
def niHiSc (s : State) (n : Nat) : Bool := regBit s (niReg n Off.NI_CTRL) 1
def niFwd (s : State) (n : Nat) : Bool := regBit s (niReg n Off.NI_CTRL) 2
def niTimEn (s : State) (n : Nat) : Bool := regBit s (niReg n Off.NI_CTRL) 3

/-- R54, R364, R16: whether the unit of NI n is populated: by the POP fuses at p0 to p4, always at p6. -/
def populated (s : State) (n : Nat) : Bool :=
  if n % 7 < 5 then s.fusesSensed.testBit (800 + 5 * (n / 7) + n % 7) else n % 7 = 6 && hasP6 (n / 7)

/-- R19, R21: the operating profile that tile t has taken: 0 T, 1 L, 2 E. -/
def profile (s : State) (t : Nat) : Nat := (s.ta t).prof

/-! ### Fanfare slots -/

/-- The slot that a FID names. -/
def fidSlot (fid : Nat) : Nat := fid % 8
/-- R81: from LT_A to LT_B of a route change only its own slot stages. -/
def stagingPaused (s : State) (k : Nat) : Bool :=
  match s.route with
  | none => false
  | some r => decide (r.phase ≠ .hold) && decide ((s.slot k).ticket ≠ some r.ticket)

/-! ### Service of slices, routers and tiles (R11, R13, R264, R271, R278, R288, R291, R302) -/

def sliceState (s : State) (t sl : Nat) : Nat := getFld s (slcReg t sl Off.SLC_STAT) 0 3
def sliceIn (s : State) (t sl : Nat) : Bool := sliceState s t sl = 0
/-- R271: the state and cause of a slice. -/
def setSlice (s : State) (t sl st cause : Nat) : State :=
  setFld (setFld s (slcReg t sl Off.SLC_STAT) 0 3 st) (slcReg t sl Off.SLC_STAT) 3 4 cause

namespace TS
def RUN := 0
def SLIM := 1
def DOZE := 2
def OFF := 3
def ENTERING := 4
def WAKING := 5
end TS

def tileState (s : State) (t : Nat) : Nat := getFld s (taReg t Off.PWR_TA_STAT) 0 3
def setTileState (s : State) (t v : Nat) : State := setFld s (taReg t Off.PWR_TA_STAT) 0 3 v
/-- The tile's slices are unpowered: Doze, Off, or waking. -/
def tileDark (s : State) (t : Nat) : Bool :=
  decide (tileState s t = TS.DOZE ∨ tileState s t = TS.OFF ∨ tileState s t = TS.WAKING)
/-- Both slices out of service, or the tile dark. -/
def routerOut (s : State) (t : Nat) : Bool := (!sliceIn s t 0 && !sliceIn s t 1) || tileDark s t
/-- Exactly one slice in service. -/
def routerHalf (s : State) (t : Nat) : Bool := sliceIn s t 0 != sliceIn s t 1
def sc5Rsv (s : State) (t : Nat) : Bool := regBit s (rtrReg t Off.RTR_CTRL) 1

/-- R302, R276, R322: the NI takes no beat from its unit: the tile is dark, or the block is in reset or in
power-on self-test. -/
def unitClosed (s : State) (n : Nat) : Bool := tileDark s (n / 7) || s.inReset || s.postRun
/-- R278, R288: an NI that refuses in the safe state: p0 to p4 everywhere, and NI(56, 6). -/
def refusing (s : State) (n : Nat) : Bool := s.safe && decide (n % 7 < 5 ∨ n = 7 * 56 + 6)

/-! ### The lines of units (R345) -/

/-- The NIs of a tile that have units (R3). -/
def unitNis (t : Nat) : List Nat := ((if hasP6 t then [0, 1, 2, 3, 4, 6] else [0, 1, 2, 3, 4])).map (fun p => niOf t p)
/-- Some NI of tile t presents line k unmasked; a tile in Off presents none. -/
def lineUp (s : State) (t k : Nat) : Bool :=
  decide (tileState s t ≠ TS.OFF) &&
    (unitNis t).any (fun n => regBit s (niReg n Off.NI_UINT) k && !regBit s (niReg n Off.NI_UINT_MASK) k)
def uintSync (s : State) (t : Nat) : State :=
  [0, 1, 2, 3].foldl (fun st k =>
    setBit st (evlReg ((if t < 32 then Off.EVL_UINT_LO k else Off.EVL_UINT_HI k))) (t % 32) (lineUp s t k)) s
def uintAny (s : State) (k : Nat) : Bool :=
  decide (s.reg (evlReg (Off.EVL_UINT_LO k)) ≠ 0 ∨ s.reg (evlReg (Off.EVL_UINT_HI k)) ≠ 0)
/-- The lines of a tile have fallen with its NIs: bits 8 to 11 of EVL_IRQ_PEND follow (R342). -/
def uintDrop (s : State) (t : Nat) : State :=
  [0, 1, 2, 3].foldl (fun st k => if uintAny st k then st else setBit st (evlReg Off.EVL_IRQ_PEND) (8 + k) false) (uintSync s t)

/-! ### Refused and abandoned entries (R293, R311) -/

/-- A refused request or an abandoned entry. -/
def recordRefusal (s : State) (t code target : Nat) (auto : Bool) : State :=
  let s1 := incWrap (incWrap s (taReg t Off.PWR_REFUSE_CNT)) (taReg t (Off.PWR_REFUSE_BY code))
  let s2 := s1.setReg (taReg t Off.PWR_LAST_REFUSER) (W.at 0 4 code ||| W.at 4 3 target ||| W.at 7 1 (b2n auto))
  if target = 2 && !auto then modTa s2 t (fun a => { a with slimNo := some code }) else s2
/-- R311: STATE as it is shown: a tile that narrows for Slim or is on its way to Doze shows 4. -/
def shownState (s : State) (t : Nat) : Nat :=
  let a := s.ta t
  let slim : Bool := match a.nar with
    | some x => decide (x.why = .slim)
    | none => false
  if tileState s t = TS.RUN && (a.entering.isSome || slim) then TS.ENTERING else tileState s t

end Sys2Proof.Machine
end

