-- ==== Sys2Proof/Machine/Operands.lean ====
section
/-!
DEFINITION. Operand forms: opcodes and packet fields (R32 to R35), the head checks of R40 and R107,
the regions of the address map and what each answers (R129 to R132), the words that a request touches.
-/

namespace Sys2Proof

/-! The fields of a head as numbers. -/

def Head.arga (h : Head) : Nat := h.arg.toNat
def Head.opcN (h : Head) : Nat := h.opc.toNat
def Head.cntN (h : Head) : Nat := h.cnt.toNat
def Head.lenN (h : Head) : Nat := h.len.toNat

end Sys2Proof

namespace Sys2Proof.Machine

/-! ### Opcodes (R35) -/

namespace Opc
def RD := 0x01
def WR := 0x02
def FOP := 0x03
def LKACQ := 0x04
def LKRNW := 0x05
def LKREL := 0x06
def BAR := 0x0F
def RDRESP := 0x11
def WRACK := 0x12
def FOPRESP := 0x13
def LKRESP := 0x14
def CELLREF := 0x1E
def BARACK := 0x1F
def CELL := 0x21
def CELLMC := 0x22
def RSVREQ := 0x31
def RSVGNT := 0x32
def RSVREF := 0x33
def RSVREL := 0x34
def FSTAGE := 0x38
def FSTGD := 0x39
def FARM := 0x3A
def FABRT := 0x3B
def PHOLD := 0x3C
def MSG := 0x3D
end Opc

/-- R35: OPC[5:4] is the VN. -/
def vnOf (opc : Nat) : Nat := opc / 16
def isLock (opc : Nat) : Bool := opc = Opc.LKACQ || opc = Opc.LKRNW || opc = Opc.LKREL
/-- RD, WR, FOP and the lock operations: the requests that await a response (R39) and the accesses of R148. -/
def isAccess (opc : Nat) : Bool := opc = Opc.RD || opc = Opc.WR || opc = Opc.FOP || isLock opc
def isResp (opc : Nat) : Bool :=
  opc = Opc.RDRESP || opc = Opc.WRACK || opc = Opc.FOPRESP || opc = Opc.LKRESP
def isCell (opc : Nat) : Bool := opc = Opc.CELL || opc = Opc.CELLMC

def Pkt.flits (p : Pkt) : Nat := p.len + 1
def Pkt.flag (p : Pkt) (i : Nat) : Bool := p.flg.testBit i
/-- LDRES is a RD with RES, STCOND a WR with COND (R151). -/
def Pkt.isLdres (p : Pkt) : Bool := p.opc = Opc.RD && p.flag 0
def Pkt.isStcond (p : Pkt) : Bool := p.opc = Opc.WR && p.flag 0
def Pkt.addr (p : Pkt) : Nat := p.arg.toNat
/-- R44: SUB and k of a far operation. -/
def fopSub (cnt : Nat) : Nat := cnt % 8
def fopK (cnt : Nat) : Nat := cnt / 32 % 16 + 1
/-- R44: operand words per operation, and the words of the target that each operation covers. -/
def fopOperands (sub : Nat) : Nat := if sub = 1 ∨ sub = 3 then 2 else 1
def fopSpan (sub : Nat) : Nat := if sub = 1 then 2 else 1

/-- R340: whether any flit of a packet carries poison. -/
def Pkt.poisoned (p : Pkt) : Bool := p.poi ≠ 0
/-- R34: the flit that carries payload word i. -/
def flitOfWord (i : Nat) : Nat := if i < 12 then 0 else (i - 12) / 16 + 1
/-- R340: whether payload word i arrived poisoned. -/
def Pkt.wordPoi (p : Pkt) (i : Nat) : Bool := p.poi.testBit (flitOfWord i)

/-- R130: how many words a request touches from ARG. -/
def wordsTouched (opc cnt : Nat) : Nat :=
  if opc = Opc.RD ∨ opc = Opc.WR then cnt
  else if opc = Opc.FOP then fopK cnt * fopSpan (fopSub cnt)
  else if isLock opc then 2 else 0
def Pkt.touched (p : Pkt) : Nat := wordsTouched p.opc p.cnt

/-- R35: the flits that hold n payload words: 12 in the head and 16 in each further flit. -/
def flitsForWords (n : Nat) : Nat := if n ≤ 12 then 1 else (n - 12 + 15) / 16 + 1
/-- R17: the flits of a cell of b bytes. -/
def flitsForBytes (b : Nat) : Nat := if b ≤ 54 then 1 else (b - 54 + 71) / 72 + 1

/-- R35: flits that an opcode has for its CNT. -/
def lenFor (opc cnt : Nat) : Nat :=
  if opc = Opc.WR ∨ opc = Opc.RDRESP ∨ opc = Opc.FOPRESP ∨ opc = Opc.MSG then flitsForWords cnt
  else if opc = Opc.FOP then flitsForWords (fopK cnt * fopOperands (fopSub cnt))
  else if isCell opc then flitsForBytes cnt
  else 1

/-- R35, R44: CNT within its range. -/
def cntOk (opc cnt : Nat) : Bool :=
  if opc = Opc.RD ∨ opc = Opc.WR ∨ opc = Opc.MSG then 1 ≤ cnt && cnt ≤ 16
  else if opc = Opc.FOP then
    cnt / 8 % 4 = 0 && (fopSub cnt ≠ 1 && fopSub cnt ≠ 3 || fopK cnt ≤ 8)
  else if opc = Opc.RDRESP ∨ opc = Opc.FOPRESP then cnt ≤ 16
  else if isCell opc then 1 ≤ cnt && cnt ≤ 256
  else cnt = 0

/-- R36: which opcodes a unit may send on which channel. -/
def opcAllowed (ch : Chan) (opc : Nat) : Bool :=
  match ch with
  | .oreq => isAccess opc || opc = Opc.BAR || opc = Opc.MSG
  | .irsp => isResp opc
  | .cpo => isCell opc
  | .own => true

/-! ### The address map (R129, R131, R133) -/

inductive Region
  | rom (off : Nat) | sram (off : Nat) | tmem (t off : Nat) | unit (n off : Nat) | matrix (listed : Bool) | none
  deriving DecidableEq, Repr

def romWords : Nat := 29120
def sramWords : Nat := 233016
def tmemWords : Nat := 98304
/-- R133: MTX_REMAP.BOOT. -/
def bootSel (s : State) : Bool := regBit s (mtxReg Off.MTX_REMAP) 0

def romAt (off : Nat) : Region := if off < romWords then .rom off else .none
def sramAt (off : Nat) : Region := if off < sramWords then .sram off else .none

/-- The region of an address; `none` has no target or lies beyond the implemented words. -/
def regionOf (s : State) (a : Nat) : Region :=
  if a < 0x100000 then (if bootSel s then sramAt a else romAt a)
  else if a < 0x200000 then romAt (a - 0x100000)
  else if a < 0x300000 then sramAt (a - 0x200000)
  else if a < 0x100000000 then .none
  else if a < 0x100800000 then
    let t := (a - 0x100000000) / 0x20000
    let off := a % 0x20000
    if off < tmemWords then .tmem t off else .none
  else if a < 0x200000000 then .none
  else if a < 0x3C0000000 then .unit ((a - 0x200000000) / 0x1000000) (a % 0x1000000)
  else if 0xF00000000 ≤ a ∧ a < 0x1000000000 then .matrix (regAt a).isSome
  else .none

/-- R133: the region of an address as its source sees it: the Opcon memory applies the remap of the boot window, so
the source tells only the words beyond both contents. -/
def launchRegion (s : State) (a : Nat) : Region := if a < 0x100000 then sramAt a else regionOf s a

/-- Where a word of tile memory stands in `State.mem`. -/
def tmemAddr (t off : Nat) : Nat := 0x100000000 + t * 0x20000 + off
/-- Where a word of the Opcon SRAM stands in `State.mem`: at its alias, which never changes. -/
def sramAddr (off : Nat) : Nat := 0x200000 + off

/-- R156: locks lie at the even words of the first 512 offsets. -/
def lockOk (off : Nat) : Bool := off < 512 && off % 2 = 0

/-- What R131 gives for an operation in a region. -/
inductive Ans | carry | miss | bad
  deriving DecidableEq, Repr

/-- R131. `stcond` outside tile memory and units is carried and fails there. -/
def regionAns (r : Region) (opc : Nat) : Ans :=
  match r with
  | .none => .miss
  | .rom _ => if opc = Opc.FOP then .miss else if isLock opc then .bad else .carry
  | .sram _ => if opc = Opc.FOP then .miss else if isLock opc then .bad else .carry
  | .tmem _ off => if isLock opc then (if lockOk off then .carry else .bad) else .carry
  | .unit _ _ => if isLock opc then .bad else .carry
  | .matrix listed => if opc = Opc.FOP then .miss else if isLock opc && listed then .bad else .carry

/-- R131: a plain WR to the boot ROM is a miss; a STCOND there fails without writing. -/
def romWriteMiss (r : Region) (opc : Nat) (cond : Bool) : Bool :=
  match r with
  | .rom _ => opc = Opc.WR && !cond
  | _ => false

/-- R132, R203: unit windows that hold nothing at any time: those of every p5 and of every p6. -/
def windowAbsent (n : Nat) : Bool := n % 7 = 5 || n % 7 = 6

/-- R130: every word within one aligned line. -/
def oneLine (a k : Nat) : Bool := a % 16 + k ≤ 16

/-! ### Head checks (R40, R107, R130, R131) -/

/-- Checks on the header alone, the same on every channel: opcode, length, count, flit type, flags. -/
def headFormOk (ch : Chan) (h : Head) : Bool :=
  opcAllowed ch h.opcN &&
  cntOk h.opcN h.cntN &&
  h.lenN + 1 = lenFor h.opcN h.cntN &&
  (if h.lenN = 0 then h.ft = 3 else h.ft = 0) &&
  !((h.opcN = Opc.RD || h.opcN = Opc.WR) && h.flg.getLsbD 0 && h.cntN ≠ 1) &&
  !(h.opcN = Opc.BAR && h.flg.toNat % 4 = 3) &&
  !(isCell h.opcN && !h.flg.getLsbD 1 && h.cntN ≠ 256)

/-- R40: DST. A CELLMC head has no DST (R33). -/
def headDstOk (s : State) (h : Head) : Bool :=
  h.opcN = Opc.CELLMC ||
  (h.w0.fld 23 13 = 0 && h.w0.fld 0 3 ≠ 7 &&
   !((h.opcN = Opc.CELL || isResp h.opcN) && h.w0.fld 9 14 ≠ inst s))

/-- R44, R130, R131: the address of a request. -/
def headAddrOk (s : State) (h : Head) : Bool :=
  !isAccess h.opcN ||
  (oneLine h.arga (wordsTouched h.opcN h.cntN) &&
   !(h.opcN = Opc.FOP && fopSub h.cntN = 1 && h.arga % 2 = 1) &&
   regionAns (regionOf s h.arga) h.opcN ≠ .bad)

/-- The head checks together. -/
def headOk (s : State) (ch : Chan) (h : Head) : Bool :=
  headFormOk ch h && headDstOk s h && headAddrOk s h

/-! ### Building packets -/

def lowTile (d : Nat) : Nat := nodeTile d

/-- The packet of an accepted head. -/
def headPkt (id src sc : Nat) (h : Head) : Pkt :=
  { id := id, opc := h.opcN, dst := h.w0.fld 0 23, src := src, sc := sc, len := h.lenN, cnt := h.cntN,
    tag := h.tag.toNat, flg := h.flg.toNat, arg := h.arg, words := h.words, poi := h.poi.toNat }

/-- R41: the class at which a unit's packet is carried. -/
def clampSc (hiSc : Bool) (prof sc : Nat) : Nat :=
  if 6 ≤ sc then (if hiSc then sc else 4)
  else if sc = 5 then (if prof = 1 then 5 else 4)
  else sc

/-- R42: fields of W3 of a CELL. -/
def Pkt.handle (p : Pkt) : Nat := p.arg.fld 0 16
def Pkt.seq (p : Pkt) : Nat := p.arg.fld 16 8
def Pkt.itile (p : Pkt) : Nat := p.arg.fld 24 6
def Pkt.spr (p : Pkt) : Bool := p.arg.bit 30
def cellArg (handle seq itile : Nat) (spr : Bool) : W :=
  W.at 0 16 handle ||| W.at 16 8 seq ||| W.at 24 6 itile ||| W.at 30 1 (b2n spr)

/-- Tiles of a mask, ascending. -/
def tilesOf (mask : Nat) : List Nat := (List.range 64).filter (fun t => mask.testBit t)

end Sys2Proof.Machine
end

