-- ==== Sys2Proof/Machine/Flags.lean ====
section
/-!
DEFINITION. Status codes and the answers that carry them (R37, R38), and the far operations' results
(R154), the lock results (R158) and the lease arithmetic (R159).
-/

namespace Sys2Proof.Machine

namespace St
def OK := 0
def DECERR := 1
def GUARD := 2
def POISON := 3
def ABORTED := 4
def TAGDUP := 5
def BADPKT := 6
def FAIL := 7
def BUSY := 8
def TORN := 9
def NOTOWN := 10
def REFUSED := 11
end St

/-- R37, R40: the response opcode of a request; anything else is answered as a write. -/
def respOpc (opc : Nat) : Nat :=
  if opc = Opc.RD then Opc.RDRESP
  else if opc = Opc.FOP then Opc.FOPRESP
  else if isLock opc then Opc.LKRESP
  else if opc = Opc.BAR then Opc.BARACK
  else if opc = Opc.CELL ∨ opc = Opc.CELLMC then Opc.CELLREF
  else Opc.WRACK

/-- The echoed flag: RES of a read, COND of a write (R35). -/
def echoFlg (opc flg : Nat) : Nat := if opc = Opc.RD ∨ opc = Opc.WR then flg % 2 else 0

/-- A response to request `q`, from node `src`: status, data words, poison. A lock response has W4 and
W5 and CNT 0 (R35, R156). -/
def mkResp (q : Pkt) (src st : Nat) (data : List W) (poi : Nat) : Pkt :=
  let o := respOpc q.opc
  let cnt := if o = Opc.RDRESP ∨ o = Opc.FOPRESP then data.length else 0
  { id := q.id, opc := o, dst := q.src, src := src, sc := q.sc,
    len := flitsForWords data.length - 1, cnt := cnt, tag := q.tag, flg := echoFlg q.opc q.flg,
    arg := natW st, words := data, poi := poi }

/-- Words that a request's answer carries when it is answered with zero data (R132): the words of a
read, the old values of a far operation, the two words of a lock. -/
def zeroData (q : Pkt) : List W :=
  if q.opc = Opc.RD then List.replicate q.cnt 0
  else if q.opc = Opc.FOP then
    (if q.flag 0 then [] else List.replicate (fopK q.cnt * fopSpan (fopSub q.cnt)) 0)
  else if isLock q.opc then [0, 0] else []

/-- R132: the masters that see DECERR: the Opcon cores and the debug access port. -/
def seesDecerr (n : Nat) : Bool := n = 6 || n = 7 * 63 + 6 || n = 7 * 7 + 6

/-- R132: the answer of NI n to its unit for a decode miss. -/
def missResp (q : Pkt) (n src : Nat) : Pkt :=
  if seesDecerr n then mkResp q src St.DECERR (if isLock q.opc then [0, 0] else []) 0
  else mkResp q src St.OK (zeroData q) 0

/-! ### Far operations (R154) -/

/-- New value and returned value of a one-word operation; `b` is CAS36's second operand. -/
def fopOne (sub : Nat) (v a b : W) : W :=
  match sub with
  | 0 => v + a
  | 2 => a
  | 3 => if v = a then b else v
  | 4 => if v.toNat < a.toNat then a else v
  | 5 => if a.toNat < v.toNat then a else v
  | 6 => v &&& a
  | 7 => v ||| a
  | _ => v

/-- ADD72: low words first; the carry crosses the words. -/
def add72Of (lo hi alo ahi : W) : W × W :=
  let x := (lo.toNat + hi.toNat * 2 ^ 36 + (alo.toNat + ahi.toNat * 2 ^ 36)) % 2 ^ 72
  (natW (x % 2 ^ 36), natW (x / 2 ^ 36))

/-! ### Locks (R156 to R159) -/

def lkOwner (w : W) : Nat := w.fld 0 23
def lkEpoch (w : W) : Nat := w.fld 23 8
def lkHeld (w : W) : Bool := w.bit 31
def lkWord (owner epoch : Nat) (held torn : Bool) : W :=
  W.at 0 23 owner ||| W.at 23 8 epoch ||| W.at 31 1 (b2n held) ||| W.at 32 1 (b2n torn)
def lsExpiry (w : W) : Nat := w.fld 0 20
def lsLease (w : W) : Nat := w.fld 20 16
/-- R159: EXPIRY = (u + L + 1) mod 2^20; a lease of 0 is taken as 1. -/
def leaseWord (u lease : Nat) : W :=
  let l := if lease = 0 then 1 else lease
  W.at 0 20 (u + l + 1) ||| W.at 20 16 l
/-- R159: the lease has expired when (count − EXPIRY) mod 2^20 < 2^19. -/
def leaseOver (u : Nat) (lease : W) : Bool := (u + 2 ^ 20 - lsExpiry lease) % 2 ^ 20 < 2 ^ 19
/-- R159: the µs count of an FT in 1/64 ns. -/
def usecOf (ft : Nat) : Nat := (ft / ftSec * 1000000 + ft % ftSec / 64000) % 2 ^ 20
/-- R157: epoch e is newer than the table's entry t. -/
def newerEpoch (e t : Nat) : Bool := 1 ≤ (e + 256 - t) % 256 && (e + 256 - t) % 256 ≤ 127

end Sys2Proof.Machine
end

