-- ==== Sys2Proof/Machine/Routing.lean ====
section
/-!
DEFINITION. Route computation (R57 to R68, R71) and replication (R76, R77) as functions of the router
that computes, its own copy of the fence map and its local fences, and the slot counts of R61.
-/

namespace Sys2Proof.Machine

def row (t : Nat) : Nat := t / 8
def col (t : Nat) : Nat := t % 8
/-- R57: the port of router a on its link to b, which shares a line with it. -/
def portTo (a b : Nat) : Nat := if row a = row b then col b else 8 + row b
/-- R57: the router at the far end of network port o of router a. -/
def across (a o : Nat) : Nat := if o < 8 then 8 * row a + o else 8 * (o - 8) + col a
/-- R57: the wire latency of a span. -/
def wireLat (a b : Nat) : Nat :=
  let d := if row a = row b then (if col a < col b then col b - col a else col a - col b)
    else (if row a < row b then row b - row a else row a - row b)
  if d ≤ 2 then 1 else if d ≤ 5 then 2 else 3

/-! ### Resynchronisations asked for (R257), and an entry to Doze that ends early (R298) -/

def setResync (s : State) (t : Nat) (r : ResyncSt) : State :=
  modRt s t (fun x => { x with resync := x.resync.filter (fun q => decide (q.port ≠ r.port)) ++ [r] })
/-- The 21 input ports of a router (R57, R257). -/
def inputPorts (t : Nat) : List Nat :=
  ((List.range 16).filter (fun o => !(decide (o = col t) || decide (o = 8 + row t)))) ++
    (List.range 7).map (fun p => 16 + p)
def resyncOf (s : State) (t i : Nat) : Option ResyncSt := (s.rt t).resync.find? (fun r => decide (r.port = i))
/-- R257: the sender starts no packet on a port between the request's arrival and the grant's. -/
def portStopped (s : State) (t i : Nat) : Bool :=
  match resyncOf s t i with
  | none => false
  | some r => decide (r.phase ≠ .req) || r.stopped
/-- The port of input i of router t asks its upstream side for a resynchronisation to a layout. An upstream side that has
stopped for one under way stays so until it has loaded the grant of this one. -/
def startResync (s : State) (t i : Nat) (half : Bool) : State :=
  setResync s t { port := i, half := half, stopped := portStopped s t i }
def resyncAll (s : State) (t : Nat) (half : Bool) : State :=
  forEach (fun i st => startResync st t i half) (inputPorts t) s
/-- An entry to Doze ends: the ports go back to their full layout. -/
def endEntering (s : State) (t : Nat) : State :=
  if (s.ta t).entering.isSome then
    resyncAll (modTa s t (fun a => { a with entering := none })) t (routerHalf s t)
  else s
/-- A flit or a wake flag (ROUTER, 1) or an NI request line (NI, 2) comes before the clamps: the entry is abandoned. -/
def stirTile (s : State) (t code : Nat) : State :=
  if (s.ta t).entering.isSome then recordRefusal (endEntering s t) t code 3 true else s
/-- R298: an output of router t sends a flit. -/
def noteOut (s : State) (t : Nat) : State := modTa s t (fun a => { a with outFc := s.fc })

/-! ### The fence map as router r holds it (R64, R68, R84, R260) -/

def fmapWord (s : State) (r x : Nat) : W := s.reg (rtrReg r (Off.RTR_FMAP + x))
def mapOut (s : State) (r x : Nat) : Bool := (fmapWord s r x).bit 16
/-- The map as the global blocks see it: that of the router at tile 0, or at tile 63 while tile 0 is out. -/
def outNow (s : State) (x : Nat) : Bool := mapOut s (if mapOut s 63 0 then 63 else 0) x
def mapHalf (s : State) (r x : Nat) : Bool := (fmapWord s r x).bit 17
def localFence (s : State) (r o : Nat) : Bool := regBit s (rtrReg r Off.RTR_LOCAL_FENCE) o
def localHalf (s : State) (r o : Nat) : Bool := regBit s (rtrReg r Off.RTR_LOCAL_HALF) o

/-- R64: a link is fenced by its own bit or because an end router is out of service. -/
def linkFenced (s : State) (r a b : Nat) : Bool :=
  (fmapWord s r a).bit (portTo a b) || mapOut s r a || mapOut s r b ||
  (decide (a = r) && localFence s r (portTo a b))

/-- R66: a path fits. `prev` is the router before the rest of the path, `k` the number of links
already taken by the packet; every router entered over its second or later link and left again is
full-width. -/
def fitsFrom (s : State) (r : Nat) : Nat → Nat → List Nat → Bool
  | _, k, [] => k ≤ 4
  | prev, k, x :: rest =>
    !linkFenced s r prev x &&
    (rest.isEmpty || k = 0 ||
      !(mapHalf s r x || (decide (prev = r) && localHalf s r (portTo r x)))) &&
    fitsFrom s r x (k + 1) rest

/-- A path of at least one link from r, after h links taken. -/
def fits (s : State) (r h : Nat) (p : List Nat) : Bool :=
  h + p.length ≤ 4 && fitsFrom s r r h p

/-- R58: the next router and the whole of the ordered route, row first. -/
def orderedPath (a b : Nat) : List Nat :=
  if a = b then []
  else if row a = row b ∨ col a = col b then [b]
  else [8 * row a + col b, b]

/-- R66: the intermediates of a knight hop on the leg a → b along a line. -/
def knights (a b : Nat) : List Nat :=
  let tries := [1, 2, 3, 4, 5, 6, 7]
  if row a = row b then
    (tries.map (fun i => (col b + i) % 8)).filterMap
      (fun c => if c = col a ∨ c = col b then none else some (8 * row a + c))
  else
    (tries.map (fun i => (row b + i) % 8)).filterMap
      (fun q => if q = row a ∨ q = row b then none else some (8 * q + col a))

/-- A route with the kind that RTR_KNIGHT_CNT and RTR_SWAP_CNT count at its first router. -/
structure Path where
  nodes : List Nat
  knight : Bool := false
  swap : Bool := false
  deriving DecidableEq, Repr

/-- The paths r → k → t with one or both legs replaced, in the order of R66. -/
def viaOne (r k t : Nat) (swap : Bool) : List Path :=
  (knights r k).map (fun m => ⟨[m, k, t], true, swap⟩) ++
  (knights k t).map (fun m => ⟨[k, m, t], false, swap⟩)
def viaBoth (r k t : Nat) (swap : Bool) : List Path :=
  (knights r k).flatMap (fun m => (knights k t).map (fun m' => ⟨[m, k, m', t], true, swap⟩))

/-- R66: the candidate paths in preference order. -/
def candidates (r t : Nat) : List Path :=
  if row r = row t ∨ col r = col t then
    ⟨[t], false, false⟩ :: (knights r t).map (fun m => ⟨[m, t], true, false⟩)
  else
    let kr := 8 * row r + col t
    let kc := 8 * row t + col r
    [⟨[kr, t], false, false⟩, ⟨[kc, t], false, true⟩] ++ viaOne r kr t false ++ viaOne r kc t true ++
      viaBoth r kr t false ++ viaBoth r kc t true

/-- The fitting path with the fewest hops, the first of those in order. -/
def bestOf (best : Option Path) : List Path → Option Path
  | [] => best
  | p :: ps =>
    match best with
    | none => bestOf (some p) ps
    | some b => bestOf (if p.nodes.length < b.nodes.length then some p else some b) ps

/-- R66 for an ordered packet at r, h links taken, to t ≠ r. -/
def bestPath (s : State) (r h t : Nat) : Option Path :=
  bestOf none ((candidates r t).filter (fun p => fits s r h p.nodes))

/-- What R65 answers: eject here, go to a router, or no fitting candidate. `itile` is the packet's
ITILE after the computation. -/
inductive Route
  | eject
  | go (next : Nat) (knight swap : Bool)
  | unroutable
  deriving DecidableEq, Repr

/-- R65 for a packet to tile d, at router r, with h links taken; a sprayed packet carries its ITILE. Where a sprayed
packet that passes d on its way to ITILE finds the leg unfit, R65 asks for candidates from d to d, which R66 does not
define; the model ejects it there (DESIGN CHOICE, log entry 38). -/
def routeTo (s : State) (r h d : Nat) (spr : Bool) (itile : Nat) : Route × Nat :=
  let it := if spr && decide (r = itile) && decide (itile ≠ d) then d else itile
  let t := if spr then it else d
  let ordinary : Route :=
    if r = d then .eject
    else match bestPath s r h d with
      | none => .unroutable
      | some p => match p.nodes with
        | [] => .unroutable
        | x :: _ => .go x p.knight p.swap
  if r = t then (.eject, it)
  else if spr && decide (t ≠ d) then
    let path := orderedPath r t ++ orderedPath t d
    match path with
    | [] => (ordinary, d)
    | x :: _ => if fits s r h path then (.go x false false, it) else (ordinary, d)
  else (ordinary, it)

/-- R65: the route of a packet at router r. -/
def route (s : State) (r h : Nat) (p : Pkt) : Route × Nat :=
  routeTo s r h (nodeTile p.dst) (decide (p.opc = Opc.CELL) && p.spr) p.itile

/-- R67: a fitting candidate exists from the source tile. -/
def reachable (s : State) (src d : Nat) : Bool :=
  decide (src = d) && !mapOut s src d || (decide (src ≠ d) && (bestPath s src 0 d).isSome)

/-! ### Spray (R71) -/

/-- No link of the path from `prev` on is fenced, and no router on it is out of service, in the map of router r. -/
def linksOpen (s : State) (r : Nat) : Nat → List Nat → Bool
  | _, [] => true
  | prev, x :: rest => !linkFenced s r prev x && linksOpen s r x rest

/-- R71: an intermediate tile whose two ordered routes meet no fence and no half-width router but
those of the ends. -/
def sprayEligible (s : State) (src d i : Nat) : Bool :=
  decide (i ≠ src) && decide (i ≠ d) &&
  (let path := orderedPath src i ++ orderedPath i d
   linksOpen s src src path &&
   path.all (fun x => decide (x = src) || decide (x = d) || !mapHalf s src x))
def eligibleTiles (s : State) (src d : Nat) : List Nat :=
  (List.range 64).filter (sprayEligible s src d)

/-! ### Replication (R76, R77) -/

/-- One copy of a CELLMC: its mask and its target tile; `none` is local delivery. -/
structure Copy where
  mask : Nat
  target : Option Nat
  deriving DecidableEq, Repr

def maskOfCol (m c : Nat) : Nat :=
  (tilesOf m).foldl (fun acc t => if col t = c then acc + 2 ^ t else acc) 0

/-- R77: from root y, h links taken, a fitting path exists to every tile of the mask. -/
def rootServes (s : State) (r h y m : Nat) : Bool :=
  (tilesOf m).all (fun t => decide (t = y) ||
    (candidates y t).any (fun p => h + p.nodes.length ≤ 4 && fitsFrom s r y h p.nodes))

/-- R62, R66: the root is full-width when it is entered over a second or later link and left again. -/
def rootWide (s : State) (x h m root : Nat) (p : List Nat) : Bool :=
  decide (m = 2 ^ root) || decide (h + p.length ≤ 1) ||
    !(mapHalf s x root || (decide (p.length = 1) && localHalf s x (portTo x root)))

/-- R77: the row copy of column c, or one copy per tile when the root cannot serve it. -/
def rowCopies (s : State) (x h m c : Nat) : List Copy :=
  let mc := maskOfCol m c
  let root := 8 * row x + c
  match bestPath s x h root with
  | some p =>
    if rootWide s x h mc root p.nodes && rootServes s x (h + p.nodes.length) root mc then [⟨mc, some root⟩]
    else (tilesOf mc).map (fun t => ⟨2 ^ t, some t⟩)
  | none => (tilesOf mc).map (fun t => ⟨2 ^ t, some t⟩)

/-- R76: the copies that router x makes of a cell with mask m, h links taken. -/
def replicateMask (s : State) (x h m : Nat) : List Copy :=
  if m = 2 ^ x then [⟨m, none⟩]
  else
    let locals := if m.testBit x then [⟨2 ^ x, none⟩] else []
    let cols := (List.range 8).filter (fun c => decide (c ≠ col x) && decide (maskOfCol m c ≠ 0))
    let down := (tilesOf (maskOfCol m (col x))).filter (fun t => decide (t ≠ x))
    locals ++ cols.flatMap (rowCopies s x h m) ++ down.map (fun t => ⟨2 ^ t, some t⟩)

/-- R111: the local port mask of group g in a word of the table of tile t. -/
def laneOf (w : W) (g : Nat) : Nat := w.fld (9 * (g % 4)) 9
def laneAddr (t g : Nat) : Nat := tmemAddr t (0xF000 + g / 4)
/-- The attach points that a lane names: p0 to p4 and p6. -/
def lanePorts (lane : Nat) : List Nat := [0, 1, 2, 3, 4, 6].filter (fun p => lane.testBit p)

/-! ### Slots (R61, R62) -/

/-- Free slots of a port's shared pool and SC5 reserve, by width and SC5_RSV. -/
def sharedMax (half l : Bool) : Nat := if half then 8 else if l then 24 else 32
def resvMax (half l : Bool) : Nat := if !half && l then 8 else 0
def vcKey (vn vc : Nat) : Nat := 4 * vn + vc
def vcHeld (c : Cnt) (k : Nat) : Nat := Sparse.get (fun _ => 0) c.vcs k
def setVc (c : Cnt) (k v : Nat) : Cnt := { c with vcs := Sparse.set (fun _ => 0) c.vcs k v }

/-- R61: the guard of a packet at the receiving router. -/
def guardOf (localPort transit half : Bool) (rank : Nat) : Nat :=
  if localPort || !transit then 0
  else if half then 3
  else if rank = 0 then 9 else if rank = 1 then 6 else 3

/-- R60, R61: f flits of class sc taken in VC k under guard g; `none` when they are not admitted. A
port with a deficit (R257) has no free shared slot. -/
def takeSlots (c : Cnt) (l : Bool) (k f sc g : Nat) : Option Cnt :=
  let a := if vcHeld c k = 0 then 1 else 0
  let need := f - a
  let r := if sc = 5 then min need (resvMax c.half l - c.resv) else 0
  let n := need - r
  if n = 0 ∨ (c.shared + n + g ≤ sharedMax c.half l ∧ c.deficit = 0) then
    some { setVc c k (vcHeld c k + f) with resv := c.resv + r, shared := c.shared + n }
  else none

/-- R61: one pip of VC k. -/
def freeSlot (c : Cnt) (k : Nat) : Cnt :=
  let h := vcHeld c k
  let c1 := setVc c k (h - 1)
  if h ≤ 1 then c1
  else if 0 < c.resv then
    { c1 with resv := c.resv - 1, ready8 := c.ready8 || decide (c.resv = 1) }
  else { c1 with shared := c.shared - 1 }

/-- R61: SC5_RSV rises: up to 24 of the other slots held count as shared, the rest as reserve. -/
def reserveOn (c : Cnt) : Cnt :=
  let n := c.resv + c.shared
  { c with shared := min n 24, resv := n - 24, ready8 := decide (n ≤ 24) }
/-- R61: SC5_RSV falls: every reserve slot counts as shared again. -/
def reserveOff (c : Cnt) : Cnt := { c with shared := c.resv + c.shared, resv := 0 }

end Sys2Proof.Machine
end

