-- ==== Sys2Proof/Machine/GuardOps.lean ====
section
/-!
DEFINITION. The access guard (R165 to R177): which words an active guard passes, what a failure
records, the update hold and the overlap check.
-/

namespace Sys2Proof.Machine

/-- A guard by number: NI n has guard n, Opcon core c has guard 448 + c. -/
def guardReg (g o : Nat) : Nat :=
  if g < 448 then niReg g (0x100 + o) else opcReg (0x100 + 0x80 * (g - 448) + o)
def guardNum : GuardId → Nat
  | .ni n => n.idx
  | .core c => 448 + c.val
def guardNode (s : State) (g : Nat) : Nat := if g < 448 then nodeOf s g else coreNode s (g - 448)
def guardTile (g : Nat) : Nat := if g < 448 then g / 7 else if g = 448 then 0 else 63

def grdEn (s : State) (g : Nat) : Bool := regBit s (guardReg g Off.GRD_CTRL) 0
def grdUpd (s : State) (g : Nat) : Bool := regBit s (guardReg g Off.GRD_CTRL) 1
/-- R167. -/
def grdActive (s : State) (g : Nat) : Bool := grdEn s g && !grdUpd s g

def grdStart (s : State) (g k : Nat) : Nat := (s.reg (guardReg g (Off.GRD_START k))).toNat
def grdEnd (s : State) (g k : Nat) : Nat := (s.reg (guardReg g (Off.GRD_END k))).toNat
def grdPerm (s : State) (g k : Nat) : W := s.reg (guardReg g (Off.GRD_PERM k))
/-- R166: the region takes part in checks. -/
def regionOn (s : State) (g k : Nat) : Bool := (grdPerm s g k).bit 2 && grdStart s g k ≤ grdEnd s g k
/-- R166, R168: region k covers word a; with PONLY it covers nothing for user code. -/
def covers (s : State) (g k a : Nat) (priv : Bool) : Bool :=
  regionOn s g k && grdStart s g k ≤ a && a ≤ grdEnd s g k && (!(grdPerm s g k).bit 3 || priv)
def coverers (s : State) (g a : Nat) (priv : Bool) : List Nat :=
  (List.range 16).filter (fun k => covers s g k a priv)

/-! The causes of GRD_FAULT_INFO. -/

namespace Cause
def NOMATCH := 0
def NOR := 1
def NOW := 2
def OVERLAP := 3
end Cause

/-- R168, R169: one word; `none` passes, otherwise the cause and the region (31 for none). R178 does not say which region
GRD_FAULT_INFO names where two or more cover the word; the model names the lowest (DESIGN CHOICE, log entry 42). -/
def wordFails (s : State) (g a : Nat) (needR needW priv : Bool) : Option (Nat × Nat) :=
  match coverers s g a priv with
  | [] => if 448 ≤ g && priv then none else some (Cause.NOMATCH, 31)
  | [k] =>
    if needR && !(grdPerm s g k).bit 0 then some (Cause.NOR, k)
    else if needW && !(grdPerm s g k).bit 1 then some (Cause.NOW, k)
    else none
  | k :: _ :: _ => some (Cause.OVERLAP, k)

/-- R168: the lowest failing word of k words from a, with its cause and region. -/
def accessFails (s : State) (g a k : Nat) (needR needW priv : Bool) : Option (Nat × Nat × Nat) :=
  if grdActive s g then
    firstSome (fun i => match wordFails s g (a + i) needR needW priv with
      | none => none
      | some (c, r) => some (a + i, c, r)) (List.range k)
  else none

/-- R169: the permissions that an opcode needs. -/
def needsR (opc : Nat) : Bool := opc ≠ Opc.WR
def needsW (opc : Nat) : Bool := opc ≠ Opc.RD

/-- The Opcon core whose data-fabric accesses enter at NI n. -/
def coreAt (n : Nat) : Option Nat := if n = 6 then some 0 else if n = 447 then some 1 else none
/-- The NI at which an Opcon core's data-fabric accesses enter. -/
def coreNi (c : Nat) : Nat := if c = 0 then 6 else 447
/-- R168: the code that issues an access at NI n is privileged, as far as a guard tells; only an Opcon core has user
code. -/
def privAt (s : State) (n : Nat) : Bool :=
  match coreAt n with
  | none => true
  | some c => !(s.core c).user
/-- R165: the check of a request at NI n by guard g: the guard with the failing word, the cause and the region. -/
def failsAt (s : State) (g n : Nat) (p : Pkt) : Option (Nat × Nat × Nat × Nat) :=
  (accessFails s g p.addr p.touched (needsR p.opc) (needsW p.opc) (privAt s n)).map (fun x => (g, x))
/-- The NI's guard, as the access passes stage 1. -/
def guardFails (s : State) (n : Nat) (p : Pkt) : Option (Nat × Nat × Nat × Nat) := failsAt s n n p
/-- R171: the guard of the Opcon core behind NI n, as the core issues an access, or as a write leaves its write queue for
the NI. -/
def coreFails (s : State) (n : Nat) (p : Pkt) : Option (Nat × Nat × Nat × Nat) :=
  match coreAt n with
  | none => none
  | some c => failsAt s (448 + c) n p
def corePriv (s : State) (c : Nat) : Bool := !(s.core c).user
/-- R165: the check of a read, or a write, by firmware over the memory path. -/
def fwReadFails (s : State) (a : Nat) : Option (Nat × Nat × Nat) :=
  accessFails s (448 + activeCore s) a 1 true false (corePriv s (activeCore s))
def fwWriteFails (s : State) (a k : Nat) : Option (Nat × Nat × Nat) :=
  accessFails s (448 + activeCore s) a k false true (corePriv s (activeCore s))
/-- R173: the NI, or the core behind it, lets no access pass. -/
def grdHolds (s : State) (n : Nat) : Bool :=
  grdUpd s n || (match coreAt n with
    | none => false
    | some c => grdUpd s (448 + c))

/-- The NI at which a guard's agent issues its data-fabric accesses. -/
def guardNi (g : Nat) : Nat := if g < 448 then g else if g = 448 then 6 else 447
/-- R173: an address in the guard block of Opcon core c. -/
def ownGuardAddr (c a : Nat) : Bool := decide (guardReg (448 + c) 0 ≤ a ∧ a < guardReg (448 + c) 0x80)
/-- R173: a privileged write of k words by a core to its own guard registers, which its own hold lets pass. -/
def ownGuardWrite (s : State) (c a k : Nat) : Bool :=
  !(s.core c).user && ownGuardAddr c a && ownGuardAddr c (a + k - 1)
/-- R173: a write of the core behind NI n that passes although the core's guard holds: one of its own guard
registers. The NI's own hold has no exception. -/
def passesHold (s : State) (n opc a k : Nat) : Bool :=
  match coreAt n with
  | none => false
  | some c => !grdUpd s n && opc = Opc.WR && ownGuardWrite s c a k
/-- R173: something is held. -/
def grdHolding (s : State) (g : Nat) : Bool :=
  let x := s.ni (guardNi g)
  grdUpd s g && (!x.held.isEmpty || x.oq.any (fun e => !e.left && isAccess e.pkt.opc) ||
    (decide (448 ≤ g) && !(s.core (g - 448)).wq.isEmpty))

namespace GrdB
def FAULT := 0
def NOTICE := 1
def OVERLAP := 2
def LIVEWR := 3
def UPD_TO := 4
end GrdB

def raiseGrd (s : State) (g bit : Nat) (named : Bool) : State :=
  raiseBit s (guardNi g) .grd (guardReg g Off.GRD_ERR)
    (s.reg (guardReg g Off.GRD_ERR_MASK)) bit named

/-- R152, R170: a failure clears the agent's reservation. A core's record is that of its NI. -/
def guardLosesRes (s : State) (g : Nat) : State :=
  loseRecord s (guardNi g)

/-- R171: the precise trap at an Opcon core. -/
def guardTrap (s : State) (g : Nat) : State :=
  if g < 448 then s else modCore s (g - 448) (fun x => { x with gtraps := x.gtraps + 1 })
/-- R171, R178: the interrupt at an Opcon core, which the mask keeps from it. -/
def guardNotice (s : State) (g : Nat) : State :=
  if g < 448 || (s.reg (guardReg g Off.GRD_ERR_MASK)).bit GrdB.NOTICE then s else modCore s (g - 448) (fun x => { x with gnotices := x.gnotices + 1 })

/-- R172: a precise failure. -/
def recordFault (s : State) (g opc tag addr cause region : Nat) : State :=
  let s1 := if regBit s (guardReg g Off.GRD_ERR) GrdB.FAULT then s
    else (s.setReg (guardReg g Off.GRD_FAULT_ADDR) (natW addr)).setReg (guardReg g Off.GRD_FAULT_INFO)
      (W.at 0 2 cause ||| W.at 2 5 region ||| W.at 8 8 (if g < 448 then tag else 0) ||| W.at 30 6 opc)
  guardTrap (guardLosesRes (incSat (raiseGrd s1 g GrdB.FAULT false) (guardReg g Off.GRD_FAULT_CNT)) g) g

/-- fc counts of 10 µs, 1 ms and 1 s. -/
def fcOf10us : Nat := 24000
def fcOf1ms : Nat := 2400000
def fcOf1s : Nat := 2400000000
/-- A rate limit: nothing logged within the last `d` fc. -/
def rateOk (s : State) (last : Option Nat) (d : Nat) : Bool :=
  match last with
  | none => true
  | some x => decide (x + d ≤ s.fc)

/-- R170, R171: fc of the last GUARD_NOTICE record of a guard's agent. -/
def noticeLast (s : State) (g : Nat) : Option Nat :=
  if g < 448 then (s.ni g).noticeFc else (s.core (g - 448)).noticeFc
def noticeNow (s : State) (g : Nat) : State :=
  if g < 448 then modNi s g (fun x => { x with noticeFc := some s.fc })
  else modCore s (g - 448) (fun x => { x with noticeFc := some s.fc })

/-- R170: an imprecise failure of a write to line `addr`. -/
def recordNotice (s : State) (g addr cause : Nat) : State :=
  let line := addr / 16 * 16
  let s1 := if regBit s (guardReg g Off.GRD_ERR) GrdB.NOTICE then s
    else s.setReg (guardReg g Off.GRD_NOTICE_LINE) (natW line)
  let s2 := guardNotice (guardLosesRes (incSat (raiseGrd s1 g GrdB.NOTICE true) (guardReg g Off.GRD_NOTICE_CNT)) g) g
  if rateOk s (noticeLast s g) fcOf10us && !(s.reg (guardReg g Off.GRD_ERR_MASK)).bit GrdB.NOTICE then
    noticeNow (logNi s2 (guardNi g) EvC.GUARD_NOTICE
      [natW line ||| W.at 0 2 cause]) g
  else s2

/-! ### The overlap check (R175) -/

def regionsMeet (s : State) (g i j : Nat) : Bool :=
  regionOn s g i && regionOn s g j && grdStart s g i ≤ grdEnd s g j && grdStart s g j ≤ grdEnd s g i
/-- The lowest-numbered pair of enabled regions that share a word. -/
def overlapPair (s : State) (g : Nat) : Option (Nat × Nat) :=
  firstSome (fun i => firstSome (fun j => if i < j && regionsMeet s g i j then some (i, j) else none)
    (List.range 16)) (List.range 16)

/-- R175: the check at the write that makes the guard active. GRD_STAT keeps OVL, OVL_A and OVL_B. -/
def overlapCheck (s : State) (g : Nat) : State :=
  let a := guardReg g Off.GRD_STAT
  match overlapPair s g with
  | none => s.setReg a 0
  | some (i, j) =>
    let s1 := s.setReg a (W.at 2 1 1 ||| W.at 4 4 i ||| W.at 8 4 j)
    let s2 := raiseGrd s1 g GrdB.OVERLAP true
    if (s.reg (guardReg g Off.GRD_ERR_MASK)).bit GrdB.OVERLAP then s2
    else logNi s2 (guardNi g) EvC.GUARD_OVERLAP
      [W.at 2 1 1 ||| W.at 4 4 i ||| W.at 8 4 j]

end Sys2Proof.Machine
end

