-- ==== Sys2Proof/Machine/Admit.lean ====
section
/-!
DEFINITION. Admission at both ends (R97 to R101, R112 to R118): the free list and parked records of a
destination NI, the handles and credits of a source NI, and what a waiting cell needs next.
-/

namespace Sys2Proof.Machine

/-! ### Packets that an NI makes (R36) -/

/-- A packet of NI n to node `dst`, put behind what the NI already has to send of its own. -/
def ownSend (s : State) (n dst opc sc cnt tag flg : Nat) (arg : W) (words : List W) : State :=
  modNi s n (fun x => { x with stage := x.stage ++ [{ ch := .own, pkt :=
    { opc := opc, dst := dst, src := nodeOf s n, sc := sc, len := flitsForWords words.length - 1,
      cnt := cnt, tag := tag, flg := flg, arg := arg, words := words } }] })

/-- A beat sequence for the unit. -/
def present (s : State) (n : Nat) (ch : OutChan) (p : Pkt) : State :=
  modNi s n (fun x => { x with out := x.out ++ [{ ch := ch, pkt := p }] })

/-- R51, R52: what arrives for the unit of NI n is treated as under its reset. -/
def unitAway (x : Ni) : Bool := x.urst || x.expired

/-- CELLREF with a status and the cell's TAG (R43). -/
def cellRef (s : State) (n st : Nat) (p : Pkt) : State :=
  present s n .orsp { id := p.id, opc := Opc.CELLREF, dst := p.src, src := nodeOf s n, sc := p.sc,
                      tag := p.tag, arg := natW st }

/-! ### Weighted order (R87, R99) -/

def weights (s : State) (t : Nat) : List Nat :=
  let w := s.reg (rtrReg t Off.RTR_WRR_W0)
  [w.fld 0 8, w.fld 8 8, w.fld 16 8, w.fld 24 8, (s.reg (rtrReg t Off.RTR_WRR_W1)).fld 0 8]

def vtOf (vt : List Rat) (c : Nat) : Rat := vt.getD c 0
/-- The class with a ready head and the least virtual time; ties go to the higher class. -/
def pickClass (vt : List Rat) (ready : List Nat) : Option Nat :=
  [4, 3, 2, 1, 0].foldl (fun best c =>
    if c ∈ ready then
      match best with
      | none => some c
      | some b => if vtOf vt c < vtOf vt b then some c else some b
    else best) none
/-- R87: the served class advances by amount · 1020 / w; classes with no ready head catch up. -/
def vtStep (vt : List Rat) (w : List Nat) (c amount : Nat) (ready : List Nat) : List Rat :=
  let vnow := vtOf vt c
  (List.range 5).map (fun k =>
    if k = c then vnow + (amount * 1020 : Nat) / ((w.getD c 1 : Nat) : Rat)
    else if k ∈ ready then vtOf vt k
    else if vtOf vt k < vnow then vnow else vtOf vt k)

/-! ### The destination's free list (R97) -/

def runHandles (r : Run) : List Nat := (List.range r.len).map (fun i => (r.first + i) % 65536)
def freeCount (x : Ni) : Nat := x.free.foldl (fun a r => a + r.len) 0
def standingCount (x : Ni) : Nat := x.standing.foldl (fun a p => a + p.2.length) 0
/-- R97: handles that count against the 2,048: free, granted and not delivered, and in standing sets. -/
def handleCount (x : Ni) : Nat := freeCount x + x.grants.length + standingCount x

/-- A handle leaves its pushed run, because it is delivered or taken back. -/
def dropFromRuns (h : Nat) (runs : List (List Nat)) : List (List Nat) :=
  (runs.map (fun r => r.filter (fun k => decide (k ≠ h)))).filter (fun r => !r.isEmpty)

/-- R74, R73: the reorder slots in use. -/
def slotsUsed (x : Ni) : List Nat := x.grants.filterMap (fun g => g.slot)
/-- R73: how many consecutive slots from `a` on are free, at most `k`. -/
def freeSlotsFrom (used : List Nat) (a : Nat) : Nat → Nat
  | 0 => 0
  | k + 1 => if a % 256 ∈ used then 0 else 1 + freeSlotsFrom used (a + 1) k
/-- R73: the slots of a grant run consecutively: how many of `cap` there are free in one run, and where it begins; of
runs of one length the first from `a` on. -/
def slotRun (used : List Nat) (cap : Nat) : Nat → Nat → Nat × Nat → Nat × Nat
  | 0, _, best => best
  | f + 1, a, best =>
    let k := freeSlotsFrom used a cap
    if k = cap then (k, a % 256) else slotRun used cap f (a + 1) (if best.1 < k then (k, a % 256) else best)

def spraying (s : State) (t : Nat) : Bool := regBit s (rtrReg t Off.RTR_CTRL) 0
/-- R73: the destination gives reorder slots. -/
def givesSlots (s : State) (n : Nat) : Bool := n % 7 ≤ 3 && spraying s (n / 7)

/-- R99: an NI that grants: populated, enabled, its unit not in reset. -/
def mayGrant (s : State) (n : Nat) : Bool := populated s n && niEn s n && !(s.ni n).urst

def standingSet (x : Ni) (src : Nat) : List Nat :=
  match takeFirst (fun p => p.1 = src) x.standing with
  | none => []
  | some (p, _) => p.2
def setStanding (x : Ni) (src : Nat) (hs : List Nat) : Ni :=
  let rest := x.standing.filter (fun p => decide (p.1 ≠ src))
  { x with standing := if hs.isEmpty then rest else rest ++ [(src, hs)] }

/-- R116: the copies of a source in the eject FIFO; each has taken a standing handle at stage 3 of R48. -/
def copiesAt (x : Ni) (src : Nat) : Nat :=
  (x.eject.filter (fun p => decide (p.opc = Opc.CELLMC ∧ p.src = src))).length
/-- The standing set of a source, without the handles that copies in the eject FIFO have taken. -/
def standingLeft (x : Ni) (src : Nat) : List Nat := (standingSet x src).drop (copiesAt x src)

/-- R99: what CNT, MAXGNT and the run at the head of the free list allow. -/
def grantCap (s : State) (n : Nat) (q : Parked) : Nat :=
  match (s.ni n).free with
  | [] => 0
  | r :: _ => min (min q.cnt (getFld s (niReg n Off.NI_RSV_CFG) 4 5)) r.len
/-- The free slots that a grant of at most `cap` takes: the first run that is long enough from a pointer that runs on, or
the longest; R73 does not say which (DESIGN CHOICE, log entry 39). -/
def slotsFor (x : Ni) (cap : Nat) : Nat × Nat := slotRun (slotsUsed x) cap 256 x.nextSlot (0, x.nextSlot)
/-- R99, R114: how many handles a request is granted now. -/
def grantSize (s : State) (n : Nat) (q : Parked) : Nat :=
  let cap := grantCap s n q
  if q.standing then min cap (8 - (standingLeft (s.ni n) q.src).length)
  else if givesSlots s n then (slotsFor (s.ni n) cap).1
  else cap

/-- R99: k handles of the run at the head of the free list go to the request. -/
def grantNow (s : State) (n : Nat) (q : Parked) (k : Nat) : State :=
  let x := s.ni n
  match x.free with
  | [] => s
  | r :: rest =>
    let hs := runHandles { r with len := k }
    let free := if k < r.len then { r with first := (r.first + k) % 65536, len := r.len - k } :: rest else rest
    let x1 : Ni := { x with free := free }
    let sl := !q.standing && givesSlots s n
    let a := (slotsFor x (grantCap s n q)).2
    let x2 : Ni :=
      if q.standing then setStanding x1 q.src (standingSet x q.src ++ hs)
      else { x1 with
        grants := x1.grants ++ (List.range k).map (fun i =>
          { handle := (r.first + i) % 65536, src := q.src, sc := q.sc,
            slot := if sl then some ((a + i) % 256) else none }),
        nextSlot := if sl then (a + k) % 256 else x.nextSlot }
    ownSend (s.setNi n x2) n q.src Opc.RSVGNT q.sc k (b2n q.standing) 0
      (W.at 0 16 r.first ||| W.at 16 8 (if sl then a else 0)) []

/-- RSVREF to the source of a request. That of a standing request carries TAG [0] = 1 as the request does; R114 does not
say so (DESIGN CHOICE, log entry 39). -/
def sendRef (s : State) (n : Nat) (q : Parked) : State :=
  ownSend s n q.src Opc.RSVREF q.sc 0 (b2n q.standing) 0 0 []

/-- R99: the parked record that is served next. -/
def nextParked (x : Ni) : Option Parked :=
  let cls (c : Nat) := x.parked.filter (fun q => decide (q.sc = c))
  match cls 7 ++ cls 6 ++ cls 5 with
  | q :: _ => some q
  | [] =>
    let ready := [0, 1, 2, 3, 4].filter (fun c => !(cls c).isEmpty)
    match pickClass x.pvt ready with
    | none => none
    | some c => (cls c).head?

/-- R203, R376: the bridge at NI(56, 6) grants handles to the cluster EXT_PC alone; a request of another source stays
parked. -/
def servable (s : State) (n : Nat) (q : Parked) : Bool :=
  decide (n ≠ 7 * 56 + 6) || decide (q.src = getFld s (extReg Off.EXT_PC) 0 23)
/-- The parked records that NI n serves. -/
def servedNi (s : State) (n : Nat) : Ni := { s.ni n with parked := (s.ni n).parked.filter (servable s n) }

/-- R99: one parked record answered; `none` when nothing can be granted. A standing request whose set is full while
handles are free is answered RSVREF; R114 gives no answer for it (DESIGN CHOICE, log entry 39). -/
def serveOne (s : State) (n : Nat) : Option State :=
  let x := s.ni n
  match nextParked (servedNi s n) with
  | none => none
  | some q =>
    let k := grantSize s n q
    if k = 0 then
      (if q.standing && !x.free.isEmpty then
        some (sendRef (s.setNi n { x with parked := x.parked.filter (fun p => !(decide (p.src = q.src))) }) n q)
      else none)
    else
      let ready := [0, 1, 2, 3, 4].filter (fun c => x.parked.any (fun p => decide (p.sc = c)))
      let x1 : Ni := { x with
        parked := x.parked.filter (fun p => !(decide (p.src = q.src))),
        pvt := if q.sc ≤ 4 then vtStep x.pvt (weights s (n / 7)) q.sc k ready else x.pvt }
      some (grantNow (s.setNi n x1) n q k)

/-- R99: parked records are served while handles last. -/
def serveParked (s : State) (n : Nat) : Nat → State
  | 0 => s
  | f + 1 =>
    if mayGrant s n then
      match serveOne s n with
      | none => s
      | some s' => serveParked s' n f
    else s

def serveAll (s : State) (n : Nat) : State := serveParked s n 448

/-- R97: the NI takes a handle back onto its free list, as a run of one. R97 does not say where on the list a pushed run
or one taken back is put; the model puts each at the end (DESIGN CHOICE, log entry 39). -/
def takeBack (s : State) (n h : Nat) : State :=
  let x := s.ni n
  serveAll (s.setNi n { x with free := x.free ++ [⟨h, 1⟩], runs := dropFromRuns h x.runs }) n

/-- Handle h is free, granted or in a standing set. -/
def handleListed (x : Ni) (h : Nat) : Bool :=
  x.free.any (fun q => decide (h ∈ runHandles q)) || x.grants.any (fun g => decide (g.handle = h)) ||
    x.standing.any (fun q => decide (h ∈ q.2))
/-- R51, R97: a copy of the eject FIFO that is not presented: the standing handle that it took at stage 3 goes back. A
copy that found none is discarded as R116 gives. -/
def dropCopy (s : State) (n src : Nat) : State :=
  match standingSet (s.ni n) src with
  | [] => raiseMcErr (incSat s (niReg n Off.NI_MC_NOCRED_CNT)) n 1
  | h :: hs => takeBack (modNi s n (fun x => setStanding x src hs)) n h

/-- R97: a push of a run. -/
def rsvPush (s : State) (n : Nat) (v : W) : State :=
  let x := s.ni n
  let k := v.fld 16 4 + 1
  let r : Run := ⟨v.fld 0 16, k⟩
  if handleCount x + k ≤ 2048 ∧ x.runs.length + 1 ≤ 512 then
    serveAll (s.setNi n { x with free := x.free ++ [r], runs := x.runs ++ [runHandles r] }) n
  else raiseRsvErr s n 0

/-- The runs of consecutive numbers of a rising list: first and count. -/
def runsIn : List Nat → List (Nat × Nat)
  | [] => []
  | h :: t => match runsIn t with
    | [] => [(h, 1)]
    | r :: rs => if r.1 = h + 1 then (h, r.2 + 1) :: rs else (h, 1) :: r :: rs
/-- R376: the bridge keeps 16 handles published while EN = 1; those of cells that it has taken it pushes again, in runs as
long as they allow. -/
def bridgePublish (s : State) : State :=
  let n := 7 * 56 + 6
  if regBit s (extReg Off.EXT_CTRL) 0 then
    forEach (fun r st => rsvPush st n (W.at 0 16 r.1 ||| W.at 16 4 (r.2 - 1)))
      (runsIn ((List.range 16).filter (fun h => !handleListed (s.ni n) h))) s
  else s
/-- The bridge publishes again at its own NI. -/
def republish (s : State) (n : Nat) : State := if n = 7 * 56 + 6 then bridgePublish s else s

/-- R99: a request reaches the destination. One that replaces its source's parked request takes its place behind the
others; R99 does not say whether it keeps the age (DESIGN CHOICE, log entry 39). -/
def reqArrives (s : State) (n : Nat) (q : Parked) : State :=
  let x := s.ni n
  let others := x.parked.filter (fun p => decide (p.src ≠ q.src))
  let first := mayGrant s n && servable s n q && (servedNi s n).parked.isEmpty
  if first && decide (0 < grantSize s n q) then grantNow s n q (grantSize s n q)
  else if q.standing && first && !x.free.isEmpty then sendRef s n q
  else s.setNi n { x with parked := others ++ [q] }

/-- R74: every reservation of the pair granted earlier with a slot is resolved. -/
def earlierDone (x : Ni) (src sc handle : Nat) : Bool :=
  let rec go : List Grant → Bool
    | [] => true
    | g :: gs =>
      if g.src = src ∧ g.sc = sc then
        if g.handle = handle then true
        else if g.slot.isSome then false else go gs
      else go gs
  go x.grants

/-- A grant leaves the list: its cell is presented, killed, skipped or released. -/
def resolveGrant (x : Ni) (src sc handle : Nat) : Ni :=
  { x with grants := x.grants.filter (fun g => !(decide (g.src = src ∧ g.sc = sc ∧ g.handle = handle))) }
def findGrant (x : Ni) (src sc handle : Nat) : Option Grant :=
  x.grants.find? (fun g => decide (g.src = src ∧ g.sc = sc ∧ g.handle = handle))

/-! ### The source (R98, R100, R101) -/

/-- The oldest handle held for a pair of DST and class. -/
def firstHeld (x : Ni) (dst sc : Nat) : Option (HeldH × List HeldH) :=
  takeFirst (fun h => decide (h.dst = dst ∧ h.sc = sc)) x.handles
def heldCount (x : Ni) (dst sc : Nat) : Nat :=
  (x.handles.filter (fun h => decide (h.dst = dst ∧ h.sc = sc))).length

/-- R98: CNT of the request for a cell. -/
def reqCnt (s : State) (n : Nat) (p : Pkt) : Nat :=
  let want := if p.flag 1 then 1 else 1 + getFld s (niReg n Off.NI_RSV_CFG) 0 4
  max 1 (want - heldCount (s.ni n) p.dst p.sc)

/-- R98, R114: an RSVREQ is sent and becomes the one outstanding. -/
def sendReq (s : State) (n dst sc cnt : Nat) (standing : Bool) : State :=
  let s1 := ownSend s n dst Opc.RSVREQ sc cnt (b2n standing) 0 0 []
  modNi s1 n (fun x => { x with rsv := some { dst := dst, sc := sc, cnt := cnt, standing := standing, since := s.fc } })

/-- R100: RSVREL for a run of handles. -/
def sendRel (s : State) (n dst sc first k : Nat) : State :=
  ownSend s n dst Opc.RSVREL sc k 0 0 (W.at 0 16 first) []
/-- R101: a withdrawal. R114 marks standing grants and does not speak of the withdrawal of a standing request; it carries
TAG [0] = 0 like any other (DESIGN CHOICE, log entry 39). -/
def sendWithdraw (s : State) (n dst sc : Nat) : State :=
  ownSend s n dst Opc.RSVREL sc 0 0 0 0 []
/-- R117: a standing return. R117 names no class for the return of a whole set; the model sends it at SC0 (DESIGN CHOICE,
log entry 39). -/
def sendStandRel (s : State) (n dst sc k : Nat) : State :=
  ownSend s n dst Opc.RSVREL sc k 1 0 0 []

/-- R100: runs of consecutive handles from one grant: the grant, and (first, length). -/
def runsOf : List HeldH → List ((Nat × Nat) × Nat × Nat)
  | [] => []
  | h :: hs =>
    match runsOf hs with
    | [] => [(h.grant, h.handle, 1)]
    | (g, f, k) :: rest => if g = h.grant ∧ (h.handle + 1) % 65536 = f then (g, h.handle, k + 1) :: rest
        else (h.grant, h.handle, 1) :: (g, f, k) :: rest

/-- R100: all handles held for a pair are returned, one RSVREL for each run. -/
def returnPair (s : State) (n dst sc : Nat) : State :=
  let x := s.ni n
  let mine := x.handles.filter (fun h => decide (h.dst = dst ∧ h.sc = sc))
  let s1 := s.setNi n { x with handles := x.handles.filter (fun h => !(decide (h.dst = dst ∧ h.sc = sc))) }
  forEach (fun r st => sendRel st n dst sc r.2.1 r.2.2) (runsOf mine) s1

/-- The distinct pairs of DST and class for which handles are held. -/
def heldPairs (x : Ni) : List (Nat × Nat) := (x.handles.map (fun h => (h.dst, h.sc))).eraseDups

/-! ### Credits and groups (R112 to R117) -/

def credit (x : Ni) (d : Nat) : Nat := Sparse.get (fun _ => 0) x.credits d
def setCredit (x : Ni) (d v : Nat) : Ni := { x with credits := Sparse.set (fun _ => 0) x.credits d v }
def standOf (s : State) (n : Nat) : Nat := getFld s (niReg n Off.NI_MC_CFG) 1 4
def cacheGet (x : Ni) (g : Nat) : Option GroupEnt :=
  match Sparse.get (fun _ => none) x.cache (g % 256) with
  | some e => if e.group = g then some e else none
  | none => none
def laneKey (t g : Nat) : Nat := t * 4096 + g / 4
def laneGet (x : Ni) (t g : Nat) : Option W := Sparse.get (fun _ => none) x.lanes (laneKey t g)

/-- R33: the mask of a CELLMC head gathered from W0, W3 and FLG, and the group. -/
def mcGroup (p : Pkt) : Nat := p.arg.fld 0 14

/-- R264: the diagonal tile that a source reads masks from: its own column's, or the next in service. -/
def diagonalOf (s : State) (t : Nat) : Nat :=
  match ((List.range 8).map (fun i => 9 * ((col t + i) % 8))).find? (fun d => !mapOut s t d) with
  | some d => d
  | none => 9 * col t

/-- Tags by which the NI knows the answers of its own group reads: they lie beyond the eight bits of a
unit's tags. -/
def tagMask (g : Nat) : Nat := 256 + 65 * g
def tagLane (g t : Nat) : Nat := 257 + 65 * g + t
/-- The group that such a tag names, and what was read for it: 0 the mask, 1 + t the lane of tile t. -/
def tagGroup (tag : Nat) : Nat := (tag - 256) / 65
def tagItem (tag : Nat) : Nat := (tag - 256) % 65

/-- R112: the NI's own read of k words. -/
def ownRead (s : State) (n dst addr k sc tag : Nat) : State :=
  ownSend s n dst Opc.RD sc k tag 0 (natW addr) []

/-- The cell at CPO_ is given up: CELLREF with a status (R43). -/
def dropCell (s : State) (n st : Nat) (w : CellWait) : State :=
  cellRef (modNi s n (fun x => { x with cell := none })) n st w.pkt

/-- R101: the longest admission wait seen. -/
def noteWait (s : State) (n since : Nat) : State :=
  maxReg s (niReg n Off.NI_ADM_WAIT_MAX) (min (s.fc - since) 0xFFFFFF)

/-- A head leaves for stage 2 on CPO_. -/
def stageCell (s : State) (n : Nat) (e : Staged) (since : Nat) : State :=
  modNi (noteWait s n since) n (fun x => { x with cell := none, stage := x.stage ++ [e] })

/-- R51, R98: a CELL that has not been injected and never will be leaves its handle with the NI. -/
def giveBack (x : Ni) (e : Staged) : Ni :=
  if e.ch = .cpo ∧ e.pkt.opc = Opc.CELL then
    { x with handles := { dst := e.pkt.dst, sc := e.pkt.sc, handle := e.pkt.handle, slot := some e.pkt.seq, grant := e.grant } :: x.handles }
  else x
/-- R115: the credits that CELLMCs on their way to injection will take of an attach point. -/
def claims (x : Ni) (d : Nat) : Nat := (x.stage.filter (fun e => decide (d ∈ e.debts))).length

/-- R115: the attach points of a CELLMC: each lane of each tile of the mask, ascending. -/
def mcDests (x : Ni) (mask g : Nat) : List Nat :=
  (tilesOf mask).flatMap (fun t => match laneGet x t g with
    | none => []
    | some w => (lanePorts (laneOf w g)).map (fun p => niOf t p))

/-- The tiles of a mask that R67 does not find unreachable from tile t. -/
def liveMask (s : State) (t m : Nat) : Nat := ((tilesOf m).filter (reachable s t)).foldl (fun a d => a + 2 ^ d) 0

/-- R112, R115: what the CELLMC that waits at CPO_ of NI n needs next. -/
def advanceMc (s : State) (n : Nat) (w : CellWait) : State :=
  let x := s.ni n
  let g := mcGroup w.pkt
  let t := n / 7
  if w.fill then s
  else match cacheGet x g with
    | none =>
      let d := diagonalOf s t
      let s1 := modNi s n (fun y => { y with cell := some { w with fill := true } })
      ownRead (incWrap s1 (niReg n Off.NI_MC_MISS_CNT)) n (nodeTP s d 5) (tmemAddr d (0x10000 + 2 * g)) 2
        w.pkt.sc (tagMask g)
    | some e =>
      if !e.valid || decide (e.mask = 0) then dropCell (raiseMcErr s n 0) n St.BADPKT w
      else
        let mask := liveMask s t e.mask
        let s1 := if decide (mask ≠ e.mask) && !w.cut then incSat s (niReg n Off.NI_UNREACH_CNT) else s
        let w1 : CellWait := { w with cut := w.cut || decide (mask ≠ e.mask) }
        if mask = 0 then dropCell s1 n St.ABORTED w1
        else match (tilesOf mask).find? (fun d => (laneGet x d g).isNone) with
          | some d =>
            let s2 := modNi s1 n (fun y => { y with cell := some { w1 with fill := true } })
            ownRead s2 n (nodeTP s d 5) (laneAddr d g) 1 w.pkt.sc (tagLane g d)
          | none =>
            let dests := mcDests x mask g
            let lacking := dests.filter (fun d => decide (credit x d ≤ claims x d))
            match lacking with
            | [] =>
              stageCell s1 n { ch := .cpo, pkt := { w.pkt with mask := mask }, debts := dests, cut := w1.cut } w.since
            | _ :: _ =>
              match lacking.find? (fun d => decide (credit x d = 0) && !(d ∈ w.asked)), x.rsv with
              | some d, none =>
                let s2 := modNi s1 n (fun y => { y with cell := some { w1 with asked := w1.asked ++ [d] } })
                sendReq s2 n (nodeOf s d) w.pkt.sc (standOf s n) true
              | _, _ => modNi s1 n (fun y => { y with cell := some w1 })

/-- R98, R43: what the CELL that waits at CPO_ of NI n needs next. -/
def advanceCell (s : State) (n : Nat) (w : CellWait) : State :=
  let x := s.ni n
  match firstHeld x w.pkt.dst w.pkt.sc with
  | some (h, rest) =>
    let p := { w.pkt with arg := cellArg h.handle (h.slot.getD 0) 0 false }
    stageCell (s.setNi n { x with handles := rest }) n { ch := .cpo, pkt := p, grant := h.grant } w.since
  | none =>
    match x.rsv with
    | some _ => s
    | none =>
      if w.asked.isEmpty then
        sendReq (s.setNi n { x with cell := some { w with asked := [n] } }) n w.pkt.dst w.pkt.sc
          (reqCnt s n w.pkt) false
      else s

/-- The waiting cell of NI n, if any, is moved on. -/
def advance (s : State) (n : Nat) : State :=
  match (s.ni n).cell with
  | none => s
  | some w => if w.pkt.opc = Opc.CELLMC then advanceMc s n w else advanceCell s n w

end Sys2Proof.Machine
end

