-- ==== Sys2Proof/Machine/NiFlow.lean ====
section
/-!
DEFINITION. What an NI does with its unit's packets (R36 to R53): acceptance, the store buffer, held
reads, the guard at stage 1, misses at stage 2, the responses, KILL, and what a reset of the unit ends.
-/

namespace Sys2Proof.Machine

/-! ### What stands in the store buffer (R45) and what is outstanding (R39) -/

def isWrite (p : Pkt) : Bool := p.opc = Opc.WR
/-- Writes in the store buffer: from acceptance until their WRACK. -/
def bufferedWrites (x : Ni) : List OEntry := x.oq.filter (fun e => isWrite e.pkt)
def sbufLevel (x : Ni) : Nat := (bufferedWrites x).length
def overlaps (a k b j : Nat) : Bool := 0 < k && 0 < j && a < b + j && b < a + k
def coversAll (a k b j : Nat) : Bool := a ≤ b && b + j ≤ a + k
/-- R46, R145: the writes buffered before read `r` that overlap it, and the far and lock operations before it that
have not left, oldest first. -/
def blockers (x : Ni) (r : Pkt) : List OEntry :=
  x.oq.filter (fun e => e.pkt.id < r.id && overlaps e.pkt.addr e.pkt.touched r.addr r.touched)

def findReq (x : Ni) (tag : Nat) : Option Req := x.outst.find? (fun q => decide (q.tag = tag))
def dropReq (x : Ni) (id : Nat) : Ni := { x with outst := x.outst.filter (fun q => decide (q.id ≠ id)) }
/-- A write's entry is freed (R45). -/
def freeEntry (x : Ni) (id : Nat) : Ni := { x with oq := x.oq.filter (fun e => decide (e.pkt.id ≠ id)) }
/-- The request with a tag gets no other answer: its tag and its entry are freed. -/
def endReq (x : Ni) (tag : Nat) : Ni :=
  match findReq x tag with
  | none => x
  | some q => freeEntry (dropReq x q.id) q.id

/-- The answer of a request of the unit is presented; its tag and its entry are freed. -/
def answer (s : State) (n : Nat) (p : Pkt) : State :=
  present (modNi s n (fun x => freeEntry (dropReq x p.id) p.id)) n .orsp p

/-! ### Where a request goes (R129 to R132) -/

/-- R129: the port that a source uses for the Opcon memory and for the bridge: tile 0 from rows 0 to 3,
tile 63 from rows 4 to 7, the other one when the map marks it out of service. -/
def nearOrFar (s : State) (t : Nat) : Nat :=
  let a := if row t < 4 then 0 else 63
  if mapOut s t a then 63 - a else a

/-- R130: the target node of an address. -/
def targetOf (s : State) (n : Nat) (r : Region) : Nat :=
  match r with
  | .rom _ => nodeTP s (nearOrFar s (n / 7)) 6
  | .sram _ => nodeTP s (nearOrFar s (n / 7)) 6
  | .matrix _ => nodeTP s (nearOrFar s (n / 7)) 5
  | .tmem t _ => nodeTP s t 5
  | .unit m _ => nodeOf s m
  | .none => 0

/-- R132, R203: a miss that the requesting NI decides itself. -/
def sourceMiss (r : Region) (p : Pkt) : Bool :=
  regionAns r p.opc = .miss || romWriteMiss r p.opc (p.flag 0) ||
  (match r with
   | .unit m _ => windowAbsent m
   | .sram off => decide (sramWords < off + p.touched)
   | _ => false)

/-! ### Stages 1 and 2 (R47, R67, R132, R151, R170) -/

/-- R151: the record of an LDRES: VALID and the granule. It is set where a reservation exists. -/
def setRecord (s : State) (n : Nat) (p : Pkt) : State :=
  match regionOf s p.addr with
  | .tmem _ _ => s.setReg (niReg n Off.NI_RES_STAT) (natW (p.addr / 16 * 16) ||| 1)
  | .unit _ _ => s.setReg (niReg n Off.NI_RES_STAT) (natW (p.addr / 16 * 16) ||| 1)
  | _ => s
/-- R131: R129 gives the address no target, so its access is a decode miss there, whatever its operation. -/
def lacksWord (s : State) (a : Nat) : Bool :=
  match regionOf s a with
  | .none => true
  | .matrix listed => !listed
  | _ => false
/-- R151: the record names the granule of a STCOND. -/
def recordNames (s : State) (n : Nat) (p : Pkt) : Bool :=
  s.reg (niReg n Off.NI_RES_STAT) = (natW (p.addr / 16 * 16) ||| 1)

/-- R151: an answer that the NI gives itself clears its record, and the entry where the target holds one. -/
def loseReservation (s : State) (n : Nat) : State :=
  let w := s.reg (niReg n Off.NI_RES_STAT)
  let line := w.fld 4 32 * 16
  loseRecord (if !w.bit 0 then s else match regionOf s line with
    | .tmem t _ => modTmc s t (fun m => { m with resv := m.resv.filter (fun x => decide (x.1 ≠ nodeOf s n)) })
    | _ => s) n

def stageOreq (s : State) (n : Nat) (p : Pkt) : State :=
  modNi s n (fun x => { x with stage := x.stage ++ [{ ch := .oreq, pkt := p }] })

def stageOwn (s : State) (n : Nat) (p : Pkt) : State :=
  modNi s n (fun x => { x with stage := x.stage ++ [{ ch := .own, pkt := p }] })
/-- R136: a response of the tile memory controller waits at NI(t, 5) and keeps its entry of the request queue. -/
def stageTmem (s : State) (n : Nat) (p : Pkt) : State :=
  modNi s n (fun x => { x with stage := x.stage ++ [{ ch := .own, pkt := p, tmem := true }] })
/-- R136: the entries of tile t's request queue in use: requests not yet served, and those whose response has not
been read for injection. -/
def tmemHeld (s : State) (t : Nat) : Nat :=
  ((s.tmc t).q.filter (fun r => decide (r.via ≠ .entry))).length + ((s.ni (niOf t 5)).stage.filter (fun e => e.tmem)).length

/-- R172: a read, far operation or lock operation that a guard fails is answered. -/
def failAccess (s : State) (n : Nat) (p : Pkt) (x : Nat × Nat × Nat × Nat) : State :=
  answer (recordFault s x.1 p.opc p.tag x.2.1 x.2.2.1 x.2.2.2) n
    (mkResp p (nodeOf s n) St.GUARD (if isLock p.opc then [0, 0] else []) 0)
/-- A read, far operation or lock operation passes stage 1: the guard, then a miss, then the network. -/
def launchReq (s : State) (n : Nat) (p : Pkt) : State :=
  match guardFails s n p with
  | some x => failAccess s n p x
  | none =>
    let reg := launchRegion s p.addr
    if sourceMiss reg p then
      answer (decodeMiss s (nodeOf s n) (decide (p.opc ≠ Opc.RD)) .source p.addr) n
        (missResp p n (nodeOf s n))
    else
      let s1 := if p.isLdres then setRecord s n p else s
      stageOreq s1 n { p with dst := targetOf s n reg }

/-- R46, R145: a read is forwarded, launched, or held behind what it overlaps. R46 gives a forwarded read status OK and
does not speak of a buffered write that came with poison; its words are given without the mark (DESIGN CHOICE, log
entry 37). -/
def tryRead (s : State) (n : Nat) (p : Pkt) : State :=
  let x := s.ni n
  let hold := modNi s n (fun y => { y with held := y.held ++ [p] })
  match (blockers x p).getLast? with
  | none => launchReq s n p
  | some e =>
    if !isWrite e.pkt || p.isLdres || e.pkt.isStcond || !niFwd s n ||
        !coversAll e.pkt.addr e.pkt.touched p.addr p.touched then hold
    else match guardFails s n p with
      | some f => failAccess s n p f
      | none =>
        let data := (List.range p.cnt).map (fun i => wordAt e.pkt.words (p.addr - e.pkt.addr + i))
        answer (incWrap s (niReg n Off.NI_FWD_CNT)) n (mkResp p (nodeOf s n) St.OK data 0)

/-- R46: a held read waits until every entry that it overlaps has been freed, and is then injected. -/
def retryRead (s : State) (n : Nat) (p : Pkt) : State :=
  if (blockers (s.ni n) p).isEmpty then launchReq s n p
  else modNi s n (fun y => { y with held := y.held ++ [p] })

/-- R45: requests that are not writes leave in order once no write stands before them. -/
def releaseOq (s : State) (n : Nat) : Nat → State
  | 0 => s
  | f + 1 =>
    let x := s.ni n
    match takeFirst (fun e => !e.left) x.oq with
    | none => s
    | some (e, rest) =>
      if isWrite e.pkt then s
      else
        let s1 := s.setNi n { x with oq := rest }
        let s2 := if e.pkt.opc = Opc.MSG then stageOreq s1 n e.pkt else launchReq s1 n e.pkt
        releaseOq s2 n f

/-- Held reads are looked at again in their order, then the queue (R46, R173). -/
def settle (s : State) (n : Nat) : State :=
  if grdHolds s n then s
  else
    let held := (s.ni n).held
    let s1 := modNi s n (fun x => { x with held := [] })
    let s2 := forEach (fun p st => retryRead st n p) held s1
    releaseOq s2 n ((s2.ni n).oq.length + 1)

/-! ### Acceptance on OREQ_ (R39, R40, R41, R45, R52, R149, R173) -/

/-- R90: a head of the channel is held at stage 2 or 3, so X_READY is low. -/
def chanHeld (x : Ni) (ch : Chan) : Bool := x.stage.any (fun e => decide (e.ch = ch) && e.waits)
/-- R13, R302, R276: the NI takes no beat from its unit. -/
def unitShut (s : State) (n : Nat) : Bool := (s.ni n).urst || unitClosed s n || routerOut s (n / 7)

/-- R316: the beats that a packet of so many flits takes in a FIFO of NI n: two flits each at p0 to p3, one elsewhere. -/
def beatsFor (n flits : Nat) : Nat := if n % 7 ≤ 3 then (flits + 1) / 2 else flits
/-- The packets that the inject FIFO of a channel still holds: those read and not injected, but for writes, which stand in
the store buffer. -/
def inFifo (x : Ni) (ch : Chan) : List Pkt :=
  (((x.stage.filter (fun e => decide (e.ch = ch))).map (fun e => e.pkt)).filter (fun p => !isWrite p)) ++
    (if ch = .oreq then (x.oq.map (fun e => e.pkt)).filter (fun p => decide (p.opc = Opc.MSG)) else [])
/-- R316: the inject FIFO of a channel, of 16 beats, has room for the packet of a head. -/
def injectRoom (x : Ni) (n : Nat) (ch : Chan) (h : Head) : Bool :=
  decide (((inFifo x ch).map (fun p => beatsFor n p.flits)).foldl (· + ·) 0 + beatsFor n (h.lenN + 1) ≤ 16)

/-- R93: a head of the channel stands unread in the inject FIFO. -/
def unread (x : Ni) (ch : Chan) : Bool := x.fifo.any (fun q => decide (q.1 = ch))
/-- The NI can read a head on OREQ_, its guards apart. -/
def oreqSpace (s : State) (n : Nat) : Bool :=
  let x := s.ni n
  !unitShut s n && !chanHeld x .oreq && x.bar.isNone && decide (x.outst.length < 64) && decide (sbufLevel x < 32)
/-- The NI can take a packet on OREQ_, its guards apart. -/
def oreqRoom (s : State) (n : Nat) : Bool := niEn s n && !unread (s.ni n) .oreq && oreqSpace s n
/-- OREQ_READY at a packet boundary. -/
def oreqOpen (s : State) (n : Nat) : Bool := oreqRoom s n && !grdHolds s n
/-- The direct accesses of a core that are not performed: those that wait in the core, and its requests in the queues of
tile memory controllers (R142). -/
def coreMem (s : State) (c : Nat) : List Pkt :=
  (s.tmcs.flatMap (fun e => e.2.q.filter (fun r => match r.via with
    | .mem (.core d) => decide (d.val = c)
    | _ => false))).map (fun r => r.pkt)
/-- R145: a request of an Opcon core waits for the core's earlier direct accesses to its words. -/
def behindDirect (s : State) (n : Nat) (h : Head) : Bool :=
  match coreAt n with
  | none => false
  | some c => isAccess h.opcN &&
      ((s.core c).wq.any (fun x => overlaps x.addr (max 1 x.words.length) h.arga (wordsTouched h.opcN h.cntN)) ||
        (coreMem s c).any (fun p => overlaps p.addr p.touched h.arga (wordsTouched h.opcN h.cntN)) ||
        s.heldWrites.any (fun w => decide (w.node = coreNode s c) && overlaps w.addr 1 h.arga (wordsTouched h.opcN h.cntN)))
/-- R173: OREQ_ takes this packet; a core's hold does not stop the writes that complete its own update. -/
def oreqTakesHead (s : State) (n : Nat) (h : Head) : Bool :=
  injectRoom (s.ni n) n .oreq h && !behindDirect s n h && (oreqOpen s n || (oreqRoom s n && passesHold s n h.opcN h.arga h.cntN))

/-- R50: the packet's tail has not crossed when its head is read. -/
def tailLate (h : Head) : Bool := !h.tailIn && decide (0 < h.lenN)

/-- The packet before is complete on its channel; this one is open while its tail has not crossed. -/
def noteOpen (s : State) (n : Nat) (ch : Chan) (late : Bool) (p : Pkt) : State :=
  modNi s n (fun x =>
    let rest := x.openP.filter (fun q => decide (q.1 ≠ ch))
    let last := x.lastP.filter (fun q => decide (q.1 ≠ ch))
    { x with openP := if late then rest ++ [(ch, p)] else rest,
             lastP := if !late && decide (0 < p.len) then last ++ [(ch, p)] else last })

def chanCode : Chan → Nat
  | .oreq => ErrCh.OREQ
  | .irsp => ErrCh.IRSP
  | .cpo => ErrCh.CPO
  | .own => ErrCh.OREQ

/-- R40: a BODY or TAIL with no packet open is discarded and recorded with OPC and TAG zero; nobody is answered. -/
def orphanOp (s : State) (n : Nat) (ch : Chan) : State :=
  modNi (raiseErr s n ErrB.BADPKT 0 0 (chanCode ch)) n
    (fun x => { x with openP := x.openP.filter (fun q => decide (q.1 ≠ ch)) })
/-- The flit that is presented as a head is a BODY or a TAIL. -/
def isOrphan (h : Head) : Bool := decide (h.ft = 1 ∨ h.ft = 2)

/-- R40: the response opcode of a packet refused on OREQ_. -/
def badOpc (opc : Nat) : Nat := if isAccess opc || opc = Opc.BAR then respOpc opc else Opc.WRACK

/-- R40: a packet that fails a head check on OREQ_. -/
def badOreq (s : State) (n : Nat) (h : Head) (st : Nat) : State :=
  let p : Pkt :=
    { opc := badOpc h.opcN, dst := nodeOf s n, src := nodeOf s n, sc := h.sc.toNat,
      tag := h.tag.toNat, flg := echoFlg h.opcN h.flg.toNat, arg := natW st,
      words := if isLock h.opcN then [0, 0] else [] }
  present s n .orsp p

/-- R157: the NI writes its epoch into W4 of a lock request. -/
def stampEpoch (s : State) (n : Nat) (p : Pkt) : Pkt :=
  { p with words := [(wordAt p.words 0).put 16 8 ((s.reg (niReg n Off.NI_EPOCH)).fld 0 8)] }

/-- R148: what a barrier marks: every outstanding request of one NI. -/
def niMarks (x : Ni) : List Nat := x.outst.map (fun q => q.id)
def tileNis (t : Nat) : List Nat := (List.range 7).map (fun p => niOf t p)
/-- R148: writes queued in the bridge and control-matrix accesses in progress. -/
def matrixMarks (s : State) : List Nat :=
  s.posted.map (fun q => q.pkt.id) ++ s.heldWrites.map (fun h => h.id) ++ (s.hrpQ.filter (fun q => q.ans.isNone)).map (fun q => q.id) ++
    (s.dbgQ.filter (fun q => q.ans.isNone)).map (fun q => q.id)
/-- The direct writes of a core that brace holds (R308). -/
def coreHeld (s : State) (c : Nat) : List HeldWrite := s.heldWrites.filter (fun h => decide (h.node = coreNode s c))
def coreMarks (s : State) (c : Nat) : List Nat :=
  (s.core c).wq.map (fun x => x.id) ++ (coreMem s c).map (fun p => p.id) ++ (coreHeld s c).map (fun h => h.id)
def agentMarks (s : State) (n : Nat) : List Nat :=
  niMarks (s.ni n) ++ (match coreAt n with
    | none => []
    | some c => coreMarks s c)
def barMarks (s : State) (n scope : Nat) : List Nat :=
  if scope = 0 then agentMarks s n
  else if scope = 1 then (tileNis (n / 7)).flatMap (agentMarks s)
  else (s.nis.map (fun e => e.2)).flatMap niMarks ++ coreMarks s 0 ++ coreMarks s 1 ++ matrixMarks s

/-- R149: BAR is accepted: OREQ_ closes and the accesses in progress are marked. -/
def startBar (s : State) (n : Nat) (p : Pkt) : State :=
  let scope := p.flg % 4
  let b : Bar := { scope := scope, tag := p.tag, sc := p.sc, marks := barMarks s n scope }
  let s1 := modNi s n (fun x => { x with bar := some b })
  let s2 := s1.setReg (niReg n Off.NI_BAR_STAT) (W.at 0 1 1 ||| W.at 1 2 scope)
  if scope = 2 then incFld s2 (mtxReg Off.MTX_BAR_STAT) 0 9 else s2

/-- R202: the node that a MSG is routed to: the extension bridge when DST names another instance. -/
def msgDst (s : State) (d : Nat) : Nat := if nodeInst d = inst s then d else nodeTP s 56 6

/-- R93: in Profile L the NI reads a head only once the packet's tail has crossed. -/
def readsLater (s : State) (n : Nat) (h : Head) : Bool := tailLate h && decide (profile s (n / 7) = 1)
/-- The head waits in the inject FIFO of its channel. -/
def putFifo (s : State) (n : Nat) (ch : Chan) (h : Head) : State :=
  modNi s n (fun x => { x with fifo := x.fifo ++ [(ch, h)] })

/-- A write that a guard discards is answered. -/
def failWrite (s : State) (n : Nat) (p : Pkt) (g a c : Nat) : State :=
  answer (recordNotice (if p.isStcond then loseReservation s n else s) g a c) n
    (mkResp p (nodeOf s n) (if p.isStcond then St.FAIL else St.OK) [] 0)

/-- R171: an access that the guard of the Opcon core behind NI n fails. -/
def failIssued (s : State) (n : Nat) (p : Pkt) (x : Nat × Nat × Nat × Nat) : State :=
  if isWrite p then failWrite s n p x.1 x.2.1 x.2.2.1 else failAccess s n p x

/-- Stage 0 of R47 on OREQ_: the head is read and checked. -/
def readOreq (s : State) (n : Nat) (h : Head) : State :=
  if !headOk s .oreq h then
    badOreq (raiseErr s n ErrB.BADPKT h.opcN h.tag.toNat ErrCh.OREQ) n h St.BADPKT
  else if isAccess h.opcN && (findReq (s.ni n) h.tag.toNat).isSome then
    badOreq (raiseErr s n ErrB.TAGDUP h.opcN h.tag.toNat ErrCh.OREQ) n h St.TAGDUP
  else if refusing s n then
    (if h.opcN = Opc.MSG then s else badOreq s n h St.ABORTED)
  else
    let sc := clampSc (niHiSc s n) (profile s (n / 7)) h.sc.toNat
    let p0 := headPkt s.nextId (nodeOf s n) sc h
    let p := if isLock h.opcN then stampEpoch s n p0 else p0
    let s1 := noteOpen { s with nextId := s.nextId + 1 } n .oreq (tailLate h) p
    if h.opcN = Opc.BAR then startBar s1 n p
    else if h.opcN = Opc.MSG then
      -- the true DST stays in the packet's mask while the packet travels to the bridge
      let m : Pkt := { p with dst := msgDst s p.dst, mask := p.dst }
      settle (modNi s1 n (fun x => { x with oq := x.oq ++ [{ pkt := m }] })) n
    else
      let q : Req :=
        { id := p.id, tag := p.tag, opc := p.opc, sc := p.sc, addr := p.addr, words := p.touched }
      let s2 := modNi s1 n (fun x => { x with outst := x.outst ++ [q] })
      match coreFails s n p with
      | some x => failIssued s2 n p x
      | none => if p.opc = Opc.RD then tryRead s2 n p
        else settle (modNi s2 n (fun x => { x with oq := x.oq ++ [{ pkt := p }] })) n

/-- A unit presents a packet on OREQ_. -/
def acceptOreq (s0 : State) (n : Nat) (h : Head) : State :=
  let s := stirTile s0 (n / 7) 2
  if !oreqTakesHead s n h then s
  else if isOrphan h then orphanOp s n .oreq
  else if readsLater s n h then putFifo s n .oreq h
  else readOreq s n h

/-! ### The store buffer drains (R45, R97, R122, R151, R170) -/

/-- R122: the PHOLD that a write of NI_PHOLD yields. R4: a destination with port 7 is a decode miss; it has no word
address and is no access, and the record shows WR 1, address 0 and WHERE source (DESIGN CHOICE, log entry 37). -/
def sendPhold (s : State) (n : Nat) (v : W) : State :=
  let d := getFld s (niReg n Off.NI_PHOLD_DST) 0 23
  if n % 7 ≠ 0 then s
  else if nodePort d = 7 then decodeMiss s (nodeOf s n) true .source 0
  else incWrap (ownSend s n d Opc.PHOLD 7 0 0 (b2n (v.bit 8)) 0 [W.at 0 8 (v.fld 0 8)]) (niReg n Off.NI_PHOLD_CNT)

/-- R97, R122: a write to NI_RSV_PUSH or NI_PHOLD of the NI's own block is applied by the NI. -/
def ownWrite (n a : Nat) : Bool := a = niReg n Off.NI_RSV_PUSH || a = niReg n Off.NI_PHOLD

/-- The data words of an own write: each pushes a run at NI_RSV_PUSH; at NI_PHOLD the first acts, and R122 does not speak
of more (DESIGN CHOICE, log entry 37). -/
def applyOwn (s : State) (n a : Nat) (ws : List W) : State :=
  if a = niReg n Off.NI_RSV_PUSH then forEach (fun v st => rsvPush st n v) ws s
  else sendPhold s n (wordAt ws 0)

/-- R173: the entry may leave as far as the holds of guards go. -/
def holdLets (s : State) (n : Nat) (p : Pkt) : Bool :=
  !grdHolds s n || passesHold s n p.opc p.addr p.touched

/-- The oldest write that has not left leaves. -/
def drainOne (s : State) (n : Nat) : State :=
  let x := s.ni n
  match takeFirst (fun e => !e.left && holdLets s n e.pkt) x.oq with
  | none => s
  | some (e, _) =>
    let p := e.pkt
    if !isWrite p then s
    else
      let me := nodeOf s n
      let reg := launchRegion s p.addr
      let done := match guardFails s n p with
        | some (g, a, c, _) => failWrite s n p g a c
        | none =>
          if sourceMiss reg p then
            answer (decodeMiss s me true .source p.addr) n (missResp p n me)
          else if p.isStcond && !recordNames s n p && !lacksWord s p.addr then
            answer (loseReservation s n) n (mkResp p me St.FAIL [] 0)
          else if ownWrite n p.addr then
            answer (applyOwn s n p.addr (p.words.take p.cnt)) n (mkResp p me St.OK [] 0)
          else
            let left := modNi s n (fun y => { y with oq := y.oq.map (fun f =>
              if f.pkt.id = p.id then { f with left := true } else f) })
            stageOreq left n { p with dst := targetOf s n reg }
      settle done n

/-! ### Responses arrive (R39, R51, R53, R132) -/

/-- R132: DECERR reaches only the Opcon cores and the debug access port. -/
def maskDecerr (n : Nat) (q : Req) (p : Pkt) : Pkt :=
  if p.arg = natW St.DECERR && !seesDecerr n then
    { p with arg := natW St.OK,
             words := if q.opc = Opc.RD ∨ q.opc = Opc.FOP then List.replicate p.cnt 0 else p.words }
  else p

/-- A response at NI n: presented and its tag freed, or dropped when nothing waits for it. -/
def takeResponse (s : State) (n : Nat) (p : Pkt) : State :=
  let x := s.ni n
  match findReq x p.tag with
  | none => incSat (raiseErr s n ErrB.RESP_DROP p.opc p.tag ErrCh.ORSP) (niReg n Off.NI_DROP_CNT)
  | some q =>
    let s1 := if q.opc = Opc.WR && p.flag 0 then loseRecord s n else s
    settle (answer s1 n { maskDecerr n q p with id := q.id }) n

/-! ### KILL and aborts (R49 to R53) -/

/-- The packet of access `p.id` that its source NI is still injecting. -/
def samePkt (p q : Pkt) : Bool := decide (q.id = p.id ∧ q.opc = p.opc)
/-- R50: some part of the packet is still in the network, or whole at a destination that has not taken it. -/
def inFlight (s : State) (p : Pkt) : Bool :=
  s.routers.any (fun e => e.2.inq.any (fun f => samePkt p f.pkt) || e.2.trail.any (fun f => samePkt p f.pkt)) ||
  s.nis.any (fun e => e.2.eject.any (samePkt p)) || s.tmcs.any (fun e => e.2.q.any (fun r => samePkt p r.pkt))
/-- The packet's flits are followed by KILL instead of its tail, wherever they are. -/
def killInNet (s : State) (p : Pkt) : State :=
  let mark (q : Pkt) : Pkt := if samePkt p q then { q with killed := true } else q
  { s with
    routers := s.routers.map (fun e => (e.1, { e.2 with
      inq := e.2.inq.map (fun f => if samePkt p f.pkt then
        { f with pkt := mark f.pkt, arrived := min f.arrived f.pkt.len } else f),
      trail := e.2.trail.map (fun f => { f with pkt := mark f.pkt }) })),
    nis := s.nis.map (fun e => (e.1, { e.2 with eject := e.2.eject.map mark })),
    tmcs := s.tmcs.map (fun e => (e.1, { e.2 with q := e.2.q.filter (fun r => !samePkt p r.pkt) })) }

def countKillTx (s : State) (n : Nat) (p : Pkt) (ch : Nat) : State :=
  raiseErr (incSat s (niReg n Off.NI_KILL_TX_CNT)) n ErrB.KILL_TX p.opc p.tag ch

/-- R49, R50: an answer without data for a request of the unit that will not be answered otherwise. -/
def abortReq (s : State) (n : Nat) (p : Pkt) (st : Nat) : State :=
  settle (answer s n (mkResp p (nodeOf s n) st (if isLock p.opc then [0, 0] else []) 0)) n

/-- R37, R50: the owed response without data, to the requester of an inbound request. -/
def owedResp (s : State) (n : Nat) (q : Inb) (st : Nat) : State :=
  let p : Pkt := { id := q.id, opc := q.opc, src := q.src, tag := q.tag, sc := q.sc }
  stageOwn s n (mkResp p (nodeOf s n) st (if isLock q.opc then [0, 0] else []) 0)

/-- R50, R51: a unit's response, replaced by one without data. -/
def emptyResp (p : Pkt) (st : Nat) : Pkt :=
  { p with arg := natW st, cnt := 0, len := 0, words := if p.opc = Opc.LKRESP then [0, 0] else [],
           poi := 0 }

/-- What follows when the NI kills the packet it was injecting on a channel (R40, R49, R51, R53). -/
def afterKill (s : State) (n : Nat) (ch : Chan) (p : Pkt) (st : Nat) : State :=
  match ch with
  | .oreq => if isAccess p.opc then abortReq s n p st
             else if st = St.BADPKT then present s n .orsp
               { opc := Opc.WRACK, dst := p.src, src := p.src, sc := p.sc, tag := p.tag, arg := natW st }
             else s
  | .irsp => stageOwn (if st = St.ABORTED then incSat s (niReg n Off.NI_ABORT_CNT) else s) n (emptyResp p st)
  | .cpo => if st = St.BADPKT then cellRef s n st p else s
  | .own => s

/-- The open packet of a channel is ended by KILL. A packet that has been taken whole at its destination
had its tail across before. -/
def killOpen (s : State) (n : Nat) (ch : Chan) (p : Pkt) (st : Nat) : State :=
  let s1 := modNi s n (fun x => { x with openP := x.openP.filter (fun q => decide (q.1 ≠ ch)) })
  if inFlight s p then afterKill (countKillTx (killInNet s1 p) n p (chanCode ch)) n ch p st else s1

/-- Whether the head of access `id` still stands in the NI. -/
def notInjected (x : Ni) (id : Nat) : Bool :=
  x.stage.any (fun e => decide (e.pkt.id = id)) || x.oq.any (fun e => decide (e.pkt.id = id) && !e.left) ||
  x.held.any (fun p => decide (p.id = id)) ||
  (match x.cell with
   | some w => decide (w.pkt.id = id)
   | none => false)
def removeHead (y : Ni) (id : Nat) : Ni :=
  let x := (y.stage.filter (fun e => decide (e.pkt.id = id))).foldl giveBack y
  { x with stage := x.stage.filter (fun e => decide (e.pkt.id ≠ id)),
           oq := x.oq.filter (fun e => decide (e.pkt.id ≠ id)),
           held := x.held.filter (fun p => decide (p.id ≠ id)),
           cell := match x.cell with
             | some w => if w.pkt.id = id then none else some w
             | none => none }

/-- R51, R52: a request among what the unit has not taken: ABORTED to its requester, counted. -/
def abortInbound (s : State) (n : Nat) (p : Pkt) : State :=
  incSat (owedResp s n { src := p.src, tag := p.tag, opc := p.opc, sc := p.sc, id := p.id } St.ABORTED)
    (niReg n Off.NI_ABORT_CNT)

/-- R51 step 5: one packet of the eject FIFO that the unit has not taken. FSTAGE is kept, and so are
the reservation and fanfare messages, which the NI itself acts on. -/
def flushEject (n : Nat) (p : Pkt) (s : State) : State :=
  let drop (st : State) : State := modNi st n (fun x => { x with eject := x.eject.filter (fun q => decide (q ≠ p)) })
  if isAccess p.opc then abortInbound (drop s) n p
  else if p.opc = Opc.CELL then
    (match findGrant (s.ni n) p.src p.sc p.handle with
     | none => incSat (drop s) (niReg n Off.NI_DROP_CNT)
     | some g => if g.waiting.isSome then incSat (drop s) (niReg n Off.NI_DROP_CNT)
       else takeBack (modNi (drop s) n (fun x => resolveGrant x p.src p.sc p.handle)) n p.handle)
  else if p.opc = Opc.CELLMC then dropCopy (drop s) n p.src
  else if isResp p.opc && decide (p.tag < 256) then
    incSat (modNi (drop s) n (fun x => endReq x p.tag)) (niReg n Off.NI_DROP_CNT)
  else if p.opc = Opc.MSG || p.opc = Opc.PHOLD then incSat (drop s) (niReg n Off.NI_DROP_CNT)
  else s

/-- R51 step 6: the reservations and credits that the NI holds are returned. R117 gives the RSVREL of standing credits no
class; it travels on SC0, as the refill does (DESIGN CHOICE, log entry 39). -/
def returnAll (s : State) (n : Nat) : State :=
  let x := s.ni n
  let s1 := forEach (fun q st => returnPair st n q.1 q.2) (heldPairs x) s
  let s2 := forEach (fun e st => sendStandRel st n (nodeOf s e.1) 0 e.2) x.credits s1
  let s3 := modNi s2 n (fun y => { y with credits := [], refill := [] })
  match x.rsv with
  | none => s3
  | some r => modNi (if r.withdrawn then s3 else sendWithdraw s3 n r.dst r.sc) n
      (fun y => { y with rsv := some { r with withdrawn := true, gone := true } })

/-- R51 steps 1 to 5. -/
def unitDrop (s : State) (n : Nat) : State :=
  let x := s.ni n
  let s1 := forEach (fun q st => if notInjected (st.ni n) q.2.id then st
    else if q.1 = .oreq then
      (if inFlight st q.2 then
        modNi (countKillTx (killInNet st q.2) n q.2 ErrCh.OREQ) n (fun y => freeEntry (dropReq y q.2.id) q.2.id)
       else st)
    else killOpen st n q.1 q.2 St.ABORTED) x.openP s
  let answers := (s1.ni n).stage.filter (fun e => decide (e.ch = .irsp))
  let s2 := modNi s1 n (fun z =>
    let y := (z.stage.reverse).foldl giveBack z
    { y with fifo := [], openP := [], lastP := [], stage := y.stage.filter (fun e => decide (e.ch = .own)), held := [],
             cell := none, oq := [],
             outst := y.outst.filter (fun q =>
               !(y.oq.any (fun e => decide (e.pkt.id = q.id) && !e.left)) &&
               !(y.held.any (fun p => decide (p.id = q.id))) &&
               !(y.stage.any (fun e => decide (e.ch = .oreq ∧ e.pkt.id = q.id)))) })
  let s3 := forEach (fun e st => incSat (stageOwn st n (emptyResp e.pkt St.ABORTED)) (niReg n Off.NI_ABORT_CNT)) answers s2
  let s4 := forEach (fun q st => incSat (owedResp st n q St.ABORTED) (niReg n Off.NI_ABORT_CNT)) x.inb s3
  let s5 := modNi s4 n (fun y => { y with inb := [] })
  forEach (flushEject n) (s5.ni n).eject s5

/-- R51 steps 1 to 6, which R52 also applies to what a drain leaves. -/
def unitGone (s : State) (n : Nat) : State := returnAll (unitDrop s n) n

end Sys2Proof.Machine
end

