-- ==== Sys2Proof/Machine/FanfareOps.lean ====
section
/-!
DEFINITION. The fanfare engine (R190 to R201): tc edges and FT, the slots' registers, arming, aborts, the strobes of
the time channel (R29, R319), losses (R195), what clamps hold back from units (R302).
-/

namespace Sys2Proof.Machine

/-! ### tc edges (R180, R194): the tc count is fc / 8 -/

def tcNow (s : State) : Nat := s.fc / 8
/-- R179: SEC wraps to 0 after 2^36 − 1. -/
def ftWrap (x : Nat) : Nat := x % (2 ^ 36 * ftSec * ftFrac)
def incNow (s : State) : Nat := (s.reg (tkReg Off.TK_INC)).toNat
def ceilDiv (a b : Nat) : Nat := (a + b - 1) / b
/-- The first tc edge at which FT ≥ x, x in 1/64 ns. -/
def edgeOf (s : State) (x : Nat) : Nat :=
  if x * ftFrac ≤ s.ft then tcNow s else tcNow s + ceilDiv (x * ftFrac - s.ft) (incNow s)
/-- FT at a tc edge at or after the present one. -/
def ftAtEdge (s : State) (e : Nat) : Nat := (s.ft + (e - tcNow s) * incNow s) / ftFrac
def ns (x : Nat) : Nat := 64 * x
def us (x : Nat) : Nat := 64000 * x

/-! ### Slots (R190, R197, R211) -/

namespace SS
def IDLE := 0
def STAGING := 1
def XWAIT := 3
def ARMED := 4
def RUNNING := 5
def FREEING := 6
def ABORTED := 7
def DONE := 8
end SS

namespace Rsn
def BADENTRY := 1
def STG_TO := 2
def COUNT := 3
def LOST := 4
def HOST := 5
def NOCONFIRM := 6
def XFAIL := 7
def UNREACH := 8
end Rsn

def slotState (s : State) (k : Nat) : Nat := getFld s (slotReg k Off.FNF_STAT) 0 4
def setSlotState (s : State) (k v : Nat) : State := setFld s (slotReg k Off.FNF_STAT) 0 4 v
def slotFid (s : State) (k : Nat) : Nat := getFld s (slotReg k Off.FNF_STAT) 4 8
def slotReason (s : State) (k : Nat) : Nat := getFld s (slotReg k Off.FNF_STAT) 29 5
def slotLt (s : State) (k : Nat) : Nat :=
  ftOfWords (s.reg (slotReg k Off.FNF_LT_H)) (s.reg (slotReg k Off.FNF_LT_L))
def setSlotLt (s : State) (k lt : Nat) : State :=
  (s.setReg (slotReg k Off.FNF_LT_H) (ftHi lt)).setReg (slotReg k Off.FNF_LT_L) (ftLo lt)
def fidOpen (s : State) (fid : Nat) : Bool :=
  decide (slotFid s (fidSlot fid) = fid ∧ slotState s (fidSlot fid) ≠ SS.IDLE)

/-- R190: the coordinator NI. -/
def coordNi (s : State) : Nat := if regBit s (fnfReg Off.FNF_CTRL) 1 then 447 else 6
def findLaunch (s : State) (fid : Nat) : Option Launch := s.launches.find? (fun l => decide (l.fid = fid))
def dropLaunch (s : State) (fid : Nat) : State :=
  { s with launches := s.launches.filter (fun l => decide (l.fid ≠ fid)) }
def modLaunch (s : State) (fid : Nat) (f : Launch → Launch) : State :=
  { s with launches := s.launches.map (fun l => if l.fid = fid then f l else l) }

/-- R196, R211: FNF_BAD_k names an entry index and a node; what the manual does not name is open. -/
def setBad (s : State) (k : Nat) (idx node : Option Nat) : State :=
  let f := Config.freeWord s.freeN
  let i := idx.getD (f.fld 0 13)
  let n := node.getD (f.fld 13 23)
  ({ s with freeN := s.freeN + 1 }).setReg (slotReg k Off.FNF_BAD) (W.at 0 13 i ||| W.at 13 23 n)

/-! ### Staging NIs (R191) -/

/-- The NI of the global apply path. -/
def globalNi (s : State) : Nat := if outNow s 0 then niOf 63 5 else niOf 0 5
/-- The NI that stages an entry; `none` is refused. -/
def stagingNi (s : State) (a : Nat) : Option Nat :=
  match regionOf s a with
  | .tmem t _ => some (niOf t 5)
  | .unit n _ => if windowAbsent n || !populated s n then none else some n
  | .matrix _ => match regAt a with
    | some (.ni t p, _, _) => some (niOf t p)
    | some (.grdNi t p, _, _) => some (niOf t p)
    | some (.rtr t, _, _) => some (niOf t 5)
    | some (.slc t _, _, _) => some (niOf t 5)
    | some (.ta t, _, _) => some (niOf t 5)
    | some (.tmem t, _, _) => some (niOf t 5)
    | some (.pwr, _, _) => some (globalNi s)
    | some (.mtx, _, _) => some (globalNi s)
    | some (.ext, _, _) => some (globalNi s)
    | _ => none
  | _ => none
/-- An entry that its unit applies (R55). -/
def isWindow (s : State) (a : Nat) : Bool :=
  match regionOf s a with
  | .unit _ _ => true
  | _ => false

/-! ### Strobes (R29, R55, R319) -/

/-- R346: TIME_LATE carries the FID. -/
def pushStrobe (s : State) (n fid : Nat) (apply : Bool) : State :=
  if n % 7 = 5 || !populated s n then s
  else if (s.ni n).strobes.length < 8 then
    modNi s n (fun x => { x with strobes := x.strobes ++ [{ apply := apply, fid := fid }] })
  else
    logNi (raiseBit (incSat s (niReg n Off.CDC_LOST_TIM)) n .cdc (niReg n Off.CDC_STAT) 0 1 true)
      n EvC.TIME_LATE [natW fid]

/-- R195, R196: an NI discards its entries of a fanfare and raises TIM_ABORT. -/
def discardAt (fid n : Nat) (s : State) : State :=
  if (s.ni n).hold.any (fun e => decide (e.fid = fid)) then
    pushStrobe (modNi s n (fun x => { x with hold := x.hold.filter (fun e => decide (e.fid ≠ fid)) })) n fid false
  else s

/-! ### Entries at a tile (R198, R195) -/

def heldFids (s : State) (t : Nat) : List Nat :=
  ((tileNis t).flatMap (fun n => (s.ni n).hold.map (fun e => e.fid))).eraseDups
/-- R195: the fanfare is within its last 500 ns. -/
def lastMoments (s : State) (fid : Nat) : Bool :=
  match findLaunch s fid with
  | none => false
  | some l => decide (l.lt ≤ ftNow s + ns 500)
/-- The fanfare has an entry for a router or slice register of tile t. -/
def touchesRouter (s : State) (t fid : Nat) : Bool :=
  (s.slot (fidSlot fid)).ents.any (fun e => match regAt e.addr with
    | some (.rtr u, _, _) => decide (u = t)
    | some (.slc u _, _, _) => decide (u = t)
    | _ => false)
/-- R198: a launch due within `d` with entries at tile t. -/
def launchDue (s : State) (t d : Nat) : Bool :=
  s.launches.any (fun l => decide (l.lt ≤ ftNow s + d) && decide (slotState s (fidSlot l.fid) ≠ SS.FREEING) &&
    l.nis.any (fun n => decide (n / 7 = t)))
/-- R198: a launch due within 2 µs, and not held by brace. -/
def dueSoon (s : State) (l : Launch) : Bool :=
  decide (l.lt ≤ ftNow s + us 2) && !l.held && decide (slotState s (fidSlot l.fid) ≠ SS.FREEING)
/-- R198: the launches due within 2 µs that have entries for router or slice registers of tile t, each with its number. -/
def dueAtRouter (s : State) (t : Nat) : List (Nat × Nat) :=
  (s.launches.filter (fun l => dueSoon s l && touchesRouter s t l.fid)).map (fun l => (l.fid, l.n))

/-! ### Aborts (R196) -/

/-- The NIs that have been sent entries of the slot's fanfare. -/
def sentNis (x : Slot) : List Nat := ((x.ents.take (x.ents.length - x.todo.length)).map (fun e => e.ni)).eraseDups
def sendFabrts (s : State) (k : Nat) : State :=
  let c := coordNi s
  forEach (fun n st => ownSend st c (nodeOf st n) Opc.FABRT 6 0 (slotFid s k) 0 0 []) (sentNis (s.slot k)) s

/-- The slot goes to ABORTED, and FNF_ABORT is logged with its registers. The entries not sent hold no place. -/
def slotAborted (s : State) (k reason : Nat) (idx node : Option Nat) : State :=
  let s1 := setBad (setFld (setSlotState s k SS.ABORTED) (slotReg k Off.FNF_STAT) 29 5 reason) k idx node
  let s2 := { modSlot s1 k (fun x =>
      { x with ents := x.ents.take (x.ents.length - x.todo.length), todo := [], want := [], pre := 0 }) with
    stageQ := s1.stageQ.filter (fun j => decide (j ≠ k)) }
  logGlobal (incWrap s2 (fnfReg Off.FNF_ABORT_CNT)) EvC.FNF_ABORT
    [s2.reg (slotReg k Off.FNF_STAT), s2.reg (slotReg k Off.FNF_BAD)]

/-- R195: ABORT is broadcast and the slot aborts. -/
def abortArmed (s : State) (fid reason : Nat) (idx node : Option Nat) : State :=
  let s1 := dropLaunch { s with aborts := s.aborts ++ [fid] } fid
  slotAborted s1 (fidSlot fid) reason idx node

/-- The first entry of a slot that lies at an NI. -/
def entryIdx (x : Slot) (n : Nat) : Option Nat :=
  firstSome (fun i => match x.ents[i]? with
    | some e => if e.ni = n then some i else none
    | none => none) (List.range x.ents.length)

/-! ### Losses (R195) -/

/-- A target that loses entries of a fanfare reports LOST. -/
def reportLost (s : State) (fid n : Nat) : State :=
  if fidOpen s fid then { s with losts := s.losts ++ [(fid, n)] } else s

/-- NI n loses all it holds (NI_RST, TILE_RST). -/
def loseHold (s : State) (n : Nat) : State :=
  let fids := ((s.ni n).hold.map (fun e => e.fid)).eraseDups
  forEach (fun f st => reportLost st f n) fids (modNi s n (fun x => { x with hold := [] }))

/-- The unit of NI n is reset: entries delivered to it are gone. In the last 500 ns the loss is logged and
the launch goes on. -/
def loseDelivered (s : State) (n : Nat) : State :=
  let gone (e : HoldEnt) : Bool := isWindow s e.addr && e.delivered
  let fids := (((s.ni n).hold.filter gone).map (fun e => e.fid)).eraseDups
  let s1 := modNi s n (fun x => { x with hold := x.hold.filter (fun e => !gone e) })
  forEach (fun f st => if lastMoments st f then
      logNi (modLaunch st f (fun l => { l with gone := l.gone ++ [n] })) n EvC.FNF_UNIT_LOST [natW f, natW (nodeOf st n)]
    else reportLost st f n) fids s1

/-! ### Arming (R193) -/

/-- R243: firmware keeps the LT of the last of its changes that has armed. -/
def noteTicketLt (s : State) (k lt : Nat) : State :=
  if (s.slot k).ticket.isSome then { s with tickLt := max s.tickLt lt } else s
/-- The engine arms the slot: arm sequence, launch time, FARM to both Time Keepers. -/
def armSlot (s : State) (k lt : Nat) : State :=
  let a := getFld s (fnfReg Off.FNF_SEQ) 0 16
  let s1 := setFld (setSlotState s k SS.ARMED) (slotReg k Off.FNF_STAT) 12 16 a
  let s2 := noteTicketLt (setSlotLt (setFld s1 (fnfReg Off.FNF_SEQ) 0 16 (a + 1)) k lt) k lt
  let c := coordNi s2
  let farm (n : Nat) (st : State) : State :=
    ownSend st c (nodeOf st n) Opc.FARM 6 0 (slotFid st k) 0 (ftHi lt) [ftLo lt]
  farm (niOf 63 5) (farm (niOf 0 5) s2)

/-- R192, R197, R206: the last FSTGD of a slot has come. A slot that coordinates several instances sends
XARM before it arms (R206), which `cross` does. -/
def stagedAll (s : State) (k : Nat) : Bool := (s.slot k).want.isEmpty && (s.slot k).todo.isEmpty

/-! ### The end of a slot's use (R197) -/

/-- The entries free their places and the engine restores the pips. -/
def freeSlotEnts (s : State) (k : Nat) : State :=
  let fid := slotFid s k
  let s1 := forEach (fun n st => modNi st n (fun x => { x with hold := x.hold.filter (fun e => decide (e.fid ≠ fid)) }))
    (sentNis (s.slot k)) s
  modSlot s1 k (fun x => { x with ents := [], todo := [], want := [] })

/-- R197, R401: a read of FNF_STAT_k in DONE returns the slot to IDLE. -/
def readSlotStat (s : State) (k : Nat) : State :=
  if slotState s k = SS.DONE then setSlotState s k SS.IDLE else s

/-! ### Shadows (R228) -/

def shadowOf (s : State) (a : Nat) : W := Sparse.get resetValue s.shadows a
def setShadow (s : State) (a : Nat) (v : W) : State := { s with shadows := Sparse.set resetValue s.shadows a v }

/-! ### Cross-instance state (R206 to R209) -/

namespace XT
def XARM := 1
def XSTAGED := 2
def XCONFIRM := 3
def XABORT := 4
def XREPORT := 5
end XT

namespace XO
def UNKNOWN := 0
def APPLIED := 1
def NOCONFIRM := 2
def LOST := 3
def NOTSTAGED := 4
def ALREADY := 5
end XO

def slotGfid (s : State) (k : Nat) : Nat := getFld s (slotReg k Off.FNF_GFID) 0 32
def confRep (s : State) : Nat := getFld s (extReg Off.EXT_CTRL) 4 4
/-- A control message goes to the bridge by the direct path. -/
def xsend (s : State) (dest type : Nat) (m : XMsg) : State := { s with xout := s.xout ++ [(dest, type, m)] }
def xsends (s : State) (dest type : Nat) (m : XMsg) : Nat → State
  | 0 => s
  | k + 1 => xsends (xsend s dest type m) dest type m k
def xinst (i : Nat) : Fin 16384 := Fin.ofNat _ i
def xmsg (s : State) (gfid coord lt : Nat) : XMsg :=
  { src := xinst (inst s), gfid := BitVec.ofNat 32 gfid, coord := xinst coord, ltH := ftHi lt, ltL := ftLo lt }

/-- R208: the outcomes of the last 64 cross-instance fanfares of this instance. -/
def keepHist (s : State) (gfid outcome : Nat) : State :=
  let j := s.xhistN % 64
  (({ s with xhistN := s.xhistN + 1 }).setReg (fnfReg (Off.FNF_XHIST j)) (W.at 0 32 gfid)).setReg
    (fnfReg (Off.FNF_XHIST j + 1)) (W.at 0 4 outcome)
def histApplied (s : State) (gfid : Nat) : Bool :=
  (List.range 64).any (fun j => decide (getFld s (fnfReg (Off.FNF_XHIST j)) 0 32 = gfid) &&
    decide (getFld s (fnfReg (Off.FNF_XHIST j + 1)) 0 4 = XO.APPLIED))

/-- The outcome of slot k's part in a cross-instance fanfare is known. -/
def xoutcome (s : State) (k outcome applyFt : Nat) : State :=
  let x := s.slot k
  let s1 := if x.cross || x.part then keepHist s (slotGfid s k) outcome else s
  let s2 := modSlot s1 k (fun y => { y with cross := false, part := false })
  if x.part then
    { s2 with xrep := s2.xrep ++ [{ slot := k, gfid := slotGfid s k, coord := x.coord, lt := slotLt s k,
                                    outcome := outcome, applyFt := applyFt }] }
  else s2

/-- An armed fanfare aborts; a part in a cross-instance one ends with it. -/
def abortLaunch (s : State) (fid reason : Nat) (idx node : Option Nat) : State :=
  xoutcome (abortArmed s fid reason idx node) (fidSlot fid)
    (if reason = Rsn.NOCONFIRM || reason = Rsn.XFAIL then XO.NOCONFIRM else XO.LOST) 0

/-! ### Held entries reach the unit (R51, R55, R302) -/

/-- R55: the FSTAGE that carries a held entry. -/
def stagePkt (n : Nat) (e : HoldEnt) : Pkt :=
  { opc := Opc.FSTAGE, src := e.src, dst := n, cnt := e.data.length, tag := e.fid,
    flg := if e.data.length = 16 then 1 else 0, arg := natW e.addr, words := e.data,
    len := flitsForWords e.data.length - 1 }
/-- R51, R55: entries for the unit window that wait are delivered, except in a dark tile (R302). -/
def deliverHeld (s : State) (n : Nat) : State :=
  if tileDark s (n / 7) then s
  else
    let s1 := forEach (fun e st => if e.delivered then st else present st n .ireq (stagePkt (nodeOf s n) e)) (s.ni n).hold s
    modNi s1 n (fun y => { y with hold := y.hold.map (fun e => { e with delivered := true }) })
/-- The clamps of an NI are released: what has waited for it is presented. -/
def unclamp (s : State) (n : Nat) : State :=
  let s1 := match (s.ni n).barack with
    | none => s
    | some p => present (modNi s n (fun x => { x with barack := none })) n .orsp p
  if (s.ni n).urst then s1 else deliverHeld s1 n

end Sys2Proof.Machine
end

