-- ==== Sys2Proof/Machine/Inject.lean ====
section
/-!
DEFINITION. Injection (R47 stages 2 and 3): the router's service, the route-change hold, reachability,
the order of one agent's accesses, tokens, spray, and the slots of the router's local input port.
-/

namespace Sys2Proof.Machine

/-! ### What a router holds back (R64, R84) -/

def holdOn (s : State) (t : Nat) : Bool := regBit s (rtrReg t Off.RTR_CTRL) 2
/-- R84: tile d is set in router t's hold mask. -/
def inHoldMask (s : State) (t d : Nat) : Bool :=
  if d < 32 then regBit s (rtrReg t Off.RTR_HOLD_MASK_LO) d
  else regBit s (rtrReg t Off.RTR_HOLD_MASK_HI) (d - 32)

/-- The destination tiles of a packet. -/
def destTiles (p : Pkt) : List Nat := if p.opc = Opc.CELLMC then tilesOf p.mask else [nodeTile p.dst]
/-- R81: the kinds of packet that the hold applies to. -/
def heldKind (p : Pkt) : Bool :=
  vnOf p.opc = 0 || vnOf p.opc = 2 || p.opc = Opc.MSG || p.opc = Opc.PHOLD || p.opc = Opc.RSVREQ ||
  p.opc = Opc.RSVREL
/-- R79: the NI holds the packet. -/
def routeHeld (s : State) (t : Nat) (p : Pkt) : Bool :=
  holdOn s t && heldKind p && (destTiles p).any (inHoldMask s t)

/-- R81: an FSTAGE of a paused slot waits, although the engine has handed it to its NI. -/
def stageHeld (s : State) (p : Pkt) : Bool := decide (p.opc = Opc.FSTAGE) && stagingPaused s (fidSlot p.tag)
/-- R79, R81: a route change holds the packet at its NI. -/
def heldNow (s : State) (t : Nat) (p : Pkt) : Bool := routeHeld s t p || stageHeld s p

/-! ### Slot counts of a sending side (R61): keys 0 to 15 are network outputs, 16 + p the local input of port p -/

def cntDefault (_ : Nat) : Cnt := {}
def cntOf (s : State) (t k : Nat) : Cnt := Sparse.get cntDefault (s.rt t).cnts k
def setCnt (s : State) (t k : Nat) (c : Cnt) : State :=
  modRt s t (fun r => { r with cnts := Sparse.set cntDefault r.cnts k c })
def linkDefault (_ : Nat) : LinkSt := {}
def linkOf (s : State) (t k : Nat) : LinkSt := Sparse.get linkDefault (s.rt t).links k
def setLink (s : State) (t k : Nat) (l : LinkSt) : State :=
  modRt s t (fun r => { r with links := Sparse.set linkDefault r.links k l })
def outDefault (_ : Nat) : OutSt := {}
def outOf (s : State) (t k : Nat) : OutSt := Sparse.get outDefault (s.rt t).outs k
def setOut (s : State) (t k : Nat) (o : OutSt) : State :=
  modRt s t (fun r => { r with outs := Sparse.set outDefault r.outs k o })

/-! ### Tokens (R88, R125) -/

/-- Where NI_TB_LEVEL keeps the tokens of a class. -/
def tbLo (sc : Nat) : Nat := if sc = 7 then 0 else if sc = 6 then 11 else 22
def tokens (s : State) (n sc : Nat) : Nat := getFld s (niReg n Off.NI_TB_LEVEL) (tbLo sc) 11
def metered (n sc : Nat) : Bool := 5 ≤ sc && n % 7 ≠ 5
def tokensOk (s : State) (n : Nat) (p : Pkt) : Bool := !metered n p.sc || decide (p.flits ≤ tokens s n p.sc)
def debitTokens (s : State) (n : Nat) (p : Pkt) : State :=
  if metered n p.sc then setFld s (niReg n Off.NI_TB_LEVEL) (tbLo p.sc) 11 (tokens s n p.sc - p.flits) else s

/-- R125: a VN0 request to a node that NI_PUNT_DST names. -/
def isPunt (s : State) (n : Nat) (p : Pkt) : Bool :=
  n % 7 ≠ 5 && vnOf p.opc = 0 &&
  [0, 1, 2, 3].any (fun i =>
    let w := s.reg (niReg n (Off.NI_PUNT_DST i))
    w.bit 35 && w.fld 0 23 = p.dst)
def puntLevel (s : State) (n : Nat) : Nat := getFld s (niReg n Off.NI_PUNT_LEVEL) 0 8

/-! ### Same-agent order (R145) -/

/-- An earlier request of another class, still awaiting its response, touches a word of this one. -/
def clsHeld (x : Ni) (p : Pkt) : Bool :=
  isAccess p.opc &&
  (x.outst.takeWhile (fun q => decide (q.id ≠ p.id))).any (fun q =>
    decide (q.sc ≠ p.sc) && overlaps q.addr q.words p.addr p.touched)

/-! ### Declared tiles (R96) -/

def destBit (s : State) (n sc t : Nat) : Bool :=
  let a := niReg n (Off.NI_DEST_SC7_LO + 2 * (7 - sc))
  if t < 32 then regBit s a t else regBit s (a + 1) (t - 32)

/-- R96: a strict-class packet to an undeclared tile is counted, flagged and logged, and carried. -/
def noteUndeclared (s : State) (n : Nat) (p : Pkt) : State :=
  if metered n p.sc && (destTiles p).any (fun t => !destBit s n p.sc t) then
    let a := niReg n Off.NI_RSV_ERR
    let s1 := incSat s (niReg n Off.NI_HI_UNDECL_CNT)
    let s2 := loseAtRise s a 2 n (raiseBit s1 n .rsv a 0 2 true)
    if rateOk s (s.ni n).undeclFc fcOf1s then
      modNi (logNi s2 n EvC.SC_UNDECL []) n (fun x => { x with undeclFc := some s.fc })
    else s2
  else s

/-! ### Spray (R71, R72) -/

def sprayCell (s : State) (n : Nat) (p : Pkt) : State × Pkt :=
  let t := n / 7
  if p.opc = Opc.CELL && n % 7 ≤ 3 && spraying s t then
    let d := nodeTile p.dst
    let el := eligibleTiles s t d
    let x := s.ni n
    let seed := getFld s (niReg n Off.NI_SPRAY_SEED) 0 23
    let i := if el.isEmpty then d else el.getD (Config.sprayPick seed x.sprayN % el.length) d
    (s.setNi n { x with sprayN := x.sprayN + 1 }, { p with arg := cellArg p.handle p.seq i true })
  else if p.opc = Opc.CELL then (s, { p with arg := cellArg p.handle 0 0 false })
  else (s, p)

/-! ### Unreachable destinations (R67) -/

/-- R67: the NI answers its own RSVREQ as RSVREF. -/
def refHere (s : State) (n d : Nat) : State :=
  match (s.ni n).rsv with
  | none => s
  | some r => if r.dst = d then advance (modNi s n (fun x => { x with rsv := none })) n else s

def unreachable (s : State) (n : Nat) (ch : Chan) (p : Pkt) : State :=
  let s1 := if n % 7 = 5 then s else incSat s (niReg n Off.NI_UNREACH_CNT)
  if n % 7 = 5 then
    (if p.opc = Opc.WR then incFld s1 (evlReg Off.EVL_MSI_CNT) 18 18 else s1)
  else if p.opc = Opc.RSVREQ then refHere s1 n p.dst
  else match ch with
    | .oreq => if isAccess p.opc then abortReq s1 n p St.ABORTED else s1
    | .cpo => if p.opc = Opc.CELL then
        modNi (cellRef s1 n St.ABORTED p) n
          (fun x => { x with handles := x.handles.filter (fun h => decide (h.dst ≠ p.dst)) })
      else cellRef s1 n St.ABORTED p
    | _ => s1

/-- R67, R112: the mask of a CELLMC is cut to the tiles that can be reached, once more as it is injected where the map
has changed since it was admitted (DEDUCED, log entry 39). -/
def cutCopy (s : State) (t : Nat) (p : Pkt) : Pkt :=
  if p.opc = Opc.CELLMC then { p with mask := liveMask s t p.mask } else p
/-- R67: a candidate fits to the packet's tile, or to a tile that is left of its mask. -/
def packetReachable (s : State) (t : Nat) (p : Pkt) : Bool :=
  if p.opc = Opc.CELLMC then decide (liveMask s t p.mask ≠ 0) else reachable s t (nodeTile p.dst)

/-! ### One head -/

def markWait (x : Ni) (id : Nat) (ch : Chan) (f : Staged → Staged) : Ni :=
  let rec go : List Staged → List Staged
    | [] => []
    | e :: es => if e.ch = ch ∧ e.pkt.id = id then f e :: es else e :: go es
  { x with stage := go x.stage }

/-- The packet enters the router's local input port. -/
def enterRouter (s0 : State) (n : Nat) (p : Pkt) (c : Cnt) : State :=
  let t := n / 7
  let s := stirTile s0 t 1
  let s1 := setCnt { s with nextId := s.nextId + 1 } t (16 + n % 7) c
  modRt s1 t (fun r => { r with inq := r.inq ++
    [{ pkt := { p with key := s.nextId }, inp := 16 + n % 7, vc := 0, arrived := p.flits }] })

/-- R278: an NI in the safe state answers a waiting head without injecting it. -/
def refuseHead (s : State) (n : Nat) (ch : Chan) (p : Pkt) : State :=
  if ch = .cpo then cellRef s n St.ABORTED p
  else if isAccess p.opc then abortReq s n p St.ABORTED else s

/-- R90: the head waits at stage 2 or 3 and holds its channel; the NI's own packets hold none. -/
def holdHead (s : State) (n : Nat) (e : Staged) : State :=
  if e.ch = .own || e.waits then s
  else modNi s n (fun y => markWait y e.pkt.id e.ch (fun g => { g with waits := true }))

/-- The slots of the local input port that a head takes; none while the port is stopped (R61, R257). -/
def localSlots (s : State) (n : Nat) (p : Pkt) : Option Cnt :=
  if portStopped s (n / 7) (16 + n % 7) then none
  else takeSlots (cntOf s (n / 7) (16 + n % 7)) (sc5Rsv s (n / 7)) (vcKey (vnOf p.opc) 0) p.flits p.sc 0

/-- R79, R81 to R83, R88: the NI's own packets wait in one queue for each VN and class, and those that a route
change holds let the others pass. -/
def ownFronts (s : State) (t : Nat) : List Nat → List Staged → List Staged
  | _, [] => []
  | seen, e :: es =>
    let k := 8 * vnOf e.pkt.opc + e.pkt.sc
    if e.ch ≠ .own || heldNow s t e.pkt || decide (k ∈ seen) then ownFronts s t seen es
    else e :: ownFronts s t (k :: seen) es
/-- A head that stages 2 and 3 let through, or end. -/
def mayGo (s : State) (n : Nat) (p : Pkt) : Bool :=
  !packetReachable s (n / 7) p ||
    (!clsHeld (s.ni n) p && (localSlots s n p).isSome && !(isPunt s n p && decide (puntLevel s n = 0)) && tokensOk s n p)
/-- The head that a channel tries: its first, and among the NI's own packets the first that may go. A request that waits
for the response of an earlier one does not stand in that one's way (R145). -/
def nextHead (s : State) (n : Nat) (ch : Chan) : Option Staged :=
  if ch = .own then
    let q := ownFronts s (n / 7) [] (s.ni n).stage
    match q.find? (fun e => mayGo s n e.pkt) with
    | some e => some e
    | none => q.head?
  else
    let q := (s.ni n).stage.filter (fun e => decide (e.ch = ch))
    match q.head? with
    | none => none
    | some e =>
      if clsHeld (s.ni n) e.pkt then
        some ((q.find? (fun f => decide (f.pkt.id < e.pkt.id) && !clsHeld (s.ni n) f.pkt)).getD e)
      else some e

/-- R115: a CELLMC that is injected debits one credit at each destination, which is then to be refilled. -/
def spendCredits (s : State) (n : Nat) (p : Pkt) (x : Ni) (e : Staged) : Ni :=
  if p.opc = Opc.CELLMC then
    let ds := e.debts.filter (fun d => p.mask.testBit (d / 7))
    let y := ds.foldl (fun z d => setCredit z d (credit z d - 1)) x
    { y with refill := y.refill.filter (fun q => !(q.1 ∈ ds) && decide (credit y q.1 < standOf s n)) ++ ds.map (fun d => (d, p.sc)) }
  else x
/-- R112: a CELLMC that has lost a tile is counted once. -/
def countCut (s : State) (n : Nat) (p : Pkt) (e : Staged) : State :=
  if !e.cut && decide (p.mask ≠ e.pkt.mask) then incSat s (niReg n Off.NI_UNREACH_CNT) else s

/-- R47: a head of a channel is tried at stages 2 and 3. In Profile L the attempt says that the packet's tail has
crossed (R93), so the packet is not split. -/
def injectOne (s : State) (n : Nat) (ch : Chan) : State :=
  let x := s.ni n
  let t := n / 7
  match nextHead s n ch with
  | none => s
  | some e =>
    let rest := match takeFirst (fun g => decide (g = e)) x.stage with
      | none => x.stage
      | some (_, l) => l
    let p0 := cutCopy s t e.pkt
    if refusing s n && decide (ch = .oreq ∨ ch = .cpo) then refuseHead (s.setNi n (giveBack { x with stage := rest } e)) n ch p0
    else if routerOut s t || heldNow s t p0 || refusing s n then holdHead s n e
    else if !packetReachable s t p0 then unreachable (s.setNi n { x with stage := rest }) n ch p0
    else if clsHeld x p0 then
      (if e.waitedCls then holdHead s n e
       else incWrap (modNi (holdHead s n e) n (fun y => markWait y p0.id ch (fun g => { g with waitedCls := true })))
         (niReg n Off.NI_XCLS_WAIT_CNT))
    else
      let late := x.openP.any (fun q => decide (q.2.id = p0.id ∧ q.1 = ch))
      let lat := decide (profile s t = 1)
      let p := { p0 with split := late && !lat }
      match localSlots s n p with
      | none => holdHead s n e
      | some c =>
        let punt := isPunt s n p
        if punt && decide (puntLevel s n = 0) then
          (if e.waitedPunt then holdHead s n e
           else incSat (modNi (holdHead s n e) n (fun y => markWait y p.id ch (fun g => { g with waitedPunt := true })))
             (niReg n Off.NI_PUNT_WAIT_CNT))
        else if !tokensOk s n p then holdHead s n e
        else
          let opn := if late && lat then x.openP.filter (fun q => decide (q.1 ≠ ch)) else x.openP
          let y := spendCredits s n p { x with stage := rest, openP := opn } e
          let s1 := debitTokens (countCut (s.setNi n y) n p e) n p
          let s2 := if punt then
              incWrap (setFld s1 (niReg n Off.NI_PUNT_LEVEL) 0 8 (puntLevel s n - 1)) (niReg n Off.NI_PUNT_CNT)
            else s1
          let s3 := noteUndeclared s2 n p
          let s4 := if n % 7 = 5 then s3 else addWrap s3 (niReg n (Off.NI_TX_FLIT p.sc)) p.flits
          let (s5, q) := sprayCell s4 n p
          if p.opc = Opc.CELLMC then advance (enterRouter s5 n q c) n else enterRouter s5 n q c

end Sys2Proof.Machine
end

