-- ==== Sys2Proof/Machine/MemOps.lean ====
section
/-!
DEFINITION. Words of tile memory and of the Opcon memory: reads with their check bits (R337, R339),
stores and the reservations they end (R151, R152), poison (R340), answers to whoever asked (R136, R142).
-/

namespace Sys2Proof.Machine

/-! ### Poison of words (R337) -/

def poisonAdd (l : List Nat) (a : Nat) : List Nat :=
  match l with
  | [] => [a]
  | b :: bs => if a < b then a :: b :: bs else if a = b then b :: bs else b :: poisonAdd bs a
def setPoison (s : State) (a : Nat) (b : Bool) : State :=
  { s with poison := if b then poisonAdd s.poison a else s.poison.filter (fun x => decide (x ≠ a)) }
def isPoison (s : State) (a : Nat) : Bool := a ∈ s.poison

/-- A value that the manual leaves open where the machine goes on (log entry 4). -/
def freeW (s : State) : W × State := (Config.freeWord s.freeN, { s with freeN := s.freeN + 1 })

/-! ### Errors of a word (R337, R339) -/

def bankOf (off : Nat) : Nat := off / 16384
def rowOfWord (off : Nat) : Nat := off / 128 % 128

/-- R333, R339: one error at `key` for a one-entry tracker with COUNT at [lo + len − 1 : lo] of `w`;
answers the new word and whether COUNT reached the threshold. -/
def trackOne (w : W) (keyLen cntLen key th : Nat) : W × Bool :=
  let cnt := w.fld keyLen cntLen
  let same := w.fld 0 keyLen = key && 0 < cnt
  let k := if same then w.fld 0 keyLen else if cnt ≤ 1 then key else w.fld 0 keyLen
  let c := if same then cnt + 1 else if cnt ≤ 1 then 1 else cnt - 1
  if th ≤ c then (W.at 0 keyLen k, true) else (W.at 0 keyLen k ||| W.at keyLen cntLen c, false)

/-- R339: firmware is to migrate a row. -/
def askRow (s : State) (t b row : Nat) : State :=
  modTmc s t (fun m => if m.rowDue.contains (b, row) then m else { m with rowDue := m.rowDue ++ [(b, row)] })
/-- R339: an error in a row of tile t. At the threshold the row's migration is due. -/
def trackRow (s : State) (t b row : Nat) : State :=
  let a := tmemReg t Off.TMEM_ROW_TRK
  let key := b + 8 * row
  let (w, hit) := trackOne (s.reg a) 10 8 key (getFld s (tmemReg t Off.TMEM_ECC_CFG) 0 8)
  let s1 := s.setReg a w
  if hit then askRow (logTile s1 t EvC.ROW_CE [W.at 0 10 key]) t b row else s1

/-- R337: a corrected word. -/
def noteCe (s : State) (t off : Nat) : State :=
  trackRow (incWrap s (tmemReg t Off.TMEM_CE_CNT)) t (bankOf off) (rowOfWord off)
/-- R337, R339: an uncorrectable word, whose row is to be migrated at once. -/
def noteUe (s : State) (t off : Nat) : State :=
  let s1 := (incSat s (tmemReg t Off.TMEM_UE_CNT)).setReg (tmemReg t Off.TMEM_UE_ADDR) (natW (tmemAddr t off))
  askRow (trackRow (logTile s1 t EvC.TMEM_UE []) t (bankOf off) (rowOfWord off)) t (bankOf off) (rowOfWord off)

/-- A word of tile memory is read; the check bits show `e`. `none` is an uncorrectable word. -/
def tmemRead (s : State) (t off : Nat) (e : MemErr) : Option W × State :=
  let a := tmemAddr t off
  if isPoison s a then (none, noteUe s t off)
  else match e with
    | .clean => (some (s.word a), s)
    | .ce => (some (s.word a), noteCe s t off)
    | .ue => (none, noteUe (setPoison s a true) t off)

/-- Which of k words read together shows the error of the read: open, where there is more than one (log entry 4). -/
def errAt (s : State) (e : MemErr) (k : Nat) : Nat × State :=
  if e = .clean ∨ k ≤ 1 then (0, s) else ((freeW s).1.toNat % k, (freeW s).2)
/-- Words of tile memory from `off` on; the one `j` words further shows `e`. For each word, whether it was good. -/
def tmemReadsAt (s : State) (t off : Nat) (e : MemErr) (j : Nat) : Nat → List (Option W) × State
  | 0 => ([], s)
  | k + 1 =>
    let (v, s1) := tmemRead s t off (if j = 0 then e else .clean)
    let (vs, s2) := tmemReadsAt s1 t (off + 1) (if j = 0 then .clean else e) (j - 1) k
    (v :: vs, s2)
def tmemReads (s : State) (t off : Nat) (e : MemErr) (k : Nat) : List (Option W) × State :=
  let (j, s1) := errAt s e k
  tmemReadsAt s1 t off e j k

/-! ### Stores (R145, R152) -/

/-- R152: a store to the line of `a` by node `who` ends the reservations of every other agent on it. -/
def storeEnds (s : State) (t off who : Nat) : State :=
  let line := tmemAddr t off / 16 * 16
  modTmc s t (fun m => { m with resv := m.resv.filter (fun r => decide (r.1 = who) || decide (r.2 ≠ line)) })

/-- One word stored by node `who`. -/
def tmemStore (s : State) (t off who : Nat) (v : W) (poi : Bool) : State :=
  storeEnds (setPoison (s.setWord (tmemAddr t off) v) (tmemAddr t off) poi) t off who

/-- Words stored from `off` on; `i` is the payload index of the first. -/
def tmemStores (s : State) (t off who : Nat) (p : Pkt) : Nat → Nat → State
  | _, 0 => s
  | i, k + 1 => tmemStores (tmemStore s t (off + i) who (wordAt p.words i) (p.wordPoi i)) t off who p (i + 1) k

/-! ### Opcon memory (R131, R133) -/

def opconRead (s : State) (off : Nat) (rom : Bool) : W :=
  if rom then Config.bootRom off else s.word (sramAddr off)
def opconReads (s : State) (r : Region) (k : Nat) : List W :=
  match r with
  | .rom off => (List.range k).map (fun i => opconRead s (off + i) true)
  | .sram off => (List.range k).map (fun i => opconRead s (off + i) false)
  | _ => []
def sramStores (s : State) (off : Nat) (ws : List W) : Nat → Nat → State
  | _, 0 => s
  | i, k + 1 => sramStores (s.setWord (sramAddr (off + i)) (wordAt ws i)) off ws (i + 1) k

/-- The Opcon memory serves a request: status, data and the state. A miss here was decided at the target. -/
def opconServe (s : State) (p : Pkt) : Nat × List W × State :=
  let miss := (St.DECERR, zeroData p,
    decodeMiss s p.src (decide (p.opc ≠ Opc.RD)) .target p.addr)
  let fail := (St.FAIL, ([] : List W), s)
  match regionOf s p.addr with
  | .rom off =>
    if p.opc = Opc.RD && decide (off + p.cnt ≤ romWords) then (St.OK, opconReads s (.rom off) p.cnt, s)
    else if p.isStcond then fail
    else miss
  | .sram off =>
    if sramWords < off + p.touched then miss
    else if p.opc = Opc.RD then (St.OK, opconReads s (.sram off) p.cnt, s)
    else if p.isStcond then fail
    else if p.opc = Opc.WR then (St.OK, [], sramStores s off p.words 0 p.cnt)
    else miss
  | _ => miss

/-! ### Answers (R136, R142) -/

/-- R361: answers leave a register port in the order of its requests. -/
def answered : List PortReq → List (Bool × Nat × List W) × List PortReq
  | [] => ([], [])
  | q :: qs => match q.ans with
    | none => ([], q :: qs)
    | some (st, data) =>
      let (out, rest) := answered qs
      ((q.wr, st, data) :: out, rest)
/-- R132, R362: a read answered DECERR carries zero data, and a write's answer is one beat of zero (R360); the HRP has no
status. -/
def flushPorts (s : State) : State :=
  let zero (e : Bool × Nat × List W) : List W :=
    if e.1 then [0] else if e.2.1 = St.DECERR then e.2.2.map (fun _ => 0) else e.2.2
  let (ho, hq) := answered s.hrpQ
  let (dO, dq) := answered s.dbgQ
  { s with hrpQ := hq, dbgQ := dq, hrpOut := s.hrpOut ++ ho.map (fun e => (e.1, zero e)),
           dbgOut := s.dbgOut ++ dO.map (fun e => (e.2.1, zero e)) }

/-- The answer of a request on the memory path reaches the master that made it. -/
def answerPort (s : State) (m : Master) (id st : Nat) (data : List W) : State :=
  let f (q : PortReq) : PortReq :=
    if q.id = id then { q with ans := some (if q.bad then St.DECERR else st, data) } else q
  match m with
  | .hrp => flushPorts { s with hrpQ := s.hrpQ.map f }
  | .dbg => flushPorts { s with dbgQ := s.dbgQ.map f }
  | .core c => if data.isEmpty then modCore s c.val (fun x => { x with acks := x.acks ++ [st] })
    else { s with coreOut := s.coreOut ++ [(c.val, st, data)] }

/-- A node that no agent has: an entry's store ends the reservations of every agent (R152). -/
def nobody : Nat := 2 ^ 23
def isEntry (r : TReq) : Bool := decide (r.via = .entry)
/-- R194: words of launches that have come to the head of the queue are stored. -/
def storeEntries (s : State) (t : Nat) : Nat → State
  | 0 => s
  | f + 1 => match (s.tmc t).q with
    | [] => s
    | r :: rest =>
      if isEntry r then
        storeEntries (tmemStore (modTmc s t (fun m => { m with q := rest })) t (r.pkt.addr % 0x20000) nobody
          (wordAt r.pkt.words 0) false) t f
      else s
/-- R194: a word that a launch writes is stored after every request that has come before it. -/
def launchStore (s : State) (t off : Nat) (v : W) : State :=
  if (s.tmc t).q.isEmpty then tmemStore s t off nobody v false
  else modTmc s t (fun m => { m with q := m.q ++
    [{ pkt := { opc := Opc.WR, cnt := 1, arg := natW (tmemAddr t off), words := [v] }, via := .entry }] })

/-- The request at the head of the queue has been served; words of launches behind it follow. -/
def popReq (s : State) (t : Nat) : State :=
  storeEntries (modTmc s t (fun m => { m with q := m.q.tail, fopDone := 0, fopOld := [] })) t (s.tmc t).q.length

/-- The controller of tile t answers the request at the head of its queue. The entry is freed with the answer on
the memory path, and once the response has been read for injection on the data fabric. -/
def tmemAnswer (s : State) (t : Nat) (r : TReq) (st : Nat) (data : List W) (poi : Nat) : State :=
  let s1 := popReq s t
  match r.via with
  | .entry => s1
  | .fabric => stageTmem s1 (niOf t 5) (mkResp r.pkt (nodeTP s t 5) st data poi)
  | .mem m => answerPort s1 m r.pkt.id st data

/-- The offset of a request within the tile's memory. -/
def offOf (p : Pkt) : Nat := p.addr % 0x20000

/-- Every flit that carries one of the words that were bad. -/
def poiMask (vs : List (Option W)) : Nat :=
  (List.range vs.length).foldl (fun m i =>
    match vs.getD i none with
    | some _ => m
    | none => if m.testBit (flitOfWord i) then m else m + 2 ^ flitOfWord i) 0

/-- The words of a read as sent: an uncorrectable word has an open value. -/
def sentWords (s : State) : List (Option W) → List W × State
  | [] => ([], s)
  | some v :: vs =>
    let (ws, s1) := sentWords s vs
    (v :: ws, s1)
  | none :: vs =>
    let (v, s1) := freeW s
    let (ws, s2) := sentWords s1 vs
    (v :: ws, s2)

end Sys2Proof.Machine
end

