-- ==== Sys2Proof/Machine/NiUnit.lean ====
section
/-!
DEFINITION. The commands of a unit at its attach interface and of its NI: packets presented on OREQ_,
IRSP_ and CPO_, barriers, injection, the unit's reset, drain, and what is presented to the unit.
-/

namespace Sys2Proof.Machine

/-! ### OREQ_ (R44 to R46, R148, R151, R158) -/

def execRd (n : NiId) (h : Head) (s : State) : Res := ok (acceptOreq s n.idx h)
def execLdres (n : NiId) (h : Head) (s : State) : Res := ok (acceptOreq s n.idx h)
def execWr (n : NiId) (h : Head) (s : State) : Res := ok (acceptOreq s n.idx h)
def execStcond (n : NiId) (h : Head) (s : State) : Res := ok (acceptOreq s n.idx h)
def execFop (n : NiId) (h : Head) (s : State) : Res := ok (acceptOreq s n.idx h)
def execLkacq (n : NiId) (h : Head) (s : State) : Res := ok (acceptOreq s n.idx h)
def execLkrnw (n : NiId) (h : Head) (s : State) : Res := ok (acceptOreq s n.idx h)
def execLkrel (n : NiId) (h : Head) (s : State) : Res := ok (acceptOreq s n.idx h)
def execBarAgent (n : NiId) (h : Head) (s : State) : Res := ok (acceptOreq s n.idx h)
def execBarTile (n : NiId) (h : Head) (s : State) : Res := ok (acceptOreq s n.idx h)
def execBarSys (n : NiId) (h : Head) (s : State) : Res := ok (acceptOreq s n.idx h)
def execMsg (n : NiId) (h : Head) (s : State) : Res := ok (acceptOreq s n.idx h)

def execStoreBufferDrain (n : NiId) (s : State) : Res := ok (drainOne s n.idx)

/-! ### Barriers (R148 to R150) -/

/-- An access is performed: its response has been received, and for scope SYS its register write is
applied. -/
def performed (s : State) (scope id : Nat) : Bool :=
  !(s.nis.any (fun e => e.2.outst.any (fun q => decide (q.id = id)))) &&
  !(coreMarks s 0).contains id && !(coreMarks s 1).contains id &&
  (scope ≠ 2 || !(matrixMarks s).contains id)

def barDone (s : State) (b : Bar) : Bool := b.marks.all (performed s b.scope)

/-- The barrier ends with BARACK, which a dark tile presents once it wakes (R302); OREQ_ opens again. -/
def endBar (s : State) (n : Nat) (b : Bar) (st : Nat) : State :=
  let s1 := (modNi s n (fun x => { x with bar := none })).setReg (niReg n Off.NI_BAR_STAT) 0
  let s2 := if b.scope = 2 then
      setFld s1 (mtxReg Off.MTX_BAR_STAT) 0 9 (getFld s1 (mtxReg Off.MTX_BAR_STAT) 0 9 - 1) else s1
  let p : Pkt :=
    { opc := Opc.BARACK, dst := nodeOf s n, src := nodeOf s n, sc := b.sc, tag := b.tag, arg := natW st }
  if tileDark s (n / 7) then modNi s2 n (fun x => { x with barack := some p }) else present s2 n .orsp p

def barrierOp (s : State) (n : Nat) : State :=
  match (s.ni n).bar with
  | none => s
  | some b => if barDone s b then endBar s n b St.OK else s

def barTimeoutOp (s : State) (n : Nat) : State :=
  match (s.ni n).bar with
  | none => s
  | some b => if barDone s b then s
    else logNi (incSat (endBar s n b St.ABORTED) (mtxReg Off.MTX_BAR_TO_CNT)) n EvC.BAR_TIMEOUT [W.at 1 2 b.scope]

/-! ### IRSP_ (R37, R40, R41) -/

def findInb (x : Ni) (src tag : Nat) : Option (Inb × List Inb) :=
  takeFirst (fun q => decide (q.src = src ∧ q.tag = tag)) x.inb

/-- R40: a response of the unit fails a check; the requester gets the owed response with status BADPKT. -/
def badIrsp (s : State) (n : Nat) (h : Head) : State :=
  let s1 := raiseErr s n ErrB.BADPKT h.opcN h.tag.toNat ErrCh.IRSP
  match findInb (s.ni n) (h.w0.fld 0 23) h.tag.toNat with
  | none => s1
  | some (q, rest) => owedResp (modNi s1 n (fun y => { y with inb := rest })) n q St.BADPKT

/-- Stage 0 of R47 on IRSP_. A response travels at the class of its request. One that matches no inbound request that
the unit owes is carried to its DST at its own class; R37 does not speak of it (DESIGN CHOICE, log entry 37). -/
def readIrsp (s : State) (n : Nat) (h : Head) : State :=
  let x := s.ni n
  if !headOk s .irsp h then badIrsp s n h
  else
    let (id, sc, rest) := match findInb x (h.w0.fld 0 23) h.tag.toNat with
      | some (q, r) => (q.id, q.sc, r)
      | none => (0, clampSc (niHiSc s n) (profile s (n / 7)) h.sc.toNat, x.inb)
    let p := headPkt id (nodeOf s n) sc h
    let s1 := noteOpen s n .irsp (tailLate h) p
    modNi s1 n (fun y => { y with inb := rest, stage := y.stage ++ [{ ch := .irsp, pkt := p }] })

/-- IRSP_READY at a packet boundary. -/
def irspOpen (s : State) (n : Nat) : Bool := !unitShut s n && !chanHeld (s.ni n) .irsp && !unread (s.ni n) .irsp
/-- A unit gives a response. -/
def acceptIrsp (s0 : State) (n : Nat) (h : Head) : State :=
  let s := stirTile s0 (n / 7) 2
  if !(irspOpen s n && injectRoom (s.ni n) n .irsp h) then s
  else if isOrphan h then orphanOp s n .irsp
  else if readsLater s n h then putFifo s n .irsp h
  else readIrsp s n h

def execRdresp (n : NiId) (h : Head) (s : State) : Res := ok (acceptIrsp s n.idx h)
def execWrack (n : NiId) (h : Head) (s : State) : Res := ok (acceptIrsp s n.idx h)
def execFopresp (n : NiId) (h : Head) (s : State) : Res := ok (acceptIrsp s n.idx h)
def execLkresp (n : NiId) (h : Head) (s : State) : Res := ok (acceptIrsp s n.idx h)

/-! ### CPO_ (R43, R112, R115) -/

/-- The NI can read a cell head: no cell waits for admission. -/
def cpoSpace (s : State) (n : Nat) : Bool :=
  let x := s.ni n
  !unitShut s n && !chanHeld x .cpo && x.cell.isNone
/-- CPO_READY at a packet boundary. -/
def cpoOpen (s : State) (n : Nat) : Bool := niEn s n && !unread (s.ni n) .cpo && cpoSpace s n

/-- The NI takes this packet on CPO_. -/
def cpoTakes (s : State) (n : Nat) (h : Head) : Bool := cpoOpen s n && injectRoom (s.ni n) n .cpo h

/-- R40, R43: a cell head that fails a check is answered CELLREF with BADPKT. -/
def badCell (s : State) (n : Nat) (h : Head) : State :=
  cellRef (raiseErr s n ErrB.BADPKT h.opcN h.tag.toNat ErrCh.CPO) n St.BADPKT
    (headPkt s.nextId (nodeOf s n) (clampSc (niHiSc s n) (profile s (n / 7)) h.sc.toNat) h)

/-- Stage 0 of R47 on CPO_. R112 has a CELLMC offered with SRC = 0 answered BADPKT and names no error bit; the model
sets NI_ERR.BADPKT as for any head that is answered so (DESIGN CHOICE, log entry 37). -/
def readCell (s : State) (n : Nat) (h : Head) : State :=
  let p0 := headPkt s.nextId (nodeOf s n) (clampSc (niHiSc s n) (profile s (n / 7)) h.sc.toNat) h
  if !headOk s .cpo h || (h.opcN = Opc.CELLMC && !regBit s (niReg n Off.NI_MC_CFG) 0) then badCell s n h
  else if refusing s n then cellRef s n St.ABORTED p0
  else
    let s1 := noteOpen { s with nextId := s.nextId + 1 } n .cpo (tailLate h) p0
    advance (modNi s1 n (fun x => { x with cell := some { pkt := p0, since := s.fc } })) n

/-- A cell head is presented. -/
def acceptCell (s0 : State) (n : Nat) (h : Head) : State :=
  let s := stirTile s0 (n / 7) 2
  if !cpoTakes s n h then s
  else if isOrphan h then orphanOp s n .cpo
  else if readsLater s n h then putFifo s n .cpo h
  else readCell s n h

def execCell (n : NiId) (h : Head) (s : State) : Res := ok (acceptCell s n.idx h)
def execCellmc (n : NiId) (h : Head) (s : State) : Res := ok (acceptCell s n.idx h)

/-! ### Malformed and slow packets (R40, R49) -/

def execOrphanFlit (n : NiId) (ch : Chan) (s : State) : Res := ok (orphanOp s n.idx ch)

def openOf (x : Ni) (ch : Chan) : Option Pkt := (x.openP.find? (fun q => decide (q.1 = ch))).map (fun q => q.2)
/-- R40: the packet of which a later flit fails: the open one, or the last of several flits while its head still
stands in the NI. -/
def failing (x : Ni) (ch : Chan) : Option Pkt :=
  match openOf x ch with
  | some p => some p
  | none => (x.lastP.find? (fun q => decide (q.1 = ch) && notInjected x q.2.id)).map (fun q => q.2)

/-- The head that stands unread in the inject FIFO of a channel, and the other channels'. -/
def firstUnread (x : Ni) (ch : Chan) : Option (Head × List (Chan × Head)) :=
  match takeFirst (fun q => decide (q.1 = ch)) x.fifo with
  | none => none
  | some (q, rest) => some (q.2, rest)

/-- R40, R93: a packet of which a later flit fails before its head is read. -/
def badUnread (s : State) (n : Nat) (ch : Chan) (h : Head) : State :=
  match ch with
  | .oreq => badOreq (raiseErr s n ErrB.BADPKT h.opcN h.tag.toNat ErrCh.OREQ) n h St.BADPKT
  | .irsp => badIrsp s n h
  | .cpo => badCell s n h
  | .own => s

/-- A later flit of a packet fails: the packet is discarded while its head still stands in the NI, and ended by
KILL otherwise. -/
def execSequenceFail (n : NiId) (ch : Chan) (s : State) : Res :=
  match firstUnread (s.ni n.idx) ch with
  | some (h, rest) => ok (badUnread (modNi s n.idx (fun x => { x with fifo := rest })) n.idx ch h)
  | none => match failing (s.ni n.idx) ch with
  | none => ok s
  | some p =>
    let s1 := raiseErr s n.idx ErrB.BADPKT p.opc p.tag (chanCode ch)
    if notInjected (s.ni n.idx) p.id then
      ok (afterKill (modNi s1 n.idx (fun x =>
        { removeHead x p.id with openP := x.openP.filter (fun q => decide (q.1 ≠ ch)) })) n.idx ch p St.BADPKT)
    else ok (killOpen s1 n.idx ch p St.BADPKT)

/-- R93: the tail of the head that stands first in the inject FIFO of a channel has crossed, and the head is read where
the channel lets it. -/
def readUnread (s : State) (n : Nat) (ch : Chan) (h : Head) (rest : List (Chan × Head)) : State :=
  let s1 := modNi s n (fun x => { x with fifo := rest })
  let w : Head := { h with tailIn := true }
  match ch with
  | .oreq => if oreqSpace s n && (!grdHolds s n || passesHold s n h.opcN h.arga h.cntN) then readOreq s1 n w else s
  | .irsp => if unitShut s n || chanHeld (s.ni n) .irsp then s else readIrsp s1 n w
  | .cpo => if cpoSpace s n then readCell s1 n w else s
  | .own => s

/-- R47: the next head of a channel is tried at stages 2 and 3; where none has been read, the first that stands unread
is read (log entry 37). -/
def execNiInject (n : NiId) (ch : Chan) (s : State) : Res :=
  match nextHead s n.idx ch, firstUnread (s.ni n.idx) ch with
  | none, some (h, rest) => ok (readUnread s n.idx ch h rest)
  | _, _ => ok (injectOne s n.idx ch)

def execPktTo (n : NiId) (ch : Chan) (s : State) : Res :=
  match openOf (s.ni n.idx) ch with
  | none => ok s
  | some p => when_ (!notInjected (s.ni n.idx) p.id && inFlight s p) s
      (killOpen (raiseErr s n.idx ErrB.PKT_TO p.opc p.tag (chanCode ch)) n.idx ch p St.ABORTED)

/-! ### Reset of the unit (R51, R152, R157) -/

/-- R157: a reset of the agent increments its epoch; R152: it ends its reservation. -/
def bumpEpoch (s : State) (n : Nat) : State :=
  setFld (loseRecord s n) (niReg n Off.NI_EPOCH) 0 8 (getFld s (niReg n Off.NI_EPOCH) 0 8 + 1)

def unitResetOp (s : State) (n : Nat) : State :=
  if (s.ni n).urst then s
  else
    let s1 := loseDelivered (bumpEpoch (unitGone (modNi s n (fun x => { x with urst := true })) n) n) n
    modNi (match (s1.ni n).bar with
      | none => s1
      | some b => if b.scope = 2 then
          setFld s1 (mtxReg Off.MTX_BAR_STAT) 0 9 (getFld s1 (mtxReg Off.MTX_BAR_STAT) 0 9 - 1) else s1)
      n (fun x => { x with bar := none, barack := none }) |>.setReg (niReg n Off.NI_BAR_STAT) 0

def execUnitReset (n : NiId) (s : State) : Res := ok (unitResetOp s n.idx)

def execUnitResetRelease (n : NiId) (s : State) : Res :=
  when_ (s.ni n.idx).urst s (deliverHeld (modNi s n.idx (fun x => { x with urst := false })) n.idx)

/-! ### Requests reach the unit (R37, R48, R51, R52, R54) -/

def isUnitKind (p : Pkt) : Bool := isAccess p.opc || p.opc = Opc.MSG || p.opc = Opc.PHOLD

/-- An accepted request, MSG or PHOLD is presented on IREQ_. -/
def presentReq (s : State) (n : Nat) (p : Pkt) : State :=
  let s1 := present s n .ireq p
  if isAccess p.opc then
    modNi s1 n (fun x => { x with inb := x.inb ++ [{ src := p.src, tag := p.tag, opc := p.opc, sc := p.sc, id := p.id }] })
  else s1

/-- One packet for the unit at NI n is dealt with. R54 gives an NI with no populated unit an answer for requests only;
a MSG or PHOLD to it is dropped and not counted (DESIGN CHOICE, log entry 37). -/
def handleReq (s : State) (n : Nat) (p : Pkt) : State :=
  if n % 7 = 6 && (n / 7 = 0 || n / 7 = 63) && isAccess p.opc then
    let (st, data, s1) := opconServe s p
    stageOwn s1 n (mkResp p (nodeOf s n) st data 0)
  else if !populated s n then
    (if isAccess p.opc then
      stageOwn (decodeMiss s p.src (decide (p.opc ≠ Opc.RD)) .target p.addr) n
        (mkResp p (nodeOf s n) St.DECERR (zeroData p) 0)
     else s)
  else if (s.ni n).urst || !niEn s n then
    (if isAccess p.opc then abortInbound s n p else incSat s (niReg n Off.NI_DROP_CNT))
  else presentReq s n p

def rxCount (s : State) (n : Nat) (p : Pkt) : State :=
  if n % 7 = 5 then s else addWrap s (niReg n (Off.NI_RX_FLIT p.sc)) p.flits

/-- R50: a split packet is held until its tail has arrived. R302: in a dark tile X_VLD stays 0. -/
def ejectReady (s : State) (n : Nat) (p : Pkt) : Bool :=
  !p.killed && !tileDark s (n / 7) && !(p.split && (s.rt (n / 7)).trail.any (fun f => decide (f.pkt.key = p.key)))
/-- R70: p stands behind q in the eject FIFO and may not be delivered before it: both come from one source, in one VN
and class, and neither is sprayed or a CELLMC. -/
def keepsOrder (p : Pkt) : Bool := decide (p.opc ≠ Opc.CELLMC) && !(decide (p.opc = Opc.CELL) && p.spr)
def mustFollow (p q : Pkt) : Bool :=
  !q.killed && decide (q.src = p.src ∧ vnOf q.opc = vnOf p.opc ∧ q.sc = p.sc) && keepsOrder p && keepsOrder q
/-- The first packet of a list that satisfies `k` and need not follow one before it, and the others; `before` stand
before the list. -/
def takeOrdered (k : Pkt → Bool) : List Pkt → List Pkt → Option (Pkt × List Pkt)
  | _, [] => none
  | before, p :: ps =>
    if k p && !before.any (mustFollow p) then some (p, before ++ ps) else takeOrdered k (before ++ [p]) ps
/-- The first packet of a kind in the eject FIFO that may be taken. -/
def takeEject (s : State) (n : Nat) (k : Pkt → Bool) : Option (Pkt × State) :=
  match takeOrdered (fun p => k p && ejectReady s n p) [] (s.ni n).eject with
  | none => none
  | some (p, rest) => some (p, rxCount (modNi s n (fun x => { x with eject := rest })) n p)

/-- R202: crossing messages at NI(56, 6) are the extension bridge's. -/
def forBridge (n : Nat) (p : Pkt) : Bool := decide (n = 7 * 56 + 6) && decide (p.opc = Opc.MSG)

def execInboundRequest (n : NiId) (s : State) : Res :=
  match takeEject s n.idx (fun p => isUnitKind p && !forBridge n.idx p) with
  | none => ok s
  | some (p, s1) => ok (handleReq s1 n.idx p)

/-- R343: the event-log block absorbs the answer of its own write. -/
def absorbMsi (s : State) (p : Pkt) : State :=
  if p.arg = natW St.DECERR then incFld s (evlReg Off.EVL_MSI_CNT) 18 18 else s

def responseOp (s : State) (n : Nat) : State :=
  match takeEject s n (fun p => isResp p.opc && decide (p.tag < 256)) with
  | none => s
  | some (p, s1) =>
    if n % 7 = 5 then absorbMsi s1 p
    else if (s.ni n).urst || (s.ni n).expired && (findReq (s.ni n) p.tag).isSome then
      incSat (modNi s1 n (fun x => endReq x p.tag)) (niReg n Off.NI_DROP_CNT)
    else takeResponse s1 n p

/-! ### KILL at the destination NI (R50) -/

/-- The channel on which a packet would reach the unit (R24, R56). -/
def killCh (p : Pkt) : Nat := if isCell p.opc then ErrCh.CPI else if isResp p.opc then ErrCh.ORSP else ErrCh.IREQ

/-- A killed packet of which nothing has been presented. The reservation of a cell is freed while its handle is
granted; a copy's is the standing handle that it took. -/
def discardKilled (s : State) (n : Nat) (p : Pkt) : State :=
  let s1 := raiseErr (incSat s (niReg n Off.NI_KILL_RX_CNT)) n ErrB.KILL_RX p.opc p.tag (killCh p)
  if p.opc = Opc.CELL then
    (match findGrant (s.ni n) p.src p.sc p.handle with
     | none => s1
     | some g => if g.waiting.isSome then s1
       else takeBack (modNi s1 n (fun x => resolveGrant x p.src p.sc p.handle)) n p.handle)
  else if p.opc = Opc.CELLMC then dropCopy s1 n p.src
  else s1

/-- The handle of a cell that has been presented: a copy carries it in W0 (R116). -/
def handleOf (p : Pkt) : Nat := if p.opc = Opc.CELLMC then p.dst else p.handle

/-- KILL behind what has been presented already. -/
def presentKill (s : State) (n : Nat) (p : Pkt) : State :=
  let s1 := raiseErr (incSat s (niReg n Off.NI_KILL_RX_CNT)) n ErrB.KILL_RX p.opc p.tag (killCh p)
  let ch : OutChan := if isCell p.opc then .cpi else if isResp p.opc then .orsp else .ireq
  let s2 := modNi s1 n (fun x => { x with out := x.out ++ [{ ch := ch, pkt := p, kill := true }] })
  match ch with
  | .cpi => if handleListed (s.ni n) (handleOf p) then s2 else takeBack s2 n (handleOf p)
  | .orsp => settle (modNi s2 n (fun x => endReq x p.tag)) n
  | .ireq => modNi s2 n (fun x => { x with inb := x.inb.filter (fun q => !(decide (q.src = p.src ∧ q.tag = p.tag))) })

/-- R50: a killed cell that waits in the reorder buffer. -/
def killedWait (x : Ni) : Option Pkt :=
  firstSome (fun g => match g.waiting with
    | some p => if p.killed then some p else none
    | none => none) x.grants
/-- The cell leaves its reorder slot, which its grant still holds. -/
def emptySlot (x : Ni) (p : Pkt) : Ni :=
  { x with grants := x.grants.map (fun g => if g.waiting = some p then { g with waiting := none } else g) }

/-- KILL acts on what the NI still holds: in the eject FIFO, then in the reorder buffer; then behind what it has
presented. -/
def execKill (n : NiId) (s : State) : Res :=
  match takeFirst (fun p => p.killed) (s.ni n.idx).eject, killedWait (s.ni n.idx), (s.ni n.idx).killPend with
  | some (p, rest), _, _ => ok (discardKilled (modNi s n.idx (fun x => { x with eject := rest })) n.idx p)
  | none, some p, _ => ok (discardKilled (modNi s n.idx (fun x => emptySlot x p)) n.idx p)
  | none, none, p :: ps => ok (presentKill (modNi s n.idx (fun x => { x with killPend := ps })) n.idx p)
  | none, none, [] => ok s

/-! ### Drain and enable (R52, R267) -/

/-- EN falls: what has reached the NI is committed to the unit and delivered. -/
def drainOp (s : State) (n : Nat) : State :=
  let mine := (s.ni n).eject.filter (fun p => isUnitKind p && !p.killed)
  let s1 := forEach (fun p st => match takeEject st n (fun q => decide (q = p)) with
    | none => st
    | some (q, st1) => handleReq st1 n q) mine s
  modNi (setBit s1 (niReg n Off.NI_CTRL) 0 false) n (fun x => { x with draining := true, drained := false, expired := false })

/-- EN rises: DRAINED clears, and the free list and the standing sets are emptied; the bridge publishes its handles anew
(R376). -/
def enableOp (s : State) (n : Nat) : State :=
  republish (modNi (setBit s (niReg n Off.NI_CTRL) 0 true) n (fun x =>
    { x with draining := false, drained := false, expired := false, free := [], runs := [], standing := [] })) n

/-- A write of NI_CTRL: EN drains or enables; the other bits take their values. -/
def writeNiCtrl (s : State) (n : Nat) (v : W) : State :=
  let was := niEn s n
  let s1 := if was && !v.bit 0 then drainOp s n else if !was && v.bit 0 then enableOp s n else s
  s1.setReg (niReg n Off.NI_CTRL) (W.at 0 4 (v.fld 0 4))


/-- R52: nothing of the unit's remains. A packet whose tail was late is complete when no part of it is in the network. -/
def nothingLeft (s : State) (n : Nat) : Bool :=
  let x := s.ni n
  x.fifo.isEmpty && x.outst.isEmpty && x.inb.isEmpty && x.oq.isEmpty && x.stage.isEmpty && x.cell.isNone &&
    x.bar.isNone && x.openP.all (fun q => !inFlight s q.2) &&
    !(x.eject.any (fun p => isUnitKind p || decide (p.opc = Opc.CELLMC))) && x.grants.isEmpty

/-- R52: DRAINED is set and UNIT_DRAINED logged with the counts of drops and aborts. -/
def setDrained (s : State) (n : Nat) : State :=
  logNi (modNi s n (fun x => { x with drained := true, draining := false })) n EvC.UNIT_DRAINED
    [s.reg (niReg n Off.NI_DROP_CNT), s.reg (niReg n Off.NI_ABORT_CNT)]

def execDrainEnd (n : NiId) (s : State) : Res :=
  when_ ((s.ni n.idx).draining && nothingLeft s n.idx) s (setDrained s n.idx)

def execDrainTimeout (n : NiId) (s : State) : Res :=
  when_ (s.ni n.idx).draining s
    (setDrained (modNi (unitGone s n.idx) n.idx (fun x => { x with expired := true })) n.idx)

/-! ### Writes of the NI's own registers that act (R85, R97, R113, R122) -/

/-- R113: the group's cache entry is dropped, with the lanes read for it. -/
def mcInvOp (s : State) (n : Nat) (v : W) : State :=
  let g := v.fld 0 14
  modNi s n (fun x =>
    { x with cache := if (cacheGet x g).isSome then Sparse.del x.cache (g % 256) else x.cache,
             lanes := x.lanes.filter (fun e => decide (e.1 % 4096 ≠ g / 4)) })

/-- R85: the generator restarts. -/
def seedOp (s : State) (n : Nat) (v : W) : State :=
  modNi (s.setReg (niReg n Off.NI_SPRAY_SEED) (W.at 0 23 (v.fld 0 23))) n (fun x => { x with sprayN := 0 })

/-! ### PHOLD at the slice (R122) -/

def execPhold (n : NiId) (s : State) : Res :=
  match takeEject s n.idx (fun p => decide (p.opc = Opc.PHOLD)) with
  | none => ok s
  | some (p, s1) => ok (handleReq s1 n.idx p)

/-! ### Tokens (R88, R125) -/

/-- R88: the strict buckets of NI n gain RATE, up to DEPTH. -/
def refillOne (s : State) (n sc : Nat) : State :=
  let w := s.reg (niReg n (Off.NI_TB_SC7 + (7 - sc)))
  setFld s (niReg n Off.NI_TB_LEVEL) (tbLo sc) 11 (min (tokens s n sc + w.fld 0 11) (w.fld 12 11))
def execTokenRefill (n : NiId) (s : State) : Res :=
  ok (refillOne (refillOne (refillOne s n.idx 7) n.idx 6) n.idx 5)

def execPuntToken (n : NiId) (s : State) : Res :=
  let d := getFld s (niReg n.idx Off.NI_PUNT_TB) 16 8
  ok (setFld s (niReg n.idx Off.NI_PUNT_LEVEL) 0 8 (min (puntLevel s n.idx + 1) d))

end Sys2Proof.Machine
end

