-- ==== Sys2Proof/Machine/Admission.lean ====
section
/-!
DEFINITION. The commands of admission and of cells at their destination: reservation messages, timeouts,
delivery, the reorder buffer, multicast copies, lateness (R73 to R75, R97 to R121, R336).
-/

namespace Sys2Proof.Machine

/-! ### Requests at the destination (R99, R114) -/

/-- R340: a poisoned reservation message is discarded. -/
def takeRsv (s : State) (n : Nat) (opc : Nat) (k : Pkt → Bool) : Option (Pkt × State) :=
  takeEject s n (fun p => decide (p.opc = opc) && k p)

def askedBy (p : Pkt) (standing : Bool) : Parked := { src := p.src, sc := p.sc, cnt := p.cnt, standing := standing }

def execRsvreq (n : NiId) (s : State) : Res :=
  match takeRsv s n.idx Opc.RSVREQ (fun p => decide (p.tag % 2 = 0)) with
  | none => ok s
  | some (p, s1) => ok (if p.poisoned then s1 else reqArrives s1 n.idx (askedBy p false))

def execRsvreqStanding (n : NiId) (s : State) : Res :=
  match takeRsv s n.idx Opc.RSVREQ (fun p => decide (p.tag % 2 = 1)) with
  | none => ok s
  | some (p, s1) => ok (if p.poisoned then s1 else reqArrives s1 n.idx (askedBy p true))

/-! ### Answers at the source (R98, R101) -/

def heldOf (p : Pkt) : List HeldH :=
  (List.range p.cnt).map (fun i =>
    { dst := p.src, sc := p.sc, handle := (p.arg.fld 0 16 + i) % 65536, slot := some ((p.arg.fld 16 8 + i) % 256),
      grant := (p.arg.fld 0 16, p.cnt) })

/-- A grant is returned at once. Of a standing one R117 has the standing credits go back, and does not speak of one that
no request awaits: the model returns the grant's own CNT and keeps the credit (DESIGN CHOICE, log entry 39). -/
def returnGrant (s : State) (n : Nat) (p : Pkt) : State :=
  if p.tag % 2 = 1 then sendStandRel s n p.src p.sc p.cnt else sendRel s n p.src p.sc (p.arg.fld 0 16) p.cnt

/-- The cell that waits has this DST and class. -/
def cellWants (x : Ni) (dst sc : Nat) : Bool :=
  match x.cell with
  | none => false
  | some w => decide (w.pkt.opc = Opc.CELL ∧ w.pkt.dst = dst ∧ w.pkt.sc = sc)

/-- R98, R101, R114: a grant that answers the outstanding request. R115 does not speak of a standing grant that comes after
the admission timeout has withdrawn its request; it is kept as credit (DESIGN CHOICE, log entry 39). -/
def acceptGrant (s : State) (n : Nat) (r : RsvOut) (p : Pkt) : State :=
  let s1 := modNi s n (fun x => { x with rsv := none })
  if p.tag % 2 = 1 then
    let d := nodeNi p.src
    modNi s1 n (fun x => setCredit x d (min (credit x d + p.cnt) (standOf s n)))
  else if r.withdrawn && !cellWants (s.ni n) p.src p.sc then returnGrant s1 n p
  else modNi s1 n (fun x => { x with handles := x.handles ++ heldOf p })

def takeGrant (s : State) (n : Nat) (p : Pkt) : State :=
  match (s.ni n).rsv with
  | none => returnGrant s n p
  | some r =>
    if r.dst ≠ p.src then returnGrant s n p
    else if unitAway (s.ni n) || r.gone then advance (returnGrant (modNi s n (fun x => { x with rsv := none })) n p) n
    else advance (acceptGrant s n r p) n

def execRsvgnt (n : NiId) (s : State) : Res :=
  match takeRsv s n.idx Opc.RSVGNT (fun _ => true) with
  | none => ok s
  | some (p, s1) => ok (if p.poisoned then s1 else takeGrant s1 n.idx p)

def takeRef (s : State) (n : Nat) (p : Pkt) : State :=
  match (s.ni n).rsv with
  | none => s
  | some r => if r.dst = p.src then advance (modNi s n (fun x => { x with rsv := none })) n else s

def execRsvref (n : NiId) (s : State) : Res :=
  match takeRsv s n.idx Opc.RSVREF (fun _ => true) with
  | none => ok s
  | some (p, s1) => ok (if p.poisoned then s1 else takeRef s1 n.idx p)

/-! ### Returns at the destination (R99, R100, R117) -/

/-- One handle that a source returns. -/
def relOne (n src : Nat) (h : Nat) (s : State) : State :=
  let x := s.ni n
  match x.grants.find? (fun g => decide (g.src = src ∧ g.handle = h)) with
  | none => raiseRsvErr s n 3
  | some g => takeBack (s.setNi n (resolveGrant x src g.sc h)) n h

def execRsvrel (n : NiId) (s : State) : Res :=
  match takeRsv s n.idx Opc.RSVREL (fun p => decide (p.tag % 2 = 0 ∧ p.cnt ≠ 0)) with
  | none => ok s
  | some (p, s1) => ok (if p.poisoned then s1
      else forEach (relOne n.idx p.src) ((List.range p.cnt).map (fun i => (p.arg.fld 0 16 + i) % 65536)) s1)

def withdrawOp (s : State) (n src : Nat) : State :=
  let x := s.ni n
  match takeFirst (fun q => decide (q.src = src)) x.parked with
  | none => s
  | some (q, rest) => sendRef (s.setNi n { x with parked := rest }) n q

def execRsvrelWithdraw (n : NiId) (s : State) : Res :=
  match takeRsv s n.idx Opc.RSVREL (fun p => decide (p.tag % 2 = 0 ∧ p.cnt = 0)) with
  | none => ok s
  | some (p, s1) => ok (if p.poisoned then s1 else withdrawOp s1 n.idx p.src)

/-- R117: the whole set goes back, but for what copies in the eject FIFO have taken. -/
def standReturn (s : State) (n src cnt : Nat) : State :=
  let hs := standingLeft (s.ni n) src
  let s1 := modNi s n (fun x => setStanding x src ((standingSet x src).take (copiesAt x src)))
  let s2 := if hs.length = cnt then s1 else raiseMcErr s1 n 2
  forEach (fun h st => takeBack st n h) hs s2

def execRsvrelStanding (n : NiId) (s : State) : Res :=
  match takeRsv s n.idx Opc.RSVREL (fun p => decide (p.tag % 2 = 1)) with
  | none => ok s
  | some (p, s1) => ok (if p.poisoned then s1 else standReturn s1 n.idx p.src p.cnt)

/-! ### Timers (R75, R100, R101, R117, R336) -/

def execRsvIdle (n : NiId) (dst : BitVec 23) (sc : Fin 8) (s : State) : Res :=
  ok (returnPair s n.idx dst.toNat sc.val)

/-- R117: the credit of attach point d has been returned, and is not refilled. -/
def forgetCredit (x : Ni) (d : Nat) : Ni :=
  { setCredit x d 0 with refill := x.refill.filter (fun q => decide (q.1 ≠ d)) }

/-- R117: a credit that no CELLMC is about to use goes back. -/
def execMcLinger (n d : NiId) (s : State) : Res :=
  let k := credit (s.ni n.idx) d.idx
  when_ (decide (0 < k ∧ claims (s.ni n.idx) d.idx = 0)) s
    (sendStandRel (modNi s n.idx (fun x => forgetCredit x d.idx)) n.idx (nodeOf s d.idx) 0 k)

/-- R115: one refill, while no request is outstanding and no cell waits: a destination whose credit is below STAND is
asked, and goes behind the others. It is asked for what lacks to STAND; R115 gives CNT only for a credit of 0 (DESIGN
CHOICE, log entry 39). -/
def refillNext (s : State) (n : Nat) : State :=
  let x := s.ni n
  match x.rsv, x.cell, takeFirst (fun q => decide (credit x q.1 < standOf s n)) x.refill with
  | none, none, some ((d, sc), rest) =>
    sendReq (s.setNi n { x with refill := rest ++ [(d, sc)] }) n (nodeOf s d) sc (standOf s n - credit x d) true
  | _, _, _ => s

def execMcRefill (n : NiId) (s : State) : Res := ok (refillNext s n.idx)

/-- The outstanding RSVREQ was sent for the cell that waits, not for a refill (R98, R115). -/
def ownReq (w : CellWait) (r : RsvOut) : Bool :=
  if w.pkt.opc = Opc.CELLMC then r.standing && decide (nodeNi r.dst ∈ w.asked)
  else !r.standing && !w.asked.isEmpty && decide (r.dst = w.pkt.dst ∧ r.sc = w.pkt.sc)

/-- R101: the waiting cell is refused, and its request withdrawn. -/
def refuseCell (s : State) (n : Nat) (w : CellWait) : State :=
  let s1 := dropCell (incSat (noteWait s n w.since) (niReg n Off.NI_REFUSE_CNT)) n St.REFUSED w
  match (s.ni n).rsv with
  | none => s1
  | some r => if r.withdrawn || !ownReq w r then s1
    else sendWithdraw (modNi s1 n (fun x => { x with rsv := some { r with withdrawn := true } })) n r.dst r.sc

def execAdmissionTimeout (n : NiId) (s : State) : Res :=
  match (s.ni n.idx).cell with
  | none => ok s
  | some w => ok (refuseCell s n.idx w)

def execRsvAnswerLost (n : NiId) (s : State) : Res :=
  when_ (s.ni n.idx).rsv.isSome s
    (advance (incSat (modNi s n.idx (fun x => { x with rsv := none })) (niReg n.idx Off.NI_FAULT_CNT)) n.idx)

/-- R75: the slot is skipped. -/
def skipSlot (s : State) (n : Nat) (g : Grant) (slot : Nat) : State :=
  let s1 := takeBack (modNi s n (fun x => resolveGrant x g.src g.sc g.handle)) n g.handle
  logNi (incSat s1 (niReg n Off.NI_REORD_SKIP_CNT)) n EvC.REORDER_SKIP [natW g.src, natW slot]

def execReorderSkip (n : NiId) (slot : Fin 256) (s : State) : Res :=
  let x := s.ni n.idx
  match x.grants.find? (fun g => decide (g.slot = some slot.val) && g.waiting.isNone) with
  | none => ok s
  | some g => when_ (earlierDone x g.src g.sc g.handle) s (skipSlot s n.idx g slot.val)

/-- R336: p0 to p3 take back a handle whose cell has not come. -/
def execHandleReclaim (n : NiId) (handle : BitVec 16) (s : State) : Res :=
  match (s.ni n.idx).grants.find?
      (fun g => decide (g.handle = handle.toNat) && g.slot.isNone && g.waiting.isNone) with
  | none => ok s
  | some g => when_ (n.p.val ≤ 3) s
      (incSat (takeBack (modNi s n.idx (fun x => resolveGrant x g.src g.sc g.handle)) n.idx g.handle)
        (niReg n.idx Off.NI_FAULT_CNT))

/-! ### Lateness (R120, R121) -/

def lateBin (l : Nat) : Nat := if l = 0 then 0 else if 16384 ≤ l then 15 else Nat.log2 l + 1

/-- One measured lateness. -/
def noteLate (s : State) (n : Nat) (p : Pkt) (l : Nat) : State :=
  let cfg := s.reg (niReg n Off.NI_LATE_CFG)
  let h := if p.sc = 5 then Off.NI_LATE_H5 (lateBin l) else Off.NI_LATE_HN (lateBin l)
  let s1 := incWrap s (niReg n h)
  let info := W.at 0 23 p.src ||| W.at 23 3 p.sc
  let lw := natW (min l 0xFFFFFF)
  let s2 := if (s.reg (niReg n Off.NI_LATE_MAX)).toNat < lw.toNat then
      ((s1.setReg (niReg n Off.NI_LATE_MAX) lw).setReg (niReg n Off.NI_LATE_INFO) info).setReg
        (niReg n Off.NI_LATE_FT) (ftLo (ftTile s (n / 7)))
    else s1
  if cfg.fld 12 16 ≠ 0 && decide (cfg.fld 12 16 < l) && rateOk s (s.ni n).lateFc fcOf1ms then
    modNi (logNi s2 n EvC.LATE_CELL [info, natW p.tag, lw]) n (fun x => { x with lateFc := some s.fc })
  else s2

/-- R120 counts in fc, the model's count of fc moves on by the 8 fc of a tc, and a row without an operand for it does
not say at which of them a tail is written: a free value (log entry 4). -/
def tailFc (s : State) : Nat × State := (s.fc + (freeW s).1.fld 0 3, (freeW s).2)

/-- R120: the cell's tail is written to the eject FIFO at fc `a`. -/
def trackLate (s : State) (n : Nat) (p : Pkt) (a : Nat) : State :=
  if 1 < n % 7 then s
  else
    let x := s.ni n
    let others := x.late.filter (fun q => !(decide (q.src = p.src ∧ q.sc = p.sc)))
    let mine := x.late.find? (fun q => decide (q.src = p.src ∧ q.sc = p.sc))
    let lost := niReg n Off.NI_LATE_LOST_CNT
    if p.flag 0 then
      let s1 := if mine.isSome || 64 ≤ others.length then incSat s lost else s
      if p.flag 1 then s1.setNi n { x with late := others }
      else if mine.isNone && 64 ≤ others.length then s1
      else s1.setNi n { x with late := others ++ [{ src := p.src, sc := p.sc, a0 := a, k := 0 }] }
    else match mine with
      | none => s
      | some q =>
        let pace := getFld s (niReg n Off.NI_LATE_CFG) 0 12
        let s1 := s.setNi n { x with late := if p.flag 1 then others else others ++ [{ q with k := q.k + 1 }] }
        noteLate s1 n p (a - q.a0 - (q.k + 1) * pace)

/-! ### Delivery (R74, R102, R116) -/

/-- The cell of a granted handle is presented; the handle stays with the unit. -/
def presentCell (s : State) (n : Nat) (p : Pkt) (a : Nat) : State :=
  let s1 := modNi s n (fun x =>
    let y := resolveGrant x p.src p.sc p.handle
    { y with runs := dropFromRuns p.handle y.runs })
  serveAll (trackLate (present s1 n .cpi p) n p a) n

/-- R75: a sprayed cell that comes for another slot than its handle has now: that slot was skipped. -/
def lateSlot (p : Pkt) (g : Grant) : Bool := p.spr && g.slot.isSome && decide (g.slot ≠ some p.seq)

def deliverCell (s : State) (n : Nat) (p : Pkt) (a : Nat) : State :=
  let x := s.ni n
  match findGrant x p.src p.sc p.handle with
  | none => raiseRsvErr (incSat s (niReg n Off.NI_DROP_CNT)) n 1
  | some g =>
    if lateSlot p g then incSat s (niReg n Off.NI_DROP_CNT)
    else if g.waiting.isSome then raiseRsvErr (incSat s (niReg n Off.NI_DROP_CNT)) n 1
    else if unitAway x then
      incSat (takeBack (s.setNi n (resolveGrant x p.src p.sc p.handle)) n p.handle) (niReg n Off.NI_DROP_CNT)
    else if earlierDone x p.src p.sc p.handle then presentCell s n p a
    else s.setNi n { x with grants := x.grants.map (fun q =>
      if q.src = p.src ∧ q.sc = p.sc ∧ q.handle = p.handle then { q with waiting := some p } else q) }

def execCellDeliver (n : NiId) (dfc : Fin 8) (s : State) : Res :=
  match takeEject s n.idx (fun p => decide (p.opc = Opc.CELL)) with
  | none => ok s
  | some (p, s1) => ok (deliverCell s1 n.idx p (s.fc + dfc.val))

/-- R51, R52: a waiting cell is discarded under the unit's reset and after a drain that has expired, as one that arrives
is. -/
def execReorderPresent (n : NiId) (s : State) : Res :=
  let x := s.ni n.idx
  match x.grants.find? (fun g => g.waiting.any (fun p => !p.killed) && earlierDone x g.src g.sc g.handle &&
      !tileDark s n.t) with
  | none => ok s
  | some g => match g.waiting with
    | none => ok s
    | some p => if unitAway x then
        ok (incSat (takeBack (s.setNi n.idx (resolveGrant x p.src p.sc p.handle)) n.idx p.handle) (niReg n.idx Off.NI_DROP_CNT))
      else ok (presentCell (tailFc s).2 n.idx p (tailFc s).1)

/-- R116: a copy takes a standing handle of its source. -/
def deliverCopy (s : State) (n : Nat) (p : Pkt) (a : Nat) : State :=
  match standingSet (s.ni n) p.src with
  | [] => raiseMcErr (incSat s (niReg n Off.NI_MC_NOCRED_CNT)) n 1
  | h :: hs =>
    let s1 := modNi s n (fun x => setStanding x p.src hs)
    if unitAway (s.ni n) then incSat (takeBack s1 n h) (niReg n Off.NI_DROP_CNT)
    else
      let s2 := modNi s1 n (fun x => { x with runs := dropFromRuns h x.runs })
      let q : Pkt := { p with dst := h, arg := natW (mcGroup p), mask := 0, flg := p.flg % 4 }
      trackLate (present s2 n .cpi q) n p a

def execCellmcCopy (n : NiId) (s : State) : Res :=
  match takeEject s n.idx (fun p => decide (p.opc = Opc.CELLMC)) with
  | none => ok s
  | some (p, s1) => ok (deliverCopy (tailFc s1).2 n.idx p (tailFc s1).1)

/-! ### Group reads return (R110 to R112, R115) -/

def fillGroup (x : Ni) (g : Nat) (p : Pkt) : Ni :=
  let lo := wordAt p.words 0
  let hi := wordAt p.words 1
  let e : GroupEnt := { group := g, mask := lo.toNat + hi.fld 0 28 * 2 ^ 36, valid := hi.bit 35 }
  { x with cache := Sparse.set (fun _ => none) x.cache (g % 256) (some e) }

/-- R115 gives the lanes that are held no number and no organisation; the model holds every lane read, by tile and word
(DESIGN CHOICE, log entry 39). -/
def fillLane (x : Ni) (t g : Nat) (p : Pkt) : Ni :=
  { x with lanes := Sparse.set (fun _ => none) x.lanes (laneKey t g) (some (wordAt p.words 0)) }

/-- The answer is held for the group that its tag names; the cell that waits for that group goes on. R112 gives no outcome
for an answer with a status other than OK; the cell reads again, which NI_MC_MISS_CNT counts for a mask, until its
admission timeout (DESIGN CHOICE, log entry 39). -/
def fillCell (s : State) (n : Nat) (p : Pkt) : State :=
  let g := tagGroup p.tag
  let s1 := if p.arg ≠ natW St.OK then s
    else modNi s n (fun x => if tagItem p.tag = 0 then fillGroup x g p else fillLane x (tagItem p.tag - 1) g p)
  match (s.ni n).cell with
  | none => s1
  | some w => if w.pkt.opc = Opc.CELLMC && decide (mcGroup w.pkt = g) then
      advance (modNi s1 n (fun x => { x with cell := some { w with fill := false } })) n
    else s1

def execGroupCacheFill (n : NiId) (s : State) : Res :=
  match takeEject s n.idx (fun p => decide (p.opc = Opc.RDRESP ∧ 256 ≤ p.tag)) with
  | none => ok s
  | some (p, s1) => ok (fillCell s1 n.idx p)

end Sys2Proof.Machine
end

