-- ==== Sys2Proof/Machine/RouterOps.lean ====
section
/-!
DEFINITION. A router's buffers (R59 to R63): pips returned and counts, which heads are ready at an output,
the arbitration of R87, what a packet takes along when it starts, KILL (R50), packets caught by a fault
(R336).
-/

namespace Sys2Proof.Machine

/-! ### Pips (R63, R257) -/

/-- The upstream side of input port i of router t: the router and its key for the port. -/
def upstream (t i : Nat) : Nat × Nat := if i < 16 then (across t i, portTo (across t i) t) else (t, i)
def endResync (s : State) (t i : Nat) : State :=
  modRt s t (fun x => { x with resync := x.resync.filter (fun q => decide (q.port ≠ i)) })

/-- R10, R257: a port that has to be resynchronised while a resynchronisation is under way starts it anew, with the
layout that one brings; otherwise its layout stays. -/
def resyncAgain (s : State) (t i : Nat) (half : Bool) : State :=
  startResync s t i (match resyncOf s t i with
    | none => half
    | some r => r.half)


/-! ### Narrowing (R258) -/

/-- R258 steps 1 and 2: every port has its half layout and every deficit is paid. -/
def narrowReady (s : State) (t : Nat) : Bool :=
  (s.rt t).resync.isEmpty &&
    (inputPorts t).all (fun i => decide ((cntOf s (upstream t i).1 (upstream t i).2).deficit = 0))

/-- SLC_STAT as a narrowing leaves it (R271). -/
def narState : NarWhy → Nat × Nat
  | .turn => (1, 0)
  | .slim => (3, 0)
  | .repair => (2, 3)

/-- R258 steps 3 and 4: the departing slice is fenced. -/
def narrowFence (s : State) (t : Nat) (x : Nar) : State :=
  let s1 := maxReg (setSlice s t x.sl (narState x.why).1 (narState x.why).2) (slcReg t x.sl Off.SLC_NARROW_MAX)
    (min (s.fc - x.since) (2 ^ 24 - 1))
  let s2 := modTa s1 t (fun a => { a with nar := none, turn := a.turn.map (fun u =>
    if x.why = .turn then { u with phase := .testing } else u) })
  if x.why = .slim then setFld (setTileState s2 t TS.SLIM) (taReg t Off.PWR_TA_STAT) 5 1 x.sl else s2

def narrowDone (s : State) (t : Nat) : State :=
  match (s.ta t).nar with
  | none => s
  | some x => if narrowReady s t then narrowFence s t x else s

/-- R257: a freed slot of a VC that holds others pays the deficit and is not announced. -/
def pays (c : Cnt) (k : Nat) : Bool := decide (0 < c.deficit ∧ 2 ≤ vcHeld c k)
def payOrFree (c : Cnt) (k : Nat) : Cnt :=
  if pays c k then { setVc c k (vcHeld c k - 1) with deficit := c.deficit - 1 } else freeSlot c k

/-- One slot of VC k of input port i of router t is free again; `dests` is nonzero on a packet's last flit. -/
def returnPip (s : State) (t i k dests : Nat) : State :=
  let (u, key) := upstream t i
  let push := modRt s u (fun x => { x with pips := x.pips ++ [⟨key, k, dests⟩] })
  match resyncOf s t i with
  | some r =>
    if r.phase = .grant then setResync s t { r with cnt := payOrFree r.cnt k }
    else if pays (cntOf s u key) k then setCnt s u key (payOrFree (cntOf s u key) k) else push
  | none => if pays (cntOf s u key) k then narrowDone (setCnt s u key (payOrFree (cntOf s u key) k)) t else push

/-- n slots are free; the last is that of a packet's last flit when `dests` is nonzero. -/
def returnPips (s : State) (t i k dests : Nat) : Nat → State
  | 0 => s
  | 1 => returnPip s t i k dests
  | n + 2 => returnPips (returnPip s t i k 0) t i k dests (n + 1)

def pktKey (p : Pkt) (vc : Nat) : Nat := vcKey (vnOf p.opc) vc
def destMask (p : Pkt) : Nat := if p.opc = Opc.CELLMC then p.mask else 2 ^ nodeTile p.dst
/-- R80: the tiles of the packet as it came over the link, whatever branches it has been replicated into. -/
def flightDests (f : Flight) : Nat := if f.grp.isSome then f.dests else destMask f.pkt

/-! ### Which heads may start (R59 to R62, R78, R87) -/

/-- Hops taken by a packet in a buffer (R65). -/
def hopsOf (f : Flight) : Nat := if f.inp < 16 then f.vc + 1 else 0

/-- R59, R61: the packet will leave router x on a network link; a sprayed cell does so wherever it has still to pass
its ITILE (R72). -/
def transitAt (x : Nat) (p : Pkt) : Bool :=
  if p.opc = Opc.CELLMC then decide (p.mask ≠ 2 ^ x)
  else decide (nodeTile p.dst ≠ x) || (decide (p.opc = Opc.CELL) && p.spr && decide (p.itile ≠ nodeTile p.dst))

/-- The counts after the packet's slots at the router behind output o have been taken. -/
def takeAt (s : State) (t o : Nat) (f : Flight) : Option Cnt :=
  let c := cntOf s t o
  let h := hopsOf f
  takeSlots c (sc5Rsv s t) (pktKey f.pkt h) f.pkt.flits f.pkt.sc
    (guardOf false (transitAt (across t o) f.pkt) c.half h)

/-- R136: a request for the words of the tile's memory. -/
def toTmem (s : State) (p : Pkt) : Bool :=
  isAccess p.opc && (match regionOf s p.addr with
    | .tmem _ _ => true
    | _ => false)

/-- R24: the eject channel that a packet reaches the unit on; `none` for what the NI itself takes. -/
def ejectChan (p : Pkt) : Option OutChan :=
  if isCell p.opc then some .cpi
  else if isResp p.opc then (if p.tag < 256 then some .orsp else none)
  else if isAccess p.opc || p.opc = Opc.MSG || p.opc = Opc.PHOLD then some .ireq else none
/-- R78, R316: the eject FIFO of the packet's channel, of 16 beats, has room for all of it behind what stands there and
what branches already placed will take. -/
def ejectRoom (s : State) (t o : Nat) (p : Pkt) : Bool :=
  let n := niOf t (o - 16)
  match ejectChan p with
  | none => true
  | some c =>
    let here := (s.ni n).eject.filter (fun q => decide (ejectChan q = some c))
    let due := ((s.rt t).inq.filter (fun f => f.grp.isSome && decide (f.out = some o) && decide (ejectChan f.pkt = some c))).map (fun f => f.pkt)
    decide (((here ++ due).map (fun q => beatsFor n q.flits)).foldl (· + ·) 0 + beatsFor n p.flits ≤ 16)

/-- Output o can take the whole packet. -/
def roomAt (s : State) (t o : Nat) (f : Flight) : Bool :=
  if o < 16 then
    !localFence s t o && !portStopped s (across t o) (portTo (across t o) t) && !routerOut s (across t o) &&
      (f.debited || (takeAt s t o f).isSome)
  else if o = 21 && toTmem s f.pkt then
    decide (f.pkt.flits ≤ f.arrived) && decide (tmemHeld s t < 16)
  else if o = 21 then true
  else (f.grp.isSome && f.out.isSome) || ejectRoom s t o f.pkt

/-- R59: no earlier packet of the same VC and class stands before it at its input port. -/
def sameQueue (f g : Flight) : Bool :=
  decide (g.inp = f.inp ∧ g.vc = f.vc ∧ vnOf g.pkt.opc = vnOf f.pkt.opc ∧ g.pkt.sc = f.pkt.sc) &&
    !(f.grp.isSome && decide (f.grp = g.grp))
def fronts : List Flight → List Flight → List Flight
  | _, [] => []
  | before, f :: fs => if before.any (sameQueue f) then fronts (before ++ [f]) fs
      else f :: fronts (before ++ [f]) fs

def isReady (s : State) (t o : Nat) (f : Flight) : Bool :=
  decide (f.out = some o) && decide (0 < f.arrived) && roomAt s t o f
/-- Flits of a packet that router u has passed on or holds: all of them but those its trail awaits. -/
def comeSoFar (s : State) (u : Nat) (p : Pkt) : Nat :=
  match (s.rt u).trail.find? (fun f => decide (f.pkt.key = p.key)) with
  | none => p.flits
  | some f => p.flits - f.left
/-- The packets that lack flits at input i, in the order in which they were started: key and flits come. -/
def lacking (s : State) (t i : Nat) : List (Pkt × Nat) :=
  let x := s.rt t
  ((x.trail.filter (fun f => decide (f.inp = i) && !f.pkt.killed)).map (fun f => (f.pkt, f.pkt.flits - f.left))) ++
  ((x.inq.filter (fun f => decide (f.inp = i) && !f.pkt.killed && decide (f.arrived < f.pkt.flits))).map
    (fun f => (f.pkt, f.arrived)))
/-- Those of them of which the sender has a flit. -/
def flitsReady (s : State) (t i : Nat) : List (Pkt × Nat) :=
  (lacking s t i).filter (fun e => decide (e.2 < comeSoFar s (across t i) e.1))

/-- R87: no started packet has a flit ready at output o. The flits that a packet for a local port has in the buffer go to
the NI with its head, and those that come later go on as they come. -/
def outIdle (s : State) (t o : Nat) : Bool :=
  decide (16 ≤ o) || (flitsReady s (across t o) (portTo (across t o) t)).isEmpty
/-- R87: output o still has to send the end of a packet of this VN and VC. -/
def vcBusy (s : State) (t o vn vc : Nat) : Bool :=
  if o < 16 then
    let x := s.rt (across t o)
    let i := portTo (across t o) t
    x.trail.any (fun g => decide (g.inp = i ∧ vnOf g.pkt.opc = vn ∧ g.vc = vc)) ||
      x.inq.any (fun g => decide (g.inp = i ∧ g.arrived < g.pkt.flits ∧ vnOf g.pkt.opc = vn ∧ g.vc = vc))
  else (s.rt t).trail.any (fun g => decide (g.out = some o ∧ vnOf g.pkt.opc = vn ∧ g.vc = vc))

/-- R87: the heads that are ready at output o. -/
def readyHeads (s : State) (t o : Nat) : List Flight :=
  if routerOut s t then [] else (fronts [] (s.rt t).inq).filter (isReady s t o)

/-- The fc from which a head's age counts (log entry 2): the first look that finds it ready. -/
def markReady (s : State) (t : Nat) : State :=
  let keys := (fronts [] (s.rt t).inq).filterMap (fun f => match f.out with
    | none => none
    | some o => if !routerOut s t && isReady s t o f then some f.pkt.key else none)
  modRt s t (fun x => { x with inq := x.inq.map (fun f =>
    if f.pkt.key ∈ keys then { f with since := some (f.since.getD s.fc) } else { f with since := none }) })

/-- Among ready heads, the one ready longest; at equal age the lower input port. -/
def oldest (q : List Flight) : Option Flight :=
  q.foldl (fun best f => match best with
    | none => some f
    | some b => if f.since.getD 0 < b.since.getD 0 ∨ (f.since.getD 0 = b.since.getD 0 ∧ f.inp < b.inp)
        then some f else some b) none

/-- R87: the next input in turn after the one served last. Of several ready heads of the class at that input R87 names
none; the model takes the oldest (DESIGN CHOICE, log entry 38). -/
def rrHead (last : Nat) (q : List Flight) : Option Flight :=
  firstSome (fun d => oldest (q.filter (fun f => decide (f.inp = (last + 1 + d) % 23)))) (List.range 23)

/-- R87: the ready heads that the output may start: it is idle, and is not about to send the rest of a packet of the same
VN and VC. -/
def mayStart (s : State) (t o : Nat) : List Flight :=
  if outIdle s t o then
    (readyHeads s t o).filter (fun f => !vcBusy s t o (vnOf f.pkt.opc) (if o < 16 then hopsOf f else f.vc))
  else []

/-- The input port of router t by which a packet came that router u, next on its way, has not yet whole. -/
def cameBy (s : State) (u key : Nat) : Option Nat :=
  match (s.rt u).trail.find? (fun g => decide (g.pkt.key = key)) with
  | some g => some g.via
  | none => ((s.rt u).inq.find? (fun g => decide (g.pkt.key = key))).map (fun g => g.via)
/-- R87: input i of router t has a flit of a started packet ready for an output. -/
def owesFlit (s : State) (t i : Nat) : Bool :=
  (List.range 16).any (fun o => (flitsReady s (across t o) (portTo (across t o) t)).any (fun e =>
    decide (cameBy s (across t o) e.1.key = some i)))
/-- R87: the place of a head in the order of an output: SC7, SC6, SC5, those that have reached the age limit, the rest. -/
def headRank (s : State) (t : Nat) (f : Flight) : Nat :=
  if f.pkt.sc = 7 then 0 else if f.pkt.sc = 6 then 1 else if f.pkt.sc = 5 then 2
  else if (s.reg (rtrReg t Off.RTR_AGE_LIM)).toNat ≤ s.fc - f.since.getD s.fc then 3 else 4
/-- An input port offers g rather than f. Among heads of SC0 to SC4 below the age limit R87 gives an output an order by
virtual times and round robin, and an input none across its outputs; the model lets each be offered (DESIGN CHOICE, log
entry 38). -/
def goesBefore (s : State) (t : Nat) (g f : Flight) : Bool :=
  decide (headRank s t g < headRank s t f) ||
    decide (headRank s t g = headRank s t f ∧ headRank s t f ≤ 3 ∧ g.since.getD 0 < f.since.getD 0)
/-- R87: an input port offers the crossbar one flit per fc, chosen in the order of an output among the heads that their
outputs may start; the flits of started packets come first. -/
def offers (s : State) (t : Nat) (f : Flight) : Bool :=
  !owesFlit s t f.inp &&
    !(fronts [] (s.rt t).inq).any (fun g => decide (g.inp = f.inp) && goesBefore s t g f && (match g.out with
      | none => false
      | some o => (mayStart s t o).contains g))
/-- The heads that output o may start now. -/
def startable (s : State) (t o : Nat) : List Flight := (mayStart s t o).filter (offers s t)

/-- R87: what the output starts, and the state with its counters and virtual times moved on. -/
def pickNext (s : State) (t o : Nat) : Option (Flight × State) :=
  let q := startable s t o
  let cls (c : Nat) := q.filter (fun f => decide (f.pkt.sc = c))
  let lim := (s.reg (rtrReg t Off.RTR_AGE_LIM)).toNat
  match oldest (cls 7), oldest (cls 6), oldest (cls 5) with
  | some f, _, _ => some (f, s)
  | none, some f, _ => some (f, s)
  | none, none, some f => some (f, s)
  | none, none, none =>
    match oldest (q.filter (fun f => decide (lim ≤ s.fc - f.since.getD s.fc))) with
    | some f => some (f, incWrap s (rtrReg t Off.RTR_AGE_ESC_CNT))
    | none =>
      let x := outOf s t o
      let ready := [0, 1, 2, 3, 4].filter (fun c => !(cls c).isEmpty)
      match pickClass x.vt ready with
      | none => none
      | some c => match rrHead x.rr (cls c) with
        | none => none
        | some f => some (f, setOut s t o
            { vt := vtStep x.vt (weights s t) c f.pkt.flits ready, rr := f.inp })

/-! ### A packet leaves its buffer (R60, R63, R78) -/

/-- The flight's slots are freed when no other branch of its packet remains; flits still to come trail. -/
def leaveBuffer (s : State) (t : Nat) (f : Flight) (out : Option Nat) : State :=
  let s1 := modRt s t (fun x => { x with inq := x.inq.filter (fun g => decide (g.pkt.key ≠ f.pkt.key)) })
  if f.grp.isSome && (s1.rt t).inq.any (fun g => decide (g.grp = f.grp)) then s1
  else
    let left := f.pkt.flits - f.arrived
    let s2 := returnPips s1 t f.inp (pktKey f.pkt f.vc) (if left = 0 then flightDests f else 0) f.arrived
    if left = 0 then s2
    else modRt s2 t (fun x => { x with trail := x.trail ++
      [{ inp := f.inp, vc := f.vc, pkt := f.pkt, left := left, out := out, via := f.via }] })

/-- R80: the packet goes to a tile of the hold mask. -/
def heldDest (s : State) (t : Nat) (p : Pkt) : Bool := (destTiles p).any (inHoldMask s t)

/-- R340: flits found uncorrectable in the buffer are sent poisoned. -/
def bufUe (s : State) (t : Nat) (p : Pkt) (ue : Nat) : State × Pkt :=
  let bad := (List.range p.flits).filter (fun j => ue.testBit j)
  (forEach (fun _ st => logTile (incWrap st (rtrReg t Off.RTR_BUF_UE_CNT)) t EvC.BUF_UE []) bad s,
   { p with poi := p.poi ||| (ue % 2 ^ p.flits) })

/-- R96: an SC5 packet that a half-width router forwards is counted. -/
def halfSc5 (s : State) (t : Nat) (p : Pkt) : State :=
  if p.sc = 5 && routerHalf s t then incWrap s (rtrReg t Off.RTR_SC5_HALF_CNT) else s

/-- The packet starts on a network output. -/
def startLink (s : State) (t o : Nat) (f : Flight) (p : Pkt) : State :=
  let nx := across t o
  let s1 := if f.debited then s else match takeAt s t o f with
    | none => s
    | some c => setCnt s t o c
  let s2 := if heldDest s t p then incWrap s1 (rtrReg t Off.RTR_OLD_FWD) else s1
  let s3 := if f.knight then incWrap s2 (rtrReg t Off.RTR_KNIGHT_CNT) else s2
  let s4 := if f.swap then incWrap s3 (rtrReg t Off.RTR_SWAP_CNT) else s3
  let s5 := halfSc5 s4 t p
  modRt (leaveBuffer s5 t f (some o)) nx (fun x => { x with inq := x.inq ++
    [{ pkt := p, inp := portTo nx t, vc := hopsOf f, via := f.inp }] })

/-- The packet goes to the attach point behind local output 16 + p. -/
def startLocal (s : State) (t p : Nat) (f : Flight) (q : Pkt) : State :=
  let s1 := leaveBuffer (halfSc5 (noteOut s t) t q) t f (some (16 + p))
  if p = 5 && toTmem s q then
    (if q.killed then s1 else modTmc s1 t (fun m => { m with q := m.q ++ [{ pkt := q }] }))
  else if p = 5 && q.killed then s1
  else modNi s1 (niOf t p) (fun x => { x with eject := x.eject ++ [q] })

/-! ### KILL (R50) -/

/-- KILL leaves on an output behind what has been sent of the packet. -/
def killDown (s : State) (t o key : Nat) : State :=
  if o < 16 then
    modRt s (across t o) (fun x => { x with
      inq := x.inq.map (fun f => if f.pkt.key = key then
        { f with pkt := { f.pkt with killed := true }, arrived := min f.arrived f.pkt.len } else f),
      trail := x.trail.map (fun f => if f.pkt.key = key then { f with pkt := { f.pkt with killed := true } } else f) })
  else
    let n := niOf t (o - 16)
    let mark (p : Pkt) : Pkt := if p.key = key then { p with killed := true } else p
    let s1 := modNi s n (fun x => { x with
      eject := x.eject.map mark, grants := x.grants.map (fun g => { g with waiting := g.waiting.map mark }) })
    match (s.ni n).out.find? (fun b => decide (b.pkt.key = key)) with
    | some b => modNi s1 n (fun x => { x with killPend := x.killPend ++ [b.pkt] })
    | none => s1

/-- KILL of a packet arrives at input i: the flits that will not come free their slots, and KILL goes on
where the packet has gone; a packet still in the buffer ends with KILL. -/
def killArrives (s : State) (t i : Nat) : State :=
  match takeFirst (fun f => decide (f.inp = i) && f.pkt.killed) (s.rt t).trail with
  | some (f, rest) =>
    let s1 := returnPips (modRt s t (fun x => { x with trail := rest })) t i (pktKey f.pkt f.vc)
      (destMask f.pkt) f.left
    (match f.out with
     | none => s1
     | some o => killDown s1 t o f.pkt.key)
  | none =>
    match takeFirst (fun f => decide (f.inp = i) && f.pkt.killed && decide (f.arrived < f.pkt.flits)) (s.rt t).inq with
    | none => s
    | some (f, rest) =>
      if f.arrived = 0 then
        returnPips (modRt s t (fun x => { x with inq := rest })) t i (pktKey f.pkt f.vc) (destMask f.pkt) f.pkt.flits
      else
        returnPips (modRt s t (fun x => { x with inq := x.inq.map (fun g => if g.pkt.key = f.pkt.key then
          { g with pkt := { g.pkt with len := f.arrived }, arrived := f.arrived + 1 } else g) }))
          t i (pktKey f.pkt f.vc) 0 (f.pkt.flits - (f.arrived + 1))

/-! ### Packets caught by a fault (R336) -/

/-- The routers that share a line with router t. -/
def neighbours (t : Nat) : List Nat :=
  ((List.range 16).filter (fun o => !(decide (o = col t) || decide (o = 8 + row t)))).map (across t)

/-- What a fault has cost at one router: packets discarded, and the VNs of all that it caught. -/
structure Loss where
  count : Nat := 0
  vns : List Nat := []
  deriving DecidableEq, Repr

/-- A packet is discarded. -/
def Loss.add (l : Loss) (p : Pkt) : Loss := { count := l.count + 1, vns := vnOf p.opc :: l.vns }
/-- A packet that has gone on in part ends with KILL, which is no discard. -/
def Loss.cut (l : Loss) (p : Pkt) : Loss := { l with vns := vnOf p.opc :: l.vns }
def Loss.mask (l : Loss) : Nat := [0, 1, 2, 3].foldl (fun m v => if v ∈ l.vns then m + 2 ^ v else m) 0

/-- One PKT_LOST per fault that has caught a packet, and the count of discards. -/
def noteLoss (s : State) (t : Nat) (l : Loss) : State :=
  if l.vns = [] then s
  else logTile (addSat s (rtrReg t Off.RTR_FAULT_DROP_CNT) l.count) t EvC.PKT_LOST [natW l.count, natW l.mask]

/-- The flight is discarded: its pips return, and flits that arrive later are discarded. -/
def dropFlight (s : State) (t : Nat) (f : Flight) : State := leaveBuffer s t f none

/-- The flits that a partly forwarded packet still lacks do not come on: KILL follows it. -/
def cutTrail (s : State) (t : Nat) (f : Trail) : State :=
  let s1 := modRt s t (fun x => { x with trail := x.trail.map (fun g =>
    if g.pkt.key = f.pkt.key then { g with out := none } else g) })
  match f.out with
  | none => s1
  | some o => killDown s1 t o f.pkt.key

/-- Every packet with a flit in the router is discarded, or ended with KILL where it has gone on. -/
def dropRouter (s : State) (t : Nat) : State :=
  let q := (s.rt t).inq
  let tr := (s.rt t).trail
  let one (f : Flight) : Bool :=
    match f.grp with
    | none => true
    | some g => decide ((q.find? (fun h => decide (h.grp = some g))).map (fun h => h.pkt.key) = some f.pkt.key)
  let loss := (q.filter one).foldl (fun l f => l.add f.pkt) ({} : Loss)
  let loss2 := (tr.filter (fun f => f.out.isSome)).foldl (fun l f => l.cut f.pkt) loss
  let s1 := forEach (fun f st => dropFlight st t f) q s
  noteLoss (forEach (fun f st => cutTrail st t f) tr s1) t loss2

/-- The packets that router t has sent in part onto its outgoing link i: the rest is discarded as it comes. -/
def caughtFrom (s : State) (t i : Nat) : State × Loss :=
  let tr := (s.rt t).trail.filter (fun f => decide (f.out = some i))
  let loss := tr.foldl (fun l f => l.add f.pkt) ({} : Loss)
  (modRt s t (fun x => { x with trail := x.trail.map (fun f =>
    if f.out = some i then { f with out := none } else f) }), loss)

/-- R323: of each packet that is still coming over input k of router u, KILL comes instead of the flits that lack. -/
def killTails (s : State) (u k : Nat) : State :=
  modRt s u (fun x => { x with
    inq := x.inq.map (fun f => if f.inp = k ∧ f.arrived < f.pkt.flits then
      { f with pkt := { f.pkt with killed := true }, arrived := min f.arrived f.pkt.len } else f),
    trail := x.trail.map (fun f => if f.inp = k then { f with pkt := { f.pkt with killed := true } } else f) })
/-- R323, R336: what router t has begun to send to its neighbours ends with KILL. -/
def killAround (s : State) (t : Nat) : State :=
  forEach (fun u st => killTails st u (portTo u t)) (neighbours t) s
/-- R68, R336: each neighbour has lost its link to router t, and what it has sent in part on it is caught. -/
def catchAround (s : State) (t : Nat) : State :=
  forEach (fun u st => let c := caughtFrom st u (portTo u t); noteLoss c.1 u c.2) (neighbours t) s

/-! ### Rerouting (R68, R260) -/

/-- Heads routed onto output o and not started are routed again. -/
def reroute (s : State) (t o : Nat) : State :=
  modRt s t (fun x => { x with inq := x.inq.map (fun f => if f.out = some o then
    { f with out := none, knight := false, swap := false, since := none, debited := false } else f) })

/-- R68: router t fences its outgoing link o at once in its own map. -/
def fenceLocal (s : State) (t o : Nat) : State :=
  reroute (setBit s (rtrReg t Off.RTR_LOCAL_FENCE) o true) t o

/-- R68: every neighbour fences its link to a router that goes out of service. -/
def fenceAround (s : State) (t : Nat) : State :=
  forEach (fun u st => fenceLocal st u (portTo u t)) (neighbours t) s

/-! ### R21, R23: every SC5 reserve has counted all its slots free -/

def sc5Counts (t : Nat) : List Nat :=
  ((List.range 16).filter (fun o => !(decide (o = col t) || decide (o = 8 + row t)))) ++
    (List.range 7).map (fun p => 16 + p)
/-- A tile in Off has no ports that could hold a reserve; every other has its reserves. -/
def sc5Ready (s : State) : Bool :=
  (List.range 64).all (fun t => decide (tileState s t = TS.OFF) || sc5Rsv s t &&
    (sc5Counts t).all (fun k => (cntOf s t k).half || (cntOf s t k).ready8))
/-- SC5_READY rises, and firmware reports PROFILE_READY. -/
def noteSc5 (s : State) : State :=
  if !regBit s (pwrReg Off.PWR_PROFILE_STAT) 3 && sc5Ready s then
    logFw (setBit s (pwrReg Off.PWR_PROFILE_STAT) 3 true) EvC.PROFILE_READY []
  else s

end Sys2Proof.Machine
end

