-- ==== Sys2Proof/Machine/Links.lean ====
section
/-!
DEFINITION. The commands of links: flits and their check bits (R332 to R335), pips and acknowledgements
(R10, R63), resynchronisation (R257), narrow and full form (R261), a lost link (R68), a slice that
faults (R13, R260).
-/

namespace Sys2Proof.Machine

/-! ### Halves of a link direction (R9, R261, R271) -/

def txFenced (s : State) (t i h : Nat) : Bool := regBit s (slcReg t h (Off.LNK_STAT i)) 0
def rxFenced (s : State) (t i h : Nat) : Bool := regBit s (slcReg t h (Off.LNK_STAT i)) 1
def setTx (s : State) (t i h : Nat) (b : Bool) : State := setBit s (slcReg t h (Off.LNK_STAT i)) 0 b
def setRx (s : State) (t i h : Nat) (b : Bool) : State := setBit s (slcReg t h (Off.LNK_STAT i)) 1 b

/-- Half h of outgoing link i of router t is to be fenced: by its register, by replay escalation, or
because the slice at either end is out of service. -/
def fenceWanted (s : State) (t i h : Nat) : Bool :=
  regBit s (slcReg t h (Off.LNK_CTRL i)) 0 || decide ((linkOf s t i).esc = some h) ||
    !sliceIn s t h || !sliceIn s (across t i) h

/-- R261: the replay store holds no unacknowledged flit. -/
def storeEmpty (l : LinkSt) : Bool := decide (l.sent = l.acked)
def storeLevel (l : LinkSt) : Nat := (l.sent + 32 - l.acked) % 32

/-- R263: half h of outgoing link i of router t is due for a lane repair, unless a command has fenced it. -/
def repairAsk (s : State) (t i h : Nat) : State :=
  if s.repairDue.contains (t, i, h) || regBit s (slcReg t h (Off.LNK_CTRL i)) 0 then s else { s with repairDue := s.repairDue ++ [(t, i, h)] }
/-- R198: a fence by a fault at tile t, which its tile agent announces with BUSY. -/
def busyAt (s : State) (t : Nat) : State := modTa s t (fun a => { a with busyDue := true })

/-! ### A lost link (R68, R335, R336) -/

/-- The packets of which flits were still to arrive over incoming link k of router r. -/
def caughtAt (s : State) (r k : Nat) : State × Loss :=
  let q := (s.rt r).inq.filter (fun f => decide (f.inp = k ∧ f.arrived < f.pkt.flits))
  let tr := (s.rt r).trail.filter (fun f => decide (f.inp = k))
  let loss := q.foldl (fun l f => l.add f.pkt) ({} : Loss)
  let loss2 := (tr.filter (fun f => f.out.isSome)).foldl (fun l f => l.cut f.pkt) loss
  let s1 := forEach (fun f st =>
    let st1 := dropFlight st r f
    modRt st1 r (fun x => { x with trail := x.trail.filter (fun g => decide (g.pkt.key ≠ f.pkt.key)) })) q s
  let s2 := forEach (fun f st =>
    let st1 := cutTrail st r f
    modRt st1 r (fun x => { x with trail := x.trail.filter (fun g => decide (g.pkt.key ≠ f.pkt.key)) })) tr s1
  (s2, loss2)

/-- Outgoing link i of router t is lost. -/
def loseLink (s : State) (t i : Nat) : State :=
  let r := across t i
  let k := portTo r t
  let s1 := fenceLocal (fenceLocal s t i) r k
  let s2 := setTx (setTx (setRx (setRx s1 r k 0 true) r k 1 true) t i 0 true) t i 1 true
  let s3 := logTile (busyAt s2 r) r EvC.LINK_LOST []
  let (s4, l1) := caughtAt s3 r k
  let (s5, l2) := caughtFrom s4 t i
  markReady (markReady (noteLoss (noteLoss s5 r l1) t l2) t) r

def execLinkLost (t : Fin 64) (i : Fin 16) (s : State) : Res := ok (loseLink s t i)

/-! ### Flits and their check bits -/

/-- The slice that carries a quarter: on a narrow link every quarter crosses on the surviving half. -/
def sliceOf (s : State) (t i q : Nat) : Nat :=
  if rxFenced s t i 0 then 1 else if rxFenced s t i 1 then 0 else q / 2

/-- R333: a corrected wire of incoming link i. -/
def noteWire (s : State) (t i sl w : Nat) : State :=
  let a := slcReg t sl (Off.LNK_CE_TRK i)
  let (v, hit) := trackOne (s.reg a) 9 8 w (getFld s (rtrReg t Off.RTR_LNK_CFG) 0 8)
  let s1 := (incWrap s (slcReg t sl (Off.LNK_CE_CNT i))).setReg a v
  if hit then repairAsk (logTile s1 t EvC.WIRE_CE [natW w]) (across t i) (portTo (across t i) t) sl else s1

def quarterCe (s : State) (t i q : Nat) : Quarter → State
  | .ce w => noteWire s t i (sliceOf s t i q) w.val
  | _ => s
def isUe : Quarter → Bool
  | .ue => true
  | _ => false

/-- The packet whose next flit crosses: that of the replay, or the first with a flit at the sender. -/
def nextFlit (s : State) (t i : Nat) : Option Pkt :=
  let cand := flitsReady s t i
  match (linkOf s t i).nakFor with
  | some key => (cand.find? (fun e => decide (e.1.key = key))).map (fun e => e.1)
  | none => cand.head?.map (fun e => e.1)

/-- The flit is accepted into the buffer, or passes on behind its head. -/
def deliverFlit (s : State) (t i : Nat) (p : Pkt) : State :=
  match (s.rt t).trail.find? (fun f => decide (f.pkt.key = p.key)) with
  | some f =>
    let last := decide (f.left ≤ 1)
    let rest (l : List Trail) : List Trail :=
      if last then l.filter (fun g => decide (g.pkt.key ≠ p.key))
      else l.map (fun g => if g.pkt.key = p.key then { g with left := g.left - 1 } else g)
    let s1 := modRt s t (fun x => { x with trail := rest x.trail })
    returnPip s1 t i (pktKey p f.vc) (if last then destMask p else 0)
  | none => modRt s t (fun x => { x with inq := x.inq.map (fun f =>
      if f.pkt.key = p.key then { f with arrived := f.arrived + 1 } else f) })

/-- R12 and the CAUSE codes of SLC_STAT name a repeated replay failure as a reason to fence a slice, and R335 fences the
half of the link; the model fences the half, and no slice gets that cause (DEDUCED, log entry 42).
R335: the receiving slice fences half h of incoming link i, or the link is lost. -/
def escalate (s : State) (t i h : Nat) : State :=
  let u := across t i
  if rxFenced s t i (1 - h) then loseLink s u (portTo u t)
  else
    let s1 := repairAsk (busyAt (setRx s t i h true) t) u (portTo u t) h
    logTile (setLink s1 t i { linkOf s1 t i with nakFence := some h, failRun := 0 }) t EvC.LINK_HALF_FENCED
      [natW i, natW h]

/-- R335: one replay failure of slice h. -/
def countFail (s : State) (t i h : Nat) : State :=
  let a := slcReg t h (Off.LNK_RFAIL i)
  let c := getFld s a 0 4
  incFld (setFld s a 0 4 (min (c + 1) 15)) a 4 32
def clearFail (s : State) (t i h : Nat) : State :=
  let a := slcReg t h (Off.LNK_RFAIL i)
  if getFld s a 0 4 = 0 then s else setFld s a 0 4 0

/-- R334: a flit with an uncorrectable quarter is discarded and NAK sent. -/
def rejectFlit (s : State) (t i : Nat) (p : Pkt) (halves : List Nat) : State :=
  let u := across t i
  let l := linkOf s t i
  let again := l.nakFor.isSome
  let s1 := forEach (fun h st => incWrap st (slcReg t h (Off.LNK_NAK_CNT i))) halves s
  let s2 := setLink s1 t i { l with nakFor := some p.key, nakHalves := halves,
                                    failRun := if again then l.failRun + 1 else 0 }
  let s3 := setLink s2 u (portTo u t) { linkOf s2 u (portTo u t) with replaying := false }
  if again then
    let s4 := forEach (fun h st => countFail st t i h) halves s3
    if getFld s (rtrReg t Off.RTR_LNK_CFG) 8 4 ≤ l.failRun + 1 then
      escalate s4 t i (if 1 ∈ halves then 1 else 0)
    else s4
  else s3

/-- R261: the link of outgoing index j of router u is to change form, so new flits are held back. -/
def formDue (s : State) (u j : Nat) : Bool := [0, 1].any (fun h => fenceWanted s u j h != txFenced s u j h)

/-- A flit arrives at input i of router t, on a half in the form that both ends are in. -/
def arriveFlit (s : State) (t i : Nat) (qs : List Quarter) : State :=
  let u := across t i
  let j := portTo u t
  let l := linkOf s t i
  let sameForm := [0, 1].all (fun h => txFenced s u j h == rxFenced s t i h)
  let some_ := !(rxFenced s t i 0 && rxFenced s t i 1)
  match nextFlit s t i with
  | none => s
  | some p =>
    if !sameForm || !some_ || (l.nakFor.isSome && !(linkOf s u j).replaying) ||
        (l.nakFor.isNone && (decide (16 ≤ storeLevel (linkOf s u j)) || formDue s u j)) then s
    else
      let s0 := if l.nakFor.isSome then s
        else setLink s u j { linkOf s u j with sent := ((linkOf s u j).sent + 1) % 32 }
      let s1 := forEach (fun e st => quarterCe st t i e.2 e.1) (qs.zip [0, 1, 2, 3]) s0
      let halves := ((qs.zip [0, 1, 2, 3]).filter (fun e => isUe e.1)).map (fun e => sliceOf s t i e.2)
      if halves.isEmpty then
        let s2 := clearFail (clearFail s1 t i 0) t i 1
        let s3 := setLink s2 t i { linkOf s2 t i with
          accepted := (l.accepted + 1) % 32, nakFor := none, nakHalves := [], nakFence := none, failRun := 0 }
        let s4 := setLink s3 u j { linkOf s3 u j with replaying := false }
        markReady (deliverFlit (stirTile (noteOut s4 u) t 1) t i p) t
      else rejectFlit s1 t i p halves.eraseDups

def execLinkFlit (t : Fin 64) (i : Fin 16) (q0 q1 q2 q3 : Quarter) (s : State) : Res :=
  ok (arriveFlit s t i [q0, q1, q2, q3])

/-- R10: a return word reaches the sending side of output o of router t intact, which ends a run of parity failures. -/
def intactWord (s : State) (t o : Nat) : State :=
  if o < 16 then
    (if (linkOf s t o).parity0 = 0 ∧ (linkOf s t o).parity1 = 0 then s
     else setLink s t o { linkOf s t o with parity0 := 0, parity1 := 0 })
  else s

/-- NAK reaches the sender of outgoing link i: both slices rewind, and a half that NAK names is fenced. -/
def execNak (t : Fin 64) (i : Fin 16) (s0 : State) : Res :=
  let s := intactWord s0 t i
  let r := across t i
  let l := linkOf s r (portTo r t)
  let x := linkOf s t i
  if l.nakFor.isSome && !x.replaying then
    let s1 := setLink s t i { x with replaying := true, esc := l.nakFence.orElse (fun _ => x.esc) }
    match l.nakFence with
    | none => ok s1
    | some h => ok (setTx s1 t i h true)
  else ok s

/-- R10: the receiver sends NAK again. -/
def execNakRetry (t : Fin 64) (i : Fin 16) (s : State) : Res :=
  let l := linkOf s t i
  let u := across t i
  if l.nakFor.isNone then ok s
  else
    let s1 := forEach (fun h st => incWrap st (slcReg t h (Off.LNK_NAK_CNT i))) l.nakHalves s
    ok (setLink s1 u (portTo u t) { linkOf s1 u (portTo u t) with replaying := false })

/-! ### Return words (R10, R63) -/

/-- A return word reaches the sending side of output o of router t, or its local input port by the same
number: the count of flits accepted, and one pip. While a grant's counts travel it has neither (R10). -/
def returnWord (s : State) (t o : Nat) : State :=
  let (r, k) := if o < 16 then (across t o, portTo (across t o) t) else (t, o)
  let granting := match resyncOf s r k with
    | none => false
    | some x => decide (x.phase = .grant)
  let l := linkOf s t o
  let s1 := if o < 16 then
      setLink s t o { l with acked := if granting then l.acked else (linkOf s r k).accepted, parity0 := 0, parity1 := 0 }
    else s
  if granting || decide (0 < (cntOf s t o).deficit) then s1
  else match takeFirst (fun p => decide (p.key = o)) (s1.rt t).pips with
    | none => s1
    | some (p, rest) =>
      let s2 := modRt s1 t (fun x => { x with pips := rest })
      noteSc5 (setCnt s2 t o (freeSlot (cntOf s2 t o) p.vc))

def execPip (t : Fin 64) (o : Fin 23) (s : State) : Res := ok (markReady (returnWord s t o) t)

/-- R10: the runs of parity failures after a word in which half h failed and the other passed. -/
def parityRun (l : LinkSt) (h : Nat) : LinkSt :=
  if h = 0 then { l with parity0 := l.parity0 + 1, parity1 := 0 } else { l with parity0 := 0, parity1 := l.parity1 + 1 }

/-- R10: a return word is discarded; the receiving side resynchronises its port. After REPLAY_LIM such
words in succession the half is fenced. -/
def parityFail (s : State) (t i h : Nat) : State :=
  let r := across t i
  let k := portTo r t
  let s1 := match takeFirst (fun p => decide (p.key = i)) (s.rt t).pips with
    | none => s
    | some (_, rest) => modRt s t (fun x => { x with pips := rest })
  let l := parityRun (linkOf s t i) h
  let n := if h = 0 then l.parity0 else l.parity1
  let s2 := resyncAgain (setLink s1 t i (parityRun (linkOf s1 t i) h)) r k (cntOf s t i).half
  if getFld s (rtrReg t Off.RTR_LNK_CFG) 8 4 ≤ n then
    if txFenced s t i (1 - h) then loseLink s2 t i
    else
      let s3 := setTx (setLink s2 t i { linkOf s2 t i with parity0 := 0, parity1 := 0, esc := some h }) t i h true
      logTile (repairAsk (busyAt (setRx s3 r k h true) r) t i h) r EvC.LINK_HALF_FENCED [natW k, natW h]
  else s2

def execReturnParityFail (t : Fin 64) (i : Fin 16) (half : Fin 2) (s : State) : Res := ok (parityFail s t i half)

/-! ### Resynchronisation of input port i of router t (R257) -/

/-- The upstream side stops starting packets on the port, and sends the mark after its packet in progress. -/
def execResyncReq (t : Fin 64) (i : Fin 23) (s : State) : Res :=
  match resyncOf s t i with
  | none => ok s
  | some r => when_ (r.phase = .req) s
      (intactWord (setResync s t { r with phase := .mark }) (upstream t i).1 (upstream t i).2)

/-- The flits that a port holds, by VC. -/
def portHeld (s : State) (t i : Nat) : List (Nat × Nat) :=
  let q := (s.rt t).inq.filter (fun f => decide (f.inp = i))
  let one (f : Flight) : Bool :=
    match f.grp with
    | none => true
    | some g => decide ((q.find? (fun h => decide (h.grp = some g))).map (fun h => h.pkt.key) = some f.pkt.key)
  (List.range 16).filterMap (fun k =>
    let n := ((q.filter (fun f => one f && decide (pktKey f.pkt f.vc = k))).map (fun f => f.arrived)).foldl (· + ·) 0
    if n = 0 then none else some (k, n))

/-- R257: the counts of the new layout from what the port holds; what exceeds the shared slots of a half
layout is the deficit. -/
def grantCnt (held : List (Nat × Nat)) (half l : Bool) : Cnt :=
  let n := (held.map (fun e => e.2 - 1)).foldl (· + ·) 0
  if half then { vcs := held, shared := min n 8, half := true, deficit := n - 8 }
  else if l then { vcs := held, shared := min n 24, resv := n - 24, ready8 := decide (n ≤ 24) }
  else { vcs := held, shared := n }

/-- Nothing of a packet is still to come over the port. -/
def portQuiet (s : State) (t i : Nat) : Bool :=
  !((s.rt t).inq.any (fun f => decide (f.inp = i ∧ f.arrived < f.pkt.flits))) &&
    !((s.rt t).trail.any (fun f => decide (f.inp = i)))

/-- The mark has come: the grant is computed, and pips sent before it are contained in it. -/
def computeGrant (s : State) (t i : Nat) (r : ResyncSt) : State :=
  let (u, key) := upstream t i
  let s1 := modRt s u (fun x => { x with pips := x.pips.filter (fun p => decide (p.key ≠ key)) })
  setResync s1 t { r with phase := .grant, cnt := grantCnt (portHeld s t i) r.half (sc5Rsv s u) }

def execResyncMark (t : Fin 64) (i : Fin 23) (s : State) : Res :=
  match resyncOf s t i with
  | none => ok s
  | some r => when_ (decide (r.phase = .mark) && portQuiet s t i) s (computeGrant s t i r)

/-- The upstream side loads the grant. R260: a grant that narrows a router which the map does not show as
half-width sets the port's bit in RTR_LOCAL_HALF. -/
def loadGrant (s : State) (t i : Nat) (r : ResyncSt) : State :=
  let (u, key) := upstream t i
  let s1 := incWrap (setCnt (endResync (intactWord s u key) t i) u key r.cnt) (rtrReg t Off.RTR_RESYNC_CNT)
  let s2 := if r.half && decide (i < 16) && !mapHalf s u t then
      reroute (setBit s1 (rtrReg u Off.RTR_LOCAL_HALF) key true) u key else s1
  let s3 := modTa s2 t (fun a => { a with nar := a.nar.map (fun x => { x with since := s.fc }) })
  narrowDone (noteSc5 (markReady s3 u)) t

def execResyncGrant (t : Fin 64) (i : Fin 23) (s : State) : Res :=
  match resyncOf s t i with
  | none => ok s
  | some r => when_ (r.phase = .grant) s (loadGrant s t i r)

/-! ### Narrow and full form (R261) -/

/-- A NARROW marker arrives at input i of router t. -/
def narrowArrives (s : State) (t i h : Nat) : State :=
  let u := across t i
  let j := portTo u t
  if txFenced s u j h && rxFenced s t i h then s
  else if txFenced s u j h || (fenceWanted s u j h && storeEmpty (linkOf s u j)) then
    let s1 := setRx (setTx s u j h true) t i h true
    if rxFenced s t i (1 - h) && !((fmapWord s u u).bit j) then loseLink s1 u j else s1
  else s

def execNarrow (t : Fin 64) (i : Fin 16) (half : Fin 2) (s : State) : Res := ok (narrowArrives s t i half)

def widenArrives (s : State) (t i h : Nat) : State :=
  let u := across t i
  let j := portTo u t
  if rxFenced s t i h && !fenceWanted s u j h && storeEmpty (linkOf s u j) then
    setRx (setTx s u j h false) t i h false
  else s

def execWiden (t : Fin 64) (i : Fin 16) (half : Fin 2) (s : State) : Res := ok (widenArrives s t i half)

end Sys2Proof.Machine
end

