-- ==== Sys2Proof/Machine/PowerOps.lean ====
section
/-!
DEFINITION. The tile agent's power states (R291 to R306): refusers, claims, gears and voltage transitions,
Slim, Doze and wake, Off with the retained words, what a change of profile does at a tile (R21).
-/

namespace Sys2Proof.Machine

/-! ### Small views -/

def braced (s : State) : Bool := regBit s (pwrReg Off.PWR_STAT) 2
def taTarget (s : State) (t : Nat) : Nat := getFld s (taReg t Off.PWR_TA_REQ) 0 3
def taGear (s : State) (t : Nat) : Bool := regBit s (taReg t Off.PWR_TA_STAT) 3
def taVtrans (s : State) (t : Nat) : Bool := regBit s (taReg t Off.PWR_TA_STAT) 4
def taClaimed (s : State) (t : Nat) : Bool := regBit s (taReg t Off.PWR_TILE_CLAIM) 23
def sc5Tile (s : State) (t : Nat) : Bool :=
  if t < 32 then regBit s (pwrReg Off.PWR_SC5_TILES_LO) t else regBit s (pwrReg Off.PWR_SC5_TILES_HI) (t - 32)
/-- R21, R292: the parameters of automatic entry under the profile that the tile has taken. -/
def autoReg (s : State) (t : Nat) : W :=
  s.reg (pwrReg (if profile s t = 2 then Off.PWR_AUTO_E else Off.PWR_AUTO_T))

/-! ### Refusers (R293) -/

inductive Lower | gear | slim | doze | off
  deriving DecidableEq, Repr

/-- A packet in the router, or a slot that it counts as taken downstream. -/
def routerBusy (s : State) (t : Nat) : Bool :=
  !(s.rt t).inq.isEmpty || !(s.rt t).trail.isEmpty ||
    (inputPorts t).any (fun o => !(cntOf s t o).vcs.isEmpty) || !(s.rt t).pips.isEmpty
/-- R293 row NI for Doze. -/
def niBusy (x : Ni) : Bool :=
  !x.stage.isEmpty || !x.fifo.isEmpty || x.cell.isSome || 0 < sbufLevel x || !x.outst.isEmpty || !x.parked.isEmpty || !x.grants.isEmpty
/-- R293 row NI for Off; an NI without a unit has nothing to drain. -/
def niNotDrained (s : State) (n : Nat) : Bool := populated s n && (niEn s n || !(s.ni n).drained)

/-- R198: FANFARE for tile t. -/
def fanfareRefuses (s : State) (t : Nat) (off : Bool) : Bool :=
  launchDue s t (us (getFld s (fnfReg Off.FNF_PWR_WIN) 0 14)) ||
    s.launches.any (fun l => decide (slotState s (fidSlot l.fid) = SS.RUNNING) && l.nis.any (fun n => decide (n / 7 = t))) ||
    (off && !(heldFids s t).isEmpty)

/-- R177, R293: a guard of the tile holds accesses. -/
def guardHolding (s : State) (t : Nat) : Bool :=
  (unitNis t).any (fun n => grdHolding s n) || (t = 0 && grdHolding s 448) || (t = 63 && grdHolding s 449)

def refuses (s : State) (t : Nat) (k : Lower) (retain : Bool) : Nat → Bool
  | 1 => match k with
    | .doze => routerBusy s t
    | .off => if retain then !(s.rt t).inq.isEmpty || !(s.rt t).trail.isEmpty else !mapOut s t t
    | _ => false
  | 2 => match k with
    | .doze => t = 0 || t = 63 || (niOf t 5 :: unitNis t).any (fun n => niBusy (s.ni n))
    | .off => (!retain && (t = 0 || t = 63)) ||
        (unitNis t).any (fun n => !(retain && (n = 6 || n = 447)) && niNotDrained s n)
    | _ => false
  | 3 => taClaimed s t || (match k with
    | .gear => sc5Tile s t
    | .doze => sc5Tile s t
    | _ => false)
  | 4 => fanfareRefuses s t (decide (k = .off))
  | 5 => (s.ta t).turn.isSome
  | 6 => guardHolding s t
  | 7 => regBit s (tkReg Off.TK_STAT) 2
  | _ => false

/-- The lowest refuser that applies. -/
def refuser (s : State) (t : Nat) (k : Lower) (retain : Bool) : Option Nat :=
  [1, 2, 3, 4, 5, 6, 7].find? (fun i => refuses s t k retain i)

/-! ### Voltage transitions (R295, R296, R308) -/

/-- A transition begins: the tile runs in low gear throughout it. -/
def beginVt (s : State) (t : Nat) (up : Bool) : State :=
  let s1 := setFld (setBit s (taReg t Off.PWR_TA_STAT) 3 true) (taReg t Off.PWR_TA_STAT) 4 1 1
  modTa (incWrap s1 (taReg t Off.PWR_VT_CNT)) t (fun a => { a with vtUp := up, vtDue := none, gearRun := 0 })
/-- A transition is wanted: it begins, or waits for the end of another one or of brace. A tile that is in that gear has no
other transition due any more. -/
def wantVt (s : State) (t : Nat) (up : Bool) : State :=
  if taVtrans s t then modTa s t (fun a => { a with vtDue := if a.vtUp = up then none else some up })
  else if taGear s t = up then
    (if braced s then modTa s t (fun a => { a with vtDue := some up }) else beginVt s t up)
  else modTa s t (fun a => { a with vtDue := none })
/-- Low gear is entered, or refused. -/
def gearOp (s : State) (t : Nat) : State :=
  match refuser s t .gear false with
  | some c => recordRefusal (modTa s t (fun x => { x with gearRun := 0, vtDue := none })) t c 1 true
  | none => wantVt s t false

/-! ### Narrowing and widening by the tile agent (R258, R259, R297) -/

def startNarrow (s : State) (t sl : Nat) (why : NarWhy) : State :=
  resyncAll (modTa s t (fun a => { a with nar := some { sl := sl, why := why, since := s.fc }, entering := none })) t true
/-- R259: a slice asks for its widening; the closing steps wait for WIDEN_ROUTER, and one slice is widened at a time. The
launches of `due` hold it (R198). -/
def askWide (due : List (Nat × Nat)) (sl : Nat) (a : Agent) : Agent :=
  match a.wide with
  | none => { a with wide := some sl, wideFor := due }
  | some x => if x = sl ∨ a.wideQ.contains sl then a else { a with wideQ := a.wideQ ++ [sl] }
def startWiden (s : State) (t sl : Nat) : State := modTa s t (askWide (dueAtRouter s t) sl)
/-- A slice that is fenced meanwhile is not widened. -/
def dropWiden (a : Agent) (sl : Nat) : Agent :=
  let q := a.wideQ.filter (fun x => decide (x ≠ sl))
  if a.wide = some sl then { a with wide := q.head?, wideQ := q.tail } else { a with wideQ := q }
def leaveSlim (s0 : State) (t : Nat) : State :=
  let s := modTa s0 t (fun a => { a with slimDue := none })
  let s1 := match (s.ta t).nar with
    | some x => if x.why = .slim then resyncAll (modTa s t (fun a => { a with nar := none })) t false else s
    | none => s
  if tileState s t = TS.SLIM then startWiden s1 t (getFld s (taReg t Off.PWR_TA_STAT) 5 1) else s1

/-! ### Doze (R298 to R300) -/

/-- Every count between a tile and its neighbours, and at its local ports, starts from empty. -/
def emptyPorts (s : State) (t : Nat) : State :=
  let fresh (half : Bool) : Cnt := { half := half }
  let s1 := forEach (fun i st =>
    let (u, key) := upstream t i
    let st1 := modRt st u (fun x => { x with pips := x.pips.filter (fun p => decide (p.key ≠ key)) })
    incWrap (setCnt (endResync st1 t i) u key (fresh (routerHalf s t))) (rtrReg t Off.RTR_RESYNC_CNT)) (inputPorts t) s
  forEach (fun u st =>
    let o := portTo t u
    let st1 := modRt st t (fun x => { x with pips := x.pips.filter (fun p => decide (p.key ≠ o)) })
    incWrap (setCnt (endResync st1 u (portTo u t)) t o (fresh (routerHalf s u))) (rtrReg u Off.RTR_RESYNC_CNT))
    (neighbours t) s1

/-- The ports are resynchronised empty, the clamps engage and the slices are unpowered. -/
def enterDoze (s : State) (t : Nat) : State :=
  let s1 := forEach (fun i st => incWrap (endResync st t i) (rtrReg t Off.RTR_RESYNC_CNT)) (inputPorts t) s
  modTa (setTileState s1 t TS.DOZE) t (fun a => { a with pic := [], lines := [], entering := none })

namespace WakeBy
def NI_TH := 0
def PERSIST := 1
def FLAG := 2
def OTHER := 3
end WakeBy

/-- The wake decision; an entry to Doze that has begun ends. -/
def wakeTile (s : State) (t cause : Nat) : State :=
  if tileState s t = TS.DOZE then
    setFld (setTileState s t TS.WAKING) (taReg t Off.PWR_PIC_STAT) 19 2 cause
  else endEntering s t

/-! ### Requests (R292, R293, R297) -/

/-- A request for Slim. Where a slice is fenced, or is being fenced, for repair or for Slim, it completes with no change
(R12, R297); while the tile leaves Slim it waits for the end of the widening (DESIGN CHOICE, log entry 41). A turn refuses
it (R286). -/
def requestSlim (s0 : State) (t sl : Nat) : State :=
  let s := modTa s0 t (fun a => { a with slimNo := none })
  if (s.ta t).turn.isNone && (!sliceIn s t 0 || !sliceIn s t 1 || (s.ta t).nar.isSome || (s.ta t).wide.isSome) then
    (if tileState s t = TS.SLIM && (s.ta t).wide.isSome then modTa s t (fun a => { a with slimDue := some sl }) else s)
  else match refuser s t .slim false with
    | some c => recordRefusal s t c 2 false
    | none => startNarrow s t sl .slim
/-- A request that has waited for the widening. -/
def slimWaited (s : State) (t : Nat) : State :=
  match (s.ta t).slimDue with
  | none => s
  | some sl => requestSlim (modTa s t (fun a => { a with slimDue := none })) t sl

/-- R262: a training of slice sl's half of input i that shows no error is recorded there. -/
def trainPassed (s : State) (t sl i : Nat) : State := setFld s (slcReg t sl (Off.LNK_STAT i)) 2 15 (511 * 2 ^ 6)
/-- R300: half h of incoming link i of router t fails the training of a wake, with a failing wire that the row does not
give: it is fenced and the link narrow, or lost where its twin is fenced (R261), and a repair of it is due (R263). -/
def wakeFails (s : State) (t h i : Nat) : State :=
  let u := across t i
  let j := portTo u t
  let a := slcReg t h (Off.LNK_STAT i)
  let (w, s1) := freeW s
  let s2 := setFld (setFld s1 a 2 2 2) a 8 9 (w.toNat % 312)
  if rxFenced s t i (1 - h) then loseLink s2 u j
  else repairAsk (setLink (setTx (setRx s2 t i h true) u j h true) u j { linkOf s2 u j with esc := some h }) u j h
/-- The training of a half that is in service; a fenced one stays so. -/
def wakeHalf (s : State) (t h i : Nat) (fails : Bool) : State :=
  if rxFenced s t i h then s else if fails then wakeFails s t h i else trainPassed s t h i
/-- R300: every link half of the tile is trained with its neighbour, in both directions. The row WAKE_COMPLETE does not say
which halves fail: that is open (log entries 4 and 38). -/
def wakeTrain (s : State) (t : Nat) : State :=
  let (a, s1) := freeW s
  let (b, s2) := freeW s1
  forEach (fun e st => forEach (fun h x =>
      wakeHalf (wakeHalf x t h (portTo t e.1) (a.bit (2 * e.2 + h))) e.1 h (portTo e.1 t) (b.bit (2 * e.2 + h))) [0, 1] st)
    ((neighbours t).zip (List.range 14)) s2

/-- TARGET as a wake finds it: Slim is asked for once no voltage transition runs (R296). -/
def afterWake (s : State) (t : Nat) : State :=
  let w := s.reg (taReg t Off.PWR_TA_REQ)
  if taTarget s t = 2 then
    (if taVtrans s t then modTa s t (fun a => { a with waitReq := a.waitReq ++ [.target w] }) else requestSlim s t (w.fld 3 1))
  else if taTarget s t = 0 then wantVt s t true
  else s
/-- The wake steps are over: the ports start from empty, what the clamps held back reaches the units, TIM_VLD waits for the
next BEAT, and the tile goes to the state that TARGET gives (R300, R302). -/
def wakeDone (s : State) (t : Nat) : State :=
  if tileState s t = TS.WAKING then
    let s1 := emptyPorts (wakeTrain (incWrap (setTileState s t TS.RUN) (taReg t Off.PWR_WAKE_CNT)) t) t
    afterWake (forEach (fun n st => unclamp st n) (unitNis t) { s1 with timDue := s1.timDue ++ [t] }) t
  else s
/-- R299, R382: an access to a block of a dozing tile wakes it and is served once the wake is complete. -/
def wakeNow (s : State) (t : Nat) : State := wakeDone (wakeTile s t WakeBy.OTHER) t

/-- A move to Run at full gear, never refused: out of Doze, out of Slim, up to full gear. -/
def raiseTile (s : State) (t : Nat) : State := wantVt (leaveSlim (wakeTile s t WakeBy.OTHER) t) t true

/-! ### Retained words (R304) -/

def retReg (o : Nat) : Nat := pwrReg (Off.RETENTION + o)
def tileRet (t : Nat) : Nat := 0x200 + 120 * t
/-- The lane repairs of a tile: one word for each used spare, in the order slice, port, direction, k. -/
def laneRepairs (s : State) (t : Nat) : List W :=
  [0, 1].flatMap (fun sl => (List.range 16).flatMap (fun i => [false, true].flatMap (fun rx =>
    (List.range 12).filterMap (fun k =>
      let w := s.reg (slcReg t sl (if rx then Off.LNK_RX_REMAP i k else Off.LNK_TX_REMAP i k))
      if w.bit 9 then some (W.at 0 9 (w.fld 0 9) ||| W.at 9 4 k ||| W.at 13 4 i ||| W.at 17 1 sl ||| W.at 18 1 (b2n rx) |||
        W.at 19 1 1) else none))))
def spareWord (s : State) (t j : Nat) : W :=
  let e (k : Nat) : Nat := if k < 64 then getFld s (tmemReg t (Off.TMEM_SPARE k)) 0 11 else 0
  W.at 0 11 (e (3 * j)) ||| W.at 11 11 (e (3 * j + 1)) ||| W.at 22 11 (e (3 * j + 2))
/-- The 120 retained words of a tile. -/
def tileWords (s : State) (t : Nat) : List W :=
  let rep := (laneRepairs s t).take 72
  [s.reg (taReg t Off.PWR_TA_REQ), s.reg (taReg t Off.PWR_TILE_CLAIM), s.reg (tmemReg t Off.TMEM_BANK_MAP),
   W.at 0 7 (getFld s (slcReg t 0 Off.SLC_STAT) 0 7) ||| W.at 7 7 (getFld s (slcReg t 1 Off.SLC_STAT) 0 7)] ++
  (List.range 22).map (spareWord s t) ++ rep ++ List.replicate (72 - rep.length) 0 ++ List.replicate 22 0
def writeWords (s : State) (a : Nat) : List W → State
  | [] => s
  | w :: ws => writeWords (s.setReg a w) (a + 1) ws
def saveTile (s : State) (t : Nat) : State := writeWords s (retReg (tileRet t)) (tileWords s t)

/-- The retained words of a tile are put back. -/
def restoreTile (s : State) (t : Nat) : State :=
  let w (o : Nat) : W := s.reg (retReg (tileRet t + o))
  let s1 := s.setReg (taReg t Off.PWR_TA_REQ) (w 0)
  let s2 := (s1.setReg (taReg t Off.PWR_TILE_CLAIM) (w 1)).setReg (tmemReg t Off.TMEM_BANK_MAP) (w 2)
  let s3 := setFld (setFld s2 (slcReg t 0 Off.SLC_STAT) 0 7 ((w 3).fld 0 7)) (slcReg t 1 Off.SLC_STAT) 0 7 ((w 3).fld 7 7)
  let s4 := forEach (fun k st => st.setReg (tmemReg t (Off.TMEM_SPARE k)) (W.at 0 11 ((w (4 + k / 3)).fld (11 * (k % 3)) 11)))
    (List.range 64) s3
  forEach (fun j st =>
    let v := w (26 + j)
    if v.bit 19 then
      let i := v.fld 13 4
      let k := v.fld 9 4
      st.setReg (slcReg t (v.fld 17 1) (if v.bit 18 then Off.LNK_RX_REMAP i k else Off.LNK_TX_REMAP i k))
        (W.at 0 9 (v.fld 0 9) ||| W.at 9 1 1)
    else st) (List.range 72) s4

/-- Offsets of the global retained words with the registers they hold. -/
def globalPairs : List (Nat × Nat) :=
  [(0x00, mtxReg Off.MTX_REMAP), (0x01, pwrReg Off.PWR_PROFILE), (0x02, pwrReg Off.PWR_SC5_TILES_LO),
   (0x03, pwrReg Off.PWR_SC5_TILES_HI), (0x04, pwrReg Off.PWR_WAKE_CFG), (0x05, pwrReg Off.PWR_AUTO_T),
   (0x06, pwrReg Off.PWR_AUTO_E), (0x07, pwrReg Off.PWR_PIC_CFG), (0x08, fnfReg Off.FNF_CTRL),
   (0x09, fnfReg Off.FNF_STG_TO), (0x0A, fnfReg Off.FNF_PWR_WIN), (0x0B, opcReg Off.OPC_IMG_BANK),
   (0x0C, opcReg Off.OPC_CFG_EPOCH), (0x0D, extReg Off.EXT_CTRL), (0x0E, extReg Off.EXT_INST),
   (0x0F, extReg Off.EXT_PC), (0x10, extReg Off.EXT_MAC_PFX), (0x11, extReg Off.EXT_XRPT_ADDR),
   (0x12, bstReg Off.BST_CFG), (0x13, bstReg Off.BST_NIGHT), (0x14, bstReg Off.BST_EXCL_LO),
   (0x15, bstReg Off.BST_EXCL_HI), (0x16, bstReg Off.BST_STALE)]
/-- The instance-wide router values, which every router holds alike. -/
def rtrPairs (t : Nat) : List (Nat × Nat) :=
  [(0x17, rtrReg t Off.RTR_CTRL), (0x18, rtrReg t Off.RTR_WRR_W0), (0x19, rtrReg t Off.RTR_WRR_W1),
   (0x1A, rtrReg t Off.RTR_AGE_LIM), (0x1B, rtrReg t Off.RTR_MAP_EPOCH)] ++
  (List.range 64).map (fun x => (0x40 + x, rtrReg t (Off.RTR_FMAP + x)))
def saveGlobals (s : State) : State :=
  let s1 := forEach (fun o st => st.setReg (retReg o) 0) (List.range 0x200) s
  setBit (forEach (fun p st => st.setReg (retReg p.1) (s.reg p.2)) (globalPairs ++ rtrPairs 0) s1)
    (pwrReg Off.PWR_RET_STAT) 0 true
def restoreGlobals (s : State) : State := forEach (fun p st => st.setReg p.2 (s.reg (retReg p.1))) globalPairs s

/-! ### Off (R303) -/

/-- The tile memory is lost: all words and their poison, reservations and what waits at the controller. -/
def loseMemory (s : State) (t : Nat) : State :=
  let inT (a : Nat) : Bool := decide (tmemAddr t 0 ≤ a ∧ a < tmemAddr t 0x20000)
  modTmc { s with mem := s.mem.filter (fun e => !inT e.1), poison := s.poison.filter (fun a => !inT a) } t (fun _ => {})

def enterOff (s : State) (t : Nat) : State :=
  uintDrop (loseMemory (modTa (setTileState (saveTile s t) t TS.OFF) t (fun a =>
    { a with nar := none, wide := none, wideQ := [], wideFor := [], pic := [], lines := [], entering := none, slimDue := none })) t) t

def requestOff (s : State) (t : Nat) : State :=
  if tileState s t = TS.OFF then s
  else match refuser s t .off false with
    | some c => recordRefusal s t c 4 false
    | none => enterOff s t

/-! ### A write of PWR_TA_REQ (R292); in Off the retained words are written too (R382) -/

/-- TARGET and SLICE take effect. -/
def applyTarget (s : State) (t : Nat) (v : W) : State :=
  let tg := v.fld 0 3
  if tileState s t = TS.OFF then
    (if tg < 4 then { s with rstReq := s.rstReq ++ [.tile t] } else s)
  else if tg = 0 then raiseTile s t
  else if tg = 1 then leaveSlim (wakeTile s t WakeBy.OTHER) t
  else if tg = 2 then
    (if tileDark s t then wakeTile s t WakeBy.OTHER else requestSlim (endEntering s t) t (v.fld 3 1))
  else if tg = 3 then leaveSlim s t
  else requestOff s t

/-- R296, R308: what waits for the end of a transition, and for the end of brace what writes retention memory: an entry
to Off, and a write that reaches the retained word of a tile in Off. -/
def mustWait (s : State) (t : Nat) (off : Bool) : Bool :=
  taVtrans s t || ((off || decide (tileState s t = TS.OFF)) && braced s)

def writeTarget (s : State) (t : Nat) (v : W) : State :=
  let w := W.at 0 3 (clampTo 0 4 (v.fld 0 3)) ||| W.at 3 1 (v.fld 3 1)
  let s0 := s.setReg (taReg t Off.PWR_TA_REQ) w
  let s1 := if tileState s t = TS.OFF && !braced s then s0.setReg (retReg (tileRet t)) w else s0
  if mustWait s t (decide (w.fld 0 3 = 4)) then modTa s1 t (fun a => { a with waitReq := a.waitReq ++ [.target w] })
  else applyTarget s1 t w

/-! ### Claims (R294) -/

namespace ClaimRes
def OK := 0
def CLAIMED := 1
def NOTOWN := 2
end ClaimRes

def claimWord (owner : Nat) (valid : Bool) (res : Nat) : W :=
  W.at 0 23 owner ||| W.at 23 1 (b2n valid) ||| W.at 24 2 res

def applyClaim (s : State) (t : Nat) (v : W) : State :=
  let a := taReg t Off.PWR_TILE_CLAIM
  let held := taClaimed s t
  let owner := getFld s a 0 23
  if v.bit 23 then
    if !held then
      let s1 := s.setReg a (claimWord (v.fld 0 23) true ClaimRes.OK)
      if tileState s t = TS.OFF then s1 else raiseTile s1 t
    else s.setReg a (claimWord owner true (if owner = v.fld 0 23 then ClaimRes.OK else ClaimRes.CLAIMED))
  else if held && decide (owner = v.fld 0 23) then s.setReg a (claimWord owner false ClaimRes.OK)
  else s.setReg a (claimWord owner held ClaimRes.NOTOWN)

def writeClaim (s : State) (t : Nat) (v : W) : State :=
  if mustWait s t false then modTa s t (fun a => { a with waitReq := a.waitReq ++ [.claim v] })
  else
    let s1 := applyClaim s t v
    if tileState s t = TS.OFF then s1.setReg (retReg (tileRet t + 1)) (s1.reg (taReg t Off.PWR_TILE_CLAIM)) else s1

/-! ### Profiles (R20 to R23) -/

/-- The tile takes the profile that PWR_PROFILE holds. -/
def takeProfile (s : State) (t : Nat) : State :=
  if taVtrans s t then s else modTa s t (fun a => { a with prof := getFld s (pwrReg Off.PWR_PROFILE) 0 2 })
/-- R22: a write reaches the tiles one after the other. A tile in Off has no agent that it could reach, and R23 does not
speak of it: the tile keeps its profile and counts in ACTIVE and MIXED (DESIGN CHOICE, log entry 41). -/
def writeProfile (s : State) (v : W) : State :=
  let w := if v.fld 0 2 = 3 then 1 else W.at 0 2 (v.fld 0 2)
  { s.setReg (pwrReg Off.PWR_PROFILE) w with
    profDue := (List.range 64).filter (fun t => decide (tileState s t ≠ TS.OFF)),
    checkDue := s.checkDue || decide (w ≠ s.reg (pwrReg Off.PWR_PROFILE)) }
/-- R21: a fanfare reaches every tile at its launch edge. -/
def profileLaunch (s : State) : State := forEach (fun t st => takeProfile st t) (List.range 64) { s with profDue := [] }
/-- R19, R84: SPRAY and SC5_RSV of RTR_CTRL under a profile. -/
def profileCtrl (p : Nat) : Nat := if p = 1 then 2 else if p = 0 then 1 else 0
/-- A tile whose PWR_SC5_TILES bit becomes set goes to Run at full gear. -/
def writeSc5 (s : State) (a : Nat) (v : W) : State :=
  let base := if a = pwrReg Off.PWR_SC5_TILES_LO then 0 else 32
  let s1 := s.setReg a (W.at 0 32 (v.fld 0 32))
  forEach (fun i st => if v.bit i && !(s.reg a).bit i && decide (tileState s (base + i) ≠ TS.OFF)
      then wantVt (wakeTile st (base + i) WakeBy.OTHER) (base + i) true else st) (List.range 32) s1

end Sys2Proof.Machine
end

