-- ==== Sys2Proof/Machine/Staging.lean ====
section
/-!
DEFINITION. The fanfare engine's passes over a staging list (R191, R192): the check pass, the staging pass and its
prefetch store, and GO, which starts them.
-/

namespace Sys2Proof.Machine

/-! ### The staging list (R191, R192) -/

/-- A word of the list that is a decode miss. R137 gives the engine no node ID: the one recorded is open (log entries 4
and 40). -/
def listMiss (s : State) (a : Nat) : Option W × State :=
  let (w, s1) := freeW s
  (none, decodeMiss s1 (w.fld 0 23) false .matrix a)
/-- R142: a word of the list as the memory path reads it, which wakes a dozing tile; `none` is a decode miss or POISON. -/
def listWord (s : State) (a : Nat) : Option W × State :=
  match regionOf s a with
  | .tmem t off =>
    if tileState s t = TS.OFF then listMiss s a
    else tmemRead (if tileDark s t then wakeNow s t else s) t off .clean
  | .sram off => (some (s.word (sramAddr off)), s)
  | .rom off => if off < romWords then (some (wordAt (opconReads s (.rom off) 1) 0), s) else listMiss s a
  | _ => listMiss s a
/-- Words of the list up to the first that is none; what of its burst lies behind that one is not read (DESIGN CHOICE, log
entry 40). -/
def listWords (s : State) (a : Nat) : Nat → Option (List W) × State
  | 0 => (some [], s)
  | n + 1 => match listWord s a with
    | (none, s1) => (none, s1)
    | (some w, s1) =>
      let (ws, s2) := listWords s1 (a + 1) n
      (ws.map (fun l => w :: l), s2)

/-- The entry of a record at `a` with address word `addr` and payload `ws`, and the address of the next record. -/
def recordEnt (s : State) (a : Nat) (addr : W) (ws : List W) : Option (FEnt × Nat) :=
  (stagingNi s addr.toNat).map (fun n => ({ addr := addr.toNat, data := ws, ni := n, at_ := some a }, a + 2 + ws.length))
/-- One record: its entry and the address of the next record. -/
def listRecord (s : State) (a : Nat) : Option (FEnt × Nat) × State :=
  let (h, s1) := listWords s a 2
  match h with
  | none => (none, s1)
  | some ws =>
    let addr := wordAt ws 0
    let line := (wordAt ws 1).bit 0
    if line && decide (addr.toNat % 16 ≠ 0) then (none, s1)
    else
      let (p, s2) := listWords s1 (a + 2) (if line then 16 else 1)
      (p.bind (recordEnt s2 a addr), s2)

/-- Why the check pass ends a fanfare: reason, entry, node. -/
structure Bad where
  reason : Nat
  idx : Nat
  node : Option Nat
  deriving DecidableEq, Repr

/-- Why an entry behind those of `acc` ends the check pass, as number i. -/
def entRefused (s : State) (i : Nat) (acc : List FEnt) (e : FEnt) : Option Bad :=
  if !reachable s (coordNi s / 7) (e.ni / 7) then
    some { reason := Rsn.UNREACH, idx := i, node := some (nodeOf s e.ni) }
  else if 64 ≤ (acc.filter (fun g => decide (g.ni = e.ni))).length then
    some { reason := Rsn.BADENTRY, idx := i, node := some (nodeOf s e.ni) }
  else none
/-- The check pass: every entry, or the first that is refused. -/
def checkPass (s : State) : Nat → Nat → Nat → List FEnt → Except Bad (List FEnt) × State
  | 0, _, _, acc => (.ok acc, s)
  | n + 1, i, a, acc =>
    match listRecord s a with
    | (none, s1) => (.error { reason := Rsn.BADENTRY, idx := i, node := none }, s1)
    | (some (e, next), s1) => match entRefused s1 i acc e with
      | some b => (.error b, s1)
      | none => checkPass s1 n (i + 1) next (acc ++ [e])

/-- The check pass over entries that firmware has composed. -/
def checkEnts (s : State) : Nat → List FEnt → List FEnt → Option Bad
  | _, _, [] => none
  | i, acc, e :: es => (entRefused s i acc e).orElse (fun _ => checkEnts s (i + 1) (acc ++ [e]) es)
/-- The check pass of slot k. -/
def checkList (s : State) (k : Nat) : Except Bad (List FEnt) × State :=
  match (s.slot k).composed with
  | none => checkPass s (getFld s (slotReg k Off.FNF_LEN) 0 13) 0 (s.reg (slotReg k Off.FNF_LIST)).toNat []
  | some es => match checkEnts s 0 [] es with
    | some b => (.error b, s)
    | none => (.ok es, s)

/-- LAST is set on the last entry of each NI. -/
def markLast : List FEnt → List FEnt
  | [] => []
  | e :: es => { e with last := !(es.any (fun g => decide (g.ni = e.ni))) } :: markLast es

/-! ### The staging pass (R81, R192) -/

/-- Places of NI n's hold store that the engine counts as held. -/
def placesHeld (s : State) (n : Nat) : Nat :=
  ((List.range 8).map (fun k => let x := s.slot k
    ((x.ents.take (x.ents.length - x.todo.length)).filter (fun e => decide (e.ni = n))).length)).foldl (· + ·) 0

def stageFlags (e : FEnt) : Nat := b2n (decide (e.data.length = 16)) + 2 * b2n e.last

/-- One FSTAGE of slot k leaves. -/
def sendStage (s : State) (k : Nat) (e : FEnt) (rest : List FEnt) : State :=
  ownSend (modSlot s k (fun x => { x with todo := rest, pre := x.pre - 1 })) (coordNi s) (nodeOf s e.ni) Opc.FSTAGE 6
    e.data.length (slotFid s k) (stageFlags e) (natW e.addr) e.data

/-- A target that has become unreachable in the staging pass: its entry's index. -/
def stageUnreach (s : State) (k : Nat) (e : FEnt) : State :=
  let x := s.slot k
  slotAborted (sendFabrts s k) k Rsn.UNREACH (some (x.ents.length - x.todo.length)) (some (nodeOf s e.ni))

/-- The check pass of a slot whose turn has come. -/
def checkSlot (s : State) (k : Nat) : State :=
  match checkList s k with
  | (.error b, s1) => slotAborted s1 k b.reason (some b.idx) b.node
  | (.ok es, s1) =>
    let es' := markLast es
    let nis := (es'.map (fun e => e.ni)).eraseDups
    let want := nis.map (fun n => (n, (es'.filter (fun e => decide (e.ni = n))).length))
    modSlot s1 k (fun z => { z with ents := es', todo := es', want := want, checked := true })

/-- The record of an entry as the staging pass reads it again. A record that is then refused, or that names another NI
or another length, has no rule; it ends the fanfare as a refused record does (DESIGN CHOICE, log entry 40). -/
def rereadEnt (s : State) (e : FEnt) : Option FEnt × State :=
  match e.at_ with
  | none => (some e, s)
  | some a =>
    let (x, s1) := listRecord s a
    (x.bind (fun g => if g.1.ni = e.ni ∧ g.1.data.length = e.data.length then some { g.1 with last := e.last } else none), s1)
/-- Records read again, or the place of the first that is refused. -/
def rereadEnts (s : State) : Nat → List FEnt → Except Nat (List FEnt) × State
  | _, [] => (.ok [], s)
  | i, e :: es => match rereadEnt s e with
    | (none, s1) => (.error i, s1)
    | (some g, s1) => match rereadEnts s1 (i + 1) es with
      | (.error j, s2) => (.error j, s2)
      | (.ok gs, s2) => (.ok (g :: gs), s2)
/-- The prefetch store takes the records `gs`. -/
def putRecords (x : Slot) (gs : List FEnt) : Slot :=
  let sent := x.ents.take (x.ents.length - x.todo.length)
  let todo := x.todo.take x.pre ++ gs ++ x.todo.drop (x.pre + gs.length)
  { x with todo := todo, ents := sent ++ todo, pre := x.pre + gs.length }
/-- R192: the staging pass reads the list again into the prefetch store, of 64 records. -/
def prefetch (s : State) (k : Nat) : State :=
  let x := s.slot k
  match rereadEnts s x.pre ((x.todo.take 64).drop x.pre) with
  | (.ok gs, s1) => modSlot s1 k (fun y => putRecords y gs)
  | (.error i, s1) => slotAborted (sendFabrts s1 k) k Rsn.BADENTRY (some (x.ents.length - x.todo.length + i)) none

/-- One slot at a time, in the order of the GO commands: its check pass, then the prefetch store is kept full, and what it
has pips for is sent. A slot that a route
change pauses lets the slot of that change pass (R81). -/
def pumpFuel (s : State) : Nat → State
  | 0 => s
  | f + 1 =>
    match s.stageQ.find? (fun k => !stagingPaused s k) with
    | none => s
    | some k =>
      if !(s.slot k).checked then pumpFuel (checkSlot s k) f
      else match (s.slot k).todo with
      | [] => pumpFuel { s with stageQ := s.stageQ.filter (fun j => decide (j ≠ k)) } f
      | _ :: _ =>
        let s1 := prefetch s k
        match (s1.slot k).todo with
        | [] => pumpFuel s1 f
        | e :: rest =>
          if !reachable s1 (coordNi s1 / 7) (e.ni / 7) then pumpFuel (stageUnreach s1 k e) f
          else if 64 ≤ placesHeld s1 e.ni then s1
          else pumpFuel (sendStage s1 k e rest) f
def pump (s : State) : State := pumpFuel s (8 * 4096 + 32)

/-- Before ARM: FABRT to every NI with entries, and the slot to ABORTED. -/
def abortStaged (s : State) (k reason : Nat) (idx node : Option Nat) : State :=
  pump (slotAborted (sendFabrts s k) k reason idx node)

/-! ### GO and STAGE_ONLY (R192, R197, R206) -/

/-- A new FID; the slot takes its place in the order of GO commands. -/
def startSlot (s : State) (k : Nat) (stageOnly : Bool) : State :=
  let x := s.slot k
  let fid := k + 8 * (x.gen % 32)
  let s1 := s.setReg (slotReg k Off.FNF_STAT) (W.at 0 4 SS.STAGING ||| W.at 4 8 fid)
  let y : Slot := { gen := (x.gen + 1) % 32, stageOnly := stageOnly, ticket := x.ticket }
  let s2 := s1.setSlot k y
  pump { s2 with stageQ := s2.stageQ ++ [k] }

def fnfGo (s : State) (k : Nat) (stageOnly : Bool) : State :=
  if slotState s k = SS.IDLE && regBit s (fnfReg Off.FNF_CTRL) 0 then startSlot s k stageOnly else s

end Sys2Proof.Machine
end

