-- ==== Sys2Proof/Machine/TileMemory.lean ====
section
/-!
DEFINITION. The commands of the tile memory controller: requests served from the head of its queue
(R136, R151, R154, R158), epochs (R157), scrub (R338) and migrations (R265, R266).
-/

namespace Sys2Proof.Machine

/-- The request at the head of tile t's queue when it is of the kind served. -/
def headReq (s : State) (t : Nat) (k : Pkt → Bool) : Option TReq :=
  match (s.tmc t).q with
  | [] => none
  | r :: _ => if k r.pkt then some r else none

def viaFabric (r : TReq) : Bool := r.via = .fabric

/-! ### Reads and writes -/

def serveRead (s : State) (t : Nat) (r : TReq) (e : MemErr) : State :=
  let (vs, s1) := tmemReads s t (offOf r.pkt) e r.pkt.cnt
  let (ws, s2) := sentWords s1 vs
  let bad := vs.any (fun v => v.isNone)
  tmemAnswer s2 t r (if bad then St.POISON else St.OK) ws (poiMask vs)

def isPlainRead (r : TReq) : Bool := r.pkt.opc = Opc.RD && (!r.pkt.isLdres || !viaFabric r)

def execTmemRd (t : Fin 64) (e : MemErr) (s : State) : Res :=
  match (s.tmc t).q with
  | [] => ok s
  | r :: _ => when_ (isPlainRead r) s (serveRead s t r e)

/-- R151: the requester's entry on the word's granule. -/
def execTmemLdres (t : Fin 64) (e : MemErr) (s : State) : Res :=
  match (s.tmc t).q with
  | [] => ok s
  | r :: _ =>
    when_ (r.pkt.isLdres && viaFabric r) s
      (serveRead (modTmc s t (fun m =>
        { m with resv := m.resv.filter (fun x => decide (x.1 ≠ r.pkt.src)) ++
            [(r.pkt.src, tmemAddr t (offOf r.pkt) / 16 * 16)] })) t r e)

def serveWrite (s : State) (t : Nat) (r : TReq) : State :=
  let p := r.pkt
  let s1 := tmemStores s t (offOf p) p.src p 0 p.cnt
  let bad := (List.range p.cnt).any p.wordPoi
  tmemAnswer (if bad then incWrap s1 (tmemReg t Off.TMEM_POI_WR_CNT) else s1) t r
    (if bad then St.POISON else St.OK) [] 0

def execTmemWr (t : Fin 64) (s : State) : Res :=
  match (s.tmc t).q with
  | [] => ok s
  | r :: _ => when_ (r.pkt.opc = Opc.WR && !r.pkt.isStcond) s (serveWrite s t r)

/-- R151: the entry of node `who` names the granule of `off`. -/
def entryNames (s : State) (t off who : Nat) : Bool :=
  ((s.tmc t).resv).any (fun x => decide (x.1 = who ∧ x.2 = tmemAddr t off / 16 * 16))
def clearEntry (s : State) (t who : Nat) : State :=
  modTmc s t (fun m => { m with resv := m.resv.filter (fun x => decide (x.1 ≠ who)) })

/-- R151: an STCOND; on the memory path it fails (R142). -/
def serveStcond (s : State) (t : Nat) (r : TReq) : State :=
  let p := r.pkt
  if viaFabric r && entryNames s t (offOf p) p.src then serveWrite (clearEntry s t p.src) t r
  else
    let s1 := if viaFabric r then clearEntry s t p.src else s
    tmemAnswer (incWrap s1 (tmemReg t Off.TMEM_STC_FAIL_CNT)) t r St.FAIL [] 0

def execTmemStcond (t : Fin 64) (s : State) : Res :=
  match (s.tmc t).q with
  | [] => ok s
  | r :: _ => when_ r.pkt.isStcond s (serveStcond s t r)

/-! ### Far operations: one operation of the batch at the head of the queue (R136, R154, R155) -/

/-- The batch ends: FOPRESP with the old values, or without under NORET; `bad` is R155. -/
def fopFinish (s : State) (t : Nat) (r : TReq) (bad : Bool) : State :=
  let m := s.tmc t
  let total := fopK r.pkt.cnt * fopSpan (fopSub r.pkt.cnt)
  let vals := m.fopOld
  if r.pkt.flag 0 then tmemAnswer s t r (if bad then St.POISON else St.OK) [] 0
  else if bad then
    let lost := (List.range total).map (fun i => if i < vals.length then some (0 : W) else none)
    tmemAnswer s t r St.POISON (vals ++ List.replicate (total - vals.length) 0) (poiMask lost)
  else tmemAnswer s t r St.OK vals 0

/-- One operation has been applied at `off`: counted, its old values kept, the batch ended after the last. -/
def fopStep (s : State) (t : Nat) (r : TReq) (old : List W) : State :=
  let s1 := incWrap s (tmemReg t Off.TMEM_FOP_CNT)
  let s2 := modTmc s1 t (fun m => { m with fopDone := m.fopDone + 1, fopOld := m.fopOld ++ old })
  if (s2.tmc t).fopDone < fopK r.pkt.cnt then s2 else fopFinish s2 t r false

/-- The next operation of a one-word kind. -/
def fopWord (s : State) (t : Nat) (r : TReq) (e : MemErr) : State :=
  let p := r.pkt
  let sub := fopSub p.cnt
  let i := (s.tmc t).fopDone
  let off := offOf p + i
  match tmemRead s t off e with
  | (none, s1) => fopFinish s1 t r true
  | (some v, s1) =>
    let n := fopOperands sub
    fopStep (tmemStore s1 t off p.src (fopOne sub v (wordAt p.words (n * i)) (wordAt p.words (n * i + 1))) false)
      t r [v]

/-- The next ADD72. -/
def fopDouble (s : State) (t : Nat) (r : TReq) (e : MemErr) : State :=
  let p := r.pkt
  let i := (s.tmc t).fopDone
  let off := offOf p + 2 * i
  match tmemReads s t off e 2 with
  | ([some lo, some hi], s2) =>
      let v := add72Of lo hi (wordAt p.words (2 * i)) (wordAt p.words (2 * i + 1))
      fopStep (tmemStore (tmemStore s2 t off p.src v.1 false) t (off + 1) p.src v.2 false) t r [lo, hi]
  | (_, s2) => fopFinish s2 t r true

def isFop (sub : Nat) (r : TReq) : Bool := r.pkt.opc = Opc.FOP && fopSub r.pkt.cnt = sub

def execAdd36 (t : Fin 64) (e : MemErr) (s : State) : Res :=
  match (s.tmc t).q with
  | [] => ok s
  | r :: _ => when_ (isFop 0 r) s (fopWord s t r e)

def execAdd72 (t : Fin 64) (e : MemErr) (s : State) : Res :=
  match (s.tmc t).q with
  | [] => ok s
  | r :: _ => when_ (isFop 1 r) s (fopDouble s t r e)

def execSwap36 (t : Fin 64) (e : MemErr) (s : State) : Res :=
  match (s.tmc t).q with
  | [] => ok s
  | r :: _ => when_ (isFop 2 r) s (fopWord s t r e)

def execCas36 (t : Fin 64) (e : MemErr) (s : State) : Res :=
  match (s.tmc t).q with
  | [] => ok s
  | r :: _ => when_ (isFop 3 r) s (fopWord s t r e)

def execMax36 (t : Fin 64) (e : MemErr) (s : State) : Res :=
  match (s.tmc t).q with
  | [] => ok s
  | r :: _ => when_ (isFop 4 r) s (fopWord s t r e)

def execMin36 (t : Fin 64) (e : MemErr) (s : State) : Res :=
  match (s.tmc t).q with
  | [] => ok s
  | r :: _ => when_ (isFop 5 r) s (fopWord s t r e)

def execAnd36 (t : Fin 64) (e : MemErr) (s : State) : Res :=
  match (s.tmc t).q with
  | [] => ok s
  | r :: _ => when_ (isFop 6 r) s (fopWord s t r e)

def execOr36 (t : Fin 64) (e : MemErr) (s : State) : Res :=
  match (s.tmc t).q with
  | [] => ok s
  | r :: _ => when_ (isFop 7 r) s (fopWord s t r e)

/-! ### Locks (R157 to R160) -/

/-- The epoch table's entry of a node in tile t. -/
def epochReg (t node : Nat) : Nat := tmemReg t (Off.TMEM_EPOCH (node % 512))
def epochOf (s : State) (t node : Nat) : Nat := getFld s (epochReg t node) 0 8
def frozen (s : State) (t node : Nat) : Bool := regBit s (epochReg t node) 8
/-- R157: an entry takes a newer epoch. -/
def takeEpoch (s : State) (t node e : Nat) : State :=
  if newerEpoch e (epochOf s t node) then setFld s (epochReg t node) 0 8 e else s
def usecTile (s : State) (t : Nat) : Nat := usecOf (ftTile s t)
/-- R157, R160: the lock is live. -/
def lockLive (s : State) (t : Nat) (lk ls : W) : Bool :=
  lkHeld lk && decide (lkEpoch lk = epochOf s t (lkOwner lk)) &&
    !(leaseOver (usecTile s t) ls && !frozen s t (lkOwner lk))

/-- The two words of the lock at the head of the queue, read in one step; then `f` gives status, lock word
and lease word. -/
def lockStep (s : State) (t : Nat) (r : TReq) (e : MemErr)
    (f : State → W → W → Nat × W × W × State) : State :=
  let p := r.pkt
  let off := offOf p
  let s0 := takeEpoch s t p.src ((wordAt p.words 0).fld 16 8)
  match tmemReads s0 t off e 2 with
  | ([some lk, some ls], s2) =>
      let (st, lk', ls', s3) := f s2 lk ls
      let s4 := if lk' = lk ∧ ls' = ls then storeEnds s3 t off p.src
        else tmemStore (tmemStore s3 t off p.src lk' false) t (off + 1) p.src ls' false
      tmemAnswer s4 t r st [lk', ls'] 0
  | (_, s2) => tmemAnswer s2 t r St.POISON [0, 0] 1

def lockIs (op : Nat) (r : TReq) : Bool := r.pkt.opc = op
/-- R158: the requester owns the live lock. -/
def ownLive (s : State) (t : Nat) (p : Pkt) (lk ls : W) : Bool :=
  lockLive s t lk ls && decide (lkOwner lk = p.src) && decide (lkEpoch lk = (wordAt p.words 0).fld 16 8)

/-- R158: LKACQ. -/
def acquire (t : Nat) (p : Pkt) (s : State) (lk ls : W) : Nat × W × W × State :=
  let e := (wordAt p.words 0).fld 16 8
  let lease := leaseWord (usecTile s t) ((wordAt p.words 0).fld 0 16)
  if !lkHeld lk then (St.OK, lkWord p.src e true false, lease, s)
  else if ownLive s t p lk ls then (St.OK, lk, lease, s)
  else if lockLive s t lk ls then (St.BUSY, lk, ls, s)
  else
    let cause := if lkEpoch lk = epochOf s t (lkOwner lk) then 0 else 1
    let s1 := incSat s (tmemReg t Off.TMEM_LOCK_TORN_CNT)
    (St.TORN, lkWord p.src e true true, lease,
      s1.setReg (tmemReg t Off.TMEM_LOCK_INFO)
        (W.at 0 8 (offOf p / 2) ||| W.at 8 23 (lkOwner lk) ||| W.at 31 1 cause))

/-- R158: LKRNW. -/
def renew (t : Nat) (p : Pkt) (s : State) (lk ls : W) : Nat × W × W × State :=
  if ownLive s t p lk ls then
    (St.OK, lk, leaseWord (usecTile s t) ((wordAt p.words 0).fld 0 16), s)
  else (St.NOTOWN, lk, ls, s)

/-- R158: LKREL keeps OWNER, EPOCH and the lease word. -/
def release (t : Nat) (p : Pkt) (s : State) (lk ls : W) : Nat × W × W × State :=
  if ownLive s t p lk ls then (St.OK, lkWord (lkOwner lk) (lkEpoch lk) false false, ls, s)
  else (St.NOTOWN, lk, ls, s)

def execTmemLkacq (t : Fin 64) (e : MemErr) (s : State) : Res :=
  match (s.tmc t).q with
  | [] => ok s
  | r :: _ => when_ (lockIs Opc.LKACQ r) s (lockStep s t r e (acquire t r.pkt))

def execTmemLkrnw (t : Fin 64) (e : MemErr) (s : State) : Res :=
  match (s.tmc t).q with
  | [] => ok s
  | r :: _ => when_ (lockIs Opc.LKRNW r) s (lockStep s t r e (renew t r.pkt))

def execTmemLkrel (t : Fin 64) (e : MemErr) (s : State) : Res :=
  match (s.tmc t).q with
  | [] => ok s
  | r :: _ => when_ (lockIs Opc.LKREL r) s (lockStep s t r e (release t r.pkt))

/-- R157: the reset of agent n reaches the table of tile t. -/
def execEpochUpdate (t : Fin 64) (n : NiId) (s : State) : Res :=
  ok (takeEpoch s t (nodeOf s n.idx) (getFld s (niReg n.idx Off.NI_EPOCH) 0 8))

/-! ### Scrub (R338, R339) -/

def scrubWords : Nat := 122880
/-- Some spare entry in use answers for a row. -/
def rowSpared (s : State) (t b row : Nat) : Bool :=
  (List.range 64).any (fun k =>
    let w := s.reg (tmemReg t (Off.TMEM_SPARE k))
    w.bit 10 && decide (w.fld 0 3 = b ∧ w.fld 3 7 = row))
/-- What stands at a place of the scrub walk: the word of an offset, a word that answers for none (of a row or bank that
another answers for, or of the free standby bank, bank 6), or a spare row that is not in use. -/
inductive ScrubAt | word (off : Nat) | idle (b row : Nat) | none
  deriving DecidableEq, Repr
/-- The walk: banks, spare rows in use, the standby bank. -/
def scrubTarget (s : State) (t pos : Nat) : ScrubAt :=
  let stby := getFld s (tmemReg t Off.TMEM_BANK_MAP) 0 3
  if pos < tmemWords then
    (if rowSpared s t (bankOf pos) (rowOfWord pos) ∨ stby = bankOf pos then .idle (bankOf pos) (rowOfWord pos) else .word pos)
  else if pos < tmemWords + 64 * 128 then
    let w := s.reg (tmemReg t (Off.TMEM_SPARE ((pos - tmemWords) / 128)))
    if w.bit 10 then .word (w.fld 0 3 * 16384 + w.fld 3 7 * 128 + (pos - tmemWords) % 128) else .none
  else
    let p := pos - (tmemWords + 64 * 128)
    if stby < 6 ∧ !rowSpared s t stby (rowOfWord p) then .word (stby * 16384 + p) else .idle 6 (rowOfWord p)
/-- R337 at a word that answers for no offset: it has no address to record, and the one recorded is open (log entry 4). -/
def scrubIdle (s : State) (t b row : Nat) : MemErr → State
  | .clean => s
  | .ce => trackRow (incWrap s (tmemReg t Off.TMEM_CE_CNT)) t b row
  | .ue =>
    let (w, s1) := freeW s
    trackRow (logTile ((incSat s1 (tmemReg t Off.TMEM_UE_CNT)).setReg (tmemReg t Off.TMEM_UE_ADDR) w) t EvC.TMEM_UE []) t b row

def scrubOne (s : State) (t : Nat) (e : MemErr) : State :=
  let a := tmemReg t Off.TMEM_SCRUB_STAT
  let pos := getFld s a 0 17
  let s1 := match scrubTarget s t pos with
    | .none => s
    | .word off => (tmemRead s t off e).2
    | .idle b row => scrubIdle s t b row e
  if pos + 1 < scrubWords then setFld s1 a 0 17 (pos + 1)
  else (incFld (setFld s1 a 0 17 0) a 17 19).setReg (tmemReg t Off.TMEM_ROW_TRK) 0

def execScrub (t : Fin 64) (e : MemErr) (s : State) : Res :=
  when_ (regBit s (tmemReg t Off.TMEM_ECC_CFG) 24 && decide (tileState s t ≠ 2 ∧ tileState s t ≠ 3)) s
    (scrubOne s t e)

/-! ### Migrations (R265, R266) -/

def spareUsed (s : State) (t : Nat) : Nat :=
  ((List.range 64).filter (fun k => regBit s (tmemReg t (Off.TMEM_SPARE k)) 10)).length

/-- One migration runs in a tile at a time; another waits for its end. During a bank session a row migration waits for the
end of the session (R285). -/
def startMig (s : State) (t : Nat) (m : Mig) : State :=
  if (s.tmc t).session && !m.bank then modTmc s t (fun x => { x with migWait := x.migWait ++ [m] })
  else match (s.tmc t).mig with
  | none => (modTmc s t (fun x => { x with mig := some { m with since := s.fc } })).setReg (tmemReg t Off.TMEM_MIG_STAT)
      (W.at 0 1 1 ||| W.at 1 1 (b2n m.bank))
  | some _ => modTmc s t (fun x => { x with migWait := x.migWait ++ [m] })

/-- R265: a write of TMEM_SPARE_k. A free entry written with VALID = 0 starts the row's migration. -/
def writeSpare (s : State) (t k : Nat) (v : W) : State :=
  let a := tmemReg t (Off.TMEM_SPARE k)
  let w := W.at 0 3 (clampTo 0 5 (v.fld 0 3)) ||| W.at 3 8 (v.fld 3 8)
  let s1 := s.setReg a w
  if (s.reg a).bit 10 || v.bit 10 then s1
  else startMig s1 t { bank := false, b := w.fld 0 3, spare := k }

/-- R265: entry k is free: not valid, and no migration has it. -/
def spareFree (s : State) (t k : Nat) : Bool :=
  !regBit s (tmemReg t (Off.TMEM_SPARE k)) 10 &&
    !((s.tmc t).mig.any (fun m => !m.bank && decide (m.spare = k))) &&
    !((s.tmc t).migWait.any (fun m => !m.bank && decide (m.spare = k))) &&
    !((s.tmc t).leftOut.any (fun w => decide (w.fld 11 6 = k)))
/-- R265: the last turn of the bank has failed in the part that holds the row. PART_DONE carries no row; the row that the
test has identified is the operand of ROW_MIGRATION (log entry 19). -/
def turnNames (s : State) (t b row : Nat) : Bool :=
  let w := s.reg (taReg t (Off.BST_TA_REC (2 + b) 0))
  decide (w.fld 0 3 = 2 ∧ w.fld 3 4 = row / 32) && !rowSpared s t b row
/-- Firmware migrates a row that is due (R339), or that a test turn has identified, into a spare row of its choice. -/
def execRowMigration (t k : Fin 64) (bank : Fin 6) (row : Fin 128) (s : State) : Res :=
  when_ (spareFree s t k && ((s.tmc t).rowDue.contains (bank.val, row.val) || turnNames s t bank row)) s
    (writeSpare (modTmc s t (fun m => { m with rowDue := m.rowDue.filter (fun x => decide (x ≠ (bank.val, row.val))) })) t k
      (W.at 0 3 bank.val ||| W.at 3 7 row.val))

/-- R266: a bank is copied into the standby bank, which must be free. -/
def execBankMigration (t : Fin 64) (bank : Fin 6) (s : State) : Res :=
  when_ (getFld s (tmemReg t Off.TMEM_BANK_MAP) 0 3 = 6 && (s.tmc t).mig.isNone) s
    (startMig s t { bank := true, b := bank.val })

/-- R273: PROG while a migration runs. R265 gives at least one word in every 4 fc; how many more is open, and a free
value within the words of the row or bank (log entry 4). -/
def migProg (s : State) (m : Mig) : Nat :=
  let n := if m.bank then 16384 else 128
  max (min n ((s.fc - m.since) / 4)) ((Config.freeWord s.freeN).toNat % (n + 1))

/-- R266: the spare entries in use for a bank that has moved are cleared. -/
def clearSpares (s : State) (t b : Nat) : State :=
  forEach (fun k st =>
    let a := tmemReg t (Off.TMEM_SPARE k)
    if regBit st a 10 && getFld st a 0 3 = b then st.setReg a 0 else st) (List.range 64) s
/-- R285: the spare entry of a row that was left out of the test is restored, unless another row has taken it or waits to. -/
def restoreSpare (t : Nat) (w : W) (s : State) : State :=
  let a := tmemReg t (Off.TMEM_SPARE (w.fld 11 6))
  if regBit s a 10 || (s.tmc t).migWait.any (fun m => !m.bank && decide (m.spare = w.fld 11 6)) then s
  else s.setReg a (W.at 0 11 (w.fld 0 11))
/-- The last word is copied: the spare row, or the standby bank, answers; a migration back frees it. -/
def finishMig (s : State) (t : Nat) (m : Mig) : State :=
  let s1 :=
    if m.bank then
      (if m.back then
        forEach (restoreSpare t) (s.tmc t).leftOut
          (modTmc (clearSpares (setFld s (tmemReg t Off.TMEM_BANK_MAP) 0 3 6) t m.b) t
            (fun x => { x with leftOut := [], session := false }))
       else clearSpares (setFld s (tmemReg t Off.TMEM_BANK_MAP) 0 3 m.b) t m.b)
    else
      let s2 := setBit s (tmemReg t (Off.TMEM_SPARE m.spare)) 10 true
      if spareUsed s2 t = 64 then logFw s2 EvC.ROW_EXHAUSTED [] else s2
  (modTmc s1 t (fun x => { x with mig := none })).setReg (tmemReg t Off.TMEM_MIG_STAT)
    (W.at 1 1 (b2n m.bank) ||| W.at 2 15 (if m.bank then 16384 else 128))

/-- The first migration that waits and may run starts. -/
def nextMig (s : State) (t : Nat) : State :=
  if (s.tmc t).mig.isSome then s
  else match takeFirst (fun w => w.bank || !(s.tmc t).session) (s.tmc t).migWait with
    | none => s
    | some (w, ws) => startMig (modTmc s t (fun x => { x with migWait := ws })) t w
def migrationEnd (s : State) (t : Nat) : State :=
  match (s.tmc t).mig with
  | none => s
  | some m =>
    nextMig (finishMig s t m) t

def execMigrationDone (t : Fin 64) (s : State) : Res := ok (migrationEnd s t)

end Sys2Proof.Machine
end

