-- ==== Sys2Proof/Machine/Turns.lean ====
section
/-!
DEFINITION. The tile agent's turns (R283 to R287), narrowing that runs out (R258), widening (R259), the
re-admission test (R268), a slice that faults (R13, R260), and what a voltage transition or brace has held
back (R296, R308).
-/

namespace Sys2Proof.Machine

/-! ### Records of turns (R287, R290) -/

namespace TCode
def PASS := 1
def FAIL := 2
def ABANDONED := 3
def NOT_STARTED := 4
end TCode

def recReg (t u j : Nat) : Nat := taReg t (Off.BST_TA_REC u j)
/-- The golden value of a part of unit u under the turn pattern set. -/
def goldenOf (u part : Nat) : W := Config.goldenTurn (if u < 2 then part else 12 + part)

/-- CODE and PART, and the golden value of the part. -/
def recordCode (s : State) (t u part code : Nat) : State :=
  (s.setReg (recReg t u 0) (W.at 0 3 code ||| W.at 3 4 part)).setReg (recReg t u 2) (goldenOf u part)
/-- The end of a turn: its MISR and FT, the coverage bit of a pass, the counts. -/
def recordTurn (s : State) (t : Nat) (x : Turn) (code : Nat) (misr : W) : State :=
  let s1 := (recordCode s t x.unit x.part code).setReg (recReg t x.unit 1) misr
  let s2 := (s1.setReg (recReg t x.unit 4) (ftHi (ftTile s t))).setReg (recReg t x.unit 5) (ftLo (ftTile s t))
  let s3 := modTa s2 t (fun a => { a with turn := none })
  if code = TCode.PASS then
    setBit { s3 with lastPass := Sparse.ins s3.lastPass (8 * t + x.unit) (ftNow s) } (recReg t x.unit 3) x.part true
  else if code = TCode.FAIL then incSat s3 (bstReg Off.BST_FAIL_CNT)
  else incWrap s3 (bstReg Off.BST_ABANDON_CNT)
/-- The MISR of a test that has not ended is open (log entry 4). -/
def recordAbandon (s : State) (t : Nat) (x : Turn) : State :=
  let (w, s1) := freeW s
  recordTurn s1 t x TCode.ABANDONED w
def notStarted (s : State) (t u part : Nat) : State :=
  incWrap (recordCode s t u part TCode.NOT_STARTED) (bstReg Off.BST_NOSTART_CNT)

/-! ### GO (R281, R283, R285) -/

/-- R263: a link half of the router is being repaired. -/
def repairing (s : State) (t : Nat) : Bool := s.repairs.any (fun h => decide (h.1 = t ∨ across h.1 h.2.1 = t))
/-- What the tile agent requires of its tile for a turn. -/
def turnOpen (s : State) (t : Nat) : Bool :=
  decide (tileState s t = TS.RUN) && (s.ta t).entering.isNone && (s.ta t).turn.isNone && !braced s
def mayTurnSlice (s : State) (t part : Nat) : Bool :=
  turnOpen s t && regBit s (taReg t Off.BST_TA_LOAD) 14 && sliceIn s t 0 && sliceIn s t 1 &&
    (s.ta t).nar.isNone && (s.ta t).wide.isNone && !repairing s t && decide (part ≤ 11)
/-- R12 refuses a turn on a router with a fenced slice and does not say whether it means a bank turn; R281 cites it for
both kinds, and so does the model (DEDUCED, log entry 42). -/
def mayTurnBank (s : State) (t b part : Nat) : Bool :=
  turnOpen s t && regBit s (taReg t Off.BST_TA_LOAD) 15 && sliceIn s t 0 && sliceIn s t 1 && !repairing s t && (s.tmc t).mig.isNone &&
    decide (getFld s (tmemReg t Off.TMEM_BANK_MAP) 0 4 = b) && decide (part ≤ 3)

def turnStart (s : State) (t u part : Nat) : State :=
  let s1 := incWrap s (bstReg Off.BST_TURN_CNT)
  if u < 2 then
    (if mayTurnSlice s t part then
      startNarrow (modTa s1 t (fun a => { a with turn := some { unit := u, part := part, phase := .narrowing, go := s.fc } }))
        t u .turn
     else notStarted s1 t u part)
  else if mayTurnBank s t (u - 2) part then
    modTa s1 t (fun a => { a with turn := some { unit := u, part := part, phase := .testing, go := s.fc } })
  else notStarted s1 t u part

/-- A write of BST_TA_CTRL; the start of a turn waits for the end of a voltage transition (R296). -/
def turnCtrl (s : State) (t : Nat) (v : W) : State :=
  if !v.bit 0 then s
  else if taVtrans s t then modTa s t (fun a => { a with waitReq := a.waitReq ++ [.turn v] })
  else turnStart s t (v.fld 1 3) (v.fld 4 4)

/-! ### The end of a test (R283 to R285) -/

def setTurn (s : State) (t : Nat) (x : Turn) : State := modTa s t (fun a => { a with turn := some x })

/-- A turn closes: the router is widened, and the record waits for the end of step h. -/
def closeTurn (s : State) (t : Nat) (x : Turn) (code : Nat) (misr : W) : State :=
  startWiden (setTurn s t { x with phase := .closing, code := code, misr := misr }) t x.unit

/-- A MISR that differs from its golden value. -/
def failTurn (s : State) (t : Nat) (x : Turn) (misr : W) : State :=
  let s1 := recordTurn s t x TCode.FAIL misr
  if x.unit < 2 then
    logTile (setSlice s1 t x.unit 2 1) t EvC.SLICE_FAIL
      [W.at 7 6 t ||| W.at 13 1 x.unit ||| W.at 14 4 x.part, misr, goldenOf x.unit x.part]
  else nextMig (modTmc (logFw (setBit s1 (tmemReg t Off.TMEM_BANK_MAP) 3 true) EvC.BANK_RETIRED []) t (fun m =>
    { m with session := false })) t

def partEnd (s : State) (t : Nat) (misr : W) : State :=
  match (s.ta t).turn with
  | none => s
  | some x =>
    if x.phase ≠ .testing then s
    else if misr ≠ goldenOf x.unit x.part then failTurn s t x misr
    else if x.unit < 2 then closeTurn s t x TCode.PASS misr
    else recordTurn s t x TCode.PASS misr

/-- 37.5 µs after GO the test has not ended. -/
def abandonTurn (s : State) (t : Nat) : State :=
  match (s.ta t).turn with
  | none => s
  | some x =>
    if x.phase ≠ .testing then s
    else if x.unit < 2 then
      let (w, s1) := freeW s
      closeTurn s1 t x TCode.ABANDONED w
    else recordAbandon s t x

/-! ### A narrowing that waits too long (R258) -/

def giveUpNarrow (s : State) (t : Nat) (x : Nar) : State :=
  let s1 := maxReg s (slcReg t x.sl Off.SLC_NARROW_MAX) (min (s.fc - x.since) (2 ^ 24 - 1))
  resyncAll (modTa s1 t (fun a => { a with nar := none })) t false

def narrowExpires (s : State) (t : Nat) : State :=
  match (s.ta t).nar with
  | none => s
  | some x =>
    if narrowReady s t then s
    else match x.why with
      | .repair =>
        if x.slow then s
        else logTile (modTa s t (fun a => { a with nar := some { x with slow := true } })) t EvC.NARROW_SLOW []
      | .slim => recordRefusal (giveUpNarrow s t x) t 1 2 false
      | .turn =>
        let s1 := giveUpNarrow s t x
        match (s.ta t).turn with
        | none => s1
        | some u => notStarted (modTa s1 t (fun a => { a with turn := none })) t u.unit u.part

/-! ### Widening (R259, R198) -/

/-- A slice is in service again. -/
def sliceBack (s : State) (t sl : Nat) : State :=
  let s1 := setSlice s t sl 0 0
  let s2 := if sliceState s t sl = 4 then incWrap s1 (slcReg t sl Off.SLC_READMIT_CNT) else s1
  if tileState s t = TS.SLIM then setFld (setTileState s2 t TS.RUN) (taReg t Off.PWR_TA_STAT) 5 1 0 else s2
/-- The widening has ended; the next one that waits begins. -/
def nextWide (s : State) (t : Nat) : State :=
  modTa s t (fun a => { a with wide := a.wideQ.head?, wideQ := a.wideQ.tail,
                               wideFor := if a.wideQ.isEmpty then [] else dueAtRouter s t })
/-- The returning slice is re-initialised, trained and ganged, and the ports are resynchronised. Each of its halves is
trained in both directions, and the result stands at the receiving end; a half of it that replay had fenced starts
anew. R259 gives no outcome for a half that fails here, and in the model each passes (DESIGN CHOICE, log entry 38). -/
def widenNow (s : State) (t sl : Nat) : State :=
  let s1 := forEach (fun i st => if i = col t ∨ i = 8 + row t then st
    else
      let u := across t i
      let l := linkOf st t i
      trainPassed (trainPassed (setLink st t i { l with esc := if l.esc = some sl then none else l.esc }) t sl i)
        u sl (portTo u t)) (List.range 16) s
  slimWaited (resyncAll (sliceBack (nextWide s1 t) t sl) t (!sliceIn s t (1 - sl))) t

/-- The turn that ends with the widening is recorded. -/
def endTurn (s : State) (t : Nat) : State :=
  match (s.ta t).turn with
  | none => s
  | some x => if x.phase = .closing then recordTurn s t x x.code x.misr else s

/-- R198, R283: a launch that was due when the widening began holds it, until the 4 tc after the launch are over. Launches
armed since, and those that brace holds, do not. -/
def widenHeld (s : State) (t : Nat) : Bool :=
  let a := s.ta t
  s.launches.any (fun l => a.wideFor.contains (l.fid, l.n) && dueSoon s l) ||
    (!a.wideFor.isEmpty && (match a.applyTc with
      | none => false
      | some e => decide (tcNow s < e + 4)))
def widenRouter (s : State) (t : Nat) : State :=
  match (s.ta t).wide with
  | none => s
  | some sl => if widenHeld s t || tileDark s t then s else endTurn (widenNow s t sl) t

/-! ### The re-admission test (R268) -/

def readmitPass (misrs : List W) : Bool :=
  (List.range 12).all (fun i => decide (wordAt misrs i = Config.goldenTurn i))
def readmitEnd (s : State) (t sl : Nat) (misrs : List W) : State :=
  if sliceState s t sl ≠ 4 || (s.ta t).wide = some sl || (s.ta t).wideQ.contains sl then s
  else if readmitPass misrs then startWiden s t sl
  else logFw (setFld s (slcReg t sl Off.SLC_STAT) 0 3 2) EvC.READMIT_FAIL []

/-! ### A slice faults (R13, R260) -/

/-- The turn that a fault meets ends with code 3; the isolated slice comes back by the closing steps. -/
def faultTurn (s : State) (t : Nat) : State :=
  match (s.ta t).turn with
  | none => s
  | some x =>
    if 2 ≤ x.unit then s
    else match x.phase with
      | .narrowing => recordAbandon s t x
      | .closing => setTurn s t { x with code := TCode.ABANDONED }
      | _ =>
        let (w, s1) := freeW s
        closeTurn s1 t x TCode.ABANDONED w

/-- Slice sl of router t faults while it carries traffic. With its twin in service the router goes on
half-width from empty, and the tile agent sends BUSY; otherwise the router is out of service. -/
def faultCarrying (s : State) (t sl : Nat) : State :=
  let s1 := faultTurn (modTa (setSlice (dropRouter (killAround s t) t) t sl 2 2) t (fun a => { a with nar := none, entering := none, slimDue := none })) t
  if sliceIn s t (1 - sl) then
    modTa (resyncAll s1 t true) t (fun a => { a with busyDue := true })
  else catchAround (fenceAround s1 t) t

def faultSlice (s : State) (t sl : Nat) : State :=
  if tileDark s t then s
  else
    let s0 := logTile s t EvC.SLICE_FAULT []
    if sliceIn s t sl then faultCarrying s0 t sl else s0

def execSliceFault (t : Fin 64) (sl : Fin 2) (s : State) : Res := ok (faultSlice s t sl)

/-! ### What has waited for the end of a transition or of brace (R296, R308) -/

def serveWait (t : Nat) (q : WaitReq) (s : State) : State :=
  match q with
  | .target v => writeTarget s t v
  | .claim v => writeClaim s t v
  | .turn v => turnCtrl s t v

/-- A transition ends. An SC5 bit set meanwhile is a raising request too. -/
def endVt (s : State) (t : Nat) : State :=
  let a := s.ta t
  let s1 := setFld (setBit s (taReg t Off.PWR_TA_STAT) 3 (!a.vtUp)) (taReg t Off.PWR_TA_STAT) 4 1 0
  let s2 := modTa s1 t (fun x => { x with waitReq := [], vtDue := none, lines := a.lines })
  let s3 := forEach (serveWait t) a.waitReq (if s2.profDue.contains t then s2 else takeProfile s2 t)
  let s4 := match a.vtDue with
    | some up => wantVt s3 t up
    | none => s3
  if sc5Tile s t then wantVt s4 t true else s4

/-- The transition that brace has held back begins. Low gear is entered only where nothing refuses it by then, R20's bit
and a claim among them, and in a tile that is not dark (DEDUCED, log entry 42). -/
def beginDue (s : State) (t : Nat) : State :=
  match (s.ta t).vtDue with
  | none => s
  | some true => wantVt s t true
  | some false =>
    if tileDark s t || (s.ta t).entering.isSome then modTa s t (fun x => { x with vtDue := none }) else gearOp s t
/-- What brace has held at a tile begins. -/
def afterBrace (s : State) (t : Nat) : State :=
  if taVtrans s t then s
  else beginDue (forEach (serveWait t) (s.ta t).waitReq (modTa s t (fun x => { x with waitReq := [] }))) t

/-! ### The rows of turns -/

def execNarrowTimeout (t : Fin 64) (s : State) : Res := ok (narrowExpires s t)
def execPartDone (t : Fin 64) (misr : W) (s : State) : Res := ok (partEnd s t misr)
def execTurnAbandon (t : Fin 64) (s : State) : Res := ok (abandonTurn s t)
def execWidenRouter (t : Fin 64) (s : State) : Res := ok (widenRouter s t)
def execReadmitTest (t : Fin 64) (sl : Fin 2) (misrs : List W) (s : State) : Res := ok (readmitEnd s t sl misrs)

end Sys2Proof.Machine
end

