-- ==== Sys2Proof/Machine/Time.lean ====
section
/-!
DEFINITION. Fabric time and the Time Keepers (R179 to R189, R341): the tc edge, the tree, switchover,
discipline, the alarm; the issue of LAUNCH with the rules that move an edge (R189, R198, R199, R201).
-/

namespace Sys2Proof.Machine

/-! ### INC (R180) -/

def incNom : Nat := 0xD5555555
/-- A field read as a two's complement number. -/
def signedOf (x len : Nat) : Int := if x < 2 ^ (len - 1) then (x : Int) else (x : Int) - 2 ^ len
/-- INC = NOM + ⌊NOM · FADJ / 2^32⌋. -/
def incOf (fadj : W) : Nat := ((incNom : Int) + (incNom * signedOf (fadj.fld 0 32) 32) / 2 ^ 32).toNat

def tkBit (s : State) (i : Nat) : Bool := regBit s (tkReg Off.TK_STAT) i
def setTk (s : State) (i : Nat) (b : Bool) : State := setBit s (tkReg Off.TK_STAT) i b
def switching (s : State) : Bool := tkBit s 2
def stbyOk (s : State) : Bool := tkBit s 1
def holdover (s : State) : Bool := tkBit s 4
/-- TK0 or TK1. -/
def activeTk (s : State) : Nat := getFld s (tkReg Off.TK_STAT) 0 1
/-- An active Time Keeper drives the tree. -/
def tkDrives (s : State) : Bool := !s.tkNone && !switching s && !holdover s

/-- R185: a switchover is in progress, or has ended within the last 16 tc. -/
def swNear (s : State) : Bool :=
  switching s || (match s.swEnd with
    | none => false
    | some e => decide (tcNow s < e + 16))
/-- R30: TIM_VLD of NI n. -/
def timVld (s : State) (n : Nat) : Bool :=
  niTimEn s n && !swNear s && !s.braceOn && !unitClosed s n && !s.timWait && !s.timDue.contains (n / 7)
/-- R30: TIM_FT of NI n, in 1/64 ns: FT and the signed NI_FT_COMP, within the range of R179. -/
def timFt (s : State) (n : Nat) : Nat :=
  (((ftTile s (n / 7) : Nat) + signedOf (getFld s (niReg n Off.NI_FT_COMP) 0 16) 16) % ((2 ^ 36 * ftSec : Nat) : Int)).toNat

/-! ### The tc edge, beats and calibration (R180, R183, R184) -/

/-- A tc edge: the fc count and FT move on. -/
def tcStep (s : State) : State := { s with fc := s.fc + 8, ft := ftWrap (s.ft + incNow s) }

/-- A change of TK_FADJ takes effect at a beat; the first after the cold start, or after a wake, lets TIM_VLD rise (R300,
R328). -/
def execBeat (s : State) : Res :=
  when_ (tkDrives s) s ({ s with timWait := false, timDue := [] }.setReg (tkReg Off.TK_INC) (natW (incOf (s.reg (tkReg Off.TK_FADJ)))))

/-- Half of a round trip in units of the root clock, in 1/64 ns: 20/3 of a unit for each. -/
def branchDelay (rtt : Nat) : Nat := rtt * 20 / 3
def calibrate (s : State) (t : Nat) (r0 r1 res : Nat) : State :=
  let s0 := s.setReg (tkReg (Off.TK_TREE_DLY t)) (W.at 0 16 (branchDelay r0) ||| W.at 16 16 (branchDelay r1))
  let s1 : State := { s0 with calDue := s.calDue - 1 }
  let m := max s.calMax res
  if s.calN + 1 < 64 then { s1 with calN := s.calN + 1, calMax := m }
  else { s1.setReg (tkReg Off.TK_TREE_SKEW) (W.at 0 12 m) with calN := 0, calMax := 0 }
/-- The active Time Keeper, or one that is restarted after the loss of both (R269), measures a branch. -/
def execTreeCalibrate (t : Fin 64) (rtt0 rtt1 : BitVec 16) (residual : BitVec 12) (s : State) : Res :=
  when_ (tkDrives s || s.tkNone && !holdover s) s (calibrate s t rtt0.toNat rtt1.toNat residual.toNat)

/-! ### LAUNCH (R183, R189, R195, R198, R199, R201) -/

/-- A launch that has entries at tile t for its router or slice registers. -/
def routerTiles (s : State) (l : Launch) : List Nat := (List.range 64).filter (fun t => touchesRouter s t l.fid)
def tilesAt (l : Launch) : List Nat := (l.nis.map (fun n => n / 7)).eraseDups
/-- The first edge after every BUSY that l meets. -/
def afterBusy (s : State) (l : Launch) (e : Nat) : Nat :=
  (routerTiles s l).foldl (fun m t => match (s.ta t).busyTo with
    | some b => if tcNow s ≤ b then max m (b + 1) else m
    | none => m) e
/-- Two launches have a tile in common. -/
def shareTile (l g : Launch) : Bool := decide (g.fid ≠ l.fid) && (tilesAt g).any (fun t => t ∈ tilesAt l)
/-- R199: the first edge that launch l has of itself lies at or after B of a later brace than the first. -/
def staysHeld (s : State) (l : Launch) : Bool := s.braces.tail.any (fun x => decide (x.1 ≤ max (edgeOf s l.lt) l.minEdge))
/-- The release edge of the brace that holds l, where it is known. -/
def releaseOf (s : State) (l : Launch) : Option Nat :=
  let later := s.braces.tail.filter (fun x => decide (x.1 ≤ max (edgeOf s l.lt) l.minEdge))
  (later.getLast?.orElse (fun _ => s.braces.head?)).bind (fun x => x.2)
/-- The edge of a launch: the one issued, or the release edge of one that brace holds. -/
def takenEdge (s : State) (g : Launch) : Option Nat := if g.held then releaseOf s g else g.edge
/-- Edges at which the apply path of a tile of l is used: those of the other launches, and the last that has run. -/
def pathEdges (s : State) (l : Launch) : List Nat :=
  (s.launches.filter (shareTile l)).filterMap (takenEdge s) ++ (tilesAt l).filterMap (fun t => (s.ta t).applyTc)
/-- The path is busy for 4 tc after an edge; equal edges run in arm sequence (R194). -/
def clashes (e f : Nat) : Bool := decide (e ≠ f) && decide (e < f + 4 ∧ f < e + 4)
def firstFree (edges : List Nat) : Nat → Nat → Nat
  | 0, e => e
  | n + 1, e => match edges.find? (clashes e) with
    | none => e
    | some f => firstFree edges n (f + 4)
/-- The first edge from e on that lies in the 4 tc after none of `edges`. -/
def firstAfter (edges : List Nat) : Nat → Nat → Nat
  | 0, e => e
  | n + 1, e => match edges.find? (fun f => decide (f < e ∧ e < f + 4)) with
    | none => e
    | some f => firstAfter edges n (f + 4)
/-- The edge of l, at least `lead` tc ahead. -/
def launchEdgeOf (s : State) (l : Launch) (lead : Nat) : Nat :=
  let e := max (max (edgeOf s l.lt) l.minEdge) (tcNow s + lead)
  let edges := pathEdges s l
  firstFree edges (edges.length + 1) (afterBusy s l e)
/-- The edge of a held launch at the release: the present one; BUSY moves it to the first free edge after its end. -/
def releaseEdge (s : State) (l : Launch) : Nat :=
  let edges := pathEdges s l
  firstFree edges (edges.length + 1) (afterBusy s l (tcNow s))
/-- R199: a launch at or after B and before the release edge is held. -/
def braceHolds (s : State) (e : Nat) : Bool :=
  s.braces.any (fun x => decide (x.1 ≤ e) && x.2.all (fun r => decide (e < r)))

def slotLive (s : State) (l : Launch) : Bool :=
  decide (slotState s (fidSlot l.fid) = SS.ARMED ∨ slotState s (fidSlot l.fid) = SS.RUNNING)
/-- R195: a target that is missing from the staged set before the first launch. -/
def missingAt (s : State) (l : Launch) : Option Nat :=
  if l.n = 0 then l.nis.find? (fun n => !l.gone.contains n && !((s.ni n).hold.any (fun e => decide (e.fid = l.fid)))) else none

/-- R198: a launch that is to run at edge r moves those that share a tile with it off the 4 tc after r. -/
def clearPath (s : State) (l : Launch) (r : Nat) : State :=
  forEach (fun g st => match g.edge with
    | some e => if shareTile l g && clashes e r then
        modLaunch st g.fid (fun x => { x with edge := some (launchEdgeOf st x 0) }) else st
    | none => st) s.launches s
/-- The launch is held by brace; where the release edge is known, its path is cleared there. -/
def holdLaunch (s : State) (l : Launch) : State :=
  let s1 := modLaunch s l.fid (fun x => { x with held := true })
  match releaseOf s l with
  | none => s1
  | some r => clearPath s1 l r
/-- R185, R198: the first edge that is left to a launch which its LAUNCH could not lead by 64 tc at the edge of its time. -/
def leadMin (s : State) (l : Launch) : Nat :=
  if edgeOf s l.lt < tcNow s + 64 then max l.minEdge (tcNow s + 64) else l.minEdge
/-- LAUNCH is issued with an edge, or the launch is held by brace. -/
def issueLaunch (s : State) (l : Launch) : State :=
  match missingAt s l with
  | some n => abortLaunch s l.fid Rsn.LOST (entryIdx (s.slot (fidSlot l.fid)) n) (some (nodeOf s n))
  | none =>
    let e := launchEdgeOf s l 64
    if braceHolds s e then holdLaunch s l
    else modLaunch s l.fid (fun x => { x with edge := some e, minEdge := leadMin s l })

/-- R206: a cross-instance fanfare launches where XCONFIRM has been sent or has come. -/
def xClear (s : State) (l : Launch) : Bool :=
  let x := s.slot (fidSlot l.fid)
  (!x.cross && !x.part) || x.confirmed
def mayIssue (s : State) (l : Launch) : Bool :=
  tkDrives s && xClear s l && l.edge.isNone && !l.held && slotLive s l && decide (max (edgeOf s l.lt) l.minEdge ≤ tcNow s + 128)

def execLaunch (fid : BitVec 8) (s : State) : Res :=
  match findLaunch s fid.toNat with
  | none => ok s
  | some l => when_ (mayIssue s l) s (issueLaunch s l)

/-! ### Switchover and loss of both (R185, R269, R341) -/

def startSwitch (s : State) (unasked : Bool) : State := { setTk s 2 true with tkUnasked := unasked }
/-- A write of TK_CTRL.SWITCH = 1. -/
def askSwitch (s : State) : State :=
  if !stbyOk s || s.tkNone then logGlobal s EvC.SWITCH_REFUSED []
  else if switching s then s
  else startSwitch s false
/-- R185, R269: the standby may take over unasked: it is not held in reset. STBY_OK is a condition of TK_CTRL.SWITCH
only. -/
def stbyThere (s : State) : Bool := !s.tkDead.testBit (1 - activeTk s) && !switching s && !s.tkNone
def execBeatMissing (s : State) : Res := when_ (stbyThere s) s (startSwitch s true)
/-- The active Time Keeper's tile is marked out of service. -/
def mapSwitch (s : State) (x : Nat) : State :=
  if x = 63 * activeTk s && stbyThere s then startSwitch s true else s

/-- Firmware resets the failed Time Keeper k, or holds it in reset if it has failed again within 10 s. -/
def restartTk (s : State) (k : Nat) : State :=
  match Sparse.get (fun _ => none) s.tkBack k with
  | some b => if ftNow s < b + 10 * ftSec && !s.tkDead.testBit k then
      logFw { s with tkDead := s.tkDead + 2 ^ k } EvC.TK_DEAD []
    else s
  | none => s

def overdue (s : State) (l : Launch) : Bool := mayIssue s l
/-- After an unrequested switchover the new active one issues at once what is overdue, and the other is to measure its
branches anew (R269). -/
def switchDone (s : State) : State :=
  let old := activeTk s
  let s1 : State := { setFld (setTk s 2 false) (tkReg Off.TK_STAT) 0 1 (1 - old) with swEnd := some (tcNow s) }
  let s2 := logGlobal (incWrap s1 (tkReg Off.TK_SW_CNT)) EvC.TK_SWITCH []
  if s.tkUnasked then
    let s3 := restartTk { setTk s2 1 false with tkUnasked := false, calDue := 64 } old
    forEach (fun l st => if overdue st l then issueLaunch st l else st) s3.launches s3
  else s2
def execSwitchoverDone (s : State) : Res := when_ (switching s) s (switchDone s)

/-- Slot k is armed, or its cadence runs. -/
def slotArmed (s : State) (k : Nat) : Bool := decide (slotState s k = SS.ARMED ∨ slotState s k = SS.RUNNING)
/-- The armed fanfare of slot k is aborted at every target, also while its FARM is under way. -/
def loseSlot (k : Nat) (s : State) : State :=
  let fid := slotFid s k
  let s1 := xoutcome (slotAborted (dropLaunch s fid) k Rsn.LOST none none) k XO.LOST 0
  forEach (discardAt fid) (sentNis (s.slot k)) s1
/-- Every armed fanfare is aborted. -/
def loseArmed (s : State) : State :=
  forEach (fun k st => if slotArmed s k then loseSlot k st else st) (List.range 8) s
def loseTree (s : State) (t : Nat) : State :=
  let s1 := logTile (modTa s t (fun a => { a with tkLost := true })) t EvC.TK_LOST_BOTH []
  if s1.tkNone then s1 else { setTk (loseArmed s1) 1 false with tkNone := true, calDue := 64 }
def execTkLostBoth (t : Fin 64) (s : State) : Res :=
  when_ (!switching s && !holdover s && !(s.ta t).tkLost) s (loseTree s t)

/-- A restarted Time Keeper k is in step: standby, or the active one after the loss of both; then the other has still to
measure its branches (R269, R341). -/
def tkReady (s : State) (k : Nat) : State :=
  let s1 : State := { s with tkBack := Sparse.set (fun _ => none) s.tkBack k (some (ftNow s)) }
  if s.tkNone then
    forEach (fun t st => modTa st t (fun a => { a with tkLost := false })) (List.range 64)
      { setFld s1 (tkReg Off.TK_STAT) 0 1 k with tkNone := false, calDue := 64 }
  else setTk s1 1 true
def execTkStbyOk (k : Fin 2) (s : State) : Res :=
  when_ (!s.tkDead.testBit k && !holdover s && !switching s && decide (s.calDue = 0) &&
      (s.tkNone || (decide (k.val ≠ activeTk s) && !stbyOk s))) s (tkReady s k)

/-! ### Snapshots and discipline (R181, R188, R189) -/

def snapFt (s : State) : State :=
  (s.setReg (tkReg Off.TK_SNAP_H) (ftHi (ftNow s))).setReg (tkReg Off.TK_SNAP_L) (ftLo (ftNow s))

/-- The offset of a write of TK_PSTEP, within ±(2^35 − 1). -/
def stepOf (v : W) : Int := max (-(2 ^ 35 - 1)) (signedOf v.toNat 36)
def issueStep (s : State) (d : Int) (lead : Nat) : State := { s with steps := s.steps ++ [(d, tcNow s + lead)] }
/-- A Time Keeper takes the write, during a switchover too. -/
def pstep (s : State) (v : W) : State := if s.tkNone then s else issueStep s (stepOf v) 64

/-- R189: the step passes the launch's time. -/
def stepPasses (old new : Nat) (l : Launch) : Bool := decide (old < l.lt ∧ l.lt ≤ new)
/-- The LAUNCH of l has been issued, and its edge is still to come. -/
def issuedAhead (s : State) (l : Launch) : Bool :=
  match l.edge with
  | none => false
  | some e => decide (tcNow s < e)
/-- R189: the first edge that a step of `d` from s to s' leaves a launch. One that the step passes waits 128 tc; one that
stood late, behind the edge of its time, moves by the size of a backward step, and a forward step takes nothing off it
once its time is past. -/
def stepMin (s s' : State) (d : Int) (l : Launch) : Nat :=
  let stood := if issuedAhead s l then l.edge.getD 0 else l.minEdge
  if stepPasses (ftNow s) (ftNow s') l then max l.minEdge (tcNow s + 128)
  else if edgeOf s l.lt < stood then
    (if d < 0 then max l.minEdge (stood + ceilDiv (d.natAbs * ftFrac) (incNow s))
     else if l.lt ≤ ftNow s then max l.minEdge stood else l.minEdge)
  else l.minEdge
def insertByEdge (x : Launch) : List Launch → List Launch
  | [] => [x]
  | y :: ys => if x.edge.getD 0 < y.edge.getD 0 then x :: y :: ys else y :: insertByEdge x ys
/-- The launches whose edges a step moves, in the order of those edges. -/
def stepOrder (s : State) : List Launch :=
  (s.launches.filter (issuedAhead s)).foldl (fun acc l => insertByEdge l acc) []
/-- The new edge of a launch whose LAUNCH has been issued: it follows FT, and is held where brace holds it (R199). -/
def stepEdge (l : Launch) (s : State) : State :=
  match findLaunch s l.fid with
  | none => s
  | some x =>
    let e := launchEdgeOf s x 0
    modLaunch s l.fid (fun y => if braceHolds s e then { y with held := true } else { y with edge := some e })
/-- Every count adds the offset; the launches move with it, each past those that were to run before it. -/
def stepNow (s : State) (d : Int) (rest : List (Int × Nat)) : State :=
  let s1 : State := { s with ft := ftWrap ((s.ft : Int) + d * (ftFrac : Int)).toNat, steps := rest }
  let s2 : State := { s1 with launches := s.launches.map (fun l =>
    { l with minEdge := stepMin s s1 d l, edge := if issuedAhead s l then none else l.edge }) }
  forEach stepEdge (stepOrder s) s2
/-- A step whose edge has come; a coarse set may stand behind one whose edge is later. -/
def execStepEdge (s : State) : Res :=
  match takeFirst (fun x => decide (x.2 ≤ tcNow s)) s.steps with
  | none => ok s
  | some ((d, _), rest) => ok (stepNow s d rest)

/-- A pulse `sub` sixteenths of a tc period after the last tc edge. -/
def pps (s : State) (sub : Nat) : State :=
  let at_ : Int := ((s.ft + sub * incNow s / 16) / ftFrac : Nat)
  let cap := (at_ - signedOf (getFld s (tkReg Off.TK_PPS_COMP) 0 16) 16).toNat
  let s1 := (s.setReg (tkReg Off.TK_PPS_CAP_H) (ftHi cap)).setReg (tkReg Off.TK_PPS_CAP_L) (ftLo cap)
  let s2 := setTk (incWrap s1 (tkReg Off.TK_PPS_CNT)) 5 true
  if regBit s (tkReg Off.TK_CTRL) 2 then
    let goal : Int := ((s.reg (tkReg Off.TK_PPS_SET)).toNat * ftSec : Nat)
    issueStep (setBit s2 (tkReg Off.TK_CTRL) 2 false) (goal - (ftAtEdge s (tcNow s + 1) : Nat)) 1
  else s2
def execPpsEdge (sub : Fin 16) (s : State) : Res :=
  when_ (regBit s (tkReg Off.TK_CTRL) 0 && !s.tkNone && !holdover s) s (pps s sub)

/-! ### The alarm, holdover and wake (R186, R187, R306, R309) -/

/-- Wake from Retention begins. -/
def startWake (s : State) (cause : Nat) : State :=
  let s1 := (s.setReg (pwrReg Off.PWR_WAKE_CAUSE) (W.at 0 4 cause)).setReg (pwrReg Off.PWR_WAKE_FT_H) (ftHi (ftNow s))
  setFld (s1.setReg (pwrReg Off.PWR_WAKE_FT_L) (ftLo (ftNow s))) (pwrReg Off.PWR_STAT) 0 2 3

def fstate (s : State) : Nat := getFld s (pwrReg Off.PWR_STAT) 0 2

def alarmFt (s : State) : Nat := ftOfWords (s.reg (tkReg Off.TK_ALARM_H)) (s.reg (tkReg Off.TK_ALARM_L))
def fireAlarm (s : State) : State :=
  let s1 := setBit (setBit s (tkReg Off.TK_ALARM_STAT) 0 true) (tkReg Off.TK_ALARM_CTRL) 0 false
  if s.onCell then
    setBit ((s1.setReg (pwrReg Off.PWR_LATE_FT_H) (ftHi (ftNow s))).setReg (pwrReg Off.PWR_LATE_FT_L) (ftLo (ftNow s)))
      (tkReg Off.TK_ALARM_STAT) 1 true
  else if fstate s = 2 && regBit s (pwrReg Off.PWR_WAKE_CFG) 0 then startWake s1 1
  else s1
def execAlarm (s : State) : Res :=
  when_ (regBit s (tkReg Off.TK_ALARM_CTRL) 0 && decide (alarmFt s ≤ ftNow s)) s (fireAlarm s)

def execHoldoverTick (s : State) : Res :=
  when_ (holdover s) s { s with ft := ftWrap (s.ft + 1953125 * ftFrac) }

end Sys2Proof.Machine
end

