-- ==== Sys2Proof/Machine/Fanfare.lean ====
section
/-!
DEFINITION. The commands of fanfares up to the launch: staging at an NI (R55, R192), slot commands
(R196, R197, R200), FSTGD and arming (R192, R193), losses and aborts (R195, R196), the end of a slot's
use (R197), BUSY (R198), and the messages of cross-instance fanfares (R206 to R209).
-/

namespace Sys2Proof.Machine

/-- R206: the participants listed at FNF_XLIST_k; a word that cannot be read reads zero (R132). -/
def xlistFrom (s : State) (a : Nat) : Nat → List Nat × State
  | 0 => ([], s)
  | n + 1 =>
    let (w, s1) := listWord s a
    let (l, s2) := xlistFrom s1 (a + 1) n
    ((w.getD 0).fld 0 14 :: l, s2)
def xlist (s : State) (k : Nat) : List Nat × State :=
  xlistFrom s (s.reg (slotReg k Off.FNF_XLIST)).toNat (getFld s (slotReg k Off.FNF_XCNT) 0 15)

/-- The coordinator sends XARM to each participant and arms its own part. -/
def armCross (s0 : State) (k : Nat) : State :=
  let (ids, s) := xlist s0 k
  let lt := max (slotLt s k) (ftNow s + us 50)
  let m0 := xmsg s (slotGfid s k) (inst s) lt
  let mode := getFld s (slotReg k Off.FNF_XCNT) 15 2
  let rec_ := getFld s (slotReg k Off.FNF_XREC) 0 32
  let m : XMsg :=
    { m0 with count := Fin.ofNat _ ids.length, mode := Fin.ofNat _ mode, recov := BitVec.ofNat 32 rec_ }
  let s1 := forEach (fun i st => xsend st i XT.XARM m) ids s
  let c : XCo := { slot := k, gfid := slotGfid s k, lt := lt, parts := ids.map (fun i => { inst := i }) }
  let s2 : State := { s1 with xco := s1.xco ++ [c] }
  armSlot (modSlot s2 k (fun x => { x with cross := true })) k lt

/-! ### Staging at an NI (R55, R192, R340) -/

def takeOpc (s : State) (n opc : Nat) : Option (Pkt × State) := takeEject s n (fun p => decide (p.opc = opc))

/-- An FSTAGE stays in the hold store; an entry for the unit window goes to the unit. -/
def stageEntry (s : State) (n : Nat) (p : Pkt) : State :=
  if p.poisoned then reportLost s p.tag n
  else
    let win := isWindow s p.addr
    let now := win && !(s.ni n).urst && !tileDark s (n / 7)
    let e : HoldEnt := { fid := p.tag, addr := p.addr, data := p.words.take p.cnt, last := p.flag 1,
                         delivered := !win || now, src := p.src }
    let s1 := modNi s n (fun x => { x with hold := x.hold ++ [e] })
    if now then present s1 n .ireq (stagePkt (nodeOf s n) e) else s1

def execFstage (n : NiId) (s : State) : Res :=
  match takeOpc s n.idx Opc.FSTAGE with
  | none => ok s
  | some (p, s1) => ok (stageEntry s1 n.idx p)

/-- FSTGD, once the entry marked LAST has come and the unit has accepted every entry of its own. -/
def sendFstgd (s : State) (n fid : Nat) : State :=
  let mine := (s.ni n).hold.filter (fun e => decide (e.fid = fid))
  match mine.find? (fun e => e.last && !e.sent) with
  | none => s
  | some e =>
    if mine.all (fun g => g.delivered) then
      ownSend (modNi s n (fun x => { x with hold := x.hold.map (fun g => if g.fid = fid then { g with sent := true } else g) }))
        n e.src Opc.FSTGD 6 mine.length fid 0 0 []
    else s

def execFstgdSend (n : NiId) (fid : BitVec 8) (s : State) : Res := ok (sendFstgd s n.idx fid.toNat)

/-- The unit's side of the strobe queue presents one entry. A late one is flagged (R29), and logged where NI_ERR_MASK lets it
(R56). R302: while the clamps hold, none is presented. -/
def strobeOut (s : State) (n : Nat) (late : Bool) : State :=
  match (s.ni n).strobes with
  | [] => s
  | b :: rest =>
    if tileDark s (n / 7) then s
    else
    let s1 := modNi s n (fun x => { x with strobes := rest, tim := x.tim ++ [b] })
    if !late then s1
    else
      let s2 := raiseErr s1 n ErrB.TIM_LATE 0 b.fid ErrCh.TIM
      if regBit s (niReg n Off.NI_ERR_MASK) ErrB.TIM_LATE then s2 else logNi s2 n EvC.TIME_LATE [natW b.fid]

def execTimStrobe (n : NiId) (late : Bool) (s : State) : Res := ok (strobeOut s n.idx late)

/-! ### Slot commands (R196, R197, R200) -/

/-- The cadence ends; a launch whose LAUNCH has been issued is in progress and still runs. -/
def fnfStop (s : State) (k : Nat) : State :=
  let fid := slotFid s k
  if slotState s k ≠ SS.RUNNING then s
  else match findLaunch s fid with
    | none => setSlotState s k SS.FREEING
    | some l => if l.edge.isSome then modSlot s k (fun x => { x with stopReq := true })
        else setSlotState (dropLaunch s fid) k SS.FREEING

/-- The host withdraws the fanfare: by FABRT before ARM, through the Time Keepers after it. -/
def fnfAbort (s : State) (k : Nat) : State :=
  let st := slotState s k
  if st = SS.STAGING ∨ st = SS.XWAIT then abortStaged s k Rsn.HOST none none
  else if st = SS.ARMED then
    forEach (fun n x => ownSend x (coordNi x) (nodeOf x n) Opc.FABRT 6 0 (slotFid s k) 0 0 []) [niOf 0 5, niOf 63 5] s
  else s

/-- A write of FNF_CMD_k. -/
def fnfCmd (s : State) (k : Nat) (v : W) : State :=
  let s1 := if v.bit 0 then fnfGo s k false else if v.bit 3 then fnfGo s k true else s
  let s2 := if v.bit 1 then fnfStop s1 k else s1
  if v.bit 2 then fnfAbort s2 k else s2

/-! ### FSTGD, FARM, ARM (R192, R193, R206) -/

/-- Every FSTGD has arrived and matches. R341: with both Time Keepers lost the slot does not arm; it stays in STAGING
until its time-out (DESIGN CHOICE, log entry 40). -/
def slotStaged (s : State) (k : Nat) : State :=
  if (s.slot k).stageOnly then setSlotState s k SS.XWAIT
  else if s.tkNone then s
  else if 0 < getFld s (slotReg k Off.FNF_XCNT) 0 15 then armCross s k
  else armSlot s k (slotLt s k)

/-- An FSTGD from node `src` with a count. -/
def countStaged (s : State) (fid src cnt : Nat) : State :=
  let k := fidSlot fid
  let n := nodeNi src
  if slotFid s k ≠ fid ∨ slotState s k ≠ SS.STAGING then s
  else match takeFirst (fun w => decide (w.1 = n)) (s.slot k).want with
    | none => s
    | some (w, rest) =>
      if w.2 ≠ cnt then abortStaged s k Rsn.COUNT (entryIdx (s.slot k) n) (some src)
      else
        let s1 := modSlot s k (fun x => { x with want := rest })
        if stagedAll s1 k then slotStaged s1 k else s1

def coordPort (c : Fin 2) : Nat := if c.val = 0 then 6 else 447
def execFstgd (c : Fin 2) (s : State) : Res :=
  match takeOpc s (coordPort c) Opc.FSTGD with
  | none => ok s
  | some (p, s1) => ok (countStaged s1 p.tag p.src p.cnt)

/-- The clamped launch time of a short lead: FNF_LT_k, CLAMPED, the count, firmware's shadows (R193). -/
def clampLt (s : State) (k lt : Nat) : State :=
  let s1 := setBit (setSlotLt s k lt) (slotReg k Off.FNF_STAT) 28 true
  let s2 := setShadow (setShadow s1 (slotReg k Off.FNF_LT_H) (ftHi lt)) (slotReg k Off.FNF_LT_L) (ftLo lt)
  noteTicketLt (incWrap s2 (fnfReg Off.FNF_CLAMP_CNT)) k lt

/-- The Time Keepers enter the fanfare. -/
def enterLaunch (s : State) (fid lt : Nat) : State :=
  let k := fidSlot fid
  if slotFid s k ≠ fid ∨ slotState s k ≠ SS.ARMED ∨ (findLaunch s fid).isSome then s
  else
    let short := decide (lt < ftNow s + us 2)
    let lt' := if short then ftAtEdge s (edgeOf s (ftNow s + us 2)) else lt
    let l : Launch :=
      { fid := fid, lt := lt', lt0 := lt', aseq := getFld s (slotReg k Off.FNF_STAT) 12 16,
        per := 64 * getFld s (slotReg k Off.FNF_PER) 0 30,
        nis := ((s.slot k).ents.map (fun e => e.ni)).eraseDups }
    let s1 := if short then clampLt s k lt' else s
    { s1 with launches := s1.launches ++ [l] }

def keeperPort (c : Fin 2) : Nat := if c.val = 0 then niOf 0 5 else niOf 63 5
def execFarm (c : Fin 2) (s : State) : Res :=
  match takeOpc s (keeperPort c) Opc.FARM with
    | none => ok s
    | some (p, s1) => ok (if s.tkNone then s1 else enterLaunch s1 p.tag (ftOfWords p.arg (wordAt p.words 0)))

/-- ARM at tile t: a dozing tile that holds entries wakes at once (R198). -/
def armAt (s : State) (t fid : Nat) : State :=
  match findLaunch s fid with
  | none => s
  | some l =>
    if l.nis.any (fun n => decide (n / 7 = t)) then wakeTile s t WakeBy.OTHER else s

def execArm (t : Fin 64) (fid : BitVec 8) (s : State) : Res := ok (armAt s t fid.toNat)

/-! ### Failures (R195, R196) -/

def execStgTo (k : Fin 8) (s : State) : Res :=
  let w := (s.slot k).want.head?
  when_ (slotState s k = SS.STAGING) s
    (abortStaged s k Rsn.STG_TO (w.bind (fun v => entryIdx (s.slot k) v.1)) (w.map (fun v => nodeOf s v.1)))

/-- LOST of NI n reaches the active Time Keeper, or the engine before ARM. -/
def takeLost (s : State) (fid n : Nat) : State :=
  let k := fidSlot fid
  if !fidOpen s fid then s
  else
    let idx := entryIdx (s.slot k) n
    let st := slotState s k
    if st = SS.STAGING ∨ st = SS.XWAIT then abortStaged s k Rsn.LOST idx (some (nodeOf s n))
    else if st = SS.ARMED && !lastMoments s fid then abortLaunch s fid Rsn.LOST idx (some (nodeOf s n))
    else s

def execLost (fid : BitVec 8) (n : NiId) (s : State) : Res :=
  match takeFirst (fun p => decide (p = (fid.toNat, n.idx))) s.losts with
  | none => ok s
  | some (_, rest) => ok (takeLost { s with losts := rest } fid.toNat n.idx)

/-- ABORT at every target. -/
def abortAll (s : State) (fid : Nat) : State := forEach (fun n st => discardAt fid n st) (s.nis.map (fun e => e.1)) s

def execAbort (fid : BitVec 8) (s : State) : Res :=
  match takeFirst (fun f => decide (f = fid.toNat)) s.aborts with
  | none => ok s
  | some (_, rest) => ok (abortAll { s with aborts := rest } fid.toNat)

/-- FABRT at an NI; at the Time Keepers' NIs it withdraws an armed fanfare before LT − 500 ns. -/
def takeFabrt (s : State) (n fid : Nat) : State :=
  if (n = niOf 0 5 ∨ n = niOf 63 5) ∧ (findLaunch s fid).isSome then
    (if slotState s (fidSlot fid) = SS.ARMED && !lastMoments s fid then abortLaunch s fid Rsn.HOST none none else s)
  else discardAt fid n s

def execFabrt (n : NiId) (s : State) : Res :=
  match takeOpc s n.idx Opc.FABRT with
  | none => ok s
  | some (p, s1) => ok (takeFabrt s1 n.idx p.tag)

/-! ### The end of a slot's use (R197) -/

def execFreeingEnd (k : Fin 8) (s : State) : Res :=
  when_ (slotState s k = SS.FREEING) s
    (let s1 := incWrap (setSlotState (freeSlotEnts s k) k SS.DONE) (fnfReg Off.FNF_APPLY_CNT)
     pump (logGlobal s1 EvC.FNF_APPLY []))

def execAbortedEnd (k : Fin 8) (s : State) : Res :=
  when_ (slotState s k = SS.ABORTED) s (pump (setSlotState (freeSlotEnts s k) k SS.IDLE))

/-! ### BUSY (R198) -/

/-- The first edge after the end at b at which no earlier launch has the path of l; a later one there moves (R198). Brace
holds it where it holds that edge. -/
def busyEdge (b : Nat) (l : Launch) (s : State) : State :=
  let edges := pathEdges s l
  let e := firstAfter edges (edges.length + 1) (afterBusy s l (max (max (edgeOf s l.lt) l.minEdge) (b + 1)))
  if braceHolds s e then modLaunch s l.fid (fun x => { x with held := true })
  else clearPath (modLaunch s l.fid (fun x => { x with edge := some e })) l e
/-- Launches with router or slice entries at tile t move past the end. -/
def takeBusy (s : State) (t d : Nat) : State :=
  let b := tcNow s + d
  let s1 := modTa s t (fun a => { a with busyDue := false, busyTo := some b })
  let meets (l : Launch) : Bool := l.edge.any (fun e => decide (e ≤ b)) && touchesRouter s t l.fid
  let late := (s.launches.filter meets).foldl (fun acc l => insertByEdge l acc) []
  forEach (busyEdge b) late { s1 with launches := s.launches.map (fun l => if meets l then { l with edge := none } else l) }

def execBusy (t : Fin 64) (endTc : Fin 601) (s : State) : Res :=
  when_ (s.ta t).busyDue s (takeBusy s t endTc)

/-! ### Messages of cross-instance fanfares (R205 to R209) -/

/-- The oldest message of a type that has come; one already acted on is dropped. -/
def takeX (s : State) (type : Nat) : Option (Bool × XMsg × State) :=
  match takeFirst (fun e => decide (e.1 = type)) s.xin with
  | none => none
  | some ((_, m), rest) =>
    let key := (m.gfid.toNat, type, m.src.val)
    let s1 := { s with xin := rest }
    if key ∈ s.xseen then some (false, m, s1) else some (true, m, { s1 with xseen := s1.xseen ++ [key] })
def onX (s : State) (type : Nat) (f : State → XMsg → State) : Res :=
  match takeX s type with
  | none => ok s
  | some (fresh, m, s1) => ok (if fresh then f s1 m else s1)

/-- The slot of this instance that is staged for a GFID. -/
def stagedSlot (s : State) (gfid : Nat) : Option Nat :=
  (List.range 8).find? (fun k => decide (slotState s k = SS.XWAIT ∧ slotGfid s k = gfid))
/-- R209: the participant takes no part in the recovery. -/
def alreadyIn (s : State) (m : XMsg) : Bool :=
  if m.mode.val = 1 then histApplied s m.recov.toNat else if m.mode.val = 2 then !histApplied s m.recov.toNat else false

def replyStaged (s : State) (m : XMsg) (status : Nat) : State :=
  xsend s m.coord.val XT.XSTAGED
    { xmsg s m.gfid.toNat m.coord.val (ftOfWords m.ltH m.ltL) with status := Fin.ofNat _ status }

def takeXarm (s : State) (m : XMsg) : State :=
  let lt := ftOfWords m.ltH m.ltL
  if alreadyIn s m then replyStaged s m 3
  else match stagedSlot s m.gfid.toNat with
    | none => replyStaged s m 1
    | some k =>
      if s.tkNone then replyStaged s m 1
      else if lt < ftNow s + us 20 then replyStaged s m 2
      else replyStaged (armSlot (modSlot s k (fun x => { x with part := true, coord := m.coord.val, confirmed := false })) k lt) m 0
def execXarm (s : State) : Res := onX s XT.XARM takeXarm

def modXco (s : State) (gfid : Nat) (f : XCo → XCo) : State :=
  { s with xco := s.xco.map (fun c => if c.gfid = gfid then f c else c) }
def findXco (s : State) (gfid : Nat) : Option XCo := s.xco.find? (fun c => decide (c.gfid = gfid))
def modPart (c : XCo) (i : Nat) (f : Part → Part) : XCo :=
  { c with parts := c.parts.map (fun p => if p.inst = i then f p else p) }

/-- All have answered OK or ALREADY: XCONFIRM to those that answered OK. -/
def confirmAll (s : State) (c : XCo) : State :=
  let m := xmsg s c.gfid (inst s) c.lt
  let s1 := forEach (fun p st => if p.ok then xsends st p.inst XT.XCONFIRM m (confRep st) else st) c.parts s
  modSlot (modXco s1 c.gfid (fun d => { d with conf := true })) c.slot (fun x => { x with confirmed := true })
def takeXstaged (s : State) (m : XMsg) : State :=
  let g := m.gfid.toNat
  let upd (p : Part) : Part :=
    if m.status.val = 0 then { p with ok := true }
    else if m.status.val = 3 then { p with already := true, outcome := XO.ALREADY }
    else { p with outcome := XO.NOTSTAGED }
  let s1 := modXco s g (fun c => modPart c m.src.val upd)
  match findXco s1 g with
  | none => s1
  | some c =>
    if !c.conf && !c.failed && c.parts.all (fun p => p.ok || p.already) && decide (ftNow s + us 20 ≤ c.lt) then
      confirmAll s1 c else s1
def execXstaged (s : State) : Res := onX s XT.XSTAGED takeXstaged

/-- The slot that takes part in a GFID. -/
def partSlot (s : State) (gfid : Nat) : Option Nat :=
  (List.range 8).find? (fun k => (s.slot k).part && decide (slotGfid s k = gfid))
def takeXconfirm (s : State) (m : XMsg) : State :=
  match partSlot s m.gfid.toNat with
  | none => s
  | some k => modSlot s k (fun x => { x with confirmed := true })
def execXconfirm (s : State) : Res := onX s XT.XCONFIRM takeXconfirm

def takeXabort (s : State) (m : XMsg) : State :=
  match partSlot s m.gfid.toNat with
  | none => s
  | some k => if slotState s k = SS.ARMED && !lastMoments s (slotFid s k) then
      abortLaunch s (slotFid s k) Rsn.XFAIL none none else s
def execXabort (s : State) : Res := onX s XT.XABORT takeXabort

/-- LT − 20 µs has come and not all have answered. -/
def failCross (s : State) (c : XCo) : State :=
  let m := xmsg s c.gfid (inst s) c.lt
  let s1 := forEach (fun p st => xsends st p.inst XT.XABORT m (confRep st)) c.parts s
  let s2 := modXco s1 c.gfid (fun d => { d with failed := true })
  if slotState s2 c.slot = SS.ARMED && (s2.slot c.slot).cross then abortLaunch s2 (slotFid s2 c.slot) Rsn.XFAIL none none else s2
def execXconfirmDeadline (k : Fin 8) (s : State) : Res :=
  match s.xco.find? (fun c => decide (c.slot = k.val) && !c.conf && !c.failed && decide (c.lt ≤ ftNow s + us 20)) with
  | none => ok s
  | some c => ok (failCross s c)

def execNoconfirm (k : Fin 8) (s : State) : Res :=
  let x := s.slot k
  when_ (x.part && !x.confirmed && decide (slotState s k = SS.ARMED) && decide (slotLt s k ≤ ftNow s + us 10)) s
    (abortLaunch s (slotFid s k) Rsn.NOCONFIRM none none)

/-- LT + 1 µs: XREPORT with the outcome and the apply FT. -/
def sendReport (s : State) (r : XRep) : State :=
  xsends s r.coord XT.XREPORT
    { xmsg s r.gfid r.coord r.lt with status := Fin.ofNat _ r.outcome, applyH := ftHi r.applyFt, applyL := ftLo r.applyFt }
    (confRep s)
def execXreportSend (k : Fin 8) (s : State) : Res :=
  match takeFirst (fun r => decide (r.slot = k.val ∧ r.lt + us 1 ≤ ftNow s)) s.xrep with
  | none => ok s
  | some (r, rest) => ok (sendReport { s with xrep := rest } r)

def takeXreport (s : State) (m : XMsg) : State :=
  modXco s m.gfid.toNat (fun c => modPart c m.src.val (fun p => { p with outcome := m.status.val }))
def execXreport (s : State) : Res := onX s XT.XREPORT takeXreport

end Sys2Proof.Machine
end

