-- ==== Sys2Proof/Machine/Guards.lean ====
section
/-!
DEFINITION. The commands of access guards (R173 to R176): writes of GRD_CTRL and of region registers, and
the end of an update hold.
-/

namespace Sys2Proof.Machine

/-- Packets in the order in which they were accepted. -/
def insertPkt (p : Pkt) : List Pkt → List Pkt
  | [] => [p]
  | q :: qs => if p.id < q.id then p :: q :: qs else q :: insertPkt p qs
/-- R173: the accesses of the agent of NI n that stand at stage 1, in their original order. -/
def atStage1 (x : Ni) : List Pkt :=
  (x.held ++ ((x.oq.filter (fun e => !e.left && isAccess e.pkt.opc)).map (fun e => e.pkt))).foldl (fun l p => insertPkt p l) []
/-- R173: one access that the hold of an Opcon core has held is checked by the core's guard as it then stands. -/
def recheck (n : Nat) (p : Pkt) (s : State) : State :=
  match coreFails s n p with
  | none => s
  | some x => failIssued (modNi s n (fun y => { y with held := y.held.filter (fun q => decide (q.id ≠ p.id)) })) n p x
/-- What a guard has held is looked at again; `was` says that its UPD has been 1. -/
def grdRelease (s : State) (g : Nat) (was : Bool) : State :=
  let n := guardNi g
  settle (if was && decide (448 ≤ g) then forEach (recheck n) (atStage1 (s.ni n)) s else s) n

/-- R167, R175: a write of GRD_CTRL. With EN = 1 and UPD = 0 the overlap check runs first; with UPD = 0
what was held goes on. -/
def writeGrdCtrl (s : State) (g : Nat) (v : W) : State :=
  let s1 := s.setReg (guardReg g Off.GRD_CTRL) (W.at 0 2 (v.fld 0 2))
  if v.bit 1 then s1
  else grdRelease (if v.bit 0 then overlapCheck s1 g else s1) g (grdUpd s g)

def regionOff (k : Nat) : RegionWord → Nat
  | .start => Off.GRD_START k
  | .stop => Off.GRD_END k
  | .perm => Off.GRD_PERM k

/-- R174: a region register is written only while EN = 0. PONLY exists at Opcon guards. -/
def writeRegion (s : State) (g k : Nat) (f : RegionWord) (v : W) : State :=
  if grdEn s g then raiseGrd s g GrdB.LIVEWR false
  else s.setReg (guardReg g (regionOff k f)) (match f with
    | .perm => W.at 0 4 (v.fld 0 (if g < 448 then 3 else 4))
    | _ => v)

/-- R176: the NI ends the hold itself. -/
def updTimeout (s : State) (n : Nat) : State :=
  let s1 := raiseGrd s n GrdB.UPD_TO true
  let s2 := if (s.reg (guardReg n Off.GRD_ERR_MASK)).bit GrdB.UPD_TO then s1 else logNi s1 n EvC.GUARD_UPD_TO []
  writeGrdCtrl s2 n 1

def execGrdUpdTo (n : NiId) (s : State) : Res := when_ (grdUpd s n.idx) s (updTimeout s n.idx)

end Sys2Proof.Machine
end

