-- ==== Sys2Proof/Machine/Irq.lean ====
section
/-!
DEFINITION. The interrupt sources of the event-log block (R342 to R345): pending bits, message-signalled
interrupts, the lines of units, and a ring copy that goes away (R351).
-/

namespace Sys2Proof.Machine

/-- R343: the write of a message-signalled interrupt leaves through NI(0, 5) or NI(63, 5). -/
def sendMsi (s : State) (src : Nat) : State :=
  let n := globalNi s
  let a := (s.reg (evlReg Off.EVL_MSI_ADDR)).toNat
  let data := (s.reg (evlReg Off.EVL_MSI_DATA)).put 0 8 (getFld s (evlReg (Off.EVL_IRQ_ROUTE src)) 8 8)
  let reg := launchRegion s a
  let p : Pkt := { opc := Opc.WR, cnt := 1, arg := natW a, words := [data] }
  let s1 := incFld s (evlReg Off.EVL_MSI_CNT) 0 18
  if sourceMiss reg p then decodeMiss (incFld s1 (evlReg Off.EVL_MSI_CNT) 18 18) (nodeOf s n) true .source a
  else ownSend s1 n (targetOf s n reg) Opc.WR 7 1 0 0 (natW a) [data]

/-- A pending bit is set; where it rises with MEN = 1 the interrupt is sent. -/
def setPend (s : State) (src : Nat) : State :=
  let a := evlReg Off.EVL_IRQ_PEND
  if regBit s a src then s
  else
    let s1 := setBit s a src true
    if regBit s (evlReg (Off.EVL_IRQ_ROUTE src)) 4 then sendMsi s1 src else s1
def followPend (s : State) (src : Nat) (c : Bool) : State :=
  if c then setPend s src else setBit s (evlReg Off.EVL_IRQ_PEND) src false

/-! ### The copies of the event log (R351) -/

/-- A copy can be written while its tile is in service and powered. -/
def copyUp (s : State) (c : Nat) : Bool := !outNow s (63 * c) && decide (tileState s (63 * c) ≠ TS.OFF)
def mirrorReg (c : Nat) : Nat := evlReg (Off.EVL_MIRROR c)
def mirrorStat (s : State) (c : Nat) : Nat := getFld s (mirrorReg c) 0 2
/-- Copy c is no more one that has missed nothing. -/
def missedNow (s : State) (c : Nat) : State := { s with mirrorNone := s.mirrorNone.filter (fun x => decide (x ≠ c)) }
/-- Copy c goes away. FIRST and LAST are open until it misses a record (log entry 4). -/
def leaveCopy (s : State) (c : Nat) : State :=
  if mirrorStat s c = 2 then setFld s (mirrorReg c) 0 2 1
  else
    let (w, s1) := freeW s
    setPend (({ s1 with mirrorNone := c :: s1.mirrorNone } : State).setReg (mirrorReg c) (W.at 0 2 1 ||| W.at 2 24 (w.fld 0 24))) 6
/-- After a change of the maps: a copy whose tile is now out of service shows STAT 1, none missed as yet. -/
def noteCopies (s : State) : State :=
  forEach (fun c st => if !copyUp st c && decide (mirrorStat st c ≠ 1) then leaveCopy st c else st) [0, 1] s

/-- R342: source 5 is pending while a completion flag and its enable are both set. -/
def mailboxIrq (s : State) : Bool :=
  decide (s.reg (mbxReg Off.MBX_DONE_LO) &&& s.reg (mbxReg Off.MBX_IRQ_EN_LO) ≠ 0) ||
    decide (s.reg (mbxReg Off.MBX_DONE_HI) &&& s.reg (mbxReg Off.MBX_IRQ_EN_HI) ≠ 0)
/-- Bits 5 and 8 to 11 follow their condition. -/
def irqSync (s : State) : State :=
  [0, 1, 2, 3].foldl (fun st k => followPend st (8 + k) (uintAny st k)) (followPend s 5 (mailboxIrq s))

/-! ### The sideband of a unit (R26, R104, R127, R172) -/

/-- A register of error bits with a bit that its mask lets through. -/
def errShows (s : State) (a : Nat) (mask : W) : Bool := decide (s.reg a &&& ~~~ mask ≠ 0)
/-- GRD_ERR of guard g with a bit that is not masked: at an NI a cause of SB_INT_N, at an Opcon core its interrupt. -/
def grdInt (s : State) (g : Nat) : Bool := errShows s (guardReg g Off.GRD_ERR) (s.reg (guardReg g Off.GRD_ERR_MASK))
/-- SB_INT_N of NI n. -/
def sbIntN (s : State) (n : Nat) : Bool :=
  errShows s (niReg n Off.NI_ERR) (s.reg (niReg n Off.NI_ERR_MASK)) || errShows s (niReg n Off.NI_RSV_ERR) 0 ||
    errShows s (niReg n Off.NI_MC_ERR) 0 || errShows s (niReg n Off.CDC_STAT) 0 || grdInt s n
/-- SB_DRAIN of NI n: it drains or is disabled; in Doze, until its wake is complete, 0, in Off 1 (R302). -/
def sbDrain (s : State) (n : Nat) : Bool :=
  if tileState s (n / 7) = TS.DOZE ∨ tileState s (n / 7) = TS.WAKING then false
  else if tileState s (n / 7) = TS.OFF then true
  else (s.ni n).draining || !niEn s n || (s.ni n).urst
/-- SB_NRST_N of NI n: low while the fabric or the tile is in reset or the tile is in Off; an NI_RST or a TILE_RST of a
powered tile begins and ends in one step of the model. -/
def sbNrstN (s : State) (n : Nat) : Bool :=
  !s.inReset && !s.postRun && decide (tileState s (n / 7) ≠ TS.OFF)

/-- FAB_IRQ[l] (R342). -/
def fabIrq (s : State) (l : Nat) : Bool :=
  (List.range 12).any (fun src => regBit s (evlReg Off.EVL_IRQ_PEND) src &&
    (let r := s.reg (evlReg (Off.EVL_IRQ_ROUTE src))
     r.bit 3 && decide (r.fld 0 3 = l)))

end Sys2Proof.Machine
end

