-- ==== Sys2Proof/Machine/MbxOps.lean ====
section
/-!
DEFINITION. The mailbox block (R219 to R224, R231): areas, doorbells, the headers that firmware keeps,
completion flags, requests for a session reset and the session reset itself.
-/

namespace Sys2Proof.Machine

/-! ### Areas, headers, states (R219, R220, R223) -/

namespace MB
def IDLE := 0
def QUEUED := 1
def RUNNING := 2
def DONE := 3
end MB

/-- The command area of mailbox n in copy c; the response area stands 0x40 words above. -/
def mbxArea (c n : Nat) : Nat := tmemAddr (63 * c) (0x9000 + 0x80 * n)
def respArea (c n : Nat) : Nat := mbxArea c n + 0x40
def mbxState (s : State) (n : Nat) : Nat := getFld s (mbxReg (Off.MBX_STAT n)) 0 2
def setMbxState (s : State) (n v : Nat) : State := setFld s (mbxReg (Off.MBX_STAT n)) 0 2 v
def mbxCopy (s : State) (n : Nat) : Nat := getFld s (mbxReg (Off.MBX_STAT n)) 2 1
def mbxStamp (s : State) (n : Nat) : Nat := (s.reg (mbxReg (Off.MBX_STAMP n))).toNat
def queuedBoxes (s : State) : List Nat := (List.range 64).filter (fun n => decide (mbxState s n = MB.QUEUED))
/-- R225: stamps are compared modulo 2^36. -/
def stampLe (a b : Nat) : Bool := decide ((b + 2 ^ 36 - a) % 2 ^ 36 < 2 ^ 35)

def hdrOpcode (h : W) : Nat := h.fld 24 12
def hdrTag (h : W) : Nat := h.fld 16 8
def hdrLen (h : W) : Nat := min 63 (h.fld 8 8)
def hdrFlags (h : W) : Nat := h.fld 0 8

/-- A bit for mailbox n in one of the pairs of registers at `lo`, `lo + 1`. -/
def setBox (s : State) (lo n : Nat) : State := setBit s (mbxReg (lo + n / 32)) (n % 32) true

/-- R217, R237: 0 none, 1 loader, 2 safe, 3 normal; the loader runs while the boot ROM answers at 0. -/
def fwMode (s : State) : Nat := getFld s (opcReg Off.OPC_FW_STAT) 24 2
def inLoader (s : State) : Bool := !bootSel s
def handingOver (s : State) : Bool := regBit s (mbxReg Off.MBX_AVAIL) 1

/-- R148, R173: a guard or a barrier of core c holds its accesses. -/
def coreKept (s : State) (c : Nat) : Bool := grdUpd s (448 + c) || (s.ni (coreNi c)).bar.isSome
/-- R213: the core executes: it runs, is not halted, and nothing holds its accesses. -/
def coreActs (s : State) (c : Nat) : Bool := (s.core c).run && !(s.core c).halted && !coreKept s c
/-- The active core executes and has not failed. -/
def fwAlive (s : State) : Bool :=
  coreActs s (activeCore s) && decide ((s.core (activeCore s)).dead = 0) && !s.inReset && decide (fwMode s ≠ 0) && decide (fstate s ≠ 2)
def standby (s : State) : Nat := 1 - activeCore s
def stbyCore (s : State) : Bool := regBit s (opcReg Off.OPC_FW_STAT) 27
def headerOf (s : State) (n : Nat) : Option W := (s.hdrs.find? (fun e => decide (e.1 = n))).map (fun e => e.2)
/-- Of two mailboxes the one that was rung first. -/
def firstRung (s : State) (m : Option Nat) (n : Nat) : Option Nat :=
  match m with
  | none => some n
  | some k => if stampLe (mbxStamp s k) (mbxStamp s n) then some k else some n
/-- A queued SESSION_RESET that has not been taken as a request yet, the first rung; the loader serves MBX0 only. -/
def waitingReset (s : State) : Option Nat :=
  ((queuedBoxes s).filter (fun n =>
    (match headerOf s n with
     | none => false
     | some h => decide (hdrOpcode h = 1)) && (!inLoader s || decide (n = 0)) &&
    (match s.session with
     | none => true
     | some x => !x.cmds.contains n))).foldl (firstRung s) none
/-- R235: the quiescent point of an accepted image, with no command running, no session reset asked for or under way (R231)
and the standby up: the handover begins. -/
def noteQuiet (s : State) : State :=
  if s.imgReady.isSome && s.running.isNone && s.session.isNone && (waitingReset s).isNone &&
      (s.core (standby s)).run && stbyCore s then
    setBit s (mbxReg Off.MBX_AVAIL) 1 true
  else s

/-- A word that firmware reads over the memory path: a poisoned one, and one that the guard keeps from it (R165), is open
(log entry 4). -/
def fwWord (s : State) (a : Nat) : W × State :=
  match fwReadFails s a with
  | some (w, cause, x) => freeW (recordFault s (448 + activeCore s) Opc.RD 0 w cause x)
  | none => if isPoison s a then freeW s else (s.word a, s)
/-- R222: firmware keeps the header of a command at its doorbell. -/
def keepHeader (s : State) (n : Nat) : State :=
  let (v, s1) := fwWord s (mbxArea (mbxCopy s n) n)
  { s1 with hdrs := Sparse.ins s1.hdrs n v }
/-- R148, R173, R222: firmware can read a header: no handover lasts, and nothing holds the active core's accesses. -/
def mayReadHdr (s : State) : Bool := !handingOver s && !coreKept s (activeCore s)
/-- The headers that doorbells have left unread are read. -/
def readHeaders (s : State) : State :=
  if mayReadHdr s then forEach (fun n st => if (headerOf st n).isSome then st else keepHeader st n) (queuedBoxes s) s else s
/-- R222, R270: a handover or takeover ends. -/
def endHandover (s : State) : State := readHeaders (setBit s (mbxReg Off.MBX_AVAIL) 1 false)

/-- R321: while no header is read no core fetches what the crossings from the mailbox block bring; the sixteenth doorbell
overruns both (DESIGN CHOICE, log entry 36). The mailbox is queued all the same. -/
def crossDoorbell (old s : State) : State :=
  if ((queuedBoxes old).filter (fun m => (headerOf old m).isNone)).length < 15 then s
  else forEach (fun c st =>
    overrun (incFldSat st (mtxReg Off.CDC_OPC_LOST) (18 * c) 18) (ftNow st) (coreNode st c) (mtxReg Off.CDC_OPC_STAT) c) [0, 1] s
/-- One doorbell write. -/
def doorbell (s : State) (n c : Nat) : State :=
  let st := mbxState s n
  if st = MB.QUEUED ∨ st = MB.RUNNING ∨ outNow s (63 * c) then setBox s Off.MBX_OVR_LO n
  else
    let s1 := s.setReg (mbxReg (Off.MBX_STAT n)) (W.at 0 2 MB.QUEUED ||| W.at 2 1 c)
    let s2 := s1.setReg (mbxReg (Off.MBX_STAMP n)) (natW s.fc)
    if mayReadHdr s then keepHeader s2 n else crossDoorbell s { s2 with hdrs := Sparse.del s2.hdrs n }

/-! ### Session reset (R231) -/

/-- A request, by the register or by the command of mailbox n; a second one is merged. -/
def askSession (s : State) (stamp : Nat) (n : Option Nat) : State :=
  let s1 := setBit s (mbxReg Off.MBX_AVAIL) 2 true
  match s.session with
  | none => { s1 with session := some { stamp := stamp, cmds := n.toList } }
  | some x => { s1 with session := some { x with cmds := x.cmds ++ n.toList, count := x.count + 1 } }

/-- Every SESSION_RESET that waits is a request, in the order of the doorbells. -/
def takeResets (s : State) : Nat → State
  | 0 => s
  | f + 1 => match waitingReset s with
    | none => s
    | some n => takeResets (askSession s (mbxStamp s n) (some n)) f
/-- R231: a write of MBX_SESSION; a SESSION_RESET that has been rung before it is the request before. -/
def sessionWrite (s : State) : State := askSession (takeResets s 64) (natW s.fc).toNat none

/-- Command 0x001 takes effect at its doorbell, or at the end of a handover. -/
def execSessionReset (s : State) : Res :=
  match waitingReset s with
  | none => ok s
  | some n => when_ (fwAlive s && !handingOver s) s (askSession s (mbxStamp s n) (some n))

/-- R165, R171: core c writes a register that it keeps for others to read; where its guard fails the write, it is discarded
and noted. -/
def coreKeeps (s : State) (c a : Nat) (v : W) : State :=
  match accessFails s (448 + c) a 1 false true (corePriv s c) with
  | some (w, cause, _) => recordNotice s (448 + c) w cause
  | none => s.setReg a v
/-- The active core counts in such a register. -/
def fwCount (s : State) (a : Nat) : State := coreKeeps s (activeCore s) a (s.reg a + 1)

/-- A word that firmware stores over the memory path: discarded where the active core's guard fails it (R165, R171). -/
def fwTmemStore (s : State) (t off : Nat) (v : W) : State :=
  match fwWriteFails s (tmemAddr t off) 1 with
  | some (w, cause, _) => recordNotice s (448 + activeCore s) w cause
  | none => tmemStore s t off (coreNode s (activeCore s)) v false
/-- Words set to zero: their poison and the reservations on their lines go with them. -/
def zeroWords (s : State) (a k : Nat) : State :=
  let inside (x : Nat) : Bool := decide (a ≤ x ∧ x < a + k)
  let s1 : State :=
    { s with mem := s.mem.filter (fun e => !inside e.1), poison := s.poison.filter (fun x => !inside x) }
  { s1 with tmcs := s1.tmcs.map (fun e => (e.1, { e.2 with resv := e.2.resv.filter (fun r =>
      !(decide (r.2 < a + k ∧ a < r.2 + 16))) })) }
/-- Firmware zeroes words, but for those that its guard fails. -/
def fwZero (s : State) (a k : Nat) : State :=
  match fwWriteFails s a k with
  | none => zeroWords s a k
  | some _ => forEach (fun i st => match fwWriteFails st (a + i) 1 with
      | some (w, cause, _) => recordNotice st (448 + activeCore st) w cause
      | none => zeroWords st (a + i) 1) (List.range k) s

/-- A response (R221): header, status, epoch, data. -/
def postResponse (s : State) (c n : Nat) (hdr : W) (code superseded : Nat) (data : List W) : State :=
  let a := respArea c n
  let ws := [W.at 24 12 (hdrOpcode hdr) ||| W.at 16 8 (hdrTag hdr) ||| W.at 8 8 (min 61 data.length) ||| W.at 0 8 (hdrFlags hdr),
    natW code ||| natW superseded, s.reg (opcReg Off.OPC_CFG_EPOCH)] ++ data.take 61
  forEach (fun p st => fwTmemStore st (63 * c) ((a + p.1) % 0x20000) p.2)
    ((List.range ws.length).zip ws) s
/-- R224: DONE, and the completion flag where the header asks for it. -/
def finishBox (s : State) (n : Nat) (hdr : W) : State :=
  let s1 := setMbxState s n MB.DONE
  if hdr.bit 0 then irqSync (setBox s1 Off.MBX_DONE_LO n) else s1

/-- Steps 2 to 5. -/
def runSession (s : State) (x : Session) : State :=
  let gone := (queuedBoxes s).filter (fun n => stampLe (mbxStamp s n) x.stamp)
  let later := (queuedBoxes s).filter (fun n => !(n ∈ gone))
  let disc := (gone.filter (fun n => !(n ∈ x.cmds))).length
  let hdr (n : Nat) : W := (headerOf s n).getD 0
  let s1 := forEach (fun n st => forEach (fun c st' =>
      let st1 := if n ∈ later then st' else fwZero st' (mbxArea c n) 64
      if n ∈ x.cmds then st1 else fwZero st1 (respArea c n) 64) [0, 1] st) (List.range 64) s
  let s2 := forEach (fun n st => if n ∈ later then st else setMbxState st n MB.IDLE) (List.range 64) s1
  let s3 := forEach (fun o st => st.setReg (mbxReg o) 0)
    [Off.MBX_DONE_LO, Off.MBX_DONE_HI, Off.MBX_OVR_LO, Off.MBX_OVR_HI] s2
  let a := mbxReg Off.MBX_SESS_STAT
  let s4 := s3.setReg a (W.at 0 16 (getFld s a 0 16 + x.count) ||| W.at 16 7 disc |||
    W.at 23 1 (b2n !x.cmds.isEmpty) ||| W.at 24 6 (x.cmds.getLast?.getD 0))
  let s5 : State := { setBit s4 (mbxReg Off.MBX_AVAIL) 2 false with session := none }
  noteQuiet (forEach (fun n st =>
    finishBox (postResponse st (mbxCopy s n) n (hdr n) 0 0 [s.reg (opcReg Off.OPC_FW_STAT), natW disc, natW x.stamp])
      n (hdr n)) x.cmds (irqSync s5))

/-- The session reset runs once the running command has completed its effect, outside a handover, and once every
SESSION_RESET that has been rung is one of its requests. -/
def execSessionResetRun (s : State) : Res :=
  match s.session with
  | none => ok s
  | some x => when_ (fwAlive s && s.running.isNone && !handingOver s && (waitingReset s).isNone) s (runSession s x)

end Sys2Proof.Machine
end

