-- ==== Sys2Proof/Machine/RegWrite.lean ====
section
/-!
DEFINITION. Registers as the control matrix reads and writes them (R6, R7, R138 to R141, R381, R382, R401):
what a read shows, what a write does at each register, and which accesses have no target.
-/

namespace Sys2Proof.Machine

/-! ### What a read shows -/

/-- R80: what stands in a buffer of router t belongs to one packet, of which the branches of a group are parts. -/
def packetOf (t : Nat) (f : Flight) : Nat × Nat :=
  match f.grp with
  | none => (0, f.pkt.key)
  | some g => (t + 1, g)
/-- R80: the packets to tiles of the hold mask that router t counts: in its buffers, and sent downstream
while the pip of their last flit has not returned. -/
def oldCnt (s : State) (t : Nat) : Nat :=
  let held (p : Pkt) : Bool := heldDest s t p
  let here := ((s.rt t).inq.filter (fun f => held f.pkt)).map (packetOf t) ++
    ((s.rt t).trail.filter (fun f => held f.pkt)).map (fun f => (0, f.pkt.key))
  let down := (neighbours t).flatMap (fun u =>
    let i := portTo u t
    ((s.rt u).inq.filter (fun f => decide (f.inp = i) && (tilesOf (flightDests f)).any (inHoldMask s t))).map (packetOf u) ++
      ((s.rt u).trail.filter (fun f => decide (f.inp = i) && held f.pkt)).map (fun f => (0, f.pkt.key)))
  let back := (s.rt t).pips.filter (fun p => decide (p.key < 16) && (tilesOf p.dests).any (inHoldMask s t))
  (here ++ down).eraseDups.length + back.length

def viewRtr (s : State) (t o : Nat) (v : W) : W :=
  if o = Off.RTR_STAT then
    W.at 0 1 (b2n (sliceIn s t 0)) ||| W.at 1 1 (b2n (sliceIn s t 1)) ||| W.at 2 1 (b2n (routerHalf s t)) |||
      W.at 3 1 (b2n (!sliceIn s t 0 && !sliceIn s t 1))
  else if o = Off.RTR_OLD_CNT then W.at 0 11 (oldCnt s t) else v

def sparesUsed (s : State) (t sl i : Nat) : Nat :=
  ((List.range 12).filter (fun k => regBit s (slcReg t sl (Off.LNK_RX_REMAP i k)) 9)).length
def viewSlc (s : State) (t sl o : Nat) (v : W) : W :=
  if 0x100 ≤ o ∧ o < 0x300 ∧ o % 0x20 = 1 then v.put 4 4 (sparesUsed s t sl ((o - 0x100) / 0x20)) else v

/-- What the NI's read-only registers show. R104 does not say whether GRANTED counts the handles of standing sets; the
model leaves them out (DESIGN CHOICE, log entry 39). -/
def viewNi (s : State) (n o : Nat) (v : W) : W :=
  let x := s.ni n
  let p := n % 7
  if o = Off.NI_STAT then
    W.at 0 1 (b2n x.drained) ||| W.at 1 1 (b2n x.urst) ||| W.at 2 6 (sbufLevel x) ||| W.at 8 7 x.outst.length
  else if o = Off.NI_CFG then W.at 0 3 p ||| W.at 3 1 (b2n (decide (p ≤ 3))) ||| W.at 4 1 (b2n (populated s n))
  else if o = Off.NI_NODE then W.at 0 23 (nodeOf s n)
  else if o = Off.NI_REORD_STAT ∧ p ≤ 3 then
    W.at 0 9 (slotsUsed x).length |||
      W.at 9 9 ((x.grants.filter (fun g => g.waiting.isSome)).map (fun g => g.src)).eraseDups.length
  else if o = Off.NI_RSV_STAT then
    W.at 0 12 (freeCount x) ||| W.at 12 12 (x.grants.filter (fun g => g.waiting.isNone)).length |||
      W.at 24 9 x.parked.length
  else if o = Off.NI_MC_STAT then W.at 0 9 x.credits.length ||| W.at 9 12 (standingCount x)
  else v

def viewGrd (s : State) (g o : Nat) (v : W) : W :=
  if o = Off.GRD_STAT then
    ((v.put 0 1 (b2n (grdActive s g))).put 1 1 (b2n (grdHolding s g))).put 12 5
      ((List.range 16).filter (regionOn s g)).length
  else v

def viewTmem (s : State) (t o : Nat) (v : W) : W :=
  if o = Off.TMEM_USEC then W.at 0 20 (usecTile s t)
  else if o = Off.TMEM_RES_CNT then W.at 0 9 (s.tmc t).resv.length
  else if o = Off.TMEM_SPARE_USED then W.at 0 7 (spareUsed s t)
  else if o = Off.TMEM_MIG_STAT then
    (match (s.tmc t).mig with
     | none => v
     | some m => v.put 2 15 (migProg s m))
  else v

def phaseCode : TurnPhase → Nat
  | .narrowing => 1
  | .testing => 2
  | .comparing => 3
  | .closing => 4
def viewTa (s : State) (t o : Nat) (v : W) : W :=
  if o = Off.BST_TA_STAT then
    (match (s.ta t).turn with
     | none => 0
     | some x => W.at 0 3 (phaseCode x.phase) ||| W.at 3 3 x.unit ||| W.at 6 4 x.part ||| W.at 10 17 (min (s.fc - x.go) (2 ^ 17 - 1)))
  else if o = Off.PWR_TA_STAT then v.put 0 3 (shownState s t)
  else if tileState s t = TS.OFF && o = Off.PWR_TA_REQ then s.reg (retReg (tileRet t))
  else if tileState s t = TS.OFF && o = Off.PWR_TILE_CLAIM then s.reg (retReg (tileRet t + 1))
  else v

/-- R330: a reset is held under R195, or a TILE_RST by a voltage transition (R323). -/
def resetDeferred (s : State) : Bool :=
  !s.heldResets.isEmpty || s.rstReq.any (fun r => match r with
    | .tile t => taVtrans s t
    | _ => false)
def viewMtx (s : State) (o : Nat) (v : W) : W :=
  if o = Off.MTX_POST_LEVEL then W.at 0 5 s.posted.length
  else if o = Off.MTX_RST_STAT then
    W.at 0 1 (b2n (s.core 0).rstHold) ||| W.at 1 1 (b2n (s.core 1).rstHold) ||| W.at 2 1 (b2n (resetDeferred s))
  else v

/-- R23: MIXED while tiles differ, one in Off counted with the profile that it took last (DESIGN CHOICE, log entry 41);
then no profile is the one that every tile has taken, and ACTIVE is a value that the manual leaves open. -/
def viewPwr (s : State) (o : Nat) (v : W) : W :=
  if o = Off.PWR_PROFILE_STAT then
    let p := profile s 0
    if (List.range 64).all (fun t => decide (profile s t = p)) then (v.put 0 2 p).put 2 1 0
    else (v.put 0 2 ((Config.freeWord s.freeN).fld 0 2)).put 2 1 1
  else v

/-! Fuse bits that registers show (R278, R374). -/

namespace Fuse
def STRICT_POST := 773
def ENR (k : Nat) : Nat := 768 + k
def REV (k : Nat) : Nat := 770 + k
def REQUIRE_ALL := 772
def POP_LOCK := 774
end Fuse

def fuse (s : State) (b : Nat) : Bool := s.fusesSensed.testBit b
def viewOpc (s : State) (o : Nat) (v : W) : W :=
  if o = Off.OPC_KEY_STAT then
    W.at 0 1 (b2n (fuse s (Fuse.ENR 0))) ||| W.at 1 1 (b2n (fuse s (Fuse.ENR 1))) |||
      W.at 2 1 (b2n (s.fuses.testBit (Fuse.REV 0))) ||| W.at 3 1 (b2n (s.fuses.testBit (Fuse.REV 1))) |||
      W.at 4 1 (b2n (fuse s Fuse.REQUIRE_ALL)) ||| W.at 5 1 (b2n (v.bit 5))
  else v
/-- R373: the fuse programmer blows a bit. -/
def fuseBusy (s : State) : Bool := decide (s.fc < s.fuseEnd)
/-- R373: a bit has been blown that takes effect at the next cold start; REV0 and REV1 take effect at once. -/
def fusesPend (s : State) : Bool :=
  let rev := 2 ^ Fuse.REV 0 ||| 2 ^ Fuse.REV 1
  decide (s.fuses ||| rev ≠ s.fusesSensed ||| rev)
/-- The fuse registers (R372 to R374). VPP_FUSE is tied to VSS but while programming (R368), and no command of the table
brings its level alone: VPP_OK reads 1 while a blow runs, and 0 otherwise (DESIGN CHOICE, log entry 42). -/
def viewIdent (s : State) (o : Nat) (v : W) : W :=
  if o = Off.KNL_FUSE_STAT then
    W.at 0 1 (b2n (fuse s Fuse.POP_LOCK)) ||| W.at 1 1 (b2n (s.vppOk && fuseBusy s)) ||| W.at 2 1 (b2n (fuseBusy s)) |||
      W.at 3 1 (b2n (fusesPend s))
  else if 0x10 ≤ o ∧ o ≤ 0x19 then W.at 0 32 (s.fusesSensed >>> (800 + 32 * (o - 0x10)))
  else v
def viewMbx (s : State) (o : Nat) (v : W) : W :=
  if o = Off.MBX_AVAIL then
    (v.put 4 7 (queuedBoxes s).length).put 2 1 (b2n (v.bit 2 || (!handingOver s && (waitingReset s).isSome)))
  else if o = Off.MBX_STAMP_NOW then natW s.fc
  else v

/-- The value that a read of the register shows. -/
def regView (s : State) (b : Block) (o : Nat) (r : Row) (v : W) : W :=
  match r.acc with
  | .wo => 0
  | .rsv => 0
  | _ =>
    match b with
    | .rtr t => viewRtr s t o v
    | .slc t sl => viewSlc s t sl o v
    | .ni t p => viewNi s (niOf t p) o v
    | .grdNi t p => viewGrd s (niOf t p) o v
    | .grdOpc c => viewGrd s (448 + c) o v
    | .tmem t => viewTmem s t o v
    | .ta t => viewTa s t o v
    | .mtx => viewMtx s o v
    | .pwr => viewPwr s o v
    | .opc => viewOpc s o v
    | .ident => viewIdent s o v
    | .mbx => viewMbx s o v
    | .evl => if o = Off.EVL_QLVL then W.at 0 5 s.evq.length else v
    | .bst => if o = Off.BST_POLICY then W.at 0 1 (b2n (fuse s Fuse.STRICT_POST)) else v
    | .tk => v
    | .fnf => v
    | .ext => v
    | .dbg => if o = Off.DBG_HALT_STAT then W.at 0 1 (b2n (s.core 0).halted) ||| W.at 1 1 (b2n (s.core 1).halted) else v

/-! ### Which accesses have a target (R381, R382) -/

/-- The tile whose power state decides an access, and whether its tile agent serves it. -/
def blockTile : Block → Option (Nat × Bool)
  | .rtr t => some (t, false)
  | .slc t _ => some (t, false)
  | .ni t _ => some (t, false)
  | .tmem t => some (t, false)
  | .grdNi t _ => some (t, false)
  | .ta t => some (t, true)
  | _ => none
/-- R305: blocks that answer in Retention. -/
def alwaysOn : Block → Bool
  | .tk => true
  | .pwr => true
  | _ => false

def served (s : State) (b : Block) (o : Nat) : Bool :=
  if fstate s = 2 then alwaysOn b
  else match blockTile b with
    | none => true
    | some (t, ta) => tileState s t ≠ TS.OFF || (ta && decide (o = Off.PWR_TA_REQ ∨ o = Off.PWR_TA_STAT ∨ o = Off.PWR_TILE_CLAIM))
/-- An access to a dozing tile's block other than the tile agent's wakes the tile and waits for it. -/
def wakeFor (s : State) (b : Block) : State :=
  match blockTile b with
  | some (t, false) => if tileDark s t && decide (tileState s t ≠ TS.OFF) then wakeNow s t else s
  | _ => s

/-- The register that an access reaches. -/
def target (s : State) (a : Nat) : Option (Block × Nat × Row) :=
  match regAt a with
  | none => none
  | some (b, o, r) => if served s b o then some (b, o, r) else none

/-- R401: the slot that a read of FNF_STAT_k returns to IDLE. -/
def statSlot (b : Block) (o : Nat) : Option Nat :=
  if b = .fnf ∧ 0x100 ≤ o ∧ o < 0x180 ∧ o % 16 = Off.FNF_STAT then some ((o - 0x100) / 16) else none

/-- One word read for node `node`; `peek` suppresses side effects. The answer is `none` on a decode miss. -/
def readWord (s : State) (node a : Nat) (peek : Bool) : Option W × State :=
  match target s a with
  | none => (none, decodeMiss s node false .matrix a)
  | some (b, o, r) =>
    let s1 := wakeFor s b
    let v := regView s1 b o r (s1.reg a)
    let s2 := if peek then s1
      else if r.acc = .rc then s1.setReg a 0
      else match statSlot b o with
        | some k => readSlotStat s1 k
        | none => s1
    (some v, s2)

/-! ### What a write does -/

def plain (s : State) (b : Block) (o : Nat) (r : Row) (a : Nat) (v : W) : State :=
  match r.acc with
  | .rw => s.setReg a (legalizeAt b o r v)
  | .fw => s.setReg a (legalizeAt b o r v)
  | .w1c => s.setReg a (s.reg a &&& ~~~ legalize r v)
  | _ => s

/-- R23, R61: SC5_RSV rises or falls. -/
def writeRtrCtrl (s0 : State) (t : Nat) (v : W) : State :=
  let s := modTa s0 t (fun a => { a with ctrlDue := none })
  let was := sc5Rsv s t
  let s1 := s.setReg (rtrReg t Off.RTR_CTRL) (W.at 0 3 (v.fld 0 3))
  if was = v.bit 1 then markReady s1 t
  else
    let s2 := setBit s1 (pwrReg Off.PWR_PROFILE_STAT) 3 false
    let s3 := forEach (fun k st =>
      let c := cntOf st t k
      if c.half then st else setCnt st t k (if v.bit 1 then reserveOn c else reserveOff c)) (sc5Counts t) s2
    noteSc5 (markReady s3 t)

/-- R22: a direct write of PWR_PROFILE reaches tile t, which sprays and reserves as the profile says from then on. -/
def profileArrives (s : State) (t : Nat) : State :=
  let c := s.reg (rtrReg t Off.RTR_CTRL)
  takeProfile (writeRtrCtrl s t (c.put 0 2 (profileCtrl (getFld s (pwrReg Off.PWR_PROFILE) 0 2)))) t
/-- The tiles that the write reaches within one tc: the first of those it has still to reach, and a set of others that
the manual leaves open (log entries 2 and 4). A tile in a voltage transition takes it after that (R21). -/
def profileStep (s : State) : State :=
  match s.profDue with
  | [] => s
  | t0 :: _ =>
    let (a, s1) := freeW s
    let (b, s2) := freeW s1
    let here (t : Nat) : Bool := !taVtrans s t && (decide (t = t0) || (if t < 36 then a.bit t else b.bit (t - 36)))
    forEach (fun t st => if here t then profileArrives st t else st) s.profDue
      { s2 with profDue := s.profDue.filter (fun t => !here t) }

/-- R79: the write of RTR_MAP_EPOCH clears the local fences. -/
def writeMapEpoch (s : State) (t : Nat) (v : W) : State :=
  let s1 := s.setReg (rtrReg t Off.RTR_MAP_EPOCH) (W.at 0 16 (v.fld 0 16))
  (s1.setReg (rtrReg t Off.RTR_LOCAL_FENCE) 0).setReg (rtrReg t Off.RTR_LOCAL_HALF) 0

/-- R95: the checks are due once a register at `a` that triggers them has changed. -/
def noteTrigger (old s : State) (a : Nat) : State :=
  if s.reg a = old.reg a then s else { s with checkDue := true }
def writeRtr (s : State) (t o : Nat) (r : Row) (v : W) : State :=
  if o = Off.RTR_CTRL then writeRtrCtrl s t v
  else if o = Off.RTR_MAP_EPOCH then markReady (writeMapEpoch s t v) t
  else
    let s0 := plain s (.rtr t) o r (rtrReg t o) v
    let s1 := if Off.RTR_FMAP ≤ o then noteTrigger s s0 (rtrReg t o) else s0
    let s2 := if Off.RTR_FMAP ≤ o then noteCopies s1 else s1
    if Off.RTR_FMAP ≤ o ∧ v.bit 16 ∧ !mapOut s t (o - Off.RTR_FMAP) then mapSwitch s2 (o - Off.RTR_FMAP) else s2

/-- R262: training of slice sl's half of outgoing link i begins; the receiving end records it. -/
def trainStart (s : State) (t sl i : Nat) : State :=
  setBit s (slcReg (across t i) sl (Off.LNK_STAT (portTo (across t i) t))) 2 true
def writeSlc (s : State) (t sl o : Nat) (r : Row) (v : W) : State :=
  let s1 := plain s (.slc t sl) o r (slcReg t sl o) v
  if 0x100 ≤ o ∧ o < 0x300 ∧ o % 0x20 = 0 ∧ v.bit 1 ∧ r.acc = .fw then trainStart s1 t sl ((o - 0x100) / 0x20) else s1

/-- R88, R125: a level above a new depth falls to it. -/
def clampTokens (s : State) (n sc : Nat) : State :=
  let d := (s.reg (niReg n (Off.NI_TB_SC7 + (7 - sc)))).fld 12 11
  setFld s (niReg n Off.NI_TB_LEVEL) (tbLo sc) 11 (min (tokens s n sc) d)
/-- R95, R123: the buckets and destination masks of the strict classes. -/
def loadRegs : List Nat :=
  [Off.NI_TB_SC7, Off.NI_TB_SC6, Off.NI_TB_SC5] ++ (List.range 6).map (fun j => Off.NI_DEST_SC7_LO + j)
def writeNi (s : State) (n o : Nat) (r : Row) (v : W) : State :=
  let s0 := plain s (.ni (n / 7) (n % 7)) o r (niReg n o) v
  let s1 := if loadRegs.contains o then noteTrigger s s0 (niReg n o) else s0
  if o = Off.NI_CTRL then writeNiCtrl s n v
  else if o = Off.NI_SPRAY_SEED then seedOp s n v
  else if o = Off.NI_TB_SC7 then clampTokens s1 n 7
  else if o = Off.NI_TB_SC6 then clampTokens s1 n 6
  else if o = Off.NI_TB_SC5 then clampTokens s1 n 5
  else if o = Off.NI_RSV_PUSH then rsvPush s n v
  else if o = Off.NI_MC_INV then mcInvOp s n v
  else if o = Off.NI_PHOLD ∧ r.acc = .wo then sendPhold s n v
  else if o = Off.NI_PUNT_TB then
    setFld s1 (niReg n Off.NI_PUNT_LEVEL) 0 8 (min (puntLevel s n) (getFld s1 (niReg n Off.NI_PUNT_TB) 16 8))
  else if o = Off.NI_UINT_MASK then irqSync (uintSync s1 (n / 7))
  else s1

def writeGrd (s : State) (b : Block) (g o : Nat) (r : Row) (v : W) : State :=
  if o = Off.GRD_CTRL then readHeaders (writeGrdCtrl s g v)
  else if 0x10 ≤ o ∧ o < 0x50 then
    match o % 4 with
    | 0 => writeRegion s g ((o - 0x10) / 4) .start v
    | 1 => writeRegion s g ((o - 0x10) / 4) .stop v
    | 2 => writeRegion s g ((o - 0x10) / 4) .perm v
    | _ => s
  else plain s b o r (guardReg g o) v

def writeTa (s : State) (t o : Nat) (r : Row) (v : W) : State :=
  if o = Off.PWR_TA_REQ then writeTarget s t v
  else if o = Off.PWR_TILE_CLAIM then writeClaim s t v
  else if o = Off.BST_TA_CTRL then turnCtrl s t v
  else plain s (.ta t) o r (taReg t o) v

/-- R160: the controllers freeze the leases of core c, or let them run. -/
def setFrozen (s : State) (c : Nat) (b : Bool) : State :=
  forEach (fun t st => setBit st (epochReg t (coreNode s c)) 8 b) (List.range 64) s
def usecFull (s : State) : Nat := ftNow s / us 1
def freezes (s : State) (c : Nat) : Bool := regBit s (dbgReg Off.DBG_FREEZE_LEASE) c
def haltCore (s : State) (c : Nat) : State :=
  let s1 := modCore s c (fun x => { x with halted := true, haltUsec := usecFull s })
  if freezes s c then setFrozen s1 c true else s1
/-- A held lock of the core whose lease ended while it was halted: it is renewed with its own LEASE. -/
def lapsed (s : State) (c : Nat) (lk ls : W) (t : Nat) : Bool :=
  let h := (s.core c).haltUsec
  lkHeld lk && decide (lkOwner lk = coreNode s c) && decide (lkEpoch lk = epochOf s t (coreNode s c)) &&
    !leaseOver (h % 2 ^ 20) ls && decide ((lsExpiry ls + 2 ^ 20 - h % 2 ^ 20) % 2 ^ 20 ≤ usecFull s - h)
def renewLapsed (s : State) (c : Nat) : State :=
  forEach (fun e st =>
    match regionOf s e.1 with
    | .tmem t off =>
      if lockOk off && !isPoison s e.1 && !isPoison s (e.1 + 1) && lapsed s c e.2 (s.word (e.1 + 1)) t then
        st.setWord (e.1 + 1) (leaseWord (usecTile s t) (lsLease (s.word (e.1 + 1))))
      else st
    | _ => st) s.mem s
/-- R160: the leases of a core run again. -/
def thaw (s : State) (c : Nat) : State := setFrozen s c false
def resumeCore (s : State) (c : Nat) : State :=
  let s1 := if frozen s 0 (coreNode s c) then thaw (renewLapsed s c) c else s
  let s2 := if freezes s c then s1 else loseRecord s1 (if c = 0 then 6 else 447)
  modCore s2 c (fun x => { x with halted := false, hbFt := ftNow s })
/-- DBG_HALT.REQc is 1, or DBG_HALT_REQ[c] is high. -/
def haltAsked (s : State) (c : Nat) : Bool := (s.core c).haltReq || regBit s (dbgReg Off.DBG_HALT) c
/-- A core that runs halts while it is asked to, and resumes when neither asks. -/
def haltSync (s : State) (c : Nat) : State :=
  if haltAsked s c then (if (s.core c).run && !(s.core c).halted then haltCore s c else s)
  else if (s.core c).halted then resumeCore s c else s


/-- R288, R324, R328: a core that is not held in reset runs; core 1 only while C1_RUN = 1, and none before the POST decision
or once a scan has been requested. -/
def coreMayRun (s : State) (c : Nat) : Bool :=
  !(s.core c).rstHold && !s.scanOn && !s.postRun && (decide (c = 0) || regBit s (opcReg Off.OPC_CTRL) 0)
/-- A core starts, where it may; one that is asked to halt does so at once (R400). -/
def setRun (s : State) (c : Nat) (b : Bool) : State := haltSync (modCore s c (fun x => { x with run := b })) c
/-- R270, R274: the core that the last takeover has replaced. -/
def failedCore (s : State) (c : Nat) : Bool :=
  decide (getFld s (opcReg Off.OPC_FO_STAT) 0 16 ≠ 0 ∧ getFld s (opcReg Off.OPC_FO_STAT) 19 1 = c)
/-- R270, R324: the core leaves OPC_RST, where it may; the restart of a failed core is noted. -/
def restart (s : State) (c : Nat) (b : Bool) : State :=
  setRun (if b && failedCore s c then modCore s c (fun x => { x with backFt := some (ftNow s) }) else s) c b
/-- R325: FAB_RST is under way, the cold start included: a narrower reset that comes is absorbed. -/
def inFabRst (s : State) : Bool := s.inReset || s.postRun
/-- R330: MTX_RST_OPC holds a core in reset, releases it or gives one reset; DEAD names a core only while it is held
(R274). -/
def writeRstOpc (s : State) (v : W) : State :=
  let c := v.fld 0 1
  if v.bit 1 then modCore s c (fun x => { x with rstHold := true, rstReq := x.rstReq || !inFabRst s })
  else if (s.core c).rstHold then
    let s1 := modCore (if regBit s (opcReg Off.OPC_FO_STAT) (20 + c) then setBit s (opcReg Off.OPC_FO_STAT) (20 + c) false else s)
      c (fun x => { x with rstHold := false })
    restart s1 c (!(s.core c).rstReq && coreMayRun s1 c)
  else modCore s c (fun x => { x with rstReq := x.rstReq || !inFabRst s })
def writeMtx (s : State) (o : Nat) (r : Row) (v : W) : State :=
  if o = Off.MTX_RST_TILE then (if inFabRst s then s else { s with rstReq := s.rstReq ++ [.tile (v.fld 0 6)] })
  else if o = Off.MTX_RST_NI then
    (if inFabRst s then s
     else if v.fld 0 3 < 6 ∨ (v.fld 0 3 = 6 ∧ hasP6 (v.fld 3 6)) then
      { s with rstReq := s.rstReq ++ [.ni (niOf (v.fld 3 6) (v.fld 0 3))] } else s)
  else if o = Off.MTX_RST_OPC then writeRstOpc s v
  else plain s .mtx o r (mtxReg o) v

def writeTk (s : State) (o : Nat) (r : Row) (v : W) : State :=
  if o = Off.TK_CTRL then
    let s1 := plain s .tk o r (tkReg o) v
    if v.bit 3 then askSwitch s1 else s1
  else if o = Off.TK_SNAP then snapFt s
  else if o = Off.TK_PSTEP then pstep s v
  else plain s .tk o r (tkReg o) v

def writeFnf (s : State) (o : Nat) (r : Row) (v : W) : State :=
  if 0x100 ≤ o ∧ o < 0x180 ∧ o % 16 = Off.FNF_CMD then fnfCmd s ((o - 0x100) / 16) v
  else plain s .fnf o r (fnfReg o) v

def writePwr (s : State) (o : Nat) (r : Row) (v : W) : State :=
  if o = Off.PWR_PROFILE then writeProfile s v
  else if o = Off.PWR_SC5_TILES_LO ∨ o = Off.PWR_SC5_TILES_HI then writeSc5 s (pwrReg o) v
  else plain s .pwr o r (pwrReg o) v

/-- R214: SEL; CUR follows at once, or when OC_OK rises. -/
def writeClk (s : State) (c : Nat) (v : W) : State :=
  let a := opcReg (Off.OPC_CLK c)
  let s1 := setBit s a 0 (v.bit 0)
  if v.bit 0 then (if regBit s a 2 then setBit s1 a 1 true else s1) else setBit s1 a 1 false
/-- R217: C1_RUN releases core 1, or puts it into reset. -/
def writeC1Run (s : State) (v : W) : State :=
  let was := regBit s (opcReg Off.OPC_CTRL) 0
  let s1 := s.setReg (opcReg Off.OPC_CTRL) (W.at 0 1 (v.fld 0 1))
  if v.bit 0 && !was then setRun s1 1 (coreMayRun s1 1)
  else if !v.bit 0 && was then modCore s1 1 (fun x => { x with rstReq := true })
  else s1
def writeOpc (s : State) (o : Nat) (r : Row) (v : W) : State :=
  if o = Off.OPC_CTRL then writeC1Run s v
  else if o = Off.OPC_CLK 0 then writeClk s 0 v
  else if o = Off.OPC_CLK 1 then writeClk s 1 v
  else plain s .opc o r (opcReg o) v

def writeMbx (s : State) (o : Nat) (r : Row) (v : W) : State :=
  if o < 64 then doorbell s o (v.fld 0 1)
  else if o = Off.MBX_SESSION then sessionWrite s
  else irqSync (plain s .mbx o r (mbxReg o) v)

def writeExt (s : State) (o : Nat) (r : Row) (v : W) : State :=
  if o = Off.EXT_INST ∧ regBit s (extReg Off.EXT_CTRL) 0 then s
  else if o = Off.EXT_CTRL then bridgePublish (plain s .ext o r (extReg o) v)
  else plain s .ext o r (extReg o) v

/-- R160: the bit of a halted core acts at once. -/
def freezeSync (s : State) (c : Nat) : State :=
  if (s.core c).halted then setFrozen s c (regBit s (dbgReg Off.DBG_FREEZE_LEASE) c) else s
def writeDbg (s : State) (o : Nat) (r : Row) (v : W) : State :=
  let s1 := plain s .dbg o r (dbgReg o) v
  if o = Off.DBG_FREEZE_LEASE then freezeSync (freezeSync s1 0) 1
  else if o = Off.DBG_HALT then haltSync (haltSync s1 0) 1
  else s1

/-- The effect of a write of `v` at a listed register. -/
def writeAt (s : State) (b : Block) (o : Nat) (r : Row) (a : Nat) (v : W) : State :=
  match r.acc with
  | .rsv => s
  | .ro => s
  | .rc => s
  | _ =>
    match b with
    | .rtr t => writeRtr s t o r v
    | .slc t sl => writeSlc s t sl o r v
    | .ni t p => writeNi s (niOf t p) o r v
    | .grdNi t p => writeGrd s b (niOf t p) o r v
    | .grdOpc c => writeGrd s b (448 + c) o r v
    | .tmem t => if 0x40 ≤ o ∧ o < 0x80 then writeSpare s t (o - 0x40) v else plain s b o r a v
    | .ta t => writeTa s t o r v
    | .mtx => writeMtx s o r v
    | .tk => writeTk s o r v
    | .fnf => writeFnf s o r v
    | .pwr => writePwr s o r v
    | .opc => writeOpc s o r v
    | .mbx => writeMbx s o r v
    | .ext => writeExt s o r v
    | .evl => plain s b o r a v
    | .bst => plain s b o r a v
    | .ident => s
    | .dbg => writeDbg s o r v

/-! ### Accesses of masters -/

/-- One word written for node `node`; the write is applied, or held during brace (R308), or a decode miss.
Answers whether it has been acknowledged. -/
def writeWord (s : State) (node a : Nat) (v : W) (ack : Option (Master × Nat)) : Bool × State :=
  match target s a with
  | none => (true, decodeMiss s node true .matrix a)
  | some (b, o, r) =>
    if braced s && alwaysOn b then
      (false, { s with nextId := s.nextId + 1,
                       heldWrites := s.heldWrites ++ [{ addr := a, val := v, node := node, ack := ack, id := s.nextId }] })
    else (true, writeAt (wakeFor s b) b o r a v)
/-- A write whose acknowledgement nobody models as waiting. -/
def poke (s : State) (node a : Nat) (v : W) : State := (writeWord s node a v none).2
def pokes (s : State) (node : Nat) (l : List (Nat × W)) : State := forEach (fun p st => poke st node p.1 p.2) l s

/-- R347: a burst to EVL_POST_0–3 or 0–7 posts an event under the master's node ID. -/
def postEvent (s : State) (node : Nat) (ws : List W) : State :=
  let w2 := wordAt ws 2
  pushEv s { ftH := wordAt ws 0, ftL := wordAt ws 1, node := node, code := w2.fld 23 10, sev := w2.fld 33 2,
             arg := wordAt ws 3, cont := if ws.length = 8 then some (ws.drop 4) else none }
def isPost (a k : Nat) : Bool := decide (a = evlReg (Off.EVL_POST 0)) && decide (k = 4 ∨ k = 8)

/-- The words of a write burst from `a` on, one after the other; whether all have been acknowledged. -/
def writeBurst (s : State) (node : Nat) (ack : Option (Master × Nat)) : Nat → List W → Bool × State
  | _, [] => (true, s)
  | a, v :: vs =>
    let (x, s1) := writeWord s node a v ack
    let (y, s2) := writeBurst s1 node ack (a + 1) vs
    (x && y, s2)
def burst (s : State) (node a : Nat) (ws : List W) (ack : Option (Master × Nat)) : Bool × State :=
  let (x, s1) := writeBurst s node ack a ws
  (x, if isPost a ws.length && fstate s ≠ 2 then postEvent s1 node ws else s1)

/-- The words of a read burst; a word that misses is `none`. -/
def readBurst (s : State) (node : Nat) (peek : Bool) (a : Nat) : Nat → List (Option W) × State
  | 0 => ([], s)
  | k + 1 =>
    let (v, s1) := readWord s node a peek
    let (vs, s2) := readBurst s1 node peek (a + 1) k
    (v :: vs, s2)

/-! ### Direct accesses of an Opcon core (R165, R171, R173) -/


/-- R216: a decode miss of a core's access is logged; the command that the active core executes will fail. -/
def noteMiss (s : State) (c a : Nat) : State :=
  let s1 := logAt s (ftNow s) (coreNode s c) EvC.OPC_DECERR [natW a]
  if c = activeCore s then { s1 with running := s1.running.map (fun r => { r with stop := r.stop.orElse (fun _ => some a) }) }
  else s1

/-- A request on the memory path. -/
def memPkt (s : State) (m : Master) (id : Nat) (wr : Bool) (a k : Nat) (data : List W) : Pkt :=
  { id := id, opc := if wr then Opc.WR else Opc.RD, src := masterNode s m, dst := 0, cnt := k, arg := natW a, words := data,
    len := flitsForWords data.length - 1 }

/-- R142: what a memory-path access below the register space reaches. -/
inductive MemWay | opcon | tile (t : Nat) | miss
  deriving DecidableEq, Repr
def memWay (s : State) (a : Nat) : MemWay :=
  match regionOf s a with
  | .rom _ => if fstate s = 2 then .miss else .opcon
  | .sram _ => if fstate s = 2 then .miss else .opcon
  | .tmem t _ => if fstate s = 2 ∨ tileState s t = TS.OFF then .miss else .tile t
  | _ => .miss

/-- R136: the controller's queue of 16 has room for a memory-path request. -/
def queueRoom (s : State) (a : Nat) : Bool :=
  match memWay s a with
  | .tile t => decide (0xF00000000 ≤ a) || decide (tmemHeld s t < 16)
  | _ => true
/-- An access below the register space: a miss, or served by the Opcon memory or by the controller of a tile. -/
def memAccess (s : State) (m : Master) (id : Nat) (wr : Bool) (a k : Nat) (data : List W) : State :=
  let p := memPkt s m id wr a k data
  match memWay s a with
  | .miss => answerPort (decodeMiss s (masterNode s m) wr .matrix a) m id St.DECERR (if wr then [] else List.replicate k 0)
  | .opcon =>
    let (st, ws, s1) := opconServe s p
    answerPort s1 m id st ws
  | .tile t =>
    let s1 := if tileDark s t then wakeNow s t else s
    modTmc s1 t (fun x => { x with q := x.q ++ [{ pkt := p, via := .mem m }] })

/-- The words, and those of them that have no target, of a core's access to registers. -/
def lostWord (s : State) (a k : Nat) : Option Nat :=
  ((List.range k).find? (fun i => (target s (a + i)).isNone)).map (fun i => a + i)
/-- R142: a core's access below the register space takes the memory path; one with no target is a decode miss. -/
def coreMemory (s : State) (c : Nat) (wr : Bool) (a : Nat) (ws : List W) : State :=
  let m : Master := .core (if c = 0 then 0 else 1)
  let s1 := memAccess { s with nextId := s.nextId + 1 } m s.nextId wr a (if wr then ws.length else 1) ws
  if memWay s a = .miss then noteMiss s1 c a else s1
/-- A write of the core leaves its write queue: the guard, then the control matrix, then its completion, for which one that
brace holds waits (R141, R308). -/
def coreWrite (s : State) (c a : Nat) (ws : List W) : State :=
  match accessFails s (448 + c) a ws.length false true (corePriv s c) with
  | some (w, cause, _) => recordNotice s (448 + c) w cause
  | none =>
    if a < 0xF00000000 then coreMemory s c true a ws
    else
      let miss := lostWord s a ws.length
      let key : Option (Master × Nat) := some (.core (Fin.ofNat 2 c), s.nextId)
      let (acked, s1) := burst s (coreNode s c) a ws key
      let s2 : State := if acked then
          modCore s1 c (fun x => { x with acks := x.acks ++ [if miss.isSome then St.DECERR else St.OK] })
        else { s1 with heldWrites := s1.heldWrites.map (fun h => if h.ack = key then { h with bad := miss.isSome } else h) }
      match miss with
      | some w => noteMiss s2 c w
      | none => s2
/-- A read of the core: the guard, then the control matrix. -/
def coreRead (s : State) (c a : Nat) : State :=
  match accessFails s (448 + c) a 1 true false (corePriv s c) with
  | some (w, cause, r) => recordFault s (448 + c) Opc.RD 0 w cause r
  | none =>
    if a < 0xF00000000 then coreMemory s c false a []
    else
      let (v, s1) := readWord s (coreNode s c) a false
      let s2 : State := { s1 with coreOut := s1.coreOut ++ [(c, if v.isNone then St.DECERR else St.OK, [v.getD 0])] }
      if v.isNone then noteMiss s2 c a else s2
def coreNow (s : State) (c : Nat) (x : CoreAcc) : State :=
  if x.wr then coreWrite s c x.addr x.words else coreRead s c x.addr

/-- R171, R173: a core that waits for a held read, or whose write queue of 8 is full, issues nothing. -/
def coreStalled (s : State) (c : Nat) : Bool :=
  (s.core c).wq.any (fun x => !x.wr) || decide (8 ≤ (s.core c).wq.length)
/-- R148: a barrier of the core is pending, and has not marked the access. -/
def behindBar (s : State) (c id : Nat) : Bool :=
  match (s.ni (coreNi c)).bar with
  | none => false
  | some b => !b.marks.contains id
/-- R145: an earlier access of core c to one of k words from a is not performed: a request of its NI without its response,
a write that the bridge has taken, or one that brace holds. -/
def ownEarlier (s : State) (c a k : Nat) : Bool :=
  (s.ni (coreNi c)).outst.any (fun q => overlaps q.addr q.words a k) ||
    s.posted.any (fun q => decide (q.pkt.src = coreNode s c) && overlaps q.pkt.addr q.pkt.touched a k) ||
    (coreHeld s c).any (fun h => overlaps h.addr 1 a k)
/-- A core's direct access waits: its guard holds it, but for a write of its own guard registers (R173); it comes after a
barrier that is pending (R148), or after an access to one of its words that is not performed (R145); the queue of the
controller that it needs is full (R136). -/
def coreWaits (s : State) (c : Nat) (x : CoreAcc) : Bool :=
  (grdUpd s (448 + c) && !(x.wr && ownGuardWrite s c x.addr x.words.length)) || behindBar s c x.id ||
    ownEarlier s c x.addr (if x.wr then x.words.length else 1) || !queueRoom s x.addr
/-- An access of the core is carried out, or waits behind those before it. -/
def coreAccess (s : State) (c : Nat) (x : CoreAcc) : State :=
  if !coreWaits s c x && ((s.core c).wq.isEmpty || (x.wr && ownGuardWrite s c x.addr x.words.length)) then coreNow s c x
  else if coreStalled s c then s
  else modCore { s with nextId := s.nextId + 1 } c (fun y => { y with wq := y.wq ++ [{ x with id := s.nextId }] })

/-- The next access of a core that no longer waits. -/
def coreFreed (s : State) (c : Nat) : Option (Nat × CoreAcc × List CoreAcc) :=
  match (s.core c).wq with
  | [] => none
  | x :: xs => if coreWaits s c x then none else some (c, x, xs)
/-- What no longer waits is checked and carried out in order. -/
def coreDrain (s : State) : Nat → State
  | 0 => s
  | f + 1 => match (coreFreed s 0).orElse (fun _ => coreFreed s 1) with
    | none => s
    | some (c, x, xs) => coreDrain (coreNow (modCore s c (fun y => { y with wq := xs })) c x) f
/-- The accesses of both cores that what has just happened frees. -/
def coreSettle (s : State) : State := coreDrain s ((s.core 0).wq.length + (s.core 1).wq.length)

/-- A response or a barrier's end frees what a core's direct accesses wait for. -/
def execResponseReceived (n : NiId) (s : State) : Res := ok (coreSettle (responseOp s n.idx))
def execBarrierComplete (n : NiId) (s : State) : Res := ok (readHeaders (coreSettle (barrierOp s n.idx)))
def execBarTimeout (n : NiId) (s : State) : Res := ok (readHeaders (coreSettle (barTimeoutOp s n.idx)))

end Sys2Proof.Machine
end

