-- ==== Sys2Proof/Machine/Matrix.lean ====
section
/-!
DEFINITION. The control matrix and its masters (R137 to R142, R347, R361, R362): requests at the host
register port and the debug access port, the data-fabric bridge, rounds of writes, reads with side
effects, and the writes that the table names one by one.
-/

namespace Sys2Proof.Machine

/-! ### Requests of the register ports (R142, R361, R362) -/

def portQ (s : State) : Master → List PortReq
  | .hrp => s.hrpQ
  | .dbg => s.dbgQ
  | .core _ => []
def pushPort (s : State) (m : Master) (q : PortReq) : State :=
  match m with
  | .hrp => { s with hrpQ := s.hrpQ ++ [q] }
  | .dbg => { s with dbgQ := s.dbgQ ++ [q] }
  | .core _ => s
/-- R7: a debug-port read with DBG_PEEK = 1 has no side effect. -/
def peeks (s : State) : Master → Bool
  | .dbg => regBit s (dbgReg Off.DBG_PEEK) 0
  | _ => false

/-- The access is carried out, or queued at a tile memory controller; its answer marks the request. -/
def portAccess (s : State) (m : Master) (id : Nat) (wr : Bool) (a k : Nat) (data : List W) : State :=
  let node := masterNode s m
  if 0xF00000000 ≤ a then
    (if wr then
      let (acked, s1) := burst s node a data (some (m, id))
      if acked then answerPort s1 m id St.OK [] else s1
     else
      let (vs, s1) := readBurst s node (peeks s m) a k
      answerPort s1 m id (if vs.any (fun v => v.isNone) && m = .dbg then St.DECERR else St.OK) (vs.map (fun v => v.getD 0)))
  else memAccess s m id wr a k data

/-- R132: a word of a write burst at registers has no target. -/
def burstMisses (s : State) (a k : Nat) : Bool :=
  decide (0xF00000000 ≤ a) && (List.range k).any (fun i => (target s (a + i)).isNone)
/-- A request is taken at a register port. The HRP accepts at most four outstanding (R361); the debug access port has a
FIFO of 16 entries (R316), of which the model lets each request not yet answered hold one (DESIGN CHOICE, log entry 38). -/
def portRequest (s : State) (m : Master) (wr : Bool) (a : Nat) (len : Nat) (data : List W) : State :=
  if s.inReset || (m = .hrp && decide (4 ≤ s.hrpQ.length)) || (m = .dbg && decide (16 ≤ s.dbgQ.length)) || !queueRoom s a then s
  else
    let q : PortReq :=
      { id := s.nextId, wr := wr, len := len, bad := wr && decide (m = .dbg) && burstMisses s a (len + 1) }
    portAccess (pushPort { s with nextId := s.nextId + 1 } m q) m s.nextId wr a (len + 1) (data.take (len + 1))

def execHrpRequest (wr : Bool) (addr : W) (len : Fin 16) (data : List W) (s : State) : Res :=
  ok (coreSettle (portRequest s .hrp wr addr.toNat len.val data))
def execDbgRequest (wr : Bool) (addr : W) (len : Fin 16) (data : List W) (s : State) : Res :=
  ok (coreSettle (portRequest s .dbg wr addr.toNat len.val data))

/-- R276: during power-on self-test the control matrix answers only the debug access port and the HRP. -/
def matrixTakes (s : State) (node : Nat) : Bool :=
  !s.inReset && (!s.postRun || decide (node = dbgNode s ∨ node = hrpNode s))

/-- R401: one read of a register by a master. An Opcon core's access passes its guard first (R165). -/
def readBy (s : State) (m : Master) (a : Nat) : Res :=
  match m with
  | .core c => when_ (matrixTakes s (coreNode s c.val)) s (coreAccess s c.val { wr := false, addr := a })
  | p => ok (portRequest s p false a 0 [])
def execRcRead (m : Master) (addr : W) (s : State) : Res := readBy s m addr.toNat

/-! ### Guards (R167, R173, R175) -/

/-- R382: a write that the table names reaches the register's block: with no target it is a decode miss, and a dozing tile
wakes first. -/
def reached (s : State) (a : Nat) (f : State → State) : State :=
  match target s a with
  | none => decodeMiss s (hrpNode s) true .matrix a
  | some (b, _, _) => f (wakeFor s b)
/-- What the cores' guards no longer hold goes on. -/
def writeCtrlAt (s : State) (g : Nat) (v : W) : State :=
  reached s (guardReg g Off.GRD_CTRL) (fun st => readHeaders (coreSettle (writeGrdCtrl st g v)))
def execGrdUpdateHold (g : GuardId) (s : State) : Res := ok (writeCtrlAt s (guardNum g) 2)

def execGrdEnable (g : GuardId) (s : State) : Res := ok (writeCtrlAt s (guardNum g) 1)
def execGrdDisable (g : GuardId) (s : State) : Res := ok (writeCtrlAt s (guardNum g) 0)
def execGrdRegionWrite (g : GuardId) (k : Fin 16) (f : RegionWord) (v : W) (s : State) : Res :=
  ok (reached s (guardReg (guardNum g) (regionOff k f)) (fun st => writeRegion st (guardNum g) k f v))

/-! ### An NI's registers that the table names (R85, R267) -/

def execSpraySeedWrite (n : NiId) (v : W) (s : State) : Res :=
  ok (reached s (niReg n.idx Off.NI_SPRAY_SEED) (fun st => seedOp st n.idx v))
def execNiEnable (n : NiId) (s : State) : Res :=
  let a := niReg n.idx Off.NI_CTRL
  ok (reached s a (fun st => if niEn st n.idx then st else writeNiCtrl st n.idx ((st.reg a).put 0 1 1)))
def execDrain (n : NiId) (s : State) : Res :=
  let a := niReg n.idx Off.NI_CTRL
  ok (reached s a (fun st => if niEn st n.idx then writeNiCtrl st n.idx ((st.reg a).put 0 1 0) else st))
def execNiRsvPush (n : NiId) (v : W) (s : State) : Res :=
  ok (reached s (niReg n.idx Off.NI_RSV_PUSH) (fun st => rsvPush st n.idx v))
def execNiPhold (n : NiId) (v : W) (s : State) : Res :=
  ok (reached s (niReg n.idx Off.NI_PHOLD) (fun st => sendPhold st n.idx v))
def execNiMcInv (n : NiId) (v : W) (s : State) : Res :=
  ok (reached s (niReg n.idx Off.NI_MC_INV) (fun st => mcInvOp st n.idx v))

/-! ### The data-fabric bridge (R129, R141) -/

def isBridge (p : Pkt) : Bool := isAccess p.opc
def bridgePort (port : Fin 2) : Nat := if port.val = 0 then niOf 0 5 else niOf 63 5

/-- R308: brace holds a write of some of the words from `a` on. -/
def braceKeeps (s : State) (a k : Nat) : Bool :=
  braced s && (List.range k).any (fun i => match target s (a + i) with
    | some (b, _, _) => alwaysOn b
    | none => false)
/-- The oldest posted write is applied. One that brace holds stays at the head of the queue, and the writes behind it
wait (R141, R308). -/
def applyPosted (s : State) : State :=
  match s.posted with
  | [] => s
  | q :: rest =>
    if braceKeeps s q.pkt.addr q.pkt.cnt then s
    else (burst { s with posted := rest } q.pkt.src q.pkt.addr (q.pkt.words.take q.pkt.cnt) none).2
def applyAllPosted (s : State) : Nat → State
  | 0 => s
  | f + 1 => if s.posted.isEmpty then s else applyAllPosted (applyPosted s) f

/-- A read at the bridge, behind every write accepted before it. The debug access port peeks here too: its node ID
comes with the request (R137, R400). -/
def bridgeRead (s : State) (n : Nat) (p : Pkt) : State :=
  let (vs, s1) := readBurst s p.src (decide (p.src = dbgNode s) && peeks s .dbg) p.addr p.cnt
  let bad := vs.any (fun v => v.isNone) && seesDecerr (nodeNi p.src)
  stageOwn s1 n (mkResp p (nodeOf s n) (if bad then St.DECERR else St.OK)
    (vs.map (fun v => if bad then 0 else v.getD 0)) 0)

/-- The bridge can take the next request that has come to a port: a read waits behind the writes accepted before it, and
a full queue takes nothing. -/
def bridgeMayTake (s : State) (n : Nat) : Bool :=
  decide (s.posted.length < 16) && (match takeEject s n isBridge with
    | none => false
    | some (p, _) => p.opc ≠ Opc.RD || s.posted.isEmpty)
/-- The bridge takes the next request that has come to a port. A STCOND fails (R131). -/
def bridgeTake (s : State) (n : Nat) : State :=
  if !bridgeMayTake s n then s
  else match takeEject s n isBridge with
    | none => s
    | some (q, s1) =>
      if q.opc = Opc.RD then bridgeRead s1 n q
      else if q.isStcond && (target s q.addr).isSome then stageOwn s1 n (mkResp q (nodeOf s n) St.FAIL [] 0)
      else if q.opc = Opc.WR && !q.isStcond then
        stageOwn { s1 with posted := s1.posted ++ [{ pkt := q, port := n }] } n (mkResp q (nodeOf s n) St.OK [] 0)
      else stageOwn (decodeMiss s1 q.src true .matrix q.addr) n
        (mkResp q (nodeOf s n) St.DECERR (zeroData q) 0)

/-- The bridge takes the next request of a port; where it can take none, the oldest posted write is applied, and a read
that has waited for it is served. When a queued write is applied while requests go on coming is the bridge's own timing
(DESIGN CHOICE, log entry 38). -/
def bridgeOp (s : State) (n : Nat) : State :=
  if bridgeMayTake s n then bridgeTake s n else bridgeTake (coreSettle (applyPosted s)) n
def execBridgeWrite (port : Fin 2) (s : State) : Res := ok (bridgeOp s (bridgePort port))

/-! ### Rounds (R139, R140) -/

def insertNode (x : BitVec 23 × W) : List (BitVec 23 × W) → List (BitVec 23 × W)
  | [] => [x]
  | y :: ys => if x.1.toNat < y.1.toNat then x :: y :: ys else y :: insertNode x ys
def byNode (ws : List (BitVec 23 × W)) : List (BitVec 23 × W) := ws.foldl (fun acc x => insertNode x acc) []

/-- The Opcon core, or the register port, of a node ID. -/
def coreOfNode (s : State) (node : Nat) : Option Nat := [0, 1].find? (fun c => decide (node = coreNode s c))
def portOfNode (s : State) (node : Nat) : Option Master :=
  [Master.hrp, Master.dbg].find? (fun m => decide (node = masterNode s m))
/-- A write reaches the control matrix in this round: the matrix answers its master, the port has a place for it, and
neither a hold nor a failure of a core's guard keeps it (R165, R173, R276). -/
def inRound (s : State) (a : Nat) (x : BitVec 23 × W) : Bool :=
  let node := x.1.toNat
  matrixTakes s node && (match coreOfNode s node with
    | some c => !coreWaits s c { wr := true, addr := a, words := [x.2] } &&
        ((s.core c).wq.isEmpty || ownGuardWrite s c a 1) && (accessFails s (448 + c) a 1 false true (corePriv s c)).isNone
    | none => decide (node = hrpNode s → s.hrpQ.length < 4))
/-- What becomes of a core's write that does not reach the control matrix. -/
def offRound (a : Nat) (x : BitVec 23 × W) (s : State) : State :=
  match coreOfNode s x.1.toNat with
  | some c => if matrixTakes s x.1.toNat then coreAccess s c { wr := true, addr := a, words := [x.2] } else s
  | none => s
/-- One write of a round, with its completion at the master's own port. The write of any other node came through the
bridge and has been acknowledged there (R141). -/
def roundWrite (a : Nat) (x : BitVec 23 × W) (s : State) : State :=
  let node := x.1.toNat
  match coreOfNode s node with
  | some c => coreWrite s c a [x.2]
  | none => match portOfNode s node with
    | some m => portRequest s m true a 0 [x.2]
    | none => poke s node a x.2

/-- The writes of one round to one register, in ascending node ID; two or more are a collision. -/
def writeRound (s : State) (a : Nat) (ws : List (BitVec 23 × W)) : State :=
  let o := byNode (ws.filter (inRound s a))
  let s1 := forEach (roundWrite a) o (forEach (offRound a) (ws.filter (fun x => !inRound s a x)) s)
  match o.getLast? with
  | none => s1
  | some x => if 2 ≤ o.length && (target s a).isSome then
      (incWrap s1 (mtxReg Off.MTX_COLL_CNT)).setReg (mtxReg Off.MTX_COLL_INFO)
        (W.at 0 23 x.1.toNat ||| W.at 23 5 o.length)
    else s1
def execRegisterWrite (addr : W) (ws : List (BitVec 23 × W)) (s : State) : Res :=
  ok (coreSettle (writeRound s addr.toNat ws))

/-- R347: the burst of a master to EVL_POST. -/
def postBurst (s : State) (node : Nat) (ws : List W) : State :=
  let a := evlReg (Off.EVL_POST 0)
  match coreOfNode s node with
  | some c => coreAccess s c { wr := true, addr := a, words := ws }
  | none => match portOfNode s node with
    | some m => if ws.isEmpty then s else portRequest s m true a (ws.length - 1) ws
    | none => (burst s node a ws none).2
def execEvlPost (node : BitVec 23) (ws : List W) (s : State) : Res :=
  when_ (matrixTakes s node.toNat) s (postBurst s node.toNat ws)

/-! ### Single writes that the table names -/

/-- A write of the host at a register. -/
def hostWrite (s : State) (a : Nat) (v : W) : Res := ok (poke s (hrpNode s) a v)

def execMtxRemap (v : W) (s : State) : Res := hostWrite s (mtxReg Off.MTX_REMAP) v
def execMtxRstTile (v : W) (s : State) : Res := hostWrite s (mtxReg Off.MTX_RST_TILE) v
def execMtxRstNi (v : W) (s : State) : Res := hostWrite s (mtxReg Off.MTX_RST_NI) v
def execOpcRstHold (c : Fin 2) (s : State) : Res := hostWrite s (mtxReg Off.MTX_RST_OPC) (W.at 0 1 c.val ||| 2)
def execOpcRstPulse (c : Fin 2) (s : State) : Res := hostWrite s (mtxReg Off.MTX_RST_OPC) (W.at 0 1 c.val)
def execOpcClkSel (c : Fin 2) (sel : Bool) (s : State) : Res :=
  hostWrite s (opcReg (Off.OPC_CLK c.val)) (natW (b2n sel))
def execC1Run (s : State) : Res := hostWrite s (opcReg Off.OPC_CTRL) 1
def execProfileWrite (v : W) (s : State) : Res := hostWrite s (pwrReg Off.PWR_PROFILE) v
def execTargetRun (t : Fin 64) (s : State) : Res := hostWrite s (taReg t Off.PWR_TA_REQ) 0
def execTargetLowGear (t : Fin 64) (s : State) : Res := hostWrite s (taReg t Off.PWR_TA_REQ) 1
def execTargetSlim (t : Fin 64) (slice : Fin 2) (s : State) : Res :=
  hostWrite s (taReg t Off.PWR_TA_REQ) (natW (2 + 8 * slice.val))
def execTargetDoze (t : Fin 64) (s : State) : Res := hostWrite s (taReg t Off.PWR_TA_REQ) 3
def execTargetOff (t : Fin 64) (s : State) : Res := hostWrite s (taReg t Off.PWR_TA_REQ) 4
def execPwrClaim (t : Fin 64) (owner : BitVec 23) (s : State) : Res :=
  hostWrite s (taReg t Off.PWR_TILE_CLAIM) (W.at 0 23 owner.toNat ||| W.at 23 1 1)
def execPwrRelease (t : Fin 64) (owner : BitVec 23) (s : State) : Res :=
  hostWrite s (taReg t Off.PWR_TILE_CLAIM) (W.at 0 23 owner.toNat)
def execTurnGo (t : Fin 64) (v : W) (s : State) : Res := hostWrite s (taReg t Off.BST_TA_CTRL) v
def execTrain (t : Fin 64) (sl : Fin 2) (i : Fin 16) (s : State) : Res :=
  let a := slcReg t sl (Off.LNK_CTRL i)
  hostWrite s a (s.reg a ||| 2)
def execTkSwitchWrite (s : State) : Res := hostWrite s (tkReg Off.TK_CTRL) (s.reg (tkReg Off.TK_CTRL) ||| 8)
def execTkSnap (s : State) : Res := hostWrite s (tkReg Off.TK_SNAP) 1
def execTkFadj (v : W) (s : State) : Res := hostWrite s (tkReg Off.TK_FADJ) v
def execTkPstep (v : W) (s : State) : Res := hostWrite s (tkReg Off.TK_PSTEP) v
def execFnfCmdGo (k : Fin 8) (s : State) : Res := hostWrite s (slotReg k Off.FNF_CMD) 1
def execFnfCmdStageOnly (k : Fin 8) (s : State) : Res := hostWrite s (slotReg k Off.FNF_CMD) 8
def execFnfCmdStop (k : Fin 8) (s : State) : Res := hostWrite s (slotReg k Off.FNF_CMD) 2
def execFnfCmdAbort (k : Fin 8) (s : State) : Res := hostWrite s (slotReg k Off.FNF_CMD) 4
def execMbxDb (ws : List (Fin 64 × Bool)) (s : State) : Res :=
  ok (forEach (fun w st => poke st (hrpNode st) (mbxReg w.1.val) (natW (b2n w.2))) ws s)
def execMbxSession (s : State) : Res := hostWrite s (mbxReg Off.MBX_SESSION) 1
/-- R401: a read by a master like any other, with the side effect of readWord. -/
def execFnfStatRead (k : Fin 8) (m : Master) (s : State) : Res := readBy s m (slotReg k Off.FNF_STAT)

/-! ### Resets of masters and clocks (R214, R217, R326) -/

/-- R326: the accesses of a master that the control matrix has not carried out are discarded: those in the queue of a
controller, and those that brace holds before a block. -/
def dropAccess (s : State) (m : Master) : State :=
  { s with tmcs := s.tmcs.map (fun e => (e.1, { e.2 with q := e.2.q.filter (fun r => decide (r.via ≠ .mem m)) })),
           heldWrites := s.heldWrites.filter (fun h => decide (h.ack.map (fun x => x.1) ≠ some m)) }
/-- A burst of the master that has not been answered is cut. -/
def cutBursts (s : State) (q : List PortReq) : State :=
  if q.any (fun r => r.ans.isNone && decide (1 ≤ r.len)) then incSat s (mtxReg Off.MTX_RST_CUT_CNT) else s
/-- What the port has issued and is not carried out is discarded (R326), and no answer returns. -/
def execHrpRst (s : State) : Res := ok { dropAccess (cutBursts s s.hrpQ) .hrp with hrpQ := [], hrpOut := [] }
def execDbgRst (s : State) : Res := ok { dropAccess (cutBursts s s.dbgQ) .dbg with dbgQ := [], dbgOut := [] }

/-- R218: after a wake firmware releases core 1 once core 0 runs on oc. -/
def releaseC1 (s : State) (c : Nat) : State :=
  if s.c1Wait && decide (c = 0) then writeC1Run { s with c1Wait := false } 1 else s
/-- OC_OK rises; a selected clock takes over. -/
def execOcOk (c : Fin 2) (s : State) : Res :=
  let a := opcReg (Off.OPC_CLK c.val)
  let s1 := setBit s a 2 true
  ok (if regBit s a 0 then releaseC1 (setBit s1 a 1 true) c.val else s1)

end Sys2Proof.Machine
end

