-- ==== Sys2Proof/Machine/Resets.lean ====
section
/-!
DEFINITION. Resets (R53, R195, R322 to R329, R383): an NI, a tile, an Opcon core, the fabric, the
always-on domain, and the failure of the main rail (R309).
-/

namespace Sys2Proof.Machine

/-- Every register whose address satisfies `p` returns to its reset value. -/
def resetRegs (s : State) (p : Nat → Bool) : State := { s with regs := s.regs.filter (fun e => !p e.1) }
def inRange (lo n a : Nat) : Bool := decide (lo ≤ a ∧ a < lo + n)

/-! ### One NI (R53, R157, R195) -/

/-- The NI kills and answers what R53 names; then its state and its registers return to reset, EN and the epoch
apart. NI_SPRAY_SEED starts at the NI's node ID (R85). The router's local input port is resynchronised (R267). -/
def niResetOp (s : State) (n : Nat) : State :=
  let en := niEn s n
  let s0 := loseHold s n
  let s1 := if n % 7 = 5 then unitDrop s0 n else bumpEpoch (unitDrop s0 n) n
  let ep := s1.reg (niReg n Off.NI_EPOCH)
  let s2 := match (s1.ni n).bar with
    | none => s1
    | some b => if b.scope = 2 then
        setFld s1 (mtxReg Off.MTX_BAR_STAT) 0 9 (getFld s1 (mtxReg Off.MTX_BAR_STAT) 0 9 - 1) else s1
  let x := s2.ni n
  let s3 := (startResync s2 (n / 7) (16 + n % 7) (routerHalf s2 (n / 7))).setNi n
    { stage := x.stage.filter (fun e => decide (e.ch = .own) && isResp e.pkt.opc), out := x.out, tim := x.tim, urst := x.urst }
  if n % 7 = 5 then s3
  else
    let s4 := forEach (fun o st => noteTrigger s st (niReg n o)) loadRegs (resetRegs s3 (inRange (niReg n 0) 0x800))
    republish (uintDrop (setBit ((s4.setReg (niReg n Off.NI_EPOCH) ep).setReg (niReg n Off.NI_SPRAY_SEED) (natW (nodeOf s n))) (niReg n Off.NI_CTRL) 0 en)
      (n / 7)) n

/-- R195: a fanfare in its last 500 ns has entries at the NI. -/
def niLate (s : State) (n : Nat) : Bool := (s.ni n).hold.any (fun e => lastMoments s e.fid)
def countRst (s : State) (lo : Nat) : State := incFld s (mtxReg Off.MTX_RST_CNT) lo 12
def dropReset (s : State) (r : HeldReset) : Option State :=
  match takeFirst (fun q => decide (q = r)) s.rstReq with
  | none => none
  | some (_, rest) => some { s with rstReq := rest }
/-- A reset that is held back, or performed. -/
def niRstOr (s : State) (n : Nat) : State :=
  if niLate s n then { s with heldResets := s.heldResets ++ [.ni n] }
  else niResetOp (countRst s 12) n
def execNiRst (n : NiId) (s : State) : Res :=
  match dropReset s (.ni n.idx) with
  | none => ok s
  | some s1 => ok (niRstOr s1 n.idx)

/-! ### An Opcon core (R322, R324) -/

/-- The NI of a core acts as for the reset of its unit. -/
def coreNiReset (s : State) (c : Nat) : State :=
  modNi (unitResetOp s (if c = 0 then 6 else 447)) (if c = 0 then 6 else 447) (fun x => { x with urst := false })
/-- R325: R195 holds back the NI part of an OPC_RST; the core part proceeds. -/
def coreNiRstOr (s : State) (c : Nat) : State :=
  if niLate s (coreNi c) then { s with heldResets := s.heldResets ++ [.core c] } else coreNiReset s c
/-- R326: a burst of core c waits in the queue of a controller. -/
def coreBurst (s : State) (c : Nat) : Bool :=
  s.tmcs.any (fun e => e.2.q.any (fun r => decide (r.via = .mem (.core (Fin.ofNat 2 c))) && decide (2 ≤ r.pkt.cnt)))
/-- R324, R326: what the core has issued on the control matrix and is not carried out is discarded; a burst is counted as
cut. -/
def coreCut (s : State) (c : Nat) : State :=
  let s1 := dropAccess s (.core (Fin.ofNat 2 c))
  let s2 : State := { s1 with heldWrites := s1.heldWrites.filter (fun h => decide (h.node ≠ coreNode s c)) }
  if coreBurst s c then incSat s2 (mtxReg Off.MTX_RST_CUT_CNT) else s2
/-- R217, R324: before an image has been accepted core 0 starts again in the boot ROM, and what the loader had under way
is gone. -/
def leaveLoader (s : State) : State :=
  setBit (setFld { s with running := none, imgCheck := none, hdrs := [], session := none } (opcReg Off.OPC_FW_STAT) 24 2 0)
    (mbxReg Off.MBX_AVAIL) 0 false
def coreReset (s0 : State) (c : Nat) : State :=
  let s := coreCut (if c = 0 ∧ !bootSel s0 then leaveLoader s0 else s0) c
  let s1 := resetRegs (coreNiRstOr (countRst s 24) c) (inRange (guardReg (448 + c) 0) 0x50)
  let s2 := thaw (setFld s1 (opcReg (Off.OPC_CLK c)) 0 2 0) c
  let lost := decide (activeCore s = c) && decide (2 ≤ fwMode s)
  let s3 := if decide (activeCore s ≠ c) then setBit s2 (opcReg Off.OPC_FW_STAT) 27 false else s2
  restart (modCore s3 c (fun x => { x with halted := false, wq := [], rstReq := false, dead := if lost then 3 else x.dead })) c
    (coreMayRun s2 c)
def execOpcRst (c : Fin 2) (s : State) : Res := when_ (s.core c).rstReq s (coreReset s c)

/-! ### A tile (R323) -/

/-- The router from which the registers are refilled. -/
def refillFrom (s : State) (t : Nat) : Option Nat :=
  ((List.range 7).map (fun i => 8 * row t + (col t + i + 1) % 8)).find? (fun u => !routerOut s u && !outNow s u)
def copiedOffs : List Nat :=
  [Off.RTR_CTRL, Off.RTR_WRR_W0, Off.RTR_WRR_W1, Off.RTR_AGE_LIM, Off.RTR_HOLD_MASK_LO, Off.RTR_HOLD_MASK_HI,
   Off.RTR_MAP_EPOCH] ++ (List.range 64).map (fun x => Off.RTR_FMAP + x)
/-- The registers are copied from a neighbour in the row; without one they come from the retained words
where these are complete (R304), and keep their values otherwise. -/
def refill (old s : State) (t : Nat) : State :=
  let fromRet (st : State) : State := forEach (fun p x => x.setReg p.2 (x.reg (retReg p.1))) (rtrPairs t) st
  match refillFrom old t with
  | some u => forEach (fun o st => st.setReg (rtrReg t o) (st.reg (rtrReg u o))) copiedOffs s
  | none => if regBit s (pwrReg Off.PWR_RET_STAT) 0 then fromRet s
    else forEach (fun o st => st.setReg (rtrReg t o) (old.reg (rtrReg t o))) copiedOffs s

/-- The slice registers that a TILE_RST keeps: SLC_STAT and the remap tables. -/
def keepsSlc (o : Nat) : Bool :=
  decide (o = 0) || (decide (0x100 ≤ o ∧ o < 0x300) && decide (4 ≤ o % 0x20 ∧ o % 0x20 < 0x1C))
def resetSlices (s : State) (t : Nat) : State :=
  resetRegs s (fun a => (inRange (slcReg t 0 0) 0x1000 a && !keepsSlc (a - slcReg t 0 0)) ||
    (inRange (slcReg t 1 0) 0x1000 a && !keepsSlc (a - slcReg t 1 0)))
/-- Every link half of the tile is trained; a half is fenced where a slice at an end is out of service. -/
def retrain (s : State) (t : Nat) : State :=
  forEach (fun u st =>
    let i := portTo t u
    let j := portTo u t
    let st1 := setLink (setLink st t i {}) u j {}
    forEach (fun h x =>
      let f := !sliceIn x t h || !sliceIn x u h
      let x1 := setTx (setRx x t i h f) t i h f
      setFld (setTx (setRx x1 u j h f) u j h f) (slcReg t h (Off.LNK_STAT i)) 8 9 511) [0, 1] st1)
    (neighbours t) s

/-- A turn ends with code 3; narrowing and widening end. -/
def endAgentWork (s : State) (t : Nat) : State :=
  let s1 := match (s.ta t).turn with
    | none => s
    | some x => recordAbandon s t x
  modTa s1 t (fun a => { a with nar := none, wide := none, wideQ := [], wideFor := [], entering := none, slimDue := none })
/-- R286, R322: the work ends under a reset that re-initialises both slices: one that was isolated for a test, and one whose
widening was to come, is in service again. -/
def endAgentSlices (s : State) (t : Nat) : State :=
  let a := s.ta t
  forEach (fun sl st => if sliceState s t sl = 1 || a.wide = some sl || a.wideQ.contains sl then sliceBack st t sl else st)
    [0, 1] (endAgentWork s t)
/-- R268: the rows whose migration is abandoned, which firmware starts again. -/
def abandonedRows (s : State) (t : Nat) : List (Nat × Nat) :=
  (((s.tmc t).mig.toList ++ (s.tmc t).migWait).filter (fun m => !m.bank)).map (fun m =>
    (m.b, getFld s (tmemReg t (Off.TMEM_SPARE m.spare)) 3 7))
/-- The controller's requests from the data fabric and its reservations are lost; a migration is abandoned (R268). A
session whose bank has moved goes on, and one that has not begins anew. -/
def resetTmc (s : State) (t : Nat) : State :=
  let s1 := forEach (fun x st => askRow st t x.1 x.2) (abandonedRows s t) s
  (storeEntries (modTmc s1 t (fun m =>
      { m with q := m.q.filter (fun r => !viaFabric r), resv := [], fopDone := 0, fopOld := [], mig := none, migWait := [],
               session := m.session && decide (getFld s (tmemReg t Off.TMEM_BANK_MAP) 0 3 < 6) }))
    t (s.tmc t).q.length).setReg (tmemReg t Off.TMEM_MIG_STAT) 0

/-- The core at tile 0 or 63 is reset with its tile. -/
def tileCore (s : State) (t : Nat) : State :=
  if t = 0 then coreReset s 0 else if t = 63 then coreReset s 1 else s

/-- TILE_RST of a powered tile. -/
def tileResetOn (s : State) (t : Nat) : State :=
  let s1 := dropRouter (catchAround (killAround (fenceAround (endAgentSlices s t) t) t) t) t
  let s2 := forEach (fun n st => niResetOp st n) (niOf t 5 :: unitNis t) s1
  let s3 := resetSlices (resetRegs (resetTmc s2 t) (inRange (rtrReg t 0) 0x1000)) t
  let s4 := refill s (s3.setRt t {}) t
  tileCore (emptyPorts (retrain s4 t) t) t

/-- R157, R163: the TILE_RST counts in the epoch of every agent of the tile, which keeps its value otherwise.
NI_SPRAY_SEED starts at the NI's node ID (R85). -/
def keepEpochs (old s : State) (t : Nat) : State :=
  forEach (fun n st =>
    bumpEpoch ((st.setReg (niReg n Off.NI_EPOCH) (old.reg (niReg n Off.NI_EPOCH))).setReg (niReg n Off.NI_SPRAY_SEED)
      (natW (nodeOf st n))) n) (unitNis t) s

/-- R322: the registers of a tile that a TILE_RST keeps besides those of R304: the tile agent's and the epoch table. -/
def keptByTileRst (t a : Nat) : Bool := inRange (taReg t 0) 0x1000 a || inRange (tmemReg t (Off.TMEM_EPOCH 0)) 512 a
/-- R303: the return from Off: the tile's registers start from reset, but for those of R322; the retained words are
restored, the memory reads zero. The tile agent starts in Run at full gear, and takes the installed profile. -/
def tileResetOff (s : State) (t : Nat) : State :=
  let s1 := (s.setRt t {}).setTmc t {}
  let s2 := forEach (fun p st => st.setNi (niOf t p) {}) (List.range 7) s1
  let s3 := resetRegs s2 (fun a => inRange (tileBase t) 0x10000 a && !keptByTileRst t a)
  let s4 := refill s (restoreTile (keepEpochs s s3 t) t) t
  let s5 := forEach (fun n st => forEach (fun o x => noteTrigger s x (niReg n o)) loadRegs st) (unitNis t)
    (modTa s4 t (fun a => { a with prof := getFld s (pwrReg Off.PWR_PROFILE) 0 2 }))
  republish (uintDrop (emptyPorts (retrain (s5.setReg (taReg t Off.PWR_TA_STAT) 0) t) t) t) (niOf t 6)

/-- R195: a fanfare in its last 500 ns has entries at the tile. -/
def tileLate (s : State) (t : Nat) : Bool := (tileNis t).any (niLate s)
/-- R351: the tile has lost its copy of the event log: all of it is to be copied. Which records such a gap names where none
was missed is open (log entry 4). -/
def loseRing (s : State) (t : Nat) : State :=
  if t ≠ 0 ∧ t ≠ 63 then s
  else
    let a := evlReg (Off.EVL_MIRROR (t / 63))
    if getFld s a 0 2 ≠ 0 then setBit s a 26 true
    else
      let (w, s1) := freeW s
      setPend (s1.setReg a (W.at 0 2 1 ||| W.at 2 24 (w.fld 0 24) ||| W.at 26 1 1)) 6
def tileResetNow (s : State) (t : Nat) : State :=
  let s1 := if tileState s t = TS.OFF then loseRing (tileResetOff s t) t else tileResetOn s t
  logTile (countRst s1 0) t EvC.TILE_RESET []
def tileRstOr (s : State) (t : Nat) : State :=
  if tileLate s t then { s with heldResets := s.heldResets ++ [.tile t] }
  else tileResetNow (if tileDark s t && decide (tileState s t ≠ TS.OFF) then wakeNow s t else s) t
def execTileRst (t : Fin 64) (s : State) : Res :=
  match dropReset s (.tile t.val) with
  | none => ok s
  | some s1 => when_ (!taVtrans s t) s (tileRstOr s1 t)

/-- The launch has run, and a voltage transition begun meanwhile has ended (R323): the reset that was held back is performed
and counted. -/
def heldLate (s : State) : HeldReset → Bool
  | .ni n => niLate s n
  | .tile t => tileLate s t || taVtrans s t
  | .core c => niLate s (coreNi c)
def performHeld (s : State) : HeldReset → State
  | .ni n => niRstOr s n
  | .tile t => tileRstOr s t
  | .core c => coreNiReset s c
def execDeferredReset (s : State) : Res :=
  match takeFirst (fun r => !heldLate s r) s.heldResets with
  | none => ok s
  | some (r, rest) => ok (performHeld (incWrap { s with heldResets := rest } (fnfReg Off.FNF_DEFER_CNT)) r)

/-! ### The fabric (R322, R328, R329, R383) -/

/-- Registers of the always-on domain: they keep their values through FAB_RST. -/
def aonRegs : List Nat :=
  [tkReg Off.TK_ALARM_H, tkReg Off.TK_ALARM_L, tkReg Off.TK_ALARM_CTRL, tkReg Off.TK_ALARM_STAT,
   tkReg Off.TK_BRACE_FT_H, tkReg Off.TK_BRACE_FT_L, pwrReg Off.PWR_LATE_FT_H, pwrReg Off.PWR_LATE_FT_L]
def isAon (a : Nat) : Bool := decide (a ∈ aonRegs) || inRange (pwrReg Off.RETENTION) 0x2000 a

/-- R156: the words of the lock tables, which FAB_RST clears (R157). -/
def inLockTable (a : Nat) : Bool :=
  decide (0x100000000 ≤ a ∧ a < 0x100800000) && decide (a % 0x20000 < 512)
/-- Everything outside the always-on domain is reset and held there. -/
def fabReset (s : State) : State :=
  let r := modCore (modCore State.reset 0 (fun x => { x with haltReq := (s.core 0).haltReq })) 1
    (fun x => { x with haltReq := (s.core 1).haltReq })
  let s1 : State :=
    { r with pending := s.pending, regs := s.regs.filter (fun e => isAon e.1), mem := s.mem.filter (fun e => !inLockTable e.1),
             poison := s.poison.filter (fun a => !inLockTable a), ft := s.ft, fuses := s.fuses, fusesSensed := s.fusesSensed, inReset := true, warn := s.warn,
             scanReq := s.scanReq, onCell := s.onCell, aonLost := s.aonLost, nextId := s.nextId, freeN := s.freeN, vppOk := s.vppOk,
             hrpOut := s.hrpOut, dbgOut := s.dbgOut, braceReset := s.braceReset || braced s }
  setBit (setBit (setBit s1 (pwrReg Off.PWR_STAT) 3 s.warn) (pwrReg Off.PWR_STAT) 4 (regBit s (pwrReg Off.PWR_STAT) 4)) (mtxReg Off.MTX_RST_CAUSE) 2
    (s.scanOn || (s.inReset && regBit s (mtxReg Off.MTX_RST_CAUSE) 2))
def execFabRstAssert (s : State) : Res := ok (fabReset s)

/-- The 12 words of a key digest in the fuses, as OPC_KEY_SHADOW holds them (R232, R372). -/
def keyWord (fuses k i : Nat) : W :=
  let byte (j : Nat) : Nat := fuses >>> (384 * k + 8 * j) % 256
  W.at 24 8 (byte (4 * i)) ||| W.at 16 8 (byte (4 * i + 1)) ||| W.at 8 8 (byte (4 * i + 2)) ||| W.at 0 8 (byte (4 * i + 3))
def loadKeys (s : State) : State :=
  forEach (fun k st => forEach (fun i x => x.setReg (opcReg (Off.OPC_KEY_SHADOW k i)) (keyWord s.fusesSensed k i))
    (List.range 12) st) [0, 1] s

/-- Every NI at p0 to p4 and NI(56, 6) refuses, both cores are held in reset, turns end, zeroization begins. Cores that
are in reset already, by a request before or by the cold start, meet no second reset (R325). -/
def scanBegins (s : State) : State :=
  let s1 := ({ s with scanOn := true, scanFell := false, safe := true } : State).setReg (bstReg Off.BST_ZERO_STAT) (W.at 0 1 1 ||| W.at 3 1 1)
  forEach (fun t st => endAgentWork st t) (List.range 64)
    (if s.scanOn || inFabRst s then s1 else coreReset (coreReset s1 0) 1)
/-- The fuses are sensed, the always-on domain is checked, and what the start finds is recorded. A scan request that is still
asserted starts zeroization again (R288). -/
def fabRelease (s : State) : State :=
  let s1 : State := { s with inReset := false, fusesSensed := s.fuses, onCell := false, aonLost := false,
                             ft := if s.aonLost then 0 else s.ft }
  let s2 := setBit (setBit s1 (mtxReg Off.MTX_RST_CAUSE) 0 (!s.aonLost)) (mtxReg Off.MTX_RST_CAUSE) 1
    (regBit s (pwrReg Off.PWR_STAT) 4)
  let s3 := setTk (loadKeys s2) 4 false
  if s.scanReq then scanBegins s3 else s3
def execFabRst (s : State) : Res := when_ s.inReset s (fabRelease s)

/-- The always-on registers and retention memory take their reset values; FT starts anew. -/
def execVddAonUp (s : State) : Res :=
  ok { setBit (resetRegs s isAon) (pwrReg Off.PWR_STAT) 4 false with ft := 0, aonLost := true, onCell := false }

/-- R309: the main rail fails; the always-on domain goes on from the backup cell. -/
def execBackup (s : State) : Res :=
  let s1 := fabReset s
  ok (setTk (setBit { s1 with mem := [], poison := [], onCell := true } (pwrReg Off.PWR_STAT) 4 true) 4 true)

/-- R333: at the end of a window every wire tracker clears. -/
def execLnkWinEnd (s : State) : Res :=
  ok (resetRegs s (fun a => match blockOf a with
    | some (.slc _ _, o) => decide (0x100 ≤ o ∧ o < 0x300 ∧ o % 0x20 = 0x1C)
    | _ => false))

end Sys2Proof.Machine
end

