-- ==== Sys2Proof/WellFormed.lean ====
section
/-!
DEFINITION. Which commands name things that exist: attach points that have an NI (R2, R3), links that
lead to another router (R57), payloads as long as their length says. A command that is not well
formed cannot come from outside; `exec` is defined on it all the same.
-/

namespace Sys2Proof

/-- R3: port 6 exists at tiles 0, 7, 56 and 63 only; port 5 is the tile memory's, which has no unit. -/
def NiId.wf (n : NiId) : Bool :=
  if n.p.val = 5 then false
  else if n.p.val = 6 then n.t.val = 0 || n.t.val = 7 || n.t.val = 56 || n.t.val = 63
  else true

/-- R57: of the network ports of a tile, the one of its own column and that of its own row lead
nowhere. -/
def linkWf (t : Fin 64) (i : Nat) : Bool := !(i = t.val % 8 || i = 8 + t.val / 8)

/-- A port of a router: a link that exists, or the local port of an attach point that exists. -/
def portWf (t : Fin 64) (i : Nat) : Bool :=
  if i < 16 then linkWf t i
  else if i = 22 then t.val = 0 || t.val = 7 || t.val = 56 || t.val = 63
  else i < 22

/-- R32, R34: a packet has LEN + 1 flits of 16 words, the first with the header in W0 to W3; its words
from W4 on are at most the rest. -/
def Head.wf (h : Head) : Bool := h.words.length ≤ 12 + 16 * h.len.toNat

/-- R168: the guard of a core, or that of an attach point that exists. -/
def GuardId.wf : GuardId → Bool
  | .ni n => n.wf
  | .core _ => true

/-- R2, R3: the attach point has an NI; port 5 is that of the tile memory. -/
def NiId.present (n : NiId) : Bool := n.p.val = 5 || n.wf

/-- R36: a head that a row of the table describes: the row's own opcode, or one that the channel does not
carry (the NI refuses it under R40 whatever the row). -/
def rowHead (ch : Chan) (h : Head) (own : Bool) : Bool :=
  own || match ch with
    | .oreq => !(h.opc.toNat ∈ [0x01, 0x02, 0x03, 0x04, 0x05, 0x06, 0x0F, 0x3D]) || (h.opc = 0x0F && h.flg.toNat % 4 = 3)
    | .irsp => !(h.opc.toNat ∈ [0x11, 0x12, 0x13, 0x14])
    | .cpo => !(h.opc.toNat ∈ [0x21, 0x22])
    | .own => false

/-- R361, R362: a request of a register port: up to 16 words, as many data words as a write names, none in a
read, and no crossing of an aligned line (R130). -/
def portWords (wr : Bool) (addr : W) (len : Fin 16) (data : List W) : Bool :=
  decide (data.length = if wr then len.val + 1 else 0) && decide (addr.toNat % 16 + len.val ≤ 15)

/-- No element twice. -/
def distinct {α : Type} [DecidableEq α] : List α → Bool
  | [] => true
  | x :: xs => decide (x ∉ xs) && distinct xs

/-- Whether a command names only what exists. -/
def Instr.wf : Instr → Bool
  | .rd n h => n.wf && h.wf && rowHead .oreq h (h.opc = 0x01 && !h.flg.getLsbD 0)
  | .ldres n h => n.wf && h.wf && rowHead .oreq h (h.opc = 0x01 && h.flg.getLsbD 0)
  | .wr n h => n.wf && h.wf && rowHead .oreq h (h.opc = 0x02 && !h.flg.getLsbD 0)
  | .stcond n h => n.wf && h.wf && rowHead .oreq h (h.opc = 0x02 && h.flg.getLsbD 0)
  | .storeBufferDrain n => n.wf
  | .fop n h => n.wf && h.wf && rowHead .oreq h (h.opc = 0x03)
  | .lkacq n h => n.wf && h.wf && rowHead .oreq h (h.opc = 0x04)
  | .lkrnw n h => n.wf && h.wf && rowHead .oreq h (h.opc = 0x05)
  | .lkrel n h => n.wf && h.wf && rowHead .oreq h (h.opc = 0x06)
  | .barAgent n h => n.wf && h.wf && rowHead .oreq h (h.opc = 0x0F && h.flg.toNat % 4 = 0)
  | .barTile n h => n.wf && h.wf && rowHead .oreq h (h.opc = 0x0F && h.flg.toNat % 4 = 1)
  | .barSys n h => n.wf && h.wf && rowHead .oreq h (h.opc = 0x0F && h.flg.toNat % 4 = 2)
  | .barrierComplete n => n.wf
  | .barTimeout n => n.wf
  | .msg n h => n.wf && h.wf && rowHead .oreq h (h.opc = 0x3D)
  | .rdresp n h => n.wf && h.wf && rowHead .irsp h (h.opc = 0x11)
  | .wrack n h => n.wf && h.wf && rowHead .irsp h (h.opc = 0x12)
  | .fopresp n h => n.wf && h.wf && rowHead .irsp h (h.opc = 0x13)
  | .lkresp n h => n.wf && h.wf && rowHead .irsp h (h.opc = 0x14)
  | .cell n h => n.wf && h.wf && rowHead .cpo h (h.opc = 0x21)
  | .cellmc n h => n.wf && h.wf && rowHead .cpo h (h.opc = 0x22)
  | .orphanFlit n ch => n.wf && decide (ch ≠ .own)
  | .sequenceFail n ch => n.wf && decide (ch ≠ .own)
  | .niInject n _ => n.present
  | .pktTo n ch => n.wf && decide (ch ≠ .own)
  | .unitReset n => n.wf
  | .unitResetRelease n => n.wf
  | .drain n => n.wf
  | .drainEnd n => n.wf
  | .drainTimeout n => n.wf
  | .niEnable n => n.wf
  | .inboundRequest n => n.present
  | .responseReceived n => n.present
  | .kill n => n.present
  | .routerKill t i => portWf t i.val
  | .fstage n => n.present
  | .fstgdSend n _ => n.present
  | .timStrobe n _ => n.wf
  | .rsvreq n => n.wf
  | .rsvreqStanding n => n.wf
  | .rsvgnt n => n.present
  | .rsvref n => n.present
  | .rsvrel n => n.present
  | .rsvrelWithdraw n => n.wf
  | .rsvrelStanding n => n.present
  | .niRsvPush n _ => n.wf
  | .rsvIdle n _ _ => n.wf
  | .mcLinger n d => n.wf && d.wf
  | .mcRefill n => n.wf
  | .admissionTimeout n => n.wf
  | .rsvAnswerLost n => n.present
  | .reorderSkip n _ => n.wf
  | .handleReclaim n _ => n.wf
  | .cellDeliver n _ => n.present
  | .reorderPresent n => n.wf
  | .cellmcCopy n => n.present
  | .groupCacheFill n => n.present
  | .niPhold n _ => n.wf
  | .phold n => n.present
  | .niMcInv n _ => n.wf
  | .spraySeedWrite n _ => n.wf
  | .tokenRefill n => n.wf
  | .puntToken n => n.wf
  | .headRoute t i _ => portWf t i.val
  | .replicate t i => portWf t i.val
  | .startNext t o _ => portWf t o.val
  | .pip t o => portWf t o.val
  | .linkFlit t i _ _ _ _ => linkWf t i.val
  | .nak t i => linkWf t i.val
  | .nakRetry t i => linkWf t i.val
  | .returnParityFail t i _ => linkWf t i.val
  | .resyncReq t i => portWf t i.val
  | .resyncMark t i => portWf t i.val
  | .resyncGrant t i => portWf t i.val
  | .narrow t i _ => linkWf t i.val
  | .widen t i _ => linkWf t i.val
  | .linkLost t i => linkWf t i.val
  | .saturatedWindow t o => portWf t o.val
  | .epochUpdate _ n => n.present
  | .hrpRequest w addr len data => portWords w addr len data
  | .dbgRequest w addr len data => portWords w addr len data
  | .registerWrite _ ws => !ws.isEmpty && distinct (ws.map (fun x => x.1))
  | .niRst n => n.present
  | .grdUpdateHold g => g.wf
  | .grdEnable g => g.wf
  | .grdDisable g => g.wf
  | .grdRegionWrite g _ _ _ => g.wf
  | .grdUpdTo n => n.wf
  | .lost _ n => n.present
  | .fabrt n => n.present
  | .extFrameIn f => f.head.wf && (f.ctl.isNone || f.kind = 1)
  | .mbxDb ws => !ws.isEmpty && distinct (ws.map (fun x => x.1))
  | .wakeFlag t i => linkWf t i.val
  | .retentionWake bad => distinct bad
  | .post _ sigs rows _ _ _ _ => distinct rows && distinct (sigs.map (fun x => (x.1, x.2.1, x.2.2.1)))
  | .testStale _ _ => true
  | .readmitTest _ _ misrs => decide (misrs.length = 12)
  | .train t _ i => linkWf t i.val
  | .trainDone t _ i _ => linkWf t i.val
  | .laneRepair t _ i _ => linkWf t i.val
  | .evlPost _ ws => !ws.isEmpty && decide (ws.length ≤ 16)
  | .unitInterrupt n _ => n.wf
  | .sliceFault _ _
  | .routeChange
  | .emptyScan
  | .tmemRd _ _
  | .tmemLdres _ _
  | .tmemWr _
  | .tmemStcond _
  | .add36 _ _
  | .add72 _ _
  | .swap36 _ _
  | .cas36 _ _
  | .max36 _ _
  | .min36 _ _
  | .and36 _ _
  | .or36 _ _
  | .tmemLkacq _ _
  | .tmemLkrnw _ _
  | .tmemLkrel _ _
  | .scrub _ _
  | .rowMigration _ _ _ _
  | .migrationDone _
  | .bankMigration _ _
  | .bridgeWrite _
  | .rcRead _ _
  | .mtxRemap _
  | .mtxRstTile _
  | .mtxRstNi _
  | .opcRstHold _
  | .opcRstPulse _
  | .tileRst _
  | .opcRst _
  | .fabRst
  | .tcEdge
  | .beat
  | .treeCalibrate _ _ _ _
  | .tkSwitchWrite
  | .beatMissing
  | .switchoverDone
  | .tkLostBoth _
  | .tkSnap
  | .tkFadj _
  | .tkPstep _
  | .stepEdge
  | .ppsEdge _
  | .alarm
  | .holdoverTick
  | .fnfCmdGo _
  | .fnfCmdStageOnly _
  | .fnfCmdStop _
  | .fnfCmdAbort _
  | .fstgd _
  | .farm _
  | .arm _ _
  | .stgTo _
  | .launch _
  | .launchEdge _
  | .abort _
  | .deferredReset
  | .busy _ _
  | .freeingEnd _
  | .abortedEnd _
  | .fnfStatRead _ _
  | .pwrWarnAssert
  | .brace
  | .braceEnd
  | .release
  | .xarm
  | .xstaged
  | .xconfirm
  | .xabort
  | .xconfirmDeadline _
  | .noconfirm _
  | .xreportSend _
  | .xreport
  | .commitReport _
  | .extMsgOut
  | .mbxSession
  | .sessionResetRun
  | .commandStart
  | .commandComplete
  | .badop
  | .shadowScan
  | .budgetCheck
  | .ticketGo
  | .ticketAbort _
  | .heartbeat _
  | .opcTrap _ _ _
  | .takeover
  | .bootRomStart
  | .imageCheckDone
  | .handover
  | .opcClkSel _ _
  | .c1Run
  | .sessionReset
  | .sessionInfo
  | .cfgStatus
  | .fenceSlice
  | .fenceLink
  | .tileService
  | .unitEnable
  | .topoRead
  | .profileSet
  | .mcGroupSet
  | .mcGroupClear
  | .mcGroupRead
  | .missSet
  | .puntSet
  | .clsTbSet
  | .clsDestSet
  | .clsWrrSet
  | .admSet
  | .mcCfgSet
  | .lateSet
  | .clsRead
  | .grdSet
  | .grdOff
  | .grdRead
  | .tkSwitch
  | .alarmSet
  | .alarmRead
  | .fnfRun
  | .fnfStage
  | .fnfXrun
  | .fnfStop
  | .fnfAbort
  | .fnfStatus
  | .pwrTileSet
  | .tileClaim
  | .pwrRetain
  | .pwrRead
  | .bistCfg
  | .bistTurn
  | .bistResult
  | .fwLoad
  | .fwCommit
  | .fwInfo
  | .logRead
  | .cntRead
  | .targetRun _
  | .targetLowGear _
  | .targetSlim _ _
  | .targetDoze _
  | .targetOff _
  | .pwrClaim _ _
  | .pwrRelease _ _
  | .profileWrite _
  | .loadInterval _ _ _
  | .gearDown _
  | .vtransEnd _
  | .dozeEntry _
  | .piccoloSample _ _
  | .wakeComplete _
  | .retentionEntry
  | .wake
  | .backup
  | .postDone
  | .turnTick
  | .turnGo _ _
  | .narrowTimeout _
  | .partDone _ _
  | .turnAbandon _
  | .widenRouter _
  | .scanRequest
  | .zeroizeDone
  | .debugHalt _
  | .debugResume _
  | .eventRecord
  | .mirrorGap _
  | .fuseBlow _ _
  | .fabRstAssert
  | .hrpRst
  | .dbgRst
  | .ocOk _
  | .tkStbyOk _
  | .opcStbyOk
  | .lnkWinEnd
  | .vddAonUp => true

end Sys2Proof
end

