-- ==== Sys2Proof/Machine/Power.lean ====
section
/-!
DEFINITION. The commands of the tile agents' power states and of supply events: load intervals (R280),
gears (R295, R296), Doze and wake (R298 to R300), unit interrupts (R345), brace (R199, R308), WAKE (R306).
-/

namespace Sys2Proof.Machine

/-! ### The tc edge (R22, R180) -/

def execTcEdge (s : State) : Res := when_ (!holdover s) s (profileStep (tcStep s))

/-! ### Load and gears (R280, R295) -/

def runCount (below : Bool) (n lim : Nat) : Nat := if below then min (n + 1) lim else 0
/-- One interval of 1 µs. -/
def loadOp (s : State) (t r m : Nat) : State :=
  let th := getFld s (bstReg Off.BST_CFG) 20 7
  let auto := autoReg s t
  let a := s.ta t
  let idle := runCount (decide (r < th)) a.idleRun 100
  let midle := runCount (decide (m < th)) a.midleRun 100
  let gear := runCount (decide (r < auto.fld 0 7)) a.gearRun 10230
  let s1 := s.setReg (taReg t Off.BST_TA_LOAD)
    (W.at 0 7 r ||| W.at 7 7 m ||| W.at 14 1 (b2n (decide (idle = 100))) ||| W.at 15 1 (b2n (decide (midle = 100))))
  let s2 := modTa s1 t (fun x => { x with idleRun := idle, midleRun := midle, gearRun := gear })
  if decide (auto.fld 7 7 ≤ r) && taGear s t then wantVt s2 t true else s2
def execLoadInterval (t : Fin 64) (rload mload : Fin 101) (s : State) : Res :=
  when_ (!tileDark s t) s (loadOp s t rload mload)

def execGearDown (t : Fin 64) (s : State) : Res :=
  when_ (decide (1 ≤ taTarget s t ∧ taTarget s t ≤ 3) && !tileDark s t && (s.ta t).entering.isNone && !taGear s t && !taVtrans s t &&
    decide (10 * (autoReg s t).fld 14 10 ≤ (s.ta t).gearRun)) s (gearOp s t)

/-! ### Unit interrupts (R296, R345) -/

def sampleLines (s : State) (n lines : Nat) : State :=
  irqSync (uintSync (s.setReg (niReg n Off.NI_UINT) (W.at 0 4 lines)) (n / 7))
def execUnitInterrupt (n : NiId) (lines : BitVec 4) (s : State) : Res :=
  if taVtrans s n.t then ok (modTa s n.t (fun a => { a with heldInt := a.heldInt ++ [(n.idx, lines.toNat)] }))
  else ok (sampleLines s n.idx lines.toNat)

/-- A transition ends: what waited is served, and the lines held are forwarded in order. -/
def vtEnd (s : State) (t : Nat) : State :=
  let s1 := endVt (modTa s t (fun a => { a with heldInt := [], ctrlDue := none })) t
  let s2 := match (s.ta t).ctrlDue with
    | none => s1
    | some v => writeRtrCtrl s1 t ((s1.reg (rtrReg t Off.RTR_CTRL)).put 0 2 v)
  forEach (fun p st => sampleLines st p.1 p.2) (s.ta t).heldInt s2
def execVtransEnd (t : Fin 64) (s : State) : Res := when_ (taVtrans s t) s (vtEnd s t)

/-! ### Doze (R298 to R300) -/

/-- The decision, at most once in each DOZE_DWELL: the entry begins, or is refused. -/
def dozeOp (s0 : State) (t : Nat) : State :=
  let s := modTa s0 t (fun a => { a with dozeFc := some s0.fc })
  match refuser s t .doze false with
  | some c => recordRefusal s t c 3 true
  | none => modTa s t (fun a => { a with entering := some s.fc })
/-- DOZE_DWELL in fc has passed since the last flit of an output and since the last attempt. -/
def dozeDwell (s : State) (t : Nat) : Nat := 2400 * (autoReg s t).fld 24 10
def dozeDue (s : State) (t : Nat) : Bool :=
  let a := s.ta t
  decide (a.outFc + dozeDwell s t ≤ s.fc) && (match a.dozeFc with
    | none => true
    | some x => decide (x + dozeDwell s t ≤ s.fc))
/-- The row stands for both ends of an entry: the decision, and 21 fc later, where nothing has come meanwhile, its
completion. -/
def execDozeEntry (t : Fin 64) (s : State) : Res :=
  match (s.ta t).entering with
  | some x => when_ (decide (x + 21 ≤ s.fc)) s (enterDoze s t)
  | none =>
    when_ (decide (taTarget s t = 3 ∧ tileState s t = TS.RUN) && !taVtrans s t && (s.ta t).nar.isNone &&
      (s.ta t).wide.isNone && dozeDue s t) s (dozeOp s t)

/-- The wake flag of incoming link i: an upstream head waits for the tile. -/
def flagUp (s : State) (t i : Nat) : Bool :=
  let u := across t i
  (fronts [] (s.rt u).inq).any (fun f => decide (f.out = some (portTo u t)) && decide (0 < f.arrived)) && !routerOut s u
/-- The 14 flags in ascending port index. -/
def flagBits (s : State) (t : Nat) : Nat :=
  let ps := (List.range 16).filter (fun o => !(decide (o = col t) || decide (o = 8 + row t)))
  ((List.range 14).zip ps).foldl (fun m e => if flagUp s t e.2 then m + 2 ^ e.1 else m) 0
def setPic (s : State) (t lines flags : Nat) : State :=
  setFld (setFld s (taReg t Off.PWR_PIC_STAT) 0 5 lines) (taReg t Off.PWR_PIC_STAT) 5 14 flags

def execWakeFlag (t : Fin 64) (i : Fin 16) (s0 : State) : Res :=
  let s := if linkWf t i && flagUp s0 t i then stirTile s0 t 1 else s0
  when_ (decide (tileState s t = TS.DOZE) && linkWf t i && flagUp s t i) s
    (wakeTile (setPic s t (getFld s (taReg t Off.PWR_PIC_STAT) 0 5) (flagBits s t)) t WakeBy.FLAG)

/-- One sample of the piccolo. -/
def picSample (s : State) (t lines : Nat) : State :=
  let up (j : Nat) : Bool := lines.testBit j
  let n := ((List.range 21).filter up).length
  let runs := (List.range 21).map (fun j => if up j then (s.ta t).pic.getD j 0 + 1 else 0)
  let flags := flagBits s t
  let cfg := s.reg (pwrReg Off.PWR_PIC_CFG)
  let s1 := modTa (setPic s t n flags) t (fun a => { a with pic := runs })
  if flags ≠ 0 then wakeTile s1 t WakeBy.FLAG
  else if cfg.fld 10 5 ≤ n then wakeTile s1 t WakeBy.NI_TH
  else if runs.any (fun k => decide (cfg.fld 15 8 ≤ k)) then wakeTile s1 t WakeBy.PERSIST
  else s1
def execPiccoloSample (t : Fin 64) (lines : BitVec 21) (s : State) : Res :=
  when_ (tileState s t = TS.DOZE) s (picSample s t lines.toNat)

def execWakeComplete (t : Fin 64) (s : State) : Res := ok (wakeDone s t)

/-! ### Brace (R199, R308) -/

/-- Launches whose edge lies at or after B are held. -/
def holdFrom (s : State) (b : Nat) : State :=
  { s with launches := s.launches.map (fun l => match l.edge with
      | some e => if b ≤ e then { l with edge := none, held := true } else l
      | none => l) }
/-- R199: BRACE for edge B. A release edge below B stands: what was held runs there. One at or after B is overtaken, and
the brace goes on from its first edge (DEDUCED, log entry 20). -/
def braceFrom (b : Nat) : List (Nat × Option Nat) → List (Nat × Option Nat)
  | [] => [(b, none)]
  | [(b0, some r)] => if r < b then [(b0, some r), (b, none)] else [(b0, none)]
  | [(b0, none)] => [(b0, none)]
  | x :: y :: l => x :: braceFrom b (y :: l)
/-- RELEASE for edge r ends the last brace. -/
def braceTo (tc r : Nat) : List (Nat × Option Nat) → List (Nat × Option Nat)
  | [] => [(tc, some r)]
  | [(b, _)] => [(b, some r)]
  | x :: y :: l => x :: braceTo tc r (y :: l)
def warnRises (s : State) : State :=
  let s1 := setBit { s with warn := true } (pwrReg Off.PWR_STAT) 3 true
  if braced s then s1
  else
    let b := tcNow s + 64
    let s2 := (s1.setReg (tkReg Off.TK_BRACE_FT_H) (ftHi (ftNow s))).setReg (tkReg Off.TK_BRACE_FT_L) (ftLo (ftNow s))
    holdFrom { setBit s2 (pwrReg Off.PWR_STAT) 2 true with warnFt := ftNow s, braces := braceFrom b s.braces } b
/-- PWR_WARN is seen to rise; after a FAB_RST under it, it is seen anew (R328). -/
def execPwrWarnAssert (s : State) : Res := when_ (!s.warn || !braced s) s (warnRises s)

def execBrace (s : State) : Res :=
  match s.braces.head? with
  | none => ok s
  | some (b, _) => when_ (decide (b ≤ tcNow s) && !s.braceOn) s (setTk { s with braceOn := true } 3 true)

/-- A write that brace has held is performed and acknowledged. -/
def performWrite (h : HeldWrite) (s : State) : State :=
  let (acked, s1) := writeWord s h.node h.addr h.val h.ack
  match h.ack with
  | some (m, id) =>
    if acked && !(s1.heldWrites.any (fun g => decide (g.ack = h.ack))) then
      answerPort s1 m id (if h.bad then St.DECERR else St.OK) [] else s1
  | none => s1
def performWrites : List HeldWrite → State → State
  | [], s => s
  | h :: hs, s => performWrites hs (performWrite h { s with heldWrites := hs })

def endBrace (s : State) : State :=
  let d := ftNow s - s.warnFt
  let s1 := setFld { s with warn := false, braces := braceTo (tcNow s) (tcNow s + 128) s.braces } (pwrReg Off.PWR_STAT) 2 2 0
  let s2 := maxReg (incWrap (s1.setReg (tkReg Off.TK_BRACE_DUR) (natW (d / 64))) (pwrReg Off.PWR_BRACE_CNT))
    (pwrReg Off.PWR_BRACE_MAX) (min (d / us 1) (2 ^ 24 - 1))
  let s3 := coreSettle (applyAllPosted (performWrites s2.heldWrites s2) 16)
  let s4 := forEach (fun t st => afterBrace st t) (List.range 64) s3
  logGlobal s4 EvC.BRACE_END [natW (d / 64)]
/-- PWR_WARN has fallen; outside brace, after a FAB_RST under it, only its sample falls. -/
def execBraceEnd (s : State) : Res :=
  if braced s then ok (endBrace s)
  else when_ s.warn s (setBit { s with warn := false } (pwrReg Off.PWR_STAT) 3 false)

/-- At the release edge held launches get that edge, or the first free one after a BUSY that they meet; one that a later
brace holds stays held. -/
def releaseNow (s : State) : State :=
  let free := s.launches.filter (fun l => l.held && !staysHeld s l)
  let s1 := setTk { s with braceOn := false, braces := s.braces.tail } 3 false
  let s2 := forEach (fun l st => modLaunch st l.fid (fun x => { x with held := false, edge := some (tcNow s) })) free s1
  forEach (fun l st => modLaunch st l.fid (fun x => { x with edge := some (releaseEdge st l) })) free s2
def execRelease (s : State) : Res :=
  match s.braces.head?.bind (fun x => x.2) with
  | none => ok s
  | some r => when_ (decide (r ≤ tcNow s)) s (releaseNow s)

/-! ### WAKE (R306) -/

def execWake (s : State) : Res :=
  when_ (decide (fstate s = 2) && regBit s (pwrReg Off.PWR_WAKE_CFG) 1 && !s.onCell) s (startWake s 2)

end Sys2Proof.Machine
end

