-- ==== Sys2Proof/Machine/FwJobs.lean ====
section
/-!
DEFINITION. How Opcon firmware writes (R216, R228), the map that it wants installed (R246, R256), and what it does
once the hardware or the installed map lets it: turns, Slim, fences, tiles out of service and back (R258, R263, R264,
R283, R292, R303).
-/

namespace Sys2Proof.Machine

/-! ### Writes of firmware -/

/-- R402: the FW registers of which firmware keeps a shadow. -/
def shadowed (a : Nat) : Bool :=
  match regAt a with
  | some (.opc, _, _) => false
  | some (_, _, r) => decide (r.acc = .fw) && decide (a ≠ mbxReg Off.MBX_SESS_STAT)
  | none => false

def fwNode (s : State) : Nat := coreNode s (activeCore s)
/-- The write as the control matrix takes it, and its shadow (R228). -/
def fwStore (s : State) (a : Nat) (v : W) : State :=
  match regAt a with
  | none => poke s (fwNode s) a v
  | some (b, o, r) =>
    let s1 := poke s (fwNode s) a v
    if shadowed a then setShadow s1 a (legalizeAt b o r v) else s1
/-- R165, R216: a write of firmware that the active core's guard fails: it is discarded and logged, and the core
continues. -/
def fwStopped (s : State) (a : Nat) : Option (Nat × Nat × Nat) :=
  accessFails s (448 + activeCore s) a 1 false true (corePriv s (activeCore s))
def fwMisses (s : State) (a : Nat) : Bool := (target s a).isNone
/-- A write by firmware; one of its own core's guard that lets a hold end frees what was held (R173). -/
def fwPoke (s : State) (a : Nat) (v : W) : State :=
  match fwStopped s a with
  | some (w, cause, _) => recordNotice s (448 + activeCore s) w cause
  | none => if fwMisses s a then noteMiss (poke s (fwNode s) a v) (activeCore s) a else coreSettle (fwStore s a v)
def fwPokes (s : State) (l : List (Nat × W)) : State := forEach (fun p st => fwPoke st p.1 p.2) l s

/-- A word written over the memory path by a global block or by firmware. -/
def memPut (s : State) (node a : Nat) (v : W) : State :=
  match (if node = fwNode s then fwWriteFails s a 1 else none) with
  | some (w, cause, _) => recordNotice s (448 + activeCore s) w cause
  | none =>
  match regionOf s a with
  | .tmem t off => if tileState s t = TS.OFF then decodeMiss s node true .matrix a else tmemStore s t off node v false
  | .sram off => s.setWord (sramAddr off) v
  | _ => decodeMiss s node true .matrix a
def memPuts (s : State) (node a : Nat) (ws : List W) : State :=
  forEach (fun p st => memPut st node (a + p.1) p.2) ((List.range ws.length).zip ws) s

/-! ### The map (R64, R246) -/

/-- The router whose copy of the map stands for the installed one. -/
def mapRouter (s : State) : Nat := if mapOut s 63 0 then 63 else 0
def instWord (s : State) (t : Nat) : W := fmapWord s (mapRouter s) t
def instHalf (s : State) (t : Nat) : Bool := (instWord s t).bit 17
def instLink (s : State) (t i : Nat) : Bool := (instWord s t).bit i
def installed (s : State) : List Nat := (List.range 64).map (fun t => (instWord s t).toNat)

def bothOut (s : State) (t : Nat) : Bool := !sliceIn s t 0 && !sliceIn s t 1
def pendBits (s : State) (t : Nat) : Nat := Sparse.get (fun _ => 0) s.pendMap t
def setPend16 (s : State) (t i : Nat) (b : Bool) : State :=
  let w := pendBits s t
  let w' := if b then w ||| 2 ^ i else if w.testBit i then w - 2 ^ i else w
  { s with pendMap := Sparse.set (fun _ => 0) s.pendMap t w' }

/-- Both halves of the outgoing link are fenced while the routers at its ends are in service. -/
def dirLost (s : State) (t i : Nat) : Bool :=
  txFenced s t i 0 && txFenced s t i 1 && !bothOut s t && !bothOut s (across t i)
def isLink (t i : Nat) : Bool := decide (i ≠ col t ∧ i ≠ 8 + row t)
def linkLost (s : State) (t i : Nat) : Bool :=
  isLink t i && (dirLost s t i || dirLost s (across t i) (portTo (across t i) t))
def jobAt (s : State) (t : Nat) (k : JobKind → Bool) : Bool := s.jobs.any (fun j => decide (j.t = t) && k j.kind)
/-- Work that asks for HALF at a router. -/
def asksHalf : JobKind → Bool
  | .turnGo => true
  | .turnEnd => true
  | .slim => true
  | .fence => true
  | _ => false
/-- R256: a slice waits to be fenced whose twin has gone out of service meanwhile. -/
def fencesLast (s : State) (t : Nat) : Bool :=
  s.jobs.any (fun j => decide (j.kind = .fence ∧ j.t = t) && sliceIn s t j.a && decide (sliceState s t (1 - j.a) = 2))
def wantedOut (s : State) (t : Nat) : Bool :=
  (pendBits s t).testBit 16 || bothOut s t || fencesLast s t || jobAt s t (fun k => decide (k = .restore ∨ k = .gateOut))
def wantedHalf (s : State) (t : Nat) : Bool := !wantedOut s t && (routerHalf s t || jobAt s t asksHalf)
/-- The pending map: what has been commanded, and what the hardware has lost (R256). -/
def wantedWord (s : State) (t : Nat) : Nat :=
  (List.range 16).foldl (fun m i => if (pendBits s t).testBit i || linkLost s t i then m + 2 ^ i else m) 0 +
    2 ^ 16 * b2n (wantedOut s t) + 2 ^ 17 * b2n (wantedHalf s t)
def wantedMap (s : State) : List Nat := (List.range 64).map (wantedWord s)
/-- A powered router holds a local fence (R68, R260). -/
def localSet (s : State) : Bool :=
  (List.range 64).any (fun t => decide (tileState s t ≠ TS.OFF) &&
    (decide (s.reg (rtrReg t Off.RTR_LOCAL_FENCE) ≠ 0) || decide (s.reg (rtrReg t Off.RTR_LOCAL_HALF) ≠ 0)))

/-- The state with a map installed at router r, which decides by its own copy alone: for looking ahead. -/
def withMapAt (s : State) (m : List Nat) (r : Nat) : State :=
  ((writeWords s (rtrReg r Off.RTR_FMAP) (m.map natW)).setReg (rtrReg r Off.RTR_LOCAL_FENCE) 0).setReg (rtrReg r Off.RTR_LOCAL_HALF) 0
/-- R65: where router r sends an ordered packet for tile t that has taken h links. -/
def nextHop (s : State) (r h t : Nat) : Option Nat := (bestPath s r h t).bind (fun p => p.nodes.head?)
/-- R77: where router r sends a row copy to column c, and the tiles of the column that its root serves. -/
def rowServed (s : State) (r h c : Nat) : Option Nat × List Nat :=
  let root := 8 * row r + c
  match bestPath s r h root with
  | none => (none, [])
  | some p => (p.nodes.head?, if rootWide s r h 0 root p.nodes then
      ((List.range 8).map (fun q => 8 * q + c)).filter (fun t => rootServes s r (h + p.nodes.length) root (2 ^ t)) else [])
/-- R79: the tiles that are the target of a route at router r, a unicast one or a CELLMC copy's, which the maps of `s` and
`s'` give differently. -/
def alteredAt (s s' : State) (r : Nat) : Nat :=
  if mapOut s r r && mapOut s' r r then 0
  else [0, 1, 2, 3].foldl (fun a h =>
    (List.range 8).foldl (fun b c =>
      if c = col r then b
      else
        let x := rowServed s r h c
        let y := rowServed s' r h c
        if x = y then b else (x.2 ++ y.2).foldl (fun d t => d ||| 2 ^ t) b)
      ((List.range 64).foldl (fun b t => if t ≠ r ∧ nextHop s r h t ≠ nextHop s' r h t then b ||| 2 ^ t else b) a)) 0
/-- R79: the tiles whose routes the new map alters. -/
def affected (s : State) (m : List Nat) : Nat :=
  (List.range 64).foldl (fun a r => a ||| alteredAt s (withMapAt s m r) r) 0
/-- R246: the in-service tiles that a map leaves without a fitting path to or from another one. -/
def isolatedBy (s : State) (m : List Nat) : Nat :=
  let svc (t : Nat) : Bool := !(m.getD t 0).testBit 16
  let cut (r t : Nat) : Bool := decide (r ≠ t) && svc r && svc t && (bestPath (withMapAt s m r) r 0 t).isNone
  (List.range 64).foldl (fun a t => if (List.range 64).any (fun r => cut r t || cut t r) then a + 2 ^ t else a) 0

/-! ### What a tile loses and gets back (R264, R303) -/

/-- R303: the RW registers of the tile's NI and guard blocks. -/
def keptReg (t a : Nat) : Bool :=
  match regAt a with
  | some (.ni u _, _, r) => decide (u = t) && decide (r.acc = .rw)
  | some (.grdNi u _, _, r) => decide (u = t) && decide (r.acc = .rw)
  | _ => false
def saveNiRegs (s : State) (t : Nat) : State :=
  let kept := (s.regs.filter (fun e => keptReg t e.1))
  { s with savedRegs := kept.foldl (fun m e => Sparse.ins m e.1 e.2) (s.savedRegs.filter (fun e => !keptReg t e.1)) }
/-- A guard's regions are written before its GRD_CTRL. -/
def isGrdCtrl (a : Nat) : Bool :=
  match regAt a with
  | some (.grdNi _ _, o, _) => decide (o = Off.GRD_CTRL)
  | _ => false
def restoreNiRegs (s : State) (t : Nat) : State :=
  let mine := s.savedRegs.filter (fun e => keptReg t e.1)
  fwPokes s (mine.filter (fun e => !isGrdCtrl e.1) ++ mine.filter (fun e => isGrdCtrl e.1))
/-- R110, R111: the words of the group tables. -/
def isGroupWord (a : Nat) : Bool :=
  let off := a % 0x20000
  decide (0x100000000 ≤ a ∧ a < 0x100800000) && decide ((0xF000 ≤ off ∧ off < 0x10000) ∨ (0x10000 ≤ off ∧ off < 0x18000))
/-- R264: the words of the tile's group tables, as firmware has applied them. -/
def groupEnts (s : State) (t : Nat) : List (Nat × List W) :=
  (s.groupMem.filter (fun e => decide (tmemAddr t 0 ≤ e.1 ∧ e.1 < tmemAddr (t + 1) 0))).map (fun e => (e.1, [e.2]))
/-- The change waits for its GO. -/
def waitsGo (t : Ticket) : Bool := t.slot.isNone && t.land.isNone
/-- The change goes ahead of every one that waits for its GO. -/
def firstTicket (x : Ticket) : List Ticket → List Ticket
  | [] => [x]
  | y :: ys => if waitsGo y then x :: y :: ys else y :: firstTicket x ys
/-- The words are rewritten by a change of their own, ahead of the restoring route change; no command holds its
number. -/
def rewriteGroups (s : State) (t : Nat) : State :=
  let es := groupEnts s t
  if es.isEmpty then s else { s with tickets := firstTicket { num := 65537 + t, ents := es } s.tickets }

/-- R268: the tile agent starts the re-admission test of a fenced slice. -/
def startReadmit (s : State) (t sl : Nat) : State :=
  if sliceIn s t sl then s else setFld s (slcReg t sl Off.SLC_STAT) 0 3 4

/-! ### Work that waits -/

def goWord (u part : Nat) : W := 1 ||| W.at 1 3 u ||| W.at 4 4 part
def agentIdle (s : State) (t : Nat) : Bool := (s.ta t).turn.isNone && (s.ta t).nar.isNone && (s.ta t).wide.isNone
def agentWaits (s : State) (t : Nat) : Bool := !(s.ta t).waitReq.isEmpty

/-- R283 steps a to c. -/
def stepTurnGo (j : Job) (s : State) : Option Job × State :=
  if tileDark s j.t then (none, s)
  else if taGear s j.t then (some j, wantVt s j.t true)
  else if instHalf s j.t && !taVtrans s j.t && !braced s then
    (some { j with kind := .turnEnd }, fwPoke s (taReg j.t Off.BST_TA_CTRL) (goWord j.a j.b))
  else (some j, s)
def stepTurnEnd (j : Job) (s : State) : Option Job × State :=
  if (s.ta j.t).turn.isNone && !agentWaits s j.t then (none, s) else (some j, s)
/-- R292: Slim is written once HALF is installed; `b` says that it has been. R96: it is not asked of a tile whose
PWR_SC5_TILES bit is set. -/
def stepSlim (j : Job) (s : State) : Option Job × State :=
  if j.b = 0 then
    (if sc5Tile s j.t then (none, recordRefusal s j.t 3 2 false)
     else if instHalf s j.t then
      (some { j with b := 1 }, fwPoke s (taReg j.t Off.PWR_TA_REQ) (W.at 0 3 2 ||| W.at 3 1 j.a))
     else (some j, s))
  else if (s.ta j.t).nar.isSome || (s.ta j.t).slimDue.isSome || agentWaits s j.t || tileDark s j.t then (some j, s) else (none, s)
/-- R264: both slices are gated once OUT is installed. -/
def stepGateOut (j : Job) (s : State) : Option Job × State :=
  if tileState s j.t = TS.OFF then (none, s)
  else if !outNow s j.t || tileState s j.t = TS.WAKING then (some j, s)
  else
    let s1 := if tileState s j.t = TS.DOZE then wakeNow s j.t else s
    let s2 := endAgentSlices s1 j.t
    let s3 := if sliceIn s2 j.t 0 then setSlice s2 j.t 0 2 3 else s2
    (none, if sliceIn s3 j.t 1 then setSlice s3 j.t 1 2 3 else s3)
def stepOff (j : Job) (s : State) : Option Job × State :=
  if tileState s j.t = TS.OFF then (none, s)
  else if outNow s j.t && bothOut s j.t then (none, fwPoke (saveNiRegs s j.t) (taReg j.t Off.PWR_TA_REQ) 4)
  else (some j, s)
/-- R258: a repair fence starts once HALF is installed and the tile agent is free; `b` says that it has. A slice whose
twin is out is the last one of its router, and is gated once OUT is installed. -/
def stepFence (j : Job) (s : State) : Option Job × State :=
  if !sliceIn s j.t j.a || tileState s j.t = TS.OFF then (none, s)
  else if tileState s j.t = TS.DOZE then (some j, wakeTile s j.t WakeBy.OTHER)
  else if tileState s j.t = TS.WAKING then (some j, s)
  else if j.b = 1 then (if (s.ta j.t).nar.isSome then (some j, s) else (none, s))
  else if agentWaits s j.t || sliceState s j.t (1 - j.a) = 3 || sliceState s j.t (1 - j.a) = 4 then (some j, s)
  else if !agentIdle s j.t then (some j, s)
  else if sliceIn s j.t (1 - j.a) then
    (if instHalf s j.t then (some { j with b := 1 }, startNarrow s j.t j.a .repair) else (some j, s))
  else if outNow s j.t then (none, fenceAround (setSlice s j.t j.a 2 3) j.t)
  else (some j, s)
/-- LNK_CTRL.FENCE at both ends of a link; the halves are those of mask m. -/
def writeFences (s : State) (t i m : Nat) (on : Bool) : State :=
  let u := across t i
  let k := portTo u t
  forEach (fun h st => if m.testBit h then
      fwPoke (fwPoke st (slcReg t h (Off.LNK_CTRL i)) (natW (b2n on))) (slcReg u h (Off.LNK_CTRL k)) (natW (b2n on))
    else st) [0, 1] s
/-- The halves are fenced once the map shows the link fenced, or once it is no longer to be. -/
def stepLinkFence (j : Job) (s : State) : Option Job × State :=
  if instLink s j.t j.a || !(pendBits s j.t).testBit j.a then (none, writeFences s j.t j.a j.b true) else (some j, s)
/-- The halves of mask m of a link, in both directions: router, port and half. -/
def linkHalves (t i m : Nat) : List (Nat × Nat × Nat) :=
  let u := across t i
  ([0, 1].filter (fun h => m.testBit h)).flatMap (fun h => [(t, i, h), (u, portTo u t, h)])
def rxStat (e : Nat × Nat × Nat) : Nat :=
  slcReg (across e.1 e.2.1) e.2.2 (Off.LNK_STAT (portTo (across e.1 e.2.1) e.1))
def clearEsc (s : State) (e : Nat × Nat × Nat) : State :=
  let l := linkOf s e.1 e.2.1
  if l.esc = some e.2.2 then setLink s e.1 e.2.1 { l with esc := none } else s
/-- A direction of a half that its LNK_CTRL or a replay escalation fences. -/
def heldBack (s : State) (e : Nat × Nat × Nat) : Bool :=
  regBit s (slcReg e.1 e.2.2 (Off.LNK_CTRL e.2.1)) 0 || decide ((linkOf s e.1 e.2.1).esc = some e.2.2)
/-- The fenced directions of half h of link i of router t. -/
def heldDirs (s : State) (t i h : Nat) : List (Nat × Nat × Nat) := (linkHalves t i (2 ^ h)).filter (heldBack s)
/-- R256, R262: half h comes back: its fenced directions have passed their training. -/
def openHalf (t i h : Nat) (s : State) : State :=
  forEach (fun e st => clearEsc (fwPoke st (slcReg e.1 e.2.2 (Off.LNK_CTRL e.2.1)) 0) e) (heldDirs s t i h) s
/-- R256, R262: the halves of a link come back, each once it has passed its training; `b` is the mask. One that fails stays
fenced. -/
def stepLinkOpen (j : Job) (s : State) : Option Job × State :=
  let hs := ([0, 1].filter (fun h => j.b.testBit h)).filter (fun h => !(heldDirs s j.t j.a h).isEmpty)
  if hs.any (fun h => (heldDirs s j.t j.a h).any (fun e => regBit s (rxStat e) 2)) then (some j, s)
  else
    let good := hs.filter (fun h => !(heldDirs s j.t j.a h).any (fun e => regBit s (rxStat e) 3))
    if good.isEmpty then (none, s)
    else
      let u := across j.t j.a
      (none, setPend16 (setPend16 (forEach (openHalf j.t j.a) good s) j.t j.a false) u (portTo u j.t) false)
/-- R264: the tests of both slices, then the tables; `a` counts the steps, `b` says that the tile was Off. -/
def stepRestore (j : Job) (s : State) : Option Job × State :=
  if tileDark s j.t then (some j, s)
  else if j.a = 0 then (some { j with a := 1 }, startReadmit (startReadmit s j.t 0) j.t 1)
  else if sliceState s j.t 0 = 4 || sliceState s j.t 1 = 4 || (s.ta j.t).wide.isSome then (some j, s)
  else if bothOut s j.t then (none, s)
  else if 31 ≤ s.tickets.length then (some j, s)
  else
    let s1 := rewriteGroups s j.t
    (none, if j.b = 1 then restoreNiRegs s1 j.t else s1)
def enableNi (s : State) (n : Nat) : State := fwPoke s (niReg n Off.NI_CTRL) ((s.reg (niReg n Off.NI_CTRL)).put 0 1 1)
def stepEnable (j : Job) (s : State) : Option Job × State :=
  if outNow s j.t || bothOut s j.t then (some j, s)
  else
    let mine (n : Nat) : Bool := decide (n / 7 = j.t)
    (none, forEach (fun n st => if mine n then enableNi st n else st) s.wasEnabled
      { s with wasEnabled := s.wasEnabled.filter (fun n => !mine n) })
/-- One piece of work: what is left of it. -/
def jobStep (j : Job) (s : State) : Option Job × State :=
  match j.kind with
  | .turnGo => stepTurnGo j s
  | .turnEnd => stepTurnEnd j s
  | .slim => stepSlim j s
  | .gateOut => stepGateOut j s
  | .off => stepOff j s
  | .fence => stepFence j s
  | .linkFence => stepLinkFence j s
  | .linkOpen => stepLinkOpen j s
  | .restore => stepRestore j s
  | .enable => stepEnable j s
def runJobList : List Job → State → State
  | [], s => s
  | j :: js, s =>
    let (k, s1) := jobStep j s
    runJobList js { s1 with jobs := s1.jobs ++ k.toList }
def runJobs (s : State) : State := runJobList s.jobs { s with jobs := [] }
def addJob (s : State) (j : Job) : State := { s with jobs := s.jobs ++ [j] }
def dropJobs (s : State) (t : Nat) (k : JobKind → Bool) : State :=
  { s with jobs := s.jobs.filter (fun j => !(decide (j.t = t) && k j.kind)) }

end Sys2Proof.Machine
end

