-- ==== Sys2Proof/Machine/Launch.lean ====
section
/-!
DEFINITION. The launch edge (R194, R200, R201): entries performed in list order, fanfares of one edge in arm
sequence, strobes, lateness and the next edge of a cadence; the commit report of R208.
-/

namespace Sys2Proof.Machine

/-! ### Entries (R194) -/

/-- The tile whose RTR_CTRL stands at an address. -/
def rtrCtrlOf (a : Nat) : Option Nat :=
  match blockOf a with
  | some (.rtr t, o) => if o = Off.RTR_CTRL then some t else none
  | _ => none
/-- R21: SPRAY and SC5_RSV of a tile in a voltage transition wait for its end; HOLD applies at once. -/
def applyLate (s : State) (t ni a : Nat) (v : W) : State :=
  let s1 := poke s (nodeTP s (ni / 7) 5) a ((s.reg a).put 2 1 (v.fld 2 1))
  setShadow (modTa s1 t (fun x => { x with ctrlDue := some (v.fld 0 2) })) a (W.at 0 3 (v.fld 0 3))
/-- RTR_CTRL of a tile as it stands once such a wait is over. -/
def ctrlWord (s : State) (t : Nat) : W :=
  let w := s.reg (rtrReg t Off.RTR_CTRL)
  match (s.ta t).ctrlDue with
  | none => w
  | some v => w.put 0 2 v
def applyWord (s : State) (ni a : Nat) (v : W) : State :=
  let late := (rtrCtrlOf a).bind (fun t => if taVtrans s t then some t else none)
  match regionOf s a with
  | .tmem t off => launchStore s t off v
  | .matrix _ =>
    match late with
    | some t => applyLate s t ni a v
    | none =>
    let s0 := poke s (nodeTP s (ni / 7) 5) a v
    let s1 := if a = pwrReg Off.PWR_PROFILE then profileLaunch s0 else s0
    if shadowed a then setShadow s1 a (s1.reg a) else s1
  | _ => s
/-- One entry; one for a unit window is applied by its unit at TIM_APPLY. -/
def applyEntry (s : State) (e : FEnt) : State :=
  if isWindow s e.addr then s
  else forEach (fun p st => applyWord st e.ni (e.addr + p.1) p.2) ((List.range e.data.length).zip e.data) s

/-- R200: the entries of launch n. -/
def phaseEnts (s : State) (k : Nat) (l : Launch) : List FEnt :=
  let m := getFld s (slotReg k Off.FNF_LEN) 13 13
  let es := (s.slot k).ents
  if l.per = 0 ∨ m = 0 then es else if l.n % 2 = 0 then es.take m else es.drop m
/-- The entry still stands in the hold store of its NI (R195). -/
def stillHeld (s : State) (fid : Nat) (e : FEnt) : Bool :=
  (s.ni e.ni).hold.any (fun h => decide (h.fid = fid ∧ h.addr = e.addr))

/-! ### One launch (R194, R197, R200, R201) -/

/-- FT at a past or present edge, and the time that counts as this launch's: its target, or when it ran. -/
def ftAt (s : State) (e : Nat) : Nat := (s.ft - (tcNow s - e) * incNow s) / ftFrac
def ranAt (s : State) (l : Launch) (e : Nat) : Nat :=
  if (ftAt s e - l.lt) * ftFrac < incNow s then l.lt else ftAt s e
def dueAt (l : Launch) : Nat := l.lt0 + l.n * l.per

/-- FNF_LAUNCH_k, FNF_LATE_k, FNF_LATE and FNF_SHORT. -/
def noteLaunch (s : State) (k : Nat) (l : Launch) (ran : Nat) : State :=
  let late := (ran - dueAt l) / 64
  let s1 := (incWrap s (slotReg k Off.FNF_LAUNCH)).setReg (slotReg k Off.FNF_LATE) (W.at 0 30 (min late (2 ^ 30 - 1)))
  let s2 := if dueAt l < ran then
      logGlobal (incWrap s1 (fnfReg Off.FNF_LATE_CNT)) EvC.FNF_LATE [natW l.n, natW late] else s1
  if 0 < l.n && decide (ran - l.lastAt < l.per) then logGlobal s2 EvC.FNF_SHORT [] else s2

/-! ### Firmware's changes as they launch (R79, R81, R243, R244) -/

/-- What the two fanfares of a route change write at router t. -/
def holdWrites (s : State) (r : RouteCh) (t : Nat) : List (Nat × W) :=
  [(rtrReg t Off.RTR_HOLD_MASK_LO, natW (r.aff % 2 ^ 32)), (rtrReg t Off.RTR_HOLD_MASK_HI, natW (r.aff / 2 ^ 32)),
   (rtrReg t Off.RTR_CTRL, (ctrlWord s t).put 2 1 1)]
def mapWords (r : RouteCh) : List W := (List.range 64).map (fun x => natW (r.newMap.getD x 0))
def mapWrites (s : State) (r : RouteCh) (t : Nat) : List (Nat × W) :=
  (List.range 64).map (fun x => (rtrReg t (Off.RTR_FMAP + x), natW (r.newMap.getD x 0))) ++
  [(rtrReg t Off.RTR_MAP_EPOCH, W.at 0 16 (getFld s (rtrReg (mapRouter s) Off.RTR_MAP_EPOCH) 0 16 + 1)),
   (rtrReg t Off.RTR_CTRL, (ctrlWord s t).put 2 1 0)]
/-- Powered routers that the fanfare could not reach: firmware writes them directly. -/
def missedTiles (s : State) (fid : Nat) : List Nat :=
  (List.range 64).filter (fun t => decide (tileState s t ≠ TS.OFF) && !touchesRouter s t fid)

/-- A change is applied; the checks of R244 follow where it asks for them. -/
def noteApplied (s : State) (num : Nat) (check : Bool) : State :=
  { s with tickApplied := if num < 65536 then num else s.tickApplied,
           checkDue := s.checkDue || check, tickets := s.tickets.filter (fun t => decide (t.num ≠ num)) }
/-- LT_A: the hold is on. LT_B: the map is installed, and the change is reported. -/
def routeLaunched (s : State) (x : Noted) (r : RouteCh) : State :=
  match r.phase with
  | .hold =>
    { fwPokes s (x.miss.flatMap (holdWrites s r)) with route := some { r with phase := .scan1, ltA := x.lt } }
  | _ =>
    let s1 := noteApplied { fwPokes s (x.miss.flatMap (mapWrites s r)) with route := none } r.ticket true
    runJobs (logFw s1 EvC.ROUTE_CHANGE
      [ftHi r.ltA, ftLo r.ltA, ftHi x.lt, ftLo x.lt, natW (tilesOf r.aff).length])
/-- R126: the address is that of an NI_MISS_ACT, which changes by fanfare only. -/
def isMissAct (a : Nat) : Bool :=
  match blockOf a with
  | some (.ni _ _, o) => decide (o = Off.NI_MISS_ACT)
  | _ => false
/-- R243: an entry of a change for a tile that the fanfare could not reach is written directly; for a tile in Off, and for
NI_MISS_ACT (R126), only its shadow is kept. The group words are remembered (R264); a direct write of those is the model's
way to rewrite the tables of a tile that is still OUT, where no fanfare reaches (DESIGN CHOICE, log entry 38). -/
def landEntry (s : State) (carried : List FEnt) (e : Nat × List W) : State :=
  let s1 := if isGroupWord e.1 then { s with groupMem := Sparse.ins s.groupMem e.1 (wordAt e.2 0) } else s
  let off := match stagingNi s e.1 with
    | some n => decide (tileState s (n / 7) = TS.OFF)
    | none => false
  if carried.any (fun g => decide (g.addr = e.1)) then s1
  else if off || isMissAct e.1 then (if shadowed e.1 then setShadow s1 e.1 (wordAt e.2 0) else s1)
  else if isGroupWord e.1 then memPut s1 (fwNode s1) e.1 (wordAt e.2 0)
  else fwPoke s1 e.1 (wordAt e.2 0)
def landTicket (s : State) (carried : List FEnt) (t : Ticket) : State :=
  noteApplied (forEach (fun e st => landEntry st carried e) t.ents s) t.num t.check
/-- R243: the changes at the head of the queue that no fanfare carries are written in ticket order, once their LT has
come. -/
def landDue (s : State) : Nat → State
  | 0 => s
  | n + 1 => match s.tickets.head? with
    | none => s
    | some t => match t.land with
      | none => s
      | some lt => if lt ≤ ftNow s then landDue (landTicket s [] t) n else s
def landAll (s : State) : State := landDue s s.tickets.length
/-- Firmware takes note of a change that has launched. -/
def takeNote (x : Noted) (s : State) : State :=
  let s0 := landAll s
  let plain : State := match s0.tickets.find? (fun t => decide (t.num = x.num)) with
    | some t => landTicket s0 x.carried t
    | none => s0
  match s.route with
  | some r => if r.ticket = x.num then routeLaunched s0 x r else plain
  | none => plain
/-- What launched while firmware could not act is taken up in order. -/
def catchUp (s : State) : State := forEach takeNote s.fwLater { s with fwLater := [] }
/-- A change launches; where firmware does not act, as while its guard holds its core's accesses (R173), it takes note
later. -/
def ticketLaunched (s : State) (k : Nat) : State :=
  match (s.slot k).ticket with
  | none => s
  | some num =>
    let x : Noted := { num := num, carried := (s.slot k).ents, lt := slotLt s k, miss := missedTiles s (slotFid s k) }
    let s0 := modSlot s k (fun y => { y with ticket := none })
    if fwAlive s && s.fwLater.isEmpty then takeNote x s0 else { s0 with fwLater := s0.fwLater ++ [x] }

/-- The slot after the launch: FREEING, or RUNNING with the next target. -/
def afterLaunch (s : State) (k : Nat) (l : Launch) (ran : Nat) : State :=
  if l.per = 0 then
    ticketLaunched (xoutcome (setSlotState (dropLaunch s l.fid) k SS.FREEING) k XO.APPLIED ran) k
  else if (s.slot k).stopReq then setSlotState (dropLaunch s l.fid) k SS.FREEING
  else
    modLaunch (setSlotState s k SS.RUNNING) l.fid (fun x =>
      { x with n := l.n + 1, lastAt := ran, edge := none, minEdge := 0,
               lt := max (l.lt0 + (l.n + 1) * l.per) (ran + l.per - l.per / 8) })

def performLaunch (s : State) (l : Launch) (e : Nat) : State :=
  let k := fidSlot l.fid
  let ran := ranAt s l e
  let s1 := forEach (fun x st => if stillHeld st l.fid x then applyEntry st x else st) (phaseEnts s k l) s
  let s2 := forEach (fun n st => if (st.ni n).hold.any (fun h => decide (h.fid = l.fid)) then pushStrobe st n l.fid true else st)
    l.nis s1
  let s3 := forEach (fun t st => modTa st t (fun a => { a with applyTc := some e })) (tilesAt l) s2
  afterLaunch (noteLaunch s3 k l ran) k l ran

/-! ### Launches of one edge (R194) -/

/-- Arm sequences are compared modulo 2^16. -/
def aseqLt (a b : Nat) : Bool := decide (a ≠ b) && decide ((b + 65536 - a) % 65536 < 32768)
def insertLaunch (x : Launch) : List Launch → List Launch
  | [] => [x]
  | y :: ys => if aseqLt x.aseq y.aseq then x :: y :: ys else y :: insertLaunch x ys
/-- The launches that run with l at its edge, up to l itself. -/
def sameEdge (s : State) (l : Launch) (e : Nat) : List Launch :=
  (s.launches.filter (fun g => decide (g.edge = some e) && (aseqLt g.aseq l.aseq || decide (g.fid = l.fid)))).foldl
    (fun acc g => insertLaunch g acc) []

def execLaunchEdge (fid : BitVec 8) (s : State) : Res :=
  match findLaunch s fid.toNat with
  | none => ok s
  | some l => match l.edge with
    | none => ok s
    | some e => when_ (decide (e ≤ tcNow s)) s (coreSettle (forEach (fun g st => performLaunch st g e) (sameEdge s l e) s))

/-! ### The commit report (R208) -/

def countPart (c : XCo) (k : Nat → Bool) : Nat := (c.parts.filter (fun p => k p.outcome)).length
def reportWords (c : XCo) : List W :=
  let applied := countPart c (fun o => decide (o = XO.APPLIED))
  let aborted := countPart c (fun o => decide (o = XO.NOCONFIRM ∨ o = XO.LOST ∨ o = XO.NOTSTAGED))
  let unknown := countPart c (fun o => decide (o = XO.UNKNOWN))
  [W.at 0 32 c.gfid, ftHi c.lt, ftLo c.lt,
   W.at 0 15 c.parts.length ||| W.at 35 1 (b2n (decide (0 < applied ∧ 0 < aborted + unknown))),
   W.at 0 15 applied, W.at 0 15 aborted, W.at 0 15 unknown, 0] ++
  c.parts.map (fun p => W.at 0 14 p.inst ||| W.at 14 4 p.outcome)

def commit (s : State) (c : XCo) : State :=
  let ws := reportWords c
  let s1 := memPuts s (nodeTP s 0 7) (s.reg (extReg Off.EXT_XRPT_ADDR)).toNat ws
  logGlobal s1 EvC.XFNF_REPORT [wordAt ws 4, wordAt ws 5, wordAt ws 6]
def execCommitReport (k : Fin 8) (s : State) : Res :=
  let due := us (getFld s (extReg Off.EXT_XREPORT_TO) 0 16)
  match takeFirst (fun c => decide (c.slot = k.val ∧ c.lt + due ≤ ftNow s)) s.xco with
  | none => ok s
  | some (c, rest) => ok (commit { s with xco := rest } c)

end Sys2Proof.Machine
end

