-- ==== Sys2Proof/Machine/Events.lean ====
section
/-!
DEFINITION. The record writer and its two ring copies (R342, R346 to R351), debug halts of Opcon cores (R153,
R160, R400), the fuse programmer (R373), training of link halves (R262), the scan request and
zeroization (R288).
-/

namespace Sys2Proof.Machine

/-! ### Ring copies (R346, R348, R351) -/

def ringOff (i : Nat) : Nat := 0xB000 + 4 * i
def ringPos (s : State) : Nat := getFld s (evlReg Off.EVL_WR_POS) 0 12

/-- Record i is missed in copy c: the first index starts the gap, a gap that comes round to it is full. -/
def missRecord (s : State) (c i : Nat) : State :=
  let a := mirrorReg c
  let lost := decide (tileState s (63 * c) = TS.OFF)
  if mirrorStat s c = 0 ∨ c ∈ s.mirrorNone then
    let s1 := (missedNow s c).setReg a (W.at 0 2 1 ||| W.at 2 12 i ||| W.at 14 12 i ||| W.at 26 1 (b2n (regBit s a 26 || lost)))
    if mirrorStat s c = 0 then setPend s1 6 else s1
  else
    s.setReg a ((((s.reg a).put 0 2 1).put 14 12 i).put 26 1 (b2n ((s.reg a).bit 26 || lost || decide ((s.reg a).fld 2 12 = i))))

/-- One record into one copy. -/
def storeRecord (i : Nat) (ws : List W) (c : Nat) (s : State) : State :=
  if copyUp s c then
    forEach (fun p st => tmemStore st (63 * c) (ringOff i + p.1) (nodeTP st 0 7) p.2 false) ((List.range 4).zip ws) s
  else missRecord s c i
/-- One record into both copies; then the position advances. -/
def putRecord (s : State) (ws : List W) : State :=
  let i := ringPos s
  incWrap (storeRecord i ws 1 (storeRecord i ws 0 s)) (evlReg Off.EVL_WR_POS)

/-- R350: the filler before a record with a continuation at an odd index. Its other fields are open. -/
def putPad (s : State) : State :=
  let (a, s1) := freeW s
  let (b, s2) := freeW s1
  let (n, s3) := freeW s2
  let (g, s4) := freeW s3
  putRecord s4 [a, b, W.at 0 23 (n.fld 0 23), g]

def headWords (e : Ev) : List W :=
  [e.ftH, e.ftL, W.at 0 23 e.node ||| W.at 23 10 e.code ||| W.at 33 2 e.sev ||| W.at 35 1 (b2n e.cont.isSome), e.arg]
/-- R342: the pending bits that a record sets. -/
def recordPend (s : State) (e : Ev) : State :=
  let s1 := if e.code = EvC.PAD.code then s else setPend s e.sev
  if e.code = EvC.FLOOD.code then setPend s1 4 else s1
def writeEv (s : State) (e : Ev) : State :=
  match e.cont with
  | none => recordPend (putRecord s (headWords e)) e
  | some ws =>
    let s1 := if ringPos s % 2 = 1 then putPad s else s
    recordPend (putRecord (putRecord s1 (headWords e)) ws) e

/-- R349: the record of the events that have been lost, and the count that starts anew. -/
def floodEv (s : State) : Ev :=
  mkEv (ftNow s) (nodeTP s 0 7) EvC.FLOOD
    [natW s.evLost, ftHi s.evLostFirst, ftLo s.evLostFirst, ftHi s.evLostLast, ftLo s.evLostLast]
def writeFlood (s : State) : State :=
  addWrap { writeEv s (floodEv s) with evLost := 0, evLostFirst := 0, evLostLast := 0 }
    (evlReg Off.EVL_LOST_CNT) s.evLost

/-- R351: an event for which no copy can be written. -/
def loseEv (s : State) (e : Ev) : State :=
  let ft := e.ftH.toNat * ftSec + e.ftL.toNat
  { s with evLost := s.evLost + 1, evLostFirst := if s.evLost = 0 then ft else s.evLostFirst, evLostLast := ft }

/-- The next record: FLOOD ahead of the queue, then the oldest event. -/
def nextRecord (s : State) : State :=
  if !copyUp s 0 && !copyUp s 1 then
    match s.evq with
    | [] => s
    | e :: q => loseEv { s with evq := q } e
  else if 0 < s.evLost then writeFlood s
  else match s.evq with
    | [] => s
    | e :: q => writeEv { s with evq := q } e
def execEventRecord (s : State) : Res := when_ (!s.inReset && decide (fstate s ≠ 2)) s (nextRecord s)

/-- Record i as the other copy holds it, poison included. -/
def copyRecord (c i : Nat) (s : State) : State :=
  forEach (fun j st =>
    let a := tmemAddr (63 * (1 - c)) (ringOff i + j)
    tmemStore st (63 * c) (ringOff i + j) (nodeTP st 0 7) (st.word a) (isPoison st a)) (List.range 4) s
def gapIndices (s : State) (c : Nat) : List Nat :=
  let w := s.reg (mirrorReg c)
  if w.bit 26 then List.range 4096
  else if c ∈ s.mirrorNone then []
  else (List.range ((w.fld 14 12 + 4096 - w.fld 2 12) % 4096 + 1)).map (fun k => (w.fld 2 12 + k) % 4096)
/-- The copy returns: MIRROR_GAP is logged, and STAT is 2 while the missed records are copied. -/
def openCopy (s : State) (c : Nat) : State := logGlobal (setFld s (mirrorReg c) 0 2 2) EvC.MIRROR_GAP []
def closeGap (s : State) (c : Nat) : State := (missedNow (forEach (copyRecord c) (gapIndices s c) s) c).setReg (mirrorReg c) 0
/-- A first command finds the copy back, a second one finds what it has missed copied. -/
def execMirrorGap (c : Fin 2) (s : State) : Res :=
  let st := mirrorStat s c.val
  if st = 2 then when_ (copyUp s 0 && copyUp s 1) s (closeGap s c.val)
  else when_ (decide (st = 1) && copyUp s c.val) s (openCopy s c.val)

/-! ### Debug halts (R153, R160, R400) -/

/-- DBG_HALT_REQ[c] rises, or falls; the core follows the pin and its bit of DBG_HALT. -/
def haltPin (s : State) (c : Nat) (up : Bool) : State := haltSync (modCore s c (fun x => { x with haltReq := up })) c
def execDebugHalt (c : Fin 2) (s : State) : Res := ok (haltPin s c.val true)
def execDebugResume (c : Fin 2) (s : State) : Res := ok (haltPin s c.val false)

/-! ### The fuse programmer (R372, R373) -/

def blown (s : State) (b : Nat) : Bool := s.fuses.testBit b
def fuseRefused (s : State) (b : Nat) (vppOk : Bool) : Bool :=
  !vppOk || decide (775 ≤ b ∧ b ≤ 799) || (decide (b < 384) && blown s (Fuse.ENR 0)) ||
    (decide (384 ≤ b ∧ b < 768) && blown s (Fuse.ENR 1)) || (decide (800 ≤ b ∧ b < 1120) && blown s Fuse.POP_LOCK)
/-- A GO; the programmer is busy for the 20 µs that the blow takes. A number above 1,119 names no fuse: nothing is blown, and
STATUS is open. -/
def fuseGo (s : State) (b : Nat) (vppOk : Bool) : State :=
  let s0 : State := { s with vppOk := vppOk }
  if fuseRefused s b vppOk then { s0 with fuseDr := b + 2 * 4096 }
  else if b < 1120 then
    { s0 with fuses := s.fuses ||| 2 ^ b, fuseDr := b + 4096, fuseEnd := s.fc + 48000 }
  else
    let (w, s1) := freeW s0
    { s1 with fuseDr := b + w.fld 0 2 * 4096 }
/-- A GO that comes while the programmer is busy does nothing (DESIGN CHOICE, log entry 38). -/
def execFuseBlow (addr : BitVec 11) (vppOk : Bool) (s : State) : Res :=
  when_ (!s.onCell && !fuseBusy s) s (fuseGo s addr.toNat vppOk)
/-- R373: the data register as the instrument shows it: STATUS 3 while it is busy. -/
def fuseData (s : State) : Nat := if fuseBusy s then s.fuseDr % 4096 + 3 * 4096 else s.fuseDr

/-! ### Training (R262) -/

/-- The result stands in LNK_STAT of the receiving end. -/
def noteTraining (s : State) (t sl i : Nat) (bad : Option Nat) : State :=
  let a := slcReg (across t i) sl (Off.LNK_STAT (portTo (across t i) t))
  setFld (setFld s a 2 2 (2 * b2n bad.isSome)) a 8 9 (bad.getD 511)
def execTrainDone (t : Fin 64) (sl : Fin 2) (i : Fin 16) (bad : Option (Fin 312)) (s : State) : Res :=
  when_ (regBit s (slcReg (across t i) sl (Off.LNK_STAT (portTo (across t i) t))) 2) s
    (noteTraining s t sl i (bad.map (fun w => w.val)))

/-! ### Scan (R286, R288) -/

/-- TST_SCAN_REQ changes: while it is low it rises, otherwise it falls, which ends nothing that has begun (DESIGN CHOICE, log
entry 38: the table gives the pin one command). A rise during a zeroization begins the next one when that has ended. -/
def scanPin (s : State) : State :=
  let s1 := setBit { s with scanReq := !s.scanReq, scanFell := s.scanFell || s.scanReq } (bstReg Off.BST_ZERO_STAT) 3
    (!s.scanReq && !s.inReset)
  if s.scanReq || s.inReset || regBit s (bstReg Off.BST_ZERO_STAT) 0 then s1 else scanBegins s1
def execScanRequest (s : State) : Res := ok (scanPin s)

/-- Session state, both copies of every mailbox area, the hold stores and the key shadows are zero. -/
def zeroize (s : State) : State :=
  let s1 : State := { s with session := none, hdrs := [], running := none }
  let s2 := zeroWords (zeroWords s1 (mbxArea 0 0) 0x2000) (mbxArea 1 0) 0x2000
  let s3 := forEach (fun n st => loseHold st n) (s.nis.map (fun e => e.1)) s2
  setBit (forEach (fun k st => forEach (fun i x => x.setReg (opcReg (Off.OPC_KEY_SHADOW k i)) 0) (List.range 12) st) [0, 1] s3)
    (opcReg Off.OPC_KEY_STAT) 5 false
/-- R288: GNT rises for a request that has stood throughout; one that has fallen and risen again begins zeroization
anew. -/
def zeroizeEnds (s : State) : State :=
  let a := bstReg Off.BST_ZERO_STAT
  let s1 := setBit (setFld (zeroize s) a 0 2 2) a 2 (s.scanReq && !s.scanFell)
  if s.scanReq && s.scanFell then scanBegins s1 else s1
def execZeroizeDone (s : State) : Res :=
  when_ (s.scanOn && regBit s (bstReg Off.BST_ZERO_STAT) 0) s (zeroizeEnds s)

end Sys2Proof.Machine
end

