-- ==== Sys2Proof/Machine/FwCore.lean ====
section
/-!
DEFINITION. The Opcon cores as firmware 3.2 runs on them (R213 to R218, R270): heartbeat, trap, takeover, start,
images and handover (R232 to R236); how a command starts (R225) and how its fields, arguments and answers are
handled (R226, R227, R239 to R242).
-/

namespace Sys2Proof.Machine

/-! ### Which core acts -/

/-- The standby core executes, and is up. -/
def stbyActs (s : State) : Bool := coreActs s (standby s) && stbyCore s
/-- Normal mode: every command and every task of firmware. -/
def fwNormal (s : State) : Bool := fwAlive s && decide (fwMode s = 3)

/-! ### Accesses of firmware (R216, R228) -/

/-- Writes in order, up to one that meets a decode miss, which is logged. -/
def fwWrites (s : State) : List (Nat × W) → Option Nat × State
  | [] => (none, s)
  | (a, v) :: l =>
    if (fwStopped s a).isNone && fwMisses s a then (some a, fwPoke s a v) else fwWrites (fwPoke s a v) l
/-- R165, R171, R216: a read that the active core's guard fails traps; the trap is logged, and firmware goes on with a
value that is open (log entry 4). -/
def fwTrapped (s : State) (a : Nat) : Option (W × State) :=
  (accessFails s (448 + activeCore s) a 1 true false (corePriv s (activeCore s))).map (fun x =>
    freeW (recordFault s (448 + activeCore s) Opc.RD 0 x.1 x.2.1 x.2.2))
/-- A read by firmware: its value, or none on a decode miss, which is logged. -/
def fwReadWord (s : State) (a : Nat) (peek : Bool) : Option W × State :=
  match fwTrapped s a with
  | some (v, s1) => (some v, s1)
  | none => match readWord s (fwNode s) a peek with
    | (none, s1) => (none, noteMiss s1 (activeCore s) a)
    | (some v, s1) => (some v, s1)
/-- Reads in order, without side effects where `peek` asks for it. -/
def fwReads (s : State) (peek : Bool) : List Nat → Option Nat × List W × State
  | [] => (none, [], s)
  | a :: l =>
    match fwReadWord s a peek with
    | (none, s1) => (some a, [], s1)
    | (some v, s1) =>
      let (e, vs, s2) := fwReads s1 peek l
      (e, v :: vs, s2)

/-! ### Status codes and causes (R221, R241, R242) -/

namespace Code
def OK := 0
def BADOP := 1
def NOTREADY := 2
def REFUSED := 3
def FAILED := 4
def BADIMAGE := 0x10
def NOTOWN := 0x11
def OVERLAP := 0x12
def CLAIMED := 0x13
end Code

namespace Why
def NONODE := 1
def BUSY := 2
def QFULL := 3
def DECERR := 4
def STBY := 5
def BANK := 6
def ISOLATE := 7
end Why

/-- R216: the decode miss of an access that firmware has made while the command ran. -/
def missedAt (s : State) (r : Running) : Option Nat :=
  match s.running with
  | none => r.stop
  | some x => x.stop
/-- The effect of the running command is complete. -/
def finish (s : State) (r : Running) (code : Nat) (data : List W) (changed : Bool) : State :=
  { s with running := some { r with code := code, data := data, done := true, changed := changed, stop := missedAt s r } }
/-- The running command goes on in a later step. -/
def begunCmd (s : State) (r : Running) : State :=
  { s with running := some { r with begun := true, stop := missedAt s r } }
def okCmd (s : State) (r : Running) (data : List W) (changed : Bool) : State := finish s r Code.OK data changed
def failCmd (s : State) (r : Running) (cause idx : Nat) (changed : Bool) : State :=
  finish s r Code.FAILED [natW cause, natW idx] changed
def refuseCmd (s : State) (r : Running) (who t : Nat) : State :=
  finish s r Code.REFUSED [natW who, s.reg (taReg t Off.PWR_REFUSE_CNT)] false
/-- R230: some register that the writes name has changed, or brace holds a write of it. -/
def wroteNew (s s1 : State) (l : List (Nat × W)) : Bool :=
  l.any (fun p => decide (s1.reg p.1 ≠ s.reg p.1)) || decide (s1.heldWrites.length ≠ s.heldWrites.length)
/-- A command that writes registers and completes with data. -/
def writeCmd (s : State) (r : Running) (l : List (Nat × W)) (data : State → List W) : State :=
  match fwWrites s l with
  | (some _, s1) => failCmd s1 r Why.DECERR 0 (wroteNew s s1 l)
  | (none, s1) => okCmd s1 r (data s1) (wroteNew s s1 l)
/-- A command that reads registers and completes with them. -/
def readCmd (s : State) (r : Running) (l : List Nat) : State :=
  match fwReads s false l with
  | (some _, _, s1) => failCmd s1 r Why.DECERR 0 false
  | (none, vs, s1) => okCmd s1 r vs false

/-! ### Arguments (R227, R239) -/

/-- Argument word i, counted from 1. -/
def arg (r : Running) (i : Nat) : W := wordAt r.args (i - 1)
def noteClamps (s : State) (n : Nat) : State := addWrap s (opcReg Off.OPC_CLAMP_CNT) n
/-- A tile argument. -/
def tileArg (v : W) : Nat := v.fld 0 6
def tileClamps (v : W) : Nat := b2n (decide (63 < v.toNat))
def tileOf (v : W) : Nat := min 63 v.toNat
def allNodes (v : W) : Bool := v = 0x7FFFFF
/-- A node argument: the NI that it names. -/
def nodeArg (s : State) (v : W) : Option Nat :=
  let d := v.fld 0 23
  if v.fld 23 13 = 0 && decide (nodeInst d = inst s) && nodeNamed d && populated s (nodeNi d) then some (nodeNi d) else none
/-- Every populated NI at which `p` holds for the port. -/
def popNis (s : State) (p : Nat → Bool) : List Nat := (List.range 448).filter (fun n => populated s n && p (n % 7))
/-- A node argument for which ALL stands for every such NI. -/
def nodesArg (s : State) (v : W) (p : Nat → Bool) : Option (List Nat) :=
  if allNodes v then some (popNis s p)
  else match nodeArg s v with
    | none => none
    | some n => if p (n % 7) then some [n] else none

/-- A field of a register that a command writes: address, lowest bit, length, value. -/
structure FldW where
  a : Nat
  lo : Nat
  len : Nat
  v : Nat
  deriving DecidableEq, Repr

/-- Every field of a register word in the register's own layout. -/
def regFlds (a : Nat) (v : W) : List FldW :=
  match regAt a with
  | none => [⟨a, 0, 36, v.toNat⟩]
  | some (b, o, r) =>
    let w := legalizeAt b o r v
    r.flds.map (fun f => ⟨a, f.lo, f.len, w.fld f.lo f.len⟩)
/-- Whether a word of that layout has a field outside its range. -/
def regClamps (a : Nat) (v : W) : Nat :=
  match regAt a with
  | none => 0
  | some (b, o, r) => b2n (r.flds.any (fun f => decide (v.fld f.lo f.len ≠ (legalizeAt b o r v).fld f.lo f.len)))
/-- The words that result when fields are put over the present contents, register by register. -/
def fldWords (s : State) (l : List FldW) : List (Nat × W) :=
  ((l.map (fun f => f.a)).eraseDups).map (fun a =>
    (a, (l.filter (fun f => decide (f.a = a))).foldl (fun w f => w.put f.lo f.len f.v) (s.reg a)))

/-! ### Starting a command (R222, R225, R245) -/

def opGroup (op : Nat) : Nat := op / 256
/-- The opcodes of R245 to R255. -/
def knownOp (op : Nat) : Bool :=
  let n := op % 256
  if n = 0 then false
  else match opGroup op with
    | 0 => decide (n ≤ 3)
    | 1 => decide (n ≤ 5)
    | 2 => decide (n ≤ 6)
    | 3 => decide (n ≤ 7)
    | 4 => decide (n ≤ 3)
    | 5 => decide (n ≤ 3)
    | 6 => decide (n ≤ 6)
    | 7 => decide (n ≤ 4)
    | 8 => decide (n ≤ 3)
    | 9 => decide (n ≤ 3)
    | 10 => decide (n ≤ 2)
    | _ => false
/-- Whether the present mode serves the opcode. -/
def opServed (s : State) (op : Nat) : Bool :=
  if inLoader s then decide (op = 0x001 ∨ op = 0x901)
  else if fwMode s = 3 then true
  else decide (opGroup op ∈ [0, 8, 9, 10])

/-- The running command has this opcode, is served and has not yet had its effect. -/
def fwCmd (op : Nat) (f : State → Running → State) (s : State) : Res :=
  match s.running with
  | none => ok s
  | some r => when_ (fwAlive s && decide (hdrOpcode r.hdr = op) && !r.done && opServed s op) s (f s r)

/-- The queued mailbox whose turn it is: the oldest stamp, then the lowest number. -/
def nextBox (s : State) : Option Nat :=
  let q := (queuedBoxes s).filter (fun n => !inLoader s || decide (n = 0))
  q.find? (fun n => q.all (fun m => stampLe (mbxStamp s n) (mbxStamp s m)))
/-- The argument words as copied. -/
def copyArgs (s : State) (a : Nat) : Nat → List W × State
  | 0 => ([], s)
  | k + 1 =>
    let (v, s1) := fwWord s a
    let (vs, s2) := copyArgs s1 (a + 1) k
    (v :: vs, s2)
def startCmd (s : State) (n : Nat) : State :=
  let s0 := if (headerOf s n).isSome then s else keepHeader s n
  let hdr := (headerOf s0 n).getD 0
  let c := mbxCopy s0 n
  let (args, s1) := copyArgs s0 (mbxArea c n + 1) (hdrLen hdr)
  setMbxState { s1 with running := some { mbx := n, copy := c, hdr := hdr, args := args }, hdrs := Sparse.del s1.hdrs n }
    n MB.RUNNING
def execCommandStart (s : State) : Res :=
  match nextBox s with
  | none => ok s
  | some n => when_ (fwAlive s && s.running.isNone && s.session.isNone && (waitingReset s).isNone && !handingOver s) s
      (startCmd s n)

/-! ### Image banks (R215, R232) -/

def bankWords : Nat := 73728
def imgWord (s : State) (b i : Nat) : W := s.word (sramAddr (0x100 + b * bankWords + i))
def imgVersion (s : State) (b : Nat) : Nat := (imgWord s b 1).fld 0 24

/-! ### Heartbeats, traps, takeover (R213, R216, R236, R270) -/

/-- R165, R171: a heartbeat that the core's guard fails is noted and is none. -/
def heartbeat (s : State) (c : Nat) : State :=
  let a := opcReg (Off.OPC_HB c)
  match accessFails s (448 + c) a 1 false true (corePriv s c) with
  | some (w, cause, _) => recordNotice s (448 + c) w cause
  | none => modCore (incWrap s a) c (fun x => { x with hbFt := ftNow s })
def execHeartbeat (c : Fin 2) (s : State) : Res := when_ (coreActs s c.val && !s.inReset) s (heartbeat s c.val)

/-- R270: the core fails again within 10 s of its restart. -/
def failsAgain (s : State) (c : Nat) : Bool :=
  match (s.core c).backFt with
  | none => false
  | some b => decide (ftNow s < b + 10 * ftSec)
/-- Firmware holds the core in reset. -/
def holdDead (s : State) (c : Nat) : State :=
  let s1 := modCore (setBit s (opcReg Off.OPC_FO_STAT) (20 + c) true) c (fun x => { x with rstHold := true, rstReq := true })
  logFw s1 EvC.OPC_DEAD []
/-- The core stops, and its reservation is lost (R152). It is the active one: the standby is to take over; it is the
standby: it is none any more. -/
def trapCore (s : State) (c cause addr : Nat) : State :=
  let s0 := modCore (loseRecord s (guardNi (448 + c))) c (fun x => { x with trapFt := ftLo (ftNow s) })
  let s1 := s0.setReg (opcReg (Off.OPC_TRAP c)) (W.at 0 8 cause ||| W.at 8 28 (addr / 256))
  let s2 := logAt s1 (ftNow s) (coreNode s c) EvC.OPC_TRAP []
  if activeCore s = c then modCore s2 c (fun x => { x with run := false, dead := 2 })
  else
    let s3 := setBit (modCore s2 c (fun x => { x with run := false })) (opcReg Off.OPC_FW_STAT) 27 false
    if failsAgain s c then holdDead s3 c else modCore s3 c (fun x => { x with rstReq := true })
def execOpcTrap (c : Fin 2) (cause : BitVec 8) (addr : W) (s : State) : Res :=
  when_ (coreActs s c.val && decide (cause ≠ 0)) s (trapCore s c.val cause.toNat addr.toNat)

/-- The vector page's word 0 is a jump whose encoding the manual does not give (log entry 4). -/
def writeVector (s : State) : State :=
  let (w, s1) := freeW s
  s1.setWord (sramAddr 0) w
def setPort (s : State) (c : Nat) : State := fwPoke s (fnfReg Off.FNF_CTRL) ((s.reg (fnfReg Off.FNF_CTRL)).put 1 1 c)
def setActive (s : State) (c : Nat) : State := setFld s (opcReg Off.OPC_FW_STAT) 26 1 c

/-- The active core has failed: the cause. -/
def failCause (s : State) : Nat :=
  let x := s.core (activeCore s)
  if x.dead ≠ 0 then x.dead else if x.hbFt + us 1000 ≤ ftNow s then 1 else 0
/-- The standby resumes on the old image, and the vector page is as it was. -/
def revert (s : State) : State :=
  let a := opcReg Off.OPC_IMG_BANK
  let b := 1 - getFld s a 0 1
  let s0 := (s.setReg a (W.at 0 1 b)).setWord (sramAddr 0) s.vecKept
  let s1 := setFld s0 (opcReg Off.OPC_FW_STAT) 0 24 (imgVersion s b)
  logFw (setFld s1 (opcReg Off.OPC_IMG_STAT) 0 4 6) EvC.FW_REVERTED []
def rerun (s : State) : State :=
  { s with running := s.running.map (fun r => if r.done then r else { r with begun := false, stop := none }) }
/-- R270, in one step: the handover bit rises and falls within it. -/
def takeOver (s : State) : State :=
  let old := activeCore s
  let new := 1 - old
  let cause := failCause s
  let a := opcReg Off.OPC_FO_STAT
  let s1 := modCore (setBit (setActive s new) (opcReg Off.OPC_FW_STAT) 27 false) new (fun x => { x with hbFt := ftNow s })
  let s2 := rerun (setPort s1 new)
  let s3 := s2.setReg a (W.at 0 16 (getFld s a 0 16 + 1) ||| W.at 16 3 cause ||| W.at 19 1 old ||| W.at 20 2 (getFld s a 20 2))
  let s4 := modCore (logFw s3 EvC.OPC_FAILOVER []) old (fun x => { x with dead := 0 })
  let s5 := if failsAgain s old then holdDead s4 old
    else if cause = 3 then s4 else modCore s4 old (fun x => { x with rstReq := true })
  endHandover (if regBit s (opcReg Off.OPC_IMG_BANK) 1 then revert s5 else s5)
def execTakeover (s : State) : Res :=
  when_ (stbyActs s && !(s.core (activeCore s)).halted && decide (2 ≤ fwMode s) && !s.inReset &&
    decide (failCause s ≠ 0)) s (takeOver s)

/-- The standby is up. After the loss of both cores a restarted core goes on as the active one. -/
def stbyUp (s : State) : State :=
  let c := standby s
  noteQuiet (modCore (setBit s (opcReg Off.OPC_FW_STAT) 27 true) c (fun x => { x with hbFt := ftNow s, dead := 0 }))
def execOpcStbyOk (s : State) : Res :=
  let sb := s.core (standby s)
  let ac := s.core (activeCore s)
  if s.inReset || s.scanOn || !bootSel s || decide (fwMode s < 2) then ok s
  else if coreActs s (standby s) && !stbyCore s then ok (stbyUp s)
  else when_ (!sb.run && ac.run && decide (ac.dead ≠ 0)) s
    (rerun (modCore s (activeCore s) (fun x => { x with dead := 0, hbFt := ftNow s })))

/-! ### The start (R217) -/

def bootStart (s : State) : State :=
  let s1 := setRun (modCore (setFld s (opcReg Off.OPC_FW_STAT) 24 2 (if s.safe then 2 else 1)) 0
    (fun x => { x with hbFt := ftNow s })) 0 true
  let s2 := setBit (loadKeys s1) (opcReg Off.OPC_KEY_STAT) 5 true
  setBit (zeroWords (zeroWords s2 (mbxArea 0 0) 0x2000) (mbxArea 1 0) 0x2000) (mbxReg Off.MBX_AVAIL) 0 true
def execBootRomStart (s : State) : Res :=
  when_ (!s.inReset && !s.scanOn && regBit s (bstReg Off.BST_POST_STAT) 0 && decide (fwMode s = 0) &&
    !(s.core 0).rstReq && !(s.core 0).rstHold) s (bootStart s)

/-! ### Images (R232 to R234) -/

def imgWords (s : State) (b i k : Nat) : List W := (List.range k).map (fun j => imgWord s b (i + j))
/-- The signed message takes each word as five bytes; a byte string has four bytes in a word. -/
def fiveBytes (w : W) : List Nat := [w.fld 32 4, w.fld 24 8, w.fld 16 8, w.fld 8 8, w.fld 0 8]
def fourBytes (w : W) : List Nat := [w.fld 24 8, w.fld 16 8, w.fld 8 8, w.fld 0 8]
def imgLen (s : State) (b : Nat) : Nat := (imgWord s b 2).toNat
def imgSigs (s : State) (b : Nat) : Nat := (imgWord s b 4).fld 0 2
def imgFormat (s : State) (b : Nat) : Bool :=
  decide (imgWord s b 0 = 0x04F504331) && decide (1 ≤ imgSigs s b ∧ imgSigs s b ≤ 2) &&
    decide (1 ≤ imgLen s b ∧ imgLen s b ≤ 73584) && decide (16 + imgLen s b + 64 * imgSigs s b ≤ bankWords)
def keyShadow (s : State) (k : Nat) : List W := (List.range 12).map (fun i => s.reg (opcReg (Off.OPC_KEY_SHADOW k i)))
/-- The enrolled slots whose digest is that of the block's key; none where it is that of a revoked slot, enrolled or not. -/
def keySlots (s : State) (digest : List W) : List Nat :=
  let same := [0, 1].filter (fun k => decide (keyShadow s k = digest))
  if same.any (fun k => s.fuses.testBit (Fuse.REV k)) then [] else same.filter (fun k => fuse s (Fuse.ENR k))
/-- The slots by which block j verifies; none where it does not. -/
def blockSlots (s : State) (b j : Nat) : List Nat :=
  let at_ := 16 + imgLen s b + 64 * j
  let key := ((imgWords s b (at_ + 1) 25).flatMap fourBytes).take 97
  let r := (imgWords s b (at_ + 26) 12).flatMap fourBytes
  let sg := (imgWords s b (at_ + 38) 12).flatMap fourBytes
  let msg := (imgWords s b 0 (16 + imgLen s b)).flatMap fiveBytes
  let slots := keySlots s (Config.sha384 key)
  if Config.ecdsaValid key r sg msg then slots else []
/-- RESULT and SLOTS. -/
def imgResult (s : State) (b : Nat) : Nat × Nat :=
  if !imgFormat s b then (5, 0)
  else
    let bs := (List.range (imgSigs s b)).map (blockSlots s b)
    let good := (bs.filter (fun l => !l.isEmpty)).length
    let slots := bs.flatMap id
    let mask := b2n (slots.contains 0) + 2 * b2n (slots.contains 1)
    if good = imgSigs s b then (1, mask)
    else if good = 0 then (3, mask)
    else if fuse s Fuse.REQUIRE_ALL then (4, mask) else (2, mask)
def imgAccepted (res : Nat) : Bool := decide (res = 1 ∨ res = 2)
/-- OPC_IMG_STAT and the record of the decision, logged by core c. -/
def recordImg (s : State) (b c : Nat) : State :=
  let (res, slots) := imgResult s b
  let s1 := s.setReg (opcReg Off.OPC_IMG_STAT) (W.at 0 4 res ||| W.at 4 2 slots ||| W.at 12 24 (imgVersion s b))
  if res = 2 then logAt s1 (ftNow s) (coreNode s c) EvC.SIG_PARTIAL []
  else if imgAccepted res then s1
  else logAt s1 (ftNow s) (coreNode s c) EvC.IMG_REJECT []

/-- R308, R309: what firmware reports of the start. -/
def reportStart (s : State) : State :=
  let s1 := setBit s (pwrReg Off.PWR_WAKE_CAUSE) 3 true
  let s2 := if s.braceReset then
      logFw { s1 with braceReset := false } EvC.BRACE_RESET
        [s.reg (tkReg Off.TK_BRACE_FT_H), s.reg (tkReg Off.TK_BRACE_FT_L)]
    else s1
  if regBit s (tkReg Off.TK_ALARM_STAT) 1 then
    logFw (setBit s2 (pwrReg Off.PWR_WAKE_CAUSE) 2 true) EvC.LATE_ALARM
      [s.reg (pwrReg Off.PWR_LATE_FT_H), s.reg (pwrReg Off.PWR_LATE_FT_L)]
  else s2
/-- The loader's image is accepted: the firmware starts. -/
def enterFirmware (s : State) (b : Nat) : State :=
  let s1 := fwPoke (writeVector s) (mtxReg Off.MTX_REMAP) 1
  let s2 := fwPoke (fwPoke s1 (opcReg (Off.OPC_CLK 0)) 1) (opcReg Off.OPC_CTRL) 1
  let s3 := setPort s2 0
  let a := opcReg Off.OPC_FW_STAT
  let s4 := setFld (setFld s3 a 0 24 (imgVersion s b)) a 24 2 (if s.safe then 2 else 3)
  reportStart (s4.setReg (opcReg Off.OPC_CFG_EPOCH) 0)
/-- A check ends in loader mode: FW_LOAD is answered. -/
def loaderDecides (s : State) (b : Nat) : State :=
  let s1 := recordImg { s with imgCheck := none } b 0
  match s1.running with
  | none => s1
  | some r =>
    if imgAccepted (imgResult s b).1 then
      let s2 := enterFirmware s1 b
      okCmd s2 r [s2.reg (opcReg Off.OPC_IMG_STAT)] false
    else finish s1 r Code.BADIMAGE [s1.reg (opcReg Off.OPC_IMG_STAT)] false
/-- A check ends at the standby: an accepted image waits for the quiescent point. -/
def standbyDecides (s : State) (b : Nat) : State :=
  let s1 := recordImg { s with imgCheck := none } b (standby s)
  if imgAccepted (imgResult s b).1 then noteQuiet { s1 with imgReady := some b } else s1
def execImageCheckDone (s : State) : Res :=
  match s.imgCheck with
  | none => ok s
  | some b =>
    if inLoader s then when_ (fwAlive s) s (loaderDecides s b)
    else when_ (stbyActs s) s (standbyDecides s b)

/-- R235: from the quiescent point on, what the handover record holds is the State that both cores share (R215); the new
core adopts it and becomes active on the new image, and the handover ends. -/
def handOver (s : State) (b : Nat) : State :=
  let new := standby s
  let s1 := writeVector (setPort { s with vecKept := s.word (sramAddr 0) } new)
  let s2 := s1.setReg (opcReg Off.OPC_IMG_BANK) (W.at 0 1 b ||| W.at 1 1 1)
  let s3 := setFld (setActive s2 new) (opcReg Off.OPC_FW_STAT) 0 24 (imgVersion s b)
  logFw (modCore (endHandover { s3 with imgReady := none }) new (fun x => { x with hbFt := ftNow s })) EvC.FW_HANDOVER []
def execHandover (s : State) : Res :=
  match s.imgReady with
  | none => ok s
  | some b => when_ (fwAlive s && handingOver s && stbyActs s) s (handOver s b)

end Sys2Proof.Machine
end

