-- ==== Sys2Proof/Machine/FwMap.lean ====
section
/-!
DEFINITION. The apply queue (R243), route changes (R79 to R81, R246, R256), and lane repairs (R263).
-/

namespace Sys2Proof.Machine

/-! ### The apply queue (R243) -/

/-- Changes in the queue; a fence command whose route change has still to be queued holds a place. -/
def queueCount (s : State) : Nat := s.tickets.length + b2n s.fenceTicket.isSome
def queueFull (s : State) : Bool := decide (32 ≤ queueCount s)
def nextTicket (s : State) : Nat := (s.tickLast + 1) % 65536
/-- A command whose change is carried by a fanfare. -/
def ticketCmd (s : State) (r : Running) (ents : List (Nat × List W)) (lt : Nat) (check : Bool) : State :=
  if queueFull s then failCmd s r Why.QFULL 0 false
  else
    let n := nextTicket s
    let t : Ticket := { num := n, ents := ents, lt := lt, check := check }
    okCmd { s with tickets := s.tickets ++ [t], tickLast := n } r [natW n] true

/-- Slot 6 or 7, free for the next change; firmware reads one that it finds in DONE. -/
def freeSlot67 (s : State) : Option Nat :=
  [6, 7].find? (fun k => (s.slot k).ticket.isNone && decide (slotState s k = SS.IDLE ∨ slotState s k = SS.DONE))
/-- The LT of the last earlier change that has armed. -/
def armedLt (s : State) : Nat := s.tickLt
/-- Every change for which GO has been issued has armed, aborted or applied. -/
def settled (s : State) : Bool :=
  s.tickets.all (fun t => match t.slot with
    | some k => decide (slotState s k ≠ SS.STAGING)
    | none => true)

/-- The entries that the fanfare carries: not those for a tile that is out of service. -/
def fanEnts (s : State) (ents : List (Nat × List W)) : List FEnt :=
  ents.filterMap (fun e => match stagingNi s e.1 with
    | none => none
    | some n => if outNow s (n / 7) || tileState s (n / 7) = TS.OFF then none else some { addr := e.1, data := e.2, ni := n })
/-- Firmware writes the slot's registers; where its staging list stands is open (log entry 4). -/
def slotRegs (s : State) (k lt n : Nat) : State :=
  let (w, s1) := freeW s
  fwPokes s1 [(slotReg k Off.FNF_LIST, w), (slotReg k Off.FNF_LEN, W.at 0 13 n), (slotReg k Off.FNF_LT_H, ftHi lt),
    (slotReg k Off.FNF_LT_L, ftLo lt), (slotReg k Off.FNF_PER, 0), (slotReg k Off.FNF_XCNT, 0)]
/-- GO for slot k with these entries. -/
def startEnts (s : State) (k num lt : Nat) (es : List FEnt) : State :=
  let x := s.slot k
  let fid := k + 8 * (x.gen % 32)
  let s1 := (slotRegs (readSlotStat s k) k lt es.length).setReg (slotReg k Off.FNF_STAT) (W.at 0 4 SS.STAGING ||| W.at 4 8 fid)
  let y : Slot := { gen := (x.gen + 1) % 32, ticket := some num, composed := some es }
  let s2 := s1.setSlot k y
  pump { s2 with stageQ := s2.stageQ ++ [k] }
def setTicketSlot (s : State) (num k : Nat) : State :=
  { s with tickets := s.tickets.map (fun t => if t.num = num then { t with slot := some k } else t) }

/-- R243: a change that no fanfare can carry takes its LT, and is written directly then. -/
def landLater (s : State) (num lt : Nat) : State :=
  landAll { s with tickets := s.tickets.map (fun t => if t.num = num then { t with land := some lt } else t), tickLt := max s.tickLt lt }
/-- GO for a change; one that reaches no tile by a fanfare is written directly. -/
def goTicket (s : State) (k : Nat) (t : Ticket) : State :=
  let es := fanEnts s t.ents
  if es.isEmpty then landLater s t.num (max t.lt (armedLt s))
  else startEnts (setTicketSlot s t.num k) k t.num (max t.lt (armedLt s)) es

/-! ### A route change (R79 to R81, R264) -/

def wordEnts (l : List (Nat × W)) : List (Nat × List W) := l.map (fun p => (p.1, [p.2]))
/-- Tiles that this change takes out of service on command: their NIs are drained first. -/
def tilesToDrain (s : State) (t : Ticket) : List Nat :=
  (List.range 64).filter (fun x => (t.map.getD x 0).testBit 16 && !outNow s x && (pendBits s x).testBit 16 && !bothOut s x)
def nisToDrain (s : State) (t : Ticket) : List Nat :=
  (tilesToDrain s t).flatMap (fun x => (unitNis x).filter (fun n => niNotDrained s n))
/-- R52, R264: EN goes from 1 to 0; an NI that has never been enabled is taken through the same change. -/
def drainNi (n : Nat) (s : State) : State :=
  let v := s.reg (niReg n Off.NI_CTRL)
  let s1 := if niEn s n then { s with wasEnabled := s.wasEnabled ++ [n] }
    else if (s.ni n).draining then s else fwPoke s (niReg n Off.NI_CTRL) (v.put 0 1 1)
  if niEn s1 n then fwPoke s1 (niReg n Off.NI_CTRL) (v.put 0 1 0) else s1
/-- GO for the hold fanfare, once the NIs have drained. -/
def goRoute (s : State) (k : Nat) (t : Ticket) : State :=
  let todo := nisToDrain s t
  if !todo.isEmpty then forEach drainNi todo s
  else
    let r : RouteCh := { ticket := t.num, newMap := t.map, aff := t.aff, phase := .hold }
    let es := fanEnts s ((List.range 64).flatMap (fun x => wordEnts (holdWrites s r x)))
    startEnts { setTicketSlot s t.num k with route := some r } k t.num (max t.lt (armedLt s)) es

def ticketGo (s : State) : State :=
  match s.tickets.find? waitsGo, freeSlot67 s with
  | some t, some k => if t.route then goRoute s k t else goTicket s k t
  | _, _ => s
/-- Changes whose LT has come are written first; while FNF_CTRL.EN = 0 no GO is issued. -/
def ticketWork (s : State) : State :=
  if regBit s (fnfReg Off.FNF_CTRL) 0 && s.route.isNone && settled s then ticketGo s else s
def execTicketGo (s : State) : Res := when_ (fwAlive s) s (ticketWork (landAll (catchUp s)))

/-- A route change takes its place in ticket order. -/
def insertTicket (x : Ticket) : List Ticket → List Ticket
  | [] => [x]
  | y :: ys =>
    if waitsGo y && decide (x.num < 65536 ∧ y.num < 65536) && aseqLt x.num y.num then x :: y :: ys
    else y :: insertTicket x ys
def routeNeeded (s : State) : Bool := decide (wantedMap s ≠ installed s) || localSet s
def queueRoute (s : State) : State :=
  let m := wantedMap s
  let t : Ticket :=
    { num := s.fenceTicket.getD 65536, check := true, route := true, map := m, aff := affected s m }
  { s with tickets := insertTicket t s.tickets, fenceTicket := none }
/-- Firmware goes on with work that the hardware has let it do, then queues a route change where one is needed. -/
def execRouteChange (s : State) : Res :=
  if fwAlive s then
    let s1 := runJobs (catchUp s)
    let room := decide (s1.tickets.length < 32)
    ok (if s1.route.isNone && !(s1.tickets.any (fun t => t.route)) && room && routeNeeded s1 then queueRoute s1 else s1)
  else ok s

/-! ### The empty condition and the map fanfare (R79, R80) -/

def poweredTiles (s : State) : List Nat := (List.range 64).filter (fun t => decide (tileState s t ≠ TS.OFF))
def allEmpty (s : State) : Bool := (poweredTiles s).all (fun t => decide (oldCnt s t = 0))
def fwdCounts (s : State) : List Nat := (poweredTiles s).map (fun t => (s.reg (rtrReg t Off.RTR_OLD_FWD)).toNat)
/-- The entries of the map fanfare: the map as lines, then the epoch and HOLD. -/
def mapEnts (s : State) (r : RouteCh) (t : Nat) : List (Nat × List W) :=
  [0, 1, 2, 3].map (fun j => (rtrReg t (Off.RTR_FMAP + 16 * j), ((mapWords r).drop (16 * j)).take 16)) ++
  wordEnts ((mapWrites s r t).drop 64)
def goMap (s : State) (r : RouteCh) : State :=
  match freeSlot67 s with
  | none => s
  | some k =>
    if regBit s (fnfReg Off.FNF_CTRL) 0 then
      startEnts { s with route := some { r with phase := .map } } k r.ticket (armedLt s)
        (fanEnts s ((List.range 64).flatMap (mapEnts s r)))
    else s
def scanAgain (s : State) (r : RouteCh) : State :=
  { s with route := some (if allEmpty s then { r with phase := .scan2, fwd := fwdCounts s } else { r with phase := .scan1 }) }
def emptyScan (s : State) (r : RouteCh) : State :=
  match r.phase with
  | .scan1 => scanAgain s r
  | .scan2 => if allEmpty s && decide (fwdCounts s = r.fwd) then goMap s r else scanAgain s r
  | _ => s
def execEmptyScan (s : State) : Res :=
  match s.route with
  | none => ok s
  | some r => when_ (fwAlive s) s (emptyScan s r)

/-! ### A change that aborts (R243) -/

/-- A route change whose fanfare aborts is given up; a hold that stands is taken back. -/
def dropRoute (s : State) (num : Nat) : State :=
  match s.route with
  | none => s
  | some r =>
    if r.ticket = num then
      fwPokes { s with route := none } ((poweredTiles s).filterMap (fun t =>
        let v := s.reg (rtrReg t Off.RTR_CTRL)
        if v.bit 2 then some (rtrReg t Off.RTR_CTRL, v.put 2 1 0) else none))
    else s
def ticketAbort (s : State) (k num : Nat) : State :=
  let s1 := logFw s EvC.TICKET_ABORT [W.at 0 16 num ||| W.at 16 5 (slotReason s k), s.reg (slotReg k Off.FNF_BAD)]
  let s2 := modSlot (dropRoute s1 num) k (fun x => { x with ticket := none })
  { s2 with tickets := s2.tickets.filter (fun t => decide (t.num ≠ num)),
            tickAborted := if num < 65536 then num else s2.tickAborted,
            tickReason := if num < 65536 then slotReason s k else s2.tickReason }
def execTicketAbort (k : Fin 8) (s : State) : Res :=
  match (s.slot k).ticket with
  | none => ok s
  | some num => when_ (fwAlive s && decide (slotState s k = SS.ABORTED ∨ slotState s k = SS.IDLE)) s (ticketAbort s k num)

/-! ### Lane repair (R263) -/

/-- The outgoing link i of router t, its half sl, and its other end. -/
structure Half where
  t : Nat
  i : Nat
  sl : Nat
  deriving DecidableEq, Repr
def Half.u (h : Half) : Nat := across h.t h.i
def Half.k (h : Half) : Nat := portTo h.u h.t

def txSpare (h : Half) (j : Nat) : Nat := slcReg h.t h.sl (Off.LNK_TX_REMAP h.i j)
def rxSpare (h : Half) (j : Nat) : Nat := slcReg h.u h.sl (Off.LNK_RX_REMAP h.k j)
def unusedSpares (s : State) (h : Half) : List Nat :=
  (List.range 12).filter (fun j => !regBit s (rxSpare h j) 9 && !regBit s (txSpare h j) 9)
/-- One unused spare for each failing wire, at both ends. -/
def writeSpares (s : State) (h : Half) (bad : List Nat) : State :=
  forEach (fun p st =>
    let v := W.at 0 9 p.1 ||| W.at 9 1 1
    fwPoke (fwPoke st (txSpare h p.2) v) (rxSpare h p.2) v) (bad.zip (unusedSpares s h)) s
/-- R263: the repair of a half begins, or ends with its cause gone. -/
def Half.key (h : Half) : Nat × Nat × Nat := (h.t, h.i, h.sl)
def repairBegin (s : State) (h : Half) : State :=
  if s.repairs.contains h.key then s else { s with repairs := s.repairs ++ [h.key] }
def repairEnd (s : State) (h : Half) : State :=
  { s with repairs := s.repairs.filter (fun x => decide (x ≠ h.key)),
           repairDue := s.repairDue.filter (fun x => decide (x ≠ h.key)) }
/-- Training passes: the half is restored and the repair counted. -/
def repaired (s : State) (h : Half) (twinDown : Bool) : State :=
  let s1 := fwPoke (repairEnd s h) (slcReg h.t h.sl (Off.LNK_CTRL h.i)) 0
  let s2 := setLink s1 h.t h.i { linkOf s1 h.t h.i with esc := none }
  let s3 := incWrap s2 (slcReg h.t h.sl (Off.LNK_REPAIR_CNT h.i))
  if twinDown then setPend16 (setPend16 s3 h.t h.i false) h.u h.k false else s3
/-- The passes that are left, and the wires that fail at each training in turn. -/
def repairPasses (h : Half) (twinDown : Bool) : Nat → List (List Nat) → State → State
  | 0, _, s => logFw (repairEnd s h) EvC.LANE_FAIL [natW h.i, natW h.sl]
  | n + 1, bad, s =>
    let f := bad.head?.getD []
    let g := (bad.drop 1).head?.getD []
    let s1 := noteTraining s h.t h.sl h.i f.head?
    if (unusedSpares s1 h).length < f.length then logFw (repairEnd s1 h) EvC.LANE_EXHAUSTED [natW h.i, natW h.sl]
    else
      let s2 := noteTraining (writeSpares s1 h f) h.t h.sl h.i g.head?
      if g.isEmpty then repaired s2 h twinDown else repairPasses h twinDown n (bad.drop 2) s2

/-- The half is fenced first; a half whose twin is fenced waits until the map shows the link fenced. -/
def repairHalf (s : State) (h : Half) (bad : List (List Nat)) : State :=
  let twinDown := fenceWanted s h.t h.i (1 - h.sl)
  if twinDown && !instLink s h.t h.i then setPend16 (setPend16 s h.t h.i true) h.u h.k true
  else if !txFenced s h.t h.i h.sl then fwPoke s (slcReg h.t h.sl (Off.LNK_CTRL h.i)) 1
  else repairPasses h twinDown 3 bad s
def execLaneRepair (t : Fin 64) (sl : Fin 2) (i : Fin 16) (bad : List (List (Fin 312))) (s : State) : Res :=
  let u := across t i
  let h : Half := { t := t.val, i := i.val, sl := sl.val }
  when_ (fwAlive s && isLink t i && s.repairDue.contains h.key && sliceIn s t sl && sliceIn s u sl &&
      (s.ta t).turn.isNone && (s.ta u).turn.isNone) s
    (repairHalf (repairBegin s h) h (bad.map (fun l => l.map (fun w => w.val))))

end Sys2Proof.Machine
end

