-- ==== Sys2Proof/Machine/FwFields.lean ====
section
/-!
DEFINITION. The fields that each firmware command writes, as its argument words give them after clamping (R226, R227,
R239, R246 to R253): for the command itself, and for the comparison of R226 with those still queued.
-/

namespace Sys2Proof.Machine

/-! ### Arguments -/

/-- Argument word i of a list of argument words, counted from 1. -/
def argN (a : List W) (i : Nat) : W := wordAt a (i - 1)
/-- What the arguments of a command say: how many are clamped, the word that names nothing, the fields. -/
structure Cmd where
  clamps : Nat := 0
  bad : Option Nat := none
  flds : List FldW := []
  deriving DecidableEq, Repr

/-- An argument word brought into a range, and whether that changed it. -/
def clampArg (lo hi : Nat) (v : W) : Nat := clampTo lo hi v.toNat
def clamped (lo hi : Nat) (v : W) : Nat := b2n (decide (v.toNat < lo ∨ hi < v.toNat))
/-- R243: an LT pair. -/
def ltPair (a : List W) (i : Nat) : Nat := ftOfWords (argN a i) (argN a (i + 1))
def ltClamps (a : List W) (i : Nat) : Nat := b2n (decide (999999999 < (argN a (i + 1)).fld 6 30))
/-- One field of a register. -/
def fldW (a lo len v : Nat) : FldW := { a := a, lo := lo, len := len, v := v }

def unitPort (p : Nat) : Bool := decide (p < 5 ∨ p = 6)
/-- The fields of a command for one NI or ALL. -/
def perNi (s : State) (a : List W) (ports : Nat → Bool) (clamps : Nat) (f : Nat → List FldW) : Cmd :=
  match nodesArg s (argN a 1) ports with
  | none => { bad := some 1 }
  | some ns => { clamps := clamps, flds := ns.flatMap f }
/-- A register written whole by an argument word in the register's layout. -/
def regClampsAt (n o : Nat) (v : W) : Nat := regClamps (niReg n o) v

/-! ### Values that changes still under way will leave -/

def entWord (a : Nat) (e : Nat × List W) : Option W :=
  if e.1 = a then some (wordAt e.2 0) else none
/-- The last word that a queued or launched change leaves at an address, otherwise the present one. -/
def comingWord (s : State) (a : Nat) (now : W) : W :=
  (firstSome (entWord a) ((s.tickets.reverse).flatMap (fun t => t.ents.reverse))).getD now
def comingReg (s : State) (a : Nat) : W := comingWord s a (s.reg a)
/-- A word of a group table: in a tile that has lost its memory, the one that firmware will put back. -/
def groupWordNow (s : State) (a : Nat) : W :=
  if tileState s ((a - tmemAddr 0 0) / 0x20000) = TS.OFF then Sparse.get memDefault s.groupMem a else s.word a
def comingGroup (s : State) (a : Nat) : W := comingWord s a (groupWordNow s a)

/-! ### Topology (R246) -/

def fFenceSlice (a : List W) : Cmd :=
  let t := tileOf (argN a 1)
  { clamps := tileClamps (argN a 1),
    flds := [fldW (slcReg t ((argN a 2).fld 0 1) Off.SLC_STAT) 0 1 ((argN a 2).fld 1 1)] }
def linkHalfArg (v : W) : Nat := if v.fld 0 2 = 0 then 1 else v.fld 0 2
def fFenceLink (a : List W) : Cmd :=
  let t := tileOf (argN a 1)
  let i := (argN a 2).fld 0 4
  if isLink t i then
    { clamps := tileClamps (argN a 1) + b2n (decide ((argN a 3).fld 0 2 = 0)),
      flds := (linkHalves t i (linkHalfArg (argN a 3))).map (fun e =>
        fldW (slcReg e.1 e.2.2 (Off.LNK_CTRL e.2.1)) 0 1 ((argN a 3).fld 2 1)) }
  else { bad := some 2 }
def fTileService (a : List W) : Cmd :=
  let t := tileOf (argN a 1)
  { clamps := tileClamps (argN a 1), flds := [fldW (rtrReg t Off.RTR_STAT) 3 1 ((argN a 2).fld 0 1)] }
def fUnitEnable (s : State) (a : List W) : Cmd :=
  match nodeArg s (argN a 1) with
  | none => { bad := some 1 }
  | some n =>
    let d := (argN a 2).fld 1 14
    { clamps := b2n (decide (10000 < d)),
      flds := (if d = 0 then [] else [fldW (niReg n Off.NI_DRAIN_TO) 0 14 (min d 10000)]) ++
        [fldW (niReg n Off.NI_CTRL) 0 1 ((argN a 2).fld 0 1)] }

/-! ### Profile, groups, misses, punt (R20, R113, R126, R247) -/

/-- The destination mask of NI n in class k. -/
def destOf (s : State) (n k : Nat) : Nat :=
  let lo := niReg n (Off.NI_DEST_SC7_LO + 2 * (7 - k))
  getFld s lo 0 32 + getFld s (lo + 1) 0 32 * 2 ^ 32
/-- R20: the NIs that declare SC5. -/
def declaring (s : State) : List Nat := (popNis s unitPort).filter (fun n => decide (destOf s n 5 ≠ 0))
/-- R20: PWR_SC5_TILES in Profile L. -/
def sc5Tiles (s : State) : Nat :=
  let ns := declaring s
  (List.range 64).foldl (fun m t =>
    if ns.any (fun n => decide (row (n / 7) = row t) || (destOf s n 5).testBit t) then m + 2 ^ t else m) 0
def sc5Flds (m : Nat) : List FldW :=
  [fldW (pwrReg Off.PWR_SC5_TILES_LO) 0 32 (m % 2 ^ 32), fldW (pwrReg Off.PWR_SC5_TILES_HI) 0 32 (m / 2 ^ 32)]
/-- R20 does not say when PROFILE_SET takes the NI_DEST_SC5 masks from which it computes PWR_SC5_TILES; the model takes
them as the command runs (DESIGN CHOICE, log entry 42). -/
def fProfile (s : State) (a : List W) : Cmd :=
  let v := (argN a 1).fld 0 2
  let p := if v = 3 then 1 else v
  { clamps := b2n (decide (v = 3)) + ltClamps a 2,
    flds := fldW (pwrReg Off.PWR_PROFILE) 0 2 p :: sc5Flds (if p = 1 then sc5Tiles s else 0) ++
      (List.range 64).map (fun t => fldW (rtrReg t Off.RTR_CTRL) 0 3 (profileCtrl p)) }

def groupArg (a : List W) : Nat := min 16383 (argN a 1).toNat
def groupMaskAddr (t g : Nat) : Nat := tmemAddr t (0x10000 + 2 * g)
/-- The mask words of a group; every diagonal tile holds them. -/
def maskFlds (g lo hi : Nat) : List FldW := [fldW (groupMaskAddr 0 g) 0 36 lo, fldW (groupMaskAddr 0 g + 1) 0 36 hi]
def laneFld (g t v : Nat) : FldW := fldW (laneAddr t g) (9 * (g % 4)) 9 v
def groupSetMask (a : List W) : Nat := (argN a 2).toNat + (argN a 3).fld 0 28 * 2 ^ 36
/-- R111: the bits of a lane that name attach points. -/
def laneArg (a : List W) (t : Nat) : Nat := (argN a (4 + t / 4)).fld (9 * (t % 4)) 9 &&& 0x5F
def fGroupSet (a : List W) : Cmd :=
  let g := groupArg a
  let m := groupSetMask a
  { clamps := clamped 0 16383 (argN a 1) + ltClamps a 20,
    flds := maskFlds g (argN a 2).toNat ((argN a 3).fld 0 28 + 2 ^ 35) ++ (tilesOf m).map (fun t => laneFld g t (laneArg a t)) }
def fGroupClear (a : List W) : Cmd :=
  let g := groupArg a
  { clamps := clamped 0 16383 (argN a 1) + ltClamps a 2,
    flds := maskFlds g 0 0 ++ (List.range 64).map (fun t => laneFld g t 0) }

def missReg (t : Nat) : Nat := niReg (niOf t 0) Off.NI_MISS_ACT
def popCount (x : Nat) : Nat := ((List.range 8).filter (fun i => x.testBit i)).length
/-- R126: the active ports of the instance, tile t taken with `act`. -/
def activePorts (s : State) (t act : Nat) : Nat :=
  ((List.range 64).map (fun u => popCount (if u = t then act else (comingReg s (missReg u)).fld 16 8))).foldl (· + ·) 0
def fMiss (s : State) (a : List W) : Cmd :=
  let t := tileOf (argN a 1)
  let v := argN a 2
  let n := activePorts s t (v.fld 16 8)
  let was := activePorts s t ((comingReg s (missReg t)).fld 16 8)
  let mine (punt : Nat) : List FldW :=
    [fldW (missReg t) 0 8 (v.fld 0 8), fldW (missReg t) 8 8 punt, fldW (missReg t) 16 8 (v.fld 16 8)]
  { clamps := tileClamps (argN a 1) + ltClamps a 3,
    flds := if n ≤ 128 then mine (v.fld 8 8)
      else mine 0 ++ (if was ≤ 128 then
        (List.range 64).filterMap (fun u => if u ≠ t ∧ (comingReg s (missReg u)).fld 8 8 ≠ 0 then some (fldW (missReg u) 8 8 0) else none)
        else []) }
def fPunt (s : State) (a : List W) : Cmd :=
  perNi s a unitPort (regClampsAt 0 Off.NI_PUNT_TB (argN a 2)) (fun n =>
    regFlds (niReg n Off.NI_PUNT_TB) (argN a 2) ++
      [0, 1, 2, 3].flatMap (fun j => regFlds (niReg n (Off.NI_PUNT_DST j)) (argN a (3 + j))))

/-! ### Classes and admission (R248) -/

def classArg (v : W) : Nat := clampArg 5 7 v
def fClsTb (s : State) (a : List W) : Cmd :=
  let k := classArg (argN a 2)
  perNi s a unitPort (clamped 5 7 (argN a 2) + clamped 1 1024 (argN a 3) + clamped 4 1024 (argN a 4)) (fun n =>
    [fldW (niReg n (Off.NI_TB_SC7 + (7 - k))) 0 11 (clampArg 1 1024 (argN a 3)),
     fldW (niReg n (Off.NI_TB_SC7 + (7 - k))) 12 11 (clampArg 4 1024 (argN a 4))])
def fClsDest (s : State) (a : List W) : Cmd :=
  let k := classArg (argN a 2)
  perNi s a unitPort (clamped 5 7 (argN a 2)) (fun n =>
    let lo := niReg n (Off.NI_DEST_SC7_LO + 2 * (7 - k))
    [fldW lo 0 32 ((argN a 3).fld 0 32), fldW (lo + 1) 0 32 ((argN a 4).fld 0 32)])
def fClsWrr (a : List W) : Cmd :=
  let w1 := (argN a 2).fld 0 8
  let age := (argN a 2).fld 8 16
  { clamps := regClamps (rtrReg 0 Off.RTR_WRR_W0) (argN a 1) + b2n (decide (w1 = 0 ∨ age < 64)) + ltClamps a 3,
    flds := (List.range 64).flatMap (fun t => regFlds (rtrReg t Off.RTR_WRR_W0) (argN a 1) ++
      [fldW (rtrReg t Off.RTR_WRR_W1) 0 8 (max 1 w1), fldW (rtrReg t Off.RTR_AGE_LIM) 0 16 (max 64 age)]) }
def fAdm (s : State) (a : List W) : Cmd :=
  perNi s a unitPort (regClampsAt 0 Off.NI_ADM_TO (argN a 2) + regClampsAt 0 Off.NI_RSV_CFG (argN a 3)) (fun n =>
    regFlds (niReg n Off.NI_ADM_TO) (argN a 2) ++ regFlds (niReg n Off.NI_RSV_CFG) (argN a 3))
def fMcCfg (s : State) (a : List W) : Cmd :=
  perNi s a unitPort (regClampsAt 0 Off.NI_MC_CFG (argN a 2)) (fun n => regFlds (niReg n Off.NI_MC_CFG) (argN a 2))
def fLate (s : State) (a : List W) : Cmd :=
  perNi s a (fun p => decide (p ≤ 1)) (regClampsAt 0 Off.NI_LATE_CFG (argN a 2)) (fun n =>
    regFlds (niReg n Off.NI_LATE_CFG) (argN a 2))

/-! ### Guards, the alarm (R249, R250) -/

/-- The guard that a node argument names. -/
def guardArg (s : State) (v : W) : Option Nat :=
  (nodeArg s v).map (fun n => match coreAt n with
    | some c => 448 + c
    | none => n)
def regionCount (a : List W) : Nat := clampArg 0 16 (argN a 2)
/-- PERM of region k: EN forced, PONLY zero at an NI. -/
def permArg (a : List W) (g k : Nat) : Nat :=
  let v := argN a (5 + 3 * k)
  v.fld 0 2 + 4 + (if g < 448 then 0 else 8 * v.fld 3 1)
def regionFlds (a : List W) (g : Nat) : List FldW :=
  (List.range 16).flatMap (fun k =>
    if k < regionCount a then
      [fldW (guardReg g (Off.GRD_START k)) 0 36 (argN a (3 + 3 * k)).toNat,
       fldW (guardReg g (Off.GRD_END k)) 0 36 (argN a (4 + 3 * k)).toNat, fldW (guardReg g (Off.GRD_PERM k)) 0 4 (permArg a g k)]
    else [fldW (guardReg g (Off.GRD_PERM k)) 0 4 0])
def fGrdSet (s : State) (a : List W) : Cmd :=
  match guardArg s (argN a 1) with
  | none => { bad := some 1 }
  | some g => { clamps := clamped 0 16 (argN a 2), flds := fldW (guardReg g Off.GRD_CTRL) 0 2 1 :: regionFlds a g }
def fGrdOff (s : State) (a : List W) : Cmd :=
  match guardArg s (argN a 1) with
  | none => { bad := some 1 }
  | some g => { flds := [fldW (guardReg g Off.GRD_CTRL) 0 2 0] }
def fAlarm (a : List W) : Cmd :=
  { clamps := ltClamps a 1,
    flds := regFlds (tkReg Off.TK_ALARM_H) (argN a 1) ++ regFlds (tkReg Off.TK_ALARM_L) (argN a 2) ++
      [fldW (tkReg Off.TK_ALARM_CTRL) 0 1 ((argN a 3).fld 0 1)] }

/-! ### Fanfares (R251) -/

def slotArg (v : W) : Nat := min 5 v.toNat
/-- The registers that every command with a list writes. -/
def listFlds (a : List W) (k : Nat) : List FldW :=
  regFlds (slotReg k Off.FNF_LIST) (argN a 2) ++ regFlds (slotReg k Off.FNF_LEN) (argN a 3) ++
    regFlds (slotReg k Off.FNF_LT_H) (argN a 4) ++ regFlds (slotReg k Off.FNF_LT_L) (argN a 5)
def listClamps (a : List W) (k : Nat) : Nat :=
  clamped 0 5 (argN a 1) + regClamps (slotReg k Off.FNF_LEN) (argN a 3) + ltClamps a 4
def fFnfRun (a : List W) : Cmd :=
  let k := slotArg (argN a 1)
  { clamps := listClamps a k + b2n (decide ((argN a 6).toNat ≠ 0 ∧ ((argN a 6).toNat < 1000 ∨ 1000000000 < (argN a 6).toNat))),
    flds := listFlds a k ++ [fldW (slotReg k Off.FNF_PER) 0 30 (if argN a 6 = 0 then 0 else clampArg 1000 1000000000 (argN a 6)),
      fldW (slotReg k Off.FNF_XCNT) 0 17 0] }
def fFnfStage (a : List W) : Cmd :=
  let k := slotArg (argN a 1)
  { clamps := listClamps a k,
    flds := listFlds a k ++ [fldW (slotReg k Off.FNF_PER) 0 30 0, fldW (slotReg k Off.FNF_GFID) 0 32 ((argN a 6).fld 0 32),
      fldW (slotReg k Off.FNF_XCNT) 0 17 0] }
/-- R206: participants, 1 to 16,384, and the mode of the recovery. -/
def xcntArg (v : W) : Nat := clampTo 1 16384 (v.fld 0 15) + v.fld 15 2 * 2 ^ 15
def fFnfXrun (a : List W) : Cmd :=
  let k := slotArg (argN a 1)
  { clamps := listClamps a k + b2n (decide ((argN a 8).fld 0 15 = 0 ∨ 16384 < (argN a 8).fld 0 15)),
    flds := listFlds a k ++ [fldW (slotReg k Off.FNF_PER) 0 30 0, fldW (slotReg k Off.FNF_GFID) 0 32 ((argN a 6).fld 0 32)] ++
      regFlds (slotReg k Off.FNF_XLIST) (argN a 7) ++
      [fldW (slotReg k Off.FNF_XCNT) 0 17 (xcntArg (argN a 8)), fldW (slotReg k Off.FNF_XREC) 0 32 ((argN a 9).fld 0 32)] }

/-! ### Power, self-test (R252, R253) -/

def stateArg (v : W) : Nat := min 4 v.toNat
def fPwrTile (a : List W) : Cmd :=
  let t := tileOf (argN a 1)
  { clamps := tileClamps (argN a 1) + clamped 0 4 (argN a 2), flds := [fldW (taReg t Off.PWR_TA_REQ) 0 3 (stateArg (argN a 2))] }
def fClaim (a : List W) : Cmd :=
  let t := tileOf (argN a 1)
  { clamps := tileClamps (argN a 1),
    flds := [fldW (taReg t Off.PWR_TILE_CLAIM) 0 23 ((argN a 2).fld 0 23), fldW (taReg t Off.PWR_TILE_CLAIM) 23 1 ((argN a 2).fld 23 1)] }
def fRetain (a : List W) : Cmd := { flds := [fldW (pwrReg Off.PWR_WAKE_CFG) 0 2 ((argN a 1).fld 0 2)] }
def fBistCfg (a : List W) : Cmd :=
  { clamps := clamped 100 1000000 (argN a 1) + clamped 1 90 (argN a 2),
    flds := [fldW (bstReg Off.BST_CFG) 0 20 (clampArg 100 1000000 (argN a 1)),
      fldW (bstReg Off.BST_CFG) 20 7 (clampArg 1 90 (argN a 2)), fldW (bstReg Off.BST_CFG) 27 1 ((argN a 3).fld 0 1)] }

/-! ### By opcode -/

/-- The fields that a command writes; a command that only reads, or starts an operation, writes none. -/
def cmdOf (s : State) (op : Nat) (a : List W) : Cmd :=
  match op with
  | 0x101 => fFenceSlice a
  | 0x102 => fFenceLink a
  | 0x103 => fTileService a
  | 0x104 => fUnitEnable s a
  | 0x201 => fProfile s a
  | 0x202 => fGroupSet a
  | 0x203 => fGroupClear a
  | 0x205 => fMiss s a
  | 0x206 => fPunt s a
  | 0x301 => fClsTb s a
  | 0x302 => fClsDest s a
  | 0x303 => fClsWrr a
  | 0x304 => fAdm s a
  | 0x305 => fMcCfg s a
  | 0x306 => fLate s a
  | 0x401 => fGrdSet s a
  | 0x402 => fGrdOff s a
  | 0x502 => fAlarm a
  | 0x601 => fFnfRun a
  | 0x602 => fFnfStage a
  | 0x603 => fFnfXrun a
  | 0x701 => fPwrTile a
  | 0x702 => fClaim a
  | 0x703 => fRetain a
  | 0x801 => fBistCfg a
  | _ => {}

/-- A command that writes its fields directly and answers with data. -/
def directCmd (s : State) (r : Running) (c : Cmd) (data : State → List W) : State :=
  match c.bad with
  | some i => failCmd s r Why.NONODE i false
  | none => writeCmd (noteClamps s c.clamps) r (fldWords s c.flds) data

end Sys2Proof.Machine
end

