-- ==== Sys2Proof/Machine/CmdTopo.lean ====
section
/-!
DEFINITION. The session and topology commands (R245, R246).
-/

namespace Sys2Proof.Machine

/-! ### Session (R245) -/

def sessionInfo (s : State) (r : Running) : State :=
  readCmd s r [opcReg Off.OPC_FW_STAT, idReg Off.KNL_ID, opcReg Off.OPC_IMG_BANK, mbxReg Off.MBX_SESS_STAT, opcReg Off.OPC_SCAN_STAT]
def execSessionInfo (s : State) : Res := fwCmd 0x002 sessionInfo s

/-- The words of the apply queue that CFG_STATUS shows. -/
def queueWords (s : State) : List W :=
  [W.at 0 16 s.tickLast, W.at 0 16 s.tickApplied, W.at 0 16 s.tickAborted ||| W.at 16 5 s.tickReason, W.at 0 6 (queueCount s)]
def cfgStatus (s : State) (r : Running) : State :=
  match fwReads s false [rtrReg 0 Off.RTR_MAP_EPOCH, opcReg Off.OPC_SC5_BOUND, opcReg Off.OPC_PHOLD_BOUND] with
  | (some _, _, s1) => failCmd s1 r Why.DECERR 0 false
  | (none, vs, s1) =>
    let w4 := W.at 0 16 ((wordAt vs 0).fld 0 16) ||| W.at 16 1 (b2n s1.route.isSome) |||
      W.at 17 1 (b2n (decide (wantedMap s1 ≠ installed s1)))
    okCmd s1 r (queueWords s1 ++ [w4, wordAt vs 1, wordAt vs 2]) false
def execCfgStatus (s : State) : Res := fwCmd 0x003 cfgStatus s

/-! ### Fence commands (R246) -/

/-- The command's ticket; the next route change carries it. -/
def fenceTicketOk (s : State) (r : Running) (changed : Bool) (more : List W) : State :=
  let n := nextTicket s
  runJobs (okCmd { s with tickLast := n, fenceTicket := some n } r (more ++ [natW n]) changed)
/-- ROUTE_CHANGE with the tiles that a forced fence isolates. -/
def logIsolated (s : State) (iso : Nat) : State :=
  if iso = 0 then s else logFw s EvC.ROUTE_CHANGE [natW (iso % 2 ^ 32), natW (iso / 2 ^ 32)]
/-- A fence command that changes the state to `s'` and leads to the map of `h`: refused where that isolates, unless
it is forced. -/
def fenceOr (s s' h : State) (r : Running) (force : Bool) (more : List W) : State :=
  let iso := isolatedBy h (wantedMap h)
  if iso ≠ 0 ∧ !force then failCmd s r Why.ISOLATE 0 false
  else fenceTicketOk (logIsolated s' iso) r true more

/-! #### FENCE_SLICE -/

def turnUnit (s : State) (t : Nat) : Option Nat := (s.ta t).turn.map (fun x => x.unit)
/-- A turn of the slice is abandoned, and the slice stays fenced for repair. -/
def fenceTurned (s : State) (t x : Nat) : State :=
  match (s.ta t).turn with
  | none => s
  | some y =>
    let s1 := recordAbandon s t y
    if sliceIn s t x then
      (match (s1.ta t).nar with
       | some z => addJob (giveUpNarrow s1 t z) { kind := .fence, t := t, a := x }
       | none => addJob s1 { kind := .fence, t := t, a := x })
    else modTa (setSlice s1 t x 2 3) t (fun a => dropWiden a x)
/-- The slice is out already, gated by Slim or under its re-admission test: it stays fenced. -/
def fenceOutSlice (s : State) (t x : Nat) : State :=
  let s1 := modTa (setSlice s t x 2 3) t (fun a => dropWiden a x)
  if tileState s t = TS.SLIM then setTileState s1 t TS.RUN else s1
/-- The twin is fenced: the router goes out of service. -/
def fenceBoth (s : State) (t : Nat) : State := addJob s { kind := .gateOut, t := t }
/-- The twin is gated by Slim: the tile returns to Run first. -/
def fenceUnslim (s : State) (t : Nat) : State :=
  fwPoke (dropJobs s t (fun k => decide (k = .slim))) (taReg t Off.PWR_TA_REQ) 0
def fenceJobFor (s : State) (t x : Nat) : Bool := s.jobs.any (fun j => decide (j.kind = .fence ∧ j.t = t ∧ j.a = x))

def fenceSliceOut (s : State) (r : Running) (t x : Nat) (force : Bool) : State :=
  let st := sliceState s t x
  let tw := sliceState s t (1 - x)
  if turnUnit s t = some (1 - x) then refuseCmd s r 5 t
  else if turnUnit s t = some x then fenceTicketOk (fenceTurned s t x) r true []
  else if st = 2 || fenceJobFor s t x then fenceTicketOk s r false []
  else if st = 3 || st = 4 then fenceTicketOk (fenceOutSlice s t x) r true []
  else
    let s1 := dropJobs s t (fun k => decide (k = .turnGo))
    if tw = 2 || tw = 4 || fenceJobFor s t (1 - x) then
      (if force then fenceTicketOk (logIsolated (fenceBoth s1 t) (2 ^ t ||| isolatedBy (fenceBoth s1 t) (wantedMap (fenceBoth s1 t)))) r true []
       else failCmd s r Why.ISOLATE 0 false)
    else
      let s2 := if tw = 3 || jobAt s1 t (fun k => decide (k = .slim)) then fenceUnslim s1 t else s1
      let s3 := addJob s2 { kind := .fence, t := t, a := x }
      fenceOr s s3 s3 r force []
/-- R246, R258: a narrowing that is to fence slice x for repair is given up, and the router stays at its width. -/
def endRepairNar (s : State) (t x : Nat) : State :=
  match (s.ta t).nar with
  | some n => if n.why = .repair ∧ n.sl = x then giveUpNarrow s t n else s
  | none => s
def fenceSliceIn (s : State) (r : Running) (t x : Nat) : State :=
  if tileState s t = TS.OFF then failCmd s r Why.BUSY 1 false
  else if fenceJobFor s t x && sliceIn s t x then
    let s1 : State := { s with jobs := s.jobs.filter (fun j => !decide (j.kind = .fence ∧ j.t = t ∧ j.a = x)) }
    fenceTicketOk (endRepairNar s1 t x) r true []
  else if sliceState s t x = 2 then
    fenceTicketOk (startReadmit (if tileState s t = TS.DOZE then wakeNow s t else s) t x) r true []
  else fenceTicketOk s r false []
def fenceSlice (s : State) (r : Running) : State :=
  let t := tileOf (arg r 1)
  let v := arg r 2
  let s1 := noteClamps s (fFenceSlice r.args).clamps
  if queueFull s then failCmd s1 r Why.QFULL 0 false
  else if v.bit 1 then fenceSliceOut s1 r t (v.fld 0 1) (v.bit 2)
  else fenceSliceIn s1 r t (v.fld 0 1)
def execFenceSlice (s : State) : Res := fwCmd 0x101 fenceSlice s

/-! #### FENCE_LINK -/

/-- A half of either direction is fenced: by command, by escalation, or because a slice at an end is out. -/
def halfDown (s : State) (t i h : Nat) : Bool :=
  fenceWanted s t i h || fenceWanted s (across t i) (portTo (across t i) t) h
/-- The halves of the mask bear LNK_CTRL.FENCE in both directions. -/
def fencedNow (s : State) (t i m : Nat) : Bool :=
  (linkHalves t i m).all (fun e => regBit s (slcReg e.1 e.2.2 (Off.LNK_CTRL e.2.1)) 0)
def pendLink (s : State) (t i : Nat) (b : Bool) : State :=
  setPend16 (setPend16 s t i b) (across t i) (portTo (across t i) t) b
/-- A job for the link, under either of its names. -/
def isLinkJob (t i : Nat) (k : JobKind) (j : Job) : Bool :=
  decide (j.kind = k) && (decide (j.t = t ∧ j.a = i) || decide (j.t = across t i ∧ j.a = portTo (across t i) t))
/-- The halves of mask m leave the waiting jobs of kind k; a job for the link's other half goes on. -/
def dropLinkJobs (s : State) (t i m : Nat) (k : JobKind) : State :=
  let cut := s.jobs.map (fun j => if isLinkJob t i k j then { j with b := j.b &&& (3 ^^^ m) } else j)
  { s with jobs := cut.filter (fun j => !(isLinkJob t i k j && decide (j.b = 0))) }
/-- R263: a command that names a half ends its lane repair (log entry 38). -/
def dropRepairs (s : State) (t i m : Nat) : State :=
  let gone (x : Nat × Nat × Nat) : Bool := (linkHalves t i m).contains x
  { s with repairDue := s.repairDue.filter (fun x => !gone x), repairs := s.repairs.filter (fun x => !gone x) }
/-- The halves are to be fenced: what waits to open or repair them ends. -/
def closing (s : State) (t i m : Nat) : State := dropRepairs (dropLinkJobs s t i m .linkOpen) t i m
/-- The whole link is to go: the map names it first, then its halves are fenced. -/
def cutLink (s : State) (t i m : Nat) : State :=
  addJob (pendLink (dropLinkJobs (closing s t i m) t i m .linkFence) t i true) { kind := .linkFence, t := t, a := i, b := m }
def fenceLinkOut (s : State) (r : Running) (t i m : Nat) (force : Bool) : State :=
  let down (h : Nat) : Bool := m.testBit h || halfDown s t i h
  let s1 := cutLink s t i m
  if down 0 && down 1 then
    (if (pendBits s t).testBit i then fenceTicketOk s1 r (!fencedNow s t i m) [] else fenceOr s s1 s1 r force [])
  else fenceTicketOk (writeFences (closing s t i m) t i m true) r (!fencedNow s t i m) []
/-- R256: the fenced halves are trained, and each is restored once it passes. -/
def fenceLinkIn (s : State) (r : Running) (t i m : Nat) : State :=
  let s0 := dropRepairs (dropLinkJobs s t i m .linkFence) t i m
  let hs := (linkHalves t i m).filter (heldBack s)
  if hs.isEmpty then
    (if (pendBits s t).testBit i then fenceTicketOk (pendLink s0 t i false) r true [] else fenceTicketOk s r false [])
  else
    let s1 := forEach (fun e st =>
      let a := slcReg e.1 e.2.2 (Off.LNK_CTRL e.2.1)
      fwPoke st a (natW (2 + b2n (regBit st a 0)))) hs s0
    fenceTicketOk (addJob (dropLinkJobs s1 t i m .linkOpen) { kind := .linkOpen, t := t, a := i, b := m }) r true []
def fenceLink (s : State) (r : Running) : State :=
  let t := tileOf (arg r 1)
  let i := (arg r 2).fld 0 4
  let v := arg r 3
  let m := linkHalfArg v
  if !isLink t i then failCmd s r Why.NONODE 2 false
  else
    let s1 := noteClamps s (fFenceLink r.args).clamps
    if queueFull s then failCmd s1 r Why.QFULL 0 false
    else if v.bit 2 then fenceLinkOut s1 r t i m (v.bit 3)
    else fenceLinkIn s1 r t i m
def execFenceLink (s : State) : Res := fwCmd 0x102 fenceLink s

/-! #### TILE_SERVICE -/

/-- R185: the tile holds the active Time Keeper, and no standby is ready. -/
def keepsKeeper (s : State) (t : Nat) : Bool := decide (t = 63 * activeTk s) && decide (t = 0 ∨ t = 63) && !stbyOk s
def serviceJob : JobKind → Bool
  | .turnGo => true
  | .slim => true
  | .fence => true
  | .gateOut => true
  | .off => true
  | .restore => true
  | .enable => true
  | _ => false
/-- The tile is to go out of service: by the route change its NIs are drained, then both slices are gated. -/
def takeOut (s : State) (t : Nat) (off : Bool) : State :=
  let s1 := addJob (setPend16 (dropJobs s t serviceJob) t 16 true) { kind := .gateOut, t := t }
  if off then addJob s1 { kind := .off, t := t } else s1
/-- The tile is to come back; out of Off it returns through TILE_RST. -/
def bringBack (s : State) (t tg : Nat) : State :=
  let off := decide (tileState s t = TS.OFF)
  let s1 := setPend16 (dropJobs s t serviceJob) t 16 false
  let s2 := if off then fwPoke s1 (taReg t Off.PWR_TA_REQ) (natW tg) else s1
  addJob (addJob s2 { kind := .restore, t := t, b := b2n off }) { kind := .enable, t := t }
/-- The tile back in service, for looking ahead. -/
def backAgain (s : State) (t : Nat) : State :=
  setSlice (setSlice (setPend16 (dropJobs s t serviceJob) t 16 false) t 0 0 0) t 1 0 0
def isOutNow (s : State) (t : Nat) : Bool := (pendBits s t).testBit 16 || bothOut s t
def tileService (s : State) (r : Running) : State :=
  let t := tileOf (arg r 1)
  let v := arg r 2
  let s1 := noteClamps s (fTileService r.args).clamps
  if queueFull s then failCmd s1 r Why.QFULL 0 false
  else if v.bit 0 then
    (if (pendBits s t).testBit 16 then fenceTicketOk s1 r false []
     else if keepsKeeper s t then failCmd s1 r Why.STBY 0 false
     else fenceOr s1 (takeOut s1 t false) (takeOut s1 t false) r (v.bit 1) [])
  else if isOutNow s t && !jobAt s t (fun k => decide (k = .restore)) then
    fenceOr s1 (bringBack s1 t 0) (backAgain s1 t) r (v.bit 1) []
  else fenceTicketOk s1 r false []
def execTileService (s : State) : Res := fwCmd 0x103 tileService s

/-! ### UNIT_ENABLE, TOPO_READ -/

/-- NI_STAT as a read shows it. -/
def niStat (s : State) (n : Nat) : W := viewNi s n Off.NI_STAT 0
def unitEnable (s : State) (r : Running) : State :=
  directCmd s r (fUnitEnable s r.args) (fun st => [niStat st ((nodeArg s (arg r 1)).getD 0)])
def execUnitEnable (s : State) : Res := fwCmd 0x104 unitEnable s

def topoRead (s : State) (r : Running) : State :=
  let t := tileOf (arg r 1)
  let s1 := noteClamps s (tileClamps (arg r 1))
  match fwReads s1 false [rtrReg t Off.RTR_STAT, rtrReg (mapRouter s) (Off.RTR_FMAP + t), rtrReg t Off.RTR_LOCAL_FENCE,
      rtrReg t Off.RTR_MAP_EPOCH] with
  | (some _, _, s2) => failCmd s2 r Why.DECERR 0 false
  | (none, vs, s2) => okCmd s2 r [wordAt vs 0, wordAt vs 1, natW (wantedWord s2 t), wordAt vs 2, wordAt vs 3] false
def execTopoRead (s : State) : Res := fwCmd 0x105 topoRead s

end Sys2Proof.Machine
end

