-- ==== Sys2Proof/Machine/CmdConfig.lean ====
section
/-!
DEFINITION. The commands of routes and multicast, classes and admission, guards, time and alarms (R247 to R250).
-/

namespace Sys2Proof.Machine

/-! ### Changes carried by a ticket (R243, R247) -/

/-- The words that a command's fields make of the words that are coming. -/
def comingWords (s : State) (l : List FldW) : List (Nat × List W) :=
  ((l.map (fun f => f.a)).eraseDups).map (fun a =>
    (a, [(l.filter (fun f => decide (f.a = a))).foldl (fun w f => w.put f.lo f.len f.v) (comingReg s a)]))
def ticketRegs (s : State) (r : Running) (c : Cmd) (lt : Nat) (check : Bool) : State :=
  ticketCmd (noteClamps s c.clamps) r (comingWords s c.flds) lt check

def profileSet (s : State) (r : Running) : State := ticketRegs s r (fProfile s r.args) (ltPair r.args 2) true
def execProfileSet (s : State) : Res := fwCmd 0x201 profileSet s

/-- R113: NI_MC_INV at every NI whose NI_MC_CFG.SRC is 1. -/
def invEnts (s : State) (g : Nat) : List (Nat × List W) :=
  ((List.range 448).filter (fun n => (decide (n % 7 < 5) || (decide (n % 7 = 6) && hasP6 (n / 7))) &&
    regBit s (niReg n Off.NI_MC_CFG) 0)).map (fun n => (niReg n Off.NI_MC_INV, [natW g]))
/-- The two mask words, in every diagonal tile. -/
def maskEnts (g : Nat) (lo hi : W) : List (Nat × List W) :=
  (List.range 8).flatMap (fun c => [(groupMaskAddr (9 * c) g, [lo]), (groupMaskAddr (9 * c) g + 1, [hi])])
/-- The lane words of the tiles whose lane for the group changes. -/
def laneEnts (s : State) (g : Nat) (lanes : List (Nat × Nat)) : List (Nat × List W) :=
  lanes.filterMap (fun e =>
    let w := comingGroup s (laneAddr e.1 g)
    if laneOf w g = e.2 then none else some (laneAddr e.1 g, [w.put (9 * (g % 4)) 9 e.2]))

def mcGroupSet (s : State) (r : Running) : State :=
  let g := groupArg r.args
  let lanes := (tilesOf (groupSetMask r.args)).map (fun t => (t, laneArg r.args t))
  ticketCmd (noteClamps s (fGroupSet r.args).clamps) r
    (maskEnts g (arg r 2) (W.at 0 28 ((arg r 3).fld 0 28) ||| W.at 35 1 1) ++ laneEnts s g lanes ++ invEnts s g) (ltPair r.args 20) false
def execMcGroupSet (s : State) : Res := fwCmd 0x202 mcGroupSet s

def mcGroupClear (s : State) (r : Running) : State :=
  let g := groupArg r.args
  ticketCmd (noteClamps s (fGroupClear r.args).clamps) r
    (maskEnts g 0 0 ++ laneEnts s g ((List.range 64).map (fun t => (t, 0))) ++ invEnts s g) (ltPair r.args 2) false
def execMcGroupClear (s : State) : Res := fwCmd 0x203 mcGroupClear s

/-- A word of tile memory as firmware reads it over the memory path; a poisoned word is open (log entry 4). -/
def memRead (s : State) (a : Nat) : Option W × State :=
  if tileState s ((a - tmemAddr 0 0) / 0x20000) = TS.OFF then
    (none, logFw (decodeMiss s (fwNode s) false .matrix a) EvC.OPC_DECERR [natW a])
  else match fwReadFails s a with
  | some (w, cause, x) =>
    let (v, s1) := freeW (recordFault s (448 + activeCore s) Opc.RD 0 w cause x)
    (some v, s1)
  | none =>
  if isPoison s a then
    let (w, s1) := freeW s
    (some w, s1)
  else (some (s.word a), s)
def memReads (s : State) : List Nat → Option (List W) × State
  | [] => (some [], s)
  | a :: l =>
    match memRead s a with
    | (none, s1) => (none, s1)
    | (some w, s1) => match memReads s1 l with
      | (none, s2) => (none, s2)
      | (some ws, s2) => (some (w :: ws), s2)
/-- Four lanes to a word, as arguments 4 to 19 of MC_GROUP_SET. -/
def packLanes (g : Nat) (ws : List W) : List W :=
  (List.range 16).map (fun j => (List.range 4).foldl (fun v k => v ||| W.at (9 * k) 9 (laneOf (wordAt ws (4 * j + k)) g)) 0)
def mcGroupRead (s : State) (r : Running) : State :=
  let g := groupArg r.args
  let s1 := noteClamps s (clamped 0 16383 (arg r 1))
  match memReads s1 ([groupMaskAddr 0 g, groupMaskAddr 0 g + 1] ++ (List.range 64).map (fun t => laneAddr t g)) with
  | (none, s2) => failCmd s2 r Why.DECERR 0 false
  | (some ws, s2) => okCmd s2 r (ws.take 2 ++ packLanes g (ws.drop 2)) false
def execMcGroupRead (s : State) : Res := fwCmd 0x204 mcGroupRead s

def missSet (s : State) (r : Running) : State := ticketRegs s r (fMiss s r.args) (ltPair r.args 3) false
def execMissSet (s : State) : Res := fwCmd 0x205 missSet s
def puntSet (s : State) (r : Running) : State := directCmd s r (fPunt s r.args) (fun _ => [])
def execPuntSet (s : State) : Res := fwCmd 0x206 puntSet s

/-! ### Classes and admission (R248) -/

/-- R95, R123, R248: the checks are to run again once the command has completed. -/
def askChecks (s : State) (c : Cmd) : State :=
  if c.bad.isSome then s else { s with running := s.running.map (fun r => { r with checks := true }) }
def clsTbSet (s : State) (r : Running) : State := askChecks (directCmd s r (fClsTb s r.args) (fun _ => [])) (fClsTb s r.args)
def execClsTbSet (s : State) : Res := fwCmd 0x301 clsTbSet s

/-- R20: PWR_SC5_TILES follows the masks of class 5; a change of it is one of the command (R230). -/
def rewriteSc5 (s : State) : State :=
  let ws := fldWords s (sc5Flds (if getFld s (pwrReg Off.PWR_PROFILE) 0 2 = 1 then sc5Tiles s else 0))
  let s1 := fwPokes s ws
  { s1 with running := s1.running.map (fun r => { r with changed := r.changed || wroteNew s s1 ws }) }
def clsDestSet (s : State) (r : Running) : State :=
  let c := fClsDest s r.args
  let s1 := directCmd s r c (fun _ => [])
  let s2 := if c.bad.isNone && classArg (arg r 2) = 5 then rewriteSc5 s1 else s1
  askChecks s2 c
def execClsDestSet (s : State) : Res := fwCmd 0x302 clsDestSet s
def clsWrrSet (s : State) (r : Running) : State := ticketRegs s r (fClsWrr r.args) (ltPair r.args 3) false
def execClsWrrSet (s : State) : Res := fwCmd 0x303 clsWrrSet s
def admSet (s : State) (r : Running) : State := directCmd s r (fAdm s r.args) (fun _ => [])
def execAdmSet (s : State) : Res := fwCmd 0x304 admSet s
def mcCfgSet (s : State) (r : Running) : State := directCmd s r (fMcCfg s r.args) (fun _ => [])
def execMcCfgSet (s : State) : Res := fwCmd 0x305 mcCfgSet s
def lateSet (s : State) (r : Running) : State := directCmd s r (fLate s r.args) (fun _ => [])
def execLateSet (s : State) : Res := fwCmd 0x306 lateSet s

/-- A command that reads registers of the NI that argument 1 names. -/
def niRead (s : State) (r : Running) (offs : List Nat) : State :=
  match nodeArg s (arg r 1) with
  | none => failCmd s r Why.NONODE 1 false
  | some n => readCmd s r (offs.map (niReg n))
def clsRead (s : State) (r : Running) : State :=
  niRead s r ([Off.NI_TB_SC7, Off.NI_TB_SC6, Off.NI_TB_SC5] ++ (List.range 6).map (fun j => Off.NI_DEST_SC7_LO + j) ++
    [Off.NI_ADM_TO, Off.NI_RSV_CFG, Off.NI_RSV_STAT, Off.NI_TB_LEVEL])
def execClsRead (s : State) : Res := fwCmd 0x307 clsRead s

/-! ### Guards (R175, R249) -/

def grdStat (s : State) (g : Nat) : W := viewGrd s g Off.GRD_STAT (s.reg (guardReg g Off.GRD_STAT))
/-- R175: the hold, the regions, the guard active. Overlapping regions are reported. -/
def grdSet (s : State) (r : Running) : State :=
  match guardArg s (arg r 1) with
  | none => failCmd s r Why.NONODE 1 false
  | some g =>
    let s1 := noteClamps s (fGrdSet s r.args).clamps
    let ctrl := guardReg g Off.GRD_CTRL
    let ws := [(ctrl, 2)] ++ fldWords s1 (regionFlds r.args g) ++ [(ctrl, 1)]
    match fwWrites s1 ws with
    | (some _, s2) => failCmd s2 r Why.DECERR 0 (wroteNew s1 s2 ws)
    | (none, s2) =>
      let st := grdStat s2 g
      finish s2 r (if st.bit 2 then Code.OVERLAP else Code.OK) [st] (wroteNew s1 s2 ws)
def execGrdSet (s : State) : Res := fwCmd 0x401 grdSet s
def grdOff (s : State) (r : Running) : State :=
  match guardArg s (arg r 1) with
  | none => failCmd s r Why.NONODE 1 false
  | some g => writeCmd s r [(guardReg g Off.GRD_CTRL, 0)] (fun st => [grdStat st g])
def execGrdOff (s : State) : Res := fwCmd 0x402 grdOff s
def grdRead (s : State) (r : Running) : State :=
  match guardArg s (arg r 1) with
  | none => failCmd s r Why.NONODE 1 false
  | some g => readCmd s r ([guardReg g Off.GRD_CTRL, guardReg g Off.GRD_STAT, guardReg g Off.GRD_ERR] ++
      (List.range 16).flatMap (fun k => [guardReg g (Off.GRD_START k), guardReg g (Off.GRD_END k), guardReg g (Off.GRD_PERM k)]))
def execGrdRead (s : State) : Res := fwCmd 0x403 grdRead s

/-! ### Time and alarms (R185, R250) -/

/-- The switchover that the command asks for, and its end. -/
def tkSwitchCmd (s : State) (r : Running) : State :=
  if !stbyOk s then failCmd s r Why.STBY 0 false
  else
    let s1 := askSwitch s
    let s2 := if switching s1 then switchDone s1 else s1
    okCmd s2 r [s2.reg (tkReg Off.TK_STAT)] true
def execTkSwitch (s : State) : Res := fwCmd 0x501 tkSwitchCmd s

def alarmSet (s : State) (r : Running) : State :=
  let c := fAlarm r.args
  let l := [(tkReg Off.TK_ALARM_CTRL, 0), (tkReg Off.TK_ALARM_STAT, 3)] ++ fldWords s c.flds
  if braced s then writeCmd (noteClamps s c.clamps) { r with later := [tkReg Off.TK_ALARM_STAT] } l (fun _ => [])
  else writeCmd (noteClamps s c.clamps) r l (fun st => [st.reg (tkReg Off.TK_ALARM_STAT)])
def execAlarmSet (s : State) : Res := fwCmd 0x502 alarmSet s
def alarmRead (s : State) (r : Running) : State :=
  readCmd s r [tkReg Off.TK_ALARM_H, tkReg Off.TK_ALARM_L, tkReg Off.TK_ALARM_CTRL, tkReg Off.TK_ALARM_STAT]
def execAlarmRead (s : State) : Res := fwCmd 0x503 alarmRead s

end Sys2Proof.Machine
end

