-- ==== Sys2Proof/Machine/CmdPower.lean ====
section
/-!
DEFINITION. The commands of fanfares, power and claims, self-test, update, the log and counters (R251 to R255).
-/

namespace Sys2Proof.Machine

/-! ### Fanfares (R251) -/

/-- The slot's registers, then GO or STAGE_ONLY. -/
def runSlot (s : State) (r : Running) (c : Cmd) (go : W) : State :=
  let k := slotArg (arg r 1)
  let s1 := noteClamps s c.clamps
  if slotState s k ≠ SS.IDLE then failCmd s1 r Why.BUSY 1 false
  else if !regBit s (fnfReg Off.FNF_CTRL) 0 then failCmd s1 r Why.BUSY 0 false
  else
    match fwWrites s1 (fldWords s1 c.flds ++ [(slotReg k Off.FNF_CMD, go)]) with
    | (some _, s2) => failCmd s2 r Why.DECERR 0 (wroteNew s1 s2 (fldWords s1 c.flds))
    | (none, s2) => okCmd s2 r [natW (slotFid s2 k)] true
def fnfRun (s : State) (r : Running) : State := runSlot s r (fFnfRun r.args) 1
def execFnfRun (s : State) : Res := fwCmd 0x601 fnfRun s
def fnfStage (s : State) (r : Running) : State := runSlot s r (fFnfStage r.args) 8
def execFnfStage (s : State) : Res := fwCmd 0x602 fnfStage s
def fnfXrun (s : State) (r : Running) : State := runSlot s r (fFnfXrun r.args) 1
def execFnfXrun (s : State) : Res := fwCmd 0x603 fnfXrun s

def fnfStopCmd (s : State) (r : Running) : State :=
  let k := slotArg (arg r 1)
  let s1 := noteClamps s (clamped 0 5 (arg r 1))
  if slotState s k = SS.RUNNING then okCmd (fwPoke s1 (slotReg k Off.FNF_CMD) 2) r [] true else okCmd s1 r [] false
def execFnfStop (s : State) : Res := fwCmd 0x604 fnfStopCmd s

def statWord (s : State) (k : Nat) : W := s.reg (slotReg k Off.FNF_STAT)
/-- The abort of an armed fanfare ends at the Time Keepers; the command waits for it. -/
def fnfAbortCmd (s : State) (r : Running) : State :=
  let k := slotArg (arg r 1)
  if r.begun then
    (if slotState s k ≠ SS.ARMED ∨ lastMoments s (slotFid s k) ∨ s.tkNone then
      okCmd s r [statWord s k] (decide (slotState s k = SS.ABORTED)) else s)
  else
    let s1 := noteClamps s (clamped 0 5 (arg r 1))
    let s2 := fwPoke s1 (slotReg k Off.FNF_CMD) 4
    if slotState s k = SS.ARMED && !lastMoments s (slotFid s k) then begunCmd s2 r
    else okCmd s2 r [statWord s2 k] (decide (slotState s2 k ≠ slotState s k))
def execFnfAbort (s : State) : Res := fwCmd 0x605 fnfAbortCmd s

def fnfStatus (s : State) (r : Running) : State :=
  let k := min 7 (arg r 1).toNat
  readCmd (noteClamps s (clamped 0 7 (arg r 1))) r
    ([Off.FNF_STAT, Off.FNF_LAUNCH, Off.FNF_LATE, Off.FNF_BAD, Off.FNF_LT_H, Off.FNF_LT_L].map (slotReg k))
def execFnfStatus (s : State) : Res := fwCmd 0x606 fnfStatus s

/-! ### Power and claims (R252, R292 to R294) -/

def stateWord (s : State) (t : Nat) : W := natW (shownState s t)
def dropSlim (s : State) (t : Nat) : State := dropJobs s t (fun k => decide (k = .slim))
/-- A request that the tile agent's refusers decline is recorded there (R293). -/
def refusedSet (s : State) (r : Running) (t code target : Nat) : State := refuseCmd (recordRefusal s t code target false) r code t
/-- Run, low gear or Doze permitted; a tile in Off, or on its way there, comes back. -/
def setPermit (s : State) (r : Running) (t v : Nat) : State :=
  let s1 := dropSlim s t
  let back := tileState s t = TS.OFF || (pendBits s t).testBit 16 && jobAt s t (fun k => decide (k = .off))
  if back then
    let s2 := fwPokes (bringBack s1 t v) (if tileState s t = TS.OFF then [] else [(taReg t Off.PWR_TA_REQ, natW v)])
    okCmd s2 r [stateWord s2 t] true
  else writeCmd s1 r [(taReg t Off.PWR_TA_REQ, natW v)] (fun st => [stateWord st t])
/-- PWR_REFUSE_CNT of the tile, by which a command sees that what it waits for has been refused. -/
def refuseCnt (s : State) (t : Nat) : W := s.reg (taReg t Off.PWR_REFUSE_CNT)
/-- The command has asked for Slim: it waits for the narrowing, and reports a refusal that ends it (R258, R293). -/
def slimEnd (s : State) (r : Running) (t : Nat) : State :=
  if jobAt s t (fun k => decide (k = .slim)) then s
  else match (s.ta t).slimNo with
    | some c => refuseCmd s r c t
    | none => okCmd s r [stateWord s t] true
/-- Slim: HALF is installed first; which slice is gated is open (log entry 4). -/
def setSlim (s : State) (r : Running) (t : Nat) : State :=
  let (w, s1) := freeW (dropSlim s t)
  let job (st : State) : State := runJobs (addJob st { kind := .slim, t := t, a := w.fld 0 1 })
  if sc5Tile s t then refusedSet s r t 3 2
  else if tileState s t = TS.OFF then
    let s2 := job (bringBack s1 t 0)
    okCmd s2 r [stateWord s2 t] true
  else if (s.ta t).turn.isNone && (!sliceIn s t 0 || !sliceIn s t 1) then
    writeCmd s1 r [(taReg t Off.PWR_TA_REQ, W.at 0 3 2 ||| W.at 3 1 (w.fld 0 1))] (fun st => [stateWord st t])
  else match refuser s t .slim false with
    | some c => refusedSet s r t c 2
    | none => job (begunCmd s1 { r with data := [refuseCnt s t] })
/-- The refusers of Off that stand before the route change: NI only at tiles 0 and 63. -/
def offRefuser (s : State) (t : Nat) : Option Nat :=
  if t = 0 ∨ t = 63 then some 2 else [3, 4, 5, 6, 7].find? (fun i => refuses s t .off false i)
def setOff (s : State) (r : Running) (t : Nat) : State :=
  if queueFull s then failCmd s r Why.QFULL 0 false
  else if tileState s t = TS.OFF then fenceTicketOk s r false [stateWord s t]
  else match offRefuser s t with
    | some c => refusedSet s r t c 4
    | none => fenceOr s (takeOut s t true) (takeOut s t true) r false [stateWord s t]
/-- The command waits for the end of a voltage transition (R296), and at a tile in Off for that of brace (R308). -/
def pwrTileSet (s : State) (r : Running) : State :=
  let t := tileOf (arg r 1)
  let v := stateArg (arg r 2)
  if (if v = 4 then taVtrans s t else mustWait s t false) then s
  else if r.begun then slimEnd s r t
  else
    let s1 := noteClamps s (fPwrTile r.args).clamps
    if v = 2 then setSlim s1 r t else if v = 4 then setOff s1 r t else setPermit s1 r t v
def execPwrTileSet (s : State) : Res := fwCmd 0x701 pwrTileSet s

def tileClaim (s : State) (r : Running) : State :=
  let t := tileOf (arg r 1)
  let a := taReg t Off.PWR_TILE_CLAIM
  if mustWait s t false then s
  else
    let s1 := noteClamps s (tileClamps (arg r 1))
    let s2 := fwPoke s1 a (W.at 0 24 ((arg r 2).fld 0 24))
    let res := getFld s2 a 24 2
    let owner := natW (getFld s2 a 0 23)
    if res = ClaimRes.CLAIMED then finish s2 r Code.CLAIMED [owner] false
    else if res = ClaimRes.NOTOWN then finish s2 r Code.NOTOWN [owner] false
    else okCmd s2 r [] (decide (getFld s2 a 0 24 ≠ getFld s a 0 24))
def execTileClaim (s : State) : Res := fwCmd 0x702 tileClaim s

/-- R305: the first tile that refuses, with its refuser. -/
def retainRefuser (s : State) : Option (Nat × Nat) :=
  firstSome (fun t => (refuser s t .off true).map (fun c => (t, c))) (List.range 64)
def pwrRetain (s : State) (r : Running) : State :=
  match retainRefuser s with
  | some (t, c) => refusedSet s r t c 4
  | none => okCmd { s with retain := some (W.at 0 2 ((arg r 1).fld 0 2)) } r [] true
def execPwrRetain (s : State) : Res := fwCmd 0x703 pwrRetain s

def claimShown (w : W) : W := W.at 0 23 (w.fld 0 23) ||| W.at 35 1 (w.fld 23 1)
def pwrRead (s : State) (r : Running) : State :=
  let t := tileOf (arg r 1)
  match fwReads (noteClamps s (tileClamps (arg r 1))) false
      [taReg t Off.PWR_TA_STAT, taReg t Off.PWR_REFUSE_CNT, taReg t Off.PWR_LAST_REFUSER, taReg t Off.PWR_TILE_CLAIM] with
  | (some _, _, s1) => failCmd s1 r Why.DECERR 0 false
  | (none, vs, s1) => okCmd s1 r [W.at 0 3 ((wordAt vs 0).fld 0 3), wordAt vs 1, wordAt vs 2, claimShown (wordAt vs 3)] false
def execPwrRead (s : State) : Res := fwCmd 0x704 pwrRead s

/-! ### Self-test (R253, R287) -/

def bistCfg (s : State) (r : Running) : State := directCmd s r (fBistCfg r.args) (fun _ => [])
def execBistCfg (s : State) : Res := fwCmd 0x801 bistCfg s

def bistTurn (s : State) (r : Running) : State :=
  let t := tileOf (arg r 1)
  let u := (arg r 2).fld 0 3
  let s1 := noteClamps s (tileClamps (arg r 1))
  if (s.ta t).turn.isSome then refuseCmd s1 r 5 t
  else okCmd { s1 with placed := if (t, u) ∈ s1.placed then s1.placed else s1.placed ++ [(t, u)] } r [] false
def execBistTurn (s : State) : Res := fwCmd 0x802 bistTurn s

def bistResult (s : State) (r : Running) : State :=
  let t := tileOf (arg r 1)
  let u := (arg r 2).fld 0 3
  let s1 := noteClamps s (tileClamps (arg r 1))
  if t = 63 ∧ u = 7 then
    okCmd s1 r [s1.reg (bstReg Off.BST_POST_STAT), s1.reg (bstReg Off.BST_POST_SIG), s1.reg (bstReg Off.BST_POST_COV),
      ftHi s1.postFt, ftLo s1.postFt] false
  else readCmd s1 r ([0, 1, 3, 4, 5].map (recReg t u))
def execBistResult (s : State) : Res := fwCmd 0x803 bistResult s

/-! ### Update (R235, R236, R254) -/

def activeBank (s : State) : Nat := getFld s (opcReg Off.OPC_IMG_BANK) 0 1
def pendingImg (s : State) : Bool := regBit s (opcReg Off.OPC_IMG_BANK) 1
def imgStat (s : State) : W := s.reg (opcReg Off.OPC_IMG_STAT)
/-- In loader mode the command stays RUNNING until the image has been decided. -/
def loadFirst (s : State) (r : Running) (b : Nat) : State :=
  if b ≠ 0 then failCmd s r Why.BANK 1 false
  else begunCmd { s with imgCheck := some 0 } r
def loadNext (s : State) (r : Running) (b : Nat) : State :=
  if b = activeBank s then failCmd s r Why.BANK 1 false
  else if s.imgCheck.isSome || s.imgReady.isSome || pendingImg s then failCmd s r Why.BUSY 0 false
  else if !stbyCore s then failCmd s r Why.STBY 0 false
  else if !imgFormat s b then
    let s1 := recordImg s b (standby s)
    finish s1 r Code.BADIMAGE [imgStat s1] false
  else okCmd { s with imgCheck := some b } r [imgStat s] false
def fwLoad (s : State) (r : Running) : State :=
  let b := (arg r 1).fld 0 1
  if inLoader s then (if r.begun && s.imgCheck.isSome then s else loadFirst s r b) else loadNext s r b
def execFwLoad (s : State) : Res := fwCmd 0x901 fwLoad s

/-- PENDING clears, and the standby restarts on the new bank. -/
def commitImg (s : State) : State :=
  let s1 := setBit (setBit s (opcReg Off.OPC_IMG_BANK) 1 false) (opcReg Off.OPC_FW_STAT) 27 false
  modCore s1 (standby s) (fun x => { x with rstReq := true })
def fwCommit (s : State) (r : Running) : State :=
  let s1 := if pendingImg s then commitImg s else s
  okCmd s1 r [s1.reg (opcReg Off.OPC_IMG_BANK)] (pendingImg s)
def execFwCommit (s : State) : Res := fwCmd 0x902 fwCommit s

def fwInfo (s : State) (r : Running) : State :=
  match fwReads s false [opcReg Off.OPC_FW_STAT, opcReg Off.OPC_IMG_STAT, opcReg Off.OPC_IMG_BANK, opcReg Off.OPC_KEY_STAT] with
  | (some _, _, s1) => failCmd s1 r Why.DECERR 0 false
  | (none, vs, s1) => okCmd s1 r [wordAt vs 0, wordAt vs 1, wordAt vs 2, imgWord s1 0 1, imgWord s1 1 1, wordAt vs 3] false
def execFwInfo (s : State) : Res := fwCmd 0x903 fwInfo s

/-! ### Log and counters (R255) -/

def logRead (s : State) (r : Running) : State :=
  let start := clampArg 0 4095 (arg r 1)
  let n := clampArg 1 15 (arg r 2)
  let base := tmemAddr (63 * (arg r 3).fld 0 1) 0
  let s1 := noteClamps s (clamped 0 4095 (arg r 1) + clamped 1 15 (arg r 2))
  match memReads s1 ((List.range n).flatMap (fun i => (List.range 4).map (fun j => base + ringOff ((start + i) % 4096) + j))) with
  | (none, s2) => failCmd s2 r Why.DECERR 0 false
  | (some ws, s2) => okCmd s2 r (natW (ringPos s2) :: ws) false
def execLogRead (s : State) : Res := fwCmd 0xA01 logRead s

def niCounters : List Nat :=
  (List.range 8).map Off.NI_TX_FLIT ++ (List.range 8).map Off.NI_RX_FLIT ++
    [Off.NI_FWD_CNT, Off.NI_XCLS_WAIT_CNT, Off.NI_PHOLD_CNT, Off.NI_PUNT_CNT, Off.NI_MC_MISS_CNT]
def rtrCounters : List Nat :=
  [Off.RTR_KNIGHT_CNT, Off.RTR_SWAP_CNT, Off.RTR_MC_CNT, Off.RTR_AGE_ESC_CNT, Off.RTR_SC5_HALF_CNT]
def tmemCounters : List Nat := [Off.TMEM_FOP_CNT, Off.TMEM_STC_FAIL_CNT, Off.TMEM_RES_CNT]
def cntRead (s : State) (r : Running) : State :=
  let kind := clampArg 0 2 (arg r 2)
  let s1 := noteClamps s (clamped 0 2 (arg r 2))
  let t := tileOf (arg r 1)
  if kind = 0 then niRead s1 r niCounters
  else readCmd (noteClamps s1 (tileClamps (arg r 1))) r
    (if kind = 1 then rtrCounters.map (rtrReg t) else tmemCounters.map (tmemReg t))
def execCntRead (s : State) : Res := fwCmd 0xA02 cntRead s

end Sys2Proof.Machine
end

