-- ==== Sys2Proof/Machine/ExtOps.lean ====
section
/-!
DEFINITION. The extension bridge at NI(56, 6) (R202 to R205, R212, R376): crossing messages and fanfare control
messages out as frames, inbound frames in.
-/

namespace Sys2Proof.Machine

def bridgeNi : Nat := niOf 56 6
def extEn (s : State) : Bool := regBit s (extReg Off.EXT_CTRL) 0
def seqDefault (_ : Nat) : Nat := 0

/-! ### The bytes of a frame (R34, R204, R205) -/

/-- A number in k bytes, big-endian. -/
def beBytes : Nat → Nat → List (BitVec 8)
  | 0, _ => []
  | k + 1, x => beBytes k (x / 256) ++ [BitVec.ofNat 8 x]
/-- A number in k bytes, the least significant first (R34). -/
def leBytes : Nat → Nat → List (BitVec 8)
  | 0, _ => []
  | k + 1, x => BitVec.ofNat 8 x :: leBytes k (x / 256)
def zeros (k : Nat) : List (BitVec 8) := List.replicate k 0

/-- The words of a packet in its flits: W0 to W3 of R32, the payload, padding. -/
def flitWords (p : Pkt) : List W :=
  [natW p.dst, natW p.src,
   W.at 30 6 p.opc ||| W.at 27 3 p.sc ||| W.at 25 2 p.len ||| W.at 16 9 p.cnt ||| W.at 8 8 p.tag ||| W.at 0 8 p.flg,
   p.arg] ++ (List.range (12 + 16 * p.len)).map (wordAt p.words)
def wordsNat (ws : List W) : Nat := ws.foldr (fun w acc => w.toNat + acc * 2 ^ 36) 0
def flitBytes (p : Pkt) : List (BitVec 8) := leBytes (72 * p.flits) (wordsNat (flitWords p))
/-- Flit control: the type of R31 and the poison of flit j. -/
def flitCtl (p : Pkt) (j : Nat) : BitVec 8 :=
  let ty := if p.len = 0 then 3 else if j = 0 then 0 else if j = p.len then 2 else 1
  BitVec.ofNat 8 (ty + 8 * b2n (p.poi.testBit j))

/-- The body of a control message (R205). -/
def ctlBytes (type : Nat) (m : XMsg) : List (BitVec 8) :=
  beBytes 1 type ++ beBytes 1 m.status.val ++ beBytes 4 m.gfid.toNat ++ beBytes 2 m.coord.val ++
    beBytes 5 m.ltH.toNat ++ beBytes 5 m.ltL.toNat ++ beBytes 2 m.count.val ++ beBytes 1 m.mode.val ++
    beBytes 4 m.recov.toNat ++ beBytes 5 m.applyH.toNat ++ beBytes 5 m.applyL.toNat ++ zeros 11

/-- DA or SA of an instance. -/
def macBytes (s : State) (i : Nat) : List (BitVec 8) := beBytes 6 (getFld s (extReg Off.EXT_MAC_PFX) 0 34 * 2 ^ 14 + i)
/-- A frame to an instance, without FCS: Ethernet header, the header of R204, the body. -/
def frameBytes (s : State) (dest seq : Nat) (b : FrameBody) : List (BitVec 8) :=
  let kind := match b with
    | .msg _ => 0
    | .ctl _ _ => 1
  let ctl := match b with
    | .msg p => (List.range p.flits).map (flitCtl p)
    | .ctl _ _ => []
  let body := match b with
    | .msg p => flitBytes p
    | .ctl ty m => ctlBytes ty m
  macBytes s dest ++ macBytes s (inst s) ++ beBytes 2 0x88B5 ++
    (beBytes 1 (16 + kind) ++ beBytes 1 ctl.length ++ beBytes 2 (inst s) ++ beBytes 2 dest ++ beBytes 4 seq ++ zeros 6 ++
      ctl ++ zeros (4 - ctl.length) ++ zeros 12) ++ body

/-! ### The cells of a frame (R17, R43, R202) -/

/-- Payload words from bytes, the first byte in the lowest bits (R34). -/
def byteWords (bs : List (BitVec 8)) : List W :=
  let x := bs.foldr (fun b acc => b.toNat + 256 * acc) 0
  (List.range (12 + 16 * (flitsForBytes bs.length - 1))).map (fun i => natW (x / 2 ^ (36 * i)))
/-- The head of one cell to the designated cluster at the bridge's class. -/
def cellHead (s : State) (bs : List (BitVec 8)) (first last : Bool) : Head :=
  let f := flitsForBytes bs.length
  { w0 := natW (getFld s (extReg Off.EXT_PC) 0 23), opc := BitVec.ofNat 6 Opc.CELL,
    sc := BitVec.ofNat 3 (getFld s (extReg Off.EXT_CTRL) 1 3), len := BitVec.ofNat 2 (f - 1),
    cnt := BitVec.ofNat 9 bs.length, flg := BitVec.ofNat 8 (b2n first + 2 * b2n last),
    ft := if f = 1 then 3 else 0, words := byteWords bs }
/-- A frame cut into cells, at most `fuel` of them. -/
def cellHeads (s : State) (first : Bool) : Nat → List (BitVec 8) → List Head
  | 0, _ => []
  | f + 1, bs =>
    if bs.length ≤ 256 then [cellHead s bs first true]
    else cellHead s (bs.take 256) first false :: cellHeads s false f (bs.drop 256)

/-- The next cell that waits at the bridge is presented on CPO_ of its NI, when the NI takes it. -/
def feedBridge (s : State) : State :=
  match s.xcells with
  | [] => s
  | h :: hs => if cpoTakes s bridgeNi h then acceptCell { s with xcells := hs } bridgeNi h else s

/-- One frame to an instance, with the next SEQ of the pair: its cells go to the designated cluster. -/
def sendFrame (s : State) (dest : Nat) (b : FrameBody) : State :=
  let q := Sparse.get seqDefault s.seqTx dest
  let bs := frameBytes s dest q b
  incWrap { s with seqTx := Sparse.set seqDefault s.seqTx dest ((q + 1) % 2 ^ 32),
                   frames := s.frames ++ [{ dest := dest, seq := q, body := b, bytes := bs }],
                   xcells := s.xcells ++ cellHeads s true 4 bs } (extReg Off.EXT_TX_CNT)

/-- A MSG at the bridge. The model keeps its true DST in the packet's mask on the way there. -/
def crossOut (s : State) (p : Pkt) : State :=
  if nodeInst p.mask = inst s || !extEn s then incSat s (extReg Off.EXT_DROP_CNT)
  else sendFrame s (nodeInst p.mask) (.msg { p with dst := p.mask, mask := 0, key := 0, id := 0 })

/-- The oldest MSG at the bridge, or the oldest control message of the fanfare engine, leaves as a frame. -/
def frameOut (s : State) : State :=
  match takeEject s bridgeNi (forBridge bridgeNi) with
  | some (p, s1) => crossOut s1 p
  | none => match s.xout with
    | [] => s
    | (dest, type, m) :: rest => sendFrame { s with xout := rest } dest (.ctl type m)
/-- A frame leaves, and the next cell of what has left goes to the NI. -/
def execExtMsgOut (s : State) : Res := ok (feedBridge (frameOut s))

/-- R204: what makes a frame one of this instance: VER, KIND, FLITS, DA and the destination in the header. Flit control
that does not spell one packet of FLITS flits is taken as a bad frame too (DESIGN CHOICE, log entry 40). -/
def frameOk (s : State) (f : ExtFrame) : Bool :=
  decide (f.ver.toNat = 1) && decide (f.daPfx.toNat = getFld s (extReg Off.EXT_MAC_PFX) 0 34) &&
    decide (f.daInst.val = inst s) && decide (f.dst.val = inst s) &&
    (if f.kind.toNat = 0 then
      f.ctl.isNone && decide (f.flits.toNat = f.head.lenN + 1) &&
        decide (f.head.ft.toNat = if f.head.lenN = 0 then 3 else 0) && decide (f.head.opcN = Opc.MSG) &&
        decide (f.head.w0.fld 9 14 = inst s)
     else decide (f.kind.toNat = 1) && decide (f.flits.toNat = 0) && f.ctl.isSome)

/-- How many frames of its source are missing before a frame. -/
def frameGap (s : State) (f : ExtFrame) : Nat :=
  (f.seq.toNat + 2 ^ 32 - Sparse.get seqDefault s.seqRx f.src.val) % 2 ^ 32
/-- The frame is a repeat, or older than one that has come. -/
def frameOld (s : State) (f : ExtFrame) : Bool := decide (2 ^ 31 ≤ frameGap s f)
def noteSeq (s : State) (f : ExtFrame) : State :=
  { s with seqRx := Sparse.set seqDefault s.seqRx f.src.val ((f.seq.toNat + 1) % 2 ^ 32) }
/-- An accepted frame is counted, with those that are missing before it. -/
def countFrame (s : State) (f : ExtFrame) : State :=
  incWrap (addSat (noteSeq s f) (extReg Off.EXT_LOST_CNT) (frameGap s f)) (extReg Off.EXT_RX_CNT)
/-- An accepted frame is delivered: a control message to the engine, a MSG to the fabric where EN = 1. A DST with port 7
is a decode miss (R4), recorded with WR 1, address 0 and WHERE source (DESIGN CHOICE, log entry 37). -/
def deliverFrame (s : State) (f : ExtFrame) : State :=
  match f.ctl with
  | some (type, m) => { s with xin := s.xin ++ [(type.val, m)] }
  | none =>
    if !extEn s then incSat s (extReg Off.EXT_DROP_CNT)
    else if f.head.w0.fld 0 3 = 7 then decodeMiss s (nodeOf s bridgeNi) true .source 0
    else
      stageOwn { s with nextId := s.nextId + 1 } bridgeNi
        { headPkt s.nextId f.msgSrc.toNat f.head.sc.toNat f.head with mask := f.head.w0.fld 0 23 }
/-- A frame that is neither a repeat nor older is counted and delivered; any other is discarded and counted (R212). -/
def frameIn (s : State) (f : ExtFrame) : State :=
  if frameOld s f then incSat s (extReg Off.EXT_BAD_CNT) else deliverFrame (countFrame s f) f

def execExtFrameIn (f : ExtFrame) (s : State) : Res :=
  when_ (!s.inReset && !s.postRun) s
    (bridgePublish (if frameOk s f then frameIn s f else incSat s (extReg Off.EXT_BAD_CNT)))

end Sys2Proof.Machine
end

