-- ==== Sys2Proof/Machine/FwTasks.lean ====
section
/-!
DEFINITION. The end of a command (R221, R226, R230, R240), the shadow scan (R228, R229) and the checks of the SC5
budget and the port hold (R94, R95, R106, R123, R128).
-/

namespace Sys2Proof.Machine

/-! ### The end of a command -/

/-- The queued mailboxes in execution order (R225). -/
def insertBox (s : State) (n : Nat) : List Nat → List Nat
  | [] => [n]
  | m :: ms => if stampLe (mbxStamp s n) (mbxStamp s m) && mbxStamp s n ≠ mbxStamp s m then n :: m :: ms else m :: insertBox s n ms
def queueOrder (s : State) : List Nat := (queuedBoxes s).foldl (fun l n => insertBox s n l) []
def queuedArgs (s : State) (n : Nat) (hdr : W) : List W :=
  (List.range (hdrLen hdr)).map (fun i => s.word (mbxArea (mbxCopy s n) n + 1 + i))
/-- The fields that the command in mailbox n will write. -/
def queuedFlds (s : State) (n : Nat) : List FldW :=
  match headerOf s n with
  | none => []
  | some h => if opServed s (hdrOpcode h) then (cmdOf s (hdrOpcode h) (queuedArgs s n h)).flds else []
/-- R226: some field that both write, with different values. -/
def conflicts (mine theirs : List FldW) : Bool :=
  mine.any (fun f => theirs.any (fun g => decide (f.a = g.a ∧ f.lo = g.lo ∧ f.len = g.len ∧ f.v ≠ g.v)))
/-- R226: the fields that a command has written: all of them, those whose registers come before the one that met the decode
miss that ended it, or none. -/
def wroteFlds (s : State) (r : Running) : List FldW :=
  let fs := (cmdOf s (hdrOpcode r.hdr) r.args).flds
  match r.stop with
  | some a =>
    let before := ((fs.map (fun f => f.a)).eraseDups).takeWhile (fun x => decide (x ≠ a))
    fs.filter (fun f => before.contains f.a)
  | none => if r.code = Code.OK ∨ r.code = Code.OVERLAP then fs else []
/-- The first queued command that supersedes the completing one. -/
def supersededBy (s : State) (r : Running) : Option Nat :=
  (queueOrder s).find? (fun n => conflicts (wroteFlds s r) (queuedFlds s n))
def supersededBits : Option Nat → Nat
  | none => 0
  | some n => 2 ^ 8 + n * 2 ^ 9
/-- R305: the response of PWR_RETAIN begins the entry. -/
def beginRetain (s : State) : State :=
  match s.retain with
  | none => s
  | some w => fwPoke (setFld { s with retain := none } (pwrReg Off.PWR_STAT) 0 2 1) (pwrReg Off.PWR_WAKE_CFG) w
/-- The mark, the epoch, the response and DONE. A session reset that waits suppresses the response (R231); a decode miss
of firmware makes the command FAILED (R216). -/
def complete (s : State) (r : Running) : State :=
  let by_ := supersededBy s r
  let s1 := if by_.isSome then fwCount s (opcReg Off.OPC_SUPER_CNT) else s
  let s2 := if r.changed then fwCount s1 (opcReg Off.OPC_CFG_EPOCH) else s1
  let s3 : State := { s2 with running := none, checkDue := s2.checkDue || r.checks }
  let (code, data) := if r.stop.isSome then (Code.FAILED, [natW Why.DECERR, 0])
    else (r.code, r.data ++ r.later.map s3.reg)
  noteQuiet (beginRetain (if s.session.isSome || (waitingReset s).isSome then s3
    else finishBox (postResponse s3 r.copy r.mbx r.hdr code (supersededBits by_) data) r.mbx r.hdr))
/-- Writes of firmware that brace holds delay the completion (R308). -/
def writesHeld (s : State) : Bool := s.heldWrites.any (fun h => decide (h.node = fwNode s))
def execCommandComplete (s : State) : Res :=
  match s.running with
  | none => ok s
  | some r => when_ (fwAlive s && r.done && !writesHeld s) s (complete s r)

def badop (s : State) (r : Running) : State :=
  let op := hdrOpcode r.hdr
  if !opServed s op && !(fwMode s = 3) then
    finish s r (if knownOp op then Code.NOTREADY else if inLoader s || !(opGroup op ∈ [0, 8, 9, 10]) then Code.NOTREADY else Code.BADOP) [] false
  else if !knownOp op then finish s r Code.BADOP [] false
  else s
def execBadop (s : State) : Res :=
  match s.running with
  | none => ok s
  | some r => when_ (fwAlive s && !r.done) s (badop s r)

/-! ### The shadow scan (R228, R229) -/

/-- R402: the number of shadowed registers. -/
def shadowCount : Nat := 53847
/-- The words that the running command writes. -/
def runningAddrs (s : State) : List Nat :=
  match s.running with
  | none => []
  | some r => (cmdOf s (hdrOpcode r.hdr) r.args).flds.map (fun f => f.a)
def openSlot (s : State) (k : Nat) : Bool :=
  let st := slotState s k
  decide (st = SS.STAGING ∨ st = SS.XWAIT ∨ st = SS.ARMED ∨ st = SS.RUNNING)
def inEntry (s : State) (a : Nat) : Bool :=
  (List.range 8).any (fun k => openSlot s k && (s.slot k).ents.any (fun e => decide (e.addr ≤ a ∧ a < e.addr + e.data.length)))
def clampedLt (s : State) (a : Nat) : Bool :=
  (List.range 8).any (fun k => regBit s (slotReg k Off.FNF_STAT) 28 && decide (a = slotReg k Off.FNF_LT_H ∨ a = slotReg k Off.FNF_LT_L))
def scanSkips (s : State) (cmd : List Nat) (a : Nat) : Bool :=
  !shadowed a || (target s a).isNone || s.heldWrites.any (fun h => decide (h.addr = a ∧ h.node = fwNode s)) || cmd.contains a || inEntry s a || clampedLt s a
/-- R229: triggers of the checks of R95 and R123 among shadowed registers. -/
def checkTrigger (a : Nat) : Bool :=
  match regAt a with
  | some (.rtr _, o, _) => decide (Off.RTR_FMAP ≤ o)
  | _ => decide (a = pwrReg Off.PWR_PROFILE)
def adopt (a : Nat) (s0 : State) : State :=
  let old := shadowOf s0 a
  let (now, s) := (fwTrapped s0 a).getD (s0.reg a, s0)
  if now = old then s
  else
    let s1 := fwCount (fwCount (setShadow s a now) (opcReg Off.OPC_CFG_EPOCH)) (opcReg Off.OPC_SHADOW_CNT)
    let s2 := coreKeeps (if checkTrigger a then { s1 with checkDue := true } else s1) (activeCore s) (opcReg Off.OPC_SHADOW_LAST) (natW a)
    logFw s2 EvC.SHADOW_DIVERGE [natW a, old, now]
/-- The registers that a scan reads. While no guard checks the active core, only those count that can differ from their
shadows: registers and shadows that differ from their reset values. -/
def scanAddrs (s : State) : List Nat :=
  if grdActive s (448 + activeCore s) then (List.range 0x10B0000).map (fun i => 0xF00000000 + i)
  else s.regs.map (fun e => e.1) ++ (s.shadows.map (fun e => e.1)).filter (fun a => !(s.regs.any (fun e => decide (e.1 = a))))
/-- One scan; how long it took, up to 400 µs, is open (log entry 4). -/
def shadowScan (s : State) : State :=
  let cmd := runningAddrs s
  let s1 := forEach adopt ((scanAddrs s).filter (fun a => !scanSkips s cmd a)) s
  let (w, s2) := freeW s1
  coreKeeps s2 (activeCore s) (opcReg Off.OPC_SCAN_STAT) (W.at 0 16 shadowCount ||| W.at 16 16 (w.toNat % 401))
def execShadowScan (s : State) : Res := when_ (fwAlive s && decide (2 ≤ fwMode s) && !handingOver s) s (shadowScan s)

/-! ### The budget checks (R94, R95, R123) -/

/-- An output of a router: a network port, or 16 for its local outputs. -/
abbrev Point := Nat × Nat
/-- The nodes of the ordered route of a pair of tiles, and its output points; none where no path fits. -/
def pairPath (s : State) (a b : Nat) : Option (List Nat) :=
  if a = b then some [] else (bestPath s a 0 b).map (fun p => p.nodes)
def pointsOf (a b : Nat) : List Nat → List Point
  | [] => [(b, 16)]
  | x :: xs => (a, portTo a x) :: pointsOf x b xs
def wiresOf (a : Nat) : List Nat → List Nat
  | [] => []
  | x :: xs => wireLat a x :: wiresOf x xs
/-- The points that the declared traffic of an NI can cross in a class. -/
def crossed (s : State) (n k : Nat) : List Point :=
  (tilesOf (destOf s n k)).flatMap (fun b => (pairPath s (n / 7) b).elim [] (pointsOf (n / 7) b))
/-- An NI and class with its declared points, its bucket's rate and its share of a 96-fc window. -/
structure Load where
  pts : List Point
  rate : Nat
  flits : Nat
def loadOf (s : State) (n k : Nat) : Load :=
  let w := s.reg (niReg n (Off.NI_TB_SC7 + (7 - k)))
  { pts := crossed s n k, rate := w.fld 0 11, flits := w.fld 12 11 + ceilDiv (w.fld 0 11 * 96) 1024 }
/-- R123 sums over every NI; an NI without a populated unit declares nothing, which R20 says of SC5 (DESIGN CHOICE, log
entry 39). -/
def loads (s : State) (ks : List Nat) : List Load := (popNis s unitPort).flatMap (fun n => ks.map (fun k => loadOf s n k))
def sumAt (ls : List Load) (f : Load → Nat) (p : Point) : Nat := ((ls.filter (fun l => l.pts.contains p)).map f).foldl (· + ·) 0
def sumL (l : List Nat) : Nat := l.foldl (· + ·) 0
/-- base + Σ(3 + w) + Σ(7 + S) of a pair. -/
def boundOf (s : State) (ls : List Load) (base a b : Nat) : Option (Nat × List Point) :=
  (pairPath s a b).map (fun p =>
    let pts := pointsOf a b p
    (base + sumL ((wiresOf a p).map (fun w => 3 + w)) + sumL (pts.map (fun q => 7 + sumAt ls (fun l => l.flits) q)), pts))
/-- The worst of the pairs, the first where several tie, and whether every pair passes. -/
structure Worst where
  t : Nat := 0
  src : Nat := 0
  dst : Nat := 0
  all : Bool := true
  any : Bool := false
def worse (w : Worst) (v : Nat × Nat × Nat) (pass : Bool) : Worst :=
  if w.any && v.1 ≤ w.t then { w with all := w.all && pass } else { t := v.1, src := v.2.1, dst := v.2.2, all := w.all && pass, any := true }
/-- R95: at every output the counted rates leave half of its flits. -/
def ratesFit (ls : List Load) : Bool :=
  (ls.flatMap (fun l => l.pts)).eraseDups.all (fun p => decide (sumAt ls (fun l => l.rate) p ≤ 512))
/-- R95: every declared pair against the bound, and the share of every output. R95 says nothing of a declared pair for
which no path fits; it does not count here (DESIGN CHOICE, log entry 39). -/
def sc5Worst (s : State) : Worst :=
  let ls := loads s [5, 6, 7]
  (declaring s).foldl (fun w n => (tilesOf (destOf s n 5)).foldl (fun w t =>
    match boundOf s ls 11 (n / 7) t with
    | none => w
    | some (x, _) => worse w (x, nodeOf s n, nodeTP s t 0) (decide (x ≤ 96))) w) { all := ratesFit ls }
/-- R123: every populated NI at p0 with its NI_PHOLD_DST, of which the tile alone counts, whatever the instance. A pair
for which no path fits counts neither in WORST nor in PASS (DESIGN CHOICE, log entry 39). -/
def pholdWorst (s : State) : Worst :=
  let ls := loads s [6, 7]
  (popNis s (fun p => decide (p = 0))).foldl (fun w n =>
    let d := nodeTile (getFld s (niReg n Off.NI_PHOLD_DST) 0 23)
    match boundOf s ls 9 (n / 7) d with
    | none => w
    | some (x, _) => worse w (x, n / 7, d) (decide (x ≤ 96))) {}
/-- With no declared pair there is no worst one: its nodes are open (log entry 4). A bound above 4,095 fc does not fit
WORST, of which R106 says no more; it is written as 4,095 (DESIGN CHOICE, log entry 39). -/
def budgetCheck (s : State) : State :=
  let a := sc5Worst s
  let b := pholdWorst s
  let (w, s0) := freeW { s with checkDue := false }
  let bound := W.at 0 12 (min a.t 4095) ||| W.at 12 1 (b2n a.all)
  let s1 := fwPokes s0 [(opcReg Off.OPC_SC5_BOUND, bound),
    (opcReg Off.OPC_SC5_WORST_SRC, if a.any then natW a.src else W.at 0 23 (w.fld 0 23)),
    (opcReg Off.OPC_SC5_WORST_DST, if a.any then natW a.dst else W.at 0 23 (w.fld 13 23)),
    (opcReg Off.OPC_PHOLD_BOUND, W.at 0 12 (min b.t 4095) ||| W.at 12 1 (b2n b.all) ||| W.at 13 6 b.src)]
  logFw s1 EvC.SC5_BOUND [bound]
def execBudgetCheck (s : State) : Res := when_ (fwAlive s && decide (2 ≤ fwMode s) && s.checkDue) s (budgetCheck s)

end Sys2Proof.Machine
end

