-- ==== Sys2Proof/Machine/FwPower.lean ====
section
/-!
DEFINITION. The schedulers of turns (R281, R282, R285) and the stale units, entry to Retention (R305) and the wake
from it (R306, R218).
-/

namespace Sys2Proof.Machine

/-! ### The schedulers (R281, R282) -/

/-- Unit u of tile t is covered in the current pass, or needs no test. -/
def coverage (s : State) (t u : Nat) : Nat := (s.reg (recReg t u 3)).fld 0 12
def partsOf (u : Nat) : Nat := if u < 2 then 12 else 4
def covered (s : State) (t u : Nat) : Bool := decide (coverage s t u = 2 ^ partsOf u - 1)
/-- The first part that has not passed in this pass; part 0 for a unit that has passed them all. -/
def nextPart (s : State) (t u : Nat) : Nat := ((List.range (partsOf u)).find? (fun p => !(coverage s t u).testBit p)).getD 0
/-- R284, R285: fenced for repair, or of a tile without a standby bank. -/
def unitOut (s : State) (t u : Nat) : Bool :=
  if u < 2 then decide (sliceState s t u = 2) else regBit s (tmemReg t Off.TMEM_BANK_MAP) 3
def unitDone (s : State) (t u : Nat) : Bool := unitOut s t u || covered s t u

def excluded (s : State) (t : Nat) : Bool :=
  if t < 32 then regBit s (bstReg Off.BST_EXCL_LO) t else regBit s (bstReg Off.BST_EXCL_HI) (t - 32)
/-- Firmware has work at the tile that concerns its slices. -/
def tileWork (s : State) (t : Nat) : Bool :=
  jobAt s t (fun k => decide (k ≠ .linkFence ∧ k ≠ .linkOpen ∧ k ≠ .enable))
/-- R281, apart from IDLE and MIDLE. Firmware begins no turn at a tile while an earlier job of its own that concerns the
tile's slices is unfinished, which R281 does not list (DESIGN CHOICE, log entry 42). -/
def tileEligible (s : State) (t : Nat) : Bool :=
  decide (shownState s t = TS.RUN) && !excluded s t && sliceIn s t 0 && sliceIn s t 1 && agentIdle s t &&
    !repairing s t && !braced s && !tileWork s t
def eligible (s : State) (t u : Nat) : Bool :=
  tileEligible s t &&
    (if u < 2 then regBit s (taReg t Off.BST_TA_LOAD) 14
     else
       let stby := getFld s (tmemReg t Off.TMEM_BANK_MAP) 0 3
       regBit s (taReg t Off.BST_TA_LOAD) 15 && (s.tmc t).mig.isNone && !unitOut s t u && decide (stby = 6 ∨ stby = u - 2))

/-- The units of a scheduler in the order of its pointer: 128 slices or 384 banks. -/
def unitAt (bank : Bool) (p : Nat) : Nat × Nat := if bank then (p / 6, 2 + p % 6) else (p / 2, p % 2)
def unitCount (bank : Bool) : Nat := if bank then 384 else 128
def unitPtr (s : State) (bank : Bool) : Nat := if bank then s.bankPtr else s.slicePtr
def setPtr (s : State) (bank : Bool) (p : Nat) : State := if bank then { s with bankPtr := p } else { s with slicePtr := p }
/-- The units from position p on, once round. -/
def unitsFrom (bank : Bool) (p : Nat) : List (Nat × Nat) :=
  (List.range (unitCount bank)).map (fun i => unitAt bank ((p + i) % unitCount bank))
def isBankUnit (x : Nat × Nat) : Bool := decide (2 ≤ x.2)

/-- R282: a pass ends: its coverage starts anew, and it is counted. -/
def endPass (s : State) (bank : Bool) : State :=
  let s1 := forEach (fun x st => st.setReg (recReg x.1 x.2 3) 0) (unitsFrom bank 0) s
  let s2 : State := { s1 with staleLogged := s1.staleLogged.filter (fun x => decide (isBankUnit x ≠ bank)) }
  incFld s2 (bstReg Off.BST_PASS_CNT) (if bank then 18 else 0) 18
/-- The pointer moves past units that have passed; where none is left the pass ends, and the pointer moves on into the
next one. -/
def settlePtr (s : State) (bank : Bool) : State :=
  let n := unitCount bank
  let p := unitPtr s bank
  match (List.range n).find? (fun i => !unitDone s (unitAt bank ((p + i) % n)).1 (unitAt bank ((p + i) % n)).2) with
  | some i => setPtr s bank ((p + i) % n)
  | none =>
    let next := (List.range n).find? (fun i => !unitOut s (unitAt bank ((p + 1 + i) % n)).1 (unitAt bank ((p + 1 + i) % n)).2)
    setPtr (endPass s bank) bank ((p + (next.map (· + 1)).getD 0) % n)

/-- The spare entries of bank b, each with its number. -/
def bankSpares (s : State) (t b : Nat) : List W :=
  (List.range 64).filterMap (fun k =>
    let w := s.reg (tmemReg t (Off.TMEM_SPARE k))
    if w.bit 10 && decide (w.fld 0 3 = b) then some (W.at 0 11 (w.fld 0 11) ||| W.at 11 6 k) else none)
/-- R285 step 1. -/
def beginSession (s : State) (t b : Nat) : State :=
  startMig (modTmc s t (fun m => { m with leftOut := bankSpares s t b, session := true })) t { bank := true, b := b }
/-- R285 step 3: a bank whose four parts have passed is migrated back. -/
def sessionOver (s : State) (t : Nat) : Bool :=
  let w := s.reg (tmemReg t Off.TMEM_BANK_MAP)
  decide (w.fld 0 3 ≤ 5) && !w.bit 3 && covered s t (2 + w.fld 0 3) && (s.ta t).turn.isNone && (s.tmc t).mig.isNone &&
    !(s.placed.contains (t, 2 + w.fld 0 3))
def endSession (t : Nat) (s : State) : State :=
  if sessionOver s t then startMig s t { bank := true, b := getFld s (tmemReg t Off.TMEM_BANK_MAP) 0 3, back := true } else s

/-- The unit is dropped from those that BIST_TURN has named. -/
def unplace (s : State) (x : Nat × Nat) : State := { s with placed := s.placed.filter (fun y => decide (y ≠ x)) }
/-- A unit's next part: for a slice the work of R283, for a bank the session of R285 or GO. -/
def startUnit (s : State) (x : Nat × Nat) : State :=
  let part := nextPart s x.1 x.2
  if x.2 < 2 then runJobs (addJob (unplace s x) { kind := .turnGo, t := x.1, a := x.2, b := part })
  else if getFld s (tmemReg x.1 Off.TMEM_BANK_MAP) 0 3 = 6 then beginSession s x.1 (x.2 - 2)
  else fwPoke (unplace s x) (taReg x.1 Off.BST_TA_CTRL) (goWord x.2 part)
/-- One scheduler's tick: a unit named by BIST_TURN first, then the pointer's, then the first eligible one after it. -/
def tickUnits (bank : Bool) (s : State) : State :=
  match s.placed.find? (fun x => decide (isBankUnit x = bank) && eligible s x.1 x.2) with
  | some x => startUnit s x
  | none =>
    let s1 := settlePtr s bank
    let units := unitsFrom bank (unitPtr s1 bank)
    let open_ (x : Nat × Nat) : Bool := !unitDone s1 x.1 x.2 && eligible s1 x.1 x.2
    let x0 := unitAt bank (unitPtr s1 bank)
    if open_ x0 then startUnit s1 x0
    else
      let s2 := incWrap s1 (bstReg Off.BST_SKIP_CNT)
      match units.find? open_ with
      | some x => startUnit s2 x
      | none => s2
def turnTickOp (s : State) : State :=
  tickUnits true (tickUnits false (forEach endSession (List.range 64) (runJobs (catchUp s))))
/-- R282: the night hours of Profile E. -/
def nightNow (s : State) : Bool :=
  decide (getFld s (pwrReg Off.PWR_PROFILE) 0 2 = 2) && regBit s (bstReg Off.BST_CFG) 27 &&
    decide ((ftNow s / ftSec % 86400 + 86400 - getFld s (bstReg Off.BST_NIGHT) 0 17) % 86400 < getFld s (bstReg Off.BST_NIGHT) 17 17)
/-- R282: the interval between ticks, in fc: BST_CFG.INTV, halved by night. -/
def tickGap (s : State) : Nat :=
  let d := 2400 * getFld s (bstReg Off.BST_CFG) 0 20
  if nightNow s then d / 2 else d
def tickDue (s : State) : Bool :=
  match s.turnFc with
  | none => true
  | some f => decide (f + tickGap s ≤ s.fc)
/-- At most one tick in an interval. -/
def execTurnTick (s : State) : Res :=
  when_ (fwNormal s && tickDue s) s (turnTickOp { s with turnFc := some s.fc })

/-- R282: the unit has not passed a turn for BST_STALE seconds. -/
def isStale (s : State) (t u : Nat) : Bool :=
  decide (Sparse.get (fun _ => s.postFt) s.lastPass (8 * t + u) + getFld s (bstReg Off.BST_STALE) 0 16 * ftSec ≤ ftNow s) &&
    !(s.staleLogged.contains (t, u)) && !unitOut s t u
def staleOp (s : State) (t u : Nat) : State :=
  let s1 := logFw { s with staleLogged := s.staleLogged ++ [(t, u)] } EvC.TEST_STALE []
  if tileState s t = TS.DOZE then wakeTile s1 t WakeBy.OTHER else s1
def execTestStale (t : Fin 64) (u : Fin 8) (s : State) : Res := when_ (fwNormal s && isStale s t u) s (staleOp s t u)

/-! ### Entry to Retention (R305) -/

/-- The NIs of both cores are disabled after the save. -/
def coreNisOff (s : State) : State :=
  forEach (fun n st => fwPoke st (niReg n Off.NI_CTRL) ((st.reg (niReg n Off.NI_CTRL)).put 0 1 0)) [6, 447] s
/-- The cores lose what they hold; the halt pins keep their levels. -/
def coresOff (s : State) : State :=
  modCore (modCore s 0 (fun x => { haltReq := x.haltReq })) 1 (fun x => { haltReq := x.haltReq })
def enterRetention (s : State) : State :=
  let s1 := forEach (fun t st => saveNiRegs st t) ((List.range 64).filter (fun t => decide (tileState s t ≠ TS.OFF))) s
  let s2 := coresOff (coreNisOff (saveGlobals s1))
  let s3 := forEach (fun t st => if tileState st t = TS.OFF then st else enterOff st t) (List.range 64) s2
  setTk (setFld s3 (pwrReg Off.PWR_STAT) 0 2 2) 4 true
/-- Always-on writes wait for the end of brace (R308), and the request for the end of a voltage transition (R296). -/
def execRetentionEntry (s : State) : Res :=
  when_ (decide (fstate s = 1) && !braced s && (List.range 64).all (fun t => !taVtrans s t)) s (enterRetention s)

/-! ### Wake from Retention (R306) -/

/-- Blocks of the always-on domain (R132). -/
def keptInRetention (a : Nat) : Bool :=
  match blockOf a with
  | some (.tk, _) => true
  | some (.pwr, _) => true
  | _ => false
/-- A register of a tile. -/
def ofTile (a : Nat) : Bool :=
  match blockOf a with
  | some (b, _) => (blockTile b).isSome
  | none => false
def isTaReq (a : Nat) : Bool :=
  match blockOf a with
  | some (.ta _, o) => decide (o = Off.PWR_TA_REQ)
  | _ => false
/-- The control matrix comes back from reset, with the words of R304; the event log begins anew. -/
def wakeGlobals (s : State) : State :=
  let s1 := resetRegs s (fun a => !keptInRetention a && !ofTile a)
  let s2 : State :=
    { s1 with slots := [], launches := [], fwLater := [], stageQ := [], losts := [], aborts := [], evq := [], evLost := 0,
              running := none, session := none, hdrs := [], route := none, rstReq := [], heldResets := [], posted := [],
              tickets := s1.tickets.map (fun k => { k with slot := none, land := none }) }
  forEach (fun t st => tileResetOff st t) (List.range 64) (setTk (restoreGlobals s2) 4 false)
/-- Core 0 starts, and core 1 once core 0 runs on oc (R218); firmware is in normal mode on the bank that OPC_IMG_BANK
names. -/
def wakeCores (s : State) : State :=
  let s1 := setRun (modCore (setBit (loadKeys s) (opcReg Off.OPC_KEY_STAT) 5 true) 0 (fun x => { x with hbFt := ftNow s })) 0 true
  let s2 : State := { writeClk s1 0 1 with c1Wait := true }
  let a := opcReg Off.OPC_FW_STAT
  setPort (setFld (setFld s2 a 0 24 (imgVersion s2 (activeBank s2))) a 24 2 3) 0
/-- Firmware rewrites its FW shadows. PWR_TA_REQ and the always-on blocks kept theirs. -/
def rewriteShadows (s : State) : State :=
  forEach (fun e st => if keptInRetention e.1 || isTaReq e.1 then st else st.setReg e.1 e.2) s.shadows s
/-- R268: what the test of each slice found. -/
def wakeSlice (bad : List (Nat × Nat)) (x : Nat × Nat) (s : State) : State :=
  if tileState s x.1 = TS.OFF then s
  else if bad.contains x then
    logFw (setSlice s x.1 x.2 2 (getFld s (slcReg x.1 x.2 Off.SLC_STAT) 3 4)) EvC.READMIT_FAIL []
  else incWrap (setSlice s x.1 x.2 0 0) (slcReg x.1 x.2 Off.SLC_READMIT_CNT)
/-- The retained map with the slices that failed. -/
def wakeWord (s : State) (w : W) (t : Nat) : W :=
  if tileState s t = TS.OFF then w
  else if bothOut s t then w.put 16 2 1
  else w.put 17 1 (b2n (!sliceIn s t 0 || !sliceIn s t 1 || decide (taTarget s t = 2)))
def wakeMap (s : State) : State :=
  let m := (List.range 64).map (fun t => wakeWord s (s.reg (retReg (0x40 + t))) t)
  let e := W.at 0 16 ((s.reg (retReg 0x1B)).fld 0 16 + 1)
  let put (a : Nat) (v : W) (st : State) : State := setShadow (st.setReg a v) a v
  forEach (fun r st =>
    put (rtrReg r Off.RTR_MAP_EPOCH) e (forEach (fun p x => put (rtrReg r (Off.RTR_FMAP + p.1)) p.2 x) ((List.range 64).zip m) st))
    ((List.range 64).filter (fun t => decide (tileState s t ≠ TS.OFF))) s
/-- R292: a tile whose TARGET still asks for Slim goes there again, and one that the installed map shows OUT and whose
TARGET asks for Off (DESIGN CHOICE, log entry 41). -/
def wakeTarget (t : Nat) (s : State) : State :=
  if tileState s t = TS.RUN && decide (taTarget s t = 2) then requestSlim s t (getFld s (taReg t Off.PWR_TA_REQ) 3 1)
  else if decide (taTarget s t = 4) && mapOut s t t then enterOff s t
  else s
def wakeFabric (s : State) (bad : List (Nat × Nat)) : State :=
  let s1 := wakeCores (wakeGlobals s)
  let s2 := logFw s1 EvC.WAKE []
  let s3 := rewriteShadows s2
  let s4 := forEach (fun t st => if tileState st t = TS.OFF then st else restoreNiRegs st t) (List.range 64) s3
  let s5 := forEach (wakeSlice bad) (unitsFrom false 0) s4
  let s6 := forEach (fun t st => if tileState st t = TS.OFF then st else emptyPorts (retrain st t) t) (List.range 64) s5
  let s7 := forEach wakeTarget (List.range 64) (wakeMap s6)
  let s8 := setBit (zeroWords (zeroWords s7 (mbxArea 0 0) 0x2000) (mbxArea 1 0) 0x2000) (mbxReg Off.MBX_AVAIL) 0 true
  bridgePublish <| noteSc5 { setFld s8 (pwrReg Off.PWR_STAT) 0 2 0 with checkDue := true }
/-- The operands name the slices that fail the test of R268. -/
def execRetentionWake (bad : List (Fin 64 × Fin 2)) (s : State) : Res :=
  when_ (decide (fstate s = 3)) s (wakeFabric s (bad.map (fun x => (x.1.val, x.2.val))))

end Sys2Proof.Machine
end

