-- ==== Sys2Proof/Machine/Post.lean ====
section
/-!
DEFINITION. Power-on self-test (R275 to R279): what it finds, how its results are folded and compared, and
how the fabric starts on them.
-/

namespace Sys2Proof.Machine

/-! ### The run (R276) -/

/-- A signature that differs from its golden value. -/
def badSigs (sigs : List (Fin 64 × Fin 2 × Fin 12 × W)) : List (Nat × Nat × Nat × W) :=
  (sigs.filter (fun g => decide (g.2.2.2 ≠ Config.goldenPost g.2.2.1.val))).map
    (fun g => (g.1.val, g.2.1.val, g.2.2.1.val, g.2.2.2))
/-- March C- overwrites every memory; the results wait for the comparison (log entry 5). -/
def execPost (memRes : List W) (sigs : List (Fin 64 × Fin 2 × Fin 12 × W)) (rows : List (Fin 64 × Fin 6 × Fin 128))
    (holdFault tmemFault sramFault : Bool) (durUs : BitVec 16) (s : State) : Res :=
  when_ (!s.inReset && s.postRun && s.postRes.isNone && !s.scanOn) s
    { s with mem := [], poison := [],
             postRes := some
               { memRes := memRes, bad := badSigs sigs, rows := rows.map (fun r => (r.1.val, r.2.1.val, r.2.2.val)),
                 hold := holdFault, tmem := tmemFault, sram := sramFault, dur := durUs.toNat } }

/-! ### The fold (R279) -/

def rotl36 (w : W) : W := BitVec.rotateLeft w 1
def foldSig (acc v : W) : W := rotl36 acc ^^^ v
/-- The parts 0 to 7 of the slices in the order of the fold: S0 of tiles 0 to 63, then S1. -/
def sigOrder : List (Nat × Nat × Nat) :=
  [0, 1].flatMap (fun sl => (List.range 64).flatMap (fun t => (List.range 8).map (fun p => (t, sl, p))))
def sigOf (r : PostRes) (k : Nat × Nat × Nat) : W :=
  ((r.bad.find? (fun b => decide ((b.1, b.2.1, b.2.2.1) = k))).map (fun b => b.2.2.2)).getD (Config.goldenPost k.2.2)
def postSig (r : PostRes) : W := (r.memRes ++ sigOrder.map (sigOf r)).foldl foldSig 0
def postRef : W := (Config.goldenPostMem ++ sigOrder.map (fun k => Config.goldenPost k.2.2)).foldl foldSig 0

/-! ### Rows repaired (R276) -/

def spareFor (s : State) (t : Nat) : Option Nat :=
  (List.range 64).find? (fun k => !regBit s (tmemReg t (Off.TMEM_SPARE k)) 10)
/-- The row gets the lowest unused spare of its tile; without one it is beyond repair. -/
def spareRow (r : Nat × Nat × Nat) (x : State × Nat × Bool) : State × Nat × Bool :=
  match spareFor x.1 r.1 with
  | some k => (x.1.setReg (tmemReg r.1 (Off.TMEM_SPARE k)) (W.at 0 3 r.2.1 ||| W.at 3 7 r.2.2 ||| W.at 10 1 1), x.2.1 + 1, x.2.2)
  | none => (x.1, x.2.1, true)

/-! ### The decision (R278) -/

/-- The slices that have failed parts, and the first failing part in the order of the fold. -/
def badSlices (r : PostRes) : List (Nat × Nat) := (r.bad.map (fun b => (b.1, b.2.1))).eraseDups
def firstBad (r : PostRes) : Option (Nat × Nat × Nat) :=
  firstSome (fun sl => firstSome (fun t => firstSome (fun p =>
    if r.bad.any (fun b => decide ((b.1, b.2.1, b.2.2.1) = (t, sl, p))) then some (t, sl, p) else none)
      (List.range 12)) (List.range 64)) [0, 1]

/-- A slice is fenced before traffic begins: its router starts half-width, with narrow links. -/
def startHalf (s : State) (t sl : Nat) : State :=
  let s1 := setSlice s t sl 2 1
  let s2 := forEach (fun u st =>
    let i := portTo t u
    let j := portTo u t
    setRx (setTx (setRx (setTx st t i sl true) t i sl true) u j sl true) u j sl true) (neighbours t) s1
  forEach (fun u st => st.setReg (rtrReg u Off.RTR_RESYNC_CNT) 0) (List.range 64) (emptyPorts s2 t)

/-- The kinds of failure, as their causes: a slice, a hold store or retention memory, tile memory, Opcon SRAM. -/
def causesOf (s : State) (r : PostRes) (tmem : Bool) : List Nat :=
  (match badSlices r with
   | [] => []
   | [_] => [if fuse s Fuse.STRICT_POST then 6 else 1]
   | _ => [2]) ++ (if r.hold then [3] else []) ++ (if tmem then [4] else []) ++ (if r.sram then [5] else [])
/-- A memory result differs, and no array that the operands name is faulty: another one is. R276 tests the parts 8 to 11 of
every slice in the memory phase. -/
def faultUnnamed (r : PostRes) (tmem : Bool) : Bool :=
  decide (r.memRes ≠ Config.goldenPostMem) &&
    !(r.bad.any (fun b => decide (8 ≤ b.2.2.1)) || r.hold || tmem || r.sram)
/-- R279: no failure. -/
def postPass (s : State) (r : PostRes) (tmem : Bool) : Bool := (causesOf s r tmem).isEmpty && !faultUnnamed r tmem
/-- R279: with a failure the fold differs from that of the golden values; where the results given do not show it, what it
reads is open but for that (log entry 4). -/
def postSigShown (s : State) (r : PostRes) (tmem : Bool) : W × State :=
  if postPass s r tmem then (postRef, s)
  else if postSig r ≠ postRef then (postSig r, s)
  else
    let (w, s1) := freeW s
    (postRef ^^^ (if w = 0 then 1 else w), s1)
/-- With failures of more than one kind, or of none that has a code, CAUSE is open. -/
def causeOf (s : State) (cs : List Nat) : Nat × State :=
  match cs with
  | [c] => (c, s)
  | _ => let (w, s1) := freeW s
         (w.fld 0 3, s1)

/-- What BST_POST_STAT shows, and whether the safe state is entered. -/
def decidePost (s : State) (r : PostRes) (tmem : Bool) : State :=
  let cs := causesOf s r tmem
  let a := bstReg Off.BST_POST_STAT
  let clean := !faultUnnamed r tmem
  let b := (firstBad r).getD (0, 0, 0)
  let place := W.at 7 6 b.1 ||| W.at 13 1 b.2.1 ||| W.at 14 4 b.2.2
  if postPass s r tmem then s.setReg a (W.at 0 2 3)
  else if cs = [1] && clean then
    startHalf (s.setReg a (W.at 0 1 1 ||| W.at 3 1 1 ||| W.at 4 3 1 ||| place)) b.1 b.2.1
  else
    let (c, s1) := causeOf s (if clean then cs else cs ++ [0])
    ({ s1 with safe := true }).setReg a (W.at 0 1 1 ||| W.at 2 1 1 ||| W.at 4 3 c ||| place)

/-- The results are compared and published. -/
def postEnds (s : State) (r : PostRes) : State :=
  let (s1, n, tooMany) := forEach spareRow r.rows (s, 0, false)
  let tmem := r.tmem || tooMany
  let (sig, s0) := postSigShown s1 r tmem
  let s2 := decidePost s0 r tmem
  let s3 := (s2.setReg (bstReg Off.BST_POST_SIG) sig).setReg (bstReg Off.BST_POST_REF) postRef
  let s4 := (s3.setReg (bstReg Off.BST_POST_COV) (W.at 0 10 987 ||| W.at 10 10 992)).setReg (bstReg Off.BST_POST_DUR) (W.at 0 16 r.dur)
  let s5 := s4.setReg (bstReg Off.BST_POST_ROWS) (W.at 0 13 n)
  let s6 := setBit s5 (pwrReg Off.PWR_PROFILE_STAT) 3 (sc5Ready s5)
  logGlobal { s6 with postRun := false, timWait := true, postRes := none, postFt := ftNow s } EvC.POST_RESULT []
def execPostDone (s : State) : Res :=
  match s.postRes with
  | none => ok s
  | some r => when_ (!s.inReset && !s.scanOn) s (postEnds s r)

end Sys2Proof.Machine
end

