-- ==== Sys2Proof/Machine/Router.lean ====
section
/-!
DEFINITION. The commands of a router: route computation at a head (R65 to R69), replication (R76 to R78),
the start of the next packet at an output (R87), KILL (R50), saturated windows (R91, R92).
-/

namespace Sys2Proof.Machine

def execRouterKill (t : Fin 64) (i : Fin 23) (s : State) : Res := ok (killArrives s t i)

/-- R69: a packet in the network with no fitting candidate. -/
def unroute (s : State) (t : Nat) (f : Flight) : State :=
  let a := rtrReg t Off.RTR_UNROUTE_CNT
  let s1 := if s.reg a = 0 then s.setReg (rtrReg t Off.RTR_UNROUTE_INFO)
      (W.at 0 23 f.pkt.dst ||| W.at 23 2 (vnOf f.pkt.opc)) else s
  logTile (dropFlight (incSat s1 a) t f) t EvC.UNROUTED []

def setFlight (s : State) (t key : Nat) (g : Flight → Flight) : State :=
  modRt s t (fun x => { x with inq := x.inq.map (fun f => if f.pkt.key = key then g f else f) })

/-- The head is given its output; ITILE is rewritten where the route says so (R65, R72). A packet for p6 of a tile that
has no p6 (R3) is given the output of that port like any other and stands there; the manual does not speak of it (DESIGN
CHOICE, log entry 38). -/
def routeFlight (s : State) (t : Nat) (f : Flight) : State :=
  let (r, it) := route s t (hopsOf f) f.pkt
  let p := if f.pkt.opc = Opc.CELL && f.pkt.spr then
    { f.pkt with arg := cellArg f.pkt.handle f.pkt.seq it true } else f.pkt
  match r with
  | .eject => setFlight s t f.pkt.key (fun g => { g with pkt := p, out := some (16 + nodePort p.dst) })
  | .go nx kn sw =>
    setFlight s t f.pkt.key (fun g => { g with pkt := p, out := some (portTo t nx), knight := kn, swap := sw })
  | .unroutable => unroute s t f

def unrouted (i : Nat) (f : Flight) : Bool := decide (f.inp = i) && f.out.isNone && decide (0 < f.arrived)
def needsRoute (i : Nat) (mc : Bool) (f : Flight) : Bool :=
  unrouted i f && (decide (f.pkt.opc = Opc.CELLMC) == mc)

/-- R65. With `lost` the first quarter of the next head at the input, a CELLMC's included, cannot be recovered, and the
packet counts as caught (R340). -/
def execHeadRoute (t : Fin 64) (i : Fin 23) (lost : Bool) (s : State) : Res :=
  match (s.rt t).inq.find? (fun f => if lost then unrouted i f else needsRoute i false f) with
  | none => ok s
  | some f =>
    if lost then ok (noteLoss (dropFlight s t f) t (({} : Loss).add f.pkt))
    else ok (markReady (routeFlight s t f) t)

/-! ### Replication -/

/-- The branches of a CELLMC at router t: a copy for each network branch, and one for each local port of
the tile's local port mask (R76, R111). `none` names a target with no path (R69). -/
def branchesOf (s : State) (t : Nat) (f : Flight) : List (Pkt × Option (Nat × Bool × Bool)) :=
  (replicateMask s t (hopsOf f) f.pkt.mask).flatMap (fun c =>
    let p := { f.pkt with mask := c.mask }
    match c.target with
    | none => (lanePorts (laneOf (s.word (laneAddr t (mcGroup p))) (mcGroup p))).map
        (fun q => ({ p with dst := nodeTP s t q }, some (16 + q, false, false)))
    | some y => match bestPath s t (hopsOf f) y with
      | none => [(p, none)]
      | some b => match b.nodes with
        | [] => [(p, none)]
        | nx :: _ => [(p, some (portTo t nx, b.knight, b.swap))])

/-- The pips of all branches are taken together; `none` when one branch lacks room. -/
def debitBranches (s : State) (t : Nat) (f : Flight) : List (Pkt × Option (Nat × Bool × Bool)) → Option State
  | [] => some s
  | (p, some (o, _, _)) :: rest =>
    if o < 16 then
      (if roomAt s t o { f with pkt := p } then
        match takeAt s t o { f with pkt := p } with
        | none => none
        | some c => debitBranches (setCnt s t o c) t f rest
       else none)
    else if roomAt s t o { f with pkt := p, grp := none } then debitBranches s t f rest
    else none
  | (_, none) :: rest => debitBranches s t f rest

/-- The branches of a packet, and the state in which their numbers have been given out. For a copy with no path RTR_UNROUTE_INFO takes the dst
field of the packet: a CELLMC has no DST, and R69 does not say what is recorded (DESIGN CHOICE, log entry 38). -/
def makeBranches (t : Nat) (f : Flight) (g : Nat) :
    List (Pkt × Option (Nat × Bool × Bool)) → State → List Flight × State
  | [], s => ([], s)
  | (p, some (o, kn, sw)) :: rest, s =>
    let b : Flight := { f with pkt := { p with key := s.nextId }, out := some o, knight := kn, swap := sw,
                               grp := some g, debited := decide (o < 16), dests := flightDests f }
    let (bs, s1) := makeBranches t f g rest { s with nextId := s.nextId + 1 }
    (b :: bs, s1)
  | (p, none) :: rest, s =>
    let a := rtrReg t Off.RTR_UNROUTE_CNT
    let s1 := if s.reg a = 0 then s.setReg (rtrReg t Off.RTR_UNROUTE_INFO)
      (W.at 0 23 p.dst ||| W.at 23 2 (vnOf p.opc)) else s
    makeBranches t f g rest (logTile (incSat s1 a) t EvC.UNROUTED [])
/-- R59: the branches stand in the buffer in the place of the packet, so that no later one overtakes them. -/
def placeBranches (s : State) (t : Nat) (f : Flight) (bs : List Flight) : State :=
  modRt s t (fun x => { x with inq := x.inq.flatMap (fun q => if q.pkt.key = f.pkt.key then bs else [q]) })

/-- R111: the copy goes somewhere: a local one to an attach point that is populated. -/
def delivers (s : State) (t : Nat) (b : Pkt × Option (Nat × Bool × Bool)) : Bool :=
  match b.2 with
  | none => true
  | some (o, _, _) => decide (o < 16) || populated s (niOf t (o - 16))

/-- R78: a CELLMC whose branches all have room is replicated; `none` when one of them lacks it. A copy for an attach
point that is absent delivers nothing and is counted (R111). -/
def replicateOne (s : State) (t : Nat) (f : Flight) : Option State :=
  let bs := branchesOf s t f
  let live := bs.filter (delivers s t)
  match debitBranches s t f live with
  | none => none
  | some s1 =>
    let made := (bs.filter (fun b => b.2.isSome)).length
    let g := f.grp.getD (s.rt t).grpN
    let s2 := addWrap (modRt s1 t (fun x => { x with grpN := x.grpN + 1 })) (rtrReg t Off.RTR_MC_CNT) made
    let (fs, s3) := makeBranches t f g live s2
    some (if fs.isEmpty then dropFlight s3 t f else placeBranches s3 t f fs)

/-- R59: the CELLMCs of input i that head their own VC and class and wait to be replicated. -/
def wholeMcs (s : State) (t i : Nat) : List Flight :=
  (fronts [] (s.rt t).inq).filter (fun f => needsRoute i true f && decide (f.pkt.flits ≤ f.arrived))
/-- The first such CELLMC whose branches all have room; one that waits holds up no other queue. A branch whose output has
been withdrawn by a local fence is replicated again, like a whole cell. R78 does not say whether a cell may be replicated
before all its flits have come; the model waits for them (DESIGN CHOICE, log entry 38). -/
def execReplicate (t : Fin 64) (i : Fin 23) (s : State) : Res :=
  match firstSome (replicateOne s t) (wholeMcs s t i) with
  | none => ok s
  | some s1 => ok (markReady s1 t)

/-! ### The output starts the next packet -/

/-- R87. `ue` names the flits of the packet that the router finds uncorrectable in its buffer (R340). -/
def execStartNext (t : Fin 64) (o : Fin 23) (ue : BitVec 4) (s : State) : Res :=
  let s0 := markReady s t
  match pickNext s0 t o with
  | none => ok s0
  | some (f, s1) =>
    let (s2, p) := bufUe s1 t f.pkt ue.toNat
    ok (markReady (if o.val < 16 then startLink s2 t o f p else startLocal s2 t (o.val - 16) f p) t)

/-! ### Saturated windows -/

/-- The classes of the heads that wait for an output. -/
def waitingClasses (s : State) (t o : Nat) : Nat :=
  [0, 1, 2, 3, 4, 5, 6, 7].foldl (fun m c =>
    if (s.rt t).inq.any (fun f => decide (f.out = some o ∧ f.pkt.sc = c)) then m + 2 ^ c else m) 0

def saturated (s : State) (t o : Nat) : State :=
  let info := W.at 0 5 o ||| W.at 5 8 (waitingClasses s t o)
  let s1 := (incSat s (rtrReg t Off.RTR_HOTSPOT_CNT)).setReg (rtrReg t Off.RTR_HOTSPOT_INFO) info
  if rateOk s (s.rt t).hotFc fcOf1s then
    modRt (logTile s1 t EvC.HOTSPOT [info]) t (fun x => { x with hotFc := some s.fc })
  else s1

/-- R91: the window counts only for an output that has a ready head. -/
def execSaturatedWindow (t : Fin 64) (o : Fin 23) (s : State) : Res :=
  when_ (!(readyHeads s t o).isEmpty) s (saturated s t o)

end Sys2Proof.Machine
end

