-- ==== Sys2Proof/Machine/Dispatch.lean ====
section
/-! DEFINITION. What each command does: one arm per constructor, each one call of its meaning. -/

namespace Sys2Proof.Machine

def exec (i : Instr) (s : State) : Host.Outcome State Fault Refusal :=
  match i with
  | .rd n h => Sys2Proof.Machine.execRd n h s
  | .ldres n h => Sys2Proof.Machine.execLdres n h s
  | .wr n h => Sys2Proof.Machine.execWr n h s
  | .stcond n h => Sys2Proof.Machine.execStcond n h s
  | .storeBufferDrain n => Sys2Proof.Machine.execStoreBufferDrain n s
  | .fop n h => Sys2Proof.Machine.execFop n h s
  | .lkacq n h => Sys2Proof.Machine.execLkacq n h s
  | .lkrnw n h => Sys2Proof.Machine.execLkrnw n h s
  | .lkrel n h => Sys2Proof.Machine.execLkrel n h s
  | .barAgent n h => Sys2Proof.Machine.execBarAgent n h s
  | .barTile n h => Sys2Proof.Machine.execBarTile n h s
  | .barSys n h => Sys2Proof.Machine.execBarSys n h s
  | .barrierComplete n => Sys2Proof.Machine.execBarrierComplete n s
  | .barTimeout n => Sys2Proof.Machine.execBarTimeout n s
  | .msg n h => Sys2Proof.Machine.execMsg n h s
  | .rdresp n h => Sys2Proof.Machine.execRdresp n h s
  | .wrack n h => Sys2Proof.Machine.execWrack n h s
  | .fopresp n h => Sys2Proof.Machine.execFopresp n h s
  | .lkresp n h => Sys2Proof.Machine.execLkresp n h s
  | .cell n h => Sys2Proof.Machine.execCell n h s
  | .cellmc n h => Sys2Proof.Machine.execCellmc n h s
  | .orphanFlit n ch => Sys2Proof.Machine.execOrphanFlit n ch s
  | .sequenceFail n ch => Sys2Proof.Machine.execSequenceFail n ch s
  | .niInject n ch => Sys2Proof.Machine.execNiInject n ch s
  | .pktTo n ch => Sys2Proof.Machine.execPktTo n ch s
  | .unitReset n => Sys2Proof.Machine.execUnitReset n s
  | .unitResetRelease n => Sys2Proof.Machine.execUnitResetRelease n s
  | .drain n => Sys2Proof.Machine.execDrain n s
  | .drainEnd n => Sys2Proof.Machine.execDrainEnd n s
  | .drainTimeout n => Sys2Proof.Machine.execDrainTimeout n s
  | .niEnable n => Sys2Proof.Machine.execNiEnable n s
  | .inboundRequest n => Sys2Proof.Machine.execInboundRequest n s
  | .responseReceived n => Sys2Proof.Machine.execResponseReceived n s
  | .kill n => Sys2Proof.Machine.execKill n s
  | .routerKill t ix => Sys2Proof.Machine.execRouterKill t ix s
  | .fstage n => Sys2Proof.Machine.execFstage n s
  | .fstgdSend n fid => Sys2Proof.Machine.execFstgdSend n fid s
  | .timStrobe n late => Sys2Proof.Machine.execTimStrobe n late s
  | .rsvreq n => Sys2Proof.Machine.execRsvreq n s
  | .rsvreqStanding n => Sys2Proof.Machine.execRsvreqStanding n s
  | .rsvgnt n => Sys2Proof.Machine.execRsvgnt n s
  | .rsvref n => Sys2Proof.Machine.execRsvref n s
  | .rsvrel n => Sys2Proof.Machine.execRsvrel n s
  | .rsvrelWithdraw n => Sys2Proof.Machine.execRsvrelWithdraw n s
  | .rsvrelStanding n => Sys2Proof.Machine.execRsvrelStanding n s
  | .niRsvPush n v => Sys2Proof.Machine.execNiRsvPush n v s
  | .rsvIdle n dst sc => Sys2Proof.Machine.execRsvIdle n dst sc s
  | .mcLinger n d => Sys2Proof.Machine.execMcLinger n d s
  | .mcRefill n => Sys2Proof.Machine.execMcRefill n s
  | .admissionTimeout n => Sys2Proof.Machine.execAdmissionTimeout n s
  | .rsvAnswerLost n => Sys2Proof.Machine.execRsvAnswerLost n s
  | .reorderSkip n slot => Sys2Proof.Machine.execReorderSkip n slot s
  | .handleReclaim n handle => Sys2Proof.Machine.execHandleReclaim n handle s
  | .cellDeliver n dfc => Sys2Proof.Machine.execCellDeliver n dfc s
  | .reorderPresent n => Sys2Proof.Machine.execReorderPresent n s
  | .cellmcCopy n => Sys2Proof.Machine.execCellmcCopy n s
  | .groupCacheFill n => Sys2Proof.Machine.execGroupCacheFill n s
  | .niPhold n v => Sys2Proof.Machine.execNiPhold n v s
  | .phold n => Sys2Proof.Machine.execPhold n s
  | .niMcInv n v => Sys2Proof.Machine.execNiMcInv n v s
  | .spraySeedWrite n v => Sys2Proof.Machine.execSpraySeedWrite n v s
  | .tokenRefill n => Sys2Proof.Machine.execTokenRefill n s
  | .puntToken n => Sys2Proof.Machine.execPuntToken n s
  | .headRoute t ix lost => Sys2Proof.Machine.execHeadRoute t ix lost s
  | .replicate t ix => Sys2Proof.Machine.execReplicate t ix s
  | .startNext t o ue => Sys2Proof.Machine.execStartNext t o ue s
  | .pip t o => Sys2Proof.Machine.execPip t o s
  | .linkFlit t ix q0 q1 q2 q3 => Sys2Proof.Machine.execLinkFlit t ix q0 q1 q2 q3 s
  | .nak t ix => Sys2Proof.Machine.execNak t ix s
  | .nakRetry t ix => Sys2Proof.Machine.execNakRetry t ix s
  | .returnParityFail t ix half => Sys2Proof.Machine.execReturnParityFail t ix half s
  | .resyncReq t ix => Sys2Proof.Machine.execResyncReq t ix s
  | .resyncMark t ix => Sys2Proof.Machine.execResyncMark t ix s
  | .resyncGrant t ix => Sys2Proof.Machine.execResyncGrant t ix s
  | .narrow t ix half => Sys2Proof.Machine.execNarrow t ix half s
  | .widen t ix half => Sys2Proof.Machine.execWiden t ix half s
  | .linkLost t ix => Sys2Proof.Machine.execLinkLost t ix s
  | .sliceFault t sl => Sys2Proof.Machine.execSliceFault t sl s
  | .saturatedWindow t o => Sys2Proof.Machine.execSaturatedWindow t o s
  | .routeChange => Sys2Proof.Machine.execRouteChange s
  | .emptyScan => Sys2Proof.Machine.execEmptyScan s
  | .tmemRd t e => Sys2Proof.Machine.execTmemRd t e s
  | .tmemLdres t e => Sys2Proof.Machine.execTmemLdres t e s
  | .tmemWr t => Sys2Proof.Machine.execTmemWr t s
  | .tmemStcond t => Sys2Proof.Machine.execTmemStcond t s
  | .add36 t e => Sys2Proof.Machine.execAdd36 t e s
  | .add72 t e => Sys2Proof.Machine.execAdd72 t e s
  | .swap36 t e => Sys2Proof.Machine.execSwap36 t e s
  | .cas36 t e => Sys2Proof.Machine.execCas36 t e s
  | .max36 t e => Sys2Proof.Machine.execMax36 t e s
  | .min36 t e => Sys2Proof.Machine.execMin36 t e s
  | .and36 t e => Sys2Proof.Machine.execAnd36 t e s
  | .or36 t e => Sys2Proof.Machine.execOr36 t e s
  | .tmemLkacq t e => Sys2Proof.Machine.execTmemLkacq t e s
  | .tmemLkrnw t e => Sys2Proof.Machine.execTmemLkrnw t e s
  | .tmemLkrel t e => Sys2Proof.Machine.execTmemLkrel t e s
  | .epochUpdate t n => Sys2Proof.Machine.execEpochUpdate t n s
  | .scrub t e => Sys2Proof.Machine.execScrub t e s
  | .rowMigration t k bank row => Sys2Proof.Machine.execRowMigration t k bank row s
  | .migrationDone t => Sys2Proof.Machine.execMigrationDone t s
  | .bankMigration t bank => Sys2Proof.Machine.execBankMigration t bank s
  | .hrpRequest wr addr len data => Sys2Proof.Machine.execHrpRequest wr addr len data s
  | .dbgRequest wr addr len data => Sys2Proof.Machine.execDbgRequest wr addr len data s
  | .bridgeWrite port => Sys2Proof.Machine.execBridgeWrite port s
  | .registerWrite addr ws => Sys2Proof.Machine.execRegisterWrite addr ws s
  | .rcRead m addr => Sys2Proof.Machine.execRcRead m addr s
  | .mtxRemap v => Sys2Proof.Machine.execMtxRemap v s
  | .mtxRstTile v => Sys2Proof.Machine.execMtxRstTile v s
  | .mtxRstNi v => Sys2Proof.Machine.execMtxRstNi v s
  | .opcRstHold c => Sys2Proof.Machine.execOpcRstHold c s
  | .opcRstPulse c => Sys2Proof.Machine.execOpcRstPulse c s
  | .tileRst t => Sys2Proof.Machine.execTileRst t s
  | .niRst n => Sys2Proof.Machine.execNiRst n s
  | .opcRst c => Sys2Proof.Machine.execOpcRst c s
  | .fabRst => Sys2Proof.Machine.execFabRst s
  | .grdUpdateHold g => Sys2Proof.Machine.execGrdUpdateHold g s
  | .grdEnable g => Sys2Proof.Machine.execGrdEnable g s
  | .grdDisable g => Sys2Proof.Machine.execGrdDisable g s
  | .grdRegionWrite g k f v => Sys2Proof.Machine.execGrdRegionWrite g k f v s
  | .grdUpdTo n => Sys2Proof.Machine.execGrdUpdTo n s
  | .tcEdge => Sys2Proof.Machine.execTcEdge s
  | .beat => Sys2Proof.Machine.execBeat s
  | .treeCalibrate t rtt0 rtt1 residual => Sys2Proof.Machine.execTreeCalibrate t rtt0 rtt1 residual s
  | .tkSwitchWrite => Sys2Proof.Machine.execTkSwitchWrite s
  | .beatMissing => Sys2Proof.Machine.execBeatMissing s
  | .switchoverDone => Sys2Proof.Machine.execSwitchoverDone s
  | .tkLostBoth t => Sys2Proof.Machine.execTkLostBoth t s
  | .tkSnap => Sys2Proof.Machine.execTkSnap s
  | .tkFadj v => Sys2Proof.Machine.execTkFadj v s
  | .tkPstep v => Sys2Proof.Machine.execTkPstep v s
  | .stepEdge => Sys2Proof.Machine.execStepEdge s
  | .ppsEdge sub => Sys2Proof.Machine.execPpsEdge sub s
  | .alarm => Sys2Proof.Machine.execAlarm s
  | .holdoverTick => Sys2Proof.Machine.execHoldoverTick s
  | .fnfCmdGo k => Sys2Proof.Machine.execFnfCmdGo k s
  | .fnfCmdStageOnly k => Sys2Proof.Machine.execFnfCmdStageOnly k s
  | .fnfCmdStop k => Sys2Proof.Machine.execFnfCmdStop k s
  | .fnfCmdAbort k => Sys2Proof.Machine.execFnfCmdAbort k s
  | .fstgd c => Sys2Proof.Machine.execFstgd c s
  | .farm c => Sys2Proof.Machine.execFarm c s
  | .arm t fid => Sys2Proof.Machine.execArm t fid s
  | .stgTo k => Sys2Proof.Machine.execStgTo k s
  | .lost fid n => Sys2Proof.Machine.execLost fid n s
  | .launch fid => Sys2Proof.Machine.execLaunch fid s
  | .launchEdge fid => Sys2Proof.Machine.execLaunchEdge fid s
  | .abort fid => Sys2Proof.Machine.execAbort fid s
  | .fabrt n => Sys2Proof.Machine.execFabrt n s
  | .deferredReset => Sys2Proof.Machine.execDeferredReset s
  | .busy t endTc => Sys2Proof.Machine.execBusy t endTc s
  | .freeingEnd k => Sys2Proof.Machine.execFreeingEnd k s
  | .abortedEnd k => Sys2Proof.Machine.execAbortedEnd k s
  | .fnfStatRead k m => Sys2Proof.Machine.execFnfStatRead k m s
  | .pwrWarnAssert => Sys2Proof.Machine.execPwrWarnAssert s
  | .brace => Sys2Proof.Machine.execBrace s
  | .braceEnd => Sys2Proof.Machine.execBraceEnd s
  | .release => Sys2Proof.Machine.execRelease s
  | .xarm => Sys2Proof.Machine.execXarm s
  | .xstaged => Sys2Proof.Machine.execXstaged s
  | .xconfirm => Sys2Proof.Machine.execXconfirm s
  | .xabort => Sys2Proof.Machine.execXabort s
  | .xconfirmDeadline k => Sys2Proof.Machine.execXconfirmDeadline k s
  | .noconfirm k => Sys2Proof.Machine.execNoconfirm k s
  | .xreportSend k => Sys2Proof.Machine.execXreportSend k s
  | .xreport => Sys2Proof.Machine.execXreport s
  | .commitReport k => Sys2Proof.Machine.execCommitReport k s
  | .extMsgOut => Sys2Proof.Machine.execExtMsgOut s
  | .extFrameIn f => Sys2Proof.Machine.execExtFrameIn f s
  | .mbxDb ws => Sys2Proof.Machine.execMbxDb ws s
  | .mbxSession => Sys2Proof.Machine.execMbxSession s
  | .sessionResetRun => Sys2Proof.Machine.execSessionResetRun s
  | .commandStart => Sys2Proof.Machine.execCommandStart s
  | .commandComplete => Sys2Proof.Machine.execCommandComplete s
  | .badop => Sys2Proof.Machine.execBadop s
  | .shadowScan => Sys2Proof.Machine.execShadowScan s
  | .budgetCheck => Sys2Proof.Machine.execBudgetCheck s
  | .ticketGo => Sys2Proof.Machine.execTicketGo s
  | .ticketAbort k => Sys2Proof.Machine.execTicketAbort k s
  | .heartbeat c => Sys2Proof.Machine.execHeartbeat c s
  | .opcTrap c cause addr => Sys2Proof.Machine.execOpcTrap c cause addr s
  | .takeover => Sys2Proof.Machine.execTakeover s
  | .bootRomStart => Sys2Proof.Machine.execBootRomStart s
  | .imageCheckDone => Sys2Proof.Machine.execImageCheckDone s
  | .handover => Sys2Proof.Machine.execHandover s
  | .opcClkSel c sel => Sys2Proof.Machine.execOpcClkSel c sel s
  | .c1Run => Sys2Proof.Machine.execC1Run s
  | .sessionReset => Sys2Proof.Machine.execSessionReset s
  | .sessionInfo => Sys2Proof.Machine.execSessionInfo s
  | .cfgStatus => Sys2Proof.Machine.execCfgStatus s
  | .fenceSlice => Sys2Proof.Machine.execFenceSlice s
  | .fenceLink => Sys2Proof.Machine.execFenceLink s
  | .tileService => Sys2Proof.Machine.execTileService s
  | .unitEnable => Sys2Proof.Machine.execUnitEnable s
  | .topoRead => Sys2Proof.Machine.execTopoRead s
  | .profileSet => Sys2Proof.Machine.execProfileSet s
  | .mcGroupSet => Sys2Proof.Machine.execMcGroupSet s
  | .mcGroupClear => Sys2Proof.Machine.execMcGroupClear s
  | .mcGroupRead => Sys2Proof.Machine.execMcGroupRead s
  | .missSet => Sys2Proof.Machine.execMissSet s
  | .puntSet => Sys2Proof.Machine.execPuntSet s
  | .clsTbSet => Sys2Proof.Machine.execClsTbSet s
  | .clsDestSet => Sys2Proof.Machine.execClsDestSet s
  | .clsWrrSet => Sys2Proof.Machine.execClsWrrSet s
  | .admSet => Sys2Proof.Machine.execAdmSet s
  | .mcCfgSet => Sys2Proof.Machine.execMcCfgSet s
  | .lateSet => Sys2Proof.Machine.execLateSet s
  | .clsRead => Sys2Proof.Machine.execClsRead s
  | .grdSet => Sys2Proof.Machine.execGrdSet s
  | .grdOff => Sys2Proof.Machine.execGrdOff s
  | .grdRead => Sys2Proof.Machine.execGrdRead s
  | .tkSwitch => Sys2Proof.Machine.execTkSwitch s
  | .alarmSet => Sys2Proof.Machine.execAlarmSet s
  | .alarmRead => Sys2Proof.Machine.execAlarmRead s
  | .fnfRun => Sys2Proof.Machine.execFnfRun s
  | .fnfStage => Sys2Proof.Machine.execFnfStage s
  | .fnfXrun => Sys2Proof.Machine.execFnfXrun s
  | .fnfStop => Sys2Proof.Machine.execFnfStop s
  | .fnfAbort => Sys2Proof.Machine.execFnfAbort s
  | .fnfStatus => Sys2Proof.Machine.execFnfStatus s
  | .pwrTileSet => Sys2Proof.Machine.execPwrTileSet s
  | .tileClaim => Sys2Proof.Machine.execTileClaim s
  | .pwrRetain => Sys2Proof.Machine.execPwrRetain s
  | .pwrRead => Sys2Proof.Machine.execPwrRead s
  | .bistCfg => Sys2Proof.Machine.execBistCfg s
  | .bistTurn => Sys2Proof.Machine.execBistTurn s
  | .bistResult => Sys2Proof.Machine.execBistResult s
  | .fwLoad => Sys2Proof.Machine.execFwLoad s
  | .fwCommit => Sys2Proof.Machine.execFwCommit s
  | .fwInfo => Sys2Proof.Machine.execFwInfo s
  | .logRead => Sys2Proof.Machine.execLogRead s
  | .cntRead => Sys2Proof.Machine.execCntRead s
  | .targetRun t => Sys2Proof.Machine.execTargetRun t s
  | .targetLowGear t => Sys2Proof.Machine.execTargetLowGear t s
  | .targetSlim t slice => Sys2Proof.Machine.execTargetSlim t slice s
  | .targetDoze t => Sys2Proof.Machine.execTargetDoze t s
  | .targetOff t => Sys2Proof.Machine.execTargetOff t s
  | .pwrClaim t owner => Sys2Proof.Machine.execPwrClaim t owner s
  | .pwrRelease t owner => Sys2Proof.Machine.execPwrRelease t owner s
  | .profileWrite v => Sys2Proof.Machine.execProfileWrite v s
  | .loadInterval t rload mload => Sys2Proof.Machine.execLoadInterval t rload mload s
  | .gearDown t => Sys2Proof.Machine.execGearDown t s
  | .vtransEnd t => Sys2Proof.Machine.execVtransEnd t s
  | .dozeEntry t => Sys2Proof.Machine.execDozeEntry t s
  | .wakeFlag t ix => Sys2Proof.Machine.execWakeFlag t ix s
  | .piccoloSample t lines => Sys2Proof.Machine.execPiccoloSample t lines s
  | .wakeComplete t => Sys2Proof.Machine.execWakeComplete t s
  | .retentionEntry => Sys2Proof.Machine.execRetentionEntry s
  | .wake => Sys2Proof.Machine.execWake s
  | .retentionWake bad => Sys2Proof.Machine.execRetentionWake bad s
  | .backup => Sys2Proof.Machine.execBackup s
  | .post memRes sigs rows holdFault tmemFault sramFault durUs => Sys2Proof.Machine.execPost memRes sigs rows holdFault tmemFault sramFault durUs s
  | .postDone => Sys2Proof.Machine.execPostDone s
  | .turnTick => Sys2Proof.Machine.execTurnTick s
  | .turnGo t v => Sys2Proof.Machine.execTurnGo t v s
  | .narrowTimeout t => Sys2Proof.Machine.execNarrowTimeout t s
  | .partDone t misr => Sys2Proof.Machine.execPartDone t misr s
  | .turnAbandon t => Sys2Proof.Machine.execTurnAbandon t s
  | .widenRouter t => Sys2Proof.Machine.execWidenRouter t s
  | .testStale t u => Sys2Proof.Machine.execTestStale t u s
  | .readmitTest t sl misrs => Sys2Proof.Machine.execReadmitTest t sl misrs s
  | .train t sl ix => Sys2Proof.Machine.execTrain t sl ix s
  | .trainDone t sl ix bad => Sys2Proof.Machine.execTrainDone t sl ix bad s
  | .laneRepair t sl ix bad => Sys2Proof.Machine.execLaneRepair t sl ix bad s
  | .scanRequest => Sys2Proof.Machine.execScanRequest s
  | .zeroizeDone => Sys2Proof.Machine.execZeroizeDone s
  | .debugHalt c => Sys2Proof.Machine.execDebugHalt c s
  | .debugResume c => Sys2Proof.Machine.execDebugResume c s
  | .eventRecord => Sys2Proof.Machine.execEventRecord s
  | .evlPost node ws => Sys2Proof.Machine.execEvlPost node ws s
  | .mirrorGap c => Sys2Proof.Machine.execMirrorGap c s
  | .unitInterrupt n lines => Sys2Proof.Machine.execUnitInterrupt n lines s
  | .fuseBlow addr vppOk => Sys2Proof.Machine.execFuseBlow addr vppOk s
  | .fabRstAssert => Sys2Proof.Machine.execFabRstAssert s
  | .hrpRst => Sys2Proof.Machine.execHrpRst s
  | .dbgRst => Sys2Proof.Machine.execDbgRst s
  | .ocOk c => Sys2Proof.Machine.execOcOk c s
  | .tkStbyOk k => Sys2Proof.Machine.execTkStbyOk k s
  | .opcStbyOk => Sys2Proof.Machine.execOpcStbyOk s
  | .lnkWinEnd => Sys2Proof.Machine.execLnkWinEnd s
  | .vddAonUp => Sys2Proof.Machine.execVddAonUp s

end Sys2Proof.Machine
end

