-- ==== Sys2Proof/Safety.lean ====
section
/-!
DEFINITION. The terms in which statements are made: a command that completes with an effect, what a command leaves
unchanged, the canonical form of memory and registers, and the bounds that the manual gives the queues.
-/

namespace Sys2Proof.Machine

/-- The command completes on `s`, and what it leaves satisfies `P`. -/
def Completes (c : Instr) (s : State) (P : State → Prop) : Prop := ∃ t, exec c s = .next t ∧ P t

/-! ### The canonical form and the bounds -/

/-- The canonical form of memory: addresses strictly rising, and no entry equal to what an unlisted address
reads as. -/
def Memory.wf (m : Sparse W) : Bool := Sparse.wf memDefault m
/-- The same for the registers, whose unlisted addresses read their reset values. -/
def Regs.wf (r : Sparse W) : Bool := Sparse.wf resetValue r

/-- The invariant of the machine: registers and memory in canonical form, and the queues of R348 (16 events), R361
(4 requests of the host register port) and R141 (16 posted writes) within their bounds. -/
def State.inv (s : State) : Prop :=
  Regs.wf s.regs = true ∧ Memory.wf s.mem = true ∧ s.evq.length ≤ 16 ∧ s.hrpQ.length ≤ 4 ∧ s.posted.length ≤ 16

/-- R372: every fuse blown in `s` is blown in `t`. -/
def fusesKept (s t : State) : Prop := ∀ b, s.fuses.testBit b = true → t.fuses.testBit b = true

/-! ### Frames -/

/-- The pieces of a state. Every field of `State` belongs to one. -/
inductive Piece
  | queue | regs | mem | nis | routers | tmcs | agents | slots | cores | ids | time | fanfare | resets | matrix | ports
  | log | firmware | extension | mode | fuses
  deriving DecidableEq, Repr

/-- A piece is the same in both states: of a map, every entry reads as before. -/
def pieceKept (s t : State) : Piece → Prop
  | .queue => t.pending = s.pending
  | .regs => ∀ a, t.reg a = s.reg a
  | .mem => ∀ a, t.word a = s.word a ∧ isPoison t a = isPoison s a
  | .nis => ∀ n, t.ni n = s.ni n
  | .routers => ∀ u, t.rt u = s.rt u
  | .tmcs => ∀ u, t.tmc u = s.tmc u
  | .agents => ∀ u, t.ta u = s.ta u
  | .slots => ∀ k, t.slot k = s.slot k
  | .cores => ∀ c, t.core c = s.core c
  | .ids => t.nextId = s.nextId ∧ t.freeN = s.freeN
  | .time => t.fc = s.fc ∧ t.ft = s.ft ∧ t.steps = s.steps ∧ t.braces = s.braces ∧
      t.braceOn = s.braceOn ∧ t.tkNone = s.tkNone ∧ t.tkUnasked = s.tkUnasked ∧ t.swEnd = s.swEnd ∧ t.tkDead = s.tkDead ∧
      t.tkBack = s.tkBack ∧ t.calN = s.calN ∧ t.calMax = s.calMax ∧ t.calDue = s.calDue ∧
      t.profDue = s.profDue ∧ t.warnFt = s.warnFt
  | .fanfare => t.launches = s.launches ∧ t.stageQ = s.stageQ ∧ t.losts = s.losts ∧ t.aborts = s.aborts
  | .resets => t.rstReq = s.rstReq ∧ t.heldResets = s.heldResets
  | .matrix => t.heldWrites = s.heldWrites ∧ t.posted = s.posted
  | .ports => t.hrpQ = s.hrpQ ∧ t.dbgQ = s.dbgQ ∧ t.hrpOut = s.hrpOut ∧ t.dbgOut = s.dbgOut ∧ t.coreOut = s.coreOut
  | .log => t.evq = s.evq ∧ t.evLost = s.evLost ∧ t.evLostFirst = s.evLostFirst ∧ t.evLostLast = s.evLostLast ∧
      t.mirrorNone = s.mirrorNone
  | .firmware => t.savedRegs = s.savedRegs ∧ t.shadows = s.shadows ∧ t.hdrs = s.hdrs ∧ t.running = s.running ∧
      t.session = s.session ∧ t.tickets = s.tickets ∧ t.tickLast = s.tickLast ∧ t.tickApplied = s.tickApplied ∧
      t.tickAborted = s.tickAborted ∧ t.tickReason = s.tickReason ∧ t.tickLt = s.tickLt ∧ t.pendMap = s.pendMap ∧
      t.fenceTicket = s.fenceTicket ∧ t.route = s.route ∧ t.jobs = s.jobs ∧ t.wasEnabled = s.wasEnabled ∧
      t.groupMem = s.groupMem ∧ t.checkDue = s.checkDue ∧ t.repairDue = s.repairDue ∧ t.repairs = s.repairs ∧
      t.slicePtr = s.slicePtr ∧ t.bankPtr = s.bankPtr ∧
      t.placed = s.placed ∧ t.staleLogged = s.staleLogged ∧ t.lastPass = s.lastPass ∧ t.imgCheck = s.imgCheck ∧
      t.imgReady = s.imgReady ∧ t.c1Wait = s.c1Wait ∧ t.retain = s.retain ∧
      t.fwLater = s.fwLater ∧ t.turnFc = s.turnFc ∧ t.vecKept = s.vecKept
  | .extension => t.seqTx = s.seqTx ∧ t.seqRx = s.seqRx ∧ t.xin = s.xin ∧ t.xseen = s.xseen ∧ t.xco = s.xco ∧
      t.xrep = s.xrep ∧ t.xout = s.xout ∧ t.frames = s.frames ∧ t.xcells = s.xcells ∧
      t.xhistN = s.xhistN
  | .mode => t.inReset = s.inReset ∧ t.postRun = s.postRun ∧ t.safe = s.safe ∧ t.scanOn = s.scanOn ∧
      t.scanReq = s.scanReq ∧ t.warn = s.warn ∧ t.onCell = s.onCell ∧ t.aonLost = s.aonLost ∧
      t.braceReset = s.braceReset ∧ t.postRes = s.postRes ∧ t.postFt = s.postFt ∧
      t.timWait = s.timWait ∧ t.timDue = s.timDue ∧ t.scanFell = s.scanFell
  | .fuses => t.fuseDr = s.fuseDr ∧ t.fuses = s.fuses ∧ t.fusesSensed = s.fusesSensed ∧ t.fuseEnd = s.fuseEnd ∧
      t.vppOk = s.vppOk

/-- Nothing changes outside the pieces of the list. -/
def changesOnly (ps : List Piece) (s t : State) : Prop := ∀ p, p ∉ ps → pieceKept s t p
/-- Every register outside the list reads as before. -/
def regsBut (l : List Nat) (s t : State) : Prop := ∀ a, a ∉ l → t.reg a = s.reg a
/-- Every word of memory outside the list reads as before. -/
def wordsBut (l : List Nat) (s t : State) : Prop := ∀ a, a ∉ l → t.word a = s.word a
/-- Every other NI, router, tile memory controller, tile agent, fanfare slot or core is as before. -/
def nisBut (n : Nat) (s t : State) : Prop := ∀ m, m ≠ n → t.ni m = s.ni m
def routersBut (l : List Nat) (s t : State) : Prop := ∀ u, u ∉ l → t.rt u = s.rt u
def tmcsBut (n : Nat) (s t : State) : Prop := ∀ u, u ≠ n → t.tmc u = s.tmc u
def agentsBut (n : Nat) (s t : State) : Prop := ∀ u, u ≠ n → t.ta u = s.ta u
def slotsBut (n : Nat) (s t : State) : Prop := ∀ k, k ≠ n → t.slot k = s.slot k
def coresBut (n : Nat) (s t : State) : Prop := ∀ c, c ≠ n → t.core c = s.core c

/-! ### Conditions under which a request is taken and leaves at once -/

/-- No word that a staging list of `n` records at `a` can take in stands in a dozing tile: reading it wakes none. -/
def listAwake (s : State) (a n : Nat) : Bool :=
  (List.range (18 * n)).all (fun i => match regionOf s (a + i) with
    | .tmem t _ => !tileDark s t
    | _ => true)

/-- No packet of the unit waits in the NI's queue, and no read is held. -/
abbrev quietNi (x : Ni) : Prop := x.oq = [] ∧ x.held = []
/-- The head is accepted on OREQ_ and read at once: the channel takes it (R316, R145, R173), its tail has crossed where
the tile is in Profile L (R93), the head checks pass, its tag is free, and the safe state does not refuse it. -/
abbrev oreqTakes (s : State) (n : Nat) (h : Head) : Prop :=
  (s.ta (n / 7)).entering = none ∧ oreqTakesHead s n h = true ∧ readsLater s n h = false ∧ headOk s .oreq h = true ∧ findReq (s.ni n) h.tag.toNat = none ∧ refusing s n = false
/-- The head is taken on CPO_ or IRSP_ and read at once: as on OREQ_. -/
abbrev cpoReads (s : State) (n : Nat) (h : Head) : Prop :=
  (s.ta (n / 7)).entering = none ∧ cpoTakes s n h = true ∧ readsLater s n h = false ∧ headOk s .cpo h = true
abbrev irspReads (s : State) (n : Nat) (h : Head) : Prop :=
  (s.ta (n / 7)).entering = none ∧ irspOpen s n = true ∧ injectRoom (s.ni n) n .irsp h = true ∧
  readsLater s n h = false ∧ headOk s .irsp h = true
/-- R41: the packet that an accepted head becomes. -/
def oreqPkt (s : State) (n : Nat) (h : Head) : Pkt :=
  headPkt s.nextId (nodeOf s n) (clampSc (niHiSc s n) (profile s (n / 7)) h.sc.toNat) h

/-- R49, R50: the packets that are open once a head has been accepted on a channel, and those whose last flit has crossed
behind more than one: the packet before it on the channel is complete, and this one is open while its tail has not
crossed. -/
abbrev openAfter (x : Ni) (ch : Chan) (h : Head) (p : Pkt) : List (Chan × Pkt) :=
  if tailLate h then x.openP.filter (fun q => decide (q.1 ≠ ch)) ++ [(ch, p)]
  else x.openP.filter (fun q => decide (q.1 ≠ ch))
abbrev lastAfter (x : Ni) (ch : Chan) (h : Head) (p : Pkt) : List (Chan × Pkt) :=
  if !tailLate h && decide (0 < p.len) then x.lastP.filter (fun q => decide (q.1 ≠ ch)) ++ [(ch, p)]
  else x.lastP.filter (fun q => decide (q.1 ≠ ch))

/-- R39: what the NI keeps of a request that awaits its response. -/
def reqOf (p : Pkt) : Req :=
  { id := p.id, tag := p.tag, opc := p.opc, sc := p.sc, addr := p.addr, words := p.touched }
/-- R151: a reservation exists in tile memory and in unit windows. -/
def reservable : Region → Bool
  | .tmem _ _ => true
  | .unit _ _ => true
  | _ => false
/-- The event is the last of the queue, and the others stand before it as they did. -/
abbrev logs (s t : State) (e : Ev) : Prop := t.evq = s.evq ++ [e]

/-- R321, R348: an event of this source passes its crossing and finds room in the record writer's queue. -/
abbrev eventPasses (s : State) (x : Xing) : Prop := crossHeld s x < 15 ∧ s.evq.length < 16
/-- R56, R152, R321: what an error bit of NI n may write: the error registers, the record, and the registers of the
crossing where it is full. -/
abbrev errRegs (n : Nat) : List Nat :=
  [niReg n Off.NI_ERR, niReg n Off.NI_ERR_INFO, niReg n Off.NI_RES_STAT, niReg n Off.CDC_STAT, niReg n Off.CDC_LOST_EVT]

/-- No direct access waits in an Opcon core. -/
abbrev coresIdle (s : State) : Prop := (s.core 0).wq = [] ∧ (s.core 1).wq = []
/-- R136, R145, R148, R173: nothing holds back a direct access of core c to k words from a. -/
abbrev coreGoes (s : State) (c a k : Nat) : Prop :=
  grdUpd s (448 + c) = false ∧ (s.ni (coreNi c)).bar = none ∧ ownEarlier s c a k = false ∧ queueRoom s a = true
/-- R222: firmware has read the header of every command that waits. -/
def headersRead (s : State) : Bool := (queuedBoxes s).all (fun n => (headerOf s n).isSome)
/-- R382: a register has a target, and an access to it wakes no tile. -/
def awake (s : State) (a : Nat) : Bool :=
  match target s a with
  | none => false
  | some (b, _, _) => match blockTile b with
    | some (t, false) => !tileDark s t
    | _ => true
/-- R4, R132: a decode miss is counted, and recorded where it is the first since the count was zero. -/
abbrev missNoted (s t : State) (node : Nat) (wr : Bool) (wh : Where) (a : Nat) : Prop :=
  t.reg (mtxReg Off.MTX_DECODE_MISS) = (s.reg (mtxReg Off.MTX_DECODE_MISS)).satInc ∧
  t.reg (mtxReg Off.MTX_DECODE_FIRST) = (if s.reg (mtxReg Off.MTX_DECODE_MISS) = 0
    then W.at 0 23 node ||| W.at 23 1 (b2n wr) ||| W.at 24 2 wh.code else s.reg (mtxReg Off.MTX_DECODE_FIRST)) ∧
  t.reg (mtxReg Off.MTX_DECODE_ADDR) = (if s.reg (mtxReg Off.MTX_DECODE_MISS) = 0
    then natW a else s.reg (mtxReg Off.MTX_DECODE_ADDR))
/-- R56, R152: an error bit of the NI is set, and the reservation record of its agent is cleared where the bit was not
set before. -/
abbrev errSet (s t : State) (n b : Nat) : Prop :=
  t.reg (niReg n Off.NI_ERR) = (s.reg (niReg n Off.NI_ERR)).put b 1 1 ∧
  t.reg (niReg n Off.NI_RES_STAT) =
    if regBit s (niReg n Off.NI_ERR) b then s.reg (niReg n Off.NI_RES_STAT) else 0
/-- The packet of a kind that the NI takes next from its eject FIFO, and what remains there. -/
abbrev nextEject (s : State) (n : Nat) (k : Pkt → Bool) : Option (Pkt × List Pkt) :=
  takeOrdered (fun p => k p && ejectReady s n p) [] (s.ni n).eject
/-- The flits of a packet taken from the eject FIFO are counted by class, but for those of a p5. -/
abbrev rxNoted (s t : State) (n : Nat) (p : Pkt) : Prop :=
  t.reg (niReg n (Off.NI_RX_FLIT p.sc)) =
    if n % 7 = 5 then s.reg (niReg n (Off.NI_RX_FLIT p.sc))
    else s.reg (niReg n (Off.NI_RX_FLIT p.sc)) + BitVec.ofNat 36 p.flits

/-- R120: the tracker of the frame that a cell belongs to, and the others. -/
def openFrame (s : State) (n : Nat) (p : Pkt) : Option LateTrk :=
  (s.ni n).late.find? (fun q => decide (q.src = p.src ∧ q.sc = p.sc))
def otherFrames (s : State) (n : Nat) (p : Pkt) : List LateTrk :=
  (s.ni n).late.filter (fun q => !decide (q.src = p.src ∧ q.sc = p.sc))
/-- R120: the bin that a lateness counts in. -/
def inBin (l b : Nat) : Bool :=
  if b = 0 then decide (l = 0) else if b = 15 then decide (16384 ≤ l) else decide (2 ^ (b - 1) ≤ l ∧ l < 2 ^ b)
/-- R120: a SOF cell whose tail is written at a opens its pair's frame, in place of one still open, unless all 64 trackers
are in use, or the cell ends it too; a frame replaced or not tracked is counted. -/
abbrev frameOpened (s t : State) (n : Nat) (p : Pkt) (a : Nat) : Prop :=
  (t.ni n).late = otherFrames s n p ++
    (if p.flag 1 || (openFrame s n p).isNone && decide (64 ≤ (otherFrames s n p).length) then []
     else [{ src := p.src, sc := p.sc, a0 := a, k := 0 }]) ∧
  t.reg (niReg n Off.NI_LATE_LOST_CNT) =
    (if (openFrame s n p).isSome || decide (64 ≤ (otherFrames s n p).length)
     then (s.reg (niReg n Off.NI_LATE_LOST_CNT)).satInc else s.reg (niReg n Off.NI_LATE_LOST_CNT)) ∧
  (∀ b < 16, t.reg (niReg n (Off.NI_LATE_H5 b)) = s.reg (niReg n (Off.NI_LATE_H5 b)) ∧
    t.reg (niReg n (Off.NI_LATE_HN b)) = s.reg (niReg n (Off.NI_LATE_HN b))) ∧
  t.reg (niReg n Off.NI_LATE_MAX) = s.reg (niReg n Off.NI_LATE_MAX) ∧
  t.reg (niReg n Off.NI_LATE_INFO) = s.reg (niReg n Off.NI_LATE_INFO) ∧
  t.reg (niReg n Off.NI_LATE_FT) = s.reg (niReg n Off.NI_LATE_FT)
/-- R120, R121: a later cell of the frame of tracker q, late by l, counts in its bin; the worst one since the last read
stands in NI_LATE_MAX with SRC and class and FT_L; above LOGTH it is logged, at most once in 1 ms. -/
abbrev latenessNoted (s t : State) (n : Nat) (p : Pkt) (q : LateTrk) (l : Nat) : Prop :=
  (t.ni n).late = otherFrames s n p ++ (if p.flag 1 then [] else [{ q with k := q.k + 1 }]) ∧
  t.reg (niReg n Off.NI_LATE_LOST_CNT) = s.reg (niReg n Off.NI_LATE_LOST_CNT) ∧
  (∀ b < 16, t.reg (niReg n (Off.NI_LATE_H5 b)) =
      s.reg (niReg n (Off.NI_LATE_H5 b)) + (if p.sc = 5 ∧ inBin l b = true then 1 else 0) ∧
    t.reg (niReg n (Off.NI_LATE_HN b)) =
      s.reg (niReg n (Off.NI_LATE_HN b)) + (if p.sc ≠ 5 ∧ inBin l b = true then 1 else 0)) ∧
  (t.reg (niReg n Off.NI_LATE_MAX)).toNat = max (s.reg (niReg n Off.NI_LATE_MAX)).toNat (min l 0xFFFFFF) ∧
  t.reg (niReg n Off.NI_LATE_INFO) = (if (s.reg (niReg n Off.NI_LATE_MAX)).toNat < min l 0xFFFFFF
    then W.at 0 23 p.src ||| W.at 23 3 p.sc else s.reg (niReg n Off.NI_LATE_INFO)) ∧
  t.reg (niReg n Off.NI_LATE_FT) = (if (s.reg (niReg n Off.NI_LATE_MAX)).toNat < min l 0xFFFFFF
    then ftLo (ftTile s (n / 7)) else s.reg (niReg n Off.NI_LATE_FT)) ∧
  (eventPasses s (.ni n) → t.evq = s.evq ++
    (if getFld s (niReg n Off.NI_LATE_CFG) 12 16 ≠ 0 ∧ getFld s (niReg n Off.NI_LATE_CFG) 12 16 < l ∧
        (s.ni n).lateFc.all (fun x => decide (x + 2400000 ≤ s.fc)) = true
     then [mkEv (ftTile s (n / 7)) (nodeOf s n) EvC.LATE_CELL
       [W.at 0 23 p.src ||| W.at 23 3 p.sc, natW p.tag, natW (min l 0xFFFFFF)]] else []))
/-- R120, R121 for a cell whose tail is written at a. -/
abbrev cellTracked (s t : State) (n : Nat) (p : Pkt) (a : Nat) : Prop :=
  (p.flag 0 = true → frameOpened s t n p a) ∧
  (p.flag 0 = false → (openFrame s n p).isSome = true →
    latenessNoted s t n p ((openFrame s n p).getD { src := 0, sc := 0, a0 := 0, k := 0 })
      (a - ((openFrame s n p).elim 0 (fun q => q.a0 + (q.k + 1) * getFld s (niReg n Off.NI_LATE_CFG) 0 12)))) ∧
  (p.flag 0 = false → openFrame s n p = none → (t.ni n).late = (s.ni n).late ∧ t.evq = s.evq)

/-- R87: of two heads, f has been ready longer, or as long at a lower input port. -/
def readyBefore (f g : Flight) : Bool :=
  decide (f.since.getD 0 < g.since.getD 0 ∨ (f.since.getD 0 = g.since.getD 0 ∧ f.inp < g.inp))
/-- R87: a head has reached the age limit. -/
def aged (s : State) (u : Nat) (f : Flight) : Bool :=
  decide ((s.reg (rtrReg u Off.RTR_AGE_LIM)).toNat ≤ s.fc - f.since.getD s.fc)
/-- R87: f is the head that output o starts of the heads `q` that it may start: of the classes above 4 the highest, and
there the oldest; else the oldest that has reached the age limit; else that of the class with the least virtual time, ties
to the higher class, whose input comes next in turn after the one served last. -/
def startsFirst (s : State) (u o : Nat) (q : List Flight) (f : Flight) : Bool :=
  let vt (g : Flight) := vtOf (outOf s u o).vt g.pkt.sc
  let turn (g : Flight) := (g.inp + 22 * ((outOf s u o).rr + 1)) % 23
  decide (f ∈ q) && q.all (fun g => decide (g.inp < 23)) &&
  (if 5 ≤ f.pkt.sc then decide (f.pkt.sc < 8) && q.all (fun g => decide (g = f) || decide (g.pkt.sc < f.pkt.sc) ||
      decide (g.pkt.sc = f.pkt.sc) && readyBefore f g)
   else q.all (fun g => decide (g.pkt.sc < 5)) &&
    (if aged s u f then q.all (fun g => decide (g = f) || !aged s u g || readyBefore f g)
     else q.all (fun g => decide (g = f) || !aged s u g && (decide (vt f < vt g) ||
      decide (vt f = vt g ∧ g.pkt.sc < f.pkt.sc) ||
      decide (g.pkt.sc = f.pkt.sc) && (decide (turn f < turn g) || decide (turn f = turn g) && readyBefore f g)))))

/-- R332 to R334: the halves of incoming link i on which a quarter of a flit is uncorrectable, and the quarters that half
h has had corrected. -/
def ueHalves (s : State) (u i : Nat) (qs : List Quarter) : List Nat :=
  (((qs.zip [0, 1, 2, 3]).filter (fun e => isUe e.1)).map (fun e => sliceOf s u i e.2)).eraseDups
def ceQuarters (s : State) (u i h : Nat) (qs : List Quarter) : Nat :=
  ((qs.zip [0, 1, 2, 3]).filter (fun e => !isUe e.1 && decide (e.1 ≠ .clean) && decide (sliceOf s u i e.2 = h))).length
/-- R332, R261: a flit of packet p crosses incoming link i of router u: both ends have the same form, some half is in use,
and no change of form holds new flits back. -/
abbrev flitComes (s : State) (u i : Nat) (p : Pkt) : Prop :=
  nextFlit s u i = some p ∧
    [0, 1].all (fun h => txFenced s (across u i) (portTo (across u i) u) h == rxFenced s u i h) = true ∧
    (rxFenced s u i 0 && rxFenced s u i 1) = false ∧ isLink u i = true
/-- No replay is under way, and the sender has room for one more unacknowledged flit. -/
abbrev newFlit (s : State) (u i : Nat) : Prop :=
  (linkOf s u i).nakFor = none ∧ storeLevel (linkOf s (across u i) (portTo (across u i) u)) < 16 ∧
    formDue s (across u i) (portTo (across u i) u) = false

/-- R194: no word of a launch waits right behind the request at the head of a tile memory's queue. -/
abbrev noEntryNext (q : List TReq) : Prop := q.head?.all (fun r => decide (r.via ≠ .entry)) = true

/-! ### Firmware -/

/-- R165: no word stands in a region of the guard of Opcon core c that refuses it to the core: the guard is off, or the core
runs privileged code and passes at the first word of every region. -/
def guardPasses (s : State) (c : Nat) : Bool :=
  !grdActive s (448 + c) || (!(s.core c).user && (List.range 16).all (fun k =>
    !regionOn s (448 + c) k || (accessFails s (448 + c) (grdStart s (448 + c) k) 1 true true true).isNone))
/-- R225: the active core's firmware runs a command of this opcode, which its mode serves and which has not had its
effect; the core's guard refuses it nothing, and no direct access waits in a core. -/
abbrev runsCmd (s : State) (op : Nat) (r : Running) : Prop :=
  s.running = some r ∧ fwAlive s = true ∧ hdrOpcode r.hdr = op ∧ r.done = false ∧ opServed s op = true ∧
    guardPasses s (activeCore s) = true ∧ coresIdle s
/-- The effect of the running command is complete, with this status and data; `ch` says whether it changed anything. -/
abbrev answersCmd (t : State) (r : Running) (code : Nat) (data : List W) (ch : Bool) : Prop :=
  t.running = some { r with code := code, data := data, done := true, changed := ch }
/-- R230: a register of the list has changed. -/
def anyNew (s t : State) (l : List Nat) : Bool := l.any (fun a => decide (t.reg a ≠ s.reg a))
/-- What a read of the register at an address shows. -/
def shown (s : State) (a : Nat) : W :=
  match regAt a with
  | none => 0
  | some (b, o, r) => regView s b o r (s.reg a)
/-- The registers of a list have a target, and reading them wakes no tile, clears nothing and frees no slot. -/
def readable (s : State) (l : List Nat) : Bool :=
  l.all (fun a => match target s a with
    | none => false
    | some (b, o, r) => decide (r.acc ≠ .rc) &&
        (match blockTile b with
         | some (t, false) => !tileDark s t
         | _ => true) &&
        (match statSlot b o with
         | some k => decide (slotState s k ≠ 8)
         | none => true))

/-- The word that the newest queued change will write at an address, and the addresses that it writes, in its order. -/
def queuedAt (t : State) (a : Nat) : Option W := (t.tickets.getLast?).bind (fun x => firstSome (entWord a) x.ents)
def queuedAddrs (t : State) : List Nat := ((t.tickets.getLast?).map (fun x => x.ents.map (·.1))).getD []

/-- R306: after the wake a register holds the word that firmware shadows for it, or the retained word v. -/
abbrev wokenAs (s t : State) (a : Nat) (v : W) : Prop :=
  t.reg a = ((s.shadows.find? (fun e => decide (e.1 = a))).map (·.2)).getD v
/-- R304: the register that the word of a lane repair names. -/
def remapOf (u : Nat) (v : W) : Nat :=
  slcReg u (v.fld 17 1) (if v.bit 18 then Off.LNK_RX_REMAP (v.fld 13 4) (v.fld 9 4) else Off.LNK_TX_REMAP (v.fld 13 4) (v.fld 9 4))

/-- R338: no poisoned word stands at a position of the scrubber's walk. -/
def scrubGood (s : State) (u pos : Nat) : Bool :=
  match scrubTarget s u pos with
  | .word off => !isPoison s (tmemAddr u off)
  | _ => true

end Sys2Proof.Machine
end

