-- ==== Sys2Proof/Certificates/Slice0/Obligations.lean ====
section
/-!
DEFINITION. The statements for the provers. A statement that names commands says of each that it completes, what the
state is afterwards, and what it leaves unchanged.
-/

open Sys2Proof Sys2Proof.Machine

/-- WR and STCOND, accepted while nothing but writes waits at the NI, enter the store buffer behind the writes there
and await their response; nothing else of the machine changes. -/
def Obligations.WriteBuffered : Prop :=
  ∀ (n : NiId) (h : Head) (s : State) (c : Instr), c = .wr n h ∨ c = .stcond n h →
    h.opcN = Opc.WR →
    oreqTakes s n.idx h →
    (s.ni n.idx).held = [] →
    (∀ e ∈ (s.ni n.idx).oq, isWrite e.pkt = true) →
    Completes c s (fun t =>
      (t.ni n.idx) = { (s.ni n.idx) with
        openP := openAfter (s.ni n.idx) .oreq h (oreqPkt s n.idx h),
        lastP := lastAfter (s.ni n.idx) .oreq h (oreqPkt s n.idx h),
        oq := (s.ni n.idx).oq ++ [{ pkt := (oreqPkt s n.idx h) }],
        outst := (s.ni n.idx).outst ++ [reqOf (oreqPkt s n.idx h)] } ∧
      changesOnly [.nis, .ids] s t ∧
      nisBut n.idx s t)

/-- RD, LDRES, FOP, the three lock operations and MSG, accepted at an NI where no packet waits, pass the guard and
go to the target of their address; LDRES also sets the reservation record where its target is a tile memory or a
unit window (the model's reading, log entry 14), a lock operation carries the epoch of its NI, a MSG to another
instance goes to the extension bridge, with its DST kept in a field of the model's (log entry 9). -/
def Obligations.RequestLaunched : Prop :=
  (∀ (n : NiId) (h : Head) (s : State) (c : Instr), c = .rd n h ∨ c = .fop n h →
     (h.opcN = Opc.RD ∧ h.flg.getLsbD 0 = false ∨ h.opcN = Opc.FOP) →
     oreqTakes s n.idx h →
     quietNi (s.ni n.idx) →
     guardFails s n.idx (oreqPkt s n.idx h) = none →
     sourceMiss (regionOf s h.arga) (oreqPkt s n.idx h) = false →
     Completes c s (fun t =>
       (t.ni n.idx) = { (s.ni n.idx) with
         openP := openAfter (s.ni n.idx) .oreq h (oreqPkt s n.idx h),
         lastP := lastAfter (s.ni n.idx) .oreq h (oreqPkt s n.idx h),
         outst := (s.ni n.idx).outst ++ [reqOf ((oreqPkt s n.idx h))],
         stage := (s.ni n.idx).stage ++ [{ ch := .oreq, pkt :=
           { (oreqPkt s n.idx h) with dst := targetOf s n.idx (regionOf s h.arga) } }] } ∧
       changesOnly [.nis, .ids] s t ∧
       nisBut n.idx s t)) ∧
  (∀ (n : NiId) (h : Head) (s : State),
     h.opcN = Opc.RD →
     h.flg.getLsbD 0 = true →
     oreqTakes s n.idx h →
     quietNi (s.ni n.idx) →
     guardFails s n.idx (oreqPkt s n.idx h) = none →
     sourceMiss (regionOf s h.arga) (oreqPkt s n.idx h) = false →
     Completes (.ldres n h) s (fun t =>
       (t.ni n.idx) = { (s.ni n.idx) with
         openP := openAfter (s.ni n.idx) .oreq h (oreqPkt s n.idx h),
         lastP := lastAfter (s.ni n.idx) .oreq h (oreqPkt s n.idx h),
         outst := (s.ni n.idx).outst ++ [reqOf ((oreqPkt s n.idx h))],
         stage := (s.ni n.idx).stage ++ [{ ch := .oreq, pkt :=
           { (oreqPkt s n.idx h) with dst := targetOf s n.idx (regionOf s h.arga) } }] } ∧
       t.reg (niReg n.idx Off.NI_RES_STAT) = (if reservable (regionOf s h.arga) = true
                                              then natW (h.arga / 16 * 16) ||| 1
                                              else s.reg (niReg n.idx Off.NI_RES_STAT)) ∧
       regsBut [(niReg n.idx Off.NI_RES_STAT)] s t ∧
       changesOnly [.nis, .ids, .regs] s t ∧
       nisBut n.idx s t)) ∧
  (∀ (n : NiId) (h : Head) (s : State) (c : Instr), c = .lkacq n h ∨ c = .lkrnw n h ∨ c = .lkrel n h →
     isLock h.opcN = true →
     oreqTakes s n.idx h →
     quietNi (s.ni n.idx) →
     guardFails s n.idx (oreqPkt s n.idx h) = none →
     sourceMiss (regionOf s h.arga) (oreqPkt s n.idx h) = false →
     Completes c s (fun t =>
       (t.ni n.idx) = { (s.ni n.idx) with
         openP := openAfter (s.ni n.idx) .oreq h (stampEpoch s n.idx (oreqPkt s n.idx h)),
         lastP := lastAfter (s.ni n.idx) .oreq h (stampEpoch s n.idx (oreqPkt s n.idx h)),
         outst := (s.ni n.idx).outst
         ++ [reqOf (stampEpoch s n.idx (oreqPkt s n.idx h))], stage := (s.ni n.idx).stage ++
           [{ ch := .oreq, pkt := { stampEpoch s n.idx (oreqPkt s n.idx h) with
             dst := targetOf s n.idx (regionOf s h.arga) } }] } ∧
       changesOnly [.nis, .ids] s t ∧
       nisBut n.idx s t)) ∧
  (∀ (n : NiId) (h : Head) (s : State),
     h.opcN = Opc.MSG →
     oreqTakes s n.idx h →
     quietNi (s.ni n.idx) →
     Completes (.msg n h) s (fun t =>
       (t.ni n.idx) = { (s.ni n.idx) with
         openP := openAfter (s.ni n.idx) .oreq h (oreqPkt s n.idx h),
         lastP := lastAfter (s.ni n.idx) .oreq h (oreqPkt s n.idx h),
         stage := (s.ni n.idx).stage ++
           [{ ch := .oreq, pkt := { oreqPkt s n.idx h with
             dst := msgDst s (h.w0.fld 0 23), mask := h.w0.fld 0 23 } }] } ∧
       changesOnly [.nis, .ids] s t ∧
       nisBut n.idx s t))

/-- BAR.AGENT and BAR.TILE mark the outstanding requests of their NI or of every NI of their tile, BAR.SYS those
of every NI, the queued bridge writes and the control-matrix accesses in progress; NI_BAR_STAT shows PEND and the
scope. What counts as an access in progress, and that all marks are set at once, is the model's reading (log entry
13). -/
def Obligations.BarrierStarts : Prop :=
  (∀ (n : NiId) (h : Head) (s : State) (c : Instr), c = .barAgent n h ∨ c = .barTile n h →
     h.opcN = Opc.BAR →
     oreqTakes s n.idx h →
     h.flg.toNat % 4 ≤ 1 →
     Completes c s (fun t =>
       (t.ni n.idx) = { (s.ni n.idx) with
         openP := openAfter (s.ni n.idx) .oreq h (oreqPkt s n.idx h),
         lastP := lastAfter (s.ni n.idx) .oreq h (oreqPkt s n.idx h),
         bar := some
           { scope := h.flg.toNat % 4, tag := h.tag.toNat, sc := (oreqPkt s n.idx h).sc,
             marks := barMarks s n.idx (h.flg.toNat % 4) } } ∧
       t.reg (niReg n.idx Off.NI_BAR_STAT) = W.at 0 1 1 ||| W.at 1 2 (h.flg.toNat % 4) ∧
       regsBut [(niReg n.idx Off.NI_BAR_STAT)] s t ∧
       changesOnly [.nis, .ids, .regs] s t ∧
       nisBut n.idx s t)) ∧
  (∀ (n : NiId) (h : Head) (s : State),
     h.opcN = Opc.BAR →
     oreqTakes s n.idx h →
     h.flg.toNat % 4 = 2 →
     Completes (.barSys n h) s (fun t =>
       (∃ b, (t.ni n.idx).bar = some b ∧ b.scope = 2 ∧ b.tag = h.tag.toNat ∧ (∀ m, ∀ q ∈ (s.ni m).outst,
                                                                              q.id ∈ b.marks)
        ∧ ∀ i ∈ matrixMarks s, i ∈ b.marks) ∧
       (t.ni n.idx) = { (s.ni n.idx) with
         openP := openAfter (s.ni n.idx) .oreq h (oreqPkt s n.idx h),
         lastP := lastAfter (s.ni n.idx) .oreq h (oreqPkt s n.idx h),
         bar := some { scope := 2, tag := h.tag.toNat, sc := (oreqPkt s n.idx h).sc, marks := barMarks s n.idx 2 } } ∧
       t.reg (niReg n.idx Off.NI_BAR_STAT) = W.at 0 1 1 ||| W.at 1 2 2 ∧
       t.reg (mtxReg Off.MTX_BAR_STAT) = (s.reg (mtxReg Off.MTX_BAR_STAT)).put 0 9 ((s.reg (mtxReg Off.MTX_BAR_STAT)).fld 0 9
                                                                                    + 1) ∧
       regsBut [(niReg n.idx Off.NI_BAR_STAT), (mtxReg Off.MTX_BAR_STAT)] s t ∧
       changesOnly [.nis, .ids, .regs] s t ∧
       nisBut n.idx s t))

/-- Once every marked access is performed the barrier ends with BARACK OK; at the timeout it ends with BARACK
ABORTED, MTX_BAR_TO_CNT counts and BAR_TIMEOUT is logged with node and scope. -/
def Obligations.BarrierEnds : Prop :=
  (∀ (n : NiId) (b : Bar) (s : State),
     (s.ni n.idx).bar = some b →
     coresIdle s →
     barDone s b = true →
     headersRead s = true →
     Completes (.barrierComplete n) s (fun t =>
       (t.ni n.idx) = { (s.ni n.idx) with
         bar := none, out := (s.ni n.idx).out ++
           [{ ch := .orsp, pkt := { opc := Opc.BARACK, dst := nodeOf s n.idx, src := nodeOf s n.idx, sc := b.sc,
                                    tag := b.tag, arg := natW St.OK } }] } ∧
       t.reg (niReg n.idx Off.NI_BAR_STAT) = 0 ∧
       t.reg (mtxReg Off.MTX_BAR_STAT) = (if b.scope = 2
                                          then (s.reg (mtxReg Off.MTX_BAR_STAT)).put 0 9 ((s.reg (mtxReg Off.MTX_BAR_STAT)).fld 0 9 - 1)
                                          else s.reg (mtxReg Off.MTX_BAR_STAT)) ∧
       regsBut [(niReg n.idx Off.NI_BAR_STAT), (mtxReg Off.MTX_BAR_STAT)] s t ∧
       changesOnly [.nis, .regs] s t ∧
       nisBut n.idx s t)) ∧
  (∀ (n : NiId) (b : Bar) (s : State),
     (s.ni n.idx).bar = some b →
     coresIdle s →
     barDone s b = false →
     eventPasses s (.ni n.idx) →
     headersRead s = true →
     Completes (.barTimeout n) s (fun t =>
       (t.ni n.idx) = { (s.ni n.idx) with
         bar := none, out := (s.ni n.idx).out ++
           [{ ch := .orsp, pkt := { opc := Opc.BARACK, dst := nodeOf s n.idx, src := nodeOf s n.idx, sc := b.sc,
                                    tag := b.tag, arg := natW St.ABORTED } }] } ∧
       t.reg (niReg n.idx Off.NI_BAR_STAT) = 0 ∧
       t.reg (mtxReg Off.MTX_BAR_STAT) = (if b.scope = 2
                                          then (s.reg (mtxReg Off.MTX_BAR_STAT)).put 0 9 ((s.reg (mtxReg Off.MTX_BAR_STAT)).fld 0 9 - 1)
                                          else s.reg (mtxReg Off.MTX_BAR_STAT)) ∧
       t.reg (mtxReg Off.MTX_BAR_TO_CNT) = (s.reg (mtxReg Off.MTX_BAR_TO_CNT)).satInc ∧
       logs s t (mkEv (ftNow s) (nodeOf s n.idx) EvC.BAR_TIMEOUT [W.at 1 2 b.scope]) ∧
       regsBut [(niReg n.idx Off.NI_BAR_STAT), (mtxReg Off.MTX_BAR_STAT), mtxReg Off.MTX_BAR_TO_CNT] s t ∧
       changesOnly [.nis, .regs, .log] s t ∧
       nisBut n.idx s t))

/-- A write that passes the guard, is no STCOND, misses nothing and is not for the NI itself goes to the target of
its address and stays in the buffer until its WRACK. -/
def Obligations.StoreBufferDrains : Prop :=
  ∀ (n : NiId) (e : OEntry) (rest : List OEntry) (s : State),
    takeFirst (fun f => !f.left) (s.ni n.idx).oq = some (e, rest) →
    (∀ f ∈ (s.ni n.idx).oq, isWrite f.pkt = true) →
    (s.ni n.idx).held = [] →
    grdHolds s n.idx = false →
    e.pkt.isStcond = false →
    guardFails s n.idx e.pkt = none →
    sourceMiss (regionOf s e.pkt.addr) e.pkt = false →
    ownWrite n.idx e.pkt.addr = false →
    Completes (.storeBufferDrain n) s (fun t =>
      (t.ni n.idx) = { (s.ni n.idx) with
        oq := (s.ni n.idx).oq.map (fun f => if f.pkt.id = e.pkt.id then { f with left := true } else f),
        stage := (s.ni n.idx).stage ++ [{ ch := .oreq, pkt :=
          { e.pkt with dst := targetOf s n.idx (regionOf s e.pkt.addr) } }] } ∧
      changesOnly [.nis] s t ∧
      nisBut n.idx s t)

/-- RDRESP, WRACK, FOPRESP and LKRESP that answer an inbound request leave with its class and free it. -/
def Obligations.ResponseLeavesUnit : Prop :=
  ∀ (n : NiId) (h : Head) (q : Inb) (rest : List Inb) (s : State) (c : Instr), c = .rdresp n h ∨ c = .wrack n h ∨ c = .fopresp n h ∨ c = .lkresp n h →
    irspReads s n.idx h →
    findInb (s.ni n.idx) (h.w0.fld 0 23) h.tag.toNat = some (q, rest) →
    Completes c s (fun t =>
      (t.ni n.idx) = { (s.ni n.idx) with
        openP := openAfter (s.ni n.idx) .irsp h (headPkt q.id (nodeOf s n.idx) q.sc h),
        lastP := lastAfter (s.ni n.idx) .irsp h (headPkt q.id (nodeOf s n.idx) q.sc h),
        inb := rest, stage := (s.ni n.idx).stage ++
          [{ ch := .irsp, pkt := headPkt q.id (nodeOf s n.idx) q.sc h }] } ∧
      changesOnly [.nis] s t ∧
      nisBut n.idx s t)

/-- A CELL with a held handle for its destination and class leaves with that handle and slot; without one, and with
no request outstanding, it waits and RSVREQ is sent for it. A CELLMC whose group, lanes and credits are at hand
leaves with the mask of its group, debiting one credit at each destination. -/
def Obligations.CellAccepted : Prop :=
  (∀ (n : NiId) (h : Head) (k : HeldH) (rest : List HeldH) (s : State),
     h.opcN = Opc.CELL →
     cpoReads s n.idx h →
     refusing s n.idx = false →
     firstHeld (s.ni n.idx) (h.w0.fld 0 23) (oreqPkt s n.idx h).sc = some (k, rest) →
     Completes (.cell n h) s (fun t =>
       (t.ni n.idx) = { (s.ni n.idx) with
         openP := openAfter (s.ni n.idx) .cpo h (oreqPkt s n.idx h),
         lastP := lastAfter (s.ni n.idx) .cpo h (oreqPkt s n.idx h),
         handles := rest, stage := (s.ni n.idx).stage ++
           [{ ch := .cpo, pkt := { (oreqPkt s n.idx h) with arg := cellArg k.handle (k.slot.getD 0) 0 false } }] } ∧
       regsBut [niReg n.idx Off.NI_ADM_WAIT_MAX] s t ∧
       changesOnly [.nis, .ids, .regs] s t ∧
       nisBut n.idx s t)) ∧
  (∀ (n : NiId) (h : Head) (s : State),
     h.opcN = Opc.CELL →
     cpoReads s n.idx h →
     refusing s n.idx = false →
     firstHeld (s.ni n.idx) (h.w0.fld 0 23) (oreqPkt s n.idx h).sc = none →
     (s.ni n.idx).rsv = none →
     Completes (.cell n h) s (fun t =>
       (t.ni n.idx) = { (s.ni n.idx) with
         openP := openAfter (s.ni n.idx) .cpo h (oreqPkt s n.idx h),
         lastP := lastAfter (s.ni n.idx) .cpo h (oreqPkt s n.idx h),
         cell := some { pkt := (oreqPkt s n.idx h), since := s.fc,
                                                     asked := [n.idx] }, rsv := some
                                                       { dst := h.w0.fld 0 23, sc := (oreqPkt s n.idx h).sc,
                                                         cnt := reqCnt s n.idx (oreqPkt s n.idx h),
                                                         since := s.fc }, stage := (s.ni n.idx).stage ++
                                                           [{ ch := .own, pkt := { opc := Opc.RSVREQ,
                                                                                   dst := h.w0.fld 0 23,
                                                                                   src := nodeOf s n.idx,
                                                                                   sc := (oreqPkt s n.idx h).sc,
                                                                                   cnt := reqCnt s n.idx (oreqPkt s n.idx h) } }] } ∧
       changesOnly [.nis, .ids] s t ∧
       nisBut n.idx s t)) ∧
  (∀ (n : NiId) (h : Head) (e : GroupEnt) (s : State),
     h.opcN = Opc.CELLMC →
     cpoReads s n.idx h →
     refusing s n.idx = false →
     regBit s (niReg n.idx Off.NI_MC_CFG) 0 = true →
     cacheGet (s.ni n.idx) (h.arg.fld 0 14) = some e →
     e.valid = true →
     e.mask ≠ 0 →
     (tilesOf e.mask).foldl (fun a d => a + 2 ^ d) 0 = e.mask →
     (∀ d ∈ tilesOf e.mask, reachable s (n.idx / 7) d = true
      ∧ (laneGet (s.ni n.idx) d (h.arg.fld 0 14)).isSome = true) →
     (∀ d ∈ mcDests (s.ni n.idx) e.mask (h.arg.fld 0 14), claims (s.ni n.idx) d < credit (s.ni n.idx) d) →
     Completes (.cellmc n h) s (fun t =>
       (t.ni n.idx).cell = none ∧
       (t.ni n.idx).stage = (s.ni n.idx).stage ++
         [{ ch := .cpo, pkt := { (oreqPkt s n.idx h) with mask := e.mask },
            debts := mcDests (s.ni n.idx) e.mask (h.arg.fld 0 14) }] ∧
       (t.ni n.idx).credits = (s.ni n.idx).credits ∧
       regsBut [niReg n.idx Off.NI_ADM_WAIT_MAX] s t ∧
       changesOnly [.nis, .ids, .regs] s t ∧
       nisBut n.idx s t))

/-- A flit that belongs to no packet sets NI_ERR.BADPKT; a later flit that fails discards a cell that still waits in
the NI, with BADPKT to its unit; a response, a cell or a packet without response that its unit does not complete
in NI_PKT_TO is ended with KILL wherever it is, NI_ERR.PKT_TO and KILL_TX are set and NI_KILL_TX_CNT counts. -/
def Obligations.MalformedPacket : Prop :=
  (∀ (n : NiId) (ch : Chan) (s : State),
     Completes (.orphanFlit n ch) s (fun t =>
       errSet s t n.idx ErrB.BADPKT ∧
       (t.ni n.idx) = { (s.ni n.idx) with openP := (s.ni n.idx).openP.filter (fun q => decide (q.1 ≠ ch)) } ∧
       regsBut (errRegs n.idx) s t ∧
       changesOnly [.nis, .regs, .log] s t ∧
       nisBut n.idx s t)) ∧
  (∀ (n : NiId) (p : Pkt) (w : CellWait) (s : State),
     firstUnread (s.ni n.idx) .cpo = none →
     openOf (s.ni n.idx) .cpo = some p →
     (s.ni n.idx).cell = some w →
     w.pkt.id = p.id →
     (∀ e ∈ (s.ni n.idx).stage, e.pkt.id ≠ p.id) →
     (∀ e ∈ (s.ni n.idx).oq, e.pkt.id ≠ p.id) →
     (∀ e ∈ (s.ni n.idx).held, e.id ≠ p.id) →
     Completes (.sequenceFail n .cpo) s (fun t =>
       errSet s t n.idx ErrB.BADPKT ∧
       (t.ni n.idx) = { (s.ni n.idx) with
         openP := (s.ni n.idx).openP.filter (fun q => decide (q.1 ≠ .cpo)), cell := none, out := (s.ni n.idx).out
         ++ [{ ch := .orsp, pkt := { id := p.id, opc := Opc.CELLREF, dst := p.src, src := nodeOf s n.idx,
                                     sc := p.sc, tag := p.tag, arg := natW St.BADPKT } }] } ∧
       regsBut (errRegs n.idx) s t ∧
       changesOnly [.nis, .regs, .log] s t ∧
       nisBut n.idx s t)) ∧
  (∀ (n : NiId) (ch : Chan) (p : Pkt) (s : State),
     openOf (s.ni n.idx) ch = some p →
     notInjected (s.ni n.idx) p.id = false →
     inFlight s p = true →
     (ch = .irsp ∨ ch = .cpo ∨ ch = .oreq ∧ isAccess p.opc = false) →
     Completes (.pktTo n ch) s (fun t =>
       t.reg (niReg n.idx Off.NI_ERR) = ((s.reg (niReg n.idx Off.NI_ERR)).put ErrB.PKT_TO 1 1).put ErrB.KILL_TX 1 1 ∧
       t.reg (niReg n.idx Off.NI_RES_STAT) =
         (if regBit s (niReg n.idx Off.NI_ERR) ErrB.PKT_TO && regBit s (niReg n.idx Off.NI_ERR) ErrB.KILL_TX
          then s.reg (niReg n.idx Off.NI_RES_STAT) else 0) ∧
       t.reg (niReg n.idx Off.NI_KILL_TX_CNT) = (s.reg (niReg n.idx Off.NI_KILL_TX_CNT)).satInc ∧
       t.routers = (killInNet s p).routers ∧
       t.tmcs = (killInNet s p).tmcs ∧
       (t.ni n.idx).openP = (s.ni n.idx).openP.filter (fun q => decide (q.1 ≠ ch)) ∧
       (∀ m, m ≠ n.idx → t.ni m = (killInNet s p).ni m) ∧
       regsBut (errRegs n.idx ++ [niReg n.idx Off.NI_KILL_TX_CNT]) s t ∧
       changesOnly [.nis, .regs, .log, .routers, .tmcs] s t))

/-- The first head of a channel leaves stages 2 and 3 when its router is in service, no route change holds it, its
destination is reachable, no earlier request of another class touches its words, the slots of the local input
port and the tokens of its class suffice: the slots and tokens are debited and the packet stands at its local
input port. -/
def Obligations.HeadInjected : Prop :=
  ∀ (n : NiId) (ch : Chan) (e : Staged) (rest : List Staged) (k : Cnt) (s : State),
    takeFirst (fun g => decide (g.ch = ch)) (s.ni n.idx).stage = some (e, rest) →
    refusing s n.idx = false →
    routerOut s (n.idx / 7) = false →
    routeHeld s (n.idx / 7) e.pkt = false →
    packetReachable s (n.idx / 7) e.pkt = true →
    clsHeld (s.ni n.idx) e.pkt = false →
    takeSlots (cntOf s (n.idx / 7) (16
                                    + n.idx % 7)) (sc5Rsv s (n.idx / 7)) (vcKey (vnOf e.pkt.opc) 0) e.pkt.flits e.pkt.sc 0 = some k →
    isPunt s n.idx e.pkt = false →
    tokensOk s n.idx e.pkt = true →
    (s.ta (n.idx / 7)).entering = none →
    Completes (.niInject n ch) s (fun t =>
      (t.ni n.idx).stage = rest ∧
      (t.rt (n.idx / 7)).inq.dropLast = (s.rt (n.idx / 7)).inq ∧
      (t.rt (n.idx / 7)).inq.getLast?.map (fun f => (f.pkt.opc, f.pkt.dst, f.pkt.words, f.inp, f.vc,
                                                     f.arrived)) = some (e.pkt.opc, e.pkt.dst, e.pkt.words, 16
                                                                         + n.idx % 7, 0, e.pkt.flits) ∧
      cntOf t (n.idx / 7) (16 + n.idx % 7) = k ∧
      t.reg (niReg n.idx Off.NI_TB_LEVEL) = (if metered n.idx e.pkt.sc = true
                                             then (s.reg (niReg n.idx Off.NI_TB_LEVEL)).put (tbLo e.pkt.sc) 11 (tokens s n.idx e.pkt.sc - e.pkt.flits)
                                             else s.reg (niReg n.idx Off.NI_TB_LEVEL)) ∧
      changesOnly [.nis, .regs, .routers, .ids, .log] s t ∧
      nisBut n.idx s t ∧
      routersBut [n.idx / 7] s t ∧
      regsBut [niReg n.idx Off.NI_TB_LEVEL, niReg n.idx Off.NI_HI_UNDECL_CNT, niReg n.idx Off.NI_RSV_ERR,
               niReg n.idx Off.NI_RES_STAT, niReg n.idx (Off.NI_TX_FLIT e.pkt.sc)] s t)

/-- A reset of the unit discards what it has not injected and its barrier, answers with ABORTED what it has been
given and the requests whose responses it discards, increments its epoch and ends its reservation; at its end the
entries of fanfares that waited are presented. -/
def Obligations.UnitResets : Prop :=
  (∀ (n : NiId) (s : State),
     (s.ni n.idx).urst = false →
     (s.ni n.idx).openP = [] →
     (s.ni n.idx).eject = [] →
     (s.ni n.idx).handles = [] →
     (s.ni n.idx).credits = [] →
     (s.ni n.idx).rsv = none →
     (∀ e ∈ (s.ni n.idx).stage, e.ch ≠ .cpo) →
     Completes (.unitReset n) s (fun t =>
       (t.ni n.idx).urst = true ∧ (t.ni n.idx).bar = none ∧ (t.ni n.idx).cell = none ∧ (t.ni n.idx).held = []
         ∧ (t.ni n.idx).inb = [] ∧
       (t.ni n.idx).oq = [] ∧ (t.ni n.idx).openP = [] ∧ (t.ni n.idx).lastP = [] ∧
       (t.ni n.idx).stage = (s.ni n.idx).stage.filter (fun e => decide (e.ch = .own))
         ++ ((s.ni n.idx).stage.filter (fun e => decide (e.ch = .irsp))).map (fun e =>
           ({ ch := .own, pkt := emptyResp e.pkt St.ABORTED } : Staged)) ++ (s.ni n.idx).inb.map (fun q =>
           ({ ch := .own, pkt := mkResp { id := q.id, opc := q.opc, src := q.src, tag := q.tag,
                                          sc := q.sc } (nodeOf s n.idx) St.ABORTED (if isLock q.opc = true
                                                                                    then [0, 0]
                                                                                    else []) 0 } : Staged)) ∧
       t.reg (niReg n.idx Off.NI_ABORT_CNT) = forEach (fun _ w => w.satInc) (s.ni n.idx).inb
         (forEach (fun _ w => w.satInc) ((s.ni n.idx).stage.filter (fun e => decide (e.ch = .irsp))) (s.reg (niReg n.idx Off.NI_ABORT_CNT))) ∧
       t.reg (niReg n.idx Off.NI_EPOCH) = (s.reg (niReg n.idx Off.NI_EPOCH)).put 0 8 ((s.reg (niReg n.idx Off.NI_EPOCH)).fld 0 8
                                                                                      + 1) ∧
       t.reg (niReg n.idx Off.NI_RES_STAT) = 0 ∧
       t.reg (niReg n.idx Off.NI_BAR_STAT) = 0 ∧
       t.reg (mtxReg Off.MTX_BAR_STAT) = (if ((s.ni n.idx).bar.map (fun b => b.scope)) = some 2
                                          then (s.reg (mtxReg Off.MTX_BAR_STAT)).put 0 9 ((s.reg (mtxReg Off.MTX_BAR_STAT)).fld 0 9 - 1)
                                          else s.reg (mtxReg Off.MTX_BAR_STAT)) ∧
       regsBut [niReg n.idx Off.NI_EPOCH, niReg n.idx Off.NI_RES_STAT, niReg n.idx Off.NI_ABORT_CNT,
                (niReg n.idx Off.NI_BAR_STAT), (mtxReg Off.MTX_BAR_STAT)] s t ∧
       changesOnly [.nis, .regs, .log, .fanfare] s t ∧
       nisBut n.idx s t)) ∧
  (∀ (n : NiId) (s : State),
     (s.ni n.idx).urst = true →
     Completes (.unitResetRelease n) s (fun t =>
       (t.ni n.idx) = (if tileDark s (n.idx / 7) = true then { (s.ni n.idx) with urst := false } else { (s.ni n.idx) with
         urst := false, out := (s.ni n.idx).out
         ++ ((s.ni n.idx).hold.filter (fun e => !e.delivered)).map (fun e =>
           { ch := .ireq, pkt := stagePkt (nodeOf s n.idx) e }), hold := (s.ni n.idx).hold.map (fun e =>
             { e with delivered := true }) }) ∧
       changesOnly [.nis] s t ∧
       nisBut n.idx s t))

/-- A fall of EN begins a drain, which ends when nothing of the unit remains, or at its timeout as a reset of the
unit does; then DRAINED is set and UNIT_DRAINED logged with the counts. A rise of EN clears DRAINED, the free list
and the standing sets. -/
def Obligations.UnitDrains : Prop :=
  (∀ (n : NiId) (s : State),
     niEn s n.idx = true →
     (s.ni n.idx).eject.filter (fun p => isUnitKind p && !p.killed) = [] →
     awake s (niReg n.idx Off.NI_CTRL) = true →
     Completes (.drain n) s (fun t =>
       (t.ni n.idx) = { (s.ni n.idx) with draining := true, drained := false, expired := false } ∧
       t.reg (niReg n.idx Off.NI_CTRL) = W.at 0 4 (((s.reg (niReg n.idx Off.NI_CTRL)).put 0 1 0).fld 0 4) ∧
       regsBut [niReg n.idx Off.NI_CTRL] s t ∧
       changesOnly [.nis, .regs] s t ∧
       nisBut n.idx s t)) ∧
  (∀ (n : NiId) (s : State),
     (s.ni n.idx).draining = true →
     nothingLeft s n.idx = true →
     eventPasses s (.ni n.idx) →
     Completes (.drainEnd n) s (fun t =>
       (t.ni n.idx) = { (s.ni n.idx) with draining := false, drained := true } ∧
       logs s t (mkEv (ftNow s) (nodeOf s n.idx) EvC.UNIT_DRAINED [s.reg (niReg n.idx Off.NI_DROP_CNT),
                                                                   t.reg (niReg n.idx Off.NI_ABORT_CNT)]) ∧
       changesOnly [.nis, .log] s t ∧
       nisBut n.idx s t)) ∧
  (∀ (n : NiId) (s : State),
     (s.ni n.idx).draining = true →
     eventPasses s (.ni n.idx) →
     (s.ni n.idx).openP = [] →
     (s.ni n.idx).eject = [] →
     (s.ni n.idx).handles = [] →
     (s.ni n.idx).credits = [] →
     (s.ni n.idx).rsv = none →
     (∀ e ∈ (s.ni n.idx).stage, e.ch ≠ .cpo) →
     Completes (.drainTimeout n) s (fun t =>
       (t.ni n.idx).draining = false ∧ (t.ni n.idx).drained = true ∧ (t.ni n.idx).cell = none
         ∧ (t.ni n.idx).held = [] ∧ (t.ni n.idx).inb = [] ∧
       (t.ni n.idx).oq = [] ∧ (t.ni n.idx).openP = [] ∧ (t.ni n.idx).lastP = [] ∧
       (t.ni n.idx).stage = (s.ni n.idx).stage.filter (fun e => decide (e.ch = .own))
         ++ ((s.ni n.idx).stage.filter (fun e => decide (e.ch = .irsp))).map (fun e =>
           ({ ch := .own, pkt := emptyResp e.pkt St.ABORTED } : Staged)) ++ (s.ni n.idx).inb.map (fun q =>
           ({ ch := .own, pkt := mkResp { id := q.id, opc := q.opc, src := q.src, tag := q.tag,
                                          sc := q.sc } (nodeOf s n.idx) St.ABORTED (if isLock q.opc = true
                                                                                    then [0, 0]
                                                                                    else []) 0 } : Staged)) ∧
       t.reg (niReg n.idx Off.NI_ABORT_CNT) = forEach (fun _ w => w.satInc) (s.ni n.idx).inb
         (forEach (fun _ w => w.satInc) ((s.ni n.idx).stage.filter (fun e => decide (e.ch = .irsp))) (s.reg (niReg n.idx Off.NI_ABORT_CNT))) ∧
       logs s t (mkEv (ftNow s) (nodeOf s n.idx) EvC.UNIT_DRAINED [s.reg (niReg n.idx Off.NI_DROP_CNT),
                                                                   t.reg (niReg n.idx Off.NI_ABORT_CNT)]) ∧
       regsBut [niReg n.idx Off.NI_ABORT_CNT] s t ∧
       changesOnly [.nis, .regs, .log] s t ∧
       nisBut n.idx s t)) ∧
  (∀ (n : NiId) (s : State),
     niEn s n.idx = false →
     awake s (niReg n.idx Off.NI_CTRL) = true →
     Completes (.niEnable n) s (fun t =>
       (t.ni n.idx) = { (s.ni n.idx) with
         draining := false, drained := false, expired := false, free := [], runs := [], standing := [] } ∧
       t.reg (niReg n.idx Off.NI_CTRL) = W.at 0 4 (((s.reg (niReg n.idx Off.NI_CTRL)).put 0 1 1).fld 0 4) ∧
       regsBut [niReg n.idx Off.NI_CTRL] s t ∧
       changesOnly [.nis, .regs] s t ∧
       nisBut n.idx s t))

/-- A request or message for an enabled, populated unit is presented on IREQ_, and a request awaits its answer; one
for an unpopulated unit counts as a decode miss and is answered without data. A read of Opcon SRAM at NI(0,6) or
NI(63,6) is answered with its words. A response frees its tag and, of a write, its store-buffer entry; PHOLD is
presented like a message. -/
def Obligations.UnitReceives : Prop :=
  (∀ (n : NiId) (p : Pkt) (rest : List Pkt) (s : State),
     nextEject s n.idx (fun p => isUnitKind p && !forBridge n.idx p) = some (p, rest) →
     populated s n.idx = true →
     n.idx ≠ 6 ∧ n.idx ≠ 447 →
     (s.ni n.idx).urst = false →
     niEn s n.idx = true →
     Completes (.inboundRequest n) s (fun t =>
       (t.ni n.idx) = { (s.ni n.idx) with
         eject := rest, out := (s.ni n.idx).out ++ [{ ch := .ireq, pkt := p }], inb := if isAccess p.opc = true
         then (s.ni n.idx).inb ++ [{ src := p.src, tag := p.tag, opc := p.opc, sc := p.sc, id := p.id }]
         else (s.ni n.idx).inb } ∧
       rxNoted s t n.idx p ∧
       regsBut [niReg n.idx (Off.NI_RX_FLIT p.sc)] s t ∧
       changesOnly [.nis, .regs] s t ∧
       nisBut n.idx s t)) ∧
  (∀ (n : NiId) (p : Pkt) (rest : List Pkt) (s : State),
     nextEject s n.idx (fun p => isUnitKind p && !forBridge n.idx p) = some (p, rest) →
     populated s n.idx = false →
     n.idx ≠ 6 ∧ n.idx ≠ 447 →
     isAccess p.opc = true →
     Completes (.inboundRequest n) s (fun t =>
       (t.ni n.idx) = { (s.ni n.idx) with
         eject := rest, stage := (s.ni n.idx).stage ++
           [{ ch := .own, pkt := mkResp p (nodeOf s n.idx) St.DECERR (zeroData p) 0 }] } ∧
       rxNoted s t n.idx p ∧
       t.reg (mtxReg Off.MTX_DECODE_MISS) = (s.reg (mtxReg Off.MTX_DECODE_MISS)).satInc ∧
       regsBut [niReg n.idx (Off.NI_RX_FLIT p.sc), mtxReg Off.MTX_DECODE_MISS, mtxReg Off.MTX_DECODE_FIRST,
                mtxReg Off.MTX_DECODE_ADDR] s t ∧
       changesOnly [.nis, .regs] s t ∧
       nisBut n.idx s t)) ∧
  (∀ (n : NiId) (p : Pkt) (rest : List Pkt) (off : Nat) (s : State),
     nextEject s n.idx (fun p => isUnitKind p && !forBridge n.idx p) = some (p, rest) →
     n.idx = 6 ∨ n.idx = 447 →
     p.opc = Opc.RD →
     regionOf s p.addr = .sram off →
     off + p.cnt ≤ sramWords →
     Completes (.inboundRequest n) s (fun t =>
       (t.ni n.idx) = { (s.ni n.idx) with
         eject := rest, stage := (s.ni n.idx).stage ++
           [{ ch := .own,
              pkt := mkResp p (nodeOf s n.idx) St.OK ((List.range p.cnt).map (fun i => s.word (sramAddr (off
                                                                                                         + i)))) 0 }] } ∧
       rxNoted s t n.idx p ∧
       regsBut [niReg n.idx (Off.NI_RX_FLIT p.sc)] s t ∧
       changesOnly [.nis, .regs] s t ∧
       nisBut n.idx s t)) ∧
  (∀ (n : NiId) (p : Pkt) (q : Req) (rest : List Pkt) (s : State),
     nextEject s n.idx (fun p => isResp p.opc && decide (p.tag < 256)) = some (p, rest) →
     n.idx % 7 ≠ 5 →
     coresIdle s →
     (s.ni n.idx).expired = false →
     (s.ni n.idx).urst = false →
     findReq (s.ni n.idx) p.tag = some q →
     (s.ni n.idx).held = [] →
     (∀ e ∈ (s.ni n.idx).oq, e.left = true ∨ isWrite e.pkt = true) →
     Completes (.responseReceived n) s (fun t =>
       (t.ni n.idx) = { (s.ni n.idx) with
         eject := rest, outst := (s.ni n.idx).outst.filter (fun r => decide (r.id ≠ q.id)),
         oq := (s.ni n.idx).oq.filter (fun e => decide (e.pkt.id ≠ q.id)), out := (s.ni n.idx).out ++
           [{ ch := .orsp, pkt := { maskDecerr n.idx q p with id := q.id } }] } ∧
       rxNoted s t n.idx p ∧
       t.reg (niReg n.idx Off.NI_RES_STAT) = (if q.opc = Opc.WR ∧ p.flag 0 = true then 0
                                              else s.reg (niReg n.idx Off.NI_RES_STAT)) ∧
       regsBut [niReg n.idx (Off.NI_RX_FLIT p.sc), niReg n.idx Off.NI_RES_STAT] s t ∧
       changesOnly [.nis, .regs] s t ∧
       nisBut n.idx s t)) ∧
  (∀ (n : NiId) (p : Pkt) (rest : List Pkt) (s : State),
     nextEject s n.idx (fun p => decide (p.opc = Opc.PHOLD)) = some (p, rest) →
     populated s n.idx = true →
     (s.ni n.idx).urst = false →
     niEn s n.idx = true →
     Completes (.phold n) s (fun t =>
       (t.ni n.idx) = { (s.ni n.idx) with eject := rest, out := (s.ni n.idx).out ++ [{ ch := .ireq, pkt := p }] } ∧
       rxNoted s t n.idx p ∧
       regsBut [niReg n.idx (Off.NI_RX_FLIT p.sc)] s t ∧
       changesOnly [.nis, .regs] s t ∧
       nisBut n.idx s t))

/-- At its destination NI a killed packet of which nothing has been presented is discarded, one presented in part is
followed by KILL to the unit; NI_KILL_RX_CNT counts and NI_ERR.KILL_RX is set. At a router a killed packet with
no flit there leaves its buffer and its pips return. -/
def Obligations.KillArrives : Prop :=
  (∀ (n : NiId) (p : Pkt) (rest : List Pkt) (s : State),
     takeFirst (fun p => p.killed) (s.ni n.idx).eject = some (p, rest) →
     p.opc ≠ Opc.CELL →
     Completes (.kill n) s (fun t =>
       (t.ni n.idx) = { (s.ni n.idx) with eject := rest } ∧
       errSet s t n.idx ErrB.KILL_RX ∧
       t.reg (niReg n.idx Off.NI_KILL_RX_CNT) = (s.reg (niReg n.idx Off.NI_KILL_RX_CNT)).satInc ∧
       regsBut (errRegs n.idx ++ [niReg n.idx Off.NI_KILL_RX_CNT]) s t ∧
       changesOnly [.nis, .regs, .log] s t ∧
       nisBut n.idx s t)) ∧
  (∀ (n : NiId) (p : Pkt) (rest : List Pkt) (s : State),
     takeFirst (fun p => p.killed) (s.ni n.idx).eject = none →
     killedWait (s.ni n.idx) = none →
     (s.ni n.idx).killPend = p :: rest →
     isCell p.opc = false →
     isResp p.opc = false →
     Completes (.kill n) s (fun t =>
       (t.ni n.idx) = { (s.ni n.idx) with
         killPend := rest, out := (s.ni n.idx).out ++ [{ ch := .ireq, pkt := p, kill := true }],
         inb := (s.ni n.idx).inb.filter (fun q => !(decide (q.src = p.src ∧ q.tag = p.tag))) } ∧
       errSet s t n.idx ErrB.KILL_RX ∧
       t.reg (niReg n.idx Off.NI_KILL_RX_CNT) = (s.reg (niReg n.idx Off.NI_KILL_RX_CNT)).satInc ∧
       regsBut (errRegs n.idx ++ [niReg n.idx Off.NI_KILL_RX_CNT]) s t ∧
       changesOnly [.nis, .regs, .log] s t ∧
       nisBut n.idx s t)) ∧
  (∀ (u : Fin 64) (i : Fin 23) (f : Flight) (rest : List Flight) (s : State),
     takeFirst (fun f => decide (f.inp = i.val) && f.pkt.killed) (s.rt u).trail = none →
     takeFirst (fun f => decide (f.inp = i.val) && f.pkt.killed && decide (f.arrived < f.pkt.flits)) (s.rt u).inq = some (f,
                                                                                                                          rest) →
     f.arrived = 0 →
     resyncOf s u.val i.val = none →
     (cntOf s (upstream u.val i.val).1 (upstream u.val i.val).2).deficit = 0 →
     Completes (.routerKill u i) s (fun t =>
       (t.rt u).inq = rest ∧
       (t.rt (upstream u.val i.val).1).pips = (s.rt (upstream u.val i.val).1).pips
         ++ List.replicate f.pkt.len ⟨(upstream u.val i.val).2, pktKey f.pkt f.vc, 0⟩
         ++ [⟨(upstream u.val i.val).2, pktKey f.pkt f.vc, destMask f.pkt⟩] ∧
       changesOnly [.routers] s t ∧
       routersBut [u.val, (upstream u.val i.val).1] s t))

/-- A write of NI_MC_INV drops a group from the group cache with its lanes, no other group, one of NI_SPRAY_SEED
restarts the generator (its law is open, log entry 3), one of NI_PHOLD at a p0 sends PHOLD at class 7 to
NI_PHOLD_DST and counts it, or is a decode miss where that names port 7, and does nothing at another port (what
the miss records is the model's choice, log entry 37); a token interval adds RATE tokens to each strict bucket up
to DEPTH (the model's reading, log entry 11, which is in tension with the bound over any window in the last
sentence of R88), a punt interval one punt token up to its depth. -/
def Obligations.NiRegistersAct : Prop :=
  (∀ (n : NiId) (v : W) (s : State),
     awake s (niReg n.idx Off.NI_MC_INV) = true →
     Completes (.niMcInv n v) s (fun t =>
       (t.ni n.idx) = { (s.ni n.idx) with
         cache := (t.ni n.idx).cache,
         lanes := (s.ni n.idx).lanes.filter (fun e => decide (e.1 % 4096 ≠ v.fld 0 14 / 4)) } ∧
       cacheGet (t.ni n.idx) (v.fld 0 14) = none ∧
       (∀ g, g ≠ v.fld 0 14 → cacheGet (t.ni n.idx) g = cacheGet (s.ni n.idx) g) ∧
       changesOnly [.nis] s t ∧
       nisBut n.idx s t)) ∧
  (∀ (n : NiId) (v : W) (s : State),
     awake s (niReg n.idx Off.NI_SPRAY_SEED) = true →
     Completes (.spraySeedWrite n v) s (fun t =>
       (t.ni n.idx) = { (s.ni n.idx) with sprayN := 0 } ∧
       t.reg (niReg n.idx Off.NI_SPRAY_SEED) = W.at 0 23 (v.fld 0 23) ∧
       regsBut [niReg n.idx Off.NI_SPRAY_SEED] s t ∧
       changesOnly [.nis, .regs] s t ∧
       nisBut n.idx s t)) ∧
  (∀ (n : NiId) (v : W) (s : State),
     n.idx % 7 = 0 →
     nodePort ((s.reg (niReg n.idx Off.NI_PHOLD_DST)).fld 0 23) ≠ 7 →
     awake s (niReg n.idx Off.NI_PHOLD) = true →
     Completes (.niPhold n v) s (fun t =>
       (t.ni n.idx) = { (s.ni n.idx) with
         stage := (s.ni n.idx).stage ++ [{ ch := .own, pkt :=
           { opc := Opc.PHOLD, dst := (s.reg (niReg n.idx Off.NI_PHOLD_DST)).fld 0 23, src := nodeOf s n.idx,
             sc := 7, flg := b2n (v.bit 8), words := [W.at 0 8 (v.fld 0 8)] } }] } ∧
       t.reg (niReg n.idx Off.NI_PHOLD_CNT) = s.reg (niReg n.idx Off.NI_PHOLD_CNT) + 1 ∧
       regsBut [niReg n.idx Off.NI_PHOLD_CNT] s t ∧
       changesOnly [.nis, .regs] s t ∧
       nisBut n.idx s t)) ∧
  (∀ (n : NiId) (s : State),
     Completes (.tokenRefill n) s (fun t =>
       tokens t n.idx 7 = min (tokens s n.idx 7
                               + (s.reg (niReg n.idx Off.NI_TB_SC7)).fld 0 11) ((s.reg (niReg n.idx Off.NI_TB_SC7)).fld 12 11) ∧
       tokens t n.idx 6 = min (tokens s n.idx 6 + (s.reg (niReg n.idx (Off.NI_TB_SC7
                                                                       + 1))).fld 0 11) ((s.reg (niReg n.idx (Off.NI_TB_SC7
                                                                                                              + 1))).fld 12 11) ∧
       tokens t n.idx 5 = min (tokens s n.idx 5 + (s.reg (niReg n.idx (Off.NI_TB_SC7
                                                                       + 2))).fld 0 11) ((s.reg (niReg n.idx (Off.NI_TB_SC7
                                                                                                              + 2))).fld 12 11) ∧
       regsBut [niReg n.idx Off.NI_TB_LEVEL] s t ∧
       changesOnly [.regs] s t)) ∧
  (∀ (n : NiId) (s : State),
     Completes (.puntToken n) s (fun t =>
       puntLevel t n.idx = min (puntLevel s n.idx + 1) ((s.reg (niReg n.idx Off.NI_PUNT_TB)).fld 16 8) ∧
       regsBut [niReg n.idx Off.NI_PUNT_LEVEL] s t ∧
       changesOnly [.regs] s t)) ∧
  (∀ (n : NiId) (v : W) (s : State),
     n.idx % 7 = 0 →
     nodePort ((s.reg (niReg n.idx Off.NI_PHOLD_DST)).fld 0 23) = 7 →
     awake s (niReg n.idx Off.NI_PHOLD) = true →
     Completes (.niPhold n v) s (fun t =>
       t.reg (mtxReg Off.MTX_DECODE_MISS) = (s.reg (mtxReg Off.MTX_DECODE_MISS)).satInc ∧
       t.reg (mtxReg Off.MTX_DECODE_FIRST) = (if s.reg (mtxReg Off.MTX_DECODE_MISS) = 0
         then W.at 0 23 (nodeOf s n.idx) ||| W.at 23 1 1 else s.reg (mtxReg Off.MTX_DECODE_FIRST)) ∧
       regsBut [mtxReg Off.MTX_DECODE_MISS, mtxReg Off.MTX_DECODE_FIRST, mtxReg Off.MTX_DECODE_ADDR] s t ∧
       t = { s with regs := t.regs })) ∧
  (∀ (n : NiId) (v : W) (s : State),
     n.idx % 7 ≠ 0 →
     awake s (niReg n.idx Off.NI_PHOLD) = true →
     Completes (.niPhold n v) s (fun t => t = s)) ∧
  (∀ (n : NiId) (v : W) (a : Nat) (s : State) (c : Instr),
     c = .spraySeedWrite n v ∧ a = niReg n.idx Off.NI_SPRAY_SEED ∨ c = .niEnable n ∧ a = niReg n.idx Off.NI_CTRL →
     target s a = none →
     Completes c s (fun t =>
       missNoted s t (hrpNode s) true .matrix a ∧
       regsBut [mtxReg Off.MTX_DECODE_MISS, mtxReg Off.MTX_DECODE_FIRST, mtxReg Off.MTX_DECODE_ADDR] s t ∧
       changesOnly [.regs] s t))

/-- An RSVREQ that finds no record parked and a free run is granted handles from the head of the free list, with
reorder slots where the destination gives them (which free slots is the model's choice, log entry 39), and RSVGNT
names them; without a free run it is parked in place of an older one of its source. A standing request is granted
into the standing set of its source. -/
def Obligations.RequestsForReservation : Prop :=
  (∀ (n : NiId) (p : Pkt) (rest : List Pkt) (r : Run) (rs : List Run) (k : Nat) (s : State),
     nextEject s n.idx (fun p => decide (p.opc = Opc.RSVREQ) && decide (p.tag % 2 = 0)) = some (p, rest) →
     p.poisoned = false →
     mayGrant s n.idx = true →
     (s.ni n.idx).parked = [] →
     (s.ni n.idx).free = r :: rs →
     grantSize s n.idx (askedBy p false) = k →
     0 < k →
     Completes (.rsvreq n) s (fun t =>
       (t.ni n.idx) = { (s.ni n.idx) with
         eject := rest, free := if k < r.len then { first := (r.first + k) % 65536, len := r.len - k } :: rs
         else rs, grants := (s.ni n.idx).grants ++ (List.range k).map (fun i =>
           { handle := (r.first + i) % 65536, src := p.src, sc := p.sc, slot := if givesSlots s n.idx = true
             then some (((slotsFor (s.ni n.idx) (grantCap s n.idx (askedBy p false))).2 + i) % 256) else none }), nextSlot := if givesSlots s n.idx = true
         then ((slotsFor (s.ni n.idx) (grantCap s n.idx (askedBy p false))).2 + k) % 256 else (s.ni n.idx).nextSlot, stage := (s.ni n.idx).stage ++
           [{ ch := .own, pkt := { opc := Opc.RSVGNT, dst := p.src, src := nodeOf s n.idx, sc := p.sc, cnt := k,
                                   arg := W.at 0 16 r.first ||| W.at 16 8 (if givesSlots s n.idx = true
                                                                           then (slotsFor (s.ni n.idx) (grantCap s n.idx (askedBy p false))).2
                                                                           else 0) } }] } ∧
       rxNoted s t n.idx p ∧
       regsBut [niReg n.idx (Off.NI_RX_FLIT p.sc)] s t ∧
       changesOnly [.nis, .regs] s t ∧
       nisBut n.idx s t)) ∧
  (∀ (n : NiId) (p : Pkt) (rest : List Pkt) (s : State),
     nextEject s n.idx (fun p => decide (p.opc = Opc.RSVREQ) && decide (p.tag % 2 = 0)) = some (p, rest) →
     p.poisoned = false →
     (s.ni n.idx).free = [] →
     Completes (.rsvreq n) s (fun t =>
       (t.ni n.idx) = { (s.ni n.idx) with
         eject := rest, parked := (s.ni n.idx).parked.filter (fun q => decide (q.src ≠ p.src))
         ++ [askedBy p false] } ∧
       rxNoted s t n.idx p ∧
       regsBut [niReg n.idx (Off.NI_RX_FLIT p.sc)] s t ∧
       changesOnly [.nis, .regs] s t ∧
       nisBut n.idx s t)) ∧
  (∀ (n : NiId) (p : Pkt) (rest : List Pkt) (r : Run) (rs : List Run) (k : Nat) (s : State),
     nextEject s n.idx (fun p => decide (p.opc = Opc.RSVREQ) && decide (p.tag % 2 = 1)) = some (p, rest) →
     p.poisoned = false →
     mayGrant s n.idx = true →
     (s.ni n.idx).parked = [] →
     (s.ni n.idx).free = r :: rs →
     grantSize s n.idx (askedBy p true) = k →
     0 < k →
     Completes (.rsvreqStanding n) s (fun t =>
       (t.ni n.idx) = { setStanding (s.ni n.idx) p.src (standingSet (s.ni n.idx) p.src ++ runHandles
         { r with len := k }) with
           eject := rest, free := if k < r.len then { first := (r.first + k) % 65536, len := r.len - k } :: rs
           else rs, stage := (s.ni n.idx).stage ++
             [{ ch := .own, pkt := { opc := Opc.RSVGNT, dst := p.src, src := nodeOf s n.idx, sc := p.sc, cnt := k,
                                     tag := 1, arg := W.at 0 16 r.first } }] } ∧
       rxNoted s t n.idx p ∧
       regsBut [niReg n.idx (Off.NI_RX_FLIT p.sc)] s t ∧
       changesOnly [.nis, .regs] s t ∧
       nisBut n.idx s t)) ∧
  (∀ (n : NiId) (p : Pkt) (rest : List Pkt) (r : Run) (rs : List Run) (s : State),
     nextEject s n.idx (fun p => decide (p.opc = Opc.RSVREQ) && decide (p.tag % 2 = 1)) = some (p, rest) →
     p.poisoned = false →
     mayGrant s n.idx = true →
     (s.ni n.idx).parked = [] →
     (s.ni n.idx).free = r :: rs →
     grantSize s n.idx (askedBy p true) = 0 →
     Completes (.rsvreqStanding n) s (fun t =>
       (t.ni n.idx) = { (s.ni n.idx) with
         eject := rest, stage := (s.ni n.idx).stage ++
           [{ ch := .own, pkt := { opc := Opc.RSVREF, dst := p.src, src := nodeOf s n.idx, sc := p.sc,
                                   tag := 1 } }] } ∧
       rxNoted s t n.idx p ∧
       regsBut [niReg n.idx (Off.NI_RX_FLIT p.sc)] s t ∧
       changesOnly [.nis, .regs] s t ∧
       nisBut n.idx s t))

/-- RSVGNT for the request outstanding gives its handles to the source, or its credits when it is standing; a cell
that waits for them leaves at once. A grant that answers no request is returned with RSVREL. RSVREF ends the
request. -/
def Obligations.AnswersToReservation : Prop :=
  (∀ (n : NiId) (p : Pkt) (rest : List Pkt) (r : RsvOut) (s : State),
     nextEject s n.idx (fun p => decide (p.opc = Opc.RSVGNT) && true) = some (p, rest) →
     p.poisoned = false →
     (s.ni n.idx).rsv = some r →
     r.dst = p.src →
     unitAway (s.ni n.idx) = false →
     p.tag % 2 = 0 →
     r.withdrawn = false →
     (s.ni n.idx).cell = none →
     Completes (.rsvgnt n) s (fun t =>
       (t.ni n.idx) = { (s.ni n.idx) with
         eject := rest, rsv := none, handles := ((s.ni n.idx).handles ++ heldOf p) } ∧
       rxNoted s t n.idx p ∧
       regsBut [niReg n.idx (Off.NI_RX_FLIT p.sc)] s t ∧
       changesOnly [.nis, .regs] s t ∧
       nisBut n.idx s t)) ∧
  (∀ (n : NiId) (p : Pkt) (rest : List Pkt) (r : RsvOut) (w : CellWait) (k : HeldH) (hs : List HeldH) (s : State),
     nextEject s n.idx (fun p => decide (p.opc = Opc.RSVGNT) && true) = some (p, rest) →
     p.poisoned = false →
     (s.ni n.idx).rsv = some r →
     r.dst = p.src →
     unitAway (s.ni n.idx) = false →
     p.tag % 2 = 0 →
     r.withdrawn = false →
     (s.ni n.idx).cell = some w →
     w.pkt.opc = Opc.CELL →
     takeFirst (fun h => decide (h.dst = w.pkt.dst ∧ h.sc = w.pkt.sc)) ((s.ni n.idx).handles
                                                                        ++ heldOf p) = some (k, hs) →
     Completes (.rsvgnt n) s (fun t =>
       (t.ni n.idx) = { (s.ni n.idx) with
         eject := rest, rsv := none, cell := none, handles := hs, stage := (s.ni n.idx).stage ++
           [{ ch := .cpo, pkt := { w.pkt with arg := cellArg k.handle (k.slot.getD 0) 0 false }, grant := k.grant }] } ∧
       rxNoted s t n.idx p ∧
       t.reg (niReg n.idx Off.NI_ADM_WAIT_MAX) = (if (s.reg (niReg n.idx Off.NI_ADM_WAIT_MAX)).toNat < min (s.fc - w.since) 0xFFFFFF
                                                  then natW (min (s.fc - w.since) 0xFFFFFF)
                                                  else s.reg (niReg n.idx Off.NI_ADM_WAIT_MAX)) ∧
       regsBut [niReg n.idx (Off.NI_RX_FLIT p.sc), niReg n.idx Off.NI_ADM_WAIT_MAX] s t ∧
       changesOnly [.nis, .regs] s t ∧
       nisBut n.idx s t)) ∧
  (∀ (n : NiId) (p : Pkt) (rest : List Pkt) (r : RsvOut) (s : State),
     nextEject s n.idx (fun p => decide (p.opc = Opc.RSVGNT) && true) = some (p, rest) →
     p.poisoned = false →
     (s.ni n.idx).rsv = some r →
     r.dst = p.src →
     unitAway (s.ni n.idx) = false →
     p.tag % 2 = 1 →
     (s.ni n.idx).cell = none →
     Completes (.rsvgnt n) s (fun t =>
       (t.ni n.idx) = { setCredit (s.ni n.idx) (nodeNi p.src) (min (credit (s.ni n.idx) (nodeNi p.src)
                                                                    + p.cnt) (standOf s n.idx)) with
                                                                      eject := rest, rsv := none } ∧
       rxNoted s t n.idx p ∧
       regsBut [niReg n.idx (Off.NI_RX_FLIT p.sc)] s t ∧
       changesOnly [.nis, .regs] s t ∧
       nisBut n.idx s t)) ∧
  (∀ (n : NiId) (p : Pkt) (rest : List Pkt) (s : State),
     nextEject s n.idx (fun p => decide (p.opc = Opc.RSVGNT) && true) = some (p, rest) →
     p.poisoned = false →
     (s.ni n.idx).rsv = none →
     p.tag % 2 = 0 →
     Completes (.rsvgnt n) s (fun t =>
       (t.ni n.idx) = { (s.ni n.idx) with
         eject := rest, stage := (s.ni n.idx).stage ++
           [{ ch := .own, pkt := { opc := Opc.RSVREL, dst := p.src, src := nodeOf s n.idx, sc := p.sc,
                                   cnt := p.cnt, arg := W.at 0 16 (p.arg.fld 0 16) } }] } ∧
       rxNoted s t n.idx p ∧
       regsBut [niReg n.idx (Off.NI_RX_FLIT p.sc)] s t ∧
       changesOnly [.nis, .regs] s t ∧
       nisBut n.idx s t)) ∧
  (∀ (n : NiId) (p : Pkt) (rest : List Pkt) (r : RsvOut) (s : State),
     nextEject s n.idx (fun p => decide (p.opc = Opc.RSVREF) && true) = some (p, rest) →
     p.poisoned = false →
     (s.ni n.idx).rsv = some r →
     r.dst = p.src →
     (s.ni n.idx).cell = none →
     Completes (.rsvref n) s (fun t =>
       (t.ni n.idx) = { (s.ni n.idx) with eject := rest, rsv := none } ∧
       rxNoted s t n.idx p ∧
       regsBut [niReg n.idx (Off.NI_RX_FLIT p.sc)] s t ∧
       changesOnly [.nis, .regs] s t ∧
       nisBut n.idx s t))

/-- RSVREL of granted handles, with no record parked, takes each back as a run of one; one with CNT 0 withdraws the
record of its source and is answered RSVREF; a standing one takes back the standing set of its source. A push of
a run within the limits of R97 joins the free list, one beyond them sets NI_RSV_ERR. -/
def Obligations.HandlesReturned : Prop :=
  (∀ (n : NiId) (p : Pkt) (rest : List Pkt) (s : State),
     nextEject s n.idx (fun p => decide (p.opc = Opc.RSVREL) && decide (p.tag % 2 = 0 ∧ p.cnt ≠ 0)) = some (p,
                                                                                                            rest) →
     p.poisoned = false →
     (s.ni n.idx).parked = [] →
     p.cnt < 65536 →
     ((s.ni n.idx).grants.map (fun g => g.handle)).Nodup →
     ((List.range p.cnt).map (fun i => (p.arg.fld 0 16
                                        + i) % 65536)).all (fun h => (s.ni n.idx).grants.any (fun g => decide (g.src = p.src
                                                                                                               ∧ g.handle = h))) = true →
     Completes (.rsvrel n) s (fun t =>
       (t.ni n.idx).free = (s.ni n.idx).free ++ ((List.range p.cnt).map (fun i => (p.arg.fld 0 16
                                                                                   + i) % 65536)).map (fun h => ⟨h,
                                                                                                                 1⟩) ∧
       (t.ni n.idx).grants = (s.ni n.idx).grants.filter (fun g => !(decide (g.src = p.src) && decide (g.handle ∈ ((List.range p.cnt).map (fun i => (p.arg.fld 0 16
                                                                                                                                                    + i) % 65536))))) ∧
       (t.ni n.idx).stage = (s.ni n.idx).stage ∧
       (t.ni n.idx).parked = [] ∧
       rxNoted s t n.idx p ∧
       regsBut [niReg n.idx (Off.NI_RX_FLIT p.sc)] s t ∧
       changesOnly [.nis, .regs] s t ∧
       nisBut n.idx s t)) ∧
  (∀ (n : NiId) (p : Pkt) (rest : List Pkt) (q : Parked) (ps : List Parked) (s : State),
     nextEject s n.idx (fun p => decide (p.opc = Opc.RSVREL) && decide (p.tag % 2 = 0 ∧ p.cnt = 0)) = some (p,
                                                                                                            rest) →
     p.poisoned = false →
     takeFirst (fun q => decide (q.src = p.src)) (s.ni n.idx).parked = some (q, ps) →
     Completes (.rsvrelWithdraw n) s (fun t =>
       (t.ni n.idx) = { (s.ni n.idx) with
         eject := rest, parked := ps, stage := (s.ni n.idx).stage ++
           [{ ch := .own, pkt := { opc := Opc.RSVREF, dst := q.src, src := nodeOf s n.idx, sc := q.sc,
                                   tag := b2n q.standing } }] } ∧
       rxNoted s t n.idx p ∧
       regsBut [niReg n.idx (Off.NI_RX_FLIT p.sc)] s t ∧
       changesOnly [.nis, .regs] s t ∧
       nisBut n.idx s t)) ∧
  (∀ (n : NiId) (p : Pkt) (rest : List Pkt) (s : State),
     nextEject s n.idx (fun p => decide (p.opc = Opc.RSVREL) && decide (p.tag % 2 = 1)) = some (p, rest) →
     p.poisoned = false →
     (s.ni n.idx).parked = [] →
     (standingSet (s.ni n.idx) p.src).length = p.cnt →
     Completes (.rsvrelStanding n) s (fun t =>
       (t.ni n.idx).free = (s.ni n.idx).free ++ (standingSet (s.ni n.idx) p.src).map (fun h => ⟨h, 1⟩) ∧
       standingSet (t.ni n.idx) p.src = [] ∧
       (t.ni n.idx).grants = (s.ni n.idx).grants ∧
       (t.ni n.idx).stage = (s.ni n.idx).stage ∧
       rxNoted s t n.idx p ∧
       regsBut [niReg n.idx (Off.NI_RX_FLIT p.sc)] s t ∧
       changesOnly [.nis, .regs] s t ∧
       nisBut n.idx s t)) ∧
  (∀ (n : NiId) (v : W) (s : State),
     (s.ni n.idx).parked = [] →
     handleCount (s.ni n.idx) + (v.fld 16 4 + 1) ≤ 2048 →
     (s.ni n.idx).runs.length < 512 →
     awake s (niReg n.idx Off.NI_RSV_PUSH) = true →
     Completes (.niRsvPush n v) s (fun t =>
       (t.ni n.idx) = { (s.ni n.idx) with
         free := (s.ni n.idx).free ++ [⟨v.fld 0 16, v.fld 16 4 + 1⟩], runs := (s.ni n.idx).runs
         ++ [runHandles ⟨v.fld 0 16, v.fld 16 4 + 1⟩] } ∧
       changesOnly [.nis] s t ∧
       nisBut n.idx s t)) ∧
  (∀ (n : NiId) (v : W) (s : State),
     2048 < handleCount (s.ni n.idx) + (v.fld 16 4 + 1) →
     awake s (niReg n.idx Off.NI_RSV_PUSH) = true →
     Completes (.niRsvPush n v) s (fun t =>
       t.reg (niReg n.idx Off.NI_RSV_ERR) = (s.reg (niReg n.idx Off.NI_RSV_ERR)).put 0 1 1 ∧
       t.reg (niReg n.idx Off.NI_RES_STAT) = 0 ∧
       regsBut [niReg n.idx Off.NI_RSV_ERR, niReg n.idx Off.NI_RES_STAT] s t ∧
       changesOnly [.regs, .log] s t))

/-- Held handles of an idle pair are returned in runs; idle credits are returned; a refill of what lacks to STAND
(the model's choice, log entry 39) is asked for while nothing else is outstanding; a cell refused at the admission
timeout is answered REFUSED, counted, and a request of its own withdrawn; an answer that does not come frees the
request; a handle whose cell does not come, or whose reorder slot is skipped, returns to the free list and is
counted. -/
def Obligations.AdmissionTimers : Prop :=
  (∀ (n : NiId) (dst : BitVec 23) (sc : Fin 8) (s : State),
     Completes (.rsvIdle n dst sc) s (fun t =>
       (t.ni n.idx) = { (s.ni n.idx) with
         handles := (s.ni n.idx).handles.filter (fun h => !(decide (h.dst = dst.toNat ∧ h.sc = sc.val))),
         stage := (s.ni n.idx).stage ++ (runsOf ((s.ni n.idx).handles.filter (fun h => decide (h.dst = dst.toNat
                                                                                                ∧ h.sc = sc.val)))).map (fun r =>
                                                                                                  { ch := .own,
                                                                                                    pkt :=
                                                                                                    { opc := Opc.RSVREL,
                                                                                                      dst := dst.toNat,
                                                                                                      src := nodeOf s n.idx,
                                                                                                      sc := sc.val,
                                                                                                      cnt := r.2.2,
                                                                                                      arg := W.at 0 16 r.2.1 } }) } ∧
       changesOnly [.nis] s t ∧
       nisBut n.idx s t)) ∧
  (∀ (n : NiId) (d : NiId) (s : State),
     0 < credit (s.ni n.idx) d.idx →
     Completes (.mcLinger n d) s (fun t =>
       (t.ni n.idx) = { setCredit (s.ni n.idx) d.idx 0 with
         stage := (s.ni n.idx).stage ++ [{ ch := .own, pkt :=
           { opc := Opc.RSVREL, dst := nodeOf s d.idx, src := nodeOf s n.idx, cnt := credit (s.ni n.idx) d.idx,
             tag := 1 } }] } ∧
       changesOnly [.nis] s t ∧
       nisBut n.idx s t)) ∧
  (∀ (n : NiId) (d : Nat) (sc : Nat) (rest : List (Nat × Nat)) (s : State),
     (s.ni n.idx).rsv = none →
     (s.ni n.idx).cell = none →
     takeFirst (fun q => decide (credit (s.ni n.idx) q.1 < standOf s n.idx)) (s.ni n.idx).refill = some ((d, sc),
                                                                                                         rest) →
     Completes (.mcRefill n) s (fun t =>
       (t.ni n.idx) = { (s.ni n.idx) with
         refill := rest ++ [(d, sc)],
         rsv := some { dst := nodeOf s d, sc := sc, cnt := standOf s n.idx - credit (s.ni n.idx) d, standing := true,
                       since := s.fc },
         stage := (s.ni n.idx).stage ++
           [{ ch := .own, pkt := { opc := Opc.RSVREQ, dst := nodeOf s d, src := nodeOf s n.idx, sc := sc,
                                   cnt := standOf s n.idx - credit (s.ni n.idx) d, tag := 1 } }] } ∧
       changesOnly [.nis] s t ∧
       nisBut n.idx s t)) ∧
  (∀ (n : NiId) (w : CellWait) (r : RsvOut) (s : State),
     (s.ni n.idx).cell = some w →
     (s.ni n.idx).rsv = some r →
     r.withdrawn = false →
     ownReq w r = true →
     Completes (.admissionTimeout n) s (fun t =>
       (t.ni n.idx) = { (s.ni n.idx) with
         cell := none, rsv := some { r with withdrawn := true }, out := (s.ni n.idx).out ++
           [{ ch := .orsp, pkt := { id := w.pkt.id, opc := Opc.CELLREF, dst := w.pkt.src, src := nodeOf s n.idx,
                                    sc := w.pkt.sc, tag := w.pkt.tag, arg := natW St.REFUSED } }],
         stage := (s.ni n.idx).stage ++ [{ ch := .own, pkt :=
           { opc := Opc.RSVREL, dst := r.dst, src := nodeOf s n.idx, sc := r.sc } }] } ∧
       t.reg (niReg n.idx Off.NI_REFUSE_CNT) = (s.reg (niReg n.idx Off.NI_REFUSE_CNT)).satInc ∧
       t.reg (niReg n.idx Off.NI_ADM_WAIT_MAX) = (if (s.reg (niReg n.idx Off.NI_ADM_WAIT_MAX)).toNat < min (s.fc - w.since) 0xFFFFFF
                                                  then natW (min (s.fc - w.since) 0xFFFFFF)
                                                  else s.reg (niReg n.idx Off.NI_ADM_WAIT_MAX)) ∧
       regsBut [niReg n.idx Off.NI_REFUSE_CNT, niReg n.idx Off.NI_ADM_WAIT_MAX] s t ∧
       changesOnly [.nis, .regs] s t ∧
       nisBut n.idx s t)) ∧
  (∀ (n : NiId) (r : RsvOut) (s : State),
     (s.ni n.idx).rsv = some r →
     (s.ni n.idx).cell = none →
     Completes (.rsvAnswerLost n) s (fun t =>
       (t.ni n.idx) = { (s.ni n.idx) with rsv := none } ∧
       t.reg (niReg n.idx Off.NI_FAULT_CNT) = (s.reg (niReg n.idx Off.NI_FAULT_CNT)).satInc ∧
       regsBut [niReg n.idx Off.NI_FAULT_CNT] s t ∧
       changesOnly [.nis, .regs] s t ∧
       nisBut n.idx s t)) ∧
  (∀ (n : NiId) (j : Fin 256) (g : Grant) (s : State),
     (s.ni n.idx).grants.find? (fun g => decide (g.slot = some j.val) && g.waiting.isNone) = some g →
     earlierDone (s.ni n.idx) g.src g.sc g.handle = true →
     (s.ni n.idx).parked = [] →
     eventPasses s (.ni n.idx) →
     Completes (.reorderSkip n j) s (fun t =>
       (t.ni n.idx) = { resolveGrant (s.ni n.idx) g.src g.sc g.handle with
         free := (s.ni n.idx).free ++ [⟨g.handle, 1⟩], runs := dropFromRuns g.handle (s.ni n.idx).runs } ∧
       t.reg (niReg n.idx Off.NI_REORD_SKIP_CNT) = (s.reg (niReg n.idx Off.NI_REORD_SKIP_CNT)).satInc ∧
       logs s t (mkEv (ftNow s) (nodeOf s n.idx) EvC.REORDER_SKIP [natW g.src, natW j.val]) ∧
       regsBut [niReg n.idx Off.NI_REORD_SKIP_CNT] s t ∧
       changesOnly [.nis, .regs, .log] s t ∧
       nisBut n.idx s t)) ∧
  (∀ (n : NiId) (v : BitVec 16) (g : Grant) (s : State),
     (s.ni n.idx).grants.find? (fun g => decide (g.handle = v.toNat) && g.slot.isNone && g.waiting.isNone) = some g →
     n.p.val ≤ 3 →
     (s.ni n.idx).parked = [] →
     Completes (.handleReclaim n v) s (fun t =>
       (t.ni n.idx) = { resolveGrant (s.ni n.idx) g.src g.sc g.handle with
         free := (s.ni n.idx).free ++ [⟨g.handle, 1⟩], runs := dropFromRuns g.handle (s.ni n.idx).runs } ∧
       t.reg (niReg n.idx Off.NI_FAULT_CNT) = (s.reg (niReg n.idx Off.NI_FAULT_CNT)).satInc ∧
       regsBut [niReg n.idx Off.NI_FAULT_CNT] s t ∧
       changesOnly [.nis, .regs] s t ∧
       nisBut n.idx s t)) ∧
  (∀ (n : NiId) (w : CellWait) (s : State),
     (s.ni n.idx).cell = some w →
     (∀ r, (s.ni n.idx).rsv = some r → r.withdrawn = true ∨ ownReq w r = false) →
     Completes (.admissionTimeout n) s (fun t =>
       (t.ni n.idx) = { (s.ni n.idx) with
         cell := none, out := (s.ni n.idx).out ++
           [{ ch := .orsp, pkt := { id := w.pkt.id, opc := Opc.CELLREF, dst := w.pkt.src, src := nodeOf s n.idx,
                                    sc := w.pkt.sc, tag := w.pkt.tag, arg := natW St.REFUSED } }] } ∧
       t.reg (niReg n.idx Off.NI_REFUSE_CNT) = (s.reg (niReg n.idx Off.NI_REFUSE_CNT)).satInc ∧
       regsBut [niReg n.idx Off.NI_REFUSE_CNT, niReg n.idx Off.NI_ADM_WAIT_MAX] s t ∧
       changesOnly [.nis, .regs] s t ∧
       nisBut n.idx s t))

/-- A cell under a granted handle is presented on CPI_ once every earlier reservation of its pair with a slot is
resolved, and waits in its slot otherwise; the handle stays with the unit. What NI_LATE_ shows of a cell that
comes late to a p0 or p1 is stated with each delivery; the fc of a tail that no operand gives is free (log entry
4). A multicast copy takes a standing handle of its source. A mask that comes for a waiting CELLMC enters the
group cache under the group it was read for, and the first lane that is lacking is read. -/
def Obligations.CellsDelivered : Prop :=
  (∀ (n : NiId) (p : Pkt) (rest : List Pkt) (f : Fin 8) (g : Grant) (s : State),
     nextEject s n.idx (fun p => decide (p.opc = Opc.CELL)) = some (p, rest) →
     findGrant (s.ni n.idx) p.src p.sc p.handle = some g →
     lateSlot p g = false →
     g.waiting = none →
     unitAway (s.ni n.idx) = false →
     earlierDone (s.ni n.idx) p.src p.sc p.handle = true →
     (s.ni n.idx).parked = [] →
     1 < n.idx % 7 →
     Completes (.cellDeliver n f) s (fun t =>
       (t.ni n.idx) = { resolveGrant (s.ni n.idx) p.src p.sc p.handle with
         eject := rest, runs := dropFromRuns p.handle (s.ni n.idx).runs, out := (s.ni n.idx).out ++
           [{ ch := .cpi, pkt := p }] } ∧
       rxNoted s t n.idx p ∧
       regsBut [niReg n.idx (Off.NI_RX_FLIT p.sc)] s t ∧
       changesOnly [.nis, .regs] s t ∧
       nisBut n.idx s t)) ∧
  (∀ (n : NiId) (p : Pkt) (rest : List Pkt) (f : Fin 8) (g : Grant) (s : State),
     nextEject s n.idx (fun p => decide (p.opc = Opc.CELL)) = some (p, rest) →
     findGrant (s.ni n.idx) p.src p.sc p.handle = some g →
     lateSlot p g = false →
     g.waiting = none →
     unitAway (s.ni n.idx) = false →
     earlierDone (s.ni n.idx) p.src p.sc p.handle = true →
     (s.ni n.idx).parked = [] →
     n.idx % 7 ≤ 1 →
     Completes (.cellDeliver n f) s (fun t =>
       (t.ni n.idx) = { resolveGrant (s.ni n.idx) p.src p.sc p.handle with
         eject := rest, runs := dropFromRuns p.handle (s.ni n.idx).runs, out := (s.ni n.idx).out ++
           [{ ch := .cpi, pkt := p }], late := (t.ni n.idx).late, lateFc := (t.ni n.idx).lateFc } ∧
       rxNoted s t n.idx p ∧
       cellTracked s t n.idx p (s.fc + f.val) ∧
       (∀ a, (∀ b < 16, a ≠ niReg n.idx (Off.NI_LATE_H5 b) ∧ a ≠ niReg n.idx (Off.NI_LATE_HN b)) →
         a ∉ [niReg n.idx (Off.NI_RX_FLIT p.sc), niReg n.idx Off.NI_LATE_LOST_CNT, niReg n.idx Off.NI_LATE_MAX, niReg n.idx Off.NI_LATE_INFO,
           niReg n.idx Off.NI_LATE_FT, niReg n.idx Off.CDC_STAT, niReg n.idx Off.CDC_LOST_EVT] → t.reg a = s.reg a) ∧
       changesOnly [.nis, .regs, .log] s t ∧
       nisBut n.idx s t)) ∧
  (∀ (n : NiId) (p : Pkt) (rest : List Pkt) (f : Fin 8) (g : Grant) (s : State),
     nextEject s n.idx (fun p => decide (p.opc = Opc.CELL)) = some (p, rest) →
     findGrant (s.ni n.idx) p.src p.sc p.handle = some g →
     lateSlot p g = false →
     g.waiting = none →
     unitAway (s.ni n.idx) = false →
     earlierDone (s.ni n.idx) p.src p.sc p.handle = false →
     Completes (.cellDeliver n f) s (fun t =>
       (t.ni n.idx) = { (s.ni n.idx) with
         eject := rest, grants := (s.ni n.idx).grants.map (fun q => if q.src = p.src ∧ q.sc = p.sc
                                                           ∧ q.handle = p.handle then { q with waiting := some p }
                                                           else q) } ∧
       rxNoted s t n.idx p ∧
       regsBut [niReg n.idx (Off.NI_RX_FLIT p.sc)] s t ∧
       changesOnly [.nis, .regs] s t ∧
       nisBut n.idx s t)) ∧
  (∀ (n : NiId) (p : Pkt) (g : Grant) (s : State),
     (s.ni n.idx).grants.find? (fun g => g.waiting.any (fun p => !p.killed) && earlierDone (s.ni n.idx) g.src g.sc g.handle && !tileDark s n.t) = some g →
     g.waiting = some p →
     unitAway (s.ni n.idx) = false →
     (s.ni n.idx).parked = [] →
     1 < n.idx % 7 →
     Completes (.reorderPresent n) s (fun t =>
       (t.ni n.idx) = { resolveGrant (s.ni n.idx) p.src p.sc p.handle with
         runs := dropFromRuns p.handle (s.ni n.idx).runs, out := (s.ni n.idx).out ++ [{ ch := .cpi, pkt := p }] } ∧
       t.freeN = s.freeN + 1 ∧ t.nextId = s.nextId ∧
       changesOnly [.nis, .ids] s t ∧
       nisBut n.idx s t)) ∧
  (∀ (n : NiId) (p : Pkt) (g : Grant) (s : State),
     (s.ni n.idx).grants.find? (fun g => g.waiting.any (fun p => !p.killed) && earlierDone (s.ni n.idx) g.src g.sc g.handle && !tileDark s n.t) = some g →
     g.waiting = some p →
     unitAway (s.ni n.idx) = false →
     (s.ni n.idx).parked = [] →
     n.idx % 7 ≤ 1 →
     Completes (.reorderPresent n) s (fun t =>
       (t.ni n.idx) = { resolveGrant (s.ni n.idx) p.src p.sc p.handle with
         runs := dropFromRuns p.handle (s.ni n.idx).runs, out := (s.ni n.idx).out ++ [{ ch := .cpi, pkt := p }],
         late := (t.ni n.idx).late, lateFc := (t.ni n.idx).lateFc } ∧
       cellTracked s t n.idx p (s.fc + (Config.freeWord s.freeN).fld 0 3) ∧
       (∀ a, (∀ b < 16, a ≠ niReg n.idx (Off.NI_LATE_H5 b) ∧ a ≠ niReg n.idx (Off.NI_LATE_HN b)) →
         a ∉ [niReg n.idx Off.NI_LATE_LOST_CNT, niReg n.idx Off.NI_LATE_MAX, niReg n.idx Off.NI_LATE_INFO,
           niReg n.idx Off.NI_LATE_FT, niReg n.idx Off.CDC_STAT, niReg n.idx Off.CDC_LOST_EVT] → t.reg a = s.reg a) ∧
       t.freeN = s.freeN + 1 ∧ t.nextId = s.nextId ∧
       changesOnly [.nis, .regs, .log, .ids] s t ∧
       nisBut n.idx s t)) ∧
  (∀ (n : NiId) (p : Pkt) (rest : List Pkt) (h : Nat) (hs : List Nat) (s : State),
     nextEject s n.idx (fun p => decide (p.opc = Opc.CELLMC)) = some (p, rest) →
     standingSet (s.ni n.idx) p.src = h :: hs →
     unitAway (s.ni n.idx) = false →
     Completes (.cellmcCopy n) s (fun t =>
       (t.ni n.idx).out = (s.ni n.idx).out ++
         [{ ch := .cpi, pkt := { p with dst := h, arg := natW (p.arg.fld 0 14), mask := 0, flg := p.flg % 4 } }] ∧
       standingSet (t.ni n.idx) p.src = hs ∧
       (t.ni n.idx).eject = rest ∧
       (t.ni n.idx).stage = (s.ni n.idx).stage ∧
       rxNoted s t n.idx p ∧
       (n.idx % 7 ≤ 1 → cellTracked s t n.idx p (s.fc + (Config.freeWord s.freeN).fld 0 3)) ∧
       (1 < n.idx % 7 → (t.ni n.idx).late = (s.ni n.idx).late ∧ t.evq = s.evq) ∧
       (∀ a, (∀ b < 16, a ≠ niReg n.idx (Off.NI_LATE_H5 b) ∧ a ≠ niReg n.idx (Off.NI_LATE_HN b)) →
         a ∉ [niReg n.idx (Off.NI_RX_FLIT p.sc), niReg n.idx Off.NI_LATE_LOST_CNT, niReg n.idx Off.NI_LATE_MAX, niReg n.idx Off.NI_LATE_INFO,
           niReg n.idx Off.NI_LATE_FT, niReg n.idx Off.CDC_STAT, niReg n.idx Off.CDC_LOST_EVT] → t.reg a = s.reg a) ∧
       t.freeN = s.freeN + 1 ∧ t.nextId = s.nextId ∧
       changesOnly [.nis, .regs, .log, .ids] s t ∧
       nisBut n.idx s t)) ∧
  (∀ (n : NiId) (p : Pkt) (rest : List Pkt) (w : CellWait) (d : Nat) (e : GroupEnt) (s : State),
     nextEject s n.idx (fun p => decide (p.opc = Opc.RDRESP ∧ 256 ≤ p.tag)) = some (p, rest) →
     (s.ni n.idx).cell = some w →
     w.pkt.opc = Opc.CELLMC →
     p.tag = tagMask (mcGroup w.pkt) →
     p.arg = natW St.OK →
     e = { group := mcGroup w.pkt, mask := (wordAt p.words 0).toNat + (wordAt p.words 1).fld 0 28 * 2 ^ 36,
           valid := (wordAt p.words 1).bit 35 } →
     e.valid = true →
     e.mask ≠ 0 →
     (tilesOf e.mask).foldl (fun a d => a + 2 ^ d) 0 = e.mask →
     (∀ d ∈ tilesOf e.mask, reachable s (n.idx / 7) d = true) →
     (tilesOf e.mask).find? (fun d => (laneGet (s.ni n.idx) d (mcGroup w.pkt)).isNone) = some d →
     Completes (.groupCacheFill n) s (fun t =>
       cacheGet (t.ni n.idx) (mcGroup w.pkt) = some e ∧
       (t.ni n.idx) = { (s.ni n.idx) with
         eject := rest, cache := Sparse.set (fun _ => none) (s.ni n.idx).cache (mcGroup w.pkt % 256) (some e),
         cell := some { w with fill := true },
         stage := (s.ni n.idx).stage ++ [{ ch := .own, pkt :=
           { opc := Opc.RD, dst := nodeTP s d 5, src := nodeOf s n.idx, sc := w.pkt.sc, cnt := 1,
             tag := tagLane (mcGroup w.pkt) d, arg := natW (laneAddr d (mcGroup w.pkt)) } }] } ∧
       rxNoted s t n.idx p ∧
       regsBut [niReg n.idx (Off.NI_RX_FLIT p.sc)] s t ∧
       changesOnly [.nis, .regs] s t ∧
       nisBut n.idx s t))

/-- A head for another tile is given the link of the best fitting path, one for its own tile the attach point of
its destination, one with no fitting path is discarded, counted and logged, the first one with its destination in
RTR_UNROUTE_INFO, and one whose header cannot be read is discarded as lost; a multicast cell that has wholly
arrived (the model's choice, log entry 38) and whose branches all have room is replaced by its branches, and
RTR_MC_CNT counts them; its branches without a path are counted as unrouted, and where none has a path it is
discarded. -/
def Obligations.HeadRouted : Prop :=
  (∀ (u : Fin 64) (i : Fin 23) (f : Flight) (nx : Nat) (kn : Bool) (sw : Bool) (s : State),
     (s.rt u).inq.find? (needsRoute i.val false) = some f →
     (route s u.val (hopsOf f) f.pkt).1 = .go nx kn sw →
     Completes (.headRoute u i false) s (fun t =>
       ((t.rt u).inq.find? (fun g => decide (g.pkt.key = f.pkt.key))).map (fun g => (g.out, g.knight,
                                                                                     g.swap)) = some (some (portTo u.val nx),
                                                                                                      kn, sw) ∧
       ((t.rt u).inq.map (fun g => (g.pkt.key, g.arrived))) = (s.rt u).inq.map (fun g => (g.pkt.key, g.arrived)) ∧
       changesOnly [.routers] s t ∧
       routersBut [u.val] s t)) ∧
  (∀ (u : Fin 64) (i : Fin 23) (f : Flight) (s : State),
     (s.rt u).inq.find? (needsRoute i.val false) = some f →
     (route s u.val (hopsOf f) f.pkt).1 = .eject →
     Completes (.headRoute u i false) s (fun t =>
       ((t.rt u).inq.find? (fun g => decide (g.pkt.key = f.pkt.key))).map (fun g => g.out) = some (some (16
                                                                                                         + nodePort f.pkt.dst)) ∧
       ((t.rt u).inq.map (fun g => (g.pkt.key, g.arrived))) = (s.rt u).inq.map (fun g => (g.pkt.key, g.arrived)) ∧
       changesOnly [.routers] s t ∧
       routersBut [u.val] s t)) ∧
  (∀ (u : Fin 64) (i : Fin 23) (f : Flight) (s : State),
     (s.rt u).inq.find? (needsRoute i.val false) = some f →
     (route s u.val (hopsOf f) f.pkt).1 = .unroutable →
     f.grp = none →
     resyncOf s u.val f.inp = none →
     (cntOf s (upstream u.val f.inp).1 (upstream u.val f.inp).2).deficit = 0 →
     eventPasses s (.rtr u) →
     Completes (.headRoute u i false) s (fun t =>
       (t.rt u).inq.all (fun g => decide (g.pkt.key ≠ f.pkt.key)) = true ∧
       t.reg (rtrReg u Off.RTR_UNROUTE_CNT) = (s.reg (rtrReg u Off.RTR_UNROUTE_CNT)).satInc ∧
       logs s t (mkEv (ftNow s) (nodeTP s u 5) EvC.UNROUTED []) ∧
       t.reg (rtrReg u Off.RTR_UNROUTE_INFO) = (if s.reg (rtrReg u Off.RTR_UNROUTE_CNT) = 0
         then W.at 0 23 f.pkt.dst ||| W.at 23 2 (vnOf f.pkt.opc) else s.reg (rtrReg u Off.RTR_UNROUTE_INFO)) ∧
       regsBut [rtrReg u Off.RTR_UNROUTE_CNT, rtrReg u Off.RTR_UNROUTE_INFO] s t ∧
       changesOnly [.routers, .regs, .log] s t ∧
       routersBut [u.val, (upstream u.val f.inp).1] s t)) ∧
  (∀ (u : Fin 64) (i : Fin 23) (f : Flight) (s : State),
     (s.rt u).inq.find? (fun f => needsRoute i.val true f && decide (f.pkt.flits ≤ f.arrived)) = some f →
     (fronts [] (s.rt u).inq).contains f = true →
     (debitBranches s u f (branchesOf s u f)).isSome = true →
     (branchesOf s u f).any (fun b => b.2.isSome) = true →
     eventPasses s (.rtr u) →
     Completes (.replicate u i) s (fun t =>
       (t.rt u).inq.map (fun g => (g.out, g.pkt.mask)) = (s.rt u).inq.flatMap (fun g => if g.pkt.key = f.pkt.key
         then (branchesOf s u f).filterMap (fun b => b.2.map (fun o => (some o.1, b.1.mask))) else [(g.out, g.pkt.mask)]) ∧
       t.reg (rtrReg u Off.RTR_MC_CNT) = s.reg (rtrReg u Off.RTR_MC_CNT)
         + BitVec.ofNat 36 ((branchesOf s u f).filter (fun b => b.2.isSome)).length ∧
       t.reg (rtrReg u Off.RTR_UNROUTE_CNT) = BitVec.ofNat 36 (min ((s.reg (rtrReg u Off.RTR_UNROUTE_CNT)).toNat +
         ((branchesOf s u f).filter (fun b => b.2.isNone)).length) (2 ^ 36 - 1)) ∧
       regsBut [rtrReg u Off.RTR_MC_CNT, rtrReg u Off.RTR_UNROUTE_CNT, rtrReg u Off.RTR_UNROUTE_INFO] s t ∧
       changesOnly [.routers, .regs, .log, .ids] s t ∧
       routersBut [u.val] s t)) ∧
  (∀ (u : Fin 64) (i : Fin 23) (f : Flight) (s : State),
     (s.rt u).inq.find? (needsRoute i.val false) = some f →
     f.grp = none →
     resyncOf s u.val f.inp = none →
     (cntOf s (upstream u.val f.inp).1 (upstream u.val f.inp).2).deficit = 0 →
     eventPasses s (.rtr u) →
     Completes (.headRoute u i true) s (fun t =>
       (t.rt u).inq.all (fun g => decide (g.pkt.key ≠ f.pkt.key)) = true ∧
       t.reg (rtrReg u Off.RTR_FAULT_DROP_CNT) = (s.reg (rtrReg u Off.RTR_FAULT_DROP_CNT)).satInc ∧
       logs s t (mkEv (ftNow s) (nodeTP s u 5) EvC.PKT_LOST [1, natW (2 ^ vnOf f.pkt.opc)]) ∧
       regsBut [rtrReg u Off.RTR_FAULT_DROP_CNT] s t ∧
       changesOnly [.routers, .regs, .log] s t ∧
       routersBut [u.val, (upstream u.val f.inp).1] s t)) ∧
  (∀ (u : Fin 64) (i : Fin 23) (f : Flight) (s : State),
     (s.rt u).inq.find? (needsRoute i.val false) = some f →
     (route s u.val (hopsOf f) f.pkt).1 = .unroutable →
     Completes (.headRoute u i false) s (fun t =>
       (t.rt u).inq.all (fun g => decide (g.pkt.key ≠ f.pkt.key)) = true ∧
       t.reg (rtrReg u Off.RTR_UNROUTE_CNT) = (s.reg (rtrReg u Off.RTR_UNROUTE_CNT)).satInc ∧
       changesOnly [.routers, .regs, .log, .agents] s t)) ∧
  (∀ (u : Fin 64) (i : Fin 23) (f : Flight) (s : State),
     (s.rt u).inq.find? (fun f => needsRoute i.val true f && decide (f.pkt.flits ≤ f.arrived)) = some f →
     (fronts [] (s.rt u).inq).contains f = true →
     (branchesOf s u f).all (fun b => b.2.isNone) = true →
     f.grp = none →
     resyncOf s u.val f.inp = none →
     (cntOf s (upstream u.val f.inp).1 (upstream u.val f.inp).2).deficit = 0 →
     eventPasses s (.rtr u) →
     Completes (.replicate u i) s (fun t =>
       (t.rt u).inq.all (fun g => decide (g.pkt.key ≠ f.pkt.key)) = true ∧
       t.reg (rtrReg u Off.RTR_UNROUTE_CNT) = BitVec.ofNat 36 (min ((s.reg (rtrReg u Off.RTR_UNROUTE_CNT)).toNat +
         (branchesOf s u f).length) (2 ^ 36 - 1)) ∧
       regsBut [rtrReg u Off.RTR_UNROUTE_CNT, rtrReg u Off.RTR_UNROUTE_INFO] s t ∧
       changesOnly [.routers, .regs, .log] s t ∧
       routersBut [u.val, (upstream u.val f.inp).1] s t))

/-- Of the heads that can start at an output, the one that R87's order puts first starts (ages, virtual times and
the round robin as log entry 10 reads them, ages counted from log entry 2's look). The packet goes with its flits
to the next router on a network output, to the eject FIFO of the attach point on a local one, or to the controller
of the tile memory where it is a request for its words; it leaves its buffer, its slot is debited at a network
output, and the virtual time of its class and the round robin go on. -/
def Obligations.PacketStarted : Prop :=
  (∀ (u : Fin 64) (o : Fin 23) (f : Flight) (q : List Flight) (s : State),
     q = startable (markReady s u.val) u.val o.val →
     startsFirst (markReady s u.val) u.val o.val q f = true →
     o.val < 16 →
     isLink u o = true →
     Completes (.startNext u o 0) s (fun t =>
       (t.rt (across u o)).inq = (s.rt (across u o)).inq ++
         [{ pkt := f.pkt, inp := portTo (across u o) u, vc := hopsOf f, via := f.inp }] ∧
       (f.debited = false → takeSlots (cntOf s u o) (sc5Rsv s u) (pktKey f.pkt (hopsOf f)) f.pkt.flits f.pkt.sc
         (guardOf false (transitAt (across u o) f.pkt) (cntOf s u o).half (hopsOf f)) = some (cntOf t u o)) ∧
       (∀ g ∈ (t.rt u).inq, g.pkt.key ≠ f.pkt.key) ∧
       (t.rt u).inq.map (fun g => { g with since := none }) =
         ((s.rt u).inq.filter (fun g => decide (g.pkt.key ≠ f.pkt.key))).map (fun g => { g with since := none }) ∧
       t.reg (rtrReg u Off.RTR_AGE_ESC_CNT) = s.reg (rtrReg u Off.RTR_AGE_ESC_CNT) +
         (if f.pkt.sc < 5 ∧ aged s u f = true then 1 else 0) ∧
       outOf t u o.val = (if f.pkt.sc < 5 ∧ aged s u f = false
         then { vt := (List.range 5).map (fun k => if k = f.pkt.sc
                then vtOf (outOf s u o.val).vt k + (f.pkt.flits * 1020 : Nat) / (((weights s u).getD k 1 : Nat) : Rat)
                else if k ∈ q.map (fun g => g.pkt.sc) then vtOf (outOf s u o.val).vt k
                else max (vtOf (outOf s u o.val).vt k) (vtOf (outOf s u o.val).vt f.pkt.sc)), rr := f.inp }
         else outOf s u o.val) ∧
       regsBut [rtrReg u Off.RTR_AGE_ESC_CNT, rtrReg u Off.RTR_OLD_FWD, rtrReg u Off.RTR_KNIGHT_CNT, rtrReg u Off.RTR_SWAP_CNT,
                rtrReg u Off.RTR_SC5_HALF_CNT, rtrReg u Off.RTR_RESYNC_CNT] s t ∧
       routersBut [u.val, (across u o), (upstream u.val f.inp).1] s t ∧
       agentsBut u s t ∧
       changesOnly [.routers, .regs, .agents] s t)) ∧
  (∀ (u : Fin 64) (o : Fin 23) (f : Flight) (q : List Flight) (s : State),
     q = startable (markReady s u.val) u.val o.val →
     startsFirst (markReady s u.val) u.val o.val q f = true →
     16 ≤ o.val →
     (decide (o.val = 21) && toTmem s f.pkt) = false →
     f.pkt.killed = false →
     Completes (.startNext u o 0) s (fun t =>
       (t.ni (niOf u (o - 16))).eject = (s.ni (niOf u (o - 16))).eject ++ [f.pkt] ∧
       (∀ g ∈ (t.rt u).inq, g.pkt.key ≠ f.pkt.key) ∧
       (t.rt u).inq.map (fun g => { g with since := none }) =
         ((s.rt u).inq.filter (fun g => decide (g.pkt.key ≠ f.pkt.key))).map (fun g => { g with since := none }) ∧
       t.reg (rtrReg u Off.RTR_AGE_ESC_CNT) = s.reg (rtrReg u Off.RTR_AGE_ESC_CNT) +
         (if f.pkt.sc < 5 ∧ aged s u f = true then 1 else 0) ∧
       outOf t u o.val = (if f.pkt.sc < 5 ∧ aged s u f = false
         then { vt := (List.range 5).map (fun k => if k = f.pkt.sc
                then vtOf (outOf s u o.val).vt k + (f.pkt.flits * 1020 : Nat) / (((weights s u).getD k 1 : Nat) : Rat)
                else if k ∈ q.map (fun g => g.pkt.sc) then vtOf (outOf s u o.val).vt k
                else max (vtOf (outOf s u o.val).vt k) (vtOf (outOf s u o.val).vt f.pkt.sc)), rr := f.inp }
         else outOf s u o.val) ∧
       nisBut (niOf u (o - 16)) s t ∧
       regsBut [rtrReg u Off.RTR_AGE_ESC_CNT, rtrReg u Off.RTR_OLD_FWD, rtrReg u Off.RTR_KNIGHT_CNT, rtrReg u Off.RTR_SWAP_CNT,
                rtrReg u Off.RTR_SC5_HALF_CNT, rtrReg u Off.RTR_RESYNC_CNT] s t ∧
       routersBut [u.val, (upstream u.val f.inp).1] s t ∧
       agentsBut u s t ∧
       changesOnly [.routers, .nis, .regs, .agents] s t)) ∧
  (∀ (u : Fin 64) (f : Flight) (q : List Flight) (s : State),
     q = startable (markReady s u.val) u.val 21 →
     startsFirst (markReady s u.val) u.val 21 q f = true →
     toTmem s f.pkt = true →
     f.pkt.killed = false →
     Completes (.startNext u 21 0) s (fun t =>
       (t.tmc u).q = (s.tmc u).q ++ [{ pkt := f.pkt }] ∧
       (∀ g ∈ (t.rt u).inq, g.pkt.key ≠ f.pkt.key) ∧
       (t.rt u).inq.map (fun g => { g with since := none }) =
         ((s.rt u).inq.filter (fun g => decide (g.pkt.key ≠ f.pkt.key))).map (fun g => { g with since := none }) ∧
       t.reg (rtrReg u Off.RTR_AGE_ESC_CNT) = s.reg (rtrReg u Off.RTR_AGE_ESC_CNT) +
         (if f.pkt.sc < 5 ∧ aged s u f = true then 1 else 0) ∧
       outOf t u 21 = (if f.pkt.sc < 5 ∧ aged s u f = false
         then { vt := (List.range 5).map (fun k => if k = f.pkt.sc
                then vtOf (outOf s u 21).vt k + (f.pkt.flits * 1020 : Nat) / (((weights s u).getD k 1 : Nat) : Rat)
                else if k ∈ q.map (fun g => g.pkt.sc) then vtOf (outOf s u 21).vt k
                else max (vtOf (outOf s u 21).vt k) (vtOf (outOf s u 21).vt f.pkt.sc)), rr := f.inp }
         else outOf s u 21) ∧
       tmcsBut u.val s t ∧
       regsBut [rtrReg u Off.RTR_AGE_ESC_CNT, rtrReg u Off.RTR_OLD_FWD, rtrReg u Off.RTR_KNIGHT_CNT, rtrReg u Off.RTR_SWAP_CNT,
                rtrReg u Off.RTR_SC5_HALF_CNT, rtrReg u Off.RTR_RESYNC_CNT] s t ∧
       routersBut [u.val, (upstream u.val f.inp).1] s t ∧
       agentsBut u s t ∧
       changesOnly [.routers, .tmcs, .regs, .agents] s t))

/-- A flit whose quarters are clean or corrected is accepted, and ends an entry to Doze at its tile, for the first
time or on replay: the sender counts it sent, the receiver accepted, and its packet has one flit more, or one
fewer to come of a packet that is discarded, whose slot is then given back; each corrected quarter counts at its
slice. A flit with an uncorrectable quarter is discarded and NAK is sent, which counts at each slice that failed;
NAK rewinds the sender, and is sent again when no flit comes. A replay that fails counts in LNK_RFAIL, and at
REPLAY_LIM in a row fences the half at the receiver, and by the NAK at the sender. -/
def Obligations.FlitsCross : Prop :=
  (∀ (u : Fin 64) (i : Fin 16) (p : Pkt) (s : State),
     flitComes s u i p →
     newFlit s u i →
     (s.ta u).entering = none →
     (s.rt u).trail.find? (fun f => decide (f.pkt.key = p.key)) = none →
     Completes (.linkFlit u i .clean .clean .clean .clean) s (fun t =>
       linkOf t u i = { linkOf s u i with accepted := ((linkOf s u i).accepted + 1) % 32, nakFor := none, nakHalves := [],
                                          nakFence := none, failRun := 0 } ∧
       linkOf t (across u i) (portTo (across u i) u) = { linkOf s (across u i) (portTo (across u i) u) with
         sent := ((linkOf s (across u i) (portTo (across u i) u)).sent + 1) % 32, replaying := false } ∧
       ((t.rt u).inq.map (fun f => (f.pkt.key, f.arrived))) = (s.rt u).inq.map (fun f =>
         (f.pkt.key, if f.pkt.key = p.key then f.arrived + 1 else f.arrived)) ∧
       (∀ h < 2, t.reg (slcReg u h (Off.LNK_RFAIL i)) = (s.reg (slcReg u h (Off.LNK_RFAIL i))).put 0 4 0) ∧
       regsBut [slcReg u 0 (Off.LNK_RFAIL i), slcReg u 1 (Off.LNK_RFAIL i)] s t ∧
       changesOnly [.routers, .agents, .regs] s t ∧
       t.ta (across u i) = { s.ta (across u i) with outFc := s.fc } ∧
       agentsBut (across u i) s t ∧
       routersBut [u.val, (across u i)] s t)) ∧
  (∀ (u : Fin 64) (i : Fin 16) (q0 q1 q2 q3 : Quarter) (qs : List Quarter) (p : Pkt) (s : State),
     qs = [q0, q1, q2, q3] →
     qs.any isUe = false →
     flitComes s u i p →
     newFlit s u i →
     (s.ta u).entering = none →
     (s.rt u).trail.find? (fun f => decide (f.pkt.key = p.key)) = none →
     Completes (.linkFlit u i q0 q1 q2 q3) s (fun t =>
       linkOf t u i = { linkOf s u i with accepted := ((linkOf s u i).accepted + 1) % 32, nakFor := none, nakHalves := [],
                                          nakFence := none, failRun := 0 } ∧
       linkOf t (across u i) (portTo (across u i) u) = { linkOf s (across u i) (portTo (across u i) u) with
         sent := ((linkOf s (across u i) (portTo (across u i) u)).sent + 1) % 32, replaying := false } ∧
       ((t.rt u).inq.map (fun f => (f.pkt.key, f.arrived))) = (s.rt u).inq.map (fun f =>
         (f.pkt.key, if f.pkt.key = p.key then f.arrived + 1 else f.arrived)) ∧
       (∀ h < 2, t.reg (slcReg u h (Off.LNK_CE_CNT i)) = s.reg (slcReg u h (Off.LNK_CE_CNT i)) +
         BitVec.ofNat 36 (ceQuarters s u i h qs)) ∧
       changesOnly [.routers, .agents, .regs, .log, .firmware] s t ∧
       t.ta (across u i) = { s.ta (across u i) with outFc := s.fc } ∧
       agentsBut (across u i) s t ∧
       routersBut [u.val, (across u i)] s t)) ∧
  (∀ (u : Fin 64) (i : Fin 16) (q0 q1 q2 q3 : Quarter) (qs : List Quarter) (p : Pkt) (s : State),
     qs = [q0, q1, q2, q3] →
     qs.any isUe = true →
     flitComes s u i p →
     newFlit s u i →
     Completes (.linkFlit u i q0 q1 q2 q3) s (fun t =>
       linkOf t u i = { linkOf s u i with nakFor := some p.key, nakHalves := ueHalves s u i qs, failRun := 0 } ∧
       linkOf t (across u i) (portTo (across u i) u) = { linkOf s (across u i) (portTo (across u i) u) with
         sent := ((linkOf s (across u i) (portTo (across u i) u)).sent + 1) % 32, replaying := false } ∧
       (t.rt u).inq = (s.rt u).inq ∧ (t.rt u).trail = (s.rt u).trail ∧
       (∀ h < 2, t.reg (slcReg u h (Off.LNK_NAK_CNT i)) = s.reg (slcReg u h (Off.LNK_NAK_CNT i)) +
         (if h ∈ ueHalves s u i qs then 1 else 0)) ∧
       (∀ h < 2, t.reg (slcReg u h (Off.LNK_CE_CNT i)) = s.reg (slcReg u h (Off.LNK_CE_CNT i)) +
         BitVec.ofNat 36 (ceQuarters s u i h qs)) ∧
       changesOnly [.routers, .regs, .log, .firmware] s t ∧
       routersBut [u.val, (across u i)] s t)) ∧
  (∀ (u : Fin 64) (i : Fin 16) (s : State),
     (linkOf s (across u i) (portTo (across u i) u)).nakFor.isSome = true →
     (linkOf s (across u i) (portTo (across u i) u)).nakFence = none →
     (linkOf s u i).replaying = false →
     Completes (.nak u i) s (fun t =>
       linkOf t u i = { linkOf s u i with replaying := true, parity0 := 0, parity1 := 0 } ∧
       changesOnly [.routers] s t ∧
       routersBut [u.val] s t)) ∧
  (∀ (u : Fin 64) (i : Fin 16) (s : State),
     (linkOf s u i).nakFor.isSome = true →
     (∀ h ∈ (linkOf s u i).nakHalves, h < 2) →
     Completes (.nakRetry u i) s (fun t =>
       linkOf t (across u i) (portTo (across u i) u) =
         { linkOf s (across u i) (portTo (across u i) u) with replaying := false } ∧
       (∀ h < 2, t.reg (slcReg u h (Off.LNK_NAK_CNT i)) = s.reg (slcReg u h (Off.LNK_NAK_CNT i)) +
         BitVec.ofNat 36 ((linkOf s u i).nakHalves.count h)) ∧
       regsBut [slcReg u 0 (Off.LNK_NAK_CNT i), slcReg u 1 (Off.LNK_NAK_CNT i)] s t ∧
       changesOnly [.routers, .regs] s t ∧
       routersBut [(across u i)] s t)) ∧
  (∀ (u : Fin 64) (i : Fin 16) (h : Nat) (s : State),
     (linkOf s (across u i) (portTo (across u i) u)).nakFor.isSome = true →
     (linkOf s (across u i) (portTo (across u i) u)).nakFence = some h →
     (linkOf s u i).replaying = false →
     Completes (.nak u i) s (fun t =>
       linkOf t u i = { linkOf s u i with replaying := true, parity0 := 0, parity1 := 0, esc := some h } ∧
       t.reg (slcReg u h (Off.LNK_STAT i)) = (s.reg (slcReg u h (Off.LNK_STAT i))).put 0 1 1 ∧
       regsBut [slcReg u h (Off.LNK_STAT i)] s t ∧
       changesOnly [.routers, .regs] s t ∧
       routersBut [u.val] s t)) ∧
  (∀ (u : Fin 64) (i : Fin 16) (p : Pkt) (f : Trail) (s : State),
     flitComes s u i p →
     newFlit s u i →
     (s.ta u).entering = none →
     (s.rt u).trail.find? (fun f => decide (f.pkt.key = p.key)) = some f →
     1 < f.left →
     resyncOf s u i = none →
     (cntOf s (upstream u i).1 (upstream u i).2).deficit = 0 →
     Completes (.linkFlit u i .clean .clean .clean .clean) s (fun t =>
       linkOf t u i = { linkOf s u i with accepted := ((linkOf s u i).accepted + 1) % 32, nakFor := none, nakHalves := [],
                                          nakFence := none, failRun := 0 } ∧
       linkOf t (across u i) (portTo (across u i) u) = { linkOf s (across u i) (portTo (across u i) u) with
         sent := ((linkOf s (across u i) (portTo (across u i) u)).sent + 1) % 32, replaying := false } ∧
       (t.rt u).trail = (s.rt u).trail.map (fun g => if g.pkt.key = p.key then { g with left := g.left - 1 } else g) ∧
       ((t.rt u).inq.map (fun f => (f.pkt.key, f.arrived))) = (s.rt u).inq.map (fun f => (f.pkt.key, f.arrived)) ∧
       (t.rt (upstream u i).1).pips = (s.rt (upstream u i).1).pips ++ [⟨(upstream u i).2, pktKey p f.vc, 0⟩] ∧
       regsBut [slcReg u 0 (Off.LNK_RFAIL i), slcReg u 1 (Off.LNK_RFAIL i)] s t ∧
       changesOnly [.routers, .agents, .regs] s t ∧
       t.ta (across u i) = { s.ta (across u i) with outFc := s.fc } ∧
       agentsBut (across u i) s t ∧
       routersBut [u.val, (across u i)] s t)) ∧
  (∀ (u : Fin 64) (i : Fin 16) (p : Pkt) (s : State),
     flitComes s u i p →
     (linkOf s u i).nakFor.isSome = true →
     (linkOf s (across u i) (portTo (across u i) u)).replaying = true →
     (s.ta u).entering = none →
     (s.rt u).trail.find? (fun f => decide (f.pkt.key = p.key)) = none →
     Completes (.linkFlit u i .clean .clean .clean .clean) s (fun t =>
       linkOf t u i = { linkOf s u i with accepted := ((linkOf s u i).accepted + 1) % 32, nakFor := none, nakHalves := [],
                                          nakFence := none, failRun := 0 } ∧
       linkOf t (across u i) (portTo (across u i) u) = { linkOf s (across u i) (portTo (across u i) u) with replaying := false } ∧
       ((t.rt u).inq.map (fun f => (f.pkt.key, f.arrived))) = (s.rt u).inq.map (fun f =>
         (f.pkt.key, if f.pkt.key = p.key then f.arrived + 1 else f.arrived)) ∧
       regsBut [slcReg u 0 (Off.LNK_RFAIL i), slcReg u 1 (Off.LNK_RFAIL i)] s t ∧
       changesOnly [.routers, .agents, .regs] s t ∧
       t.ta (across u i) = { s.ta (across u i) with outFc := s.fc } ∧
       agentsBut (across u i) s t ∧
       routersBut [u.val, (across u i)] s t)) ∧
  (∀ (u : Fin 64) (i : Fin 16) (h : Nat) (p : Pkt) (s : State),
     flitComes s u i p →
     (linkOf s u i).nakFor.isSome = true →
     (linkOf s (across u i) (portTo (across u i) u)).replaying = true →
     sliceOf s u i 0 = h →
     (linkOf s u i).failRun + 1 < getFld s (rtrReg u Off.RTR_LNK_CFG) 8 4 →
     Completes (.linkFlit u i .ue .clean .clean .clean) s (fun t =>
       linkOf t u i = { linkOf s u i with nakFor := some p.key, nakHalves := [h], failRun := (linkOf s u i).failRun + 1 } ∧
       linkOf t (across u i) (portTo (across u i) u) = { linkOf s (across u i) (portTo (across u i) u) with replaying := false } ∧
       (t.rt u).inq = (s.rt u).inq ∧ (t.rt u).trail = (s.rt u).trail ∧
       t.reg (slcReg u h (Off.LNK_NAK_CNT i)) = s.reg (slcReg u h (Off.LNK_NAK_CNT i)) + 1 ∧
       getFld t (slcReg u h (Off.LNK_RFAIL i)) 0 4 = min (getFld s (slcReg u h (Off.LNK_RFAIL i)) 0 4 + 1) 15 ∧
       getFld t (slcReg u h (Off.LNK_RFAIL i)) 4 32 = (getFld s (slcReg u h (Off.LNK_RFAIL i)) 4 32 + 1) % 2 ^ 32 ∧
       regsBut [slcReg u h (Off.LNK_NAK_CNT i), slcReg u h (Off.LNK_RFAIL i)] s t ∧
       changesOnly [.routers, .regs] s t ∧
       routersBut [u.val, (across u i)] s t)) ∧
  (∀ (u : Fin 64) (i : Fin 16) (h : Nat) (p : Pkt) (s : State),
     flitComes s u i p →
     (linkOf s u i).nakFor.isSome = true →
     (linkOf s (across u i) (portTo (across u i) u)).replaying = true →
     sliceOf s u i 0 = h →
     getFld s (rtrReg u Off.RTR_LNK_CFG) 8 4 ≤ (linkOf s u i).failRun + 1 →
     rxFenced s u i (1 - h) = false →
     eventPasses s (.rtr u) →
     Completes (.linkFlit u i .ue .clean .clean .clean) s (fun t =>
       linkOf t u i = { linkOf s u i with nakFor := some p.key, nakHalves := [h], nakFence := some h, failRun := 0 } ∧
       linkOf t (across u i) (portTo (across u i) u) = { linkOf s (across u i) (portTo (across u i) u) with replaying := false } ∧
       (t.rt u).inq = (s.rt u).inq ∧ (t.rt u).trail = (s.rt u).trail ∧
       t.reg (slcReg u h (Off.LNK_STAT i)) = (s.reg (slcReg u h (Off.LNK_STAT i))).put 1 1 1 ∧
       t.reg (slcReg u h (Off.LNK_NAK_CNT i)) = s.reg (slcReg u h (Off.LNK_NAK_CNT i)) + 1 ∧
       t.ta u = { s.ta u with busyDue := true } ∧
       logs s t (mkEv (ftNow s) (nodeTP s u 5) EvC.LINK_HALF_FENCED [natW i, natW h]) ∧
       regsBut [slcReg u h (Off.LNK_STAT i), slcReg u h (Off.LNK_NAK_CNT i), slcReg u h (Off.LNK_RFAIL i)] s t ∧
       changesOnly [.routers, .regs, .log, .firmware, .agents] s t ∧
       agentsBut u s t ∧
       routersBut [u.val, (across u i)] s t)) ∧
  (∀ (u : Fin 64) (i : Fin 16) (p : Pkt) (s : State),
     flitComes s u i p →
     newFlit s u i →
     (s.ta u).entering.isSome = true →
     (s.rt u).trail.find? (fun f => decide (f.pkt.key = p.key)) = none →
     Completes (.linkFlit u i .clean .clean .clean .clean) s (fun t =>
       ((t.rt u).inq.map (fun f => (f.pkt.key, f.arrived))) = (s.rt u).inq.map (fun f =>
         (f.pkt.key, if f.pkt.key = p.key then f.arrived + 1 else f.arrived)) ∧
       (t.ta u).entering = none ∧
       t.ta (across u i) = { s.ta (across u i) with outFc := s.fc } ∧
       t.reg (taReg u Off.PWR_REFUSE_CNT) = s.reg (taReg u Off.PWR_REFUSE_CNT) + 1 ∧
       t.reg (taReg u (Off.PWR_REFUSE_BY 1)) = s.reg (taReg u (Off.PWR_REFUSE_BY 1)) + 1 ∧
       t.reg (taReg u Off.PWR_LAST_REFUSER) = W.at 0 4 1 ||| W.at 4 3 3 ||| W.at 7 1 1 ∧
       regsBut [slcReg u 0 (Off.LNK_RFAIL i), slcReg u 1 (Off.LNK_RFAIL i), taReg u Off.PWR_REFUSE_CNT,
                taReg u (Off.PWR_REFUSE_BY 1), taReg u Off.PWR_LAST_REFUSER] s t ∧
       changesOnly [.routers, .agents, .regs] s t ∧
       routersBut [u.val, (across u i)] s t))

/-- A return word acknowledges the flits accepted and frees the slot that the oldest pip names; one that fails
parity adds to the run of its half (the model's reading of a word in which one half failed, log entry 37), is
discarded, with its pip, and the port is resynchronised. A resynchronisation runs through request, mark and grant,
and the grant loads the counts of the new layout at the sender. -/
def Obligations.PipsAndResync : Prop :=
  (∀ (u : Fin 64) (o : Fin 23) (p : Pip) (rest : List Pip) (s : State),
     takeFirst (fun p => decide (p.key = o.val)) (s.rt u).pips = some (p, rest) →
     (cntOf s u o).deficit = 0 →
     (resyncOf s (if o.val < 16 then across u o else u) (if o.val < 16 then portTo (across u o) u
                                                         else o)).isNone = true →
     Completes (.pip u o) s (fun t =>
       cntOf t u o = freeSlot (cntOf s u o) p.vc ∧
       (t.rt u).pips = rest ∧
       (o.val < 16 → (linkOf t u o).acked = (linkOf s (across u o) (portTo (across u o) u)).accepted) ∧
       regsBut [pwrReg Off.PWR_PROFILE_STAT] s t ∧
       changesOnly [.routers, .regs, .log] s t ∧
       routersBut [u.val] s t)) ∧
  (∀ (u : Fin 64) (i : Fin 16) (h : Fin 2) (s : State),
     (if h = 0 then (linkOf s u i).parity0 else (linkOf s u i).parity1) + 1 < getFld s (rtrReg u Off.RTR_LNK_CFG) 8 4 →
     isLink u i = true →
     Completes (.returnParityFail u i h) s (fun t =>
       (linkOf t u i).parity0 = (if h = 0 then (linkOf s u i).parity0 + 1 else 0) ∧
       (linkOf t u i).parity1 = (if h = 0 then 0 else (linkOf s u i).parity1 + 1) ∧
       resyncOf t (across u i) (portTo (across u i) u) = some
         { port := (portTo (across u i) u), half := (cntOf s u i).half } ∧
       (t.rt u).pips = (match takeFirst (fun p => decide (p.key = i.val)) (s.rt u).pips with
         | none => (s.rt u).pips | some e => e.2) ∧
       changesOnly [.routers] s t ∧
       routersBut [u.val, (across u i)] s t)) ∧
  (∀ (u : Fin 64) (i : Fin 23) (r : ResyncSt) (s : State),
     resyncOf s u i = some r →
     r.phase = .req →
     Completes (.resyncReq u i) s (fun t =>
       resyncOf t u i = some { r with phase := .mark } ∧
       changesOnly [.routers] s t ∧
       routersBut [u.val] s t)) ∧
  (∀ (u : Fin 64) (i : Fin 23) (r : ResyncSt) (s : State),
     resyncOf s u i = some r →
     r.phase = .mark →
     portQuiet s u i = true →
     Completes (.resyncMark u i) s (fun t =>
       resyncOf t u i = some { r with
         phase := .grant, cnt := grantCnt (portHeld s u i) r.half (sc5Rsv s (upstream u i).1) } ∧
       (t.rt (upstream u i).1).pips = (s.rt (upstream u i).1).pips.filter (fun p => decide (p.key ≠ (upstream u i).2)) ∧
       changesOnly [.routers] s t ∧
       routersBut [u.val, (upstream u i).1] s t)) ∧
  (∀ (u : Fin 64) (i : Fin 23) (r : ResyncSt) (s : State),
     resyncOf s u i = some r →
     r.phase = .grant →
     Completes (.resyncGrant u i) s (fun t =>
       resyncOf t u i = none ∧
       cntOf t (upstream u i).1 (upstream u i).2 = r.cnt ∧
       t.reg (rtrReg u Off.RTR_RESYNC_CNT) = s.reg (rtrReg u Off.RTR_RESYNC_CNT) + 1 ∧
       changesOnly [.routers, .regs, .agents, .log] s t ∧
       routersBut [u.val, (upstream u i).1] s t ∧
       agentsBut u.val s t))

/-- A NARROW marker puts the wanted half out of use at both ends, a widening brings it back once it is wanted and
the replay store is empty. A lost link is fenced at both of its routers, all its halves are out of use and
LINK_LOST is logged, and BUSY falls due at the sending tile. A saturated window of an output with a ready head
counts and names the output. -/
def Obligations.LinksChangeForm : Prop :=
  (∀ (u : Fin 64) (i : Fin 16) (h : Fin 2) (s : State),
     (txFenced s (across u i) (portTo (across u i) u) h && rxFenced s u i h) = false →
     (txFenced s (across u i) (portTo (across u i) u) h || (fenceWanted s (across u i) (portTo (across u i) u) h && storeEmpty (linkOf s (across u i) (portTo (across u i) u)))) = true →
     rxFenced s u i (1 - h) = false →
     Completes (.narrow u i h) s (fun t =>
       txFenced t (across u i) (portTo (across u i) u) h = true ∧
       rxFenced t u i h = true ∧
       regsBut [slcReg (across u i) h (Off.LNK_STAT (portTo (across u i) u)), slcReg u h (Off.LNK_STAT i)] s t ∧
       changesOnly [.regs] s t)) ∧
  (∀ (u : Fin 64) (i : Fin 16) (h : Fin 2) (s : State),
     rxFenced s u i h = true →
     fenceWanted s (across u i) (portTo (across u i) u) h = false →
     storeEmpty (linkOf s (across u i) (portTo (across u i) u)) = true →
     Completes (.widen u i h) s (fun t =>
       txFenced t (across u i) (portTo (across u i) u) h = false ∧
       rxFenced t u i h = false ∧
       regsBut [slcReg (across u i) h (Off.LNK_STAT (portTo (across u i) u)), slcReg u h (Off.LNK_STAT i)] s t ∧
       changesOnly [.regs] s t)) ∧
  (∀ (u : Fin 64) (i : Fin 16) (s : State),
     isLink u i = true →
     eventPasses s (.rtr (across u i)) →
     (s.rt u).inq = [] →
     (s.rt u).trail = [] →
     (s.rt (across u i)).inq = [] →
     (s.rt (across u i)).trail = [] →
     Completes (.linkLost u i) s (fun t =>
       localFence t u i = true ∧
       localFence t (across u i) (portTo (across u i) u) = true ∧
       txFenced t u i 0 = true ∧
       txFenced t u i 1 = true ∧
       rxFenced t (across u i) (portTo (across u i) u) 0 = true ∧
       rxFenced t (across u i) (portTo (across u i) u) 1 = true ∧
       logs s t (mkEv (ftNow s) (nodeTP s (across u i) 5) EvC.LINK_LOST []) ∧
       regsBut [rtrReg u Off.RTR_LOCAL_FENCE, rtrReg (across u i) Off.RTR_LOCAL_FENCE,
                slcReg u 0 (Off.LNK_STAT i), slcReg u 1 (Off.LNK_STAT i),
                slcReg (across u i) 0 (Off.LNK_STAT (portTo (across u i) u)),
                slcReg (across u i) 1 (Off.LNK_STAT (portTo (across u i) u))] s t ∧
       (t.ta (across u i)) = { (s.ta (across u i)) with busyDue := true } ∧
       agentsBut (across u i) s t ∧
       changesOnly [.routers, .regs, .log, .agents] s t ∧
       routersBut [u.val, (across u i)] s t)) ∧
  (∀ (u : Fin 64) (o : Fin 23) (s : State),
     readyHeads s u o ≠ [] →
     eventPasses s (.rtr u) →
     Completes (.saturatedWindow u o) s (fun t =>
       t.reg (rtrReg u Off.RTR_HOTSPOT_CNT) = (s.reg (rtrReg u Off.RTR_HOTSPOT_CNT)).satInc ∧
       t.reg (rtrReg u Off.RTR_HOTSPOT_INFO) = W.at 0 5 o ||| W.at 5 8 (waitingClasses s u o) ∧
       regsBut [rtrReg u Off.RTR_HOTSPOT_CNT, rtrReg u Off.RTR_HOTSPOT_INFO] s t ∧
       changesOnly [.routers, .regs, .log] s t ∧
       routersBut [u.val] s t ∧
       (t.rt u).inq = (s.rt u).inq))

/-- A read at the head of the queue whose words are good gives them to who asked, and its entry is freed; a word
corrected on the way is counted; an uncorrectable word is poisoned, counted and logged as TMEM_UE, its address
kept, and answered POISON. A read or LDRES of any words, good, corrected or uncorrectable, is answered with all of
them, the uncorrectable ones poisoned and counted; the data of such a word, and how a word behind the first shows
an error, are free (log entry 4). LDRES puts the entry of its node on the granule. No word changes. -/
def Obligations.TileMemoryReads : Prop :=
  (∀ (u : Fin 64) (r : TReq) (q : List TReq) (s : State),
     (s.tmc u).q = r :: q →
     noEntryNext q →
     r.pkt.opc = Opc.RD →
     (r.pkt.isLdres && viaFabric r) = false →
     (∀ a ∈ ((List.range r.pkt.cnt).map (fun i => tmemAddr u (offOf r.pkt + i))), isPoison s a = false) →
     Completes (.tmemRd u .clean) s (fun t =>
       (t.tmc u) = { (s.tmc u) with q := q, fopDone := 0, fopOld := [] } ∧
       (r.via = .fabric → (t.ni (niOf u 5)).stage = (s.ni (niOf u 5)).stage ++
         [{ ch := .own, tmem := true,
            pkt := mkResp r.pkt (nodeTP s u 5) St.OK ((List.range r.pkt.cnt).map (fun i => s.word (tmemAddr u (offOf r.pkt
                                                                                                               + i)))) 0 }]) ∧
       (∀ m, r.via = .mem m → t.nis = s.nis
        ∧ pieceKept (answerPort s m r.pkt.id St.OK ((List.range r.pkt.cnt).map (fun i => s.word (tmemAddr u (offOf r.pkt
                                                                                                             + i))))) t .ports) ∧
       nisBut (niOf u 5) s t ∧
       tmcsBut u s t ∧
       (r.via = .fabric → pieceKept s t .ports) ∧
       changesOnly [.tmcs, .nis, .ports] s t)) ∧
  (∀ (u : Fin 64) (r : TReq) (q : List TReq) (s : State),
     (s.tmc u).q = r :: q →
     noEntryNext q →
     r.pkt.opc = Opc.RD →
     (r.pkt.isLdres && viaFabric r) = false →
     (∀ a ∈ ((List.range r.pkt.cnt).map (fun i => tmemAddr u (offOf r.pkt + i))), isPoison s a = false) →
     r.pkt.cnt = 1 →
     Completes (.tmemRd u .ce) s (fun t =>
       (t.tmc u) = { (s.tmc u) with q := q, fopDone := 0, fopOld := [], rowDue := (t.tmc u).rowDue } ∧
       (∃ l, (t.tmc u).rowDue = (s.tmc u).rowDue ++ l) ∧
       (r.via = .fabric → (t.ni (niOf u 5)).stage = (s.ni (niOf u 5)).stage ++
         [{ ch := .own, tmem := true,
            pkt := mkResp r.pkt (nodeTP s u 5) St.OK ((List.range r.pkt.cnt).map (fun i => s.word (tmemAddr u (offOf r.pkt
                                                                                                               + i)))) 0 }]) ∧
       (∀ m, r.via = .mem m → t.nis = s.nis
        ∧ pieceKept (answerPort s m r.pkt.id St.OK ((List.range r.pkt.cnt).map (fun i => s.word (tmemAddr u (offOf r.pkt
                                                                                                             + i))))) t .ports) ∧
       nisBut (niOf u 5) s t ∧
       tmcsBut u s t ∧
       (r.via = .fabric → pieceKept s t .ports) ∧
       t.reg (tmemReg u Off.TMEM_CE_CNT) = s.reg (tmemReg u Off.TMEM_CE_CNT) + 1 ∧
       pieceKept (noteCe s u (offOf r.pkt)) t .regs ∧
       pieceKept (noteCe s u (offOf r.pkt)) t .log ∧
       changesOnly [.tmcs, .nis, .ports, .regs, .log] s t)) ∧
  (∀ (u : Fin 64) (r : TReq) (q : List TReq) (s : State),
     (s.tmc u).q = r :: q →
     noEntryNext q →
     r.pkt.opc = Opc.RD →
     (r.pkt.isLdres && viaFabric r) = false →
     r.pkt.cnt = 1 →
     isPoison s (tmemAddr u (offOf r.pkt)) = false →
     Completes (.tmemRd u .ue) s (fun t =>
       (t.tmc u) = { (s.tmc u) with q := q, fopDone := 0, fopOld := [], rowDue := (t.tmc u).rowDue } ∧
       (bankOf (offOf r.pkt), rowOfWord (offOf r.pkt)) ∈ (t.tmc u).rowDue ∧
       (∀ x ∈ (s.tmc u).rowDue, x ∈ (t.tmc u).rowDue) ∧
       isPoison t (tmemAddr u (offOf r.pkt)) = true ∧
       wordsBut [] s t ∧
       (r.via = .fabric → (t.ni (niOf u 5)).stage = (s.ni (niOf u 5)).stage ++
         [{ ch := .own, tmem := true, pkt := mkResp r.pkt (nodeTP s u 5) St.POISON [Config.freeWord s.freeN] 1 }]) ∧
       (∀ m, r.via = .mem m → t.nis = s.nis
        ∧ pieceKept (answerPort s m r.pkt.id St.POISON [Config.freeWord s.freeN]) t .ports) ∧
       nisBut (niOf u 5) s t ∧
       tmcsBut u s t ∧
       (r.via = .fabric → pieceKept s t .ports) ∧
       t.freeN = s.freeN + 1 ∧
       t.reg (tmemReg u Off.TMEM_UE_CNT) = (s.reg (tmemReg u Off.TMEM_UE_CNT)).satInc ∧
       t.reg (tmemReg u Off.TMEM_UE_ADDR) = natW (tmemAddr u (offOf r.pkt)) ∧
       (eventPasses s (.tmem u) → t.evq.take (s.evq.length + 1) = s.evq ++ [mkEv (ftTile s u) (nodeTP s u 5) EvC.TMEM_UE []]) ∧
       regsBut [tmemReg u Off.TMEM_UE_CNT, tmemReg u Off.TMEM_UE_ADDR, tmemReg u Off.TMEM_ROW_TRK,
                taReg u Off.CDC_TA_STAT, taReg u Off.CDC_TA_LOST] s t ∧
       changesOnly [.tmcs, .nis, .ports, .regs, .log, .mem, .ids] s t)) ∧
  (∀ (u : Fin 64) (r : TReq) (q : List TReq) (s : State),
     (s.tmc u).q = r :: q →
     noEntryNext q →
     r.pkt.isLdres = true →
     r.via = .fabric →
     (∀ a ∈ ((List.range r.pkt.cnt).map (fun i => tmemAddr u (offOf r.pkt + i))), isPoison s a = false) →
     Completes (.tmemLdres u .clean) s (fun t =>
       (t.tmc u) = { (s.tmc u) with
         q := q, fopDone := 0, fopOld := [], resv := (s.tmc u).resv.filter (fun x => decide (x.1 ≠ r.pkt.src))
         ++ [(r.pkt.src, ((tmemAddr u (offOf r.pkt)) / 16 * 16))] } ∧
       (r.via = .fabric → (t.ni (niOf u 5)).stage = (s.ni (niOf u 5)).stage ++
         [{ ch := .own, tmem := true,
            pkt := mkResp r.pkt (nodeTP s u 5) St.OK ((List.range r.pkt.cnt).map (fun i => s.word (tmemAddr u (offOf r.pkt
                                                                                                               + i)))) 0 }]) ∧
       (∀ m, r.via = .mem m → t.nis = s.nis
        ∧ pieceKept (answerPort s m r.pkt.id St.OK ((List.range r.pkt.cnt).map (fun i => s.word (tmemAddr u (offOf r.pkt
                                                                                                             + i))))) t .ports) ∧
       nisBut (niOf u 5) s t ∧
       tmcsBut u s t ∧
       (r.via = .fabric → pieceKept s t .ports) ∧
       changesOnly [.tmcs, .nis] s t)) ∧
  (∀ (u : Fin 64) (e : MemErr) (r : TReq) (q : List TReq) (j : Nat) (vs : List (Option W)) (s : State),
     (s.tmc u).q = r :: q →
     noEntryNext q →
     r.pkt.opc = Opc.RD →
     (r.pkt.isLdres && viaFabric r) = false →
     j = (if e = .clean ∨ r.pkt.cnt ≤ 1 then 0 else (Config.freeWord s.freeN).toNat % r.pkt.cnt) →
     vs = (List.range r.pkt.cnt).map (fun i => if isPoison s (tmemAddr u (offOf r.pkt + i)) = true ∨ e = .ue ∧ i = j then none
       else some (s.word (tmemAddr u (offOf r.pkt + i)))) →
     Completes (.tmemRd u e) s (fun t =>
       (t.tmc u) = { (s.tmc u) with q := q, fopDone := 0, fopOld := [], rowDue := (t.tmc u).rowDue } ∧
       (r.via = .fabric → (t.ni (niOf u 5)).stage = (s.ni (niOf u 5)).stage ++
         [{ ch := .own, tmem := true, pkt := mkResp r.pkt (nodeTP s u 5) (if none ∈ vs then St.POISON else St.OK)
               (sentWords (errAt s e r.pkt.cnt).2 vs).1 (poiMask vs) }]) ∧
       (∀ m, r.via = .mem m → t.nis = s.nis ∧
         pieceKept (answerPort s m r.pkt.id (if none ∈ vs then St.POISON else St.OK) (sentWords (errAt s e r.pkt.cnt).2 vs).1) t .ports) ∧
       nisBut (niOf u 5) s t ∧
       tmcsBut u s t ∧
       t.freeN = s.freeN + (if e = .clean ∨ r.pkt.cnt ≤ 1 then 0 else 1) + vs.count none ∧ t.nextId = s.nextId ∧
       wordsBut [] s t ∧
       (∀ a, isPoison t a = (isPoison s a || decide (e = .ue ∧ 0 < r.pkt.cnt ∧ a = tmemAddr u (offOf r.pkt + j)))) ∧
       t.reg (tmemReg u Off.TMEM_UE_CNT) =
         BitVec.ofNat 36 (min ((s.reg (tmemReg u Off.TMEM_UE_CNT)).toNat + vs.count none) (2 ^ 36 - 1)) ∧
       t.reg (tmemReg u Off.TMEM_CE_CNT) = s.reg (tmemReg u Off.TMEM_CE_CNT) +
         (if e = .ce ∧ 0 < r.pkt.cnt ∧ isPoison s (tmemAddr u (offOf r.pkt + j)) = false then 1 else 0) ∧
       (∀ i < r.pkt.cnt, vs.getD i none = none →
         (bankOf (offOf r.pkt + i), rowOfWord (offOf r.pkt + i)) ∈ (t.tmc u).rowDue) ∧
       (∀ x ∈ (s.tmc u).rowDue, x ∈ (t.tmc u).rowDue) ∧
       (none ∈ vs → crossHeld s (.tmem u) < 14 → s.evq.length < 15 →
         mkEv (ftTile s u) (nodeTP s u 5) EvC.TMEM_UE [] ∈ t.evq.drop s.evq.length) ∧
       regsBut [tmemReg u Off.TMEM_UE_CNT, tmemReg u Off.TMEM_UE_ADDR, tmemReg u Off.TMEM_CE_CNT,
                tmemReg u Off.TMEM_ROW_TRK, taReg u Off.CDC_TA_STAT, taReg u Off.CDC_TA_LOST] s t ∧
       changesOnly [.tmcs, .nis, .ports, .regs, .log, .mem, .ids, .firmware] s t)) ∧
  (∀ (u : Fin 64) (e : MemErr) (r : TReq) (q : List TReq) (j : Nat) (vs : List (Option W)) (s : State),
     (s.tmc u).q = r :: q →
     noEntryNext q →
     r.pkt.isLdres = true →
     r.via = .fabric →
     j = (if e = .clean ∨ r.pkt.cnt ≤ 1 then 0 else (Config.freeWord s.freeN).toNat % r.pkt.cnt) →
     vs = (List.range r.pkt.cnt).map (fun i => if isPoison s (tmemAddr u (offOf r.pkt + i)) = true ∨ e = .ue ∧ i = j then none
       else some (s.word (tmemAddr u (offOf r.pkt + i)))) →
     Completes (.tmemLdres u e) s (fun t =>
       (t.tmc u) = { (s.tmc u) with
         q := q, fopDone := 0, fopOld := [], rowDue := (t.tmc u).rowDue, resv := (s.tmc u).resv.filter (fun x => decide (x.1 ≠ r.pkt.src))
         ++ [(r.pkt.src, ((tmemAddr u (offOf r.pkt)) / 16 * 16))] } ∧
       (r.via = .fabric → (t.ni (niOf u 5)).stage = (s.ni (niOf u 5)).stage ++
         [{ ch := .own, tmem := true, pkt := mkResp r.pkt (nodeTP s u 5) (if none ∈ vs then St.POISON else St.OK)
               (sentWords (errAt s e r.pkt.cnt).2 vs).1 (poiMask vs) }]) ∧
       (∀ m, r.via = .mem m → t.nis = s.nis ∧
         pieceKept (answerPort s m r.pkt.id (if none ∈ vs then St.POISON else St.OK) (sentWords (errAt s e r.pkt.cnt).2 vs).1) t .ports) ∧
       nisBut (niOf u 5) s t ∧
       tmcsBut u s t ∧
       t.freeN = s.freeN + (if e = .clean ∨ r.pkt.cnt ≤ 1 then 0 else 1) + vs.count none ∧ t.nextId = s.nextId ∧
       wordsBut [] s t ∧
       (∀ a, isPoison t a = (isPoison s a || decide (e = .ue ∧ 0 < r.pkt.cnt ∧ a = tmemAddr u (offOf r.pkt + j)))) ∧
       t.reg (tmemReg u Off.TMEM_UE_CNT) =
         BitVec.ofNat 36 (min ((s.reg (tmemReg u Off.TMEM_UE_CNT)).toNat + vs.count none) (2 ^ 36 - 1)) ∧
       t.reg (tmemReg u Off.TMEM_CE_CNT) = s.reg (tmemReg u Off.TMEM_CE_CNT) +
         (if e = .ce ∧ 0 < r.pkt.cnt ∧ isPoison s (tmemAddr u (offOf r.pkt + j)) = false then 1 else 0) ∧
       (∀ i < r.pkt.cnt, vs.getD i none = none →
         (bankOf (offOf r.pkt + i), rowOfWord (offOf r.pkt + i)) ∈ (t.tmc u).rowDue) ∧
       (∀ x ∈ (s.tmc u).rowDue, x ∈ (t.tmc u).rowDue) ∧
       (none ∈ vs → crossHeld s (.tmem u) < 14 → s.evq.length < 15 →
         mkEv (ftTile s u) (nodeTP s u 5) EvC.TMEM_UE [] ∈ t.evq.drop s.evq.length) ∧
       regsBut [tmemReg u Off.TMEM_UE_CNT, tmemReg u Off.TMEM_UE_ADDR, tmemReg u Off.TMEM_CE_CNT,
                tmemReg u Off.TMEM_ROW_TRK, taReg u Off.CDC_TA_STAT, taReg u Off.CDC_TA_LOST] s t ∧
       changesOnly [.tmcs, .nis, .ports, .regs, .log, .mem, .ids, .firmware] s t))

/-- A plain write stores each of its words, poisoned where it came poisoned, ends every other agent's reservation
on a line it stores to, and is acknowledged. STCOND stores where the entry of its node names the granule, and
clears the entry; otherwise it fails, stores nothing and is counted. The entry of a fanfare that stands behind the
request that is served is stored next. -/
def Obligations.TileMemoryWrites : Prop :=
  (∀ (u : Fin 64) (r : TReq) (q : List TReq) (s : State),
     (s.tmc u).q = r :: q →
     noEntryNext q →
     r.pkt.opc = Opc.WR →
     r.pkt.isStcond = false →
     Completes (.tmemWr u) s (fun t =>
       (∀ a, isPoison t a = ((List.range r.pkt.cnt).any (fun j => decide (a = tmemAddr u (offOf r.pkt
                                                                                          + j)) && r.pkt.wordPoi j) || (isPoison s a && !decide (a ∈ ((List.range r.pkt.cnt).map (fun i => tmemAddr u (offOf r.pkt
                                                                                                                                                                                                       + i))))))) ∧
       ((List.range r.pkt.cnt).all (fun j => decide (t.word (tmemAddr u (offOf r.pkt
                                                                         + j)) = wordAt r.pkt.words j)) = true) ∧
       wordsBut ((List.range r.pkt.cnt).map (fun i => tmemAddr u (offOf r.pkt + i))) s t ∧
       (t.tmc u) = { (s.tmc u) with
         q := q, fopDone := 0, fopOld := [],
         resv := (s.tmc u).resv.filter (fun x => decide (x.1 = r.pkt.src) || ((List.range r.pkt.cnt).map (fun i => tmemAddr u (offOf r.pkt
                                                                                                                               + i))).all (fun a => decide (x.2 ≠ a / 16 * 16))) } ∧
       (r.via = .fabric → (t.ni (niOf u 5)).stage = (s.ni (niOf u 5)).stage ++
         [{ ch := .own, tmem := true, pkt := mkResp r.pkt (nodeTP s u 5) (if ((List.range r.pkt.cnt).any r.pkt.wordPoi = true)
                                                            then St.POISON else St.OK) [] 0 }]) ∧
       (∀ m, r.via = .mem m → t.nis = s.nis
        ∧ pieceKept (answerPort s m r.pkt.id (if ((List.range r.pkt.cnt).any r.pkt.wordPoi = true) then St.POISON
                                              else St.OK) []) t .ports ∧ pieceKept (answerPort s m r.pkt.id (if ((List.range r.pkt.cnt).any r.pkt.wordPoi = true) then St.POISON else St.OK) []) t .cores) ∧
       nisBut (niOf u 5) s t ∧
       tmcsBut u s t ∧
       (r.via = .fabric → pieceKept s t .ports ∧ pieceKept s t .cores) ∧
       t.reg (tmemReg u Off.TMEM_POI_WR_CNT) = (if ((List.range r.pkt.cnt).any r.pkt.wordPoi = true)
                                                then s.reg (tmemReg u Off.TMEM_POI_WR_CNT) + 1
                                                else s.reg (tmemReg u Off.TMEM_POI_WR_CNT)) ∧
       regsBut [tmemReg u Off.TMEM_POI_WR_CNT] s t ∧
       changesOnly [.cores, .tmcs, .nis, .ports, .regs, .mem] s t)) ∧
  (∀ (u : Fin 64) (r : TReq) (q : List TReq) (s : State),
     (s.tmc u).q = r :: q →
     noEntryNext q →
     r.pkt.isStcond = true →
     r.via = .fabric →
     (r.pkt.src, ((tmemAddr u (offOf r.pkt)) / 16 * 16)) ∈ (s.tmc u).resv →
     r.pkt.cnt = 1 →
     Completes (.tmemStcond u) s (fun t =>
       (∀ a, isPoison t a = ((List.range r.pkt.cnt).any (fun j => decide (a = tmemAddr u (offOf r.pkt
                                                                                          + j)) && r.pkt.wordPoi j) || (isPoison s a && !decide (a ∈ ((List.range r.pkt.cnt).map (fun i => tmemAddr u (offOf r.pkt
                                                                                                                                                                                                       + i))))))) ∧
       ((List.range r.pkt.cnt).all (fun j => decide (t.word (tmemAddr u (offOf r.pkt
                                                                         + j)) = wordAt r.pkt.words j)) = true) ∧
       wordsBut ((List.range r.pkt.cnt).map (fun i => tmemAddr u (offOf r.pkt + i))) s t ∧
       (t.tmc u) = { (s.tmc u) with
         q := q, fopDone := 0, fopOld := [],
         resv := (s.tmc u).resv.filter (fun x => decide (x.1 ≠ r.pkt.src) && decide (x.2 ≠ ((tmemAddr u (offOf r.pkt)) / 16 * 16))) } ∧
       (r.via = .fabric → (t.ni (niOf u 5)).stage = (s.ni (niOf u 5)).stage ++
         [{ ch := .own, tmem := true, pkt := mkResp r.pkt (nodeTP s u 5) (if ((List.range r.pkt.cnt).any r.pkt.wordPoi = true)
                                                            then St.POISON else St.OK) [] 0 }]) ∧
       (∀ m, r.via = .mem m → t.nis = s.nis
        ∧ pieceKept (answerPort s m r.pkt.id (if ((List.range r.pkt.cnt).any r.pkt.wordPoi = true) then St.POISON
                                              else St.OK) []) t .ports ∧ pieceKept (answerPort s m r.pkt.id (if ((List.range r.pkt.cnt).any r.pkt.wordPoi = true) then St.POISON else St.OK) []) t .cores) ∧
       nisBut (niOf u 5) s t ∧
       tmcsBut u s t ∧
       (r.via = .fabric → pieceKept s t .ports ∧ pieceKept s t .cores) ∧
       t.reg (tmemReg u Off.TMEM_POI_WR_CNT) = (if ((List.range r.pkt.cnt).any r.pkt.wordPoi = true)
                                                then s.reg (tmemReg u Off.TMEM_POI_WR_CNT) + 1
                                                else s.reg (tmemReg u Off.TMEM_POI_WR_CNT)) ∧
       regsBut [tmemReg u Off.TMEM_POI_WR_CNT] s t ∧
       changesOnly [.cores, .tmcs, .nis, .ports, .regs, .mem] s t)) ∧
  (∀ (u : Fin 64) (r : TReq) (q : List TReq) (s : State),
     (s.tmc u).q = r :: q →
     noEntryNext q →
     r.pkt.isStcond = true →
     (r.pkt.src, ((tmemAddr u (offOf r.pkt)) / 16 * 16)) ∉ (s.tmc u).resv →
     r.via = .fabric →
     Completes (.tmemStcond u) s (fun t =>
       (t.tmc u) = { (s.tmc u) with
         q := q, fopDone := 0, fopOld := [], resv := (s.tmc u).resv.filter (fun x => decide (x.1 ≠ r.pkt.src)) } ∧
       (r.via = .fabric → (t.ni (niOf u 5)).stage = (s.ni (niOf u 5)).stage ++
         [{ ch := .own, tmem := true, pkt := mkResp r.pkt (nodeTP s u 5) St.FAIL [] 0 }]) ∧
       (∀ m, r.via = .mem m → t.nis = s.nis ∧ pieceKept (answerPort s m r.pkt.id St.FAIL []) t .ports ∧ pieceKept (answerPort s m r.pkt.id St.FAIL []) t .cores) ∧
       nisBut (niOf u 5) s t ∧
       tmcsBut u s t ∧
       (r.via = .fabric → pieceKept s t .ports ∧ pieceKept s t .cores) ∧
       t.reg (tmemReg u Off.TMEM_STC_FAIL_CNT) = s.reg (tmemReg u Off.TMEM_STC_FAIL_CNT) + 1 ∧
       regsBut [tmemReg u Off.TMEM_STC_FAIL_CNT] s t ∧
       changesOnly [.cores, .tmcs, .nis, .regs] s t)) ∧
  (∀ (u : Fin 64) (r : TReq) (q : List TReq) (s : State),
     (s.tmc u).q = r :: q →
     noEntryNext q →
     r.pkt.isStcond = true →
     r.via ≠ .fabric →
     Completes (.tmemStcond u) s (fun t =>
       (t.tmc u) = { (s.tmc u) with q := q, fopDone := 0, fopOld := [] } ∧
       (r.via = .fabric → (t.ni (niOf u 5)).stage = (s.ni (niOf u 5)).stage ++
         [{ ch := .own, tmem := true, pkt := mkResp r.pkt (nodeTP s u 5) St.FAIL [] 0 }]) ∧
       (∀ m, r.via = .mem m → t.nis = s.nis ∧ pieceKept (answerPort s m r.pkt.id St.FAIL []) t .ports ∧ pieceKept (answerPort s m r.pkt.id St.FAIL []) t .cores) ∧
       nisBut (niOf u 5) s t ∧
       tmcsBut u s t ∧
       (r.via = .fabric → pieceKept s t .ports ∧ pieceKept s t .cores) ∧
       t.reg (tmemReg u Off.TMEM_STC_FAIL_CNT) = s.reg (tmemReg u Off.TMEM_STC_FAIL_CNT) + 1 ∧
       regsBut [tmemReg u Off.TMEM_STC_FAIL_CNT] s t ∧
       changesOnly [.cores, .tmcs, .ports, .regs] s t)) ∧
  (∀ (u : Fin 64) (r : TReq) (e : TReq) (q : List TReq) (s : State),
     (s.tmc u).q = r :: e :: q →
     r.pkt.opc = Opc.WR →
     r.pkt.isStcond = false →
     e.via = .entry →
     noEntryNext q →
     Completes (.tmemWr u) s (fun t =>
       (t.tmc u).q = q ∧
       t.word (tmemAddr u (e.pkt.addr % 0x20000)) = wordAt e.pkt.words 0 ∧
       isPoison t (tmemAddr u (e.pkt.addr % 0x20000)) = false ∧
       wordsBut (tmemAddr u (e.pkt.addr % 0x20000) :: (List.range r.pkt.cnt).map (fun i => tmemAddr u (offOf r.pkt + i))) s t ∧
       nisBut (niOf u 5) s t ∧
       tmcsBut u s t ∧
       regsBut [tmemReg u Off.TMEM_POI_WR_CNT] s t ∧
       changesOnly [.tmcs, .nis, .ports, .regs, .mem] s t))

/-- A far operation of a batch takes the word at its place, stores the new value that its kind gives, is counted,
ends the reservations of others on the line and keeps the old value; after the last operation the batch is
answered with the old values, or without them under NORET. -/
def Obligations.FarOperationsOnWords : Prop :=
  (∀ (u : Fin 64) (r : TReq) (q : List TReq) (s : State),
     (s.tmc u).q = r :: q →
     noEntryNext q →
     r.pkt.opc = Opc.FOP →
     fopSub r.pkt.cnt = 0 →
     isPoison s (tmemAddr u (offOf r.pkt + (s.tmc u).fopDone)) = false →
     Completes (.add36 u .clean) s (fun t =>
       t.word (tmemAddr u (offOf r.pkt + (s.tmc u).fopDone)) = (s.word (tmemAddr u (offOf r.pkt
                                                                                    + (s.tmc u).fopDone)))
         + (wordAt r.pkt.words (s.tmc u).fopDone) ∧
       wordsBut [(tmemAddr u (offOf r.pkt + (s.tmc u).fopDone))] s t ∧
       t.poison = s.poison ∧
       (t.tmc u).resv = (s.tmc u).resv.filter (fun x => decide (x.1 = r.pkt.src) || decide (x.2 ≠ (tmemAddr u (offOf r.pkt
                                                                                                               + (s.tmc u).fopDone)) / 16 * 16)) ∧
       ((s.tmc u).fopDone + 1 < fopK r.pkt.cnt → (t.tmc u).q = r :: q ∧ (t.tmc u).fopDone = (s.tmc u).fopDone + 1
        ∧ (t.tmc u).fopOld = (s.tmc u).fopOld ++ [s.word (tmemAddr u (offOf r.pkt + (s.tmc u).fopDone))]
        ∧ t.nis = s.nis ∧ pieceKept s t .ports) ∧
       (fopK r.pkt.cnt ≤ (s.tmc u).fopDone + 1 → (t.tmc u).q = q ∧ (t.tmc u).fopDone = 0 ∧ (t.tmc u).fopOld = []) ∧
       (fopK r.pkt.cnt ≤ (s.tmc u).fopDone + 1 → r.via = .fabric
        → (t.ni (niOf u 5)).stage = (s.ni (niOf u 5)).stage ++
          [{ ch := .own, tmem := true, pkt := mkResp r.pkt (nodeTP s u 5) St.OK (if r.pkt.flag 0 then [] else (s.tmc u).fopOld
                                                                   ++ [s.word (tmemAddr u (offOf r.pkt
                                                                                           + (s.tmc u).fopDone))]) 0 }]) ∧
       (fopK r.pkt.cnt ≤ (s.tmc u).fopDone + 1 → ∀ m, r.via = .mem m → t.nis = s.nis
        ∧ pieceKept (answerPort s m r.pkt.id St.OK (if r.pkt.flag 0 then [] else (s.tmc u).fopOld
                                                    ++ [s.word (tmemAddr u (offOf r.pkt
                                                                            + (s.tmc u).fopDone))])) t .ports) ∧
       nisBut (niOf u 5) s t ∧
       tmcsBut u s t ∧
       (t.tmc u).mig = (s.tmc u).mig ∧
       (t.tmc u).migWait = (s.tmc u).migWait ∧
       (t.tmc u).leftOut = (s.tmc u).leftOut ∧
       t.reg (tmemReg u Off.TMEM_FOP_CNT) = s.reg (tmemReg u Off.TMEM_FOP_CNT) + 1 ∧
       regsBut [tmemReg u Off.TMEM_FOP_CNT] s t ∧
       changesOnly [.tmcs, .nis, .ports, .regs, .mem] s t)) ∧
  (∀ (u : Fin 64) (r : TReq) (q : List TReq) (s : State),
     (s.tmc u).q = r :: q →
     noEntryNext q →
     r.pkt.opc = Opc.FOP →
     fopSub r.pkt.cnt = 2 →
     isPoison s (tmemAddr u (offOf r.pkt + (s.tmc u).fopDone)) = false →
     Completes (.swap36 u .clean) s (fun t =>
       t.word (tmemAddr u (offOf r.pkt + (s.tmc u).fopDone)) = (wordAt r.pkt.words (s.tmc u).fopDone) ∧
       wordsBut [(tmemAddr u (offOf r.pkt + (s.tmc u).fopDone))] s t ∧
       t.poison = s.poison ∧
       (t.tmc u).resv = (s.tmc u).resv.filter (fun x => decide (x.1 = r.pkt.src) || decide (x.2 ≠ (tmemAddr u (offOf r.pkt
                                                                                                               + (s.tmc u).fopDone)) / 16 * 16)) ∧
       ((s.tmc u).fopDone + 1 < fopK r.pkt.cnt → (t.tmc u).q = r :: q ∧ (t.tmc u).fopDone = (s.tmc u).fopDone + 1
        ∧ (t.tmc u).fopOld = (s.tmc u).fopOld ++ [s.word (tmemAddr u (offOf r.pkt + (s.tmc u).fopDone))]
        ∧ t.nis = s.nis ∧ pieceKept s t .ports) ∧
       (fopK r.pkt.cnt ≤ (s.tmc u).fopDone + 1 → (t.tmc u).q = q ∧ (t.tmc u).fopDone = 0 ∧ (t.tmc u).fopOld = []) ∧
       (fopK r.pkt.cnt ≤ (s.tmc u).fopDone + 1 → r.via = .fabric
        → (t.ni (niOf u 5)).stage = (s.ni (niOf u 5)).stage ++
          [{ ch := .own, tmem := true, pkt := mkResp r.pkt (nodeTP s u 5) St.OK (if r.pkt.flag 0 then [] else (s.tmc u).fopOld
                                                                   ++ [s.word (tmemAddr u (offOf r.pkt
                                                                                           + (s.tmc u).fopDone))]) 0 }]) ∧
       (fopK r.pkt.cnt ≤ (s.tmc u).fopDone + 1 → ∀ m, r.via = .mem m → t.nis = s.nis
        ∧ pieceKept (answerPort s m r.pkt.id St.OK (if r.pkt.flag 0 then [] else (s.tmc u).fopOld
                                                    ++ [s.word (tmemAddr u (offOf r.pkt
                                                                            + (s.tmc u).fopDone))])) t .ports) ∧
       nisBut (niOf u 5) s t ∧
       tmcsBut u s t ∧
       (t.tmc u).mig = (s.tmc u).mig ∧
       (t.tmc u).migWait = (s.tmc u).migWait ∧
       (t.tmc u).leftOut = (s.tmc u).leftOut ∧
       t.reg (tmemReg u Off.TMEM_FOP_CNT) = s.reg (tmemReg u Off.TMEM_FOP_CNT) + 1 ∧
       regsBut [tmemReg u Off.TMEM_FOP_CNT] s t ∧
       changesOnly [.tmcs, .nis, .ports, .regs, .mem] s t)) ∧
  (∀ (u : Fin 64) (r : TReq) (q : List TReq) (s : State),
     (s.tmc u).q = r :: q →
     noEntryNext q →
     r.pkt.opc = Opc.FOP →
     fopSub r.pkt.cnt = 4 →
     isPoison s (tmemAddr u (offOf r.pkt + (s.tmc u).fopDone)) = false →
     Completes (.max36 u .clean) s (fun t =>
       t.word (tmemAddr u (offOf r.pkt + (s.tmc u).fopDone)) = (if (s.word (tmemAddr u (offOf r.pkt
                                                                                        + (s.tmc u).fopDone))).toNat < (wordAt r.pkt.words (s.tmc u).fopDone).toNat
                                                                then (wordAt r.pkt.words (s.tmc u).fopDone)
                                                                else (s.word (tmemAddr u (offOf r.pkt
                                                                                          + (s.tmc u).fopDone)))) ∧
       wordsBut [(tmemAddr u (offOf r.pkt + (s.tmc u).fopDone))] s t ∧
       t.poison = s.poison ∧
       (t.tmc u).resv = (s.tmc u).resv.filter (fun x => decide (x.1 = r.pkt.src) || decide (x.2 ≠ (tmemAddr u (offOf r.pkt
                                                                                                               + (s.tmc u).fopDone)) / 16 * 16)) ∧
       ((s.tmc u).fopDone + 1 < fopK r.pkt.cnt → (t.tmc u).q = r :: q ∧ (t.tmc u).fopDone = (s.tmc u).fopDone + 1
        ∧ (t.tmc u).fopOld = (s.tmc u).fopOld ++ [s.word (tmemAddr u (offOf r.pkt + (s.tmc u).fopDone))]
        ∧ t.nis = s.nis ∧ pieceKept s t .ports) ∧
       (fopK r.pkt.cnt ≤ (s.tmc u).fopDone + 1 → (t.tmc u).q = q ∧ (t.tmc u).fopDone = 0 ∧ (t.tmc u).fopOld = []) ∧
       (fopK r.pkt.cnt ≤ (s.tmc u).fopDone + 1 → r.via = .fabric
        → (t.ni (niOf u 5)).stage = (s.ni (niOf u 5)).stage ++
          [{ ch := .own, tmem := true, pkt := mkResp r.pkt (nodeTP s u 5) St.OK (if r.pkt.flag 0 then [] else (s.tmc u).fopOld
                                                                   ++ [s.word (tmemAddr u (offOf r.pkt
                                                                                           + (s.tmc u).fopDone))]) 0 }]) ∧
       (fopK r.pkt.cnt ≤ (s.tmc u).fopDone + 1 → ∀ m, r.via = .mem m → t.nis = s.nis
        ∧ pieceKept (answerPort s m r.pkt.id St.OK (if r.pkt.flag 0 then [] else (s.tmc u).fopOld
                                                    ++ [s.word (tmemAddr u (offOf r.pkt
                                                                            + (s.tmc u).fopDone))])) t .ports) ∧
       nisBut (niOf u 5) s t ∧
       tmcsBut u s t ∧
       (t.tmc u).mig = (s.tmc u).mig ∧
       (t.tmc u).migWait = (s.tmc u).migWait ∧
       (t.tmc u).leftOut = (s.tmc u).leftOut ∧
       t.reg (tmemReg u Off.TMEM_FOP_CNT) = s.reg (tmemReg u Off.TMEM_FOP_CNT) + 1 ∧
       regsBut [tmemReg u Off.TMEM_FOP_CNT] s t ∧
       changesOnly [.tmcs, .nis, .ports, .regs, .mem] s t)) ∧
  (∀ (u : Fin 64) (r : TReq) (q : List TReq) (s : State),
     (s.tmc u).q = r :: q →
     noEntryNext q →
     r.pkt.opc = Opc.FOP →
     fopSub r.pkt.cnt = 5 →
     isPoison s (tmemAddr u (offOf r.pkt + (s.tmc u).fopDone)) = false →
     Completes (.min36 u .clean) s (fun t =>
       t.word (tmemAddr u (offOf r.pkt
                           + (s.tmc u).fopDone)) = (if (wordAt r.pkt.words (s.tmc u).fopDone).toNat < (s.word (tmemAddr u (offOf r.pkt
                                                                                                                           + (s.tmc u).fopDone))).toNat
                                                    then (wordAt r.pkt.words (s.tmc u).fopDone)
                                                    else (s.word (tmemAddr u (offOf r.pkt + (s.tmc u).fopDone)))) ∧
       wordsBut [(tmemAddr u (offOf r.pkt + (s.tmc u).fopDone))] s t ∧
       t.poison = s.poison ∧
       (t.tmc u).resv = (s.tmc u).resv.filter (fun x => decide (x.1 = r.pkt.src) || decide (x.2 ≠ (tmemAddr u (offOf r.pkt
                                                                                                               + (s.tmc u).fopDone)) / 16 * 16)) ∧
       ((s.tmc u).fopDone + 1 < fopK r.pkt.cnt → (t.tmc u).q = r :: q ∧ (t.tmc u).fopDone = (s.tmc u).fopDone + 1
        ∧ (t.tmc u).fopOld = (s.tmc u).fopOld ++ [s.word (tmemAddr u (offOf r.pkt + (s.tmc u).fopDone))]
        ∧ t.nis = s.nis ∧ pieceKept s t .ports) ∧
       (fopK r.pkt.cnt ≤ (s.tmc u).fopDone + 1 → (t.tmc u).q = q ∧ (t.tmc u).fopDone = 0 ∧ (t.tmc u).fopOld = []) ∧
       (fopK r.pkt.cnt ≤ (s.tmc u).fopDone + 1 → r.via = .fabric
        → (t.ni (niOf u 5)).stage = (s.ni (niOf u 5)).stage ++
          [{ ch := .own, tmem := true, pkt := mkResp r.pkt (nodeTP s u 5) St.OK (if r.pkt.flag 0 then [] else (s.tmc u).fopOld
                                                                   ++ [s.word (tmemAddr u (offOf r.pkt
                                                                                           + (s.tmc u).fopDone))]) 0 }]) ∧
       (fopK r.pkt.cnt ≤ (s.tmc u).fopDone + 1 → ∀ m, r.via = .mem m → t.nis = s.nis
        ∧ pieceKept (answerPort s m r.pkt.id St.OK (if r.pkt.flag 0 then [] else (s.tmc u).fopOld
                                                    ++ [s.word (tmemAddr u (offOf r.pkt
                                                                            + (s.tmc u).fopDone))])) t .ports) ∧
       nisBut (niOf u 5) s t ∧
       tmcsBut u s t ∧
       (t.tmc u).mig = (s.tmc u).mig ∧
       (t.tmc u).migWait = (s.tmc u).migWait ∧
       (t.tmc u).leftOut = (s.tmc u).leftOut ∧
       t.reg (tmemReg u Off.TMEM_FOP_CNT) = s.reg (tmemReg u Off.TMEM_FOP_CNT) + 1 ∧
       regsBut [tmemReg u Off.TMEM_FOP_CNT] s t ∧
       changesOnly [.tmcs, .nis, .ports, .regs, .mem] s t)) ∧
  (∀ (u : Fin 64) (r : TReq) (q : List TReq) (s : State),
     (s.tmc u).q = r :: q →
     noEntryNext q →
     r.pkt.opc = Opc.FOP →
     fopSub r.pkt.cnt = 6 →
     isPoison s (tmemAddr u (offOf r.pkt + (s.tmc u).fopDone)) = false →
     Completes (.and36 u .clean) s (fun t =>
       t.word (tmemAddr u (offOf r.pkt + (s.tmc u).fopDone)) = (s.word (tmemAddr u (offOf r.pkt
                                                                                    + (s.tmc u).fopDone))) &&& (wordAt r.pkt.words (s.tmc u).fopDone) ∧
       wordsBut [(tmemAddr u (offOf r.pkt + (s.tmc u).fopDone))] s t ∧
       t.poison = s.poison ∧
       (t.tmc u).resv = (s.tmc u).resv.filter (fun x => decide (x.1 = r.pkt.src) || decide (x.2 ≠ (tmemAddr u (offOf r.pkt
                                                                                                               + (s.tmc u).fopDone)) / 16 * 16)) ∧
       ((s.tmc u).fopDone + 1 < fopK r.pkt.cnt → (t.tmc u).q = r :: q ∧ (t.tmc u).fopDone = (s.tmc u).fopDone + 1
        ∧ (t.tmc u).fopOld = (s.tmc u).fopOld ++ [s.word (tmemAddr u (offOf r.pkt + (s.tmc u).fopDone))]
        ∧ t.nis = s.nis ∧ pieceKept s t .ports) ∧
       (fopK r.pkt.cnt ≤ (s.tmc u).fopDone + 1 → (t.tmc u).q = q ∧ (t.tmc u).fopDone = 0 ∧ (t.tmc u).fopOld = []) ∧
       (fopK r.pkt.cnt ≤ (s.tmc u).fopDone + 1 → r.via = .fabric
        → (t.ni (niOf u 5)).stage = (s.ni (niOf u 5)).stage ++
          [{ ch := .own, tmem := true, pkt := mkResp r.pkt (nodeTP s u 5) St.OK (if r.pkt.flag 0 then [] else (s.tmc u).fopOld
                                                                   ++ [s.word (tmemAddr u (offOf r.pkt
                                                                                           + (s.tmc u).fopDone))]) 0 }]) ∧
       (fopK r.pkt.cnt ≤ (s.tmc u).fopDone + 1 → ∀ m, r.via = .mem m → t.nis = s.nis
        ∧ pieceKept (answerPort s m r.pkt.id St.OK (if r.pkt.flag 0 then [] else (s.tmc u).fopOld
                                                    ++ [s.word (tmemAddr u (offOf r.pkt
                                                                            + (s.tmc u).fopDone))])) t .ports) ∧
       nisBut (niOf u 5) s t ∧
       tmcsBut u s t ∧
       (t.tmc u).mig = (s.tmc u).mig ∧
       (t.tmc u).migWait = (s.tmc u).migWait ∧
       (t.tmc u).leftOut = (s.tmc u).leftOut ∧
       t.reg (tmemReg u Off.TMEM_FOP_CNT) = s.reg (tmemReg u Off.TMEM_FOP_CNT) + 1 ∧
       regsBut [tmemReg u Off.TMEM_FOP_CNT] s t ∧
       changesOnly [.tmcs, .nis, .ports, .regs, .mem] s t)) ∧
  (∀ (u : Fin 64) (r : TReq) (q : List TReq) (s : State),
     (s.tmc u).q = r :: q →
     noEntryNext q →
     r.pkt.opc = Opc.FOP →
     fopSub r.pkt.cnt = 7 →
     isPoison s (tmemAddr u (offOf r.pkt + (s.tmc u).fopDone)) = false →
     Completes (.or36 u .clean) s (fun t =>
       t.word (tmemAddr u (offOf r.pkt + (s.tmc u).fopDone)) = (s.word (tmemAddr u (offOf r.pkt
                                                                                    + (s.tmc u).fopDone)))
         ||| (wordAt r.pkt.words (s.tmc u).fopDone) ∧
       wordsBut [(tmemAddr u (offOf r.pkt + (s.tmc u).fopDone))] s t ∧
       t.poison = s.poison ∧
       (t.tmc u).resv = (s.tmc u).resv.filter (fun x => decide (x.1 = r.pkt.src) || decide (x.2 ≠ (tmemAddr u (offOf r.pkt
                                                                                                               + (s.tmc u).fopDone)) / 16 * 16)) ∧
       ((s.tmc u).fopDone + 1 < fopK r.pkt.cnt → (t.tmc u).q = r :: q ∧ (t.tmc u).fopDone = (s.tmc u).fopDone + 1
        ∧ (t.tmc u).fopOld = (s.tmc u).fopOld ++ [s.word (tmemAddr u (offOf r.pkt + (s.tmc u).fopDone))]
        ∧ t.nis = s.nis ∧ pieceKept s t .ports) ∧
       (fopK r.pkt.cnt ≤ (s.tmc u).fopDone + 1 → (t.tmc u).q = q ∧ (t.tmc u).fopDone = 0 ∧ (t.tmc u).fopOld = []) ∧
       (fopK r.pkt.cnt ≤ (s.tmc u).fopDone + 1 → r.via = .fabric
        → (t.ni (niOf u 5)).stage = (s.ni (niOf u 5)).stage ++
          [{ ch := .own, tmem := true, pkt := mkResp r.pkt (nodeTP s u 5) St.OK (if r.pkt.flag 0 then [] else (s.tmc u).fopOld
                                                                   ++ [s.word (tmemAddr u (offOf r.pkt
                                                                                           + (s.tmc u).fopDone))]) 0 }]) ∧
       (fopK r.pkt.cnt ≤ (s.tmc u).fopDone + 1 → ∀ m, r.via = .mem m → t.nis = s.nis
        ∧ pieceKept (answerPort s m r.pkt.id St.OK (if r.pkt.flag 0 then [] else (s.tmc u).fopOld
                                                    ++ [s.word (tmemAddr u (offOf r.pkt
                                                                            + (s.tmc u).fopDone))])) t .ports) ∧
       nisBut (niOf u 5) s t ∧
       tmcsBut u s t ∧
       (t.tmc u).mig = (s.tmc u).mig ∧
       (t.tmc u).migWait = (s.tmc u).migWait ∧
       (t.tmc u).leftOut = (s.tmc u).leftOut ∧
       t.reg (tmemReg u Off.TMEM_FOP_CNT) = s.reg (tmemReg u Off.TMEM_FOP_CNT) + 1 ∧
       regsBut [tmemReg u Off.TMEM_FOP_CNT] s t ∧
       changesOnly [.tmcs, .nis, .ports, .regs, .mem] s t)) ∧
  (∀ (u : Fin 64) (r : TReq) (q : List TReq) (s : State),
     (s.tmc u).q = r :: q →
     noEntryNext q →
     r.pkt.opc = Opc.FOP →
     fopSub r.pkt.cnt = 3 →
     isPoison s (tmemAddr u (offOf r.pkt + (s.tmc u).fopDone)) = false →
     Completes (.cas36 u .clean) s (fun t =>
       t.word (tmemAddr u (offOf r.pkt + (s.tmc u).fopDone)) = (if (s.word (tmemAddr u (offOf r.pkt
                                                                                        + (s.tmc u).fopDone))) = wordAt r.pkt.words (2 * (s.tmc u).fopDone)
                                                                then wordAt r.pkt.words (2 * (s.tmc u).fopDone
                                                                                         + 1)
                                                                else (s.word (tmemAddr u (offOf r.pkt
                                                                                          + (s.tmc u).fopDone)))) ∧
       wordsBut [(tmemAddr u (offOf r.pkt + (s.tmc u).fopDone))] s t ∧
       t.poison = s.poison ∧
       (t.tmc u).resv = (s.tmc u).resv.filter (fun x => decide (x.1 = r.pkt.src) || decide (x.2 ≠ (tmemAddr u (offOf r.pkt
                                                                                                               + (s.tmc u).fopDone)) / 16 * 16)) ∧
       ((s.tmc u).fopDone + 1 < fopK r.pkt.cnt → (t.tmc u).q = r :: q ∧ (t.tmc u).fopDone = (s.tmc u).fopDone + 1
        ∧ (t.tmc u).fopOld = (s.tmc u).fopOld ++ [s.word (tmemAddr u (offOf r.pkt + (s.tmc u).fopDone))]
        ∧ t.nis = s.nis ∧ pieceKept s t .ports) ∧
       (fopK r.pkt.cnt ≤ (s.tmc u).fopDone + 1 → (t.tmc u).q = q ∧ (t.tmc u).fopDone = 0 ∧ (t.tmc u).fopOld = []) ∧
       (fopK r.pkt.cnt ≤ (s.tmc u).fopDone + 1 → r.via = .fabric
        → (t.ni (niOf u 5)).stage = (s.ni (niOf u 5)).stage ++
          [{ ch := .own, tmem := true, pkt := mkResp r.pkt (nodeTP s u 5) St.OK (if r.pkt.flag 0 then [] else (s.tmc u).fopOld
                                                                   ++ [s.word (tmemAddr u (offOf r.pkt
                                                                                           + (s.tmc u).fopDone))]) 0 }]) ∧
       (fopK r.pkt.cnt ≤ (s.tmc u).fopDone + 1 → ∀ m, r.via = .mem m → t.nis = s.nis
        ∧ pieceKept (answerPort s m r.pkt.id St.OK (if r.pkt.flag 0 then [] else (s.tmc u).fopOld
                                                    ++ [s.word (tmemAddr u (offOf r.pkt
                                                                            + (s.tmc u).fopDone))])) t .ports) ∧
       nisBut (niOf u 5) s t ∧
       tmcsBut u s t ∧
       (t.tmc u).mig = (s.tmc u).mig ∧
       (t.tmc u).migWait = (s.tmc u).migWait ∧
       (t.tmc u).leftOut = (s.tmc u).leftOut ∧
       t.reg (tmemReg u Off.TMEM_FOP_CNT) = s.reg (tmemReg u Off.TMEM_FOP_CNT) + 1 ∧
       regsBut [tmemReg u Off.TMEM_FOP_CNT] s t ∧
       changesOnly [.tmcs, .nis, .ports, .regs, .mem] s t))

/-- ADD72 adds a double word, the carry crossing its words, and returns both old words. A far operation of any
kind that meets an uncorrectable word, poisoned before or first seen so, is not applied: the batch ends with
FOPRESP POISON, its applied operations with their old values and the others zero, and no word changes. Which word
of a pair a first error stands in is open (log entry 4). -/
def Obligations.FarOperationsOnPairsAndPoison : Prop :=
  (∀ (u : Fin 64) (r : TReq) (q : List TReq) (s : State),
     (s.tmc u).q = r :: q →
     noEntryNext q →
     r.pkt.opc = Opc.FOP →
     fopSub r.pkt.cnt = 1 →
     isPoison s (tmemAddr u (offOf r.pkt + 2 * (s.tmc u).fopDone)) = false →
     isPoison s ((tmemAddr u (offOf r.pkt + 2 * (s.tmc u).fopDone)) + 1) = false →
     Completes (.add72 u .clean) s (fun t =>
       ((t.word (tmemAddr u (offOf r.pkt + 2 * (s.tmc u).fopDone))).toNat + (t.word ((tmemAddr u (offOf r.pkt
                                                                                                  + 2 * (s.tmc u).fopDone))
                                                                                     + 1)).toNat * 2 ^ 36 = ((s.word (tmemAddr u (offOf r.pkt
                                                                                                                                  + 2 * (s.tmc u).fopDone))).toNat
                                                                                                             + (s.word ((tmemAddr u (offOf r.pkt
                                                                                                                                     + 2 * (s.tmc u).fopDone))
                                                                                                                        + 1)).toNat * 2 ^ 36
                                                                                                             + (wordAt r.pkt.words (2 * (s.tmc u).fopDone)).toNat
                                                                                                             + (wordAt r.pkt.words (2 * (s.tmc u).fopDone
                                                                                                                                    + 1)).toNat * 2 ^ 36) % 2 ^ 72) ∧
       wordsBut [(tmemAddr u (offOf r.pkt + 2 * (s.tmc u).fopDone)), (tmemAddr u (offOf r.pkt
                                                                                  + 2 * (s.tmc u).fopDone))
                 + 1] s t ∧
       t.poison = s.poison ∧
       (t.tmc u).resv = (s.tmc u).resv.filter (fun x => decide (x.1 = r.pkt.src) || (decide (x.2 ≠ (tmemAddr u (offOf r.pkt
                                                                                                                + 2 * (s.tmc u).fopDone)) / 16 * 16) && decide (x.2 ≠ ((tmemAddr u (offOf r.pkt
                                                                                                                                                                                    + 2 * (s.tmc u).fopDone))
                                                                                                                                                                       + 1) / 16 * 16))) ∧
       ((s.tmc u).fopDone + 1 < fopK r.pkt.cnt → (t.tmc u).q = r :: q ∧ (t.tmc u).fopDone = (s.tmc u).fopDone + 1
        ∧ (t.tmc u).fopOld = (s.tmc u).fopOld ++ [s.word (tmemAddr u (offOf r.pkt + 2 * (s.tmc u).fopDone)),
                                                  s.word ((tmemAddr u (offOf r.pkt + 2 * (s.tmc u).fopDone)) + 1)]
        ∧ t.nis = s.nis ∧ pieceKept s t .ports) ∧
       (fopK r.pkt.cnt ≤ (s.tmc u).fopDone + 1 → (t.tmc u).q = q ∧ (t.tmc u).fopDone = 0 ∧ (t.tmc u).fopOld = []) ∧
       (fopK r.pkt.cnt ≤ (s.tmc u).fopDone + 1 → r.via = .fabric
        → (t.ni (niOf u 5)).stage = (s.ni (niOf u 5)).stage ++
          [{ ch := .own, tmem := true, pkt := mkResp r.pkt (nodeTP s u 5) St.OK (if r.pkt.flag 0 then [] else (s.tmc u).fopOld
                                                                   ++ [s.word (tmemAddr u (offOf r.pkt
                                                                                           + 2 * (s.tmc u).fopDone)),
                                                                       s.word ((tmemAddr u (offOf r.pkt
                                                                                            + 2 * (s.tmc u).fopDone))
                                                                               + 1)]) 0 }]) ∧
       (fopK r.pkt.cnt ≤ (s.tmc u).fopDone + 1 → ∀ m, r.via = .mem m → t.nis = s.nis
        ∧ pieceKept (answerPort s m r.pkt.id St.OK (if r.pkt.flag 0 then [] else (s.tmc u).fopOld
                                                    ++ [s.word (tmemAddr u (offOf r.pkt + 2 * (s.tmc u).fopDone)),
                                                        s.word ((tmemAddr u (offOf r.pkt + 2 * (s.tmc u).fopDone))
                                                                + 1)])) t .ports) ∧
       nisBut (niOf u 5) s t ∧
       tmcsBut u s t ∧
       t.reg (tmemReg u Off.TMEM_FOP_CNT) = s.reg (tmemReg u Off.TMEM_FOP_CNT) + 1 ∧
       regsBut [tmemReg u Off.TMEM_FOP_CNT] s t ∧
       changesOnly [.tmcs, .nis, .ports, .regs, .mem] s t)) ∧
  (∀ (u : Fin 64) (sub : Nat) (e : MemErr) (r : TReq) (q : List TReq) (a : Nat) (s : State) (c : Instr),
     c = .add36 u e ∧ sub = 0 ∨ c = .swap36 u e ∧ sub = 2 ∨ c = .cas36 u e ∧ sub = 3 ∨ c = .max36 u e ∧ sub = 4 ∨
       c = .min36 u e ∧ sub = 5 ∨ c = .and36 u e ∧ sub = 6 ∨ c = .or36 u e ∧ sub = 7 →
     (s.tmc u).q = r :: q →
     noEntryNext q →
     r.pkt.opc = Opc.FOP →
     fopSub r.pkt.cnt = sub →
     a = tmemAddr u (offOf r.pkt + (s.tmc u).fopDone) →
     (isPoison s a = true ∨ e = .ue) →
     Completes c s (fun t =>
       (t.tmc u) = { (s.tmc u) with q := q, fopDone := 0, fopOld := [], rowDue := (t.tmc u).rowDue } ∧
       (bankOf (offOf r.pkt + (s.tmc u).fopDone), rowOfWord (offOf r.pkt + (s.tmc u).fopDone)) ∈ (t.tmc u).rowDue ∧
       (∀ x ∈ (s.tmc u).rowDue, x ∈ (t.tmc u).rowDue) ∧
       wordsBut [] s t ∧
       (∀ b, isPoison t b = (isPoison s b || decide (b = a))) ∧
       (r.via = .fabric → (t.ni (niOf u 5)).stage = (s.ni (niOf u 5)).stage ++
         [{ ch := .own, tmem := true, pkt := mkResp r.pkt (nodeTP s u 5) St.POISON
             (if r.pkt.flag 0 then [] else (s.tmc u).fopOld ++
               List.replicate (fopK r.pkt.cnt - (s.tmc u).fopOld.length) 0)
             (if r.pkt.flag 0 then 0 else poiMask ((List.range (fopK r.pkt.cnt)).map (fun j =>
               if j < (s.tmc u).fopOld.length then some 0 else none))) }]) ∧
       (∀ m, r.via = .mem m → t.nis = s.nis ∧
         pieceKept (answerPort s m r.pkt.id St.POISON (if r.pkt.flag 0 then [] else (s.tmc u).fopOld ++
           List.replicate (fopK r.pkt.cnt - (s.tmc u).fopOld.length) 0)) t .ports) ∧
       nisBut (niOf u 5) s t ∧
       tmcsBut u s t ∧
       (r.via = .fabric → pieceKept s t .ports) ∧
       t.reg (tmemReg u Off.TMEM_UE_CNT) = (s.reg (tmemReg u Off.TMEM_UE_CNT)).satInc ∧
       t.reg (tmemReg u Off.TMEM_UE_ADDR) = natW a ∧
       (eventPasses s (.tmem u) → t.evq.take (s.evq.length + 1) = s.evq ++ [mkEv (ftTile s u) (nodeTP s u 5) EvC.TMEM_UE []]) ∧
       regsBut [tmemReg u Off.TMEM_UE_CNT, tmemReg u Off.TMEM_UE_ADDR, tmemReg u Off.TMEM_ROW_TRK,
                taReg u Off.CDC_TA_STAT, taReg u Off.CDC_TA_LOST] s t ∧
       changesOnly [.tmcs, .nis, .ports, .regs, .log, .mem] s t)) ∧
  (∀ (u : Fin 64) (e : MemErr) (r : TReq) (q : List TReq) (a j : Nat) (vs : List (Option W)) (s : State),
     (s.tmc u).q = r :: q →
     noEntryNext q →
     r.pkt.opc = Opc.FOP →
     fopSub r.pkt.cnt = 1 →
     a = tmemAddr u (offOf r.pkt + 2 * (s.tmc u).fopDone) →
     j = (if e = .clean then 0 else (Config.freeWord s.freeN).toNat % 2) →
     vs = [0, 1].map (fun i => if isPoison s (a + i) = true ∨ e = .ue ∧ i = j then none else some (s.word (a + i))) →
     none ∈ vs →
     Completes (.add72 u e) s (fun t =>
       (t.tmc u) = { (s.tmc u) with q := q, fopDone := 0, fopOld := [], rowDue := (t.tmc u).rowDue } ∧
       (∀ i < 2, vs.getD i none = none → (bankOf (offOf r.pkt + 2 * (s.tmc u).fopDone + i),
         rowOfWord (offOf r.pkt + 2 * (s.tmc u).fopDone + i)) ∈ (t.tmc u).rowDue) ∧
       (∀ x ∈ (s.tmc u).rowDue, x ∈ (t.tmc u).rowDue) ∧
       wordsBut [] s t ∧
       (∀ b, isPoison t b = (isPoison s b || decide (e = .ue ∧ b = a + j))) ∧
       (r.via = .fabric → (t.ni (niOf u 5)).stage = (s.ni (niOf u 5)).stage ++
         [{ ch := .own, tmem := true, pkt := mkResp r.pkt (nodeTP s u 5) St.POISON
             (if r.pkt.flag 0 then [] else (s.tmc u).fopOld ++
               List.replicate (2 * fopK r.pkt.cnt - (s.tmc u).fopOld.length) 0)
             (if r.pkt.flag 0 then 0 else poiMask ((List.range (2 * fopK r.pkt.cnt)).map (fun j =>
               if j < (s.tmc u).fopOld.length then some 0 else none))) }]) ∧
       (∀ m, r.via = .mem m → t.nis = s.nis ∧
         pieceKept (answerPort s m r.pkt.id St.POISON (if r.pkt.flag 0 then [] else (s.tmc u).fopOld ++
           List.replicate (2 * fopK r.pkt.cnt - (s.tmc u).fopOld.length) 0)) t .ports) ∧
       nisBut (niOf u 5) s t ∧
       tmcsBut u s t ∧
       (r.via = .fabric → pieceKept s t .ports) ∧
       t.freeN = s.freeN + (if e = .clean then 0 else 1) ∧ t.nextId = s.nextId ∧
       t.reg (tmemReg u Off.TMEM_UE_CNT) =
         BitVec.ofNat 36 (min ((s.reg (tmemReg u Off.TMEM_UE_CNT)).toNat + vs.count none) (2 ^ 36 - 1)) ∧
       (crossHeld s (.tmem u) < 14 → s.evq.length < 15 →
         mkEv (ftTile s u) (nodeTP s u 5) EvC.TMEM_UE [] ∈ t.evq.drop s.evq.length) ∧
       regsBut [tmemReg u Off.TMEM_UE_CNT, tmemReg u Off.TMEM_UE_ADDR, tmemReg u Off.TMEM_CE_CNT,
                tmemReg u Off.TMEM_ROW_TRK, taReg u Off.CDC_TA_STAT, taReg u Off.CDC_TA_LOST] s t ∧
       changesOnly [.tmcs, .nis, .ports, .regs, .log, .mem, .ids] s t))

/-- LKACQ takes a lock that is not held, restarts the lease of its owner's live lock, is answered BUSY by another
owner's live lock, which stays, and takes a held lock that is not live with TORN, which is counted and recorded.
Each answer carries both words; no other word changes. -/
def Obligations.LocksAcquired : Prop :=
  (∀ (u : Fin 64) (r : TReq) (q : List TReq) (s : State),
     (s.tmc u).q = r :: q →
     noEntryNext q →
     r.pkt.opc = Opc.LKACQ →
     isPoison s (tmemAddr u (offOf r.pkt)) = false →
     isPoison s ((tmemAddr u (offOf r.pkt)) + 1) = false →
     lkHeld (s.word (tmemAddr u (offOf r.pkt))) = false →
     Completes (.tmemLkacq u .clean) s (fun t =>
       t.word (tmemAddr u (offOf r.pkt)) = (lkWord r.pkt.src ((wordAt r.pkt.words 0).fld 16 8) true false) ∧
       t.word ((tmemAddr u (offOf r.pkt)) + 1) = (leaseWord (usecTile s u) ((wordAt r.pkt.words 0).fld 0 16)) ∧
       wordsBut [(tmemAddr u (offOf r.pkt)), (tmemAddr u (offOf r.pkt)) + 1] s t ∧
       t.poison = s.poison ∧
       ((t.tmc u).q, (t.tmc u).fopDone, (t.tmc u).fopOld, (t.tmc u).mig, (t.tmc u).migWait,
        (t.tmc u).leftOut) = (q, 0, [], (s.tmc u).mig, (s.tmc u).migWait, (s.tmc u).leftOut) ∧
       (t.tmc u).resv = (s.tmc u).resv.filter (fun x => decide (x.1 = r.pkt.src) || (decide (x.2 ≠ (tmemAddr u (offOf r.pkt)) / 16 * 16) && decide (x.2 ≠ ((tmemAddr u (offOf r.pkt))
                                                                                                                                                           + 1) / 16 * 16))) ∧
       (r.via = .fabric → (t.ni (niOf u 5)).stage = (s.ni (niOf u 5)).stage ++
         [{ ch := .own, tmem := true,
            pkt := mkResp r.pkt (nodeTP s u 5) St.OK [(lkWord r.pkt.src ((wordAt r.pkt.words 0).fld 16 8) true false),
                                                      (leaseWord (usecTile s u) ((wordAt r.pkt.words 0).fld 0 16))] 0 }]) ∧
       (∀ m, r.via = .mem m → t.nis = s.nis
        ∧ pieceKept (answerPort s m r.pkt.id St.OK [(lkWord r.pkt.src ((wordAt r.pkt.words 0).fld 16 8) true false),
                                                    (leaseWord (usecTile s u) ((wordAt r.pkt.words 0).fld 0 16))]) t .ports) ∧
       nisBut (niOf u 5) s t ∧
       tmcsBut u s t ∧
       (r.via = .fabric → pieceKept s t .ports) ∧
       t.reg (epochReg u r.pkt.src) = (takeEpoch s u r.pkt.src ((wordAt r.pkt.words 0).fld 16 8)).reg (epochReg u r.pkt.src) ∧
       regsBut [epochReg u r.pkt.src] s t ∧
       changesOnly [.tmcs, .nis, .ports, .regs, .mem] s t)) ∧
  (∀ (u : Fin 64) (r : TReq) (q : List TReq) (s : State),
     (s.tmc u).q = r :: q →
     noEntryNext q →
     r.pkt.opc = Opc.LKACQ →
     isPoison s (tmemAddr u (offOf r.pkt)) = false →
     isPoison s ((tmemAddr u (offOf r.pkt)) + 1) = false →
     (ownLive (takeEpoch s u r.pkt.src ((wordAt r.pkt.words 0).fld 16 8)) u r.pkt (s.word (tmemAddr u (offOf r.pkt))) (s.word ((tmemAddr u (offOf r.pkt))
                                                                                                                               + 1))) = true →
     Completes (.tmemLkacq u .clean) s (fun t =>
       t.word (tmemAddr u (offOf r.pkt)) = (s.word (tmemAddr u (offOf r.pkt))) ∧
       t.word ((tmemAddr u (offOf r.pkt)) + 1) = (leaseWord (usecTile s u) ((wordAt r.pkt.words 0).fld 0 16)) ∧
       wordsBut [(tmemAddr u (offOf r.pkt)), (tmemAddr u (offOf r.pkt)) + 1] s t ∧
       t.poison = s.poison ∧
       ((t.tmc u).q, (t.tmc u).fopDone, (t.tmc u).fopOld, (t.tmc u).mig, (t.tmc u).migWait,
        (t.tmc u).leftOut) = (q, 0, [], (s.tmc u).mig, (s.tmc u).migWait, (s.tmc u).leftOut) ∧
       (t.tmc u).resv = (s.tmc u).resv.filter (fun x => decide (x.1 = r.pkt.src) || (decide (x.2 ≠ (tmemAddr u (offOf r.pkt)) / 16 * 16) && decide (x.2 ≠ ((tmemAddr u (offOf r.pkt))
                                                                                                                                                           + 1) / 16 * 16))) ∧
       (r.via = .fabric → (t.ni (niOf u 5)).stage = (s.ni (niOf u 5)).stage ++
         [{ ch := .own, tmem := true, pkt := mkResp r.pkt (nodeTP s u 5) St.OK [(s.word (tmemAddr u (offOf r.pkt))),
                                                                  (leaseWord (usecTile s u) ((wordAt r.pkt.words 0).fld 0 16))] 0 }]) ∧
       (∀ m, r.via = .mem m → t.nis = s.nis
        ∧ pieceKept (answerPort s m r.pkt.id St.OK [(s.word (tmemAddr u (offOf r.pkt))),
                                                    (leaseWord (usecTile s u) ((wordAt r.pkt.words 0).fld 0 16))]) t .ports) ∧
       nisBut (niOf u 5) s t ∧
       tmcsBut u s t ∧
       (r.via = .fabric → pieceKept s t .ports) ∧
       t.reg (epochReg u r.pkt.src) = (takeEpoch s u r.pkt.src ((wordAt r.pkt.words 0).fld 16 8)).reg (epochReg u r.pkt.src) ∧
       regsBut [epochReg u r.pkt.src] s t ∧
       changesOnly [.tmcs, .nis, .ports, .regs, .mem] s t)) ∧
  (∀ (u : Fin 64) (r : TReq) (q : List TReq) (s : State),
     (s.tmc u).q = r :: q →
     noEntryNext q →
     r.pkt.opc = Opc.LKACQ →
     isPoison s (tmemAddr u (offOf r.pkt)) = false →
     isPoison s ((tmemAddr u (offOf r.pkt)) + 1) = false →
     (lockLive (takeEpoch s u r.pkt.src ((wordAt r.pkt.words 0).fld 16 8)) u (s.word (tmemAddr u (offOf r.pkt))) (s.word ((tmemAddr u (offOf r.pkt))
                                                                                                                          + 1))) = true →
     (ownLive (takeEpoch s u r.pkt.src ((wordAt r.pkt.words 0).fld 16 8)) u r.pkt (s.word (tmemAddr u (offOf r.pkt))) (s.word ((tmemAddr u (offOf r.pkt))
                                                                                                                               + 1))) = false →
     Completes (.tmemLkacq u .clean) s (fun t =>
       t.word (tmemAddr u (offOf r.pkt)) = (s.word (tmemAddr u (offOf r.pkt))) ∧
       t.word ((tmemAddr u (offOf r.pkt)) + 1) = (s.word ((tmemAddr u (offOf r.pkt)) + 1)) ∧
       wordsBut [(tmemAddr u (offOf r.pkt)), (tmemAddr u (offOf r.pkt)) + 1] s t ∧
       t.poison = s.poison ∧
       ((t.tmc u).q, (t.tmc u).fopDone, (t.tmc u).fopOld, (t.tmc u).mig, (t.tmc u).migWait,
        (t.tmc u).leftOut) = (q, 0, [], (s.tmc u).mig, (s.tmc u).migWait, (s.tmc u).leftOut) ∧
       (t.tmc u).resv = (s.tmc u).resv.filter (fun x => decide (x.1 = r.pkt.src) || decide (x.2 ≠ (tmemAddr u (offOf r.pkt)) / 16 * 16)) ∧
       (r.via = .fabric → (t.ni (niOf u 5)).stage = (s.ni (niOf u 5)).stage ++
         [{ ch := .own, tmem := true, pkt := mkResp r.pkt (nodeTP s u 5) St.BUSY [(s.word (tmemAddr u (offOf r.pkt))),
                                                                    (s.word ((tmemAddr u (offOf r.pkt))
                                                                             + 1))] 0 }]) ∧
       (∀ m, r.via = .mem m → t.nis = s.nis
        ∧ pieceKept (answerPort s m r.pkt.id St.BUSY [(s.word (tmemAddr u (offOf r.pkt))),
                                                      (s.word ((tmemAddr u (offOf r.pkt)) + 1))]) t .ports) ∧
       nisBut (niOf u 5) s t ∧
       tmcsBut u s t ∧
       (r.via = .fabric → pieceKept s t .ports) ∧
       t.reg (epochReg u r.pkt.src) = (takeEpoch s u r.pkt.src ((wordAt r.pkt.words 0).fld 16 8)).reg (epochReg u r.pkt.src) ∧
       regsBut [epochReg u r.pkt.src] s t ∧
       changesOnly [.tmcs, .nis, .ports, .regs, .mem] s t)) ∧
  (∀ (u : Fin 64) (r : TReq) (q : List TReq) (s : State),
     (s.tmc u).q = r :: q →
     noEntryNext q →
     r.pkt.opc = Opc.LKACQ →
     isPoison s (tmemAddr u (offOf r.pkt)) = false →
     isPoison s ((tmemAddr u (offOf r.pkt)) + 1) = false →
     lkHeld (s.word (tmemAddr u (offOf r.pkt))) = true →
     (lockLive (takeEpoch s u r.pkt.src ((wordAt r.pkt.words 0).fld 16 8)) u (s.word (tmemAddr u (offOf r.pkt))) (s.word ((tmemAddr u (offOf r.pkt))
                                                                                                                          + 1))) = false →
     Completes (.tmemLkacq u .clean) s (fun t =>
       t.word (tmemAddr u (offOf r.pkt)) = (lkWord r.pkt.src ((wordAt r.pkt.words 0).fld 16 8) true true) ∧
       t.word ((tmemAddr u (offOf r.pkt)) + 1) = (leaseWord (usecTile s u) ((wordAt r.pkt.words 0).fld 0 16)) ∧
       wordsBut [(tmemAddr u (offOf r.pkt)), (tmemAddr u (offOf r.pkt)) + 1] s t ∧
       t.poison = s.poison ∧
       ((t.tmc u).q, (t.tmc u).fopDone, (t.tmc u).fopOld, (t.tmc u).mig, (t.tmc u).migWait,
        (t.tmc u).leftOut) = (q, 0, [], (s.tmc u).mig, (s.tmc u).migWait, (s.tmc u).leftOut) ∧
       (t.tmc u).resv = (s.tmc u).resv.filter (fun x => decide (x.1 = r.pkt.src) || (decide (x.2 ≠ (tmemAddr u (offOf r.pkt)) / 16 * 16) && decide (x.2 ≠ ((tmemAddr u (offOf r.pkt))
                                                                                                                                                           + 1) / 16 * 16))) ∧
       (r.via = .fabric → (t.ni (niOf u 5)).stage = (s.ni (niOf u 5)).stage ++
         [{ ch := .own, tmem := true,
            pkt := mkResp r.pkt (nodeTP s u 5) St.TORN [(lkWord r.pkt.src ((wordAt r.pkt.words 0).fld 16 8) true true),
                                                        (leaseWord (usecTile s u) ((wordAt r.pkt.words 0).fld 0 16))] 0 }]) ∧
       (∀ m, r.via = .mem m → t.nis = s.nis
        ∧ pieceKept (answerPort s m r.pkt.id St.TORN [(lkWord r.pkt.src ((wordAt r.pkt.words 0).fld 16 8) true true),
                                                      (leaseWord (usecTile s u) ((wordAt r.pkt.words 0).fld 0 16))]) t .ports) ∧
       nisBut (niOf u 5) s t ∧
       tmcsBut u s t ∧
       (r.via = .fabric → pieceKept s t .ports) ∧
       t.reg (epochReg u r.pkt.src) = (takeEpoch s u r.pkt.src ((wordAt r.pkt.words 0).fld 16 8)).reg (epochReg u r.pkt.src) ∧
       t.reg (tmemReg u Off.TMEM_LOCK_TORN_CNT) = (s.reg (tmemReg u Off.TMEM_LOCK_TORN_CNT)).satInc ∧
       t.reg (tmemReg u Off.TMEM_LOCK_INFO) = (W.at 0 8 (offOf r.pkt / 2)
                                               ||| W.at 8 23 (lkOwner (s.word (tmemAddr u (offOf r.pkt))))
                                               ||| W.at 31 1 (if lkEpoch (s.word (tmemAddr u (offOf r.pkt))) = epochOf (takeEpoch s u r.pkt.src ((wordAt r.pkt.words 0).fld 16 8)) u (lkOwner (s.word (tmemAddr u (offOf r.pkt))))
                                                              then 0 else 1)) ∧
       regsBut [epochReg u r.pkt.src, tmemReg u Off.TMEM_LOCK_TORN_CNT, tmemReg u Off.TMEM_LOCK_INFO] s t ∧
       changesOnly [.tmcs, .nis, .ports, .regs, .mem] s t))

/-- The owner of a live lock restarts its lease, or releases it, with OWNER, EPOCH and the lease word kept; anyone
else is answered NOTOWN and the lock stays. A lock whose lock word or lease word is uncorrectable, poisoned before
or first seen so, is answered POISON with zero words by LKACQ, LKRNW and LKREL, and stays as it is; which of its
two words a first error stands in is open (log entry 4). A newer epoch of an agent enters the table of a tile. -/
def Obligations.LocksRenewedAndReleased : Prop :=
  (∀ (u : Fin 64) (r : TReq) (q : List TReq) (s : State),
     (s.tmc u).q = r :: q →
     noEntryNext q →
     r.pkt.opc = Opc.LKRNW →
     isPoison s (tmemAddr u (offOf r.pkt)) = false →
     isPoison s ((tmemAddr u (offOf r.pkt)) + 1) = false →
     (ownLive (takeEpoch s u r.pkt.src ((wordAt r.pkt.words 0).fld 16 8)) u r.pkt (s.word (tmemAddr u (offOf r.pkt))) (s.word ((tmemAddr u (offOf r.pkt))
                                                                                                                               + 1))) = true →
     Completes (.tmemLkrnw u .clean) s (fun t =>
       t.word (tmemAddr u (offOf r.pkt)) = (s.word (tmemAddr u (offOf r.pkt))) ∧
       t.word ((tmemAddr u (offOf r.pkt)) + 1) = (leaseWord (usecTile s u) ((wordAt r.pkt.words 0).fld 0 16)) ∧
       wordsBut [(tmemAddr u (offOf r.pkt)), (tmemAddr u (offOf r.pkt)) + 1] s t ∧
       t.poison = s.poison ∧
       ((t.tmc u).q, (t.tmc u).fopDone, (t.tmc u).fopOld, (t.tmc u).mig, (t.tmc u).migWait,
        (t.tmc u).leftOut) = (q, 0, [], (s.tmc u).mig, (s.tmc u).migWait, (s.tmc u).leftOut) ∧
       (t.tmc u).resv = (s.tmc u).resv.filter (fun x => decide (x.1 = r.pkt.src) || (decide (x.2 ≠ (tmemAddr u (offOf r.pkt)) / 16 * 16) && decide (x.2 ≠ ((tmemAddr u (offOf r.pkt))
                                                                                                                                                           + 1) / 16 * 16))) ∧
       (r.via = .fabric → (t.ni (niOf u 5)).stage = (s.ni (niOf u 5)).stage ++
         [{ ch := .own, tmem := true, pkt := mkResp r.pkt (nodeTP s u 5) St.OK [(s.word (tmemAddr u (offOf r.pkt))),
                                                                  (leaseWord (usecTile s u) ((wordAt r.pkt.words 0).fld 0 16))] 0 }]) ∧
       (∀ m, r.via = .mem m → t.nis = s.nis
        ∧ pieceKept (answerPort s m r.pkt.id St.OK [(s.word (tmemAddr u (offOf r.pkt))),
                                                    (leaseWord (usecTile s u) ((wordAt r.pkt.words 0).fld 0 16))]) t .ports) ∧
       nisBut (niOf u 5) s t ∧
       tmcsBut u s t ∧
       (r.via = .fabric → pieceKept s t .ports) ∧
       t.reg (epochReg u r.pkt.src) = (takeEpoch s u r.pkt.src ((wordAt r.pkt.words 0).fld 16 8)).reg (epochReg u r.pkt.src) ∧
       regsBut [epochReg u r.pkt.src] s t ∧
       changesOnly [.tmcs, .nis, .ports, .regs, .mem] s t)) ∧
  (∀ (u : Fin 64) (r : TReq) (q : List TReq) (s : State),
     (s.tmc u).q = r :: q →
     noEntryNext q →
     r.pkt.opc = Opc.LKRNW →
     isPoison s (tmemAddr u (offOf r.pkt)) = false →
     isPoison s ((tmemAddr u (offOf r.pkt)) + 1) = false →
     (ownLive (takeEpoch s u r.pkt.src ((wordAt r.pkt.words 0).fld 16 8)) u r.pkt (s.word (tmemAddr u (offOf r.pkt))) (s.word ((tmemAddr u (offOf r.pkt))
                                                                                                                               + 1))) = false →
     Completes (.tmemLkrnw u .clean) s (fun t =>
       t.word (tmemAddr u (offOf r.pkt)) = (s.word (tmemAddr u (offOf r.pkt))) ∧
       t.word ((tmemAddr u (offOf r.pkt)) + 1) = (s.word ((tmemAddr u (offOf r.pkt)) + 1)) ∧
       wordsBut [(tmemAddr u (offOf r.pkt)), (tmemAddr u (offOf r.pkt)) + 1] s t ∧
       t.poison = s.poison ∧
       ((t.tmc u).q, (t.tmc u).fopDone, (t.tmc u).fopOld, (t.tmc u).mig, (t.tmc u).migWait,
        (t.tmc u).leftOut) = (q, 0, [], (s.tmc u).mig, (s.tmc u).migWait, (s.tmc u).leftOut) ∧
       (t.tmc u).resv = (s.tmc u).resv.filter (fun x => decide (x.1 = r.pkt.src) || decide (x.2 ≠ (tmemAddr u (offOf r.pkt)) / 16 * 16)) ∧
       (r.via = .fabric → (t.ni (niOf u 5)).stage = (s.ni (niOf u 5)).stage ++
         [{ ch := .own, tmem := true, pkt := mkResp r.pkt (nodeTP s u 5) St.NOTOWN [(s.word (tmemAddr u (offOf r.pkt))),
                                                                      (s.word ((tmemAddr u (offOf r.pkt))
                                                                               + 1))] 0 }]) ∧
       (∀ m, r.via = .mem m → t.nis = s.nis
        ∧ pieceKept (answerPort s m r.pkt.id St.NOTOWN [(s.word (tmemAddr u (offOf r.pkt))),
                                                        (s.word ((tmemAddr u (offOf r.pkt)) + 1))]) t .ports) ∧
       nisBut (niOf u 5) s t ∧
       tmcsBut u s t ∧
       (r.via = .fabric → pieceKept s t .ports) ∧
       t.reg (epochReg u r.pkt.src) = (takeEpoch s u r.pkt.src ((wordAt r.pkt.words 0).fld 16 8)).reg (epochReg u r.pkt.src) ∧
       regsBut [epochReg u r.pkt.src] s t ∧
       changesOnly [.tmcs, .nis, .ports, .regs, .mem] s t)) ∧
  (∀ (u : Fin 64) (r : TReq) (q : List TReq) (s : State),
     (s.tmc u).q = r :: q →
     noEntryNext q →
     r.pkt.opc = Opc.LKREL →
     isPoison s (tmemAddr u (offOf r.pkt)) = false →
     isPoison s ((tmemAddr u (offOf r.pkt)) + 1) = false →
     (ownLive (takeEpoch s u r.pkt.src ((wordAt r.pkt.words 0).fld 16 8)) u r.pkt (s.word (tmemAddr u (offOf r.pkt))) (s.word ((tmemAddr u (offOf r.pkt))
                                                                                                                               + 1))) = true →
     Completes (.tmemLkrel u .clean) s (fun t =>
       t.word (tmemAddr u (offOf r.pkt)) = (lkWord (lkOwner (s.word (tmemAddr u (offOf r.pkt)))) (lkEpoch (s.word (tmemAddr u (offOf r.pkt)))) false false) ∧
       t.word ((tmemAddr u (offOf r.pkt)) + 1) = (s.word ((tmemAddr u (offOf r.pkt)) + 1)) ∧
       wordsBut [(tmemAddr u (offOf r.pkt)), (tmemAddr u (offOf r.pkt)) + 1] s t ∧
       t.poison = s.poison ∧
       ((t.tmc u).q, (t.tmc u).fopDone, (t.tmc u).fopOld, (t.tmc u).mig, (t.tmc u).migWait,
        (t.tmc u).leftOut) = (q, 0, [], (s.tmc u).mig, (s.tmc u).migWait, (s.tmc u).leftOut) ∧
       (t.tmc u).resv = (s.tmc u).resv.filter (fun x => decide (x.1 = r.pkt.src) || (decide (x.2 ≠ (tmemAddr u (offOf r.pkt)) / 16 * 16) && decide (x.2 ≠ ((tmemAddr u (offOf r.pkt))
                                                                                                                                                           + 1) / 16 * 16))) ∧
       (r.via = .fabric → (t.ni (niOf u 5)).stage = (s.ni (niOf u 5)).stage ++
         [{ ch := .own, tmem := true,
            pkt := mkResp r.pkt (nodeTP s u 5) St.OK [(lkWord (lkOwner (s.word (tmemAddr u (offOf r.pkt)))) (lkEpoch (s.word (tmemAddr u (offOf r.pkt)))) false false),
                                                      (s.word ((tmemAddr u (offOf r.pkt)) + 1))] 0 }]) ∧
       (∀ m, r.via = .mem m → t.nis = s.nis
        ∧ pieceKept (answerPort s m r.pkt.id St.OK [(lkWord (lkOwner (s.word (tmemAddr u (offOf r.pkt)))) (lkEpoch (s.word (tmemAddr u (offOf r.pkt)))) false false),
                                                    (s.word ((tmemAddr u (offOf r.pkt)) + 1))]) t .ports) ∧
       nisBut (niOf u 5) s t ∧
       tmcsBut u s t ∧
       (r.via = .fabric → pieceKept s t .ports) ∧
       t.reg (epochReg u r.pkt.src) = (takeEpoch s u r.pkt.src ((wordAt r.pkt.words 0).fld 16 8)).reg (epochReg u r.pkt.src) ∧
       regsBut [epochReg u r.pkt.src] s t ∧
       changesOnly [.tmcs, .nis, .ports, .regs, .mem] s t)) ∧
  (∀ (u : Fin 64) (r : TReq) (q : List TReq) (s : State),
     (s.tmc u).q = r :: q →
     noEntryNext q →
     r.pkt.opc = Opc.LKREL →
     isPoison s (tmemAddr u (offOf r.pkt)) = false →
     isPoison s ((tmemAddr u (offOf r.pkt)) + 1) = false →
     (ownLive (takeEpoch s u r.pkt.src ((wordAt r.pkt.words 0).fld 16 8)) u r.pkt (s.word (tmemAddr u (offOf r.pkt))) (s.word ((tmemAddr u (offOf r.pkt))
                                                                                                                               + 1))) = false →
     Completes (.tmemLkrel u .clean) s (fun t =>
       t.word (tmemAddr u (offOf r.pkt)) = (s.word (tmemAddr u (offOf r.pkt))) ∧
       t.word ((tmemAddr u (offOf r.pkt)) + 1) = (s.word ((tmemAddr u (offOf r.pkt)) + 1)) ∧
       wordsBut [(tmemAddr u (offOf r.pkt)), (tmemAddr u (offOf r.pkt)) + 1] s t ∧
       t.poison = s.poison ∧
       ((t.tmc u).q, (t.tmc u).fopDone, (t.tmc u).fopOld, (t.tmc u).mig, (t.tmc u).migWait,
        (t.tmc u).leftOut) = (q, 0, [], (s.tmc u).mig, (s.tmc u).migWait, (s.tmc u).leftOut) ∧
       (t.tmc u).resv = (s.tmc u).resv.filter (fun x => decide (x.1 = r.pkt.src) || decide (x.2 ≠ (tmemAddr u (offOf r.pkt)) / 16 * 16)) ∧
       (r.via = .fabric → (t.ni (niOf u 5)).stage = (s.ni (niOf u 5)).stage ++
         [{ ch := .own, tmem := true, pkt := mkResp r.pkt (nodeTP s u 5) St.NOTOWN [(s.word (tmemAddr u (offOf r.pkt))),
                                                                      (s.word ((tmemAddr u (offOf r.pkt))
                                                                               + 1))] 0 }]) ∧
       (∀ m, r.via = .mem m → t.nis = s.nis
        ∧ pieceKept (answerPort s m r.pkt.id St.NOTOWN [(s.word (tmemAddr u (offOf r.pkt))),
                                                        (s.word ((tmemAddr u (offOf r.pkt)) + 1))]) t .ports) ∧
       nisBut (niOf u 5) s t ∧
       tmcsBut u s t ∧
       (r.via = .fabric → pieceKept s t .ports) ∧
       t.reg (epochReg u r.pkt.src) = (takeEpoch s u r.pkt.src ((wordAt r.pkt.words 0).fld 16 8)).reg (epochReg u r.pkt.src) ∧
       regsBut [epochReg u r.pkt.src] s t ∧
       changesOnly [.tmcs, .nis, .ports, .regs, .mem] s t)) ∧
  (∀ (u : Fin 64) (r : TReq) (q : List TReq) (s : State),
     (s.tmc u).q = r :: q →
     noEntryNext q →
     r.pkt.opc = Opc.LKACQ →
     isPoison s (tmemAddr u (offOf r.pkt)) = true →
     Completes (.tmemLkacq u .clean) s (fun t =>
       (t.tmc u) = { (s.tmc u) with q := q, fopDone := 0, fopOld := [], rowDue := (t.tmc u).rowDue } ∧
       (bankOf (offOf r.pkt), rowOfWord (offOf r.pkt)) ∈ (t.tmc u).rowDue ∧
       (∀ x ∈ (s.tmc u).rowDue, x ∈ (t.tmc u).rowDue) ∧
       (eventPasses s (.tmem u) → t.evq.take (s.evq.length + 1) = s.evq ++ [mkEv (ftTile s u) (nodeTP s u 5) EvC.TMEM_UE []]) ∧
       wordsBut [] s t ∧
       t.poison = s.poison ∧
       (r.via = .fabric → (t.ni (niOf u 5)).stage = (s.ni (niOf u 5)).stage ++
         [{ ch := .own, tmem := true, pkt := mkResp r.pkt (nodeTP s u 5) St.POISON [0, 0] 1 }]) ∧
       (∀ m, r.via = .mem m → t.nis = s.nis ∧ pieceKept (answerPort s m r.pkt.id St.POISON [0, 0]) t .ports) ∧
       nisBut (niOf u 5) s t ∧
       tmcsBut u s t ∧
       (r.via = .fabric → pieceKept s t .ports) ∧
       t.reg (tmemReg u Off.TMEM_UE_CNT) = (s.reg (tmemReg u Off.TMEM_UE_CNT)).satInc ∧
       t.reg (tmemReg u Off.TMEM_UE_ADDR) = natW (tmemAddr u (offOf r.pkt)) ∧
       regsBut [epochReg u r.pkt.src, tmemReg u Off.TMEM_UE_CNT, tmemReg u Off.TMEM_UE_ADDR,
                tmemReg u Off.TMEM_ROW_TRK, taReg u Off.CDC_TA_STAT, taReg u Off.CDC_TA_LOST] s t ∧
       changesOnly [.tmcs, .nis, .ports, .regs, .log, .mem] s t)) ∧
  (∀ (u : Fin 64) (op : Nat) (e : MemErr) (r : TReq) (q : List TReq) (a j : Nat) (vs : List (Option W)) (s : State) (c : Instr),
     c = .tmemLkacq u e ∧ op = Opc.LKACQ ∨ c = .tmemLkrnw u e ∧ op = Opc.LKRNW ∨ c = .tmemLkrel u e ∧ op = Opc.LKREL →
     (s.tmc u).q = r :: q →
     noEntryNext q →
     r.pkt.opc = op →
     a = tmemAddr u (offOf r.pkt) →
     j = (if e = .clean then 0 else (Config.freeWord s.freeN).toNat % 2) →
     vs = [0, 1].map (fun i => if isPoison s (a + i) = true ∨ e = .ue ∧ i = j then none else some (s.word (a + i))) →
     none ∈ vs →
     Completes c s (fun t =>
       (t.tmc u) = { (s.tmc u) with q := q, fopDone := 0, fopOld := [], rowDue := (t.tmc u).rowDue } ∧
       (∀ i < 2, vs.getD i none = none → (bankOf (offOf r.pkt + i), rowOfWord (offOf r.pkt + i)) ∈ (t.tmc u).rowDue) ∧
       (∀ x ∈ (s.tmc u).rowDue, x ∈ (t.tmc u).rowDue) ∧
       wordsBut [] s t ∧
       (∀ b, isPoison t b = (isPoison s b || decide (e = .ue ∧ b = a + j))) ∧
       (r.via = .fabric → (t.ni (niOf u 5)).stage = (s.ni (niOf u 5)).stage ++
         [{ ch := .own, tmem := true, pkt := mkResp r.pkt (nodeTP s u 5) St.POISON [0, 0] 1 }]) ∧
       (∀ m, r.via = .mem m → t.nis = s.nis ∧ pieceKept (answerPort s m r.pkt.id St.POISON [0, 0]) t .ports) ∧
       nisBut (niOf u 5) s t ∧
       tmcsBut u s t ∧
       (r.via = .fabric → pieceKept s t .ports) ∧
       t.freeN = s.freeN + (if e = .clean then 0 else 1) ∧ t.nextId = s.nextId ∧
       t.reg (epochReg u r.pkt.src) = (takeEpoch s u r.pkt.src ((wordAt r.pkt.words 0).fld 16 8)).reg (epochReg u r.pkt.src) ∧
       t.reg (tmemReg u Off.TMEM_UE_CNT) =
         BitVec.ofNat 36 (min ((s.reg (tmemReg u Off.TMEM_UE_CNT)).toNat + vs.count none) (2 ^ 36 - 1)) ∧
       (crossHeld s (.tmem u) < 14 → s.evq.length < 15 →
         mkEv (ftTile s u) (nodeTP s u 5) EvC.TMEM_UE [] ∈ t.evq.drop s.evq.length) ∧
       regsBut [epochReg u r.pkt.src, tmemReg u Off.TMEM_UE_CNT, tmemReg u Off.TMEM_UE_ADDR, tmemReg u Off.TMEM_CE_CNT,
                tmemReg u Off.TMEM_ROW_TRK, taReg u Off.CDC_TA_STAT, taReg u Off.CDC_TA_LOST] s t ∧
       changesOnly [.tmcs, .nis, .ports, .regs, .log, .mem, .ids] s t)) ∧
  (∀ (u : Fin 64) (n : NiId) (s : State),
     Completes (.epochUpdate u n) s (fun t =>
       epochOf t u (nodeOf s n.idx) = (if newerEpoch (getFld s (niReg n.idx Off.NI_EPOCH) 0 8) (epochOf s u (nodeOf s n.idx))
                                       then getFld s (niReg n.idx Off.NI_EPOCH) 0 8
                                       else epochOf s u (nodeOf s n.idx)) ∧
       frozen t u (nodeOf s n.idx) = frozen s u (nodeOf s n.idx) ∧
       regsBut [epochReg u (nodeOf s n.idx)] s t ∧
       changesOnly [.regs] s t))

/-- The scrub walk reads one word after another, round the banks, the spare rows in use and the standby bank, and
counts its passes. A row migration into a free entry names its row in its entry and runs, or waits for the one
that runs; when it is done its spare row answers. A bank moves to the standby bank and back, the spare entries of
the bank being given up. -/
def Obligations.ScrubAndMigrations : Prop :=
  (∀ (u : Fin 64) (s : State),
     regBit s (tmemReg u Off.TMEM_ECC_CFG) 24 = true →
     tileState s u ≠ 2 →
     tileState s u ≠ 3 →
     (getFld s (tmemReg u Off.TMEM_SCRUB_STAT) 0 17) + 1 < 122880 →
     scrubGood s u (getFld s (tmemReg u Off.TMEM_SCRUB_STAT) 0 17) = true →
     Completes (.scrub u .clean) s (fun t =>
       t.reg (tmemReg u Off.TMEM_SCRUB_STAT) = (s.reg (tmemReg u Off.TMEM_SCRUB_STAT)).put 0 17 ((getFld s (tmemReg u Off.TMEM_SCRUB_STAT) 0 17)
                                                                                                 + 1) ∧
       regsBut [tmemReg u Off.TMEM_SCRUB_STAT] s t ∧
       changesOnly [.regs] s t)) ∧
  (∀ (u : Fin 64) (off : Nat) (s : State),
     regBit s (tmemReg u Off.TMEM_ECC_CFG) 24 = true →
     tileState s u ≠ 2 →
     tileState s u ≠ 3 →
     (getFld s (tmemReg u Off.TMEM_SCRUB_STAT) 0 17) + 1 < 122880 →
     scrubTarget s u (getFld s (tmemReg u Off.TMEM_SCRUB_STAT) 0 17) = .word off →
     isPoison s (tmemAddr u off) = false →
     Completes (.scrub u .ce) s (fun t =>
       t.reg (tmemReg u Off.TMEM_SCRUB_STAT) = (s.reg (tmemReg u Off.TMEM_SCRUB_STAT)).put 0 17 ((getFld s (tmemReg u Off.TMEM_SCRUB_STAT) 0 17)
                                                                                                 + 1) ∧
       t.reg (tmemReg u Off.TMEM_CE_CNT) = s.reg (tmemReg u Off.TMEM_CE_CNT) + 1 ∧
       regsBut [tmemReg u Off.TMEM_SCRUB_STAT, tmemReg u Off.TMEM_ROW_TRK, tmemReg u Off.TMEM_CE_CNT,
                taReg u Off.CDC_TA_STAT, taReg u Off.CDC_TA_LOST] s t ∧
       (t.tmc u) = { (s.tmc u) with rowDue := (t.tmc u).rowDue } ∧
       (∃ l, (t.tmc u).rowDue = (s.tmc u).rowDue ++ l) ∧
       tmcsBut u s t ∧
       changesOnly [.regs, .log, .tmcs] s t)) ∧
  (∀ (u : Fin 64) (s : State),
     regBit s (tmemReg u Off.TMEM_ECC_CFG) 24 = true →
     tileState s u ≠ 2 →
     tileState s u ≠ 3 →
     (getFld s (tmemReg u Off.TMEM_SCRUB_STAT) 0 17) + 1 = 122880 →
     scrubGood s u (getFld s (tmemReg u Off.TMEM_SCRUB_STAT) 0 17) = true →
     Completes (.scrub u .clean) s (fun t =>
       getFld t (tmemReg u Off.TMEM_SCRUB_STAT) 0 17 = 0 ∧
       getFld t (tmemReg u Off.TMEM_SCRUB_STAT) 17 19 = (getFld s (tmemReg u Off.TMEM_SCRUB_STAT) 17 19
                                                         + 1) % 2 ^ 19 ∧
       t.reg (tmemReg u Off.TMEM_ROW_TRK) = 0 ∧
       regsBut [tmemReg u Off.TMEM_SCRUB_STAT, tmemReg u Off.TMEM_ROW_TRK] s t ∧
       changesOnly [.regs] s t)) ∧
  (∀ (u : Fin 64) (k : Fin 64) (b : Fin 6) (w : Fin 128) (s : State),
     spareFree s u k = true →
     (s.tmc u).rowDue.contains (b.val, w.val) = true →
     (s.tmc u).mig = none →
     (s.tmc u).session = false →
     Completes (.rowMigration u k b w) s (fun t =>
       t.reg (tmemReg u (Off.TMEM_SPARE k)) = (W.at 0 3 b.val ||| W.at 3 7 w.val) ∧
       (t.tmc u) = { (s.tmc u) with mig := some { bank := false, b := b.val, spare := k.val, since := s.fc },
                                     rowDue := (s.tmc u).rowDue.filter (fun x => decide (x ≠ (b.val, w.val))) } ∧
       t.reg (tmemReg u Off.TMEM_MIG_STAT) = 1 ∧
       regsBut [tmemReg u (Off.TMEM_SPARE k), tmemReg u Off.TMEM_MIG_STAT] s t ∧
       changesOnly [.regs, .tmcs] s t ∧
       tmcsBut u s t)) ∧
  (∀ (u : Fin 64) (k : Fin 64) (b : Fin 6) (w : Fin 128) (s : State),
     spareFree s u k = true →
     (s.tmc u).rowDue.contains (b.val, w.val) = true →
     ((s.tmc u).mig.isSome = true ∨ (s.tmc u).session = true) →
     Completes (.rowMigration u k b w) s (fun t =>
       t.reg (tmemReg u (Off.TMEM_SPARE k)) = (W.at 0 3 b.val ||| W.at 3 7 w.val) ∧
       (t.tmc u) = { (s.tmc u) with
         migWait := (s.tmc u).migWait ++ [{ bank := false, b := b.val, spare := k.val }],
         rowDue := (s.tmc u).rowDue.filter (fun x => decide (x ≠ (b.val, w.val))) } ∧
       regsBut [tmemReg u (Off.TMEM_SPARE k)] s t ∧
       changesOnly [.regs, .tmcs] s t ∧
       tmcsBut u s t)) ∧
  (∀ (u : Fin 64) (m : Mig) (s : State),
     (s.tmc u).mig = some m →
     m.bank = false →
     (s.tmc u).migWait = [] →
     spareUsed (setBit s (tmemReg u (Off.TMEM_SPARE m.spare)) 10 true) u ≠ 64 →
     m.spare < 64 →
     Completes (.migrationDone u) s (fun t =>
       regBit t (tmemReg u (Off.TMEM_SPARE m.spare)) 10 = true ∧
       t.reg (tmemReg u (Off.TMEM_SPARE m.spare)) = (s.reg (tmemReg u (Off.TMEM_SPARE m.spare))).put 10 1 1 ∧
       (t.tmc u) = { (s.tmc u) with mig := none } ∧
       t.reg (tmemReg u Off.TMEM_MIG_STAT) = W.at 2 15 128 ∧
       regsBut [tmemReg u (Off.TMEM_SPARE m.spare), tmemReg u Off.TMEM_MIG_STAT] s t ∧
       changesOnly [.regs, .tmcs] s t ∧
       tmcsBut u s t)) ∧
  (∀ (u : Fin 64) (b : Fin 6) (s : State),
     getFld s (tmemReg u Off.TMEM_BANK_MAP) 0 3 = 6 →
     (s.tmc u).mig = none →
     Completes (.bankMigration u b) s (fun t =>
       (t.tmc u) = { (s.tmc u) with mig := some { bank := true, b := b.val, since := s.fc } } ∧
       t.reg (tmemReg u Off.TMEM_MIG_STAT) = 3 ∧
       regsBut [tmemReg u Off.TMEM_MIG_STAT] s t ∧
       changesOnly [.regs, .tmcs] s t ∧
       tmcsBut u s t)) ∧
  (∀ (u : Fin 64) (m : Mig) (s : State),
     (s.tmc u).mig = some m →
     m.bank = true →
     m.back = false →
     m.b < 6 →
     (s.tmc u).migWait = [] →
     Completes (.migrationDone u) s (fun t =>
       (t.tmc u) = { (s.tmc u) with mig := none } ∧
       getFld t (tmemReg u Off.TMEM_BANK_MAP) 0 3 = m.b ∧
       ((List.range 64).all (fun k => decide (t.reg (tmemReg u (Off.TMEM_SPARE k)) = if (s.reg (tmemReg u (Off.TMEM_SPARE k))).bit 10 && decide ((s.reg (tmemReg u (Off.TMEM_SPARE k))).fld 0 3 = m.b)
                                              then 0 else s.reg (tmemReg u (Off.TMEM_SPARE k)))) = true) ∧
       t.reg (tmemReg u Off.TMEM_MIG_STAT) = (W.at 1 1 1 ||| W.at 2 15 16384) ∧
       regsBut ([tmemReg u Off.TMEM_BANK_MAP, tmemReg u Off.TMEM_MIG_STAT]
                ++ (List.range 64).map (fun k => tmemReg u (Off.TMEM_SPARE k))) s t ∧
       changesOnly [.regs, .tmcs] s t ∧
       tmcsBut u s t)) ∧
  (∀ (u : Fin 64) (m : Mig) (s : State),
     (s.tmc u).mig = some m →
     m.bank = true →
     m.back = true →
     ((s.tmc u).leftOut.map (fun w => w.fld 11 6)).Nodup →
     (s.tmc u).migWait = [] →
     Completes (.migrationDone u) s (fun t =>
       (t.tmc u) = { (s.tmc u) with mig := none, leftOut := [], session := false } ∧
       t.reg (tmemReg u Off.TMEM_BANK_MAP) = (s.reg (tmemReg u Off.TMEM_BANK_MAP)).put 0 3 6 ∧
       (∀ k < 64, t.reg (tmemReg u (Off.TMEM_SPARE k)) =
         (if (s.reg (tmemReg u (Off.TMEM_SPARE k))).bit 10 = true ∧ (s.reg (tmemReg u (Off.TMEM_SPARE k))).fld 0 3 ≠ m.b
          then s.reg (tmemReg u (Off.TMEM_SPARE k))
          else match (s.tmc u).leftOut.find? (fun w => decide (w.fld 11 6 = k)) with
            | some w => W.at 0 11 (w.fld 0 11)
            | none => if (s.reg (tmemReg u (Off.TMEM_SPARE k))).bit 10 = true then 0
                      else s.reg (tmemReg u (Off.TMEM_SPARE k)))) ∧
       t.reg (tmemReg u Off.TMEM_MIG_STAT) = (W.at 1 1 1 ||| W.at 2 15 16384) ∧
       regsBut ([tmemReg u Off.TMEM_BANK_MAP, tmemReg u Off.TMEM_MIG_STAT]
                ++ (List.range 64).map (fun k => tmemReg u (Off.TMEM_SPARE k))) s t ∧
       changesOnly [.regs, .tmcs] s t ∧
       tmcsBut u s t))

/-- A register read through a port answers what the register shows; a read that clears leaves zero, but not for a
debug access that peeks. A write leaves the legal value. A burst goes word by word, at registers and in SRAM, with
one answer, whose words without target read zero and count as misses; at the debug port such an answer is DECERR
and all zero. SRAM words are read and written; an access to tile memory waits at its controller. An access without
target answers zeros, DECERR at the debug port, and is counted. A write of an Opcon core that its guard fails is
recorded and changes nothing at its target, and one that the guard's update holds waits in the core's write queue.
-/
def Obligations.PortsReadAndWrite : Prop :=
  (∀ (a : W) (b : Block) (o : Nat) (r : Row) (s : State),
     s.inReset = false →
     s.hrpQ = [] →
     target s a.toNat = some (b, o, r) →
     r.acc ≠ .rc →
     wakeFor s b = s →
     statSlot b o = none →
     0xF00000000 ≤ a.toNat →
     coresIdle s →
     Completes (.hrpRequest false a 0 []) s (fun t =>
       t.hrpOut = s.hrpOut ++ [(false, [regView s b o r (s.reg a.toNat)])] ∧
       t.hrpQ = [] ∧
       t.nextId = s.nextId + 1 ∧
       t.dbgQ = s.dbgQ ∧ t.dbgOut = s.dbgOut ∧ t.coreOut = s.coreOut ∧
       changesOnly [.ports, .ids] s t)) ∧
  (∀ (a : W) (b : Block) (o : Nat) (r : Row) (s : State),
     s.inReset = false →
     s.dbgQ = [] →
     target s a.toNat = some (b, o, r) →
     regBit s (dbgReg Off.DBG_PEEK) 0 = true →
     wakeFor s b = s →
     0xF00000000 ≤ a.toNat →
     coresIdle s →
     Completes (.dbgRequest false a 0 []) s (fun t =>
       t.dbgOut = s.dbgOut ++ [(St.OK, [regView s b o r (s.reg a.toNat)])] ∧
       t.dbgQ = [] ∧
       t.hrpQ = s.hrpQ ∧ t.hrpOut = s.hrpOut ∧ t.coreOut = s.coreOut ∧
       changesOnly [.ports, .ids] s t)) ∧
  (∀ (a : W) (b : Block) (o : Nat) (r : Row) (s : State),
     s.inReset = false →
     s.hrpQ = [] →
     target s a.toNat = some (b, o, r) →
     r.acc = .rc →
     wakeFor s b = s →
     statSlot b o = none →
     0xF00000000 ≤ a.toNat →
     coresIdle s →
     Completes (.rcRead .hrp a) s (fun t =>
       t.hrpOut = s.hrpOut ++ [(false, [regView s b o r (s.reg a.toNat)])] ∧
       t.reg a.toNat = 0 ∧
       regsBut [a.toNat] s t ∧
       changesOnly [.ports, .ids, .regs] s t)) ∧
  (∀ (c : Fin 2) (a : W) (b : Block) (o : Nat) (r : Row) (s : State),
     target s a.toNat = some (b, o, r) →
     r.acc = .rc →
     matrixTakes s (coreNode s c) = true →
     coreGoes s c a.toNat 1 →
     accessFails s (448 + c) a.toNat 1 true false (corePriv s c) = none →
     wakeFor s b = s →
     statSlot b o = none →
     0xF00000000 ≤ a.toNat →
     coresIdle s →
     Completes (.rcRead (.core c) a) s (fun t =>
       t.coreOut = s.coreOut ++ [(c.val, St.OK, [regView s b o r (s.reg a.toNat)])] ∧
       t.reg a.toNat = 0 ∧
       regsBut [a.toNat] s t ∧
       t.hrpQ = s.hrpQ ∧ t.hrpOut = s.hrpOut ∧ t.dbgQ = s.dbgQ ∧ t.dbgOut = s.dbgOut ∧
       changesOnly [.ports, .regs] s t)) ∧
  (∀ (v : W) (a : W) (b : Block) (o : Nat) (r : Row) (s : State),
     s.inReset = false →
     s.hrpQ = [] →
     target s a.toNat = some (b, o, r) →
     fstate s ≠ 2 →
     (b = .evl ∨ b = .bst) →
     r.acc = .rw ∨ r.acc = .fw →
     0xF00000000 ≤ a.toNat →
     coresIdle s →
     Completes (.hrpRequest true a 0 [v]) s (fun t =>
       t.hrpOut = s.hrpOut ++ [(true, [0])] ∧
       t.reg a.toNat = legalizeAt b o r v ∧
       regsBut [a.toNat] s t ∧
       t.hrpQ = [] ∧
       changesOnly [.ports, .ids, .regs] s t)) ∧
  (∀ (v : W) (a : W) (off : Nat) (s : State),
     s.inReset = false →
     s.hrpQ = [] →
     fstate s ≠ 2 →
     regionOf s a.toNat = .sram off →
     coresIdle s →
     Completes (.hrpRequest true a 0 [v]) s (fun t =>
       t.word (sramAddr off) = v ∧
       regsBut [] s t ∧
       wordsBut [sramAddr off] s t ∧
       t.poison = s.poison ∧
       t.hrpOut = s.hrpOut ++ [(true, [0])] ∧
       changesOnly [.ports, .ids, .mem] s t)) ∧
  (∀ (a : W) (off : Nat) (s : State),
     s.inReset = false →
     s.dbgQ = [] →
     fstate s ≠ 2 →
     regionOf s a.toNat = .sram off →
     coresIdle s →
     Completes (.dbgRequest false a 0 []) s (fun t =>
       t.dbgOut = s.dbgOut ++ [(St.OK, [s.word (sramAddr off)])] ∧
       changesOnly [.ports, .ids] s t)) ∧
  (∀ (wr : Bool) (a : W) (d : W) (u : Fin 64) (off : Nat) (s : State),
     s.inReset = false →
     s.hrpQ.length < 4 →
     fstate s ≠ 2 →
     regionOf s a.toNat = .tmem u off →
     tileDark s u = false →
     (s.tmc u).q.length < 16 →
     coresIdle s →
     Completes (.hrpRequest wr a 0 [d]) s (fun t =>
       (t.tmc u) = { (s.tmc u) with
         q := (s.tmc u).q ++ [{ pkt := memPkt s .hrp s.nextId wr a.toNat 1 [d], via := .mem .hrp }] } ∧
       t.hrpQ = s.hrpQ ++ [{ id := s.nextId, wr := wr, len := 0 }] ∧
       t.hrpOut = s.hrpOut ∧
       t.nextId = s.nextId + 1 ∧
       tmcsBut u s t ∧
       changesOnly [.ports, .ids, .tmcs] s t)) ∧
  (∀ (a : W) (s : State),
     s.inReset = false →
     s.dbgQ = [] →
     0xF00000000 ≤ a.toNat →
     target s a.toNat = none →
     coresIdle s →
     Completes (.dbgRequest false a 0 []) s (fun t =>
       t.dbgOut = s.dbgOut ++ [(St.DECERR, [0])] ∧
       t.reg (mtxReg Off.MTX_DECODE_MISS) = (s.reg (mtxReg Off.MTX_DECODE_MISS)).satInc ∧
       regsBut [mtxReg Off.MTX_DECODE_MISS, mtxReg Off.MTX_DECODE_FIRST, mtxReg Off.MTX_DECODE_ADDR] s t ∧
       changesOnly [.ports, .ids, .regs] s t)) ∧
  (∀ (a : W) (off : Nat) (len : Fin 16) (s : State),
     s.inReset = false →
     s.hrpQ = [] →
     fstate s ≠ 2 →
     (∀ i ≤ len.val, regionOf s (a.toNat + i) = .sram (off + i)) →
     coresIdle s →
     Completes (.hrpRequest false a len []) s (fun t =>
       t.hrpOut = s.hrpOut ++ [(false, (List.range (len.val + 1)).map (fun i => s.word (sramAddr (off + i))))] ∧
       t.hrpQ = [] ∧
       t.dbgOut = s.dbgOut ∧ t.dbgQ = s.dbgQ ∧ t.coreOut = s.coreOut ∧
       changesOnly [.ports, .ids] s t)) ∧
  (∀ (a : W) (off : Nat) (len : Fin 16) (vs : List W) (s : State),
     s.inReset = false →
     s.hrpQ = [] →
     fstate s ≠ 2 →
     (∀ i ≤ len.val, regionOf s (a.toNat + i) = .sram (off + i)) →
     vs.length = len.val + 1 →
     coresIdle s →
     Completes (.hrpRequest true a len vs) s (fun t =>
       (∀ i ≤ len.val, t.word (sramAddr (off + i)) = wordAt vs i) ∧
       wordsBut ((List.range (len.val + 1)).map (fun i => sramAddr (off + i))) s t ∧
       t.poison = s.poison ∧
       t.hrpOut = s.hrpOut ++ [(true, [0])] ∧
       t.hrpQ = [] ∧
       t.dbgOut = s.dbgOut ∧ t.dbgQ = s.dbgQ ∧ t.coreOut = s.coreOut ∧
       changesOnly [.ports, .ids, .mem] s t)) ∧
  (∀ (a : W) (b : Block) (o : Nat) (r : Row) (s : State),
     s.inReset = false →
     s.hrpQ = [] →
     target s a.toNat = some (b, o, r) →
     target s (a.toNat + 1) = none →
     r.acc ≠ .rc →
     wakeFor s b = s →
     statSlot b o = none →
     0xF00000000 ≤ a.toNat →
     coresIdle s →
     Completes (.hrpRequest false a 1 []) s (fun t =>
       t.hrpOut = s.hrpOut ++ [(false, [regView s b o r (s.reg a.toNat), 0])] ∧
       missNoted s t (hrpNode s) false .matrix (a.toNat + 1) ∧
       regsBut [mtxReg Off.MTX_DECODE_MISS, mtxReg Off.MTX_DECODE_FIRST, mtxReg Off.MTX_DECODE_ADDR] s t ∧
       t.hrpQ = [] ∧
       changesOnly [.ports, .ids, .regs] s t)) ∧
  (∀ (a : W) (b : Block) (o : Nat) (r : Row) (s : State),
     s.inReset = false →
     s.dbgQ = [] →
     target s a.toNat = some (b, o, r) →
     target s (a.toNat + 1) = none →
     r.acc ≠ .rc →
     wakeFor s b = s →
     statSlot b o = none →
     0xF00000000 ≤ a.toNat →
     coresIdle s →
     Completes (.dbgRequest false a 1 []) s (fun t =>
       t.dbgOut = s.dbgOut ++ [(St.DECERR, [0, 0])] ∧
       missNoted s t (dbgNode s) false .matrix (a.toNat + 1) ∧
       regsBut [mtxReg Off.MTX_DECODE_MISS, mtxReg Off.MTX_DECODE_FIRST, mtxReg Off.MTX_DECODE_ADDR] s t ∧
       t.dbgQ = [] ∧
       changesOnly [.ports, .ids, .regs] s t)) ∧
  (∀ (v : W) (w : W) (a : W) (b : Block) (o : Nat) (r : Row) (d : Block) (p : Nat) (q : Row) (s : State),
     s.inReset = false →
     s.hrpQ = [] →
     target s a.toNat = some (b, o, r) →
     target s (a.toNat + 1) = some (d, p, q) →
     fstate s ≠ 2 →
     (b = .evl ∨ b = .bst) ∧ (d = .evl ∨ d = .bst) →
     (r.acc = .rw ∨ r.acc = .fw) ∧ (q.acc = .rw ∨ q.acc = .fw) →
     0xF00000000 ≤ a.toNat →
     coresIdle s →
     Completes (.hrpRequest true a 1 [v, w]) s (fun t =>
       t.reg a.toNat = legalizeAt b o r v ∧
       t.reg (a.toNat + 1) = legalizeAt d p q w ∧
       regsBut [a.toNat, a.toNat + 1] s t ∧
       t.hrpOut = s.hrpOut ++ [(true, [0])] ∧
       t.hrpQ = [] ∧
       changesOnly [.ports, .ids, .regs] s t)) ∧
  (∀ (wr : Bool) (a : W) (s : State),
     s.inReset = false →
     s.hrpQ = [] →
     0xF00000000 ≤ a.toNat →
     target s a.toNat = none →
     coresIdle s →
     Completes (.hrpRequest wr a 0 [0]) s (fun t =>
       t.hrpOut = s.hrpOut ++ [(wr, [0])] ∧
       missNoted s t (hrpNode s) wr .matrix a.toNat ∧
       regsBut [mtxReg Off.MTX_DECODE_MISS, mtxReg Off.MTX_DECODE_FIRST, mtxReg Off.MTX_DECODE_ADDR] s t ∧
       t.hrpQ = [] ∧
       changesOnly [.ports, .ids, .regs] s t)) ∧
  (∀ (a : W) (s : State),
     s.inReset = false →
     s.dbgQ = [] →
     0xF00000000 ≤ a.toNat →
     target s a.toNat = none →
     coresIdle s →
     Completes (.dbgRequest true a 0 [0]) s (fun t =>
       t.dbgOut = s.dbgOut ++ [(St.DECERR, [0])] ∧
       missNoted s t (dbgNode s) true .matrix a.toNat ∧
       regsBut [mtxReg Off.MTX_DECODE_MISS, mtxReg Off.MTX_DECODE_FIRST, mtxReg Off.MTX_DECODE_ADDR] s t ∧
       t.dbgQ = [] ∧
       changesOnly [.ports, .ids, .regs] s t)) ∧
  (∀ (c : Fin 2) (v : W) (n : BitVec 23) (a : W) (w : Nat) (cause : Nat) (x : Nat) (b : Block) (o : Nat) (r : Row) (s : State),
     n.toNat = coreNode s c →
     matrixTakes s n.toNat = true →
     coreGoes s c a.toNat 1 →
     coresIdle s →
     target s a.toNat = some (b, o, r) →
     (b = .evl ∨ b = .bst) →
     accessFails s (448 + c) a.toNat 1 false true (corePriv s c) = some (w, cause, x) →
     Completes (.registerWrite a [(n, v)]) s (fun t =>
       regBit t (guardReg (448 + c) Off.GRD_ERR) GrdB.NOTICE = true ∧
       t.reg (guardReg (448 + c) Off.GRD_NOTICE_CNT) = (s.reg (guardReg (448 + c) Off.GRD_NOTICE_CNT)).satInc ∧
       t.reg (guardReg (448 + c) Off.GRD_NOTICE_LINE) = (if regBit s (guardReg (448 + c) Off.GRD_ERR) GrdB.NOTICE = true
         then s.reg (guardReg (448 + c) Off.GRD_NOTICE_LINE) else natW (w / 16 * 16)) ∧
       (t.core c).acks = (s.core c).acks ∧
       coresBut c s t ∧
       regsBut [guardReg (448 + c) Off.GRD_ERR, guardReg (448 + c) Off.GRD_NOTICE_CNT, guardReg (448 + c) Off.GRD_NOTICE_LINE,
                niReg (coreNi c) Off.NI_RES_STAT] s t ∧
       changesOnly [.regs, .cores, .log] s t)) ∧
  (∀ (c : Fin 2) (v : W) (n : BitVec 23) (a : W) (s : State),
     n.toNat = coreNode s c →
     matrixTakes s n.toNat = true →
     coresIdle s →
     grdUpd s (448 + c) = true →
     ownGuardWrite s c a.toNat 1 = false →
     Completes (.registerWrite a [(n, v)]) s (fun t =>
       t.core c = { s.core c with wq := [{ wr := true, addr := a.toNat, words := [v], id := s.nextId }] } ∧
       coresBut c s t ∧
       t.nextId = s.nextId + 1 ∧
       t.freeN = s.freeN ∧
       changesOnly [.cores, .ids] s t))

/-- The bridge acknowledges a write and posts it behind those that it has accepted; fails a STCOND, but answers
one to a word that no table lists as a decode miss; and applies the oldest posted write (log entry 15; the moment
is the model's, log entry 38). A read waits while a posted write stands, and reads what the last of them has left.
A queue of 16 takes a further write only once its oldest has been applied, and neither goes on while brace holds
that one. In a round (log entry 17) the writes of several masters are applied in ascending node ID, a collision is
counted and recorded, and a core's write is completed and a port's answered. A burst of four words to EVL_POST
posts the event under the node of its master, which is answered where it is a core or a port. -/
def Obligations.BridgeAndRounds : Prop :=
  (∀ (port : Fin 2) (p : Pkt) (rest : List Pkt) (s : State),
     s.posted.length < 16 →
     nextEject s (bridgePort port) (fun p => isBridge p) = some (p, rest) →
     p.opc = Opc.WR →
     p.flag 0 = false →
     Completes (.bridgeWrite port) s (fun t =>
       (t.ni (bridgePort port)) = { (s.ni (bridgePort port)) with
         eject := rest, stage := (s.ni (bridgePort port)).stage ++
           [{ ch := .own, pkt := mkResp p (nodeOf s (bridgePort port)) St.OK [] 0 }] } ∧
       t.posted = s.posted ++ [{ pkt := p, port := (bridgePort port) }] ∧
       t.heldWrites = s.heldWrites ∧
       nisBut (bridgePort port) s t ∧
       changesOnly [.nis, .matrix] s t)) ∧
  (∀ (port : Fin 2) (p : Pkt) (rest : List Pkt) (s : State),
     s.posted.length < 16 →
     nextEject s (bridgePort port) (fun p => isBridge p) = some (p, rest) →
     p.isStcond = true →
     (target s p.addr).isSome = true →
     Completes (.bridgeWrite port) s (fun t =>
       (t.ni (bridgePort port)) = { (s.ni (bridgePort port)) with
         eject := rest, stage := (s.ni (bridgePort port)).stage ++
           [{ ch := .own, pkt := mkResp p (nodeOf s (bridgePort port)) St.FAIL [] 0 }] } ∧
       nisBut (bridgePort port) s t ∧
       changesOnly [.nis] s t)) ∧
  (∀ (port : Fin 2) (p : Pkt) (rest : List Pkt) (b : Block) (o : Nat) (r : Row) (s : State),
     s.posted = [] →
     nextEject s (bridgePort port) (fun p => isBridge p) = some (p, rest) →
     p.opc = Opc.RD →
     p.cnt = 1 →
     s.heldWrites = [] →
     target s p.addr = some (b, o, r) →
     r.acc ≠ .rc →
     wakeFor s b = s →
     statSlot b o = none →
     Completes (.bridgeWrite port) s (fun t =>
       (t.ni (bridgePort port)) = { (s.ni (bridgePort port)) with
         eject := rest, stage := (s.ni (bridgePort port)).stage ++
           [{ ch := .own,
              pkt := mkResp p (nodeOf s (bridgePort port)) St.OK [regView s b o r (s.reg p.addr)] 0 }] } ∧
       nisBut (bridgePort port) s t ∧
       changesOnly [.nis] s t)) ∧
  (∀ (port : Fin 2) (e : Posted) (q : List Posted) (b : Block) (o : Nat) (r : Row) (s : State),
     s.posted = e :: q →
     (s.ni (bridgePort port)).eject = [] →
     target s e.pkt.addr = some (b, o, r) →
     fstate s ≠ 2 →
     coresIdle s →
     e.pkt.cnt = 1 →
     (b = .evl ∨ b = .bst) →
     r.acc = .rw ∨ r.acc = .fw →
     Completes (.bridgeWrite port) s (fun t =>
       t.reg e.pkt.addr = legalizeAt b o r (wordAt e.pkt.words 0) ∧
       regsBut [e.pkt.addr] s t ∧
       t.posted = q ∧
       t.heldWrites = s.heldWrites ∧
       changesOnly [.regs, .matrix] s t)) ∧
  (∀ (v : W) (w : W) (n : BitVec 23) (m : BitVec 23) (l : List (BitVec 23 × W)) (a : W) (b : Block) (o : Nat) (r : Row) (s : State),
     target s a.toNat = some (b, o, r) →
     fstate s ≠ 2 →
     coresIdle s →
     (b = .evl ∨ b = .bst) →
     r.acc = .rw ∨ r.acc = .fw →
     inRound s a.toNat (n, v) = true →
     inRound s a.toNat (m, w) = true →
     n < m →
     (l = [(n, v), (m, w)] ∨ l = [(m, w), (n, v)]) →
     Completes (.registerWrite a l) s (fun t =>
       t.reg a.toNat = legalizeAt b o r w ∧
       t.reg (mtxReg Off.MTX_COLL_CNT) = s.reg (mtxReg Off.MTX_COLL_CNT) + 1 ∧
       t.reg (mtxReg Off.MTX_COLL_INFO) = (W.at 0 23 m.toNat ||| W.at 23 5 2) ∧
       regsBut [a.toNat, mtxReg Off.MTX_COLL_CNT, mtxReg Off.MTX_COLL_INFO] s t ∧
       (∀ c < 2, t.core c = (if n.toNat = coreNode s c ∨ m.toNat = coreNode s c then { s.core c with acks := (s.core c).acks ++ [St.OK] } else s.core c)) ∧
       (s.hrpQ = [] → t.hrpOut = s.hrpOut ++ (if n.toNat = hrpNode s ∨ m.toNat = hrpNode s then [(true, [0])] else [])) ∧
       (s.dbgQ = [] → t.dbgOut = s.dbgOut ++ (if n.toNat = dbgNode s ∨ m.toNat = dbgNode s then [(St.OK, [0])] else [])) ∧
       (portOfNode s n.toNat = none → portOfNode s m.toNat = none → pieceKept s t .ports ∧ pieceKept s t .ids) ∧
       t.coreOut = s.coreOut ∧ t.freeN = s.freeN ∧
       changesOnly [.regs, .cores, .ports, .ids] s t)) ∧
  (∀ (v : W) (n : BitVec 23) (a : W) (b : Block) (o : Nat) (r : Row) (s : State),
     target s a.toNat = some (b, o, r) →
     fstate s ≠ 2 →
     coresIdle s →
     (b = .evl ∨ b = .bst) →
     r.acc = .rw ∨ r.acc = .fw →
     inRound s a.toNat (n, v) = true →
     Completes (.registerWrite a [(n, v)]) s (fun t =>
       t.reg a.toNat = legalizeAt b o r v ∧
       regsBut [a.toNat] s t ∧
       (∀ c < 2, t.core c = (if n.toNat = coreNode s c then { s.core c with acks := (s.core c).acks ++ [St.OK] } else s.core c)) ∧
       (s.hrpQ = [] → t.hrpOut = s.hrpOut ++ (if n.toNat = hrpNode s then [(true, [0])] else [])) ∧
       (s.dbgQ = [] → t.dbgOut = s.dbgOut ++ (if n.toNat = dbgNode s then [(St.OK, [0])] else [])) ∧
       (portOfNode s n.toNat = none → pieceKept s t .ports ∧ pieceKept s t .ids) ∧
       t.coreOut = s.coreOut ∧ t.freeN = s.freeN ∧
       changesOnly [.regs, .cores, .ports, .ids] s t)) ∧
  (∀ (node : BitVec 23) (x : W) (y : W) (e : W) (v : W) (s : State),
     matrixTakes s node.toNat = true →
     coreOfNode s node.toNat = none →
     portOfNode s node.toNat = none →
     fstate s ≠ 2 →
     s.evq.length < 16 →
     Completes (.evlPost node [x, y, e, v]) s (fun t =>
       logs s t { ftH := x, ftL := y, node := node.toNat, code := e.fld 23 10, sev := e.fld 33 2, arg := v } ∧
       changesOnly [.log] s t)) ∧
  (∀ (c : Fin 2) (node : BitVec 23) (x : W) (y : W) (e : W) (v : W) (s : State),
     node.toNat = coreNode s c →
     matrixTakes s (coreNode s c) = true →
     coreGoes s c (evlReg (Off.EVL_POST 0)) 4 →
     accessFails s (448 + c) (evlReg (Off.EVL_POST 0)) 4 false true (corePriv s c) = none →
     fstate s ≠ 2 →
     s.evq.length < 16 →
     Completes (.evlPost node [x, y, e, v]) s (fun t =>
       logs s t { ftH := x, ftL := y, node := node.toNat, code := e.fld 23 10, sev := e.fld 33 2, arg := v } ∧
       t.core c = { s.core c with acks := (s.core c).acks ++ [St.OK] } ∧
       coresBut c s t ∧
       changesOnly [.log, .cores] s t)) ∧
  (∀ (m : Master) (node : BitVec 23) (x : W) (y : W) (e : W) (v : W) (s : State),
     portOfNode s node.toNat = some m →
     s.inReset = false →
     s.hrpQ = [] →
     s.dbgQ = [] →
     fstate s ≠ 2 →
     s.evq.length < 16 →
     Completes (.evlPost node [x, y, e, v]) s (fun t =>
       logs s t { ftH := x, ftL := y, node := node.toNat, code := e.fld 23 10, sev := e.fld 33 2, arg := v } ∧
       t.hrpOut = s.hrpOut ++ (if m = .hrp then [(true, [0])] else []) ∧
       t.dbgOut = s.dbgOut ++ (if m = .dbg then [(St.OK, [0])] else []) ∧
       t.hrpQ = [] ∧ t.dbgQ = [] ∧ t.coreOut = s.coreOut ∧ t.nextId = s.nextId + 1 ∧ t.freeN = s.freeN ∧
       changesOnly [.log, .ports, .ids] s t)) ∧
  (∀ (port : Fin 2) (p : Pkt) (rest : List Pkt) (s : State),
     s.posted.length < 16 →
     nextEject s (bridgePort port) (fun p => isBridge p) = some (p, rest) →
     p.isStcond = true →
     target s p.addr = none →
     Completes (.bridgeWrite port) s (fun t =>
       (t.ni (bridgePort port)) = { (s.ni (bridgePort port)) with
         eject := rest, stage := (s.ni (bridgePort port)).stage ++
           [{ ch := .own, pkt := mkResp p (nodeOf s (bridgePort port)) St.DECERR [] 0 }] } ∧
       missNoted s t p.src true .matrix p.addr ∧
       regsBut [mtxReg Off.MTX_DECODE_MISS, mtxReg Off.MTX_DECODE_FIRST, mtxReg Off.MTX_DECODE_ADDR] s t ∧
       nisBut (bridgePort port) s t ∧
       changesOnly [.regs, .nis] s t)) ∧
  (∀ (port : Fin 2) (p : Pkt) (rest : List Pkt) (e : Posted) (f : Posted) (q : List Posted) (b : Block) (o : Nat) (r : Row) (s : State),
     s.posted = e :: f :: q →
     nextEject s (bridgePort port) (fun p => isBridge p) = some (p, rest) →
     p.opc = Opc.RD →
     target s e.pkt.addr = some (b, o, r) →
     fstate s ≠ 2 →
     coresIdle s →
     e.pkt.cnt = 1 →
     (b = .evl ∨ b = .bst) →
     r.acc = .rw ∨ r.acc = .fw →
     Completes (.bridgeWrite port) s (fun t =>
       t.reg e.pkt.addr = legalizeAt b o r (wordAt e.pkt.words 0) ∧
       regsBut [e.pkt.addr] s t ∧
       t.posted = f :: q ∧
       t.heldWrites = s.heldWrites ∧
       changesOnly [.regs, .matrix] s t)) ∧
  (∀ (port : Fin 2) (p : Pkt) (rest : List Pkt) (e : Posted) (b : Block) (o : Nat) (r : Row) (s : State),
     s.posted = [e] →
     nextEject s (bridgePort port) (fun p => isBridge p) = some (p, rest) →
     p.opc = Opc.RD →
     p.cnt = 1 →
     p.addr = e.pkt.addr →
     s.heldWrites = [] →
     target s e.pkt.addr = some (b, o, r) →
     fstate s ≠ 2 →
     coresIdle s →
     e.pkt.cnt = 1 →
     (b = .evl ∨ b = .bst) →
     r.acc = .rw ∨ r.acc = .fw →
     Completes (.bridgeWrite port) s (fun t =>
       t.reg e.pkt.addr = legalizeAt b o r (wordAt e.pkt.words 0) ∧
       regsBut [e.pkt.addr] s t ∧
       (t.ni (bridgePort port)) = { (s.ni (bridgePort port)) with
         eject := rest, stage := (s.ni (bridgePort port)).stage ++
           [{ ch := .own,
              pkt := mkResp p (nodeOf s (bridgePort port)) St.OK [regView t b o r (t.reg p.addr)] 0 }] } ∧
       t.posted = [] ∧
       t.heldWrites = [] ∧
       nisBut (bridgePort port) s t ∧
       changesOnly [.regs, .nis, .matrix] s t)) ∧
  (∀ (port : Fin 2) (p : Pkt) (rest : List Pkt) (e : Posted) (q : List Posted) (b : Block) (o : Nat) (r : Row) (s : State),
     s.posted = e :: q →
     s.posted.length = 16 →
     nextEject s (bridgePort port) (fun p => isBridge p) = some (p, rest) →
     p.opc = Opc.WR →
     p.flag 0 = false →
     target s e.pkt.addr = some (b, o, r) →
     fstate s ≠ 2 →
     coresIdle s →
     e.pkt.cnt = 1 →
     (b = .evl ∨ b = .bst) →
     r.acc = .rw ∨ r.acc = .fw →
     Completes (.bridgeWrite port) s (fun t =>
       t.reg e.pkt.addr = legalizeAt b o r (wordAt e.pkt.words 0) ∧
       regsBut [e.pkt.addr] s t ∧
       (t.ni (bridgePort port)) = { (s.ni (bridgePort port)) with
         eject := rest, stage := (s.ni (bridgePort port)).stage ++
           [{ ch := .own, pkt := mkResp p (nodeOf s (bridgePort port)) St.OK [] 0 }] } ∧
       t.posted = q ++ [{ pkt := p, port := (bridgePort port) }] ∧
       t.heldWrites = s.heldWrites ∧
       nisBut (bridgePort port) s t ∧
       changesOnly [.regs, .nis, .matrix] s t)) ∧
  (∀ (port : Fin 2) (p : Pkt) (rest : List Pkt) (e : Posted) (q : List Posted) (s : State),
     s.posted = e :: q →
     nextEject s (bridgePort port) (fun p => isBridge p) = some (p, rest) →
     s.posted.length = 16 ∨ p.opc = Opc.RD →
     braceKeeps s e.pkt.addr e.pkt.cnt = true →
     coresIdle s →
     Completes (.bridgeWrite port) s (fun t =>
       t = s))

/-- MTX_REMAP takes its bit; a write of a reset register asks for the reset, but not of a port that the tile does
not have; a core is held, released or reset once; C1_RUN releases core 1; a clock that is selected takes over once
it is good. A reset that is asked for during FAB_RST or the cold start is absorbed. A reset of a port drops its
requests, those at the memories among them, and a cut burst is counted (log entry 24). The rows of register writes
act as those of the host port do (log entry 17). -/
def Obligations.HostWritesThatAct : Prop :=
  (∀ (v : W) (s : State),
     fstate s ≠ 2 →
     Completes (.mtxRemap v) s (fun t =>
       t.reg (mtxReg Off.MTX_REMAP) = W.at 0 1 (v.fld 0 1) ∧
       regsBut [mtxReg Off.MTX_REMAP] s t ∧
       changesOnly [.regs] s t)) ∧
  (∀ (v : W) (s : State),
     fstate s ≠ 2 →
     Completes (.mtxRstTile v) s (fun t =>
       t.rstReq = s.rstReq ++ (if s.inReset || s.postRun then [] else [.tile (v.fld 0 6)]) ∧
       t.heldResets = s.heldResets ∧
       changesOnly [.resets] s t)) ∧
  (∀ (v : W) (s : State),
     fstate s ≠ 2 →
     Completes (.mtxRstNi v) s (fun t =>
       t.rstReq = (if s.inReset || s.postRun then s.rstReq else if v.fld 0 3 < 6 ∨ v.fld 0 3 = 6 ∧ hasP6 (v.fld 3 6) = true then s.rstReq
                   ++ [.ni (niOf (v.fld 3 6) (v.fld 0 3))] else s.rstReq) ∧
       t.heldResets = s.heldResets ∧
       changesOnly [.resets] s t)) ∧
  (∀ (c : Fin 2) (s : State),
     fstate s ≠ 2 →
     Completes (.opcRstHold c) s (fun t =>
       t.core c = { s.core c with rstHold := true, rstReq := (s.core c).rstReq || !(s.inReset || s.postRun) } ∧
       coresBut c s t ∧
       changesOnly [.cores] s t)) ∧
  (∀ (c : Fin 2) (s : State),
     fstate s ≠ 2 →
     ((s.core c).rstHold) = false →
     Completes (.opcRstPulse c) s (fun t =>
       t.core c = { s.core c with rstReq := (s.core c).rstReq || !(s.inReset || s.postRun) } ∧
       coresBut c s t ∧
       changesOnly [.cores] s t)) ∧
  (∀ (c : Fin 2) (s : State),
     fstate s ≠ 2 →
     ((s.core c).rstHold) = true →
     haltAsked s c = false →
     (s.core c).halted = false →
     Completes (.opcRstPulse c) s (fun t =>
       (t.core c).run = (!(s.core c).rstReq && !s.scanOn && !s.postRun && (decide (c.val = 0) || regBit s (opcReg Off.OPC_CTRL) 0)) ∧
       t.core c = { s.core c with
         rstHold := false, run := (t.core c).run,
         backFt := if (t.core c).run = true ∧ failedCore s c = true then some (ftNow s) else (s.core c).backFt } ∧
       t.reg (opcReg Off.OPC_FO_STAT) = (s.reg (opcReg Off.OPC_FO_STAT)).put (20 + c) 1 0 ∧
       regsBut [opcReg Off.OPC_FO_STAT] s t ∧
       coresBut c s t ∧
       changesOnly [.cores, .regs] s t)) ∧
  (∀ (s : State),
     fstate s ≠ 2 →
     regBit s (opcReg Off.OPC_CTRL) 0 = false →
     haltAsked s 1 = false →
     (s.core 1).halted = false →
     Completes (.c1Run) s (fun t =>
       t.reg (opcReg Off.OPC_CTRL) = 1 ∧
       t.core 1 = { s.core 1 with run := !(s.core 1).rstHold && !s.scanOn && !s.postRun } ∧
       regsBut [opcReg Off.OPC_CTRL] s t ∧
       coresBut 1 s t ∧
       changesOnly [.cores, .regs] s t)) ∧
  (∀ (c : Fin 2) (sel : Bool) (s : State),
     fstate s ≠ 2 →
     Completes (.opcClkSel c sel) s (fun t =>
       regBit t (opcReg (Off.OPC_CLK c)) 0 = sel ∧
       regBit t (opcReg (Off.OPC_CLK c)) 1 = (sel && (regBit s (opcReg (Off.OPC_CLK c)) 2 || regBit s (opcReg (Off.OPC_CLK c)) 1)) ∧
       ((t.reg (opcReg (Off.OPC_CLK c))).fld 2 34 = (s.reg (opcReg (Off.OPC_CLK c))).fld 2 34) ∧
       regsBut [opcReg (Off.OPC_CLK c)] s t ∧
       changesOnly [.regs] s t)) ∧
  (∀ (c : Fin 2) (s : State),
     Completes (.ocOk c) s (fun t =>
       regBit t (opcReg (Off.OPC_CLK c)) 2 = true ∧
       regBit t (opcReg (Off.OPC_CLK c)) 0 = regBit s (opcReg (Off.OPC_CLK c)) 0 ∧
       regBit t (opcReg (Off.OPC_CLK c)) 1 = (regBit s (opcReg (Off.OPC_CLK c)) 0 || regBit s (opcReg (Off.OPC_CLK c)) 1) ∧
       regsBut [opcReg (Off.OPC_CLK c)] s t ∧
       changesOnly [.regs] s t)) ∧
  (∀ (s : State),
     Completes (.hrpRst) s (fun t =>
       t.hrpQ = [] ∧ t.hrpOut = [] ∧ t.dbgQ = s.dbgQ ∧ t.dbgOut = s.dbgOut ∧ t.coreOut = s.coreOut ∧
       t.reg (mtxReg Off.MTX_RST_CUT_CNT) = (if s.hrpQ.any (fun q => q.ans.isNone && decide (1 ≤ q.len)) = true
                                             then (s.reg (mtxReg Off.MTX_RST_CUT_CNT)).satInc
                                             else s.reg (mtxReg Off.MTX_RST_CUT_CNT)) ∧
       regsBut [mtxReg Off.MTX_RST_CUT_CNT] s t ∧
       ((List.range 64).all (fun u => decide ((t.tmc u) = { s.tmc u with
         q := (s.tmc u).q.filter (fun x => decide (x.via ≠ .mem .hrp)) })) = true) ∧
       t.heldWrites = s.heldWrites.filter (fun h => decide (h.ack.map (fun x => x.1) ≠ some .hrp)) ∧
       t.posted = s.posted ∧
       changesOnly [.ports, .regs, .tmcs, .matrix] s t)) ∧
  (∀ (s : State),
     Completes (.dbgRst) s (fun t =>
       t.dbgQ = [] ∧ t.dbgOut = [] ∧ t.hrpQ = s.hrpQ ∧ t.hrpOut = s.hrpOut ∧ t.coreOut = s.coreOut ∧
       t.reg (mtxReg Off.MTX_RST_CUT_CNT) = (if s.dbgQ.any (fun q => q.ans.isNone && decide (1 ≤ q.len)) = true
                                             then (s.reg (mtxReg Off.MTX_RST_CUT_CNT)).satInc
                                             else s.reg (mtxReg Off.MTX_RST_CUT_CNT)) ∧
       regsBut [mtxReg Off.MTX_RST_CUT_CNT] s t ∧
       ((List.range 64).all (fun u => decide ((t.tmc u) = { s.tmc u with
         q := (s.tmc u).q.filter (fun x => decide (x.via ≠ .mem .dbg)) })) = true) ∧
       t.heldWrites = s.heldWrites.filter (fun h => decide (h.ack.map (fun x => x.1) ≠ some .dbg)) ∧
       t.posted = s.posted ∧
       changesOnly [.ports, .regs, .tmcs, .matrix] s t))

/-- A requested reset of an NI empties it, adds 1 to its epoch, keeps EN, resynchronises its port of the router
and is counted; the bridge's NI publishes its handles again (the model's choice of the moment, log entry 40). A
core reset is counted, discards what the core has issued and is not carried out, and leaves the core running when
nothing holds it; core 0 starts the loader again while the boot window is the boot ROM (log entry 27). TILE_RST
refills the router registers from a router of its row, empties the router and its controller's requests from the
fabric, keeps the memory and is counted. FAB_RST keeps the always-on registers, memory but for the lock tables,
which it zeroes, FT and fuses, and sets every other register to its reset value; its release senses the fuses, and
begins a scan whose request still stands. Log entries 6, 16, 25 and 26 name what the rules leave to the model
here. VDD_AON and the main rail act as their rules say, and lost memory reads 0 (log entry 5); a window end clears
the wire trackers. -/
def Obligations.Resets : Prop :=
  (∀ (n : NiId) (rest : List HeldReset) (s : State),
     takeFirst (fun q => decide (q = .ni n.idx)) s.rstReq = some (.ni n.idx, rest) →
     niLate s n.idx = false →
     n.idx % 7 ≠ 5 →
     n.idx ≠ niOf 56 6 ∨ extEn s = false →
     Completes (.niRst n) s (fun t =>
       (t.ni n.idx).oq = [] ∧ (t.ni n.idx).held = [] ∧ (t.ni n.idx).outst = [] ∧ (t.ni n.idx).bar = none
         ∧ (t.ni n.idx).openP = [] ∧ (t.ni n.idx).eject = [] ∧
       (t.ni n.idx).inb = [] ∧ (t.ni n.idx).cell = none ∧ (t.ni n.idx).rsv = none ∧ (t.ni n.idx).handles = []
         ∧ (t.ni n.idx).credits = [] ∧ (t.ni n.idx).free = [] ∧
       (t.ni n.idx).grants = [] ∧ (t.ni n.idx).parked = [] ∧ (t.ni n.idx).standing = [] ∧ (t.ni n.idx).cache = []
         ∧ (t.ni n.idx).hold = [] ∧ (t.ni n.idx).strobes = [] ∧
       ((t.ni n.idx).stage.all (fun e => decide (e.ch = .own)) = true) ∧
       (t.ni n.idx).urst = (s.ni n.idx).urst ∧ (t.ni n.idx).draining = false ∧ (t.ni n.idx).drained = false ∧
       getFld t (niReg n.idx Off.NI_EPOCH) 0 8 = (getFld s (niReg n.idx Off.NI_EPOCH) 0 8 + 1) % 256 ∧
       niEn t n.idx = niEn s n.idx ∧
       (∀ o, o < 0x800 → o ≠ Off.NI_CTRL → o ≠ Off.NI_EPOCH → o ≠ Off.NI_SPRAY_SEED → t.reg (niReg n.idx o) = resetValue (niReg n.idx o)) ∧
       t.reg (niReg n.idx Off.NI_SPRAY_SEED) = natW (nodeOf s n.idx) ∧
       getFld t (mtxReg Off.MTX_RST_CNT) 12 12 = (getFld s (mtxReg Off.MTX_RST_CNT) 12 12 + 1) % 4096 ∧
       t.rstReq = rest ∧
       t.heldResets = s.heldResets ∧
       changesOnly [.regs, .nis, .resets, .routers, .tmcs, .log, .fanfare, .firmware] s t ∧
       t = { s with regs := t.regs, nis := t.nis, routers := t.routers, tmcs := t.tmcs, rstReq := rest, evq := t.evq,
                    evLost := t.evLost, evLostFirst := t.evLostFirst, evLostLast := t.evLostLast, losts := t.losts,
                    checkDue := t.checkDue })) ∧
  (∀ (n : NiId) (rest : List HeldReset) (s : State),
     takeFirst (fun q => decide (q = .ni n.idx)) s.rstReq = some (.ni n.idx, rest) →
     n.idx % 7 ≠ 5 →
     (s.ni n.idx) = {} →
     n.idx ≠ niOf 56 6 ∨ extEn s = false →
     Completes (.niRst n) s (fun t =>
       (t.ni n.idx) = {} ∧
       nisBut n.idx s t ∧
       resyncOf t (n.idx / 7) (16 + n.idx % 7) = some { port := 16 + n.idx % 7, half := routerHalf s (n.idx / 7), stopped := portStopped s (n.idx / 7) (16 + n.idx % 7) } ∧
       routersBut [n.idx / 7] s t ∧
       (List.range 64).all (fun u => decide (t.tmc u = s.tmc u)) = true ∧
       regsBut ((List.range 0x800).map (fun o => niReg n.idx o) ++ [mtxReg Off.MTX_RST_CNT, evlReg Off.EVL_IRQ_PEND,
                                                                    evlReg (Off.EVL_UINT_LO 0),
                                                                    evlReg (Off.EVL_UINT_HI 0),
                                                                    evlReg (Off.EVL_UINT_LO 1),
                                                                    evlReg (Off.EVL_UINT_HI 1),
                                                                    evlReg (Off.EVL_UINT_LO 2),
                                                                    evlReg (Off.EVL_UINT_HI 2),
                                                                    evlReg (Off.EVL_UINT_LO 3),
                                                                    evlReg (Off.EVL_UINT_HI 3)]) s t ∧
       t = { s with regs := t.regs, nis := t.nis, routers := t.routers, rstReq := rest, checkDue := t.checkDue })) ∧
  (∀ (c : Fin 2) (s : State),
     (s.core c).rstReq = true →
     (s.ni (if c.val = 0 then 6 else 447)) = {} →
     haltAsked s c = false →
     Completes (.opcRst c) s (fun t =>
       t.core c = { s.core c with
         run := coreMayRun s c, halted := false, wq := [], rstReq := false,
         dead := if activeCore s = c.val ∧ 2 ≤ fwMode s ∧ ¬(c = 0 ∧ bootSel s = false) then 3 else (s.core c).dead,
         backFt := if coreMayRun s c = true ∧ failedCore s c = true then some (ftNow s) else (s.core c).backFt } ∧
       (c = 0 → bootSel s = false → fwMode t = 0 ∧ t.running = none ∧ t.hdrs = [] ∧ t.session = none ∧ t.imgCheck = none) ∧
       (¬(c = 0 ∧ bootSel s = false) → fwMode t = fwMode s ∧ pieceKept s t .firmware) ∧
       coresBut c s t ∧
       getFld t (mtxReg Off.MTX_RST_CNT) 24 12 = (getFld s (mtxReg Off.MTX_RST_CNT) 24 12 + 1) % 4096 ∧
       getFld t (opcReg (Off.OPC_CLK c)) 0 2 = 0 ∧
       ((List.range 0x50).all (fun o => decide (t.reg (guardReg (448 + c) o) = resetValue (guardReg (448
                                                                                                     + c) o))) = true) ∧
       t.reg (mtxReg Off.MTX_RST_CUT_CNT) = (if s.tmcs.any (fun e => e.2.q.any (fun q =>
           decide (q.via = .mem (.core c)) && decide (2 ≤ q.pkt.cnt))) = true
         then (s.reg (mtxReg Off.MTX_RST_CUT_CNT)).satInc else s.reg (mtxReg Off.MTX_RST_CUT_CNT)) ∧
       ((List.range 64).all (fun u => decide ((t.tmc u) = { s.tmc u with
         q := (s.tmc u).q.filter (fun x => decide (x.via ≠ .mem (.core c))) })) = true) ∧
       t.heldWrites = (s.heldWrites.filter (fun h => decide (h.ack.map (fun x => x.1) ≠ some (.core c)))).filter
         (fun h => decide (h.node ≠ coreNode s c)) ∧
       t.posted = s.posted ∧
       changesOnly [.cores, .regs, .nis, .tmcs, .matrix, .firmware] s t)) ∧
  (∀ (u : Fin 64) (w : Nat) (rest : List HeldReset) (s : State),
     takeFirst (fun q => decide (q = .tile u.val)) s.rstReq = some (.tile u.val, rest) →
     tileLate s u = false →
     taVtrans s u = false →
     tileDark s u = false →
     refillFrom s u = some w →
     Completes (.tileRst u) s (fun t =>
       (t.rt u).inq = [] ∧ (t.rt u).trail = [] ∧
       (t.tmc u).resv = [] ∧ (t.tmc u).q.all (fun r => decide (r.via ≠ .fabric)) = true
         ∧ (t.tmc u).mig = none ∧ (t.tmc u).migWait = [] ∧
       (copiedOffs.all (fun o => decide (t.reg (rtrReg u o) = s.reg (rtrReg w o))) = true) ∧
       getFld t (mtxReg Off.MTX_RST_CNT) 0 12 = (getFld s (mtxReg Off.MTX_RST_CNT) 0 12 + 1) % 4096 ∧
       t.rstReq = rest ∧
       wordsBut (((s.tmc u).q.filter isEntry).map (fun r => tmemAddr u (r.pkt.addr % 0x20000))) s t ∧
       t.nextId = s.nextId ∧ t.freeN = s.freeN + (if (s.ta u).turn.isSome = true then 1 else 0) ∧
       t.running = s.running ∧ t.tickets = s.tickets ∧ t.jobs = s.jobs ∧ t.pendMap = s.pendMap ∧ t.shadows = s.shadows ∧
       tmcsBut u s t ∧
       agentsBut u s t ∧
       changesOnly [.regs, .mem, .nis, .routers, .tmcs, .agents, .cores, .ids, .fanfare, .firmware, .resets, .log] s t)) ∧
  (∀ (s : State),
     Completes (.fabRstAssert) s (fun t =>
       t.inReset = true ∧ t.postRun = true ∧ t.safe = false ∧ t.scanOn = false ∧ t.braceOn = false ∧
       (s.regs.all (fun e => isAon e.1 == false || decide (t.reg e.1 = s.reg e.1)) = true) ∧
       (∀ a, isAon a = false → a ≠ pwrReg Off.PWR_STAT → a ≠ mtxReg Off.MTX_RST_CAUSE → t.reg a = resetValue a) ∧
       t.nis = [] ∧ t.routers = [] ∧ t.tmcs = [] ∧ t.agents = [] ∧ t.slots = [] ∧
       (∀ c < 2, t.core c = { State.reset.core c with haltReq := (s.core c).haltReq }) ∧
       t.warn = s.warn ∧ t.scanReq = s.scanReq ∧
       t.launches = [] ∧ t.hrpQ = [] ∧ t.dbgQ = [] ∧ t.posted = [] ∧ t.evq = [] ∧
       t.ft = s.ft ∧ t.fc = 0 ∧
       (∀ a, t.word a = (if inLockTable a = true then 0 else s.word a)) ∧
       (∀ a, isPoison t a = (isPoison s a && !inLockTable a)) ∧
       t.fuses = s.fuses ∧ t.fusesSensed = s.fusesSensed ∧ t.fuseDr = 0 ∧
       pieceKept s t .queue)) ∧
  (∀ (s : State),
     s.inReset = true →
     s.scanReq = false →
     Completes (.fabRst) s (fun t =>
       t.inReset = false ∧ t.onCell = false ∧ t.aonLost = false ∧
       t.fusesSensed = s.fuses ∧ t.fuses = s.fuses ∧
       t.ft = (if s.aonLost = true then 0 else s.ft) ∧
       regBit t (mtxReg Off.MTX_RST_CAUSE) 0 = !s.aonLost ∧
       regBit t (mtxReg Off.MTX_RST_CAUSE) 1 = regBit s (pwrReg Off.PWR_STAT) 4 ∧
       ((List.range 12).all (fun j => decide (t.reg (opcReg (Off.OPC_KEY_SHADOW 0 j)) = keyWord s.fuses 0 j
                                              ∧ t.reg (opcReg (Off.OPC_KEY_SHADOW 1 j)) = keyWord s.fuses 1 j)) = true) ∧
       changesOnly [.regs, .mode, .fuses, .time] s t)) ∧
  (∀ (s : State),
     Completes (.vddAonUp) s (fun t =>
       (∀ a, isAon a = true → t.reg a = resetValue a) ∧
       t.ft = 0 ∧ t.aonLost = true ∧ t.onCell = false ∧
       regBit t (pwrReg Off.PWR_STAT) 4 = false ∧
       (∀ a, isAon a = false → a ≠ pwrReg Off.PWR_STAT → t.reg a = s.reg a) ∧
       t.inReset = s.inReset ∧ t.postRun = s.postRun ∧ t.safe = s.safe ∧ t.scanOn = s.scanOn ∧
       changesOnly [.regs, .time, .mode] s t)) ∧
  (∀ (s : State),
     Completes (.backup) s (fun t =>
       t.inReset = true ∧ t.onCell = true ∧
       t.mem = [] ∧ t.poison = [] ∧
       regBit t (pwrReg Off.PWR_STAT) 4 = true ∧
       t.ft = s.ft ∧ t.fuses = s.fuses ∧
       (s.regs.all (fun e => isAon e.1 == false || decide (t.reg e.1 = s.reg e.1)) = true) ∧
       t.nis = [] ∧ t.routers = [] ∧ t.tmcs = [] ∧ t.agents = [] ∧ t.slots = [] ∧
       (∀ c < 2, t.core c = { State.reset.core c with haltReq := (s.core c).haltReq }) ∧
       t.warn = s.warn ∧ t.scanReq = s.scanReq)) ∧
  (∀ (s : State),
     Completes (.lnkWinEnd) s (fun t =>
       ((List.range 64).all (fun u => [0,
                                       1].all (fun h => (List.range 16).all (fun j => decide (t.reg (slcReg u h (Off.LNK_CE_TRK j)) = resetValue (slcReg u h (Off.LNK_CE_TRK j)))))) = true) ∧
       (∀ a, (∀ u < 64, ∀ h < 2, ∀ j < 16, a ≠ slcReg u h (Off.LNK_CE_TRK j)) → t.reg a = s.reg a) ∧
       changesOnly [.regs] s t)) ∧
  (∀ (s : State),
     s.inReset = true →
     s.scanReq = true →
     Completes (.fabRst) s (fun t =>
       t.inReset = false ∧ t.fusesSensed = s.fuses ∧ t.fuses = s.fuses ∧
       t.scanOn = true ∧ t.safe = true ∧
       regBit t (bstReg Off.BST_ZERO_STAT) 3 = true ∧
       (t.core 0).run = false ∧ (t.core 1).run = false ∧
       t.pending = s.pending ∧ t.mem = s.mem)) ∧
  (∀ (n : NiId) (rest : List HeldReset) (s : State),
     takeFirst (fun q => decide (q = .ni n.idx)) s.rstReq = some (.ni n.idx, rest) →
     niLate s n.idx = false →
     n.idx = niOf 56 6 →
     extEn s = true →
     Completes (.niRst n) s (fun t =>
       (t.ni n.idx).free = [{ first := 0, len := 16 }] ∧
       (t.ni n.idx).handles = [] ∧ (t.ni n.idx).grants = [] ∧ (t.ni n.idx).outst = [] ∧ (t.ni n.idx).eject = [] ∧
       t.rstReq = rest ∧
       t.heldResets = s.heldResets))

/-- Where the register has a target and no tile must wake, UPD holds the guard; EN = 1 with UPD = 0 runs the
overlap check, which records and raises the lowest pair of regions that share a word; EN = 0 opens the guard. A
region register is written while EN = 0; with EN = 1 it stays and LIVEWR is set. A hold that lasts too long is
ended by the NI, with UPD_TO. -/
def Obligations.GuardsWritten : Prop :=
  (∀ (g : GuardId) (s : State),
     awake s (guardReg (guardNum g) Off.GRD_CTRL) = true →
     coresIdle s →
     headersRead s = true →
     Completes (.grdUpdateHold g) s (fun t =>
       t.reg (guardReg (guardNum g) Off.GRD_CTRL) = 2 ∧
       regsBut [guardReg (guardNum g) Off.GRD_CTRL] s t ∧
       changesOnly [.regs] s t)) ∧
  (∀ (g : GuardId) (s : State),
     overlapPair s (guardNum g) = none →
     (s.ni (if (guardNum g) < 448 then (guardNum g) else if (guardNum g) = 448 then 6 else 447)).held = [] →
     (s.ni (if (guardNum g) < 448 then (guardNum g) else if (guardNum g) = 448 then 6 else 447)).oq = [] →
     awake s (guardReg (guardNum g) Off.GRD_CTRL) = true →
     coresIdle s →
     headersRead s = true →
     Completes (.grdEnable g) s (fun t =>
       t.reg (guardReg (guardNum g) Off.GRD_CTRL) = 1 ∧
       t.reg (guardReg (guardNum g) Off.GRD_STAT) = 0 ∧
       regsBut [guardReg (guardNum g) Off.GRD_CTRL, guardReg (guardNum g) Off.GRD_STAT] s t ∧
       changesOnly [.regs] s t)) ∧
  (∀ (g : GuardId) (a : Nat) (b : Nat) (s : State),
     overlapPair s (guardNum g) = some (a, b) →
     (s.ni (if (guardNum g) < 448 then (guardNum g) else if (guardNum g) = 448 then 6 else 447)).held = [] →
     (s.ni (if (guardNum g) < 448 then (guardNum g) else if (guardNum g) = 448 then 6 else 447)).oq = [] →
     awake s (guardReg (guardNum g) Off.GRD_CTRL) = true →
     coresIdle s →
     eventPasses s (.ni (guardNi (guardNum g))) →
     headersRead s = true →
     Completes (.grdEnable g) s (fun t =>
       t.reg (guardReg (guardNum g) Off.GRD_CTRL) = 1 ∧
       t.reg (guardReg (guardNum g) Off.GRD_STAT) = (W.at 2 1 1 ||| W.at 4 4 a ||| W.at 8 4 b) ∧
       regBit t (guardReg (guardNum g) Off.GRD_ERR) 2 = true ∧
       regsBut [guardReg (guardNum g) Off.GRD_CTRL, guardReg (guardNum g) Off.GRD_STAT,
                guardReg (guardNum g) Off.GRD_ERR] s t ∧
       changesOnly [.regs, .log] s t)) ∧
  (∀ (g : GuardId) (s : State),
     (s.ni (if (guardNum g) < 448 then (guardNum g) else if (guardNum g) = 448 then 6 else 447)).held = [] →
     (s.ni (if (guardNum g) < 448 then (guardNum g) else if (guardNum g) = 448 then 6 else 447)).oq = [] →
     awake s (guardReg (guardNum g) Off.GRD_CTRL) = true →
     coresIdle s →
     headersRead s = true →
     Completes (.grdDisable g) s (fun t =>
       t.reg (guardReg (guardNum g) Off.GRD_CTRL) = 0 ∧
       regsBut [guardReg (guardNum g) Off.GRD_CTRL] s t ∧
       changesOnly [.regs] s t)) ∧
  (∀ (g : GuardId) (k : Fin 16) (f : RegionWord) (v : W) (s : State),
     grdEn s (guardNum g) = false →
     awake s (guardReg (guardNum g) (regionOff k f)) = true →
     Completes (.grdRegionWrite g k f v) s (fun t =>
       t.reg (guardReg (guardNum g) (regionOff k f)) = (if f = .perm then W.at 0 4 (v.fld 0 (if (guardNum g) < 448
                                                                                             then 3 else 4))
                                                        else v) ∧
       regsBut [guardReg (guardNum g) (regionOff k f)] s t ∧
       changesOnly [.regs] s t)) ∧
  (∀ (g : GuardId) (k : Fin 16) (f : RegionWord) (v : W) (s : State),
     grdEn s (guardNum g) = true →
     awake s (guardReg (guardNum g) (regionOff k f)) = true →
     eventPasses s (.ni (guardNi (guardNum g))) →
     Completes (.grdRegionWrite g k f v) s (fun t =>
       regBit t (guardReg (guardNum g) Off.GRD_ERR) 3 = true ∧
       regsBut [guardReg (guardNum g) Off.GRD_ERR] s t ∧
       changesOnly [.regs, .log] s t)) ∧
  (∀ (n : NiId) (s : State),
     grdUpd s n.idx = true →
     overlapPair s n.idx = none →
     (s.ni n.idx).held = [] →
     (s.ni n.idx).oq = [] →
     regBit s (guardReg n.idx Off.GRD_ERR_MASK) 4 = false →
     eventPasses s (.ni n.idx) →
     Completes (.grdUpdTo n) s (fun t =>
       t.reg (guardReg n.idx Off.GRD_CTRL) = 1 ∧
       regBit t (guardReg n.idx Off.GRD_ERR) 4 = true ∧
       t.reg (guardReg n.idx Off.GRD_STAT) = 0 ∧
       logs s t (mkEv (ftNow s) (nodeOf s n.idx) EvC.GUARD_UPD_TO []) ∧
       regsBut [guardReg n.idx Off.GRD_CTRL, guardReg n.idx Off.GRD_ERR, guardReg n.idx Off.GRD_STAT] s t ∧
       changesOnly [.regs, .log] s t)) ∧
  (∀ (g : GuardId) (k : Fin 16) (f : RegionWord) (v : W) (a : Nat) (s : State) (c : Instr),
     c = .grdUpdateHold g ∧ a = guardReg (guardNum g) Off.GRD_CTRL ∨ c = .grdEnable g ∧ a = guardReg (guardNum g) Off.GRD_CTRL ∨
       c = .grdDisable g ∧ a = guardReg (guardNum g) Off.GRD_CTRL ∨ c = .grdRegionWrite g k f v ∧ a = guardReg (guardNum g) (regionOff k f) →
     target s a = none →
     Completes c s (fun t =>
       missNoted s t (hrpNode s) true .matrix a ∧
       regsBut [mtxReg Off.MTX_DECODE_MISS, mtxReg Off.MTX_DECODE_FIRST, mtxReg Off.MTX_DECODE_ADDR] s t ∧
       changesOnly [.regs] s t))

/-- A tc edge adds 8 to fc and INC to FT, and gives the written profile to a tile that has not taken it (the
model's choice of the moment, log entry 2); on the backup cell a tick adds 1/32,768 s. FT wraps at 2^36 s. A beat
takes INC from FADJ. The first beat after the cold start lets TIM_VLD rise. A phase step is issued 64 tc ahead and
adds its offset at its edge, the first of the steps whose edge has come; launches that it passes wait 128 tc,
those that stood late move by the size of a backward step, and the edge of a launch that has been issued is found
again (log entry 20). A snapshot and a pulse copy FT; a calibration keeps the delays, and every 64th the largest
residual (log entry 21). -/
def Obligations.FabricTimeRuns : Prop :=
  (∀ (s : State),
     holdover s = false →
     s.profDue = [] →
     Completes (.tcEdge) s (fun t =>
       t = { s with fc := s.fc + 8, ft := (s.ft + (s.reg (tkReg Off.TK_INC)).toNat) % (2 ^ 36 * ftSec * 2 ^ 24) })) ∧
  (∀ (s : State),
     holdover s = true →
     Completes (.holdoverTick) s (fun t =>
       t = { s with ft := (s.ft + 1953125 * 2 ^ 24) % (2 ^ 36 * ftSec * 2 ^ 24) })) ∧
  (∀ (s : State),
     tkDrives s = true →
     Completes (.beat) s (fun t =>
       t.reg (tkReg Off.TK_INC) = natW ((0xD5555555 : Int)
                                        + 0xD5555555 * signedOf ((s.reg (tkReg Off.TK_FADJ)).fld 0 32) 32 / 2 ^ 32).toNat ∧
       regsBut [tkReg Off.TK_INC] s t ∧
       t = { s with regs := t.regs, timWait := false, timDue := [] })) ∧
  (∀ (u : Fin 64) (r0 : BitVec 16) (r1 : BitVec 16) (x : BitVec 12) (s : State),
     tkDrives s = true ∨ s.tkNone = true ∧ holdover s = false →
     s.calN < 63 →
     Completes (.treeCalibrate u r0 r1 x) s (fun t =>
       t.reg (tkReg (Off.TK_TREE_DLY u)) = (W.at 0 16 (r0.toNat * 20 / 3) ||| W.at 16 16 (r1.toNat * 20 / 3)) ∧
       regsBut [tkReg (Off.TK_TREE_DLY u)] s t ∧
       t = { s with regs := t.regs, calDue := s.calDue - 1, calN := s.calN + 1, calMax := max s.calMax x.toNat })) ∧
  (∀ (u : Fin 64) (r0 : BitVec 16) (r1 : BitVec 16) (x : BitVec 12) (s : State),
     tkDrives s = true ∨ s.tkNone = true ∧ holdover s = false →
     63 ≤ s.calN →
     Completes (.treeCalibrate u r0 r1 x) s (fun t =>
       t.reg (tkReg (Off.TK_TREE_DLY u)) = (W.at 0 16 (r0.toNat * 20 / 3) ||| W.at 16 16 (r1.toNat * 20 / 3)) ∧
       t.reg (tkReg Off.TK_TREE_SKEW) = W.at 0 12 (max s.calMax x.toNat) ∧
       regsBut [tkReg (Off.TK_TREE_DLY u), tkReg Off.TK_TREE_SKEW] s t ∧
       t = { s with regs := t.regs, calDue := s.calDue - 1, calN := 0, calMax := 0 })) ∧
  (∀ (v : W) (s : State),
     fstate s ≠ 2 →
     braced s = false →
     Completes (.tkFadj v) s (fun t =>
       t.reg (tkReg Off.TK_FADJ) = fadjClamp v ∧
       regsBut [tkReg Off.TK_FADJ] s t ∧
       changesOnly [.regs] s t)) ∧
  (∀ (v : W) (s : State),
     s.tkNone = false →
     fstate s ≠ 2 →
     braced s = false →
     Completes (.tkPstep v) s (fun t =>
       t = { s with steps := s.steps ++ [(max (-(2 ^ 35 - 1)) (signedOf v.toNat 36), s.fc / 8 + 64)] })) ∧
  (∀ (d : Int) (e : Nat) (rest : List (Int × Nat)) (s : State),
     takeFirst (fun x => decide (x.2 ≤ s.fc / 8)) s.steps = some ((d, e), rest) →
     (s.launches.map (fun l => l.fid)).Nodup →
     (∀ l ∈ s.launches, l.edge.all (fun x => decide (x ≤ s.fc / 8)) = true) →
     Completes (.stepEdge) s (fun t =>
       t.ft = ((s.ft : Int) + d * 2 ^ 24).toNat % (2 ^ 36 * ftSec * 2 ^ 24) ∧
       t.launches = s.launches.map (fun l => if decide (l.lt ≤ ftNow t) && decide (ftNow s < l.lt)
                                    then { l with minEdge := max l.minEdge (s.fc / 8 + 128) } else l) ∧
       t = { s with ft := t.ft, launches := t.launches, steps := rest })) ∧
  (∀ (s : State),
     fstate s ≠ 2 →
     braced s = false →
     Completes (.tkSnap) s (fun t =>
       t.reg (tkReg Off.TK_SNAP_H) = ftHi (ftNow s) ∧
       t.reg (tkReg Off.TK_SNAP_L) = ftLo (ftNow s) ∧
       regsBut [tkReg Off.TK_SNAP_H, tkReg Off.TK_SNAP_L] s t ∧
       changesOnly [.regs] s t)) ∧
  (∀ (sub : Fin 16) (s : State),
     regBit s (tkReg Off.TK_CTRL) 0 = true →
     regBit s (tkReg Off.TK_CTRL) 2 = false →
     s.tkNone = false →
     holdover s = false →
     s.reg (tkReg Off.TK_PPS_COMP) = 0 →
     Completes (.ppsEdge sub) s (fun t =>
       t.reg (tkReg Off.TK_PPS_CAP_H) = ftHi ((s.ft + sub.val * incNow s / 16) / 2 ^ 24) ∧
       t.reg (tkReg Off.TK_PPS_CAP_L) = ftLo ((s.ft + sub.val * incNow s / 16) / 2 ^ 24) ∧
       t.reg (tkReg Off.TK_PPS_CNT) = s.reg (tkReg Off.TK_PPS_CNT) + 1 ∧
       regBit t (tkReg Off.TK_STAT) 5 = true ∧
       regsBut [tkReg Off.TK_PPS_CAP_H, tkReg Off.TK_PPS_CAP_L, tkReg Off.TK_PPS_CNT, tkReg Off.TK_STAT] s t ∧
       changesOnly [.regs] s t)) ∧
  (∀ (sub : Fin 16) (s : State),
     regBit s (tkReg Off.TK_CTRL) 0 = true →
     regBit s (tkReg Off.TK_CTRL) 2 = true →
     s.tkNone = false →
     holdover s = false →
     Completes (.ppsEdge sub) s (fun t =>
       t.steps = s.steps ++ [(((s.reg (tkReg Off.TK_PPS_SET)).toNat * ftSec : Int) - (ftAtEdge s (s.fc / 8
                                                                                                  + 1) : Int),
                              s.fc / 8 + 1)] ∧
       regBit t (tkReg Off.TK_CTRL) 2 = false ∧
       t.reg (tkReg Off.TK_PPS_CNT) = s.reg (tkReg Off.TK_PPS_CNT) + 1 ∧
       regsBut [tkReg Off.TK_PPS_CAP_H, tkReg Off.TK_PPS_CAP_L, tkReg Off.TK_PPS_CNT, tkReg Off.TK_STAT,
                tkReg Off.TK_CTRL] s t ∧
       t = { s with regs := t.regs, steps := t.steps })) ∧
  (∀ (u : Nat) (rest : List Nat) (s : State),
     holdover s = false →
     s.profDue = u :: rest →
     taVtrans s u = false →
     Completes (.tcEdge) s (fun t =>
       t.fc = s.fc + 8 ∧ t.ft = (s.ft + (s.reg (tkReg Off.TK_INC)).toNat) % (2 ^ 36 * ftSec * 2 ^ 24) ∧
       (t.ta u).prof = getFld s (pwrReg Off.PWR_PROFILE) 0 2 ∧
       u ∉ t.profDue ∧ (∀ v ∈ t.profDue, v ∈ rest) ∧
       t.freeN = s.freeN + 2 ∧ t.nextId = s.nextId ∧
       changesOnly [.time, .agents, .regs, .routers, .log, .ids] s t)) ∧
  (∀ (d : Int) (e : Nat) (x : Nat) (m : Nat) (l : Launch) (rest : List (Int × Nat)) (s : State),
     takeFirst (fun x => decide (x.2 ≤ s.fc / 8)) s.steps = some ((d, e), rest) →
     s.launches = [l] →
     l.edge = some x →
     s.fc / 8 < x →
     s.braces = [] →
     m = (if ftNow s < l.lt ∧ l.lt ≤ ((s.ft : Int) + d * 2 ^ 24).toNat % (2 ^ 36 * ftSec * 2 ^ 24) / 2 ^ 24
         then max l.minEdge (s.fc / 8 + 128)
       else if x ≤ edgeOf s l.lt then l.minEdge
       else if d < 0 then max l.minEdge (x + ceilDiv (d.natAbs * 2 ^ 24) (incNow s))
       else if l.lt ≤ ftNow s then max l.minEdge x else l.minEdge) →
     Completes (.stepEdge) s (fun t =>
       t.ft = ((s.ft : Int) + d * 2 ^ 24).toNat % (2 ^ 36 * ftSec * 2 ^ 24) ∧
       t.launches = [{ l with
         minEdge := m,
         edge := some (launchEdgeOf { s with ft := t.ft, steps := rest } { l with minEdge := m } 0) }] ∧
       t = { s with ft := t.ft, launches := t.launches, steps := rest }))

/-- A switchover begins when it is asked for and the standby is in step, and is refused and logged otherwise; the
write of TK_CTRL that asks for it leaves the register's other fields, and reserved bits read zero; a missing beat
begins one unasked, whether or not the standby is in step. When it is done the other Time Keeper is active, after
an unasked one a calibration round falls due, the switch is counted and logged. A tile that loses both reports it,
an armed fanfare ends ABORTED with REASON LOST, its launch and its entries gone, and no Time Keeper is then active
until one is in step again. A standby, or the first Time Keeper that comes back, is in step only once the
calibration round is done. The alarm fires when FT has passed its time. -/
def Obligations.TimeKeepersSwitch : Prop :=
  (∀ (s : State),
     stbyOk s = true →
     s.tkNone = false →
     switching s = false →
     fstate s ≠ 2 →
     braced s = false →
     Completes (.tkSwitchWrite) s (fun t =>
       t.reg (tkReg Off.TK_STAT) = (s.reg (tkReg Off.TK_STAT)).put 2 1 1 ∧
       t.reg (tkReg Off.TK_CTRL) = W.at 0 3 ((s.reg (tkReg Off.TK_CTRL)).fld 0 3) ∧
       regsBut [tkReg Off.TK_STAT, tkReg Off.TK_CTRL] s t ∧
       t = { s with regs := t.regs, tkUnasked := false })) ∧
  (∀ (s : State),
     (stbyOk s = false ∨ s.tkNone = true) →
     s.evq.length < 16 →
     fstate s ≠ 2 →
     braced s = false →
     Completes (.tkSwitchWrite) s (fun t =>
       logs s t (mkEv (ftNow s) (nodeTP s 0 7) EvC.SWITCH_REFUSED []) ∧
       t.reg (tkReg Off.TK_CTRL) = W.at 0 3 ((s.reg (tkReg Off.TK_CTRL)).fld 0 3) ∧
       regsBut [tkReg Off.TK_CTRL] s t ∧
       changesOnly [.log, .regs] s t)) ∧
  (∀ (s : State),
     s.tkDead.testBit (1 - activeTk s) = false →
     s.tkNone = false →
     switching s = false →
     Completes (.beatMissing) s (fun t =>
       t.reg (tkReg Off.TK_STAT) = (s.reg (tkReg Off.TK_STAT)).put 2 1 1 ∧
       regsBut [tkReg Off.TK_STAT] s t ∧
       t = { s with regs := t.regs, tkUnasked := true })) ∧
  (∀ (s : State),
     switching s = true →
     s.tkUnasked = false →
     s.evq.length < 16 →
     Completes (.switchoverDone) s (fun t =>
       t.reg (tkReg Off.TK_STAT) = ((s.reg (tkReg Off.TK_STAT)).put 2 1 0).put 0 1 (1 - activeTk s) ∧
       t.reg (tkReg Off.TK_SW_CNT) = s.reg (tkReg Off.TK_SW_CNT) + 1 ∧
       logs s t (mkEv (ftNow s) (nodeTP s 0 7) EvC.TK_SWITCH []) ∧
       regsBut [tkReg Off.TK_STAT, tkReg Off.TK_SW_CNT] s t ∧
       t = { s with regs := t.regs, evq := t.evq, swEnd := some (s.fc / 8) })) ∧
  (∀ (s : State),
     switching s = true →
     s.tkUnasked = true →
     s.launches = [] →
     Sparse.get (fun _ => none) s.tkBack (activeTk s) = none →
     Completes (.switchoverDone) s (fun t =>
       t.reg (tkReg Off.TK_STAT) = (((s.reg (tkReg Off.TK_STAT)).put 2 1 0).put 0 1 (1 - activeTk s)).put 1 1 0 ∧
       t.reg (tkReg Off.TK_SW_CNT) = s.reg (tkReg Off.TK_SW_CNT) + 1 ∧
       t.tkUnasked = false ∧ t.swEnd = some (s.fc / 8) ∧ t.calDue = 64 ∧ t.tkDead = s.tkDead ∧ t.tkNone = s.tkNone ∧ t.ft = s.ft ∧ t.fc = s.fc ∧
       regsBut [tkReg Off.TK_STAT, tkReg Off.TK_SW_CNT] s t ∧
       changesOnly [.regs, .log, .time] s t)) ∧
  (∀ (u : Fin 64) (s : State),
     switching s = false →
     holdover s = false →
     (s.ta u).tkLost = false →
     (∀ k < 8, slotArmed s k = false) →
     s.tkNone = false →
     s.evq.length < 16 →
     Completes (.tkLostBoth u) s (fun t =>
       (t.ta u) = { (s.ta u) with tkLost := true } ∧
       t.tkNone = true ∧
       t.reg (tkReg Off.TK_STAT) = (s.reg (tkReg Off.TK_STAT)).put 1 1 0 ∧
       logs s t (mkEv (ftNow s) (nodeTP s u 5) EvC.TK_LOST_BOTH []) ∧
       agentsBut u s t ∧
       regsBut [tkReg Off.TK_STAT] s t ∧
       t = { s with regs := t.regs, agents := t.agents, evq := t.evq, tkNone := t.tkNone, calDue := 64 })) ∧
  (∀ (k : Fin 2) (s : State),
     s.tkDead.testBit k.val = false →
     holdover s = false →
     switching s = false →
     s.tkNone = false →
     k.val ≠ activeTk s →
     stbyOk s = false →
     s.calDue = 0 →
     Completes (.tkStbyOk k) s (fun t =>
       t.reg (tkReg Off.TK_STAT) = (s.reg (tkReg Off.TK_STAT)).put 1 1 1 ∧
       regsBut [tkReg Off.TK_STAT] s t ∧
       Sparse.get (fun _ => none) t.tkBack k = some (ftNow s) ∧
       t = { s with regs := t.regs, tkBack := t.tkBack })) ∧
  (∀ (k : Fin 2) (s : State),
     s.tkDead.testBit k.val = false →
     holdover s = false →
     switching s = false →
     s.tkNone = true →
     s.calDue = 0 →
     Completes (.tkStbyOk k) s (fun t =>
       t.reg (tkReg Off.TK_STAT) = (s.reg (tkReg Off.TK_STAT)).put 0 1 k ∧
       regsBut [tkReg Off.TK_STAT] s t ∧
       ((List.range 64).all (fun u => decide (t.ta u = { s.ta u with tkLost := false })) = true) ∧
       Sparse.get (fun _ => none) t.tkBack k = some (ftNow s) ∧
       t = { s with regs := t.regs, agents := t.agents, tkBack := t.tkBack, tkNone := false, calDue := 64 })) ∧
  (∀ (s : State),
     regBit s (tkReg Off.TK_ALARM_CTRL) 0 = true →
     alarmFt s ≤ ftNow s →
     s.onCell = false →
     (fstate s ≠ 2 ∨ regBit s (pwrReg Off.PWR_WAKE_CFG) 0 = false) →
     Completes (.alarm) s (fun t =>
       t.reg (tkReg Off.TK_ALARM_STAT) = (s.reg (tkReg Off.TK_ALARM_STAT)).put 0 1 1 ∧
       t.reg (tkReg Off.TK_ALARM_CTRL) = (s.reg (tkReg Off.TK_ALARM_CTRL)).put 0 1 0 ∧
       regsBut [tkReg Off.TK_ALARM_STAT, tkReg Off.TK_ALARM_CTRL] s t ∧
       changesOnly [.regs] s t)) ∧
  (∀ (s : State),
     regBit s (tkReg Off.TK_ALARM_CTRL) 0 = true →
     alarmFt s ≤ ftNow s →
     s.onCell = false →
     fstate s = 2 →
     regBit s (pwrReg Off.PWR_WAKE_CFG) 0 = true →
     Completes (.alarm) s (fun t =>
       t.reg (tkReg Off.TK_ALARM_STAT) = (s.reg (tkReg Off.TK_ALARM_STAT)).put 0 1 1 ∧
       t.reg (tkReg Off.TK_ALARM_CTRL) = (s.reg (tkReg Off.TK_ALARM_CTRL)).put 0 1 0 ∧
       t.reg (pwrReg Off.PWR_WAKE_CAUSE) = 1 ∧
       t.reg (pwrReg Off.PWR_WAKE_FT_H) = ftHi (ftNow s) ∧
       t.reg (pwrReg Off.PWR_WAKE_FT_L) = ftLo (ftNow s) ∧
       fstate t = 3 ∧
       regsBut [tkReg Off.TK_ALARM_STAT, tkReg Off.TK_ALARM_CTRL, pwrReg Off.PWR_WAKE_CAUSE,
                pwrReg Off.PWR_WAKE_FT_H, pwrReg Off.PWR_WAKE_FT_L, pwrReg Off.PWR_STAT] s t ∧
       changesOnly [.regs] s t)) ∧
  (∀ (u : Fin 64) (k : Fin 8) (s : State),
     switching s = false →
     holdover s = false →
     (s.ta u).tkLost = false →
     s.tkNone = false →
     slotArmed s k = true →
     (∀ j < 8, j ≠ k.val → slotArmed s j = false) →
     Completes (.tkLostBoth u) s (fun t =>
       t.tkNone = true ∧ t.calDue = 64 ∧
       (t.ta u) = { (s.ta u) with tkLost := true } ∧
       slotState t k = SS.ABORTED ∧
       getFld t (slotReg k Off.FNF_STAT) 29 5 = Rsn.LOST ∧
       t.reg (fnfReg Off.FNF_ABORT_CNT) = s.reg (fnfReg Off.FNF_ABORT_CNT) + 1 ∧
       t.launches = s.launches.filter (fun l => decide (l.fid ≠ slotFid s k)) ∧
       (∀ n, n < 448 → (t.ni n).hold = (if n ∈ sentNis (s.slot k)
         then (s.ni n).hold.filter (fun e => decide (e.fid ≠ slotFid s k)) else (s.ni n).hold)) ∧
       (∀ n ∈ sentNis (s.slot k), n < 448 → n % 7 ≠ 5 → populated s n = true → (s.ni n).strobes.length < 8 →
         (s.ni n).hold.any (fun e => decide (e.fid = slotFid s k)) = true →
         (t.ni n).strobes = (s.ni n).strobes ++ [{ apply := false, fid := slotFid s k }]) ∧
       (s.evq.length < 16 → t.evq.take (s.evq.length + 1) =
         s.evq ++ [mkEv (ftNow s) (nodeTP s u 5) EvC.TK_LOST_BOTH []]) ∧
       (∀ j < 8, j ≠ k.val → slotState t j = slotState s j) ∧
       agentsBut u s t ∧
       slotsBut k s t ∧
       changesOnly [.regs, .agents, .slots, .nis, .fanfare, .log, .time, .extension, .ids] s t))

/-- GO or STAGE_ONLY at an idle slot gives it a new FID, checks its list and sends an FSTAGE for each entry in
order, the last of each NI marked. STOP ends a cadence whose next LAUNCH has not been issued. ABORT withdraws a
staging slot by FABRT to every NI with entries, and an armed one through both Time Keepers. A read of the status
in DONE that its master's guard lets, and that is no peek of the debug port, returns the slot to IDLE. -/
def Obligations.FanfareCommands : Prop :=
  (∀ (k : Fin 8) (es : List FEnt) (s : State),
     slotState s k = 0 →
     regBit s (fnfReg Off.FNF_CTRL) 0 = true →
     (checkPass s (getFld s (slotReg k Off.FNF_LEN) 0 13) 0 (s.reg (slotReg k Off.FNF_LIST)).toNat []).1.toOption = some es →
     listAwake s (s.reg (slotReg k Off.FNF_LIST)).toNat (getFld s (slotReg k Off.FNF_LEN) 0 13) = true →
     es.length ≤ 64 →
     s.stageQ = [] →
     s.route = none →
     (∀ e ∈ es, placesHeld s e.ni = 0) →
     fstate s ≠ 2 →
     Completes (.fnfCmdGo k) s (fun t =>
       t.reg (slotReg k Off.FNF_STAT) = (W.at 0 4 1 ||| W.at 4 8 (k.val + 8 * ((s.slot k).gen % 32))) ∧
       (t.slot k) = { gen := ((s.slot k).gen + 1) % 32, stageOnly := false, ticket := (s.slot k).ticket,
                      ents := (markLast es), checked := true,
                      want := (((markLast es).map (fun e => e.ni)).eraseDups).map (fun n => (n,
                                                                                             ((markLast es).filter (fun e => decide (e.ni = n))).length)) } ∧
       (t.ni (coordNi s)).stage = (s.ni (coordNi s)).stage ++ (markLast es).map (fun e =>
         { ch := .own, pkt := { opc := Opc.FSTAGE, dst := nodeOf s e.ni, src := nodeOf s (coordNi s), sc := 6,
                                len := flitsForWords e.data.length - 1, cnt := e.data.length, tag := k.val
                                + 8 * ((s.slot k).gen % 32), flg := b2n (decide (e.data.length = 16))
                                + 2 * b2n e.last, arg := natW e.addr, words := e.data } }) ∧
       t.stageQ = [] ∧
       nisBut (coordNi s) s t ∧
       slotsBut k s t ∧
       regsBut [slotReg k Off.FNF_STAT] s t ∧
       t = { s with regs := t.regs, slots := t.slots, nis := t.nis })) ∧
  (∀ (k : Fin 8) (es : List FEnt) (s : State),
     slotState s k = 0 →
     regBit s (fnfReg Off.FNF_CTRL) 0 = true →
     (checkPass s (getFld s (slotReg k Off.FNF_LEN) 0 13) 0 (s.reg (slotReg k Off.FNF_LIST)).toNat []).1.toOption = some es →
     listAwake s (s.reg (slotReg k Off.FNF_LIST)).toNat (getFld s (slotReg k Off.FNF_LEN) 0 13) = true →
     es.length ≤ 64 →
     s.stageQ = [] →
     s.route = none →
     (∀ e ∈ es, placesHeld s e.ni = 0) →
     fstate s ≠ 2 →
     Completes (.fnfCmdStageOnly k) s (fun t =>
       t.reg (slotReg k Off.FNF_STAT) = (W.at 0 4 1 ||| W.at 4 8 (k.val + 8 * ((s.slot k).gen % 32))) ∧
       (t.slot k) = { gen := ((s.slot k).gen + 1) % 32, stageOnly := true, ticket := (s.slot k).ticket,
                      ents := (markLast es), checked := true,
                      want := (((markLast es).map (fun e => e.ni)).eraseDups).map (fun n => (n,
                                                                                             ((markLast es).filter (fun e => decide (e.ni = n))).length)) } ∧
       (t.ni (coordNi s)).stage = (s.ni (coordNi s)).stage ++ (markLast es).map (fun e =>
         { ch := .own, pkt := { opc := Opc.FSTAGE, dst := nodeOf s e.ni, src := nodeOf s (coordNi s), sc := 6,
                                len := flitsForWords e.data.length - 1, cnt := e.data.length, tag := k.val
                                + 8 * ((s.slot k).gen % 32), flg := b2n (decide (e.data.length = 16))
                                + 2 * b2n e.last, arg := natW e.addr, words := e.data } }) ∧
       t.stageQ = [] ∧
       nisBut (coordNi s) s t ∧
       slotsBut k s t ∧
       regsBut [slotReg k Off.FNF_STAT] s t ∧
       t = { s with regs := t.regs, slots := t.slots, nis := t.nis })) ∧
  (∀ (k : Fin 8) (l : Launch) (s : State),
     slotState s k = 5 →
     findLaunch s (slotFid s k) = some l →
     l.edge = none →
     fstate s ≠ 2 →
     Completes (.fnfCmdStop k) s (fun t =>
       slotState t k = 6 ∧
       t.launches = s.launches.filter (fun g => decide (g.fid ≠ slotFid s k)) ∧
       t.reg (slotReg k Off.FNF_STAT) = (s.reg (slotReg k Off.FNF_STAT)).put 0 4 6 ∧
       regsBut [slotReg k Off.FNF_STAT] s t ∧
       t = { s with regs := t.regs, launches := t.launches })) ∧
  (∀ (k : Fin 8) (l : Launch) (s : State),
     slotState s k = 5 →
     findLaunch s (slotFid s k) = some l →
     l.edge.isSome = true →
     fstate s ≠ 2 →
     Completes (.fnfCmdStop k) s (fun t =>
       (t.slot k) = { (s.slot k) with stopReq := true } ∧
       slotsBut k s t ∧
       changesOnly [.slots] s t)) ∧
  (∀ (k : Fin 8) (s : State),
     (slotState s k = 1 ∨ slotState s k = 3) →
     s.stageQ.filter (fun j => decide (j ≠ k.val)) = [] →
     fstate s ≠ 2 →
     Completes (.fnfCmdAbort k) s (fun t =>
       slotState t k = 7 ∧
       slotReason t k = 5 ∧
       (t.ni (coordNi s)).stage = (s.ni (coordNi s)).stage ++ (sentNis (s.slot k)).map (fun n =>
         { ch := .own, pkt := { opc := Opc.FABRT, dst := nodeOf s n, src := nodeOf s (coordNi s), sc := 6,
                                tag := slotFid s k } }) ∧
       (t.slot k) = { (s.slot k) with todo := [], want := [] } ∧
       t.reg (fnfReg Off.FNF_ABORT_CNT) = s.reg (fnfReg Off.FNF_ABORT_CNT) + 1 ∧
       regsBut [slotReg k Off.FNF_STAT, slotReg k Off.FNF_BAD, fnfReg Off.FNF_ABORT_CNT] s t ∧
       nisBut (coordNi s) s t ∧
       slotsBut k s t ∧
       t.stageQ = [] ∧
       t.launches = s.launches ∧
       changesOnly [.regs, .slots, .nis, .fanfare, .log, .ids] s t)) ∧
  (∀ (k : Fin 8) (s : State),
     slotState s k = 4 →
     fstate s ≠ 2 →
     Completes (.fnfCmdAbort k) s (fun t =>
       (t.ni (coordNi s)).stage = (s.ni (coordNi s)).stage ++
         [{ ch := .own, pkt := { opc := Opc.FABRT, dst := nodeOf s (niOf 0 5), src := nodeOf s (coordNi s),
                                 sc := 6, tag := slotFid s k } },
                                   { ch := .own, pkt := { opc := Opc.FABRT, dst := nodeOf s (niOf 63 5),
                                                          src := nodeOf s (coordNi s), sc := 6,
                                                          tag := slotFid s k } }] ∧
       nisBut (coordNi s) s t ∧
       changesOnly [.nis] s t)) ∧
  (∀ (b : Block) (o : Nat) (r : Row) (k : Fin 8) (s : State),
     s.inReset = false →
     s.hrpQ = [] →
     target s (slotReg k Off.FNF_STAT) = some (b, o, r) →
     slotState s k = 8 →
     coresIdle s →
     Completes (.fnfStatRead k .hrp) s (fun t =>
       t.hrpOut = s.hrpOut ++ [(false, [regView s b o r (s.reg (slotReg k Off.FNF_STAT))])] ∧
       t.reg (slotReg k Off.FNF_STAT) = (s.reg (slotReg k Off.FNF_STAT)).put 0 4 0 ∧
       regsBut [slotReg k Off.FNF_STAT] s t ∧
       t.hrpQ = [] ∧
       t.dbgQ = s.dbgQ ∧ t.dbgOut = s.dbgOut ∧ t.coreOut = s.coreOut ∧
       changesOnly [.ports, .ids, .regs] s t)) ∧
  (∀ (b : Block) (o : Nat) (r : Row) (k : Fin 8) (s : State),
     s.inReset = false →
     s.dbgQ = [] →
     target s (slotReg k Off.FNF_STAT) = some (b, o, r) →
     slotState s k = 8 →
     coresIdle s →
     Completes (.fnfStatRead k .dbg) s (fun t =>
       t.dbgOut = s.dbgOut ++ [(St.OK, [regView s b o r (s.reg (slotReg k Off.FNF_STAT))])] ∧
       t.reg (slotReg k Off.FNF_STAT) = (if regBit s (dbgReg Off.DBG_PEEK) 0 = true then s.reg (slotReg k Off.FNF_STAT) else (s.reg (slotReg k Off.FNF_STAT)).put 0 4 0) ∧
       regsBut [slotReg k Off.FNF_STAT] s t ∧
       t.dbgQ = [] ∧
       t.hrpQ = s.hrpQ ∧ t.hrpOut = s.hrpOut ∧ t.coreOut = s.coreOut ∧
       changesOnly [.ports, .ids, .regs] s t)) ∧
  (∀ (c : Fin 2) (b : Block) (o : Nat) (r : Row) (k : Fin 8) (s : State),
     target s (slotReg k Off.FNF_STAT) = some (b, o, r) →
     slotState s k = 8 →
     matrixTakes s (coreNode s c) = true →
     coreGoes s c (slotReg k Off.FNF_STAT) 1 →
     accessFails s (448 + c) (slotReg k Off.FNF_STAT) 1 true false (corePriv s c) = none →
     coresIdle s →
     Completes (.fnfStatRead k (.core c)) s (fun t =>
       t.coreOut = s.coreOut ++ [(c.val, St.OK, [regView s b o r (s.reg (slotReg k Off.FNF_STAT))])] ∧
       t.reg (slotReg k Off.FNF_STAT) = (s.reg (slotReg k Off.FNF_STAT)).put 0 4 0 ∧
       regsBut [slotReg k Off.FNF_STAT] s t ∧
       t.hrpQ = s.hrpQ ∧ t.hrpOut = s.hrpOut ∧ t.dbgQ = s.dbgQ ∧ t.dbgOut = s.dbgOut ∧
       changesOnly [.ports, .regs] s t))

/-- An FSTAGE stays in the hold store of its NI, an entry for a unit window being presented to the unit. FSTGD
gives the number of entries once the last has come and the unit has its own. The last FSTGD arms the slot while a
Time Keeper is active (log entry 40): the arm sequence advances and FARM goes to both Time Keepers, which enter
the fanfare; a STAGE_ONLY slot waits. ARM wakes a dozing tile that holds entries. A strobe is presented to its
unit unless the tile's clamps hold it. A staging timeout and a loss abort the slot. -/
def Obligations.StagingAndArming : Prop :=
  (∀ (n : NiId) (p : Pkt) (rest : List Pkt) (s : State),
     nextEject s n.idx (fun p => decide (p.opc = Opc.FSTAGE)) = some (p, rest) →
     p.poisoned = false →
     isWindow s p.addr = false →
     Completes (.fstage n) s (fun t =>
       (t.ni n.idx) = { (s.ni n.idx) with
         eject := rest, hold := (s.ni n.idx).hold ++
           [{ fid := p.tag, addr := p.addr, data := p.words.take p.cnt, last := p.flag 1, delivered := true,
              src := p.src }] } ∧
       rxNoted s t n.idx p ∧
       regsBut [niReg n.idx (Off.NI_RX_FLIT p.sc)] s t ∧
       changesOnly [.nis, .regs] s t ∧
       nisBut n.idx s t)) ∧
  (∀ (n : NiId) (p : Pkt) (rest : List Pkt) (e : HoldEnt) (s : State),
     nextEject s n.idx (fun p => decide (p.opc = Opc.FSTAGE)) = some (p, rest) →
     p.poisoned = false →
     isWindow s p.addr = true →
     (s.ni n.idx).urst = false →
     e = { fid := p.tag, addr := p.addr, data := p.words.take p.cnt, last := p.flag 1, delivered := true,
           src := p.src } →
     Completes (.fstage n) s (fun t =>
       (t.ni n.idx) = { (s.ni n.idx) with
         eject := rest, hold := (s.ni n.idx).hold ++ [e], out := (s.ni n.idx).out ++
           [{ ch := .ireq, pkt := stagePkt (nodeOf s n.idx) e }] } ∧
       rxNoted s t n.idx p ∧
       regsBut [niReg n.idx (Off.NI_RX_FLIT p.sc)] s t ∧
       changesOnly [.nis, .regs] s t ∧
       nisBut n.idx s t)) ∧
  (∀ (n : NiId) (f : BitVec 8) (e : HoldEnt) (s : State),
     ((s.ni n.idx).hold.filter (fun e => decide (e.fid = f.toNat))).find? (fun e => e.last && !e.sent) = some e →
     (∀ g ∈ (s.ni n.idx).hold, g.fid = f.toNat → g.delivered = true) →
     Completes (.fstgdSend n f) s (fun t =>
       (t.ni n.idx) = { (s.ni n.idx) with
         hold := (s.ni n.idx).hold.map (fun g => if g.fid = f.toNat then { g with sent := true } else g),
         stage := (s.ni n.idx).stage ++ [{ ch := .own, pkt :=
           { opc := Opc.FSTGD, dst := e.src, src := nodeOf s n.idx, sc := 6,
             cnt := ((s.ni n.idx).hold.filter (fun e => decide (e.fid = f.toNat))).length, tag := f.toNat } }] } ∧
       changesOnly [.nis] s t ∧
       nisBut n.idx s t)) ∧
  (∀ (n : NiId) (late : Bool) (b : Strobe) (q : List Strobe) (s : State),
     (s.ni n.idx).strobes = b :: q →
     tileDark s (n.idx / 7) = false →
     Completes (.timStrobe n late) s (fun t =>
       (t.ni n.idx) = { (s.ni n.idx) with strobes := q, tim := (s.ni n.idx).tim ++ [b] } ∧
       (late = false → t.regs = s.regs ∧ t.evq = s.evq) ∧
       (late = true → regBit t (niReg n.idx Off.NI_ERR) 6 = true) ∧
       regsBut (errRegs n.idx) s t ∧
       changesOnly [.nis, .regs, .log] s t ∧
       nisBut n.idx s t)) ∧
  (∀ (c : Fin 2) (p : Pkt) (rest : List Pkt) (w : Nat × Nat) (s : State),
     nextEject s (coordPort c) (fun p => decide (p.opc = Opc.FSTGD)) = some (p, rest) →
     slotFid s (p.tag % 8) = p.tag →
     slotState s (p.tag % 8) = 1 →
     (s.slot (p.tag % 8)).want = [w] →
     w.1 = nodeNi p.src →
     w.2 = p.cnt →
     (s.slot (p.tag % 8)).todo = [] →
     (s.slot (p.tag % 8)).stageOnly = false →
     getFld s (slotReg (p.tag % 8) Off.FNF_XCNT) 0 15 = 0 →
     coordNi s = (coordPort c) →
     s.tkNone = false →
     Completes (.fstgd c) s (fun t =>
       slotState t (p.tag % 8) = 4 ∧
       getFld t (slotReg (p.tag % 8) Off.FNF_STAT) 12 16 = getFld s (fnfReg Off.FNF_SEQ) 0 16 ∧
       t.reg (fnfReg Off.FNF_SEQ) = (s.reg (fnfReg Off.FNF_SEQ)).put 0 16 (getFld s (fnfReg Off.FNF_SEQ) 0 16 + 1) ∧
       (t.ni (coordPort c)) = { (s.ni (coordPort c)) with
         eject := rest, stage := (s.ni (coordPort c)).stage ++
           [{ ch := .own, pkt := { opc := Opc.FARM, dst := nodeOf s (niOf 0 5), src := nodeOf s (coordNi s),
                                   sc := 6, tag := p.tag, arg := ftHi (slotLt s (p.tag % 8)),
                                   words := [ftLo (slotLt s (p.tag % 8))] } },
                                     { ch := .own, pkt := { opc := Opc.FARM, dst := nodeOf s (niOf 63 5),
                                                            src := nodeOf s (coordNi s), sc := 6, tag := p.tag,
                                                            arg := ftHi (slotLt s (p.tag % 8)),
                                                            words := [ftLo (slotLt s (p.tag % 8))] } }] } ∧
       t.slot (p.tag % 8) = { s.slot (p.tag % 8) with want := [] } ∧
       slotLt t (p.tag % 8) = (slotLt s (p.tag % 8)) ∧
       t.reg (niReg (coordPort c) (Off.NI_RX_FLIT p.sc)) = (if (coordPort c) % 7 = 5
                                                            then s.reg (niReg (coordPort c) (Off.NI_RX_FLIT p.sc))
                                                            else s.reg (niReg (coordPort c) (Off.NI_RX_FLIT p.sc))
                                                            + BitVec.ofNat 36 p.flits) ∧
       regsBut [slotReg (p.tag % 8) Off.FNF_STAT, slotReg (p.tag % 8) Off.FNF_LT_H,
                slotReg (p.tag % 8) Off.FNF_LT_L, fnfReg Off.FNF_SEQ,
                niReg (coordPort c) (Off.NI_RX_FLIT p.sc)] s t ∧
       nisBut (coordPort c) s t ∧
       slotsBut (p.tag % 8) s t ∧
       t.tickLt = (if (s.slot (p.tag % 8)).ticket.isSome = true then max s.tickLt (slotLt s (p.tag % 8)) else s.tickLt) ∧
       changesOnly [.nis, .slots, .regs] { s with tickLt := t.tickLt } t)) ∧
  (∀ (c : Fin 2) (p : Pkt) (rest : List Pkt) (w : Nat × Nat) (s : State),
     nextEject s (coordPort c) (fun p => decide (p.opc = Opc.FSTGD)) = some (p, rest) →
     slotFid s (p.tag % 8) = p.tag →
     slotState s (p.tag % 8) = 1 →
     (s.slot (p.tag % 8)).want = [w] →
     w.1 = nodeNi p.src →
     w.2 = p.cnt →
     (s.slot (p.tag % 8)).todo = [] →
     (s.slot (p.tag % 8)).stageOnly = true →
     Completes (.fstgd c) s (fun t =>
       slotState t (p.tag % 8) = 3 ∧
       (t.ni (coordPort c)) = { (s.ni (coordPort c)) with eject := rest } ∧
       t.slot (p.tag % 8) = { s.slot (p.tag % 8) with want := [] } ∧
       t.reg (niReg (coordPort c) (Off.NI_RX_FLIT p.sc)) = (if (coordPort c) % 7 = 5
                                                            then s.reg (niReg (coordPort c) (Off.NI_RX_FLIT p.sc))
                                                            else s.reg (niReg (coordPort c) (Off.NI_RX_FLIT p.sc))
                                                            + BitVec.ofNat 36 p.flits) ∧
       regsBut [slotReg (p.tag % 8) Off.FNF_STAT, niReg (coordPort c) (Off.NI_RX_FLIT p.sc)] s t ∧
       nisBut (coordPort c) s t ∧
       slotsBut (p.tag % 8) s t ∧
       changesOnly [.nis, .slots, .regs] s t)) ∧
  (∀ (c : Fin 2) (p : Pkt) (rest : List Pkt) (s : State),
     s.tkNone = false →
     nextEject s (keeperPort c) (fun p => decide (p.opc = Opc.FARM)) = some (p, rest) →
     slotFid s (p.tag % 8) = p.tag →
     slotState s (p.tag % 8) = 4 →
     findLaunch s p.tag = none →
     ftNow s + 128000 ≤ ftOfWords p.arg (wordAt p.words 0) →
     Completes (.farm c) s (fun t =>
       t.launches = s.launches ++ [{ fid := p.tag, lt := ftOfWords p.arg (wordAt p.words 0),
                                     lt0 := ftOfWords p.arg (wordAt p.words 0),
                                     aseq := getFld s (slotReg (p.tag % 8) Off.FNF_STAT) 12 16,
                                     per := 64 * getFld s (slotReg (p.tag % 8) Off.FNF_PER) 0 30,
                                     nis := ((s.slot (p.tag % 8)).ents.map (fun e => e.ni)).eraseDups }] ∧
       t.ni (keeperPort c) = { s.ni (keeperPort c) with eject := rest } ∧
       nisBut (keeperPort c) s t ∧
       t = { s with launches := t.launches, nis := t.nis })) ∧
  (∀ (u : Fin 64) (f : BitVec 8) (l : Launch) (s : State),
     findLaunch s f.toNat = some l →
     (u.val ∈ l.nis.map (fun n => n / 7)) →
     tileState s u = 2 →
     Completes (.arm u f) s (fun t =>
       tileState t u = 5 ∧
       getFld t (taReg u Off.PWR_PIC_STAT) 19 2 = 3 ∧
       regsBut [taReg u Off.PWR_TA_STAT, taReg u Off.PWR_PIC_STAT] s t ∧
       changesOnly [.regs] s t)) ∧
  (∀ (k : Fin 8) (w : Nat × Nat) (q : List (Nat × Nat)) (s : State),
     (s.slot k).want = w :: q →
     slotState s k = 1 →
     s.stageQ.filter (fun j => decide (j ≠ k.val)) = [] →
     Completes (.stgTo k) s (fun t =>
       slotState t k = 7 ∧
       slotReason t k = 2 ∧
       (t.reg (slotReg k Off.FNF_BAD)).fld 13 23 = nodeOf s w.1 % 2 ^ 23 ∧
       (t.slot k) = { (s.slot k) with todo := [], want := [] } ∧
       (t.ni (coordNi s)).stage = (s.ni (coordNi s)).stage ++ (sentNis (s.slot k)).map (fun n =>
         { ch := .own, pkt := { opc := Opc.FABRT, dst := nodeOf s n, src := nodeOf s (coordNi s), sc := 6,
                                tag := slotFid s k } }) ∧
       t.reg (fnfReg Off.FNF_ABORT_CNT) = s.reg (fnfReg Off.FNF_ABORT_CNT) + 1 ∧
       regsBut [slotReg k Off.FNF_STAT, slotReg k Off.FNF_BAD, fnfReg Off.FNF_ABORT_CNT] s t ∧
       nisBut (coordNi s) s t ∧
       slotsBut k s t ∧
       t.launches = s.launches ∧
       changesOnly [.regs, .slots, .nis, .fanfare, .log, .ids] s t)) ∧
  (∀ (f : BitVec 8) (n : NiId) (rest : List (Nat × Nat)) (s : State),
     takeFirst (fun p => decide (p = (f.toNat, n.idx))) s.losts = some ((f.toNat, n.idx), rest) →
     slotFid s (f.toNat % 8) = f.toNat →
     slotState s (f.toNat % 8) = 4 →
     lastMoments s f.toNat = false →
     (s.slot (f.toNat % 8)).part = false ∧ (s.slot (f.toNat % 8)).cross = false →
     Completes (.lost f n) s (fun t =>
       slotState t (f.toNat % 8) = 7 ∧
       slotReason t (f.toNat % 8) = 4 ∧
       t.aborts = s.aborts ++ [f.toNat] ∧
       t.launches = s.launches.filter (fun g => decide (g.fid ≠ f.toNat)) ∧
       t.losts = rest ∧
       t.reg (fnfReg Off.FNF_ABORT_CNT) = s.reg (fnfReg Off.FNF_ABORT_CNT) + 1 ∧
       regsBut [slotReg (f.toNat % 8) Off.FNF_STAT, slotReg (f.toNat % 8) Off.FNF_BAD,
                fnfReg Off.FNF_ABORT_CNT] s t ∧
       slotsBut (f.toNat % 8) s t ∧
       changesOnly [.regs, .slots, .fanfare, .log, .ids] s t))

/-- LAUNCH of an armed fanfare whose entries all stand names its edge (log entry 20 reads when and which), and a
fanfare that is issued late keeps at least the edge that this left it. At the edge its entries are performed in
list order, at a tile memory where no request waits, at a register of an NI as a write there, and the unit of an
NI is strobed; an entry for a unit window is the unit's own. A store at tile memory ends the reservations on its
line (the model's reading, log entry 31). Two fanfares of one edge run in arm sequence. The launch is counted, and
the slot is freed; a part of a cross-instance fanfare reports APPLIED; a change of firmware's that one fanfare
carries is complete. A cadence applies all its entries, or phase A and B in turn, stays staged with its next
target set by R201, and logs what is late and what is shortened; after STOP its slot is freed. ABORT and FABRT
remove the entries of a fanfare at their NI. A freed slot becomes DONE and is counted, an aborted one IDLE. BUSY
moves the launches it meets, and a reset that was held back is counted. -/
def Obligations.LaunchesRunAndEnd : Prop :=
  (∀ (f : BitVec 8) (l : Launch) (s : State),
     findLaunch s f.toNat = some l →
     mayIssue s l = true →
     missingAt s l = none →
     braceHolds s (launchEdgeOf s l 64) = false →
     Completes (.launch f) s (fun t =>
       t.launches = s.launches.map (fun g => if g.fid = l.fid then { g with
           edge := some (launchEdgeOf s l 64),
           minEdge := if edgeOf s l.lt < s.fc / 8 + 64 then max l.minEdge (s.fc / 8 + 64) else l.minEdge }
                                    else g) ∧
       edgeOf s l.lt ≤ launchEdgeOf s l 64 ∧ s.fc / 8 + 64 ≤ launchEdgeOf s l 64 ∧ l.minEdge ≤ launchEdgeOf s l 64 ∧
       t = { s with launches := t.launches })) ∧
  (∀ (e : Nat) (x : FEnt) (v : W) (u : Nat) (off : Nat) (f : BitVec 8) (l : Launch) (s : State),
     findLaunch s f.toNat = some l →
     sameEdge s l e = [l] →
     l.edge = some e →
     e ≤ s.fc / 8 →
     l.per = 0 →
     (s.slot (l.fid % 8)).cross = false ∧ (s.slot (l.fid % 8)).part = false →
     (s.slot (l.fid % 8)).ticket = none →
     (s.slot (l.fid % 8)).ents = [x] →
     x.data = [v] →
     regionOf s x.addr = .tmem u off →
     (s.tmc u).q = [] →
     stillHeld s l.fid x = true →
     l.nis = [x.ni] →
     x.ni % 7 = 5 →
     ftAt s e * 2 ^ 24 < l.lt * 2 ^ 24 + incNow s →
     coresIdle s →
     Completes (.launchEdge f) s (fun t =>
       t.word (tmemAddr u off) = v ∧
       wordsBut [tmemAddr u off] s t ∧
       isPoison t (tmemAddr u off) = false ∧
       t.launches = s.launches.filter (fun g => decide (g.fid ≠ l.fid)) ∧
       slotState t (l.fid % 8) = 6 ∧
       t.reg (slotReg (l.fid % 8) Off.FNF_LAUNCH) = s.reg (slotReg (l.fid % 8) Off.FNF_LAUNCH) + 1 ∧
       t.reg (slotReg (l.fid % 8) Off.FNF_LATE) = W.at 0 30 (min ((l.lt - l.lt0) / 64) (2 ^ 30 - 1)) ∧
       (t.ta (x.ni / 7)).applyTc = some e ∧
       regsBut [slotReg (l.fid % 8) Off.FNF_STAT, slotReg (l.fid % 8) Off.FNF_LAUNCH,
                slotReg (l.fid % 8) Off.FNF_LATE, fnfReg Off.FNF_LATE_CNT] s t ∧
       (t.tmc u).resv = (s.tmc u).resv.filter (fun y => decide (y.2 ≠ tmemAddr u off / 16 * 16) || decide (y.1 = 2 ^ 23)) ∧
       tmcsBut u s t ∧
       agentsBut (x.ni / 7) s t ∧
       changesOnly [.regs, .mem, .tmcs, .agents, .slots, .fanfare, .log] s t)) ∧
  (∀ (f : BitVec 8) (rest : List Nat) (s : State),
     takeFirst (fun g => decide (g = f.toNat)) s.aborts = some (f.toNat, rest) →
     Completes (.abort f) s (fun t =>
       (s.nis.all (fun e => decide ((t.ni e.1).hold = (s.ni e.1).hold.filter (fun h => decide (h.fid ≠ f.toNat)))) = true) ∧
       t.aborts = rest ∧
       t.launches = s.launches ∧ t.stageQ = s.stageQ ∧ t.losts = s.losts ∧
       changesOnly [.nis, .regs, .log, .fanfare] s t)) ∧
  (∀ (n : NiId) (p : Pkt) (rest : List Pkt) (s : State),
     nextEject s n.idx (fun p => decide (p.opc = Opc.FABRT)) = some (p, rest) →
     (∀ e ∈ s.launches, e.fid ≠ p.tag) →
     Completes (.fabrt n) s (fun t =>
       (t.ni n.idx).hold = (s.ni n.idx).hold.filter (fun h => decide (h.fid ≠ p.tag)) ∧
       (t.ni n.idx).eject = rest ∧
       regsBut [niReg n.idx (Off.NI_RX_FLIT p.sc), niReg n.idx Off.CDC_LOST_TIM, niReg n.idx Off.CDC_STAT] s t ∧
       changesOnly [.nis, .regs, .log] s t ∧
       nisBut n.idx s t)) ∧
  (∀ (k : Fin 8) (s : State),
     slotState s k = 6 →
     s.stageQ = [] →
     Completes (.freeingEnd k) s (fun t =>
       slotState t k = 8 ∧
       ((sentNis (s.slot k)).all (fun n => (t.ni n).hold.all (fun h => decide (h.fid ≠ slotFid s k))) = true) ∧
       (t.slot k) = { (s.slot k) with ents := [], todo := [], want := [] } ∧
       t.reg (fnfReg Off.FNF_APPLY_CNT) = s.reg (fnfReg Off.FNF_APPLY_CNT) + 1 ∧
       regsBut [slotReg k Off.FNF_STAT, fnfReg Off.FNF_APPLY_CNT] s t ∧
       slotsBut k s t ∧
       changesOnly [.nis, .slots, .regs, .log] s t)) ∧
  (∀ (k : Fin 8) (s : State),
     slotState s k = 7 →
     s.stageQ = [] →
     Completes (.abortedEnd k) s (fun t =>
       slotState t k = 0 ∧
       ((sentNis (s.slot k)).all (fun n => (t.ni n).hold.all (fun h => decide (h.fid ≠ slotFid s k))) = true) ∧
       (t.slot k) = { (s.slot k) with ents := [], todo := [], want := [] } ∧
       regsBut [slotReg k Off.FNF_STAT] s t ∧
       slotsBut k s t ∧
       changesOnly [.nis, .slots, .regs] s t)) ∧
  (∀ (u : Fin 64) (d : Fin 601) (s : State),
     (s.ta u).busyDue = true →
     Completes (.busy u d) s (fun t =>
       (t.ta u) = { (s.ta u) with busyDue := false, busyTo := some (s.fc / 8 + d.val) } ∧
       t.launches.map (fun l => l.fid) = s.launches.map (fun l => l.fid) ∧
       (t.launches.all (fun l => !touchesRouter s u l.fid || (match l.edge with
         | none => true | some e => decide (s.fc / 8 + d.val < e))) = true) ∧
       agentsBut u s t ∧
       t = { s with agents := t.agents, launches := t.launches })) ∧
  (∀ (n : Nat) (rest : List HeldReset) (s : State),
     takeFirst (fun r => !heldLate s r) s.heldResets = some (.ni n, rest) →
     n < 448 →
     n % 7 ≠ 5 →
     s.ni n = {} →
     n ≠ niOf 56 6 ∨ extEn s = false →
     Completes (.deferredReset) s (fun t =>
       t.ni n = {} ∧
       resyncOf t (n / 7) (16 + n % 7) = some { port := 16 + n % 7, half := routerHalf s (n / 7), stopped := portStopped s (n / 7) (16 + n % 7) } ∧
       routersBut [n / 7] s t ∧
       nisBut n s t ∧
       t.heldResets = rest ∧
       t.rstReq = s.rstReq ∧
       t.reg (fnfReg Off.FNF_DEFER_CNT) = s.reg (fnfReg Off.FNF_DEFER_CNT) + 1 ∧
       getFld t (mtxReg Off.MTX_RST_CNT) 12 12 = (getFld s (mtxReg Off.MTX_RST_CNT) 12 12 + 1) % 4096 ∧
       getFld t (niReg n Off.NI_EPOCH) 0 8 = (getFld s (niReg n Off.NI_EPOCH) 0 8 + 1) % 256 ∧
       niEn t n = niEn s n ∧
       regsBut ((List.range 0x800).map (fun o => niReg n o) ++ [evlReg Off.EVL_IRQ_PEND, fnfReg Off.FNF_DEFER_CNT, mtxReg Off.MTX_RST_CNT,
                                                                evlReg (Off.EVL_UINT_LO 0),
                                                                evlReg (Off.EVL_UINT_HI 0),
                                                                evlReg (Off.EVL_UINT_LO 1),
                                                                evlReg (Off.EVL_UINT_HI 1),
                                                                evlReg (Off.EVL_UINT_LO 2),
                                                                evlReg (Off.EVL_UINT_HI 2),
                                                                evlReg (Off.EVL_UINT_LO 3),
                                                                evlReg (Off.EVL_UINT_HI 3)]) s t ∧
       t = { s with regs := t.regs, nis := t.nis, routers := t.routers, heldResets := t.heldResets, checkDue := t.checkDue })) ∧
  (∀ (u : Fin 64) (xs : List (Nat × W)) (e : Nat) (f : BitVec 8) (l : Launch) (s : State),
     findLaunch s f.toNat = some l →
     sameEdge s l e = [l] →
     l.edge = some e →
     e ≤ s.fc / 8 →
     ftAt s e * 2 ^ 24 < l.lt * 2 ^ 24 + incNow s →
     coresIdle s →
     l.per = 0 →
     (s.slot (l.fid % 8)).cross = false ∧ (s.slot (l.fid % 8)).part = false →
     (s.slot (l.fid % 8)).ticket = none →
     l.nis = [7 * u.val + 5] →
     (s.slot (l.fid % 8)).ents.map (fun x => (x.addr, x.data, x.ni)) = xs.map (fun p => (0x100000000 + u.val * 0x20000 + p.1, [p.2], 7 * u.val + 5)) →
     (∀ p ∈ xs, regionOf s (0x100000000 + u.val * 0x20000 + p.1) = .tmem u p.1) →
     (∀ x ∈ (s.slot (l.fid % 8)).ents, stillHeld s l.fid x = true) →
     (s.tmc u).q = [] →
     Completes (.launchEdge f) s (fun t =>
       (∀ o, t.word (tmemAddr u o) = ((xs.reverse.find? (fun p => decide (p.1 = o))).map (fun p => p.2)).getD (s.word (tmemAddr u o))) ∧
       wordsBut (xs.map (fun p => tmemAddr u p.1)) s t ∧
       t.launches = s.launches.filter (fun g => decide (g.fid ≠ l.fid)) ∧
       slotState t (l.fid % 8) = 6 ∧
       t.reg (slotReg (l.fid % 8) Off.FNF_LAUNCH) = s.reg (slotReg (l.fid % 8) Off.FNF_LAUNCH) + 1 ∧
       regsBut [slotReg (l.fid % 8) Off.FNF_STAT, slotReg (l.fid % 8) Off.FNF_LAUNCH,
                slotReg (l.fid % 8) Off.FNF_LATE, fnfReg Off.FNF_LATE_CNT] s t ∧
       (t.ta u).applyTc = some e ∧
       tmcsBut u s t ∧
       agentsBut u s t ∧
       changesOnly [.regs, .mem, .tmcs, .agents, .slots, .fanfare, .log] s t)) ∧
  (∀ (n : NiId) (x : FEnt) (v : W) (o : Nat) (r : Row) (e : Nat) (f : BitVec 8) (l : Launch) (s : State),
     findLaunch s f.toNat = some l →
     sameEdge s l e = [l] →
     l.edge = some e →
     e ≤ s.fc / 8 →
     ftAt s e * 2 ^ 24 < l.lt * 2 ^ 24 + incNow s →
     coresIdle s →
     l.per = 0 →
     (s.slot (l.fid % 8)).cross = false ∧ (s.slot (l.fid % 8)).part = false →
     (s.slot (l.fid % 8)).ticket = none →
     l.nis = [n.idx] →
     (s.slot (l.fid % 8)).ents = [x] →
     x.ni = n.idx →
     x.data = [v] →
     stillHeld s l.fid x = true →
     target s x.addr = some (.ni n.t n.p, o, r) →
     awake s x.addr = true →
     0xF00000000 ≤ x.addr →
     r.acc = .rw ∨ r.acc = .fw →
     o ∉ loadRegs ++ [Off.NI_CTRL, Off.NI_SPRAY_SEED, Off.NI_TB_SC7, Off.NI_TB_SC6, Off.NI_TB_SC5, Off.NI_PUNT_TB, Off.NI_UINT_MASK] →
     n.idx % 7 ≠ 5 →
     populated s n.idx = true →
     (s.ni n.idx).strobes.length < 8 →
     Completes (.launchEdge f) s (fun t =>
       t.reg x.addr = legalizeAt (.ni n.t n.p) o r v ∧
       t.ni n.idx = { s.ni n.idx with strobes := (s.ni n.idx).strobes ++ [{ apply := true, fid := l.fid }] } ∧
       nisBut n.idx s t ∧
       t.launches = s.launches.filter (fun g => decide (g.fid ≠ l.fid)) ∧
       slotState t (l.fid % 8) = 6 ∧
       t.reg (slotReg (l.fid % 8) Off.FNF_LAUNCH) = s.reg (slotReg (l.fid % 8) Off.FNF_LAUNCH) + 1 ∧
       regsBut [x.addr, slotReg (l.fid % 8) Off.FNF_STAT, slotReg (l.fid % 8) Off.FNF_LAUNCH,
                slotReg (l.fid % 8) Off.FNF_LATE, fnfReg Off.FNF_LATE_CNT] s t ∧
       t.ta (n.idx / 7) = { s.ta (n.idx / 7) with applyTc := some e } ∧
       agentsBut (n.idx / 7) s t ∧
       t.shadows = (if shadowed x.addr = true then Sparse.set resetValue s.shadows x.addr (t.reg x.addr) else s.shadows) ∧
       changesOnly [.regs, .nis, .agents, .slots, .fanfare, .log] { s with shadows := t.shadows } t)) ∧
  (∀ (n : NiId) (x : FEnt) (e : Nat) (f : BitVec 8) (l : Launch) (s : State),
     findLaunch s f.toNat = some l →
     sameEdge s l e = [l] →
     l.edge = some e →
     e ≤ s.fc / 8 →
     ftAt s e * 2 ^ 24 < l.lt * 2 ^ 24 + incNow s →
     coresIdle s →
     l.per = 0 →
     (s.slot (l.fid % 8)).cross = false ∧ (s.slot (l.fid % 8)).part = false →
     (s.slot (l.fid % 8)).ticket = none →
     l.nis = [n.idx] →
     (s.slot (l.fid % 8)).ents = [x] →
     isWindow s x.addr = true →
     (s.ni n.idx).hold.any (fun h => decide (h.fid = l.fid)) = true →
     n.idx % 7 ≠ 5 →
     populated s n.idx = true →
     (s.ni n.idx).strobes.length < 8 →
     Completes (.launchEdge f) s (fun t =>
       t.ni n.idx = { s.ni n.idx with strobes := (s.ni n.idx).strobes ++ [{ apply := true, fid := l.fid }] } ∧
       nisBut n.idx s t ∧
       t.launches = s.launches.filter (fun g => decide (g.fid ≠ l.fid)) ∧
       slotState t (l.fid % 8) = 6 ∧
       t.reg (slotReg (l.fid % 8) Off.FNF_LAUNCH) = s.reg (slotReg (l.fid % 8) Off.FNF_LAUNCH) + 1 ∧
       regsBut [slotReg (l.fid % 8) Off.FNF_STAT, slotReg (l.fid % 8) Off.FNF_LAUNCH,
                slotReg (l.fid % 8) Off.FNF_LATE, fnfReg Off.FNF_LATE_CNT] s t ∧
       agentsBut (n.idx / 7) s t ∧
       changesOnly [.regs, .nis, .agents, .slots, .fanfare, .log] s t)) ∧
  (∀ (u : Fin 64) (off : Nat) (x : FEnt) (y : FEnt) (v : W) (w : W) (e : Nat) (f : BitVec 8) (g : Launch) (l : Launch) (s : State),
     s.launches = [g, l] ∨ s.launches = [l, g] →
     l.fid = f.toNat →
     l.fid % 8 ≠ g.fid % 8 →
     g.edge = some e ∧ l.edge = some e →
     aseqLt g.aseq l.aseq = true →
     e ≤ s.fc / 8 →
     ftAt s e * 2 ^ 24 < l.lt * 2 ^ 24 + incNow s →
     coresIdle s →
     l.per = 0 ∧ g.per = 0 →
     (s.slot (l.fid % 8)).cross = false ∧ (s.slot (l.fid % 8)).part = false →
     (s.slot (l.fid % 8)).ticket = none →
     (s.slot (g.fid % 8)).cross = false ∧ (s.slot (g.fid % 8)).part = false →
     (s.slot (g.fid % 8)).ticket = none →
     (s.slot (g.fid % 8)).ents = [x] ∧ (s.slot (l.fid % 8)).ents = [y] →
     x.data = [v] ∧ y.data = [w] →
     x.addr = y.addr →
     regionOf s x.addr = .tmem u off →
     x.ni = 7 * u.val + 5 ∧ y.ni = 7 * u.val + 5 →
     l.nis = [7 * u.val + 5] ∧ g.nis = [7 * u.val + 5] →
     stillHeld s g.fid x = true ∧ stillHeld s l.fid y = true →
     (s.tmc u).q = [] →
     Completes (.launchEdge f) s (fun t =>
       t.word (tmemAddr u off) = w ∧
       wordsBut [tmemAddr u off] s t ∧
       t.launches = [] ∧
       slotState t (g.fid % 8) = 6 ∧ slotState t (l.fid % 8) = 6 ∧
       t.reg (slotReg (g.fid % 8) Off.FNF_LAUNCH) = s.reg (slotReg (g.fid % 8) Off.FNF_LAUNCH) + 1 ∧
       t.reg (slotReg (l.fid % 8) Off.FNF_LAUNCH) = s.reg (slotReg (l.fid % 8) Off.FNF_LAUNCH) + 1 ∧
       tmcsBut u s t ∧
       agentsBut u s t ∧
       changesOnly [.regs, .mem, .tmcs, .agents, .slots, .fanfare, .log] s t)) ∧
  (∀ (u : Fin 64) (i : Nat) (j : Nat) (x : FEnt) (y : FEnt) (v : W) (w : W) (m : Nat) (e : Nat) (f : BitVec 8) (l : Launch) (s : State),
     findLaunch s f.toNat = some l →
     sameEdge s l e = [l] →
     l.edge = some e →
     e ≤ s.fc / 8 →
     ftAt s e * 2 ^ 24 < l.lt * 2 ^ 24 + incNow s →
     coresIdle s →
     0 < l.per →
     l.nis = [7 * u.val + 5] →
     (s.slot (l.fid % 8)).ents = [x, y] →
     x.data = [v] ∧ y.data = [w] →
     x.ni = 7 * u.val + 5 ∧ y.ni = 7 * u.val + 5 →
     regionOf s x.addr = .tmem u i ∧ regionOf s y.addr = .tmem u j →
     i ≠ j →
     stillHeld s l.fid x = true ∧ stillHeld s l.fid y = true →
     (s.tmc u).q = [] →
     getFld s (slotReg (l.fid % 8) Off.FNF_LEN) 13 13 = m →
     m ≤ 1 →
     s.evq.length < 15 →
     Completes (.launchEdge f) s (fun t =>
       t.word (tmemAddr u i) = (if m = 1 ∧ l.n % 2 = 1 then s.word (tmemAddr u i) else v) ∧
       t.word (tmemAddr u j) = (if m = 1 ∧ l.n % 2 = 0 then s.word (tmemAddr u j) else w) ∧
       wordsBut [tmemAddr u i, tmemAddr u j] s t ∧
       t.launches = (if (s.slot (l.fid % 8)).stopReq = true then s.launches.filter (fun g => decide (g.fid ≠ l.fid))
         else s.launches.map (fun g => if g.fid = l.fid then { g with
           n := l.n + 1, lastAt := l.lt, edge := none, minEdge := 0,
           lt := max (l.lt0 + (l.n + 1) * l.per) (l.lt + l.per - l.per / 8) } else g)) ∧
       slotState t (l.fid % 8) = (if (s.slot (l.fid % 8)).stopReq = true then 6 else 5) ∧
       t.reg (slotReg (l.fid % 8) Off.FNF_LAUNCH) = s.reg (slotReg (l.fid % 8) Off.FNF_LAUNCH) + 1 ∧
       t.reg (slotReg (l.fid % 8) Off.FNF_LATE) = W.at 0 30 (min ((l.lt - (l.lt0 + l.n * l.per)) / 64) (2 ^ 30 - 1)) ∧
       t.evq = s.evq ++ (if (l.lt0 + l.n * l.per) < l.lt then [mkEv (ftNow s) (nodeTP s 0 7) EvC.FNF_LATE [natW l.n, natW ((l.lt - (l.lt0 + l.n * l.per)) / 64)]] else []) ++
         (if 0 < l.n ∧ l.lt - l.lastAt < l.per then [mkEv (ftNow s) (nodeTP s 0 7) EvC.FNF_SHORT []] else []) ∧
       regsBut [slotReg (l.fid % 8) Off.FNF_STAT, slotReg (l.fid % 8) Off.FNF_LAUNCH,
                slotReg (l.fid % 8) Off.FNF_LATE, fnfReg Off.FNF_LATE_CNT] s t ∧
       (t.ta u).applyTc = some e ∧
       tmcsBut u s t ∧
       agentsBut u s t ∧
       changesOnly [.regs, .mem, .tmcs, .agents, .fanfare, .log] s t)) ∧
  (∀ (x : FEnt) (v : W) (u : Nat) (off : Nat) (e : Nat) (f : BitVec 8) (l : Launch) (s : State),
     findLaunch s f.toNat = some l →
     sameEdge s l e = [l] →
     l.edge = some e →
     e ≤ s.fc / 8 →
     ftAt s e * 2 ^ 24 < l.lt * 2 ^ 24 + incNow s →
     coresIdle s →
     l.per = 0 →
     (s.slot (l.fid % 8)).cross = false ∧ (s.slot (l.fid % 8)).part = true →
     (s.slot (l.fid % 8)).ticket = none →
     (s.slot (l.fid % 8)).ents = [x] →
     x.data = [v] →
     regionOf s x.addr = .tmem u off →
     (s.tmc u).q = [] →
     stillHeld s l.fid x = true →
     l.nis = [x.ni] →
     x.ni % 7 = 5 →
     Completes (.launchEdge f) s (fun t =>
       t.word (tmemAddr u off) = v ∧
       wordsBut [tmemAddr u off] s t ∧
       t.launches = s.launches.filter (fun g => decide (g.fid ≠ l.fid)) ∧
       slotState t (l.fid % 8) = 6 ∧
       t.xrep = s.xrep ++ [{ slot := l.fid % 8, gfid := slotGfid s (l.fid % 8), coord := (s.slot (l.fid % 8)).coord, lt := slotLt s (l.fid % 8), outcome := 1, applyFt := l.lt }] ∧
       t.reg (fnfReg (Off.FNF_XHIST (s.xhistN % 64))) = W.at 0 32 (slotGfid s (l.fid % 8)) ∧ t.reg (fnfReg (Off.FNF_XHIST (s.xhistN % 64) + 1)) = 1 ∧
       t.xhistN = s.xhistN + 1 ∧
       t.slot (l.fid % 8) = { s.slot (l.fid % 8) with cross := false, part := false } ∧
       t.reg (slotReg (l.fid % 8) Off.FNF_LAUNCH) = s.reg (slotReg (l.fid % 8) Off.FNF_LAUNCH) + 1 ∧
       regsBut [fnfReg (Off.FNF_XHIST (s.xhistN % 64)), fnfReg (Off.FNF_XHIST (s.xhistN % 64) + 1), slotReg (l.fid % 8) Off.FNF_STAT, slotReg (l.fid % 8) Off.FNF_LAUNCH,
                slotReg (l.fid % 8) Off.FNF_LATE, fnfReg Off.FNF_LATE_CNT] s t ∧
       slotsBut (l.fid % 8) s t ∧
       tmcsBut u s t ∧
       agentsBut (x.ni / 7) s t ∧
       changesOnly [.regs, .mem, .tmcs, .agents, .slots, .fanfare, .log, .extension] s t)) ∧
  (∀ (x : FEnt) (v : W) (u : Nat) (off : Nat) (k : Ticket) (e : Nat) (f : BitVec 8) (l : Launch) (s : State),
     findLaunch s f.toNat = some l →
     sameEdge s l e = [l] →
     l.edge = some e →
     e ≤ s.fc / 8 →
     ftAt s e * 2 ^ 24 < l.lt * 2 ^ 24 + incNow s →
     coresIdle s →
     l.per = 0 →
     (s.slot (l.fid % 8)).cross = false ∧ (s.slot (l.fid % 8)).part = false →
     (s.slot (l.fid % 8)).ticket = some k.num →
     s.tickets = [k] →
     k.num < 65536 →
     k.land = none →
     k.ents = [(x.addr, [v])] →
     isGroupWord x.addr = false →
     s.route = none →
     s.fwLater = [] →
     fwAlive s = true →
     (s.slot (l.fid % 8)).ents = [x] →
     x.data = [v] →
     regionOf s x.addr = .tmem u off →
     (s.tmc u).q = [] →
     stillHeld s l.fid x = true →
     l.nis = [x.ni] →
     x.ni % 7 = 5 →
     Completes (.launchEdge f) s (fun t =>
       t.word (tmemAddr u off) = v ∧
       wordsBut [tmemAddr u off] s t ∧
       t.launches = s.launches.filter (fun g => decide (g.fid ≠ l.fid)) ∧
       slotState t (l.fid % 8) = 6 ∧
       t.tickets = [] ∧
       t.tickApplied = k.num ∧
       t.checkDue = (s.checkDue || k.check) ∧
       t.slot (l.fid % 8) = { s.slot (l.fid % 8) with ticket := none, cross := false, part := false } ∧
       t.reg (slotReg (l.fid % 8) Off.FNF_LAUNCH) = s.reg (slotReg (l.fid % 8) Off.FNF_LAUNCH) + 1 ∧
       regsBut [slotReg (l.fid % 8) Off.FNF_STAT, slotReg (l.fid % 8) Off.FNF_LAUNCH,
                slotReg (l.fid % 8) Off.FNF_LATE, fnfReg Off.FNF_LATE_CNT] s t ∧
       slotsBut (l.fid % 8) s t ∧
       tmcsBut u s t ∧
       agentsBut (x.ni / 7) s t ∧
       changesOnly [.regs, .mem, .tmcs, .agents, .slots, .fanfare, .log] { s with tickets := t.tickets, tickApplied := t.tickApplied, checkDue := t.checkDue } t))

/-- The last FSTGD of a slot with participants sends XARM to each and arms it, with an LT at least 50 µs ahead.
XARM at an instance with the fanfare staged arms its slot as a part and is answered OK; with LT less than 20 µs
ahead it is answered LATE, without a staged slot, or while no Time Keeper is active (the model's choice, log entry
40), NOTSTAGED, and ALREADY where the recovery asks nothing of it. The coordinator keeps each answer, sends
XCONFIRM to those that answered OK once the last participant has answered OK or ALREADY, and XABORT at LT − 20 µs
otherwise; a part without XCONFIRM at LT − 10 µs, or with XABORT, aborts. A part reports its outcome, the
coordinator keeps it and writes the commit report. Frames leave and enter by the extension bridge: each leaves as
cells to the cluster EXT_PC, which wait for their reservation; an inbound frame is one operand, taken while the
bridge's handles are published (the model's choices, log entries 28 and 40); one that carries a MSG is injected at
its class, and dropped and counted where EXT_CTRL.EN = 0. -/
def Obligations.CrossInstanceFanfares : Prop :=
  (∀ (m : XMsg) (rest : List (Nat × XMsg)) (k : Fin 8) (s : State),
     takeFirst (fun e => decide (e.1 = 1)) s.xin = some ((1, m), rest) →
     (m.gfid.toNat, 1, m.src.val) ∉ s.xseen →
     alreadyIn s m = false →
     stagedSlot s m.gfid.toNat = some k.val →
     ftNow s + 1280000 ≤ (ftOfWords m.ltH m.ltL) →
     s.tkNone = false →
     Completes (.xarm) s (fun t =>
       slotState t k = 4 ∧
       (t.slot k) = { (s.slot k) with part := true, coord := m.coord.val, confirmed := false } ∧
       slotLt t k = (ftOfWords m.ltH m.ltL) ∧
       getFld t (slotReg k Off.FNF_STAT) 12 16 = getFld s (fnfReg Off.FNF_SEQ) 0 16 ∧
       t.reg (fnfReg Off.FNF_SEQ) = (s.reg (fnfReg Off.FNF_SEQ)).put 0 16 (getFld s (fnfReg Off.FNF_SEQ) 0 16 + 1) ∧
       (t.ni (coordNi s)).stage = (s.ni (coordNi s)).stage ++
         [{ ch := .own, pkt := { opc := Opc.FARM, dst := nodeOf s (niOf 0 5), src := nodeOf s (coordNi s),
                                 sc := 6, tag := slotFid s k, arg := ftHi (ftOfWords m.ltH m.ltL),
                                 words := [ftLo (ftOfWords m.ltH m.ltL)] } },
                                   { ch := .own, pkt := { opc := Opc.FARM, dst := nodeOf s (niOf 63 5),
                                                          src := nodeOf s (coordNi s), sc := 6,
                                                          tag := slotFid s k, arg := ftHi (ftOfWords m.ltH m.ltL),
                                                          words := [ftLo (ftOfWords m.ltH m.ltL)] } }] ∧
       t.xout = s.xout ++ [(m.coord.val, 2,
         { xmsg s m.gfid.toNat m.coord.val (ftOfWords m.ltH m.ltL) with status := 0 })] ∧
       regsBut [slotReg k Off.FNF_STAT, slotReg k Off.FNF_LT_H, slotReg k Off.FNF_LT_L, fnfReg Off.FNF_SEQ] s t ∧
       nisBut (coordNi s) s t ∧
       slotsBut k s t ∧
       t = { s with
         xin := rest, xseen := s.xseen ++ [(m.gfid.toNat, 1, m.src.val)], regs := t.regs, nis := t.nis,
         slots := t.slots, xout := t.xout,
         tickLt := if (s.slot k).ticket.isSome = true then max s.tickLt (ftOfWords m.ltH m.ltL) else s.tickLt })) ∧
  (∀ (m : XMsg) (rest : List (Nat × XMsg)) (s : State),
     takeFirst (fun e => decide (e.1 = 1)) s.xin = some ((1, m), rest) →
     (m.gfid.toNat, 1, m.src.val) ∉ s.xseen →
     alreadyIn s m = false →
     (stagedSlot s m.gfid.toNat = none ∨ s.tkNone = true) →
     Completes (.xarm) s (fun t =>
       t.xout = s.xout ++ [(m.coord.val, 2,
         { xmsg s m.gfid.toNat m.coord.val (ftOfWords m.ltH m.ltL) with status := 1 })] ∧
       t = { s with xin := rest, xseen := s.xseen ++ [(m.gfid.toNat, 1, m.src.val)], xout := t.xout })) ∧
  (∀ (m : XMsg) (rest : List (Nat × XMsg)) (c : XCo) (ps : List Part) (s : State),
     takeFirst (fun e => decide (e.1 = 2)) s.xin = some ((2, m), rest) →
     (m.gfid.toNat, 2, m.src.val) ∉ s.xseen →
     s.xco = [c] →
     c.gfid = m.gfid.toNat →
     ps = c.parts.map (fun p => if p.inst = m.src.val then (if m.status.val = 0 then { p with ok := true }
       else if m.status.val = 3 then { p with already := true, outcome := 5 } else { p with outcome := 4 }) else p) →
     ps.all (fun p => p.ok || p.already) = true →
     c.conf = false →
     c.failed = false →
     ftNow s + 1280000 ≤ c.lt →
     Completes (.xstaged) s (fun t =>
       t.xco = [{ c with parts := ps, conf := true }] ∧
       t.slot c.slot = { s.slot c.slot with confirmed := true } ∧
       slotsBut c.slot s t ∧
       t.xout = s.xout ++ (ps.filter (fun p => p.ok)).flatMap (fun p => List.replicate (confRep s) (p.inst, 3, xmsg s m.gfid.toNat (inst s) c.lt)) ∧
       t = { s with
         xin := rest, xseen := s.xseen ++ [(m.gfid.toNat, 2, m.src.val)], xco := t.xco, xout := t.xout,
         slots := t.slots })) ∧
  (∀ (m : XMsg) (rest : List (Nat × XMsg)) (k : Nat) (s : State),
     takeFirst (fun e => decide (e.1 = 3)) s.xin = some ((3, m), rest) →
     (m.gfid.toNat, 3, m.src.val) ∉ s.xseen →
     partSlot s m.gfid.toNat = some k →
     Completes (.xconfirm) s (fun t =>
       (t.slot k) = { (s.slot k) with confirmed := true } ∧
       slotsBut k s t ∧
       t = { s with xin := rest, xseen := s.xseen ++ [(m.gfid.toNat, 3, m.src.val)], slots := t.slots })) ∧
  (∀ (m : XMsg) (rest : List (Nat × XMsg)) (k : Nat) (s : State),
     takeFirst (fun e => decide (e.1 = 4)) s.xin = some ((4, m), rest) →
     (m.gfid.toNat, 4, m.src.val) ∉ s.xseen →
     fidSlot (slotFid s k) = k →
     partSlot s m.gfid.toNat = some k →
     slotState s k = 4 →
     lastMoments s (slotFid s k) = false →
     s.stageQ = [] →
     Completes (.xabort) s (fun t =>
       slotState t k = 7 ∧
       slotReason t k = 7 ∧
       t.aborts = s.aborts ++ [slotFid s k] ∧
       t.launches = s.launches.filter (fun g => decide (g.fid ≠ slotFid s k)) ∧
       ((t.slot k).part, (t.slot k).cross, (t.slot k).todo, (t.slot k).want) = (false, false, [], []) ∧
       t.reg (fnfReg (Off.FNF_XHIST (s.xhistN % 64))) = W.at 0 32 (slotGfid s k) ∧
       t.reg (fnfReg (Off.FNF_XHIST (s.xhistN % 64) + 1)) = W.at 0 4 2 ∧
       t.reg (fnfReg Off.FNF_ABORT_CNT) = s.reg (fnfReg Off.FNF_ABORT_CNT) + 1 ∧
       regsBut [slotReg k Off.FNF_STAT, slotReg k Off.FNF_BAD, fnfReg Off.FNF_ABORT_CNT,
                fnfReg (Off.FNF_XHIST (s.xhistN % 64)), fnfReg (Off.FNF_XHIST (s.xhistN % 64) + 1)] s t ∧
       slotsBut k s t ∧
       t.xrep = s.xrep ++ [{ slot := k, gfid := slotGfid s k, coord := (s.slot k).coord, lt := slotLt s k,
                             outcome := 2 }] ∧
       t = { s with
         xin := rest, xseen := s.xseen ++ [(m.gfid.toNat, 4, m.src.val)], regs := t.regs, aborts := t.aborts,
         launches := t.launches, slots := t.slots, xrep := t.xrep, xhistN := t.xhistN, evq := t.evq,
         evLost := t.evLost, evLostFirst := t.evLostFirst, evLostLast := t.evLostLast, freeN := t.freeN })) ∧
  (∀ (k : Fin 8) (c : XCo) (s : State),
     s.xco = [c] →
     c.slot = k.val →
     c.conf = false →
     c.failed = false →
     c.lt ≤ ftNow s + 1280000 →
     slotState s k = 4 →
     (s.slot k).cross = true →
     (s.slot k).part = false →
     s.stageQ = [] →
     fidSlot (slotFid s k) = k →
     Completes (.xconfirmDeadline k) s (fun t =>
       slotState t k = 7 ∧
       slotReason t k = 7 ∧
       t.aborts = s.aborts ++ [slotFid s k] ∧
       t.launches = s.launches.filter (fun g => decide (g.fid ≠ slotFid s k)) ∧
       ((t.slot k).part, (t.slot k).cross, (t.slot k).todo, (t.slot k).want) = (false, false, [], []) ∧
       t.reg (fnfReg (Off.FNF_XHIST (s.xhistN % 64))) = W.at 0 32 (slotGfid s k) ∧
       t.reg (fnfReg (Off.FNF_XHIST (s.xhistN % 64) + 1)) = W.at 0 4 2 ∧
       t.reg (fnfReg Off.FNF_ABORT_CNT) = s.reg (fnfReg Off.FNF_ABORT_CNT) + 1 ∧
       regsBut [slotReg k Off.FNF_STAT, slotReg k Off.FNF_BAD, fnfReg Off.FNF_ABORT_CNT,
                fnfReg (Off.FNF_XHIST (s.xhistN % 64)), fnfReg (Off.FNF_XHIST (s.xhistN % 64) + 1)] s t ∧
       slotsBut k s t ∧
       t.xco = [{ c with failed := true }] ∧
       t.xout = s.xout ++ c.parts.flatMap (fun p => List.replicate (confRep s) (p.inst, 4,
                                                                                xmsg s c.gfid (inst s) c.lt)) ∧
       t = { s with
         regs := t.regs, aborts := t.aborts, launches := t.launches, slots := t.slots, xco := t.xco,
         xout := t.xout, xhistN := t.xhistN, evq := t.evq, evLost := t.evLost, evLostFirst := t.evLostFirst,
         evLostLast := t.evLostLast, freeN := t.freeN })) ∧
  (∀ (k : Fin 8) (s : State),
     fidSlot (slotFid s k) = k →
     (s.slot k).part = true →
     (s.slot k).confirmed = false →
     slotState s k = 4 →
     slotLt s k ≤ ftNow s + 640000 →
     s.stageQ = [] →
     Completes (.noconfirm k) s (fun t =>
       slotState t k = 7 ∧
       slotReason t k = 6 ∧
       t.aborts = s.aborts ++ [slotFid s k] ∧
       t.launches = s.launches.filter (fun g => decide (g.fid ≠ slotFid s k)) ∧
       ((t.slot k).part, (t.slot k).cross, (t.slot k).todo, (t.slot k).want) = (false, false, [], []) ∧
       t.reg (fnfReg (Off.FNF_XHIST (s.xhistN % 64))) = W.at 0 32 (slotGfid s k) ∧
       t.reg (fnfReg (Off.FNF_XHIST (s.xhistN % 64) + 1)) = W.at 0 4 2 ∧
       t.reg (fnfReg Off.FNF_ABORT_CNT) = s.reg (fnfReg Off.FNF_ABORT_CNT) + 1 ∧
       regsBut [slotReg k Off.FNF_STAT, slotReg k Off.FNF_BAD, fnfReg Off.FNF_ABORT_CNT,
                fnfReg (Off.FNF_XHIST (s.xhistN % 64)), fnfReg (Off.FNF_XHIST (s.xhistN % 64) + 1)] s t ∧
       slotsBut k s t ∧
       t.xrep = s.xrep ++ [{ slot := k.val, gfid := slotGfid s k, coord := (s.slot k).coord, lt := slotLt s k,
                             outcome := 2 }] ∧
       t = { s with
         regs := t.regs, aborts := t.aborts, launches := t.launches, slots := t.slots, xrep := t.xrep,
         xhistN := t.xhistN, evq := t.evq, evLost := t.evLost, evLostFirst := t.evLostFirst,
         evLostLast := t.evLostLast, freeN := t.freeN })) ∧
  (∀ (k : Fin 8) (r : XRep) (rest : List XRep) (s : State),
     takeFirst (fun r => decide (r.slot = k.val ∧ r.lt + 64000 ≤ ftNow s)) s.xrep = some (r, rest) →
     r.outcome < 16 →
     Completes (.xreportSend k) s (fun t =>
       t.xout = s.xout ++ List.replicate (confRep s) (r.coord, 5,
         { xmsg s r.gfid r.coord r.lt with
           status := Fin.ofNat 16 r.outcome, applyH := ftHi r.applyFt, applyL := ftLo r.applyFt }) ∧
       t = { s with xrep := rest, xout := t.xout })) ∧
  (∀ (m : XMsg) (rest : List (Nat × XMsg)) (s : State),
     takeFirst (fun e => decide (e.1 = 5)) s.xin = some ((5, m), rest) →
     (m.gfid.toNat, 5, m.src.val) ∉ s.xseen →
     Completes (.xreport) s (fun t =>
       t.xco = s.xco.map (fun c => if c.gfid = m.gfid.toNat then
         { c with
           parts := c.parts.map (fun p => if p.inst = m.src.val then { p with outcome := m.status.val } else p) }
                          else c) ∧
       t = { s with xin := rest, xseen := s.xseen ++ [(m.gfid.toNat, 5, m.src.val)], xco := t.xco })) ∧
  (∀ (k : Fin 8) (c : XCo) (rest : List XCo) (s : State),
     takeFirst (fun c => decide (c.slot = k.val ∧ c.lt
                                 + us (getFld s (extReg Off.EXT_XREPORT_TO) 0 16) ≤ ftNow s)) s.xco = some (c,
                                                                                                            rest) →
     0x200000 ≤ (s.reg (extReg Off.EXT_XRPT_ADDR)).toNat →
     (s.reg (extReg Off.EXT_XRPT_ADDR)).toNat + 8 + c.parts.length ≤ 0x200000 + sramWords →
     s.evq.length < 16 →
     Completes (.commitReport k) s (fun t =>
       ((List.range (8 + c.parts.length)).all (fun j => decide (t.word ((s.reg (extReg Off.EXT_XRPT_ADDR)).toNat
                                                                        + j) = wordAt (reportWords c) j)) = true) ∧
       wordsBut ((List.range (8 + c.parts.length)).map (fun j => (s.reg (extReg Off.EXT_XRPT_ADDR)).toNat
                                                        + j)) s t ∧
       logs s t (mkEv (ftNow s) (nodeTP s 0 7) EvC.XFNF_REPORT [wordAt (reportWords c) 4,
                                                                wordAt (reportWords c) 5,
                                                                wordAt (reportWords c) 6]) ∧
       t = { s with mem := t.mem, evq := t.evq, xco := rest })) ∧
  (∀ (d : Nat) (y : Nat) (m : XMsg) (rest : List (Nat × Nat × XMsg)) (s : State),
     nextEject s bridgeNi (forBridge bridgeNi) = none →
     s.xout = (d, y, m) :: rest →
     cpoOpen s bridgeNi = false →
     Completes (.extMsgOut) s (fun t =>
       t.frames = s.frames ++ [{ dest := d, seq := Sparse.get seqDefault s.seqTx d, body := .ctl y m,
                                 bytes := frameBytes s d (Sparse.get seqDefault s.seqTx d) (.ctl y m) }] ∧
       t.xcells = s.xcells ++ cellHeads s true 4 (frameBytes s d (Sparse.get seqDefault s.seqTx d) (.ctl y m)) ∧
       Sparse.get seqDefault t.seqTx d = (Sparse.get seqDefault s.seqTx d + 1) % 2 ^ 32 ∧
       t.reg (extReg Off.EXT_TX_CNT) = s.reg (extReg Off.EXT_TX_CNT) + 1 ∧
       regsBut [extReg Off.EXT_TX_CNT] s t ∧
       t = { s with regs := t.regs, frames := t.frames, xcells := t.xcells, seqTx := t.seqTx, xout := rest })) ∧
  (∀ (p : Pkt) (rest : List Pkt) (s : State),
     nextEject s bridgeNi (forBridge bridgeNi) = some (p, rest) →
     nodeInst p.mask ≠ inst s →
     extEn s = true →
     cpoOpen s bridgeNi = false →
     Completes (.extMsgOut) s (fun t =>
       t.frames = s.frames ++ [{ dest := nodeInst p.mask, seq := Sparse.get seqDefault s.seqTx (nodeInst p.mask),
                                 body := .msg { p with dst := p.mask, mask := 0, key := 0, id := 0 },
                                 bytes := frameBytes s (nodeInst p.mask) (Sparse.get seqDefault s.seqTx (nodeInst p.mask))
                                   (.msg { p with dst := p.mask, mask := 0, key := 0, id := 0 }) }] ∧
       t.xcells = s.xcells ++ cellHeads s true 4 (frameBytes s (nodeInst p.mask) (Sparse.get seqDefault s.seqTx (nodeInst p.mask))
         (.msg { p with dst := p.mask, mask := 0, key := 0, id := 0 })) ∧
       t.ni bridgeNi = { s.ni bridgeNi with eject := rest } ∧
       t.reg (extReg Off.EXT_TX_CNT) = s.reg (extReg Off.EXT_TX_CNT) + 1 ∧
       rxNoted s t bridgeNi p ∧
       regsBut [extReg Off.EXT_TX_CNT, niReg bridgeNi (Off.NI_RX_FLIT p.sc)] s t ∧
       nisBut bridgeNi s t ∧
       t = { s with regs := t.regs, frames := t.frames, xcells := t.xcells, seqTx := t.seqTx, nis := t.nis })) ∧
  (∀ (f : ExtFrame) (y : Fin 6) (m : XMsg) (s : State),
     s.inReset = false →
     s.postRun = false →
     frameOk s f = true →
     frameOld s f = false →
     (extEn s = true → (List.range 16).all (fun h => handleListed (s.ni bridgeNi) h) = true) →
     f.ctl = some (y, m) →
     Completes (.extFrameIn f) s (fun t =>
       t.xin = s.xin ++ [(y.val, m)] ∧
       Sparse.get seqDefault t.seqRx f.src.val = (f.seq.toNat + 1) % 2 ^ 32 ∧
       t.reg (extReg Off.EXT_RX_CNT) = s.reg (extReg Off.EXT_RX_CNT) + 1 ∧
       t.reg (extReg Off.EXT_LOST_CNT) = BitVec.ofNat 36 (min ((s.reg (extReg Off.EXT_LOST_CNT)).toNat
                                                               + frameGap s f) (2 ^ 36 - 1)) ∧
       regsBut [extReg Off.EXT_RX_CNT, extReg Off.EXT_LOST_CNT] s t ∧
       t = { s with regs := t.regs, seqRx := t.seqRx, xin := t.xin })) ∧
  (∀ (h : Head) (rest : List Head) (s : State),
     nextEject s bridgeNi (forBridge bridgeNi) = none →
     s.xout = [] →
     s.xcells = h :: rest →
     cpoOpen s bridgeNi = true →
     h.opcN = Opc.CELL →
     isOrphan h = false →
     headOk s .cpo h = true →
     refusing s bridgeNi = false →
     firstHeld (s.ni bridgeNi) (h.w0.fld 0 23) (oreqPkt s bridgeNi h).sc = none →
     (s.ni bridgeNi).rsv = none →
     Completes (.extMsgOut) s (fun t =>
       t.xcells = rest ∧
       ((t.ni bridgeNi).cell.map (fun w => w.pkt)) = some (oreqPkt s bridgeNi h) ∧
       ((t.ni bridgeNi).rsv.map (fun r => (r.dst, r.sc))) = some (h.w0.fld 0 23, (oreqPkt s bridgeNi h).sc) ∧
       nisBut bridgeNi s t ∧
       t = { s with nis := t.nis, nextId := s.nextId + 1, xcells := rest })) ∧
  (∀ (f : ExtFrame) (s : State),
     s.inReset = false →
     s.postRun = false →
     frameOk s f = true →
     frameOld s f = false →
     f.ctl = none →
     extEn s = true →
     (List.range 16).all (fun h => handleListed (s.ni bridgeNi) h) = true →
     f.head.w0.fld 0 3 ≠ 7 →
     Completes (.extFrameIn f) s (fun t =>
       Sparse.get seqDefault t.seqRx f.src.val = (f.seq.toNat + 1) % 2 ^ 32 ∧
       t.reg (extReg Off.EXT_RX_CNT) = s.reg (extReg Off.EXT_RX_CNT) + 1 ∧
       t.reg (extReg Off.EXT_LOST_CNT) = BitVec.ofNat 36 (min ((s.reg (extReg Off.EXT_LOST_CNT)).toNat
                                                               + frameGap s f) (2 ^ 36 - 1)) ∧
       t.ni bridgeNi = { s.ni bridgeNi with stage := (s.ni bridgeNi).stage ++
         [{ ch := .own, pkt := { headPkt s.nextId f.msgSrc.toNat f.head.sc.toNat f.head with mask := f.head.w0.fld 0 23 } }] } ∧
       nisBut bridgeNi s t ∧
       regsBut [extReg Off.EXT_RX_CNT, extReg Off.EXT_LOST_CNT] s t ∧
       t = { s with regs := t.regs, seqRx := t.seqRx, nis := t.nis, nextId := s.nextId + 1 })) ∧
  (∀ (f : ExtFrame) (s : State),
     s.inReset = false →
     s.postRun = false →
     frameOk s f = true →
     frameOld s f = false →
     f.ctl = none →
     extEn s = false →
     Completes (.extFrameIn f) s (fun t =>
       Sparse.get seqDefault t.seqRx f.src.val = (f.seq.toNat + 1) % 2 ^ 32 ∧
       t.reg (extReg Off.EXT_RX_CNT) = s.reg (extReg Off.EXT_RX_CNT) + 1 ∧
       t.reg (extReg Off.EXT_LOST_CNT) = BitVec.ofNat 36 (min ((s.reg (extReg Off.EXT_LOST_CNT)).toNat
                                                               + frameGap s f) (2 ^ 36 - 1)) ∧
       t.reg (extReg Off.EXT_DROP_CNT) = (s.reg (extReg Off.EXT_DROP_CNT)).satInc ∧
       regsBut [extReg Off.EXT_RX_CNT, extReg Off.EXT_LOST_CNT, extReg Off.EXT_DROP_CNT] s t ∧
       t = { s with regs := t.regs, seqRx := t.seqRx })) ∧
  (∀ (m : XMsg) (rest : List (Nat × XMsg)) (c : XCo) (ps : List Part) (s : State),
     takeFirst (fun e => decide (e.1 = 2)) s.xin = some ((2, m), rest) →
     (m.gfid.toNat, 2, m.src.val) ∉ s.xseen →
     s.xco = [c] →
     c.gfid = m.gfid.toNat →
     ps = c.parts.map (fun p => if p.inst = m.src.val then (if m.status.val = 0 then { p with ok := true }
       else if m.status.val = 3 then { p with already := true, outcome := 5 } else { p with outcome := 4 }) else p) →
     ps.all (fun p => p.ok || p.already) = false ∨ c.failed = true →
     Completes (.xstaged) s (fun t =>
       t.xco = [{ c with parts := ps }] ∧
       t = { s with xin := rest, xseen := s.xseen ++ [(m.gfid.toNat, 2, m.src.val)], xco := t.xco })) ∧
  (∀ (m : XMsg) (rest : List (Nat × XMsg)) (k : Nat) (s : State),
     takeFirst (fun e => decide (e.1 = 1)) s.xin = some ((1, m), rest) →
     (m.gfid.toNat, 1, m.src.val) ∉ s.xseen →
     alreadyIn s m = false →
     stagedSlot s m.gfid.toNat = some k →
     s.tkNone = false →
     ftOfWords m.ltH m.ltL < ftNow s + 1280000 →
     Completes (.xarm) s (fun t =>
       t.xout = s.xout ++ [(m.coord.val, 2,
         { xmsg s m.gfid.toNat m.coord.val (ftOfWords m.ltH m.ltL) with status := 2 })] ∧
       t = { s with xin := rest, xseen := s.xseen ++ [(m.gfid.toNat, 1, m.src.val)], xout := t.xout })) ∧
  (∀ (m : XMsg) (rest : List (Nat × XMsg)) (s : State),
     takeFirst (fun e => decide (e.1 = 1)) s.xin = some ((1, m), rest) →
     (m.gfid.toNat, 1, m.src.val) ∉ s.xseen →
     (m.mode.val = 1 ∧ histApplied s m.recov.toNat = true) ∨ (m.mode.val = 2 ∧ histApplied s m.recov.toNat = false) →
     Completes (.xarm) s (fun t =>
       t.xout = s.xout ++ [(m.coord.val, 2,
         { xmsg s m.gfid.toNat m.coord.val (ftOfWords m.ltH m.ltL) with status := 3 })] ∧
       t = { s with xin := rest, xseen := s.xseen ++ [(m.gfid.toNat, 1, m.src.val)], xout := t.xout })) ∧
  (∀ (c : Fin 2) (p : Pkt) (rest : List Pkt) (w : Nat × Nat) (ids : List Nat) (lt : Nat) (s : State),
     nextEject s (coordPort c) (fun p => decide (p.opc = Opc.FSTGD)) = some (p, rest) →
     slotFid s (p.tag % 8) = p.tag →
     slotState s (p.tag % 8) = 1 →
     (s.slot (p.tag % 8)).want = [w] →
     w.1 = nodeNi p.src →
     w.2 = p.cnt →
     (s.slot (p.tag % 8)).todo = [] →
     (s.slot (p.tag % 8)).stageOnly = false →
     (s.slot (p.tag % 8)).ticket = none →
     getFld s (slotReg (p.tag % 8) Off.FNF_XCNT) 0 15 = ids.length →
     ids ≠ [] →
     (∀ i < ids.length, regionOf s ((s.reg (slotReg (p.tag % 8) Off.FNF_XLIST)).toNat + i) = .sram ((s.reg (slotReg (p.tag % 8) Off.FNF_XLIST)).toNat + i - 0x200000)) →
     (List.range ids.length).map (fun i => (s.word ((s.reg (slotReg (p.tag % 8) Off.FNF_XLIST)).toNat + i)).fld 0 14) = ids →
     coordNi s = (coordPort c) →
     s.tkNone = false →
     lt = max (slotLt s (p.tag % 8)) (ftNow s + 3200000) →
     Completes (.fstgd c) s (fun t =>
       slotState t (p.tag % 8) = 4 ∧
       slotLt t (p.tag % 8) = lt ∧
       t.slot (p.tag % 8) = { s.slot (p.tag % 8) with want := [], cross := true } ∧
       t.xout = s.xout ++ ids.map (fun i => (i, 1, { xmsg s (slotGfid s (p.tag % 8)) (inst s) lt with
         count := Fin.ofNat _ ids.length, mode := Fin.ofNat _ (getFld s (slotReg (p.tag % 8) Off.FNF_XCNT) 15 2),
         recov := BitVec.ofNat 32 (getFld s (slotReg (p.tag % 8) Off.FNF_XREC) 0 32) })) ∧
       t.xco = s.xco ++ [{ slot := (p.tag % 8), gfid := slotGfid s (p.tag % 8), lt := lt, parts := ids.map (fun i => { inst := i }) }] ∧
       (t.ni (coordPort c)).eject = rest ∧
       regsBut [slotReg (p.tag % 8) Off.FNF_STAT, slotReg (p.tag % 8) Off.FNF_LT_H, slotReg (p.tag % 8) Off.FNF_LT_L, fnfReg Off.FNF_SEQ,
                niReg (coordPort c) (Off.NI_RX_FLIT p.sc)] s t ∧
       nisBut (coordPort c) s t ∧
       slotsBut (p.tag % 8) s t ∧
       t = { s with regs := t.regs, nis := t.nis, slots := t.slots, xout := t.xout, xco := t.xco }))

/-- PWR_WARN outside brace sets WARN and BRACE, keeps FT, sets the brace edge 64 tc ahead and holds the launches
at or after it; a release edge that is issued and lies before it stands, a later one is overtaken (the model's
reading of a second PWR_WARN before the release edge, log entry 20). At the edge the tree is braced. The end
clears both bits, sets the release edge 128 tc ahead, counts and logs the brace; at the release edge the held
launches get that edge, where no brace announced meanwhile keeps them. -/
def Obligations.Brace : Prop :=
  (∀ (s : State),
     braced s = false →
     Completes (.pwrWarnAssert) s (fun t =>
       t.reg (pwrReg Off.PWR_STAT) = (s.reg (pwrReg Off.PWR_STAT)).put 2 2 3 ∧
       t.reg (tkReg Off.TK_BRACE_FT_H) = ftHi (ftNow s) ∧
       t.reg (tkReg Off.TK_BRACE_FT_L) = ftLo (ftNow s) ∧
       regsBut [pwrReg Off.PWR_STAT, tkReg Off.TK_BRACE_FT_H, tkReg Off.TK_BRACE_FT_L] s t ∧
       t.launches = s.launches.map (fun l => match l.edge with
         | some e => if s.fc / 8 + 64 ≤ e then { l with edge := none, held := true } else l | none => l) ∧
       t = { s with
         regs := t.regs, launches := t.launches, warn := true, warnFt := ftNow s,
         braces := match s.braces.getLast? with
           | none => [(s.fc / 8 + 64, none)]
           | some (_, none) => s.braces
           | some (b, some r) => if r < s.fc / 8 + 64 then s.braces ++ [(s.fc / 8 + 64, none)]
                                 else s.braces.dropLast ++ [(b, none)] })) ∧
  (∀ (b : Nat) (r : Option Nat) (rest : List (Nat × Option Nat)) (s : State),
     s.braces = (b, r) :: rest →
     b ≤ s.fc / 8 →
     s.braceOn = false →
     Completes (.brace) s (fun t =>
       t.reg (tkReg Off.TK_STAT) = (s.reg (tkReg Off.TK_STAT)).put 3 1 1 ∧
       regsBut [tkReg Off.TK_STAT] s t ∧
       t = { s with regs := t.regs, braceOn := true })) ∧
  (∀ (s : State),
     braced s = true →
     s.heldWrites = [] →
     s.posted = [] →
     coresIdle s →
     (s.agents.all (fun e => e.2.waitReq.isEmpty && e.2.vtDue.isNone)) = true →
     s.evq.length < 16 →
     Completes (.braceEnd) s (fun t =>
       t.reg (pwrReg Off.PWR_STAT) = (s.reg (pwrReg Off.PWR_STAT)).put 2 2 0 ∧
       t.reg (pwrReg Off.PWR_BRACE_CNT) = s.reg (pwrReg Off.PWR_BRACE_CNT) + 1 ∧
       t.reg (tkReg Off.TK_BRACE_DUR) = natW ((ftNow s - s.warnFt) / 64) ∧
       regsBut [pwrReg Off.PWR_STAT, pwrReg Off.PWR_BRACE_CNT, pwrReg Off.PWR_BRACE_MAX,
                tkReg Off.TK_BRACE_DUR] s t ∧
       (s.reg (pwrReg Off.PWR_BRACE_MAX) ≤ t.reg (pwrReg Off.PWR_BRACE_MAX)) ∧
       ((List.range 64).all (fun u => decide (t.ta u = s.ta u)) = true) ∧
       logs s t (mkEv (ftNow s) (nodeTP s 0 7) EvC.BRACE_END [natW ((ftNow s - s.warnFt) / 64)]) ∧
       t = { s with
         regs := t.regs, agents := t.agents, evq := t.evq, warn := false,
         braces := match s.braces.getLast? with
           | none => [(s.fc / 8, some (s.fc / 8 + 128))]
           | some (b, _) => s.braces.dropLast ++ [(b, some (s.fc / 8 + 128))] })) ∧
  (∀ (b : Nat) (e : Nat) (rest : List (Nat × Option Nat)) (s : State),
     s.braces = (b, some e) :: rest →
     e ≤ s.fc / 8 →
     (s.launches.map (fun l => l.fid)).Nodup →
     (s.agents.all (fun e => e.2.busyTo.isNone && ((e.2.applyTc.map (clashes (s.fc / 8))).getD false == false))) = true →
     (s.launches.all (fun l => l.held || ((l.edge.map (clashes (s.fc / 8))).getD false == false))) = true →
     Completes (.release) s (fun t =>
       t.reg (tkReg Off.TK_STAT) = (s.reg (tkReg Off.TK_STAT)).put 3 1 0 ∧
       regsBut [tkReg Off.TK_STAT] s t ∧
       t.launches = s.launches.map (fun l => if l.held = true ∧
           (rest.all (fun x => decide (max (edgeOf s l.lt) l.minEdge < x.1))) = true then
         { l with held := false, edge := some (s.fc / 8) } else l) ∧
       t = { s with
         regs := t.regs, launches := t.launches, braceOn := false, braces := rest }))

/-- A command that reads answers OK with the words that its table names, in that order, as the registers, the kept
counts or tile memory show them, and changes no register but the count of clamped arguments: SESSION_INFO,
CFG_STATUS, TOPO_READ, MC_GROUP_READ, CLS_READ, GRD_READ, ALARM_READ, FNF_STATUS, PWR_READ, BIST_RESULT,
FW_INFO, LOG_READ, CNT_READ. -/
def Obligations.CommandsThatRead : Prop :=
  (∀ (r : Running) (s : State),
     runsCmd s 0x2 r →
     readable s ([opcReg Off.OPC_FW_STAT, idReg Off.KNL_ID, opcReg Off.OPC_IMG_BANK, mbxReg Off.MBX_SESS_STAT,
                  opcReg Off.OPC_SCAN_STAT]) = true →
     Completes (.sessionInfo) s (fun t =>
       answersCmd t r 0 (([opcReg Off.OPC_FW_STAT, idReg Off.KNL_ID, opcReg Off.OPC_IMG_BANK,
                           mbxReg Off.MBX_SESS_STAT, opcReg Off.OPC_SCAN_STAT]).map (shown s)) false ∧
       t = { s with running := t.running })) ∧
  (∀ (r : Running) (s : State),
     runsCmd s 0x3 r →
     readable s ([rtrReg 0 Off.RTR_MAP_EPOCH, opcReg Off.OPC_SC5_BOUND, opcReg Off.OPC_PHOLD_BOUND]) = true →
     Completes (.cfgStatus) s (fun t =>
       answersCmd t r 0 ([W.at 0 16 s.tickLast, W.at 0 16 s.tickApplied, W.at 0 16 s.tickAborted
                          ||| W.at 16 5 s.tickReason, W.at 0 6 (s.tickets.length + b2n s.fenceTicket.isSome),
                          W.at 0 16 ((s.reg (rtrReg 0 Off.RTR_MAP_EPOCH)).fld 0 16)
                          ||| W.at 16 1 (b2n s.route.isSome)
                          ||| W.at 17 1 (b2n (decide (wantedMap s ≠ installed s))),
                          shown s (opcReg Off.OPC_SC5_BOUND), shown s (opcReg Off.OPC_PHOLD_BOUND)]) false ∧
       t = { s with running := t.running })) ∧
  (∀ (r : Running) (s : State),
     runsCmd s 0x105 r →
     readable s ([rtrReg (tileOf (argN r.args 1)) Off.RTR_STAT, rtrReg (mapRouter s) (Off.RTR_FMAP
                                                                                      + (tileOf (argN r.args 1))),
                  rtrReg (tileOf (argN r.args 1)) Off.RTR_LOCAL_FENCE,
                  rtrReg (tileOf (argN r.args 1)) Off.RTR_MAP_EPOCH]) = true →
     Completes (.topoRead) s (fun t =>
       answersCmd t r 0 ([shown s (rtrReg (tileOf (argN r.args 1)) Off.RTR_STAT),
                          shown s (rtrReg (mapRouter s) (Off.RTR_FMAP + (tileOf (argN r.args 1)))),
                          natW (wantedWord s (tileOf (argN r.args 1))),
                          shown s (rtrReg (tileOf (argN r.args 1)) Off.RTR_LOCAL_FENCE),
                          shown s (rtrReg (tileOf (argN r.args 1)) Off.RTR_MAP_EPOCH)]) false ∧
       t.reg (opcReg Off.OPC_CLAMP_CNT) = s.reg (opcReg Off.OPC_CLAMP_CNT)
         + BitVec.ofNat 36 (tileClamps (argN r.args 1)) ∧
       regsBut [opcReg Off.OPC_CLAMP_CNT] s t ∧
       t = { s with regs := t.regs, running := t.running })) ∧
  (∀ (r : Running) (s : State),
     runsCmd s 0x204 r →
     (([groupMaskAddr 0 (groupArg r.args), groupMaskAddr 0 (groupArg r.args) + 1]
       ++ (List.range 64).map (fun u => laneAddr u (groupArg r.args))).all (fun a => !isPoison s a && decide (tileState s ((a - tmemAddr 0 0) / 0x20000) ≠ 3))) = true →
     Completes (.mcGroupRead) s (fun t =>
       answersCmd t r 0 ([s.word (groupMaskAddr 0 (groupArg r.args)), s.word (groupMaskAddr 0 (groupArg r.args)
                                                                              + 1)]
                         ++ packLanes (groupArg r.args) ((List.range 64).map (fun u => s.word (laneAddr u (groupArg r.args))))) false ∧
       t.reg (opcReg Off.OPC_CLAMP_CNT) = s.reg (opcReg Off.OPC_CLAMP_CNT)
         + BitVec.ofNat 36 (clamped 0 16383 (argN r.args 1)) ∧
       regsBut [opcReg Off.OPC_CLAMP_CNT] s t ∧
       t = { s with regs := t.regs, running := t.running })) ∧
  (∀ (n : Nat) (r : Running) (s : State),
     runsCmd s 0x307 r →
     nodeArg s (argN r.args 1) = some n →
     readable s ((([Off.NI_TB_SC7, Off.NI_TB_SC6, Off.NI_TB_SC5, Off.NI_DEST_SC7_LO, Off.NI_DEST_SC7_LO + 1,
                    Off.NI_DEST_SC7_LO + 2, Off.NI_DEST_SC7_LO + 3, Off.NI_DEST_SC7_LO + 4, Off.NI_DEST_SC7_LO
                    + 5, Off.NI_ADM_TO, Off.NI_RSV_CFG, Off.NI_RSV_STAT, Off.NI_TB_LEVEL]).map (niReg n))) = true →
     Completes (.clsRead) s (fun t =>
       answersCmd t r 0 (((([Off.NI_TB_SC7, Off.NI_TB_SC6, Off.NI_TB_SC5, Off.NI_DEST_SC7_LO, Off.NI_DEST_SC7_LO
                             + 1, Off.NI_DEST_SC7_LO + 2, Off.NI_DEST_SC7_LO + 3, Off.NI_DEST_SC7_LO + 4,
                             Off.NI_DEST_SC7_LO + 5, Off.NI_ADM_TO, Off.NI_RSV_CFG, Off.NI_RSV_STAT,
                             Off.NI_TB_LEVEL]).map (niReg n))).map (shown s)) false ∧
       t = { s with running := t.running })) ∧
  (∀ (g : Nat) (r : Running) (s : State),
     runsCmd s 0x403 r →
     guardArg s (argN r.args 1) = some g →
     readable s ((([Off.GRD_CTRL, Off.GRD_STAT, Off.GRD_ERR]
                   ++ (List.range 16).flatMap (fun k => [Off.GRD_START k, Off.GRD_END k,
                                                         Off.GRD_PERM k])).map (guardReg g))) = true →
     Completes (.grdRead) s (fun t =>
       answersCmd t r 0 (((([Off.GRD_CTRL, Off.GRD_STAT, Off.GRD_ERR]
                            ++ (List.range 16).flatMap (fun k => [Off.GRD_START k, Off.GRD_END k,
                                                                  Off.GRD_PERM k])).map (guardReg g))).map (shown s)) false ∧
       t = { s with running := t.running })) ∧
  (∀ (r : Running) (s : State),
     runsCmd s 0x503 r →
     readable s ([tkReg Off.TK_ALARM_H, tkReg Off.TK_ALARM_L, tkReg Off.TK_ALARM_CTRL,
                  tkReg Off.TK_ALARM_STAT]) = true →
     Completes (.alarmRead) s (fun t =>
       answersCmd t r 0 (([tkReg Off.TK_ALARM_H, tkReg Off.TK_ALARM_L, tkReg Off.TK_ALARM_CTRL,
                           tkReg Off.TK_ALARM_STAT]).map (shown s)) false ∧
       t = { s with running := t.running })) ∧
  (∀ (r : Running) (s : State),
     runsCmd s 0x606 r →
     readable s (([Off.FNF_STAT, Off.FNF_LAUNCH, Off.FNF_LATE, Off.FNF_BAD, Off.FNF_LT_H,
                   Off.FNF_LT_L].map (slotReg (min 7 (argN r.args 1).toNat)))) = true →
     Completes (.fnfStatus) s (fun t =>
       answersCmd t r 0 ((([Off.FNF_STAT, Off.FNF_LAUNCH, Off.FNF_LATE, Off.FNF_BAD, Off.FNF_LT_H,
                            Off.FNF_LT_L].map (slotReg (min 7 (argN r.args 1).toNat)))).map (shown s)) false ∧
       t.reg (opcReg Off.OPC_CLAMP_CNT) = s.reg (opcReg Off.OPC_CLAMP_CNT)
         + BitVec.ofNat 36 (clamped 0 7 (argN r.args 1)) ∧
       regsBut [opcReg Off.OPC_CLAMP_CNT] s t ∧
       t = { s with regs := t.regs, running := t.running })) ∧
  (∀ (r : Running) (s : State),
     runsCmd s 0x704 r →
     readable s ([taReg (tileOf (argN r.args 1)) Off.PWR_TA_STAT,
                  taReg (tileOf (argN r.args 1)) Off.PWR_REFUSE_CNT,
                  taReg (tileOf (argN r.args 1)) Off.PWR_LAST_REFUSER,
                  taReg (tileOf (argN r.args 1)) Off.PWR_TILE_CLAIM]) = true →
     Completes (.pwrRead) s (fun t =>
       answersCmd t r 0 ([W.at 0 3 (tileState s (tileOf (argN r.args 1))),
                          shown s (taReg (tileOf (argN r.args 1)) Off.PWR_REFUSE_CNT),
                          shown s (taReg (tileOf (argN r.args 1)) Off.PWR_LAST_REFUSER),
                          W.at 0 23 ((s.reg (taReg (tileOf (argN r.args 1)) Off.PWR_TILE_CLAIM)).fld 0 23)
                          ||| W.at 35 1 ((s.reg (taReg (tileOf (argN r.args 1)) Off.PWR_TILE_CLAIM)).fld 23 1)]) false ∧
       t.reg (opcReg Off.OPC_CLAMP_CNT) = s.reg (opcReg Off.OPC_CLAMP_CNT)
         + BitVec.ofNat 36 (tileClamps (argN r.args 1)) ∧
       regsBut [opcReg Off.OPC_CLAMP_CNT] s t ∧
       t = { s with regs := t.regs, running := t.running })) ∧
  (∀ (r : Running) (s : State),
     runsCmd s 0x803 r →
     ¬((tileOf (argN r.args 1)) = 63 ∧ (argN r.args 2).fld 0 3 = 7) →
     readable s ((([0, 1, 3, 4, 5].map (recReg (tileOf (argN r.args 1)) ((argN r.args 2).fld 0 3))))) = true →
     Completes (.bistResult) s (fun t =>
       answersCmd t r 0 (([0, 1, 3, 4,
                           5].map (fun j => shown s (recReg (tileOf (argN r.args 1)) ((argN r.args 2).fld 0 3) j)))) false ∧
       t.reg (opcReg Off.OPC_CLAMP_CNT) = s.reg (opcReg Off.OPC_CLAMP_CNT)
         + BitVec.ofNat 36 (tileClamps (argN r.args 1)) ∧
       regsBut [opcReg Off.OPC_CLAMP_CNT] s t ∧
       t = { s with regs := t.regs, running := t.running })) ∧
  (∀ (r : Running) (s : State),
     runsCmd s 0x803 r →
     (tileOf (argN r.args 1)) = 63 →
     (argN r.args 2).fld 0 3 = 7 →
     Completes (.bistResult) s (fun t =>
       answersCmd t r 0 [s.reg (bstReg Off.BST_POST_STAT), s.reg (bstReg Off.BST_POST_SIG),
                         s.reg (bstReg Off.BST_POST_COV), ftHi s.postFt, ftLo s.postFt] false ∧
       t.reg (opcReg Off.OPC_CLAMP_CNT) = s.reg (opcReg Off.OPC_CLAMP_CNT)
         + BitVec.ofNat 36 (tileClamps (argN r.args 1)) ∧
       regsBut [opcReg Off.OPC_CLAMP_CNT] s t ∧
       t = { s with regs := t.regs, running := t.running })) ∧
  (∀ (r : Running) (s : State),
     runsCmd s 0x903 r →
     readable s ([opcReg Off.OPC_FW_STAT, opcReg Off.OPC_IMG_STAT, opcReg Off.OPC_IMG_BANK,
                  opcReg Off.OPC_KEY_STAT]) = true →
     Completes (.fwInfo) s (fun t =>
       answersCmd t r 0 ([shown s (opcReg Off.OPC_FW_STAT), shown s (opcReg Off.OPC_IMG_STAT),
                          shown s (opcReg Off.OPC_IMG_BANK), s.word (sramAddr 0x101), s.word (sramAddr (0x101
                                                                                                        + 73728)),
                          shown s (opcReg Off.OPC_KEY_STAT)]) false ∧
       t = { s with running := t.running })) ∧
  (∀ (r : Running) (s : State),
     runsCmd s 0xA01 r →
     (((List.range (clampArg 1 15 (argN r.args 2))).flatMap (fun j => (List.range 4).map (fun k => tmemAddr (63 * (argN r.args 3).fld 0 1) 0
                                                                                          + ringOff ((clampArg 0 4095 (argN r.args 1)
                                                                                                      + j) % 4096)
                                                                                          + k))).all (fun a => !isPoison s a && decide (tileState s ((a - tmemAddr 0 0) / 0x20000) ≠ 3))) = true →
     Completes (.logRead) s (fun t =>
       answersCmd t r 0 (natW (getFld s (evlReg Off.EVL_WR_POS) 0 12) :: ((List.range (clampArg 1 15 (argN r.args 2))).flatMap (fun j => (List.range 4).map (fun k => tmemAddr (63 * (argN r.args 3).fld 0 1) 0
                                                                                                                                                             + ringOff ((clampArg 0 4095 (argN r.args 1)
                                                                                                                                                                         + j) % 4096)
                                                                                                                                                             + k))).map s.word) false ∧
       t.reg (opcReg Off.OPC_CLAMP_CNT) = s.reg (opcReg Off.OPC_CLAMP_CNT)
         + BitVec.ofNat 36 (clamped 0 4095 (argN r.args 1) + clamped 1 15 (argN r.args 2)) ∧
       regsBut [opcReg Off.OPC_CLAMP_CNT] s t ∧
       t = { s with regs := t.regs, running := t.running })) ∧
  (∀ (n : Nat) (r : Running) (s : State),
     runsCmd s 0xA02 r →
     (argN r.args 2) = 0 →
     nodeArg s (argN r.args 1) = some n →
     readable s ((niCounters.map (niReg n))) = true →
     Completes (.cntRead) s (fun t =>
       answersCmd t r 0 (((niCounters.map (niReg n))).map (shown s)) false ∧
       t = { s with running := t.running })) ∧
  (∀ (r : Running) (s : State),
     runsCmd s 0xA02 r →
     (argN r.args 2) = 1 →
     readable s ((rtrCounters.map (rtrReg (tileOf (argN r.args 1))))) = true →
     Completes (.cntRead) s (fun t =>
       answersCmd t r 0 (((rtrCounters.map (rtrReg (tileOf (argN r.args 1))))).map (shown s)) false ∧
       t.reg (opcReg Off.OPC_CLAMP_CNT) = s.reg (opcReg Off.OPC_CLAMP_CNT)
         + BitVec.ofNat 36 (tileClamps (argN r.args 1)) ∧
       regsBut [opcReg Off.OPC_CLAMP_CNT] s t ∧
       t = { s with regs := t.regs, running := t.running })) ∧
  (∀ (r : Running) (s : State),
     runsCmd s 0xA02 r →
     2 ≤ (argN r.args 2).toNat →
     readable s ((tmemCounters.map (tmemReg (tileOf (argN r.args 1))))) = true →
     Completes (.cntRead) s (fun t =>
       answersCmd t r 0 (((tmemCounters.map (tmemReg (tileOf (argN r.args 1))))).map (shown s)) false ∧
       t.reg (opcReg Off.OPC_CLAMP_CNT) = s.reg (opcReg Off.OPC_CLAMP_CNT)
         + BitVec.ofNat 36 (clamped 0 2 (argN r.args 2) + tileClamps (argN r.args 1)) ∧
       regsBut [opcReg Off.OPC_CLAMP_CNT] s t ∧
       t = { s with regs := t.regs, running := t.running }))

/-- A command writes its clamped arguments into the fields that its table names, at the NI it names or at all,
counts the clamps, and answers OK (CLS_TB_SET and CLS_DEST_SET ask for the checks of R95 and R123 after
completion): PUNT_SET, CLS_TB_SET, CLS_DEST_SET, ADM_SET, MC_CFG_SET, LATE_SET, BIST_CFG, ALARM_SET, GRD_SET and
GRD_OFF directly; PROFILE_SET, MISS_SET, CLS_WRR_SET, MC_GROUP_SET and MC_GROUP_CLEAR by a change that is queued
under the next ticket, with the registers and the fields that R20, R126 and R248 give; TK_SWITCH by a switchover.
-/
def Obligations.CommandsThatWriteFields : Prop :=
  (∀ (ns : List Nat) (r : Running) (s : State),
     runsCmd s 0x206 r →
     nodesArg s (argN r.args 1) unitPort = some ns →
     (ns.all (fun n => decide (n < 448) && decide (tileState s (n / 7) ≠ 3) && !tileDark s (n / 7))) = true →
     Completes (.puntSet) s (fun t =>
       answersCmd t r 0 [] (anyNew s t (ns.flatMap (fun n => [niReg n Off.NI_PUNT_TB, niReg n (Off.NI_PUNT_DST 0),
         niReg n (Off.NI_PUNT_DST 1), niReg n (Off.NI_PUNT_DST 2), niReg n (Off.NI_PUNT_DST 3)]))) ∧
       (ns.all (fun n => decide (t.reg (niReg n (Off.NI_PUNT_TB)) = (match regAt (niReg n (Off.NI_PUNT_TB)) with
         | none => 0 | some (b, o,
                             x) => legalizeAt b o x (argN r.args 2))) && decide (t.reg (niReg n (Off.NI_PUNT_DST 0)) = (match regAt (niReg n (Off.NI_PUNT_DST 0)) with
                               | none => 0 | some (b, o,
                                                   x) => legalizeAt b o x (argN r.args 3))) && decide (t.reg (niReg n (Off.NI_PUNT_DST 1)) = (match regAt (niReg n (Off.NI_PUNT_DST 1)) with
                                                     | none => 0 | some (b, o,
                                                                         x) => legalizeAt b o x (argN r.args 4))) && decide (t.reg (niReg n (Off.NI_PUNT_DST 2)) = (match regAt (niReg n (Off.NI_PUNT_DST 2)) with
                                                                           | none => 0 | some (b, o,
                                                                                               x) => legalizeAt b o x (argN r.args 5))) && decide (t.reg (niReg n (Off.NI_PUNT_DST 3)) = (match regAt (niReg n (Off.NI_PUNT_DST 3)) with
                                                                                                 | none => 0 | some (b,
                                                                                                                     o,
                                                                                                                     x) => legalizeAt b o x (argN r.args 6)))) = true) ∧
       regsBut (opcReg Off.OPC_CLAMP_CNT :: ns.flatMap (fun n => [niReg n (Off.NI_PUNT_TB),
                                                                  niReg n (Off.NI_PUNT_LEVEL),
                                                                  niReg n (Off.NI_PUNT_DST 0),
                                                                  niReg n (Off.NI_PUNT_DST 1),
                                                                  niReg n (Off.NI_PUNT_DST 2),
                                                                  niReg n (Off.NI_PUNT_DST 3)])) s t ∧
       t.reg (opcReg Off.OPC_CLAMP_CNT) = s.reg (opcReg Off.OPC_CLAMP_CNT)
         + BitVec.ofNat 36 ((cmdOf s 0x206 r.args).clamps) ∧
       t = { s with regs := t.regs, running := t.running, shadows := t.shadows })) ∧
  (∀ (ns : List Nat) (r : Running) (s : State),
     runsCmd s 0x301 r →
     nodesArg s (argN r.args 1) unitPort = some ns →
     (ns.all (fun n => decide (n < 448) && decide (tileState s (n / 7) ≠ 3) && !tileDark s (n / 7))) = true →
     Completes (.clsTbSet) s (fun t =>
       answersCmd t { r with checks := true } 0 [] (anyNew s t (ns.map (fun n => niReg n (Off.NI_TB_SC7 + (7 - classArg (argN r.args 2)))))) ∧
       (ns.all (fun n => decide (getFld t (niReg n (Off.NI_TB_SC7
                                                    + (7 - classArg (argN r.args 2)))) 0 11 = clampArg 1 1024 (argN r.args 3)) && decide (getFld t (niReg n (Off.NI_TB_SC7
                                                                                                                                                             + (7 - classArg (argN r.args 2)))) 12 11 = clampArg 4 1024 (argN r.args 4))) = true) ∧
       regsBut (opcReg Off.OPC_CLAMP_CNT :: ns.flatMap (fun n => [niReg n (Off.NI_TB_SC7
                                                                           + (7 - classArg (argN r.args 2))),
                                                                  niReg n (Off.NI_TB_LEVEL)])) s t ∧
       t.reg (opcReg Off.OPC_CLAMP_CNT) = s.reg (opcReg Off.OPC_CLAMP_CNT)
         + BitVec.ofNat 36 ((cmdOf s 0x301 r.args).clamps) ∧
       (s.checkDue = true → t.checkDue = true) ∧
       t = { s with regs := t.regs, running := t.running, shadows := t.shadows, checkDue := t.checkDue })) ∧
  (∀ (ns : List Nat) (r : Running) (s : State),
     runsCmd s 0x302 r →
     nodesArg s (argN r.args 1) unitPort = some ns →
     (ns.all (fun n => decide (n < 448) && decide (tileState s (n / 7) ≠ 3) && !tileDark s (n / 7))) = true →
     classArg (argN r.args 2) ≠ 5 →
     Completes (.clsDestSet) s (fun t =>
       answersCmd t { r with checks := true } 0 [] (anyNew s t (ns.flatMap (fun n => [niReg n (Off.NI_DEST_SC7_LO + 2 * (7 - classArg (argN r.args 2))),
         niReg n (Off.NI_DEST_SC7_LO + 2 * (7 - classArg (argN r.args 2)) + 1)]))) ∧
       (ns.all (fun n => decide (getFld t (niReg n (Off.NI_DEST_SC7_LO
                                                    + 2 * (7 - classArg (argN r.args 2)))) 0 32 = (argN r.args 3).fld 0 32) && decide (getFld t (niReg n ((Off.NI_DEST_SC7_LO
                                                                                                                                                           + 2 * (7 - classArg (argN r.args 2)))
                                                                                                                                                          + 1)) 0 32 = (argN r.args 4).fld 0 32)) = true) ∧
       regsBut (opcReg Off.OPC_CLAMP_CNT :: ns.flatMap (fun n => [niReg n ((Off.NI_DEST_SC7_LO
                                                                            + 2 * (7 - classArg (argN r.args 2)))),
                                                                  niReg n ((Off.NI_DEST_SC7_LO
                                                                            + 2 * (7 - classArg (argN r.args 2)))
                                                                           + 1)])) s t ∧
       t.reg (opcReg Off.OPC_CLAMP_CNT) = s.reg (opcReg Off.OPC_CLAMP_CNT)
         + BitVec.ofNat 36 ((cmdOf s 0x302 r.args).clamps) ∧
       (s.checkDue = true → t.checkDue = true) ∧
       t = { s with regs := t.regs, running := t.running, shadows := t.shadows, checkDue := t.checkDue })) ∧
  (∀ (ns : List Nat) (r : Running) (s : State),
     runsCmd s 0x304 r →
     nodesArg s (argN r.args 1) unitPort = some ns →
     (ns.all (fun n => decide (n < 448) && decide (tileState s (n / 7) ≠ 3) && !tileDark s (n / 7))) = true →
     Completes (.admSet) s (fun t =>
       answersCmd t r 0 [] (anyNew s t (ns.flatMap (fun n => [niReg n Off.NI_ADM_TO, niReg n Off.NI_RSV_CFG]))) ∧
       (ns.all (fun n => decide (t.reg (niReg n (Off.NI_ADM_TO)) = (match regAt (niReg n (Off.NI_ADM_TO)) with
         | none => 0 | some (b, o,
                             x) => legalizeAt b o x (argN r.args 2))) && decide (t.reg (niReg n (Off.NI_RSV_CFG)) = (match regAt (niReg n (Off.NI_RSV_CFG)) with
                               | none => 0 | some (b, o, x) => legalizeAt b o x (argN r.args 3)))) = true) ∧
       regsBut (opcReg Off.OPC_CLAMP_CNT :: ns.flatMap (fun n => [niReg n (Off.NI_ADM_TO),
                                                                  niReg n (Off.NI_RSV_CFG)])) s t ∧
       t.reg (opcReg Off.OPC_CLAMP_CNT) = s.reg (opcReg Off.OPC_CLAMP_CNT)
         + BitVec.ofNat 36 ((cmdOf s 0x304 r.args).clamps) ∧
       t = { s with regs := t.regs, running := t.running, shadows := t.shadows })) ∧
  (∀ (ns : List Nat) (r : Running) (s : State),
     runsCmd s 0x305 r →
     nodesArg s (argN r.args 1) unitPort = some ns →
     (ns.all (fun n => decide (n < 448) && decide (tileState s (n / 7) ≠ 3) && !tileDark s (n / 7))) = true →
     Completes (.mcCfgSet) s (fun t =>
       answersCmd t r 0 [] (anyNew s t (ns.map (fun n => niReg n Off.NI_MC_CFG))) ∧
       (ns.all (fun n => decide (t.reg (niReg n (Off.NI_MC_CFG)) = (match regAt (niReg n (Off.NI_MC_CFG)) with
         | none => 0 | some (b, o, x) => legalizeAt b o x (argN r.args 2)))) = true) ∧
       regsBut (opcReg Off.OPC_CLAMP_CNT :: ns.flatMap (fun n => [niReg n (Off.NI_MC_CFG)])) s t ∧
       t.reg (opcReg Off.OPC_CLAMP_CNT) = s.reg (opcReg Off.OPC_CLAMP_CNT)
         + BitVec.ofNat 36 ((cmdOf s 0x305 r.args).clamps) ∧
       t = { s with regs := t.regs, running := t.running, shadows := t.shadows })) ∧
  (∀ (ns : List Nat) (r : Running) (s : State),
     runsCmd s 0x306 r →
     nodesArg s (argN r.args 1) (fun p => decide (p ≤ 1)) = some ns →
     (ns.all (fun n => decide (n < 448) && decide (tileState s (n / 7) ≠ 3) && !tileDark s (n / 7))) = true →
     Completes (.lateSet) s (fun t =>
       answersCmd t r 0 [] (anyNew s t (ns.map (fun n => niReg n Off.NI_LATE_CFG))) ∧
       (ns.all (fun n => decide (t.reg (niReg n (Off.NI_LATE_CFG)) = (match regAt (niReg n (Off.NI_LATE_CFG)) with
         | none => 0 | some (b, o, x) => legalizeAt b o x (argN r.args 2)))) = true) ∧
       regsBut (opcReg Off.OPC_CLAMP_CNT :: ns.map (fun n => niReg n Off.NI_LATE_CFG)) s t ∧
       t.reg (opcReg Off.OPC_CLAMP_CNT) = s.reg (opcReg Off.OPC_CLAMP_CNT)
         + BitVec.ofNat 36 ((fLate s r.args).clamps) ∧
       t = { s with regs := t.regs, running := t.running, shadows := t.shadows })) ∧
  (∀ (r : Running) (s : State),
     runsCmd s 0x801 r →
     Completes (.bistCfg) s (fun t =>
       answersCmd t r 0 [] (anyNew s t [bstReg Off.BST_CFG]) ∧
       getFld t (bstReg Off.BST_CFG) 0 20 = clampArg 100 1000000 (argN r.args 1) ∧
       getFld t (bstReg Off.BST_CFG) 20 7 = clampArg 1 90 (argN r.args 2) ∧
       getFld t (bstReg Off.BST_CFG) 27 1 = (argN r.args 3).fld 0 1 ∧
       t.reg (opcReg Off.OPC_CLAMP_CNT) = s.reg (opcReg Off.OPC_CLAMP_CNT)
         + BitVec.ofNat 36 (clamped 100 1000000 (argN r.args 1) + clamped 1 90 (argN r.args 2)) ∧
       regsBut [opcReg Off.OPC_CLAMP_CNT, bstReg Off.BST_CFG] s t ∧
       t = { s with regs := t.regs, running := t.running, shadows := t.shadows })) ∧
  (∀ (r : Running) (s : State),
     runsCmd s 0x502 r →
     braced s = false →
     Completes (.alarmSet) s (fun t =>
       answersCmd t r 0 [t.reg (tkReg Off.TK_ALARM_STAT)] (anyNew s t [tkReg Off.TK_ALARM_H, tkReg Off.TK_ALARM_L, tkReg Off.TK_ALARM_CTRL,
         tkReg Off.TK_ALARM_STAT]) ∧
       t.reg (tkReg Off.TK_ALARM_H) = (argN r.args 1) ∧
       t.reg (tkReg Off.TK_ALARM_L) = ftLowClamp (argN r.args 2) ∧
       regBit t (tkReg Off.TK_ALARM_CTRL) 0 = (argN r.args 3).bit 0 ∧
       t.reg (tkReg Off.TK_ALARM_STAT) = s.reg (tkReg Off.TK_ALARM_STAT) &&& ~~~ 3 ∧
       t.reg (opcReg Off.OPC_CLAMP_CNT) = s.reg (opcReg Off.OPC_CLAMP_CNT) + BitVec.ofNat 36 (ltClamps r.args 1) ∧
       regsBut [opcReg Off.OPC_CLAMP_CNT, tkReg Off.TK_ALARM_H, tkReg Off.TK_ALARM_L, tkReg Off.TK_ALARM_CTRL,
                tkReg Off.TK_ALARM_STAT] s t ∧
       t = { s with regs := t.regs, running := t.running })) ∧
  (∀ (g : Nat) (r : Running) (s : State),
     runsCmd s 0x401 r →
     guardArg s (argN r.args 1) = some g →
     tileState s (guardTile g) ≠ 3 →
     tileDark s (guardTile g) = false →
     overlapPair (pokes s (fwNode s) ((guardReg g Off.GRD_CTRL, 2) :: fldWords s (regionFlds r.args g))) g = none →
     (s.ni (if g < 448 then g else if g = 448 then 6 else 447)).held = [] →
     (s.ni (if g < 448 then g else if g = 448 then 6 else 447)).oq = [] →
     g < 448 ∨ (s.core (g - 448)).wq = [] →
     Completes (.grdSet) s (fun t =>
       answersCmd t r 0 [grdStat t g] (anyNew s t (guardReg g Off.GRD_CTRL :: (List.range 16).flatMap (fun k =>
         [guardReg g (Off.GRD_START k), guardReg g (Off.GRD_END k), guardReg g (Off.GRD_PERM k)]))) ∧
       t.reg (guardReg g Off.GRD_CTRL) = 1 ∧
       ((List.range 16).all (fun k => if k < regionCount r.args
                             then decide (t.reg (guardReg g (Off.GRD_START k)) = argN r.args (3
                                                                                              + 3 * k)) && decide (t.reg (guardReg g (Off.GRD_END k)) = argN r.args (4
                                                                                                                                                                     + 3 * k)) && decide (getFld t (guardReg g (Off.GRD_PERM k)) 0 4 = permArg r.args g k)
                             else decide (getFld t (guardReg g (Off.GRD_PERM k)) 0 4 = 0)) = true) ∧
       regsBut ([opcReg Off.OPC_CLAMP_CNT, guardReg g Off.GRD_CTRL, guardReg g Off.GRD_STAT]
                ++ (List.range 16).flatMap (fun k => [guardReg g (Off.GRD_START k), guardReg g (Off.GRD_END k),
                                                      guardReg g (Off.GRD_PERM k)])) s t ∧
       t.reg (opcReg Off.OPC_CLAMP_CNT) = s.reg (opcReg Off.OPC_CLAMP_CNT)
         + BitVec.ofNat 36 (clamped 0 16 (argN r.args 2)) ∧
       changesOnly [.regs, .firmware] s t)) ∧
  (∀ (g : Nat) (r : Running) (s : State),
     runsCmd s 0x402 r →
     guardArg s (argN r.args 1) = some g →
     tileState s (guardTile g) ≠ 3 →
     tileDark s (guardTile g) = false →
     (s.ni (if g < 448 then g else if g = 448 then 6 else 447)).held = [] →
     (s.ni (if g < 448 then g else if g = 448 then 6 else 447)).oq = [] →
     g < 448 ∨ (s.core (g - 448)).wq = [] →
     Completes (.grdOff) s (fun t =>
       answersCmd t r 0 [grdStat t g] (anyNew s t [guardReg g Off.GRD_CTRL]) ∧
       t.reg (guardReg g Off.GRD_CTRL) = 0 ∧
       regsBut [guardReg g Off.GRD_CTRL] s t ∧
       changesOnly [.regs, .firmware] s t)) ∧
  (∀ (p m : Nat) (r : Running) (s : State),
     runsCmd s 0x201 r →
     s.tickets.length + b2n s.fenceTicket.isSome < 32 →
     p = (if (argN r.args 1).fld 0 2 = 3 then 1 else (argN r.args 1).fld 0 2) →
     ((List.range 64).all (fun u => m.testBit u == (decide (p = 1) && (declaring s).any (fun n =>
       decide (row (n / 7) = row u) || (destOf s n 5).testBit u)))) = true →
     m < 2 ^ 64 →
     Completes (.profileSet) s (fun t =>
       answersCmd t r 0 [natW ((s.tickLast + 1) % 65536)] true ∧
       t.tickets = s.tickets ++ [{ num := (s.tickLast + 1) % 65536,
                                   ents := comingWords s (cmdOf s 0x201 r.args).flds, lt := ltPair r.args 2,
                                   check := true }] ∧
       queuedAddrs t = [pwrReg Off.PWR_PROFILE, pwrReg Off.PWR_SC5_TILES_LO, pwrReg Off.PWR_SC5_TILES_HI]
         ++ (List.range 64).map (fun u => rtrReg u Off.RTR_CTRL) ∧
       queuedAt t (pwrReg Off.PWR_PROFILE) = some ((comingReg s (pwrReg Off.PWR_PROFILE)).put 0 2 p) ∧
       queuedAt t (pwrReg Off.PWR_SC5_TILES_LO) = some ((comingReg s (pwrReg Off.PWR_SC5_TILES_LO)).put 0 32 (m % 2 ^ 32)) ∧
       queuedAt t (pwrReg Off.PWR_SC5_TILES_HI) = some ((comingReg s (pwrReg Off.PWR_SC5_TILES_HI)).put 0 32 (m / 2 ^ 32)) ∧
       ((List.range 64).all (fun u => decide (queuedAt t (rtrReg u Off.RTR_CTRL) =
         some ((comingReg s (rtrReg u Off.RTR_CTRL)).put 0 3 (if p = 0 then 1 else if p = 1 then 2 else 0))))) = true ∧
       t.reg (opcReg Off.OPC_CLAMP_CNT) = s.reg (opcReg Off.OPC_CLAMP_CNT)
         + BitVec.ofNat 36 ((cmdOf s 0x201 r.args).clamps) ∧
       regsBut [opcReg Off.OPC_CLAMP_CNT] s t ∧
       t = { s with
         regs := t.regs, running := t.running, tickets := t.tickets, tickLast := (s.tickLast + 1) % 65536 })) ∧
  (∀ (x : Fin 64) (q : Nat) (r : Running) (s : State),
     runsCmd s 0x205 r →
     s.tickets.length + b2n s.fenceTicket.isSome < 32 →
     x.val = min 63 (argN r.args 1).toNat →
     q = (((List.range 64).map (fun u => popCount (if u = x.val then (argN r.args 2).fld 16 8
       else (comingReg s (missReg u)).fld 16 8))).foldl (· + ·) 0) →
     Completes (.missSet) s (fun t =>
       answersCmd t r 0 [natW ((s.tickLast + 1) % 65536)] true ∧
       t.tickets = s.tickets ++ [{ num := (s.tickLast + 1) % 65536,
                                   ents := comingWords s (cmdOf s 0x205 r.args).flds, lt := ltPair r.args 3,
                                   check := false }] ∧
       queuedAt t (missReg x) = some ((((comingReg s (missReg x)).put 0 8 ((argN r.args 2).fld 0 8)).put 8 8
         (if q ≤ 128 then (argN r.args 2).fld 8 8 else 0)).put 16 8 ((argN r.args 2).fld 16 8)) ∧
       ((List.range 64).all (fun u => decide (u = x.val) || decide (queuedAt t (missReg u) =
         (if 128 < q ∧ ((List.range 64).map (fun v => popCount ((comingReg s (missReg v)).fld 16 8))).foldl (· + ·) 0 ≤ 128 ∧
           (comingReg s (missReg u)).fld 8 8 ≠ 0 then some ((comingReg s (missReg u)).put 8 8 0) else none)))) = true ∧
       ((queuedAddrs t).all (fun a => (List.range 64).any (fun u => decide (a = missReg u)))) = true ∧
       t.reg (opcReg Off.OPC_CLAMP_CNT) = s.reg (opcReg Off.OPC_CLAMP_CNT)
         + BitVec.ofNat 36 ((cmdOf s 0x205 r.args).clamps) ∧
       regsBut [opcReg Off.OPC_CLAMP_CNT] s t ∧
       t = { s with
         regs := t.regs, running := t.running, tickets := t.tickets, tickLast := (s.tickLast + 1) % 65536 })) ∧
  (∀ (r : Running) (s : State),
     runsCmd s 0x303 r →
     s.tickets.length + b2n s.fenceTicket.isSome < 32 →
     Completes (.clsWrrSet) s (fun t =>
       answersCmd t r 0 [natW ((s.tickLast + 1) % 65536)] true ∧
       t.tickets = s.tickets ++ [{ num := (s.tickLast + 1) % 65536,
                                   ents := comingWords s (cmdOf s 0x303 r.args).flds, lt := ltPair r.args 3,
                                   check := false }] ∧
       queuedAddrs t = (List.range 64).flatMap (fun u => [rtrReg u Off.RTR_WRR_W0, rtrReg u Off.RTR_WRR_W1,
         rtrReg u Off.RTR_AGE_LIM]) ∧
       ((List.range 64).all (fun u =>
         decide (queuedAt t (rtrReg u Off.RTR_WRR_W0) = some (((((comingReg s (rtrReg u Off.RTR_WRR_W0)).put 0 8
           (max 1 ((argN r.args 1).fld 0 8))).put 8 8 (max 1 ((argN r.args 1).fld 8 8))).put 16 8
           (max 1 ((argN r.args 1).fld 16 8))).put 24 8 (max 1 ((argN r.args 1).fld 24 8)))) &&
         decide (queuedAt t (rtrReg u Off.RTR_WRR_W1) = some ((comingReg s (rtrReg u Off.RTR_WRR_W1)).put 0 8
           (max 1 ((argN r.args 2).fld 0 8)))) &&
         decide (queuedAt t (rtrReg u Off.RTR_AGE_LIM) = some ((comingReg s (rtrReg u Off.RTR_AGE_LIM)).put 0 16
           (max 64 ((argN r.args 2).fld 8 16)))))) = true ∧
       t.reg (opcReg Off.OPC_CLAMP_CNT) = s.reg (opcReg Off.OPC_CLAMP_CNT)
         + BitVec.ofNat 36 ((cmdOf s 0x303 r.args).clamps) ∧
       regsBut [opcReg Off.OPC_CLAMP_CNT] s t ∧
       t = { s with
         regs := t.regs, running := t.running, tickets := t.tickets, tickLast := (s.tickLast + 1) % 65536 })) ∧
  (∀ (r : Running) (s : State),
     runsCmd s 0x202 r →
     s.tickets.length + b2n s.fenceTicket.isSome < 32 →
     Completes (.mcGroupSet) s (fun t =>
       answersCmd t r 0 [natW ((s.tickLast + 1) % 65536)] true ∧
       t.tickets = s.tickets ++ [{ num := (s.tickLast + 1) % 65536,
                                   ents := maskEnts (groupArg r.args) (argN r.args 2) (W.at 0 28 ((argN r.args 3).fld 0 28)
                                                                                       ||| W.at 35 1 1)
                                   ++ laneEnts s (groupArg r.args) ((tilesOf (groupSetMask r.args)).map (fun u => (u,
                                                                                                                   laneArg r.args u)))
                                   ++ invEnts s (groupArg r.args), lt := ltPair r.args 20, check := false }] ∧
       t.reg (opcReg Off.OPC_CLAMP_CNT) = s.reg (opcReg Off.OPC_CLAMP_CNT)
         + BitVec.ofNat 36 ((cmdOf s 0x202 r.args).clamps) ∧
       regsBut [opcReg Off.OPC_CLAMP_CNT] s t ∧
       t = { s with
         regs := t.regs, running := t.running, tickets := t.tickets, tickLast := (s.tickLast + 1) % 65536 })) ∧
  (∀ (r : Running) (s : State),
     runsCmd s 0x203 r →
     s.tickets.length + b2n s.fenceTicket.isSome < 32 →
     Completes (.mcGroupClear) s (fun t =>
       answersCmd t r 0 [natW ((s.tickLast + 1) % 65536)] true ∧
       t.tickets = s.tickets ++ [{ num := (s.tickLast + 1) % 65536, ents := maskEnts (groupArg r.args) 0 0
                                   ++ laneEnts s (groupArg r.args) ((List.range 64).map (fun u => (u, 0)))
                                   ++ invEnts s (groupArg r.args), lt := ltPair r.args 2, check := false }] ∧
       t.reg (opcReg Off.OPC_CLAMP_CNT) = s.reg (opcReg Off.OPC_CLAMP_CNT)
         + BitVec.ofNat 36 ((cmdOf s 0x203 r.args).clamps) ∧
       regsBut [opcReg Off.OPC_CLAMP_CNT] s t ∧
       t = { s with
         regs := t.regs, running := t.running, tickets := t.tickets, tickLast := (s.tickLast + 1) % 65536 })) ∧
  (∀ (r : Running) (s : State),
     runsCmd s 0x501 r →
     stbyOk s = true →
     switching s = false →
     s.tkNone = false →
     s.evq.length < 16 →
     Completes (.tkSwitch) s (fun t =>
       answersCmd t r 0 [t.reg (tkReg Off.TK_STAT)] true ∧
       activeTk t = 1 - activeTk s ∧
       switching t = false ∧
       t.reg (tkReg Off.TK_SW_CNT) = s.reg (tkReg Off.TK_SW_CNT) + 1 ∧
       logs s t (mkEv (ftNow s) (nodeTP s 0 7) EvC.TK_SWITCH []) ∧
       regsBut [tkReg Off.TK_STAT, tkReg Off.TK_SW_CNT] s t ∧
       t = { s with regs := t.regs, running := t.running, evq := t.evq, tkUnasked := false, swEnd := some (s.fc / 8) }))

/-- A doorbell of an IDLE or DONE mailbox queues it with its copy and stamp and keeps its header; of a QUEUED or
RUNNING one, or for a copy out of service, it sets the overrun bit alone. A session reset discards the commands
queued at or before its stamp, zeroes areas, returns mailboxes to IDLE, clears the flags and writes MBX_SESS_STAT.
The oldest queued command starts with its header and arguments copied. A completed command is answered in its
copy, with the mark and the epoch, and one that an access stopped answers R216's error instead; a handover that
waits for it then begins, MBX_AVAIL showing it, unless a session reset waits; a check of an image that ends with
nothing running begins one too. No command starts during a handover. An unknown or unserved opcode is answered
BADOP or NOTREADY. -/
def Obligations.Mailboxes : Prop :=
  (∀ (n : Fin 64) (c : Bool) (s : State),
     mbxState s n = 0 ∨ mbxState s n = 3 →
     outNow s (63 * b2n c) = false →
     mayReadHdr s = true →
     guardPasses s (activeCore s) = true →
     isPoison s (mbxArea (b2n c) n) = false →
     fstate s ≠ 2 →
     Completes (.mbxDb [(n, c)]) s (fun t =>
       t.reg (mbxReg (Off.MBX_STAT n)) = (W.at 0 2 1 ||| W.at 2 1 (b2n c)) ∧
       t.reg (mbxReg (Off.MBX_STAMP n)) = natW s.fc ∧
       headerOf t n = some (s.word (mbxArea (b2n c) n)) ∧
       (∀ m, m ≠ n.val → headerOf t m = headerOf s m) ∧
       regsBut [mbxReg (Off.MBX_STAT n), mbxReg (Off.MBX_STAMP n)] s t ∧
       t = { s with regs := t.regs, hdrs := t.hdrs })) ∧
  (∀ (n : Fin 64) (c : Bool) (s : State),
     mbxState s n = 1 ∨ mbxState s n = 2 ∨ outNow s (63 * b2n c) = true →
     fstate s ≠ 2 →
     Completes (.mbxDb [(n, c)]) s (fun t =>
       t.reg (mbxReg (Off.MBX_OVR_LO + n.val / 32)) = (s.reg (mbxReg (Off.MBX_OVR_LO
                                                                      + n.val / 32))).put (n.val % 32) 1 1 ∧
       regsBut [mbxReg (Off.MBX_OVR_LO + n.val / 32)] s t ∧
       t = { s with regs := t.regs })) ∧
  (∀ (w : Fin 64 × Bool) (ws : List (Fin 64 × Bool)) (s t : State), exec (.mbxDb [w]) s = .next t → exec (.mbxDb (w :: ws)) s = exec (.mbxDb ws) t) ∧
  (∀ (s : State),
     s.session = none →
     Completes (.mbxSession) s (fun t =>
       t.reg (mbxReg Off.MBX_AVAIL) = (s.reg (mbxReg Off.MBX_AVAIL)).put 2 1 1 ∧
       regsBut [mbxReg Off.MBX_AVAIL] s t ∧
       t = { s with regs := t.regs, session := some { stamp := (natW s.fc).toNat } })) ∧
  (∀ (x : Session) (s : State),
     s.session = some x →
     Completes (.mbxSession) s (fun t =>
       t.reg (mbxReg Off.MBX_AVAIL) = (s.reg (mbxReg Off.MBX_AVAIL)).put 2 1 1 ∧
       regsBut [mbxReg Off.MBX_AVAIL] s t ∧
       t = { s with regs := t.regs, session := some { x with count := x.count + 1 } })) ∧
  (∀ (n : Nat) (s : State),
     waitingReset s = some n →
     handingOver s = false →
     fwAlive s = true →
     s.session = none →
     Completes (.sessionReset) s (fun t =>
       t.reg (mbxReg Off.MBX_AVAIL) = (s.reg (mbxReg Off.MBX_AVAIL)).put 2 1 1 ∧
       regsBut [mbxReg Off.MBX_AVAIL] s t ∧
       t = { s with regs := t.regs, session := some { stamp := mbxStamp s n, cmds := [n] } })) ∧
  (∀ (n : Nat) (x : Session) (s : State),
     waitingReset s = some n →
     handingOver s = false →
     fwAlive s = true →
     s.session = some x →
     Completes (.sessionReset) s (fun t =>
       t.reg (mbxReg Off.MBX_AVAIL) = (s.reg (mbxReg Off.MBX_AVAIL)).put 2 1 1 ∧
       regsBut [mbxReg Off.MBX_AVAIL] s t ∧
       t = { s with regs := t.regs, session := some { x with cmds := x.cmds ++ [n], count := x.count + 1 } })) ∧
  (∀ (x : Session) (s : State),
     s.session = some x →
     s.running = none →
     handingOver s = false →
     fwAlive s = true →
     ([5, 8, 9, 10, 11].all (fun j => !regBit s (evlReg (Off.EVL_IRQ_ROUTE j)) 4)) = true →
     x.cmds = [] →
     guardPasses s (activeCore s) = true →
     Completes (.sessionResetRun) s (fun t =>
       t.session = none ∧
       t.reg (mbxReg Off.MBX_AVAIL) = ((s.reg (mbxReg Off.MBX_AVAIL)).put 2 1 0).put 1 1
         (b2n (s.imgReady.isSome && (waitingReset t).isNone && (s.core (standby s)).run && stbyCore s)) ∧
       t.reg (mbxReg Off.MBX_SESS_STAT) = (W.at 0 16 (getFld s (mbxReg Off.MBX_SESS_STAT) 0 16 + x.count)
                                           ||| W.at 16 7 (((queuedBoxes s).filter (fun n => stampLe (mbxStamp s n) x.stamp))).length) ∧
       ((List.range 64).all (fun n => decide (t.reg (mbxReg (Off.MBX_STAT n)) = (if n ∈ ((queuedBoxes s).filter (fun n => !stampLe (mbxStamp s n) x.stamp))
                                                                                 then s.reg (mbxReg (Off.MBX_STAT n))
                                                                                 else (s.reg (mbxReg (Off.MBX_STAT n))).put 0 2 0))) = true) ∧
       t.reg (mbxReg Off.MBX_DONE_LO) = 0 ∧ t.reg (mbxReg Off.MBX_DONE_HI) = 0 ∧ t.reg (mbxReg Off.MBX_OVR_LO) = 0
         ∧ t.reg (mbxReg Off.MBX_OVR_HI) = 0 ∧
       (((List.range 64).flatMap (fun n => [0, 1].flatMap (fun c => (List.range 64).map (fun i => respArea c n
                                                                                         + i)))).all (fun a => decide (t.word a = 0
                                                                                                                       ∧ isPoison t a = false)) = true) ∧
       ((List.range 64).all (fun n => decide (n ∈ ((queuedBoxes s).filter (fun n => !stampLe (mbxStamp s n) x.stamp))) || [0,
                                                                                                                           1].all (fun c => (List.range 64).all (fun i => decide (t.word (mbxArea c n
                                                                                                                                                                                          + i) = 0
                                                                                                                                                                                  ∧ isPoison t (mbxArea c n
                                                                                                                                                                                                + i) = false)))) = true) ∧
       wordsBut (((List.range 64).flatMap (fun n => [0,
                                                     1].flatMap (fun c => (List.range 64).map (fun i => respArea c n
                                                                                               + i))))
                 ++ ((List.range 64).filter (fun n => n ∉ ((queuedBoxes s).filter (fun n => !stampLe (mbxStamp s n) x.stamp)))).flatMap (fun n => [0,
                                                                                                                                                   1].flatMap (fun c => (List.range 64).map (fun i => mbxArea c n
                                                                                                                                                                                             + i)))) s t ∧
       regsBut ([mbxReg Off.MBX_AVAIL, mbxReg Off.MBX_SESS_STAT, evlReg Off.EVL_IRQ_PEND] ++ [Off.MBX_DONE_LO,
                                                                                              Off.MBX_DONE_HI,
                                                                                              Off.MBX_OVR_LO,
                                                                                              Off.MBX_OVR_HI].map mbxReg
                ++ (List.range 64).map (fun n => mbxReg (Off.MBX_STAT n))) s t ∧
       changesOnly [.regs, .mem, .tmcs, .firmware] s t)) ∧
  (∀ (n : Fin 64) (x : Session) (h : W) (s : State),
     s.session = some x →
     s.running = none →
     handingOver s = false →
     fwAlive s = true →
     ([5, 8, 9, 10, 11].all (fun j => !regBit s (evlReg (Off.EVL_IRQ_ROUTE j)) 4)) = true →
     x.cmds = [n.val] →
     headerOf s n = some h →
     n.val ∈ ((queuedBoxes s).filter (fun n => stampLe (mbxStamp s n) x.stamp)) →
     Completes (.sessionResetRun) s (fun t =>
       t.session = none ∧
       t.reg (mbxReg Off.MBX_SESS_STAT) = (W.at 0 16 (getFld s (mbxReg Off.MBX_SESS_STAT) 0 16 + x.count)
                                           ||| W.at 16 7 ((((queuedBoxes s).filter (fun n => stampLe (mbxStamp s n) x.stamp))).length - 1)
                                           ||| W.at 23 1 1 ||| W.at 24 6 n) ∧
       mbxState t n = 3 ∧
       ((List.range 6).all (fun i => decide (t.word (respArea (mbxCopy s n) n
                                                     + i) = wordAt ([W.at 24 12 (hdrOpcode h)
                                                                     ||| W.at 16 8 (hdrTag h) ||| W.at 8 8 3
                                                                     ||| W.at 0 8 (hdrFlags h), 0,
                                                                     s.reg (opcReg Off.OPC_CFG_EPOCH)]
                                                                    ++ [s.reg (opcReg Off.OPC_FW_STAT),
                                                                        natW ((((queuedBoxes s).filter (fun n => stampLe (mbxStamp s n) x.stamp))).length - 1),
                                                                        natW x.stamp]) i)) = true) ∧
       regBit t (mbxReg (Off.MBX_DONE_LO + n.val / 32)) (n.val % 32) = h.bit 0 ∧
       ((List.range 64).all (fun m => decide (m = n.val) || decide (mbxState t m = (if m ∈ ((queuedBoxes s).filter (fun n => !stampLe (mbxStamp s n) x.stamp))
                                                                                    then mbxState s m
                                                                                    else 0))) = true) ∧
       changesOnly [.regs, .mem, .tmcs, .firmware] s t)) ∧
  (∀ (s : State) (n : Nat), inLoader s = false → nextBox s = some n → n ∈ queuedBoxes s ∧ ∀ m ∈ queuedBoxes s, stampLe (mbxStamp s n) (mbxStamp s m) = true) ∧
  (∀ (n : Fin 64) (h : W) (s : State),
     nextBox s = some n.val →
     headerOf s n = some h →
     fwAlive s = true →
     s.running = none →
     s.session = none →
     waitingReset s = none →
     handingOver s = false →
     s.imgReady = none →
     ((List.range (hdrLen h)).all (fun i => !isPoison s (mbxArea (mbxCopy s n) n + 1 + i))) = true →
     Completes (.commandStart) s (fun t =>
       t.running = some { mbx := n, copy := mbxCopy s n, hdr := h,
                          args := (List.range (hdrLen h)).map (fun i => s.word (mbxArea (mbxCopy s n) n + 1
                                                                                + i)) } ∧
       headerOf t n = none ∧
       t.reg (mbxReg (Off.MBX_STAT n)) = (s.reg (mbxReg (Off.MBX_STAT n))).put 0 2 2 ∧
       regsBut [mbxReg (Off.MBX_STAT n)] s t ∧
       t = { s with regs := t.regs, hdrs := t.hdrs, running := t.running })) ∧
  (∀ (r : Running) (code : Nat) (data : List W) (s : State),
     s.running = some r →
     fwAlive s = true →
     r.done = true →
     writesHeld s = false →
     s.session = none →
     waitingReset s = none →
     opcReg Off.OPC_SUPER_CNT ∉ r.later →
     opcReg Off.OPC_CFG_EPOCH ∉ r.later →
     (r.stop.isSome = true → code = 4 ∧ data = [4, 0]) →
     (r.stop = none → code = r.code ∧ data = r.data ++ r.later.map s.reg) →
     s.retain = none →
     r.mbx < 64 →
     r.copy < 2 →
     ([5, 8, 9, 10, 11].all (fun j => !regBit s (evlReg (Off.EVL_IRQ_ROUTE j)) 4)) = true →
     Completes (.commandComplete) s (fun t =>
       t.running = none ∧
       mbxState t r.mbx = 3 ∧
       ((List.range (3 + (min 61 data.length))).all (fun i => decide (t.word (respArea r.copy r.mbx
                                                                                + i) = wordAt ([W.at 24 12 (hdrOpcode r.hdr)
                                                                                                ||| W.at 16 8 (hdrTag r.hdr)
                                                                                                ||| W.at 8 8 (min 61 data.length)
                                                                                                ||| W.at 0 8 (hdrFlags r.hdr),
                                                                                                natW code
                                                                                                ||| natW (supersededBits (supersededBy s r)),
                                                                                                t.reg (opcReg Off.OPC_CFG_EPOCH)]
                                                                                               ++ data.take 61) i)) = true) ∧
       t.reg (mbxReg Off.MBX_AVAIL) = (s.reg (mbxReg Off.MBX_AVAIL)).put 1 1 (b2n (handingOver s ||
         s.imgReady.isSome && (s.core (standby s)).run && stbyCore s)) ∧
       t.reg (opcReg Off.OPC_SUPER_CNT) = s.reg (opcReg Off.OPC_SUPER_CNT) + (if (supersededBy s r).isSome then 1
                                                                              else 0) ∧
       t.reg (opcReg Off.OPC_CFG_EPOCH) = s.reg (opcReg Off.OPC_CFG_EPOCH) + (if r.changed then 1 else 0) ∧
       regBit t (mbxReg (Off.MBX_DONE_LO
                         + r.mbx / 32)) (r.mbx % 32) = (r.hdr.bit 0 || regBit s (mbxReg (Off.MBX_DONE_LO
                                                                                         + r.mbx / 32)) (r.mbx % 32)) ∧
       wordsBut ((List.range (3 + min 61 data.length)).map (fun i => respArea r.copy r.mbx + i)) s t ∧
       regsBut [opcReg Off.OPC_SUPER_CNT, opcReg Off.OPC_CFG_EPOCH, mbxReg (Off.MBX_STAT r.mbx), mbxReg Off.MBX_AVAIL,
                mbxReg (Off.MBX_DONE_LO + r.mbx / 32), evlReg Off.EVL_IRQ_PEND] s t ∧
       t = { s with
         regs := t.regs, mem := t.mem, poison := t.poison, tmcs := t.tmcs, running := t.running,
         checkDue := s.checkDue || r.checks })) ∧
  (∀ (r : Running) (s : State),
     s.running = some r →
     fwAlive s = true →
     r.done = true →
     writesHeld s = false →
     s.session.isSome = true ∨ (waitingReset s).isSome = true →
     s.retain = none →
     Completes (.commandComplete) s (fun t =>
       t.running = none ∧
       t.reg (opcReg Off.OPC_SUPER_CNT) = s.reg (opcReg Off.OPC_SUPER_CNT) + (if (supersededBy s r).isSome then 1
                                                                              else 0) ∧
       t.reg (opcReg Off.OPC_CFG_EPOCH) = s.reg (opcReg Off.OPC_CFG_EPOCH) + (if r.changed then 1 else 0) ∧
       regsBut [opcReg Off.OPC_SUPER_CNT, opcReg Off.OPC_CFG_EPOCH] s t ∧
       t = { s with regs := t.regs, running := t.running, checkDue := s.checkDue || r.checks })) ∧
  (∀ (r : Running) (s : State),
     s.running = some r →
     fwAlive s = true →
     r.done = false →
     fwMode s = 3 →
     inLoader s = false →
     knownOp (hdrOpcode r.hdr) = false →
     Completes (.badop) s (fun t =>
       answersCmd t r 1 [] false ∧
       t = { s with running := t.running })) ∧
  (∀ (r : Running) (s : State),
     s.running = some r →
     fwAlive s = true →
     r.done = false →
     fwMode s ≠ 3 →
     opServed s (hdrOpcode r.hdr) = false →
     knownOp (hdrOpcode r.hdr) = true →
     Completes (.badop) s (fun t =>
       answersCmd t r 2 [] false ∧
       t = { s with running := t.running })) ∧
  (∀ (b : Nat) (s : State),
     s.imgCheck = some b →
     inLoader s = false →
     stbyActs s = true →
     s.running = none →
     s.session = none →
     waitingReset s = none →
     Completes (.imageCheckDone) s (fun t => handingOver t = (handingOver s || imgAccepted (imgResult s b).1) ∧
       t.imgReady = (if imgAccepted (imgResult s b).1 = true then some b else s.imgReady))) ∧
  (∀ (s : State), handingOver s = true → exec .commandStart s = .next s)

/-- A running core counts its heartbeat. A trap is recorded and logged, ends the core's reservation and stops the
core; a standby that traps is reset, or held if it has failed within 10 s. At a takeover the standby becomes
active, FNF_CTRL.PORT follows it, the cause is recorded and logged, and the command that ran is to run again. The
boot ROM start loads the key shadows, zeroes the mailbox areas and opens MBX0. An image check records its result;
the loader answers FW_LOAD, the standby offers an accepted image for the handover. A handover makes the standby
active on the new bank; at its end, and at a takeover, the headers of the queued commands are kept. A standby that
comes up sets STBY_OK, and the handover of an image that waits begins once nothing runs. The moments of a handover
and a takeover are the model's (log entries 19 and 27). -/
def Obligations.OpconCores : Prop :=
  (∀ (c : Fin 2) (s : State),
     coreActs s c = true →
     s.inReset = false →
     guardPasses s c = true →
     Completes (.heartbeat c) s (fun t =>
       t.reg (opcReg (Off.OPC_HB c)) = s.reg (opcReg (Off.OPC_HB c)) + 1 ∧
       t.core c = { (s.core c) with hbFt := ftNow s } ∧
       coresBut c s t ∧
       regsBut [opcReg (Off.OPC_HB c)] s t ∧
       changesOnly [.regs, .cores] s t)) ∧
  (∀ (c : Fin 2) (cause : BitVec 8) (addr : W) (s : State),
     coreActs s c = true →
     cause ≠ 0 →
     s.evq.length < 16 →
     activeCore s = c →
     Completes (.opcTrap c cause addr) s (fun t =>
       t.reg (opcReg (Off.OPC_TRAP c)) = (W.at 0 8 cause.toNat ||| W.at 8 28 (addr.toNat / 256)) ∧
       t.reg (niReg (guardNi (448 + c.val)) Off.NI_RES_STAT) = 0 ∧
       t.core c = { (s.core c) with trapFt := ftLo (ftNow s), run := false, dead := 2 } ∧
       coresBut c s t ∧
       logs s t (mkEv (ftNow s) (coreNode s c) EvC.OPC_TRAP []) ∧
       regsBut [niReg (guardNi (448 + c.val)) Off.NI_RES_STAT, opcReg (Off.OPC_TRAP c)] s t ∧
       changesOnly [.regs, .cores, .log] s t)) ∧
  (∀ (c : Fin 2) (cause : BitVec 8) (addr : W) (s : State),
     coreActs s c = true →
     cause ≠ 0 →
     s.evq.length < 16 →
     activeCore s ≠ c →
     failsAgain s c = false →
     Completes (.opcTrap c cause addr) s (fun t =>
       t.reg (opcReg (Off.OPC_TRAP c)) = (W.at 0 8 cause.toNat ||| W.at 8 28 (addr.toNat / 256)) ∧
       t.reg (niReg (guardNi (448 + c.val)) Off.NI_RES_STAT) = 0 ∧
       t.core c = { (s.core c) with trapFt := ftLo (ftNow s), run := false, rstReq := true } ∧
       coresBut c s t ∧
       logs s t (mkEv (ftNow s) (coreNode s c) EvC.OPC_TRAP []) ∧
       t.reg (opcReg Off.OPC_FW_STAT) = (s.reg (opcReg Off.OPC_FW_STAT)).put 27 1 0 ∧
       regsBut [niReg (guardNi (448 + c.val)) Off.NI_RES_STAT, opcReg (Off.OPC_TRAP c), opcReg Off.OPC_FW_STAT] s t ∧
       changesOnly [.regs, .cores, .log] s t)) ∧
  (∀ (c : Fin 2) (cause : BitVec 8) (addr : W) (s : State),
     coreActs s c = true →
     cause ≠ 0 →
     s.evq.length < 15 →
     activeCore s ≠ c →
     failsAgain s c = true →
     Completes (.opcTrap c cause addr) s (fun t =>
       t.reg (opcReg (Off.OPC_TRAP c)) = (W.at 0 8 cause.toNat ||| W.at 8 28 (addr.toNat / 256)) ∧
       t.reg (niReg (guardNi (448 + c.val)) Off.NI_RES_STAT) = 0 ∧
       t.core c = { (s.core c) with trapFt := ftLo (ftNow s), run := false, rstHold := true, rstReq := true } ∧
       coresBut c s t ∧
       t.evq = s.evq ++ [(mkEv (ftNow s) (coreNode s c) EvC.OPC_TRAP []),
                         mkEv (ftNow s) (fwNode s) EvC.OPC_DEAD []] ∧
       t.reg (opcReg Off.OPC_FW_STAT) = (s.reg (opcReg Off.OPC_FW_STAT)).put 27 1 0 ∧
       t.reg (opcReg Off.OPC_FO_STAT) = (s.reg (opcReg Off.OPC_FO_STAT)).put (20 + c.val) 1 1 ∧
       regsBut [niReg (guardNi (448 + c.val)) Off.NI_RES_STAT, opcReg (Off.OPC_TRAP c), opcReg Off.OPC_FW_STAT, opcReg Off.OPC_FO_STAT] s t ∧
       changesOnly [.regs, .cores, .log] s t)) ∧
  (∀ (s : State),
     stbyActs s = true →
     guardPasses s (standby s) = true →
     (s.core (activeCore s)).halted = false →
     2 ≤ fwMode s →
     s.inReset = false →
     failCause s ≠ 0 →
     fwMisses s (fnfReg Off.FNF_CTRL) = false →
     s.evq.length < 16 →
     failsAgain s (activeCore s) = false →
     regBit s (opcReg Off.OPC_IMG_BANK) 1 = false →
     coresIdle s →
     Completes (.takeover) s (fun t =>
       activeCore t = (1 - activeCore s) ∧
       regBit t (opcReg Off.OPC_FW_STAT) 27 = false ∧
       getFld t (fnfReg Off.FNF_CTRL) 1 1 = (1 - activeCore s) ∧
       t.reg (opcReg Off.OPC_FO_STAT) = (W.at 0 16 (getFld s (opcReg Off.OPC_FO_STAT) 0 16 + 1)
                                         ||| W.at 16 3 (failCause s) ||| W.at 19 1 (activeCore s)
                                         ||| W.at 20 2 (getFld s (opcReg Off.OPC_FO_STAT) 20 2)) ∧
       t.running = s.running.map (fun r => if r.done then r else { r with begun := false, stop := none }) ∧
       (t.core (1 - activeCore s)) = { s.core (1 - activeCore s) with hbFt := ftNow s } ∧
       (t.core (activeCore s)) = { s.core (activeCore s) with
         dead := 0, rstReq := (s.core (activeCore s)).rstReq || decide (failCause s ≠ 3) } ∧
       (∀ c, c ≠ 0 → c ≠ 1 → t.core c = s.core c) ∧
       logs s t (mkEv (ftNow s) (coreNode s (1 - activeCore s)) EvC.OPC_FAILOVER []) ∧
       (getFld t (opcReg Off.OPC_FW_STAT) 0 26 = getFld s (opcReg Off.OPC_FW_STAT) 0 26) ∧
       handingOver t = false ∧
       (∀ n ∈ queuedBoxes s, headerOf t n = some ((headerOf s n).getD (s.word (mbxArea (mbxCopy s n) n)))) ∧
       regsBut [mbxReg Off.MBX_AVAIL, opcReg Off.OPC_FW_STAT, fnfReg Off.FNF_CTRL, opcReg Off.OPC_FO_STAT] s t ∧
       t = { s with regs := t.regs, hdrs := t.hdrs, cores := t.cores, running := t.running, shadows := t.shadows, evq := t.evq })) ∧
  (∀ (s : State),
     stbyActs s = true →
     guardPasses s (standby s) = true →
     (s.core (activeCore s)).halted = false →
     2 ≤ fwMode s →
     s.inReset = false →
     failCause s ≠ 0 →
     fwMisses s (fnfReg Off.FNF_CTRL) = false →
     s.evq.length < 15 →
     failsAgain s (activeCore s) = true →
     regBit s (opcReg Off.OPC_IMG_BANK) 1 = false →
     coresIdle s →
     Completes (.takeover) s (fun t =>
       activeCore t = (1 - activeCore s) ∧
       regBit t (opcReg Off.OPC_FW_STAT) 27 = false ∧
       getFld t (fnfReg Off.FNF_CTRL) 1 1 = (1 - activeCore s) ∧
       regBit t (opcReg Off.OPC_FO_STAT) (20 + activeCore s) = true ∧
       (t.core (activeCore s)) = { s.core (activeCore s) with dead := 0, rstHold := true, rstReq := true } ∧
       t.evq = s.evq ++ [mkEv (ftNow s) (coreNode s (1 - activeCore s)) EvC.OPC_FAILOVER [],
                         mkEv (ftNow s) (coreNode s (1 - activeCore s)) EvC.OPC_DEAD []] ∧
       t.running = s.running.map (fun r => if r.done then r else { r with begun := false, stop := none }) ∧
       (getFld t (opcReg Off.OPC_FW_STAT) 0 26 = getFld s (opcReg Off.OPC_FW_STAT) 0 26) ∧
       handingOver t = false ∧
       (∀ n ∈ queuedBoxes s, headerOf t n = some ((headerOf s n).getD (s.word (mbxArea (mbxCopy s n) n)))) ∧
       regsBut [mbxReg Off.MBX_AVAIL, opcReg Off.OPC_FW_STAT, fnfReg Off.FNF_CTRL, opcReg Off.OPC_FO_STAT] s t ∧
       changesOnly [.regs, .cores, .firmware, .log] s t)) ∧
  (∀ (s : State),
     stbyActs s = true →
     guardPasses s (standby s) = true →
     (s.core (activeCore s)).halted = false →
     2 ≤ fwMode s →
     s.inReset = false →
     failCause s ≠ 0 →
     fwMisses s (fnfReg Off.FNF_CTRL) = false →
     s.evq.length < 15 →
     failsAgain s (activeCore s) = false →
     regBit s (opcReg Off.OPC_IMG_BANK) 1 = true →
     coresIdle s →
     Completes (.takeover) s (fun t =>
       activeCore t = (1 - activeCore s) ∧
       regBit t (opcReg Off.OPC_FW_STAT) 27 = false ∧
       getFld t (fnfReg Off.FNF_CTRL) 1 1 = (1 - activeCore s) ∧
       t.reg (opcReg Off.OPC_FO_STAT) = (W.at 0 16 (getFld s (opcReg Off.OPC_FO_STAT) 0 16 + 1)
                                         ||| W.at 16 3 (failCause s) ||| W.at 19 1 (activeCore s)
                                         ||| W.at 20 2 (getFld s (opcReg Off.OPC_FO_STAT) 20 2)) ∧
       t.running = s.running.map (fun r => if r.done then r else { r with begun := false, stop := none }) ∧
       (t.core (1 - activeCore s)) = { s.core (1 - activeCore s) with hbFt := ftNow s } ∧
       t.reg (opcReg Off.OPC_IMG_BANK) = W.at 0 1 (1 - getFld s (opcReg Off.OPC_IMG_BANK) 0 1) ∧
       getFld t (opcReg Off.OPC_IMG_STAT) 0 4 = 6 ∧
       t.evq = s.evq ++ [mkEv (ftNow s) (coreNode s (1 - activeCore s)) EvC.OPC_FAILOVER [],
                         mkEv (ftNow s) (coreNode s (1 - activeCore s)) EvC.FW_REVERTED []] ∧
       wordsBut [sramAddr 0] s t ∧
       getFld t (opcReg Off.OPC_FW_STAT) 0 24 = imgVersion s (1 - getFld s (opcReg Off.OPC_IMG_BANK) 0 1) ∧
       getFld t (opcReg Off.OPC_FW_STAT) 24 2 = getFld s (opcReg Off.OPC_FW_STAT) 24 2 ∧
       handingOver t = false ∧
       (∀ n ∈ queuedBoxes s, headerOf t n = some ((headerOf s n).getD (s.word (mbxArea (mbxCopy s n) n)))) ∧
       regsBut [mbxReg Off.MBX_AVAIL, opcReg Off.OPC_FW_STAT, fnfReg Off.FNF_CTRL, opcReg Off.OPC_FO_STAT, opcReg Off.OPC_IMG_BANK,
                opcReg Off.OPC_IMG_STAT] s t ∧
       changesOnly [.regs, .mem, .cores, .firmware, .log, .ids] s t)) ∧
  (∀ (s : State),
     s.inReset = false →
     s.scanOn = false →
     regBit s (bstReg Off.BST_POST_STAT) 0 = true →
     fwMode s = 0 →
     (s.core 0).rstReq = false →
     (s.core 0).rstHold = false →
     haltAsked s 0 = false →
     (s.core 0).halted = false →
     Completes (.bootRomStart) s (fun t =>
       fwMode t = (if s.safe then 2 else 1) ∧
       t.core 0 = { s.core 0 with run := true, hbFt := ftNow s } ∧
       coresBut 0 s t ∧
       ((List.range 12).all (fun j => decide (t.reg (opcReg (Off.OPC_KEY_SHADOW 0 j)) = keyWord s.fusesSensed 0 j
                                              ∧ t.reg (opcReg (Off.OPC_KEY_SHADOW 1 j)) = keyWord s.fusesSensed 1 j)) = true) ∧
       regBit t (opcReg Off.OPC_KEY_STAT) 5 = true ∧
       regBit t (mbxReg Off.MBX_AVAIL) 0 = true ∧
       (∀ c < 2, ∀ i < 0x2000, t.word (mbxArea c 0 + i) = 0) ∧
       (∀ a, (∀ c < 2, ∀ i < 0x2000, a ≠ mbxArea c 0 + i) → t.word a = s.word a) ∧
       regsBut ([opcReg Off.OPC_FW_STAT, opcReg Off.OPC_KEY_STAT, mbxReg Off.MBX_AVAIL] ++ [0,
                                                                                            1].flatMap (fun k => (List.range 12).map (fun j => opcReg (Off.OPC_KEY_SHADOW k j)))) s t ∧
       changesOnly [.regs, .mem, .tmcs, .cores] s t)) ∧
  (∀ (b : Nat) (r : Running) (s : State),
     s.imgCheck = some b →
     inLoader s = true →
     fwAlive s = true →
     guardPasses s (activeCore s) = true →
     s.running = some r →
     s.braceReset = false →
     regBit s (tkReg Off.TK_ALARM_STAT) 1 = false →
     s.evq.length < 16 →
     braced s = false →
     fwMisses s (mtxReg Off.MTX_REMAP) = false →
     Completes (.imageCheckDone) s (fun t =>
       t.reg (opcReg Off.OPC_IMG_STAT) = (W.at 0 4 (imgResult s b).1 ||| W.at 4 2 (imgResult s b).2
                                          ||| W.at 12 24 (imgVersion s b)) ∧
       t.evq = s.evq ++ (if (imgResult s b).1 = 2 then [mkEv (ftNow s) (coreNode s 0) EvC.SIG_PARTIAL []]
                         else if imgAccepted (imgResult s b).1 = true then []
                         else [mkEv (ftNow s) (coreNode s 0) EvC.IMG_REJECT []]) ∧
       t.imgCheck = none ∧
       t.running = some { r with
         code := if imgAccepted (imgResult s b).1 = true then 0 else 0x10,
         data := [t.reg (opcReg Off.OPC_IMG_STAT)], done := true, changed := false } ∧
       regBit t (mtxReg Off.MTX_REMAP) 0 = (decide (imgAccepted (imgResult s b).1 = true) || regBit s (mtxReg Off.MTX_REMAP) 0) ∧
       fwMode t = (if imgAccepted (imgResult s b).1 = true then (if s.safe then 2 else 3) else fwMode s) ∧
       getFld t (opcReg Off.OPC_FW_STAT) 0 24 = (if imgAccepted (imgResult s b).1 = true then imgVersion s b
                                                 else getFld s (opcReg Off.OPC_FW_STAT) 0 24) ∧
       regBit t (opcReg Off.OPC_CTRL) 0 = (decide (imgAccepted (imgResult s b).1 = true) || regBit s (opcReg Off.OPC_CTRL) 0) ∧
       regBit t (opcReg (Off.OPC_CLK 0)) 0 = (decide (imgAccepted (imgResult s b).1 = true) || regBit s (opcReg (Off.OPC_CLK 0)) 0) ∧
       getFld t (fnfReg Off.FNF_CTRL) 1 1 = (if imgAccepted (imgResult s b).1 = true then 0
                                             else getFld s (fnfReg Off.FNF_CTRL) 1 1) ∧
       t.reg (opcReg Off.OPC_CFG_EPOCH) = (if imgAccepted (imgResult s b).1 = true then 0
                                           else s.reg (opcReg Off.OPC_CFG_EPOCH)) ∧
       wordsBut [sramAddr 0] s t ∧
       regsBut [opcReg Off.OPC_IMG_STAT, mtxReg Off.MTX_REMAP, opcReg Off.OPC_FW_STAT, opcReg Off.OPC_CTRL,
                opcReg (Off.OPC_CLK 0), fnfReg Off.FNF_CTRL, opcReg Off.OPC_CFG_EPOCH,
                pwrReg Off.PWR_WAKE_CAUSE] s t ∧
       changesOnly [.regs, .mem, .cores, .log, .firmware, .ids] s t)) ∧
  (∀ (b : Nat) (s : State),
     s.imgCheck = some b →
     inLoader s = false →
     stbyActs s = true →
     s.evq.length < 16 →
     Completes (.imageCheckDone) s (fun t =>
       t.reg (opcReg Off.OPC_IMG_STAT) = (W.at 0 4 (imgResult s b).1 ||| W.at 4 2 (imgResult s b).2
                                          ||| W.at 12 24 (imgVersion s b)) ∧
       t.evq = s.evq ++ (if (imgResult s b).1 = 2
                         then [mkEv (ftNow s) (coreNode s (standby s)) EvC.SIG_PARTIAL []]
                         else if imgAccepted (imgResult s b).1 = true then []
                         else [mkEv (ftNow s) (coreNode s (standby s)) EvC.IMG_REJECT []]) ∧
       t.imgReady = (if imgAccepted (imgResult s b).1 = true then some b else s.imgReady) ∧
       t.reg (mbxReg Off.MBX_AVAIL) = (s.reg (mbxReg Off.MBX_AVAIL)).put 1 1 (b2n (handingOver s ||
         imgAccepted (imgResult s b).1 && s.running.isNone && s.session.isNone && (waitingReset s).isNone && stbyCore s)) ∧
       regsBut [opcReg Off.OPC_IMG_STAT, mbxReg Off.MBX_AVAIL] s t ∧
       t = { s with regs := t.regs, evq := t.evq, imgCheck := none, imgReady := t.imgReady })) ∧
  (∀ (b : Nat) (s : State),
     s.imgReady = some b →
     fwAlive s = true →
     guardPasses s (activeCore s) = true →
     handingOver s = true →
     stbyActs s = true →
     s.evq.length < 16 →
     fwMisses s (fnfReg Off.FNF_CTRL) = false →
     coresIdle s →
     Completes (.handover) s (fun t =>
       activeCore t = (1 - activeCore s) ∧
       t.imgReady = none ∧
       t.reg (opcReg Off.OPC_IMG_BANK) = (W.at 0 1 b ||| W.at 1 1 1) ∧
       getFld t (opcReg Off.OPC_FW_STAT) 0 24 = imgVersion s b ∧
       (getFld t (opcReg Off.OPC_FW_STAT) 24 2 = getFld s (opcReg Off.OPC_FW_STAT) 24 2
        ∧ getFld t (opcReg Off.OPC_FW_STAT) 27 9 = getFld s (opcReg Off.OPC_FW_STAT) 27 9) ∧
       getFld t (fnfReg Off.FNF_CTRL) 1 1 = (1 - activeCore s) ∧
       t.core (1 - activeCore s) = { s.core (1 - activeCore s) with hbFt := ftNow s } ∧
       coresBut (1 - activeCore s) s t ∧
       logs s t (mkEv (ftNow s) (coreNode s (1 - activeCore s)) EvC.FW_HANDOVER []) ∧
       wordsBut [sramAddr 0] s t ∧
       handingOver t = false ∧
       (∀ n ∈ queuedBoxes s, headerOf t n = some ((headerOf s n).getD (s.word (mbxArea (mbxCopy s n) n)))) ∧
       regsBut [mbxReg Off.MBX_AVAIL, opcReg Off.OPC_FW_STAT, fnfReg Off.FNF_CTRL, opcReg Off.OPC_IMG_BANK] s t ∧
       changesOnly [.regs, .mem, .cores, .firmware, .log, .ids] s t)) ∧
  (∀ (s : State),
     s.inReset = false →
     s.scanOn = false →
     bootSel s = true →
     2 ≤ fwMode s →
     coreActs s (standby s) = true →
     stbyCore s = false →
     Completes (.opcStbyOk) s (fun t =>
       t.reg (opcReg Off.OPC_FW_STAT) = (s.reg (opcReg Off.OPC_FW_STAT)).put 27 1 1 ∧
       (t.core (standby s)).hbFt = ftNow s ∧ (t.core (standby s)).dead = 0 ∧ (t.core (standby s)).run = true ∧
       (t.core (standby s)).backFt = (if getFld s (opcReg Off.OPC_FO_STAT) 0 16 ≠ 0
                                      ∧ getFld s (opcReg Off.OPC_FO_STAT) 19 1 = standby s then some (ftNow s)
                                      else (s.core (standby s)).backFt) ∧
       coresBut (standby s) s t ∧
       handingOver t = (handingOver s || (s.imgReady.isSome && s.running.isNone && s.session.isNone && (waitingReset s).isNone)) ∧
       regsBut [mbxReg Off.MBX_AVAIL, opcReg Off.OPC_FW_STAT] s t ∧
       changesOnly [.regs, .cores] s t))

/-- The oldest ticket without a slot is staged in slot 6 or 7 with its LT raised to that of the last one armed; a
route change is staged as its hold fanfare, once the NIs of leaving tiles are draining no more. A ticket with no
entry to write waits for its LT and is then applied. An aborted ticket is logged and dropped, and a hold that
stands is taken back. A needed route change is queued in ticket order. Two equal empty scans lead to the map
fanfare. A scan adopts a diverging register, counts and logs it. The checks write their worst results. Log entries
4, 18, 19, 32, 38 and 39 name what the rules leave to the model here. A lane repair that is due fences, trains,
writes spares and restores the half, or says why not. -/
def Obligations.FirmwareJobs : Prop :=
  (∀ (k : Nat) (tk : Ticket) (es : List FEnt) (s : State),
     fwAlive s = true →
     guardPasses s (activeCore s) = true →
     regBit s (fnfReg Off.FNF_CTRL) 0 = true →
     freeSlot67 s = some k →
     checkEnts s 0 [] es = none →
     s.stageQ = [] →
     (∀ e ∈ es, placesHeld s e.ni = 0) →
     s.route = none →
     settled s = true →
     (∀ q, s.tickets.head? = some q → q.land = none) →
     (s.tickets.find? waitsGo) = some tk →
     tk.route = false →
     fanEnts s tk.ents = es →
     es ≠ [] →
     max tk.lt (armedLt s) < 2 ^ 36 * ftSec →
     Completes (.ticketGo) s (fun t =>
       t.reg (slotReg k Off.FNF_STAT) = (W.at 0 4 1 ||| W.at 4 8 (k + 8 * ((s.slot k).gen % 32))) ∧
       getFld t (slotReg k Off.FNF_LEN) 0 13 = es.length % 8192 ∧
       slotLt t k = max tk.lt (armedLt s) ∧
       (t.slot k) = { gen := ((s.slot k).gen + 1) % 32, ticket := some tk.num, ents := (markLast es), composed := some es,
                      checked := true, want := (((markLast es).map (fun e => e.ni)).eraseDups).map (fun n => (n,
                                                                                             ((markLast es).filter (fun e => decide (e.ni = n))).length)) } ∧
       (t.ni (coordNi s)).stage = (s.ni (coordNi s)).stage ++ (markLast es).map (fun e =>
         { ch := .own, pkt := { opc := Opc.FSTAGE, dst := nodeOf s e.ni, src := nodeOf s (coordNi s), sc := 6,
                                len := flitsForWords e.data.length - 1, cnt := e.data.length, tag := k
                                + 8 * ((s.slot k).gen % 32), flg := b2n (decide (e.data.length = 16))
                                + 2 * b2n e.last, arg := natW e.addr, words := e.data } }) ∧
       t.stageQ = [] ∧
       nisBut (coordNi s) s t ∧
       slotsBut k s t ∧
       regsBut [slotReg k Off.FNF_LIST, slotReg k Off.FNF_LEN, slotReg k Off.FNF_LT_H, slotReg k Off.FNF_LT_L,
                slotReg k Off.FNF_PER, slotReg k Off.FNF_XCNT, slotReg k Off.FNF_STAT] s t ∧
       t.tickets = s.tickets.map (fun q => if q.num = tk.num then { q with slot := some k } else q) ∧
       t.route = none ∧
       t.tickLast = s.tickLast ∧ t.tickApplied = s.tickApplied ∧ t.pendMap = s.pendMap ∧ t.running = s.running ∧
       changesOnly [.regs, .nis, .slots, .fanfare, .firmware, .ids] s t)) ∧
  (∀ (k : Nat) (tk : Ticket) (es : List FEnt) (s : State),
     fwAlive s = true →
     guardPasses s (activeCore s) = true →
     regBit s (fnfReg Off.FNF_CTRL) 0 = true →
     freeSlot67 s = some k →
     checkEnts s 0 [] es = none →
     s.stageQ = [] →
     (∀ e ∈ es, placesHeld s e.ni = 0) →
     s.route = none →
     settled s = true →
     (∀ q, s.tickets.head? = some q → q.land = none) →
     (s.tickets.find? waitsGo) = some tk →
     tk.route = true →
     nisToDrain s tk = [] →
     fanEnts s ((List.range 64).flatMap (fun u => wordEnts (holdWrites s
       ({ ticket := tk.num, newMap := tk.map, aff := tk.aff, phase := .hold } : RouteCh) u))) = es →
     max tk.lt (armedLt s) < 2 ^ 36 * ftSec →
     Completes (.ticketGo) s (fun t =>
       t.reg (slotReg k Off.FNF_STAT) = (W.at 0 4 1 ||| W.at 4 8 (k + 8 * ((s.slot k).gen % 32))) ∧
       getFld t (slotReg k Off.FNF_LEN) 0 13 = es.length % 8192 ∧
       slotLt t k = max tk.lt (armedLt s) ∧
       (t.slot k) = { gen := ((s.slot k).gen + 1) % 32, ticket := some tk.num, ents := (markLast es), composed := some es,
                      checked := true, want := (((markLast es).map (fun e => e.ni)).eraseDups).map (fun n => (n,
                                                                                             ((markLast es).filter (fun e => decide (e.ni = n))).length)) } ∧
       (t.ni (coordNi s)).stage = (s.ni (coordNi s)).stage ++ (markLast es).map (fun e =>
         { ch := .own, pkt := { opc := Opc.FSTAGE, dst := nodeOf s e.ni, src := nodeOf s (coordNi s), sc := 6,
                                len := flitsForWords e.data.length - 1, cnt := e.data.length, tag := k
                                + 8 * ((s.slot k).gen % 32), flg := b2n (decide (e.data.length = 16))
                                + 2 * b2n e.last, arg := natW e.addr, words := e.data } }) ∧
       t.stageQ = [] ∧
       nisBut (coordNi s) s t ∧
       slotsBut k s t ∧
       regsBut [slotReg k Off.FNF_LIST, slotReg k Off.FNF_LEN, slotReg k Off.FNF_LT_H, slotReg k Off.FNF_LT_L,
                slotReg k Off.FNF_PER, slotReg k Off.FNF_XCNT, slotReg k Off.FNF_STAT] s t ∧
       t.tickets = s.tickets.map (fun q => if q.num = tk.num then { q with slot := some k } else q) ∧
       t.route = some ({ ticket := tk.num, newMap := tk.map, aff := tk.aff, phase := .hold } : RouteCh) ∧
       t.tickLast = s.tickLast ∧ t.tickApplied = s.tickApplied ∧ t.pendMap = s.pendMap ∧ t.running = s.running ∧
       changesOnly [.regs, .nis, .slots, .fanfare, .firmware, .ids] s t)) ∧
  (∀ (k : Nat) (tk : Ticket) (s : State),
     fwAlive s = true →
     guardPasses s (activeCore s) = true →
     regBit s (fnfReg Off.FNF_CTRL) 0 = true →
     freeSlot67 s = some k →
     s.route = none →
     settled s = true →
     (∀ q, s.tickets.head? = some q → q.land = none) →
     (s.tickets.find? waitsGo) = some tk →
     tk.route = true →
     nisToDrain s tk ≠ [] →
     Completes (.ticketGo) s (fun t =>
       ((nisToDrain s tk).all (fun n => !niEn t n)) = true ∧
       t.tickets = s.tickets ∧ t.route = none ∧ t.slots = s.slots)) ∧
  (∀ (k : Fin 8) (num : Nat) (s : State),
     fwAlive s = true →
     guardPasses s (activeCore s) = true →
     (s.slot k).ticket = some num →
     slotState s k = 7 ∨ slotState s k = 0 →
     s.evq.length < 16 →
     (s.route.any (fun q => decide (q.ticket = num))) = false →
     Completes (.ticketAbort k) s (fun t =>
       logs s t (mkEv (ftNow s) (fwNode s) EvC.TICKET_ABORT [W.at 0 16 num ||| W.at 16 5 (slotReason s k),
                                                             s.reg (slotReg k Off.FNF_BAD)]) ∧
       (t.slot k) = { (s.slot k) with ticket := none } ∧
       slotsBut k s t ∧
       t.tickets = s.tickets.filter (fun q => decide (q.num ≠ num)) ∧
       t.tickAborted = (if num < 65536 then num else s.tickAborted) ∧ t.tickReason = (if num < 65536 then slotReason s k else s.tickReason) ∧
       t.tickApplied = s.tickApplied ∧ t.tickLast = s.tickLast ∧
       t.route = s.route ∧ t.shadows = s.shadows ∧
       regsBut [] s t ∧
       changesOnly [.slots, .firmware, .log] s t)) ∧
  (∀ (k : Fin 8) (num : Nat) (s : State),
     fwAlive s = true →
     guardPasses s (activeCore s) = true →
     (s.slot k).ticket = some num →
     slotState s k = 7 ∨ slotState s k = 0 →
     s.evq.length < 16 →
     (s.route.any (fun q => decide (q.ticket = num))) = true →
     Completes (.ticketAbort k) s (fun t =>
       (t.slot k) = { (s.slot k) with ticket := none } ∧
       slotsBut k s t ∧
       t.tickets = s.tickets.filter (fun q => decide (q.num ≠ num)) ∧
       t.tickAborted = (if num < 65536 then num else s.tickAborted) ∧ t.tickReason = (if num < 65536 then slotReason s k else s.tickReason) ∧
       t.tickApplied = s.tickApplied ∧ t.tickLast = s.tickLast ∧
       t.route = none ∧
       ((List.range 64).all (fun u => decide (tileState s u = 3) || !regBit t (rtrReg u Off.RTR_CTRL) 2)) = true)) ∧
  (∀ (s : State),
     fwAlive s = true →
     guardPasses s (activeCore s) = true →
     s.jobs = [] →
     s.route = none →
     (s.tickets.any (fun q => q.route)) = false →
     s.tickets.length < 32 →
     routeNeeded s = true →
     Completes (.routeChange) s (fun t =>
       t.tickets = insertTicket { num := s.fenceTicket.getD 65536, check := true, route := true,
                                  map := wantedMap s, aff := affected s (wantedMap s) } s.tickets ∧
       t = { s with tickets := t.tickets, fenceTicket := none })) ∧
  (∀ (u : Fin 64) (i : Fin 16) (m : Nat) (s : State),
     fwAlive s = true →
     guardPasses s (activeCore s) = true →
     s.jobs = [{ kind := .linkFence, t := u, a := i, b := m }] →
     instLink s u i = true →
     isLink u i = true →
     s.route.isSome = true →
     tileDark s u = false →
     tileDark s (across u i) = false →
     Completes (.routeChange) s (fun t =>
       t.jobs = [] ∧
       ([0,
         1].all (fun e => !m.testBit e || (decide (t.reg (slcReg u e (Off.LNK_CTRL i)) = 1) && decide (t.reg (slcReg (across u i) e (Off.LNK_CTRL (portTo (across u i) u))) = 1)))) = true ∧
       t.route = s.route ∧ t.tickets = s.tickets)) ∧
  (∀ (r : RouteCh) (s : State),
     fwAlive s = true →
     s.route = some r →
     (r.phase = .scan1 ∨ r.phase = .scan2 ∧ (allEmpty s = false ∨ fwdCounts s ≠ r.fwd)) →
     Completes (.emptyScan) s (fun t =>
       t.route = some (if allEmpty s then { r with phase := .scan2, fwd := fwdCounts s } else
         { r with phase := .scan1 }) ∧
       t = { s with route := t.route })) ∧
  (∀ (k : Nat) (r : RouteCh) (es : List FEnt) (s : State),
     fwAlive s = true →
     guardPasses s (activeCore s) = true →
     regBit s (fnfReg Off.FNF_CTRL) 0 = true →
     freeSlot67 s = some k →
     checkEnts s 0 [] es = none →
     s.stageQ = [] →
     (∀ e ∈ es, placesHeld s e.ni = 0) →
     s.route = some r →
     r.phase = .scan2 →
     allEmpty s = true →
     fwdCounts s = r.fwd →
     fanEnts s ((List.range 64).flatMap (mapEnts s r)) = es →
     armedLt s < 2 ^ 36 * ftSec →
     Completes (.emptyScan) s (fun t =>
       t.reg (slotReg k Off.FNF_STAT) = (W.at 0 4 1 ||| W.at 4 8 (k + 8 * ((s.slot k).gen % 32))) ∧
       getFld t (slotReg k Off.FNF_LEN) 0 13 = es.length % 8192 ∧
       slotLt t k = armedLt s ∧
       (t.slot k) = { gen := ((s.slot k).gen + 1) % 32, ticket := some r.ticket, ents := (markLast es), composed := some es,
                      checked := true, want := (((markLast es).map (fun e => e.ni)).eraseDups).map (fun n => (n,
                                                                                             ((markLast es).filter (fun e => decide (e.ni = n))).length)) } ∧
       (t.ni (coordNi s)).stage = (s.ni (coordNi s)).stage ++ (markLast es).map (fun e =>
         { ch := .own, pkt := { opc := Opc.FSTAGE, dst := nodeOf s e.ni, src := nodeOf s (coordNi s), sc := 6,
                                len := flitsForWords e.data.length - 1, cnt := e.data.length, tag := k
                                + 8 * ((s.slot k).gen % 32), flg := b2n (decide (e.data.length = 16))
                                + 2 * b2n e.last, arg := natW e.addr, words := e.data } }) ∧
       t.stageQ = [] ∧
       nisBut (coordNi s) s t ∧
       slotsBut k s t ∧
       regsBut [slotReg k Off.FNF_LIST, slotReg k Off.FNF_LEN, slotReg k Off.FNF_LT_H, slotReg k Off.FNF_LT_L,
                slotReg k Off.FNF_PER, slotReg k Off.FNF_XCNT, slotReg k Off.FNF_STAT] s t ∧
       t.route = some { r with phase := .map } ∧
       t.tickets = s.tickets ∧ t.tickLast = s.tickLast ∧ t.tickApplied = s.tickApplied ∧ t.pendMap = s.pendMap
         ∧ t.running = s.running ∧
       changesOnly [.regs, .nis, .slots, .fanfare, .firmware, .ids] s t)) ∧
  (∀ (s : State),
     fwAlive s = true →
     2 ≤ fwMode s →
     handingOver s = false →
     (∀ b ∈ scanAddrs s, (scanSkips s (runningAddrs s) b = true ∨ s.reg b = shadowOf s b)) →
     Completes (.shadowScan) s (fun t =>
       getFld t (opcReg Off.OPC_SCAN_STAT) 0 16 = 53847 ∧
       getFld t (opcReg Off.OPC_SCAN_STAT) 16 16 ≤ 400 ∧
       regsBut [opcReg Off.OPC_SCAN_STAT] s t ∧
       t.shadows = s.shadows ∧ t.checkDue = s.checkDue ∧
       changesOnly [.regs, .ids] s t)) ∧
  (∀ (a : Nat) (s : State),
     fwAlive s = true →
     2 ≤ fwMode s →
     handingOver s = false →
     a ∈ scanAddrs s →
     scanSkips s (runningAddrs s) a = false →
     s.reg a ≠ shadowOf s a →
     (∀ b ∈ scanAddrs s, b ≠ a → (scanSkips s (runningAddrs s) b = true ∨ s.reg b = shadowOf s b)) →
     s.evq.length < 16 →
     Completes (.shadowScan) s (fun t =>
       getFld t (opcReg Off.OPC_SCAN_STAT) 0 16 = 53847 ∧
       getFld t (opcReg Off.OPC_SCAN_STAT) 16 16 ≤ 400 ∧
       shadowOf t a = s.reg a ∧
       (∀ b, b ≠ a → shadowOf t b = shadowOf s b) ∧
       t.reg (opcReg Off.OPC_CFG_EPOCH) = s.reg (opcReg Off.OPC_CFG_EPOCH) + 1 ∧
       t.reg (opcReg Off.OPC_SHADOW_CNT) = s.reg (opcReg Off.OPC_SHADOW_CNT) + 1 ∧
       t.reg (opcReg Off.OPC_SHADOW_LAST) = natW a ∧
       t.checkDue = (s.checkDue || checkTrigger a) ∧
       logs s t (mkEv (ftNow s) (fwNode s) EvC.SHADOW_DIVERGE [natW a, shadowOf s a, s.reg a]) ∧
       regsBut [opcReg Off.OPC_SCAN_STAT, opcReg Off.OPC_CFG_EPOCH, opcReg Off.OPC_SHADOW_CNT,
                opcReg Off.OPC_SHADOW_LAST] s t ∧
       changesOnly [.regs, .ids, .firmware, .log] s t)) ∧
  (∀ (s : State),
     fwAlive s = true →
     guardPasses s (activeCore s) = true →
     2 ≤ fwMode s →
     s.checkDue = true →
     s.evq.length < 16 →
     Completes (.budgetCheck) s (fun t =>
       t.checkDue = false ∧
       t.reg (opcReg Off.OPC_SC5_BOUND) = (W.at 0 12 (min (sc5Worst s).t 4095)
                                           ||| W.at 12 1 (b2n (sc5Worst s).all)) ∧
       ((sc5Worst s).any = false ∨ t.reg (opcReg Off.OPC_SC5_WORST_SRC) = natW (sc5Worst s).src
         ∧ t.reg (opcReg Off.OPC_SC5_WORST_DST) = natW (sc5Worst s).dst) ∧
       t.reg (opcReg Off.OPC_PHOLD_BOUND) = (W.at 0 12 (min (pholdWorst s).t 4095)
                                             ||| W.at 12 1 (b2n (pholdWorst s).all)
                                             ||| W.at 13 6 (pholdWorst s).src) ∧
       logs s t (mkEv (ftNow s) (fwNode s) EvC.SC5_BOUND [(W.at 0 12 (min (sc5Worst s).t 4095)
                                                           ||| W.at 12 1 (b2n (sc5Worst s).all))]) ∧
       t.shadows = s.shadows ∧
       regsBut [opcReg Off.OPC_SC5_BOUND, opcReg Off.OPC_SC5_WORST_SRC, opcReg Off.OPC_SC5_WORST_DST,
                opcReg Off.OPC_PHOLD_BOUND] s t ∧
       changesOnly [.regs, .ids, .firmware, .log] s t)) ∧
  (∀ (u : Fin 64) (v : Fin 2) (i : Fin 16) (s : State),
     fwAlive s = true →
     guardPasses s (activeCore s) = true →
     isLink u i = true →
     s.repairDue.contains (u.val, i.val, v.val) = true →
     sliceIn s u v = true →
     sliceIn s (across u i) v = true →
     (s.ta u).turn = none →
     (s.ta (across u i)).turn = none →
     tileDark s u = false →
     tileDark s (across u i) = false →
     fenceWanted s u i (1 - v) = false →
     txFenced s u i v = true →
     Completes (.laneRepair u v i []) s (fun t =>
       t.reg (slcReg u v (Off.LNK_CTRL i)) = 0 ∧
       t.reg (slcReg u v (Off.LNK_REPAIR_CNT i)) = s.reg (slcReg u v (Off.LNK_REPAIR_CNT i)) + 1 ∧
       (linkOf t u i).esc = none ∧
       getFld t (slcReg (across u i) v (Off.LNK_STAT (portTo (across u i) u))) 3 1 = 0 ∧
       (∀ j < 12, t.reg (slcReg u v (Off.LNK_TX_REMAP i j)) = s.reg (slcReg u v (Off.LNK_TX_REMAP i j))
        ∧ t.reg (slcReg (across u i) v (Off.LNK_RX_REMAP (portTo (across u i) u) j)) = s.reg (slcReg (across u i) v (Off.LNK_RX_REMAP (portTo (across u i) u) j))) ∧
       t.repairDue = s.repairDue.filter (fun x => decide (x ≠ (u.val, i.val, v.val))) ∧
       t.repairs = s.repairs.filter (fun x => decide (x ≠ (u.val, i.val, v.val))) ∧
       t.evq = s.evq)) ∧
  (∀ (u : Fin 64) (v : Fin 2) (i : Fin 16) (w : Fin 312) (j : Nat) (s : State),
     fwAlive s = true →
     guardPasses s (activeCore s) = true →
     isLink u i = true →
     s.repairDue.contains (u.val, i.val, v.val) = true →
     sliceIn s u v = true →
     sliceIn s (across u i) v = true →
     (s.ta u).turn = none →
     (s.ta (across u i)).turn = none →
     tileDark s u = false →
     tileDark s (across u i) = false →
     fenceWanted s u i (1 - v) = false →
     txFenced s u i v = true →
     (unusedSpares s ({ t := u, i := i, sl := v } : Half)).head? = some j →
     Completes (.laneRepair u v i [[w]]) s (fun t =>
       t.reg (slcReg u v (Off.LNK_CTRL i)) = 0 ∧
       t.reg (slcReg u v (Off.LNK_REPAIR_CNT i)) = s.reg (slcReg u v (Off.LNK_REPAIR_CNT i)) + 1 ∧
       (linkOf t u i).esc = none ∧
       getFld t (slcReg (across u i) v (Off.LNK_STAT (portTo (across u i) u))) 3 1 = 0 ∧
       t.reg (slcReg u v (Off.LNK_TX_REMAP i j)) = (W.at 0 9 w ||| W.at 9 1 1) ∧
       t.reg (slcReg (across u i) v (Off.LNK_RX_REMAP (portTo (across u i) u) j)) = (W.at 0 9 w ||| W.at 9 1 1) ∧
       (∀ q < 12, q ≠ j → t.reg (slcReg u v (Off.LNK_TX_REMAP i q)) = s.reg (slcReg u v (Off.LNK_TX_REMAP i q))
        ∧ t.reg (slcReg (across u i) v (Off.LNK_RX_REMAP (portTo (across u i) u) q)) = s.reg (slcReg (across u i) v (Off.LNK_RX_REMAP (portTo (across u i) u) q))) ∧
       t.repairDue = s.repairDue.filter (fun x => decide (x ≠ (u.val, i.val, v.val))) ∧
       t.repairs = s.repairs.filter (fun x => decide (x ≠ (u.val, i.val, v.val))) ∧
       t.evq = s.evq)) ∧
  (∀ (u : Fin 64) (v : Fin 2) (i : Fin 16) (w : Fin 312) (rest : List (List (Fin 312))) (s : State),
     fwAlive s = true →
     guardPasses s (activeCore s) = true →
     isLink u i = true →
     s.repairDue.contains (u.val, i.val, v.val) = true →
     sliceIn s u v = true →
     sliceIn s (across u i) v = true →
     (s.ta u).turn = none →
     (s.ta (across u i)).turn = none →
     tileDark s u = false →
     tileDark s (across u i) = false →
     fenceWanted s u i (1 - v) = false →
     txFenced s u i v = true →
     unusedSpares s ({ t := u, i := i, sl := v } : Half) = [] →
     s.evq.length < 16 →
     Completes (.laneRepair u v i ([w] :: rest)) s (fun t =>
       t.reg (slcReg u v (Off.LNK_CTRL i)) = s.reg (slcReg u v (Off.LNK_CTRL i)) ∧
       t.reg (slcReg u v (Off.LNK_REPAIR_CNT i)) = s.reg (slcReg u v (Off.LNK_REPAIR_CNT i)) ∧
       getFld t (slcReg (across u i) v (Off.LNK_STAT (portTo (across u i) u))) 3 1 = 1
         ∧ getFld t (slcReg (across u i) v (Off.LNK_STAT (portTo (across u i) u))) 8 9 = w ∧
       logs s t (mkEv (ftNow s) (fwNode s) EvC.LANE_EXHAUSTED [natW i, natW v]) ∧
       regsBut [slcReg (across u i) v (Off.LNK_STAT (portTo (across u i) u))] s t ∧
       t.repairDue = s.repairDue.filter (fun x => decide (x ≠ (u.val, i.val, v.val))) ∧
       t.repairs = s.repairs.filter (fun x => decide (x ≠ (u.val, i.val, v.val))) ∧
       t.tickets = s.tickets ∧ t.jobs = s.jobs ∧ t.pendMap = s.pendMap ∧
       changesOnly [.regs, .log, .firmware] s t)) ∧
  (∀ (u : Fin 64) (v : Fin 2) (i : Fin 16) (bad : List (List (Fin 312))) (s : State),
     fwAlive s = true →
     guardPasses s (activeCore s) = true →
     isLink u i = true →
     s.repairDue.contains (u.val, i.val, v.val) = true →
     sliceIn s u v = true →
     sliceIn s (across u i) v = true →
     (s.ta u).turn = none →
     (s.ta (across u i)).turn = none →
     tileDark s u = false →
     tileDark s (across u i) = false →
     fenceWanted s u i (1 - v) = false →
     txFenced s u i v = false →
     Completes (.laneRepair u v i bad) s (fun t =>
       t.reg (slcReg u v (Off.LNK_CTRL i)) = 1 ∧
       t.reg (slcReg u v (Off.LNK_REPAIR_CNT i)) = s.reg (slcReg u v (Off.LNK_REPAIR_CNT i)) ∧
       t.repairs = (if s.repairs.contains (u.val, i.val, v.val) then s.repairs else s.repairs ++ [(u.val, i.val, v.val)]) ∧
       t.repairDue = s.repairDue ∧
       t.evq = s.evq)) ∧
  (∀ (u : Fin 64) (v : Fin 2) (i : Fin 16) (bad : List (List (Fin 312))) (s : State),
     fwAlive s = true →
     guardPasses s (activeCore s) = true →
     isLink u i = true →
     s.repairDue.contains (u.val, i.val, v.val) = true →
     sliceIn s u v = true →
     sliceIn s (across u i) v = true →
     (s.ta u).turn = none →
     (s.ta (across u i)).turn = none →
     tileDark s u = false →
     tileDark s (across u i) = false →
     fenceWanted s u i (1 - v) = true →
     instLink s u i = false →
     Completes (.laneRepair u v i bad) s (fun t =>
       (pendBits t u).testBit i = true ∧ (pendBits t (across u i)).testBit (portTo (across u i) u) = true ∧
       t.repairs = (if s.repairs.contains (u.val, i.val, v.val) then s.repairs else s.repairs ++ [(u.val, i.val, v.val)]) ∧
       t.repairDue = s.repairDue ∧
       t = { s with pendMap := t.pendMap, repairs := t.repairs })) ∧
  (∀ (q : Ticket) (a : Nat) (v : W) (n lt : Nat) (s : State),
     fwAlive s = true →
     s.tickets = [q] →
     q.land = some lt →
     lt ≤ ftNow s →
     q.ents = [(a, [v])] →
     q.num < 65536 →
     stagingNi s a = some n →
     tileState s (n / 7) = 3 →
     shadowed a = true →
     isGroupWord a = false →
     Completes (.ticketGo) s (fun t =>
       t.tickets = [] ∧ t.tickApplied = q.num ∧ t.checkDue = (s.checkDue || q.check) ∧
       shadowOf t a = v ∧
       (∀ b, b ≠ a → shadowOf t b = shadowOf s b) ∧
       t = { s with tickets := [], tickApplied := q.num, checkDue := t.checkDue, shadows := t.shadows })) ∧
  (∀ (tk : Ticket) (s : State),
     fwAlive s = true →
     regBit s (fnfReg Off.FNF_CTRL) 0 = true →
     (freeSlot67 s).isSome = true →
     s.route = none →
     settled s = true →
     (∀ q, s.tickets.head? = some q → q.land = none) →
     (s.tickets.find? waitsGo) = some tk →
     tk.route = false →
     fanEnts s tk.ents = [] →
     ftNow s < max tk.lt (armedLt s) →
     Completes (.ticketGo) s (fun t =>
       t = { s with tickets := s.tickets.map (fun q => if q.num = tk.num then { q with land := some (max tk.lt (armedLt s)) }
                                                       else q),
                    tickLt := max tk.lt (armedLt s) }))

/-- FENCE_SLICE, FENCE_LINK and TILE_SERVICE change the pending map and the work that waits for it, and return a
ticket; a re-admission starts the test or the training first; a slice whose twin is in a turn is refused by BIST.
Without FORCE one that would leave two tiles without a path is FAILED with cause ISOLATE, and so is a second
slice; taking the active Time Keeper's tile out with no standby ready is FAILED with cause STBY, a full apply
queue with QFULL. UNIT_ENABLE writes EN and the drain limit; a fall of EN begins the drain. FNF_RUN, FNF_STAGE and
FNF_XRUN write an idle slot and give GO or STAGE_ONLY; FNF_STOP and FNF_ABORT act as the slot commands do, and an
abort of an armed fanfare waits for its end. -/
def Obligations.TopologyAndFanfareCommands : Prop :=
  (∀ (r : Running) (s : State),
     runsCmd s 0x101 r →
     queueFull s = false →
     s.jobs = [] →
     (argN r.args 2).bit 1 = true →
     sliceState s (tileOf (argN r.args 1)) ((argN r.args 2).fld 0 1) = 0 →
     (sliceState s (tileOf (argN r.args 1)) (1 - ((argN r.args 2).fld 0 1)) = 0) →
     (s.ta (tileOf (argN r.args 1))).turn = none →
     tileState s (tileOf (argN r.args 1)) ≠ 3 →
     tileState s (tileOf (argN r.args 1)) ≠ 2 →
     tileState s (tileOf (argN r.args 1)) ≠ 4 →
     tileDark s (tileOf (argN r.args 1)) = false →
     instHalf s (tileOf (argN r.args 1)) = false →
     ((argN r.args 2).bit 2 = true ∨ isolatedBy (addJob (noteClamps s (tileClamps (argN r.args 1))) { kind := .fence, t := (tileOf (argN r.args 1)), a := ((argN r.args 2).fld 0 1) })
       (wantedMap (addJob (noteClamps s (tileClamps (argN r.args 1))) { kind := .fence, t := (tileOf (argN r.args 1)), a := ((argN r.args 2).fld 0 1) })) = 0) →
     Completes (.fenceSlice) s (fun t =>
       answersCmd t r 0 [natW (nextTicket s)] true ∧
       t.tickLast = nextTicket s ∧ t.fenceTicket = some (nextTicket s) ∧
       t.jobs = [{ kind := .fence, t := (tileOf (argN r.args 1)), a := ((argN r.args 2).fld 0 1) }] ∧
       t.reg (opcReg Off.OPC_CLAMP_CNT) = s.reg (opcReg Off.OPC_CLAMP_CNT)
         + BitVec.ofNat 36 (tileClamps (argN r.args 1)) ∧
       regsBut [opcReg Off.OPC_CLAMP_CNT] s t ∧
       t.pendMap = s.pendMap ∧ t.tickets = s.tickets ∧ t.route = s.route ∧ t.shadows = s.shadows ∧
       changesOnly [.firmware, .regs, .log] s t)) ∧
  (∀ (r : Running) (s : State),
     runsCmd s 0x101 r →
     queueFull s = false →
     s.jobs = [] →
     (argN r.args 2).bit 1 = false →
     sliceState s (tileOf (argN r.args 1)) ((argN r.args 2).fld 0 1) = 2 →
     tileState s (tileOf (argN r.args 1)) ≠ 3 →
     tileState s (tileOf (argN r.args 1)) ≠ 2 →
     tileState s (tileOf (argN r.args 1)) ≠ 4 →
     tileDark s (tileOf (argN r.args 1)) = false →
     Completes (.fenceSlice) s (fun t =>
       answersCmd t r 0 [natW (nextTicket s)] true ∧
       t.tickLast = nextTicket s ∧ t.fenceTicket = some (nextTicket s) ∧
       getFld t (slcReg (tileOf (argN r.args 1)) ((argN r.args 2).fld 0 1) Off.SLC_STAT) 0 3 = 4 ∧
       getFld t (slcReg (tileOf (argN r.args 1)) ((argN r.args 2).fld 0 1) Off.SLC_STAT) 3 33 = getFld s (slcReg (tileOf (argN r.args 1)) ((argN r.args 2).fld 0 1) Off.SLC_STAT) 3 33 ∧
       t.reg (opcReg Off.OPC_CLAMP_CNT) = s.reg (opcReg Off.OPC_CLAMP_CNT)
         + BitVec.ofNat 36 (tileClamps (argN r.args 1)) ∧
       regsBut [opcReg Off.OPC_CLAMP_CNT,
                slcReg (tileOf (argN r.args 1)) ((argN r.args 2).fld 0 1) Off.SLC_STAT] s t ∧
       t.pendMap = s.pendMap ∧ t.tickets = s.tickets ∧ t.route = s.route ∧
       changesOnly [.firmware, .regs] s t)) ∧
  (∀ (r : Running) (s : State),
     runsCmd s 0x101 r →
     (argN r.args 2).bit 1 = true →
     (s.ta (tileOf (argN r.args 1))).turn.map (fun q => q.unit) = some (1 - ((argN r.args 2).fld 0 1)) →
     queueFull s = false →
     Completes (.fenceSlice) s (fun t =>
       answersCmd t r 3 [5, s.reg (taReg (tileOf (argN r.args 1)) Off.PWR_REFUSE_CNT)] false ∧
       t.reg (opcReg Off.OPC_CLAMP_CNT) = s.reg (opcReg Off.OPC_CLAMP_CNT)
         + BitVec.ofNat 36 (tileClamps (argN r.args 1)) ∧
       regsBut [opcReg Off.OPC_CLAMP_CNT] s t ∧
       t = { s with regs := t.regs, running := t.running })) ∧
  (∀ (r : Running) (s : State),
     runsCmd s 0x102 r →
     queueFull s = false →
     s.jobs = [] →
     isLink (tileOf (argN r.args 1)) ((argN r.args 2).fld 0 4) = true →
     tileDark s (tileOf (argN r.args 1)) = false →
     tileDark s (across (tileOf (argN r.args 1)) ((argN r.args 2).fld 0 4)) = false →
     (argN r.args 3).bit 2 = true →
     ((linkHalfArg (argN r.args 3)).testBit 0 || halfDown s (tileOf (argN r.args 1)) ((argN r.args 2).fld 0 4) 0) = true →
     ((linkHalfArg (argN r.args 3)).testBit 1 || halfDown s (tileOf (argN r.args 1)) ((argN r.args 2).fld 0 4) 1) = true →
     (pendBits s (tileOf (argN r.args 1))).testBit ((argN r.args 2).fld 0 4) = false →
     instLink s (tileOf (argN r.args 1)) ((argN r.args 2).fld 0 4) = false →
     ((argN r.args 3).bit 3 = true ∨ isolatedBy (cutLink (noteClamps s (tileClamps (argN r.args 1) + b2n (decide ((argN r.args 3).fld 0 2 = 0)))) (tileOf (argN r.args 1)) ((argN r.args 2).fld 0 4) (linkHalfArg (argN r.args 3)))
       (wantedMap (cutLink (noteClamps s (tileClamps (argN r.args 1) + b2n (decide ((argN r.args 3).fld 0 2 = 0)))) (tileOf (argN r.args 1)) ((argN r.args 2).fld 0 4) (linkHalfArg (argN r.args 3)))) = 0) →
     Completes (.fenceLink) s (fun t =>
       answersCmd t r 0 [natW (nextTicket s)] true ∧
       t.tickLast = nextTicket s ∧ t.fenceTicket = some (nextTicket s) ∧
       (pendBits t (tileOf (argN r.args 1))).testBit ((argN r.args 2).fld 0 4) = true
         ∧ (pendBits t (across (tileOf (argN r.args 1)) ((argN r.args 2).fld 0 4))).testBit (portTo (across (tileOf (argN r.args 1)) ((argN r.args 2).fld 0 4)) (tileOf (argN r.args 1))) = true ∧
       t.jobs = [{ kind := .linkFence, t := (tileOf (argN r.args 1)), a := ((argN r.args 2).fld 0 4),
                   b := (linkHalfArg (argN r.args 3)) }] ∧
       (∀ q, q ≠ (tileOf (argN r.args 1)) → q ≠ (across (tileOf (argN r.args 1)) ((argN r.args 2).fld 0 4))
        → pendBits t q = pendBits s q) ∧
       t.reg (opcReg Off.OPC_CLAMP_CNT) = s.reg (opcReg Off.OPC_CLAMP_CNT)
         + BitVec.ofNat 36 (tileClamps (argN r.args 1) + b2n (decide ((argN r.args 3).fld 0 2 = 0))) ∧
       regsBut [opcReg Off.OPC_CLAMP_CNT] s t ∧
       t.tickets = s.tickets ∧ t.route = s.route ∧ t.shadows = s.shadows ∧
       changesOnly [.firmware, .regs, .log] s t)) ∧
  (∀ (r : Running) (s : State),
     runsCmd s 0x102 r →
     queueFull s = false →
     s.jobs = [] →
     isLink (tileOf (argN r.args 1)) ((argN r.args 2).fld 0 4) = true →
     tileDark s (tileOf (argN r.args 1)) = false →
     tileDark s (across (tileOf (argN r.args 1)) ((argN r.args 2).fld 0 4)) = false →
     (argN r.args 3).bit 2 = true →
     (((linkHalfArg (argN r.args 3)).testBit 0 || halfDown s (tileOf (argN r.args 1)) ((argN r.args 2).fld 0 4) 0) && ((linkHalfArg (argN r.args 3)).testBit 1 || halfDown s (tileOf (argN r.args 1)) ((argN r.args 2).fld 0 4) 1)) = false →
     Completes (.fenceLink) s (fun t =>
       answersCmd t r 0 [natW (nextTicket s)] (!fencedNow s (tileOf (argN r.args 1)) ((argN r.args 2).fld 0 4) (linkHalfArg (argN r.args 3))) ∧
       t.tickLast = nextTicket s ∧ t.fenceTicket = some (nextTicket s) ∧
       ([0,
         1].all (fun h => !(linkHalfArg (argN r.args 3)).testBit h || decide (t.reg (slcReg (tileOf (argN r.args 1)) h (Off.LNK_CTRL ((argN r.args 2).fld 0 4))) = 1
                                                                              ∧ t.reg (slcReg (across (tileOf (argN r.args 1)) ((argN r.args 2).fld 0 4)) h (Off.LNK_CTRL (portTo (across (tileOf (argN r.args 1)) ((argN r.args 2).fld 0 4)) (tileOf (argN r.args 1))))) = 1))) = true ∧
       t.pendMap = s.pendMap ∧ t.jobs = [] ∧ t.tickets = s.tickets ∧ t.route = s.route ∧
       t.reg (opcReg Off.OPC_CLAMP_CNT) = s.reg (opcReg Off.OPC_CLAMP_CNT)
         + BitVec.ofNat 36 (tileClamps (argN r.args 1) + b2n (decide ((argN r.args 3).fld 0 2 = 0))))) ∧
  (∀ (r : Running) (s : State),
     runsCmd s 0x102 r →
     queueFull s = false →
     s.jobs = [] →
     isLink (tileOf (argN r.args 1)) ((argN r.args 2).fld 0 4) = true →
     tileDark s (tileOf (argN r.args 1)) = false →
     tileDark s (across (tileOf (argN r.args 1)) ((argN r.args 2).fld 0 4)) = false →
     (argN r.args 3).bit 2 = false →
     ((linkHalves (tileOf (argN r.args 1)) ((argN r.args 2).fld 0 4) (linkHalfArg (argN r.args 3))).any (fun e => regBit s (slcReg e.1 e.2.2 (Off.LNK_CTRL e.2.1)) 0)) = true →
     Completes (.fenceLink) s (fun t =>
       answersCmd t r 0 [natW (nextTicket s)] true ∧
       t.tickLast = nextTicket s ∧ t.fenceTicket = some (nextTicket s) ∧
       t.jobs = [{ kind := .linkOpen, t := (tileOf (argN r.args 1)), a := ((argN r.args 2).fld 0 4),
                   b := (linkHalfArg (argN r.args 3)) }] ∧
       ((linkHalves (tileOf (argN r.args 1)) ((argN r.args 2).fld 0 4) (linkHalfArg (argN r.args 3))).all (fun e =>
         regBit t (rxStat e) 2 == (heldBack s e || regBit s (rxStat e) 2))) = true ∧
       t.pendMap = s.pendMap ∧ t.tickets = s.tickets ∧ t.route = s.route ∧
       t.reg (opcReg Off.OPC_CLAMP_CNT) = s.reg (opcReg Off.OPC_CLAMP_CNT)
         + BitVec.ofNat 36 (tileClamps (argN r.args 1) + b2n (decide ((argN r.args 3).fld 0 2 = 0))))) ∧
  (∀ (r : Running) (s : State),
     runsCmd s 0x103 r →
     queueFull s = false →
     s.jobs = [] →
     (argN r.args 2).bit 0 = true →
     (pendBits s (tileOf (argN r.args 1))).testBit 16 = false →
     keepsKeeper s (tileOf (argN r.args 1)) = false →
     tileState s (tileOf (argN r.args 1)) ≠ 3 →
     outNow s (tileOf (argN r.args 1)) = false →
     ((argN r.args 2).bit 1 = true ∨ isolatedBy (takeOut (noteClamps s (tileClamps (argN r.args 1))) (tileOf (argN r.args 1)) false)
       (wantedMap (takeOut (noteClamps s (tileClamps (argN r.args 1))) (tileOf (argN r.args 1)) false)) = 0) →
     Completes (.tileService) s (fun t =>
       answersCmd t r 0 [natW (nextTicket s)] true ∧
       t.tickLast = nextTicket s ∧ t.fenceTicket = some (nextTicket s) ∧
       (pendBits t (tileOf (argN r.args 1))).testBit 16 = true ∧
       t.jobs = [{ kind := .gateOut, t := (tileOf (argN r.args 1)) }] ∧
       (∀ q, q ≠ (tileOf (argN r.args 1)) → pendBits t q = pendBits s q) ∧
       t.reg (opcReg Off.OPC_CLAMP_CNT) = s.reg (opcReg Off.OPC_CLAMP_CNT)
         + BitVec.ofNat 36 (tileClamps (argN r.args 1)) ∧
       regsBut [opcReg Off.OPC_CLAMP_CNT] s t ∧
       t.tickets = s.tickets ∧ t.route = s.route ∧ t.shadows = s.shadows ∧
       changesOnly [.firmware, .regs, .log] s t)) ∧
  (∀ (r : Running) (s : State),
     runsCmd s 0x103 r →
     queueFull s = false →
     s.jobs = [] →
     (argN r.args 2).bit 0 = false →
     isOutNow s (tileOf (argN r.args 1)) = true →
     tileDark s (tileOf (argN r.args 1)) = false →
     sliceState s (tileOf (argN r.args 1)) 0 = 2 →
     sliceState s (tileOf (argN r.args 1)) 1 = 2 →
     ((argN r.args 2).bit 1 = true ∨ isolatedBy (backAgain (noteClamps s (tileClamps (argN r.args 1))) (tileOf (argN r.args 1)))
       (wantedMap (backAgain (noteClamps s (tileClamps (argN r.args 1))) (tileOf (argN r.args 1)))) = 0) →
     Completes (.tileService) s (fun t =>
       answersCmd t r 0 [natW (nextTicket s)] true ∧
       t.tickLast = nextTicket s ∧ t.fenceTicket = some (nextTicket s) ∧
       (pendBits t (tileOf (argN r.args 1))).testBit 16 = false ∧
       t.jobs = [{ kind := .restore, t := (tileOf (argN r.args 1)), a := 1 },
         { kind := .enable, t := (tileOf (argN r.args 1)) }] ∧
       sliceState t (tileOf (argN r.args 1)) 0 = 4 ∧ sliceState t (tileOf (argN r.args 1)) 1 = 4 ∧
       t.reg (opcReg Off.OPC_CLAMP_CNT) = s.reg (opcReg Off.OPC_CLAMP_CNT)
         + BitVec.ofNat 36 (tileClamps (argN r.args 1)) ∧
       t.tickets = s.tickets ∧ t.route = s.route ∧
       changesOnly [.firmware, .regs, .log] s t)) ∧
  (∀ (n : Nat) (r : Running) (s : State),
     runsCmd s 0x104 r →
     nodeArg s (argN r.args 1) = some n →
     tileDark s (n / 7) = false →
     (argN r.args 2).bit 0 = true →
     niEn s n = false →
     (s.ni n).draining = false →
     Completes (.unitEnable) s (fun t =>
       answersCmd t r 0 [shown t (niReg n Off.NI_STAT)] true ∧
       niEn t n = true ∧
       getFld t (niReg n Off.NI_CTRL) 1 3 = getFld s (niReg n Off.NI_CTRL) 1 3 ∧
       getFld t (niReg n Off.NI_DRAIN_TO) 0 14 = (if (argN r.args 2).fld 1 14 = 0
                                                  then getFld s (niReg n Off.NI_DRAIN_TO) 0 14
                                                  else min ((argN r.args 2).fld 1 14) 10000) ∧
       t.reg (opcReg Off.OPC_CLAMP_CNT) = s.reg (opcReg Off.OPC_CLAMP_CNT)
         + BitVec.ofNat 36 (b2n (decide (10000 < (argN r.args 2).fld 1 14))) ∧
       regsBut [opcReg Off.OPC_CLAMP_CNT, niReg n Off.NI_CTRL, niReg n Off.NI_DRAIN_TO] s t)) ∧
  (∀ (es : List FEnt) (r : Running) (s : State),
     runsCmd s 0x601 r →
     slotState s (slotArg (argN r.args 1)) = 0 →
     regBit s (fnfReg Off.FNF_CTRL) 0 = true →
     1 ≤ (argN r.args 3).toNat →
     (argN r.args 3).toNat ≤ 4096 →
     (checkPass s (argN r.args 3).toNat 0 (argN r.args 2).toNat []).1.toOption = some es →
     listAwake s (argN r.args 2).toNat (argN r.args 3).toNat = true →
     s.stageQ = [] →
     s.route = none →
     (∀ e ∈ es, placesHeld s e.ni = 0) →
     Completes (.fnfRun) s (fun t =>
       answersCmd t r 0 [natW ((slotArg (argN r.args 1))
                               + 8 * ((s.slot (slotArg (argN r.args 1))).gen % 32))] true ∧
       slotState t (slotArg (argN r.args 1)) = 1 ∧
       slotFid t (slotArg (argN r.args 1)) = (slotArg (argN r.args 1))
         + 8 * ((s.slot (slotArg (argN r.args 1))).gen % 32) ∧
       (t.slot (slotArg (argN r.args 1))).ents = markLast es ∧ (t.slot (slotArg (argN r.args 1))).todo = []
         ∧ (t.slot (slotArg (argN r.args 1))).stageOnly = false ∧
       t.reg (slotReg (slotArg (argN r.args 1)) Off.FNF_LIST) = (argN r.args 2) ∧
       getFld t (slotReg (slotArg (argN r.args 1)) Off.FNF_LEN) 0 13 = (argN r.args 3).toNat ∧
       t.reg (slotReg (slotArg (argN r.args 1)) Off.FNF_LT_H) = (argN r.args 4) ∧
       t.reg (slotReg (slotArg (argN r.args 1)) Off.FNF_LT_L) = ftLowClamp (argN r.args 5) ∧
       getFld t (slotReg (slotArg (argN r.args 1)) Off.FNF_PER) 0 30 = (if argN r.args 6 = 0 then 0
                                                                        else clampArg 1000 1000000000 (argN r.args 6)) ∧
       getFld t (slotReg (slotArg (argN r.args 1)) Off.FNF_XCNT) 0 17 = 0 ∧
       (t.ni (coordNi s)).stage.length = (s.ni (coordNi s)).stage.length + es.length ∧
       nisBut (coordNi s) s t ∧
       slotsBut (slotArg (argN r.args 1)) s t ∧
       t.reg (opcReg Off.OPC_CLAMP_CNT) = s.reg (opcReg Off.OPC_CLAMP_CNT)
         + BitVec.ofNat 36 ((fFnfRun r.args).clamps) ∧
       regsBut [opcReg Off.OPC_CLAMP_CNT, slotReg (slotArg (argN r.args 1)) Off.FNF_STAT,
                slotReg (slotArg (argN r.args 1)) Off.FNF_LIST, slotReg (slotArg (argN r.args 1)) Off.FNF_LEN,
                slotReg (slotArg (argN r.args 1)) Off.FNF_LT_H, slotReg (slotArg (argN r.args 1)) Off.FNF_LT_L,
                slotReg (slotArg (argN r.args 1)) Off.FNF_PER, slotReg (slotArg (argN r.args 1)) Off.FNF_XCNT] s t ∧
       changesOnly [.regs, .nis, .slots, .fanfare, .firmware] s t)) ∧
  (∀ (es : List FEnt) (r : Running) (s : State),
     runsCmd s 0x602 r →
     slotState s (slotArg (argN r.args 1)) = 0 →
     regBit s (fnfReg Off.FNF_CTRL) 0 = true →
     1 ≤ (argN r.args 3).toNat →
     (argN r.args 3).toNat ≤ 4096 →
     (checkPass s (argN r.args 3).toNat 0 (argN r.args 2).toNat []).1.toOption = some es →
     listAwake s (argN r.args 2).toNat (argN r.args 3).toNat = true →
     s.stageQ = [] →
     s.route = none →
     (∀ e ∈ es, placesHeld s e.ni = 0) →
     Completes (.fnfStage) s (fun t =>
       answersCmd t r 0 [natW ((slotArg (argN r.args 1))
                               + 8 * ((s.slot (slotArg (argN r.args 1))).gen % 32))] true ∧
       slotState t (slotArg (argN r.args 1)) = 1 ∧
       slotFid t (slotArg (argN r.args 1)) = (slotArg (argN r.args 1))
         + 8 * ((s.slot (slotArg (argN r.args 1))).gen % 32) ∧
       (t.slot (slotArg (argN r.args 1))).ents = markLast es ∧ (t.slot (slotArg (argN r.args 1))).todo = []
         ∧ (t.slot (slotArg (argN r.args 1))).stageOnly = true ∧
       t.reg (slotReg (slotArg (argN r.args 1)) Off.FNF_LIST) = (argN r.args 2) ∧
       getFld t (slotReg (slotArg (argN r.args 1)) Off.FNF_LEN) 0 13 = (argN r.args 3).toNat ∧
       t.reg (slotReg (slotArg (argN r.args 1)) Off.FNF_LT_H) = (argN r.args 4) ∧
       t.reg (slotReg (slotArg (argN r.args 1)) Off.FNF_LT_L) = ftLowClamp (argN r.args 5) ∧
       getFld t (slotReg (slotArg (argN r.args 1)) Off.FNF_PER) 0 30 = 0 ∧
       getFld t (slotReg (slotArg (argN r.args 1)) Off.FNF_XCNT) 0 17 = 0 ∧
       getFld t (slotReg (slotArg (argN r.args 1)) Off.FNF_GFID) 0 32 = (argN r.args 6).fld 0 32 ∧
       (t.ni (coordNi s)).stage.length = (s.ni (coordNi s)).stage.length + es.length ∧
       nisBut (coordNi s) s t ∧
       slotsBut (slotArg (argN r.args 1)) s t ∧
       t.reg (opcReg Off.OPC_CLAMP_CNT) = s.reg (opcReg Off.OPC_CLAMP_CNT)
         + BitVec.ofNat 36 ((fFnfStage r.args).clamps) ∧
       regsBut [opcReg Off.OPC_CLAMP_CNT, slotReg (slotArg (argN r.args 1)) Off.FNF_STAT,
                slotReg (slotArg (argN r.args 1)) Off.FNF_LIST, slotReg (slotArg (argN r.args 1)) Off.FNF_LEN,
                slotReg (slotArg (argN r.args 1)) Off.FNF_LT_H, slotReg (slotArg (argN r.args 1)) Off.FNF_LT_L,
                slotReg (slotArg (argN r.args 1)) Off.FNF_PER, slotReg (slotArg (argN r.args 1)) Off.FNF_XCNT,
                slotReg (slotArg (argN r.args 1)) Off.FNF_GFID] s t ∧
       changesOnly [.regs, .nis, .slots, .fanfare, .firmware] s t)) ∧
  (∀ (es : List FEnt) (r : Running) (s : State),
     runsCmd s 0x603 r →
     slotState s (slotArg (argN r.args 1)) = 0 →
     regBit s (fnfReg Off.FNF_CTRL) 0 = true →
     1 ≤ (argN r.args 3).toNat →
     (argN r.args 3).toNat ≤ 4096 →
     (checkPass s (argN r.args 3).toNat 0 (argN r.args 2).toNat []).1.toOption = some es →
     listAwake s (argN r.args 2).toNat (argN r.args 3).toNat = true →
     s.stageQ = [] →
     s.route = none →
     (∀ e ∈ es, placesHeld s e.ni = 0) →
     Completes (.fnfXrun) s (fun t =>
       answersCmd t r 0 [natW ((slotArg (argN r.args 1))
                               + 8 * ((s.slot (slotArg (argN r.args 1))).gen % 32))] true ∧
       slotState t (slotArg (argN r.args 1)) = 1 ∧
       slotFid t (slotArg (argN r.args 1)) = (slotArg (argN r.args 1))
         + 8 * ((s.slot (slotArg (argN r.args 1))).gen % 32) ∧
       (t.slot (slotArg (argN r.args 1))).ents = markLast es ∧ (t.slot (slotArg (argN r.args 1))).todo = []
         ∧ (t.slot (slotArg (argN r.args 1))).stageOnly = false ∧
       t.reg (slotReg (slotArg (argN r.args 1)) Off.FNF_LIST) = (argN r.args 2) ∧
       getFld t (slotReg (slotArg (argN r.args 1)) Off.FNF_LEN) 0 13 = (argN r.args 3).toNat ∧
       t.reg (slotReg (slotArg (argN r.args 1)) Off.FNF_LT_H) = (argN r.args 4) ∧
       t.reg (slotReg (slotArg (argN r.args 1)) Off.FNF_LT_L) = ftLowClamp (argN r.args 5) ∧
       getFld t (slotReg (slotArg (argN r.args 1)) Off.FNF_PER) 0 30 = 0 ∧
       getFld t (slotReg (slotArg (argN r.args 1)) Off.FNF_XCNT) 0 17 = xcntArg (argN r.args 8) ∧
       getFld t (slotReg (slotArg (argN r.args 1)) Off.FNF_GFID) 0 32 = (argN r.args 6).fld 0 32 ∧
       t.reg (slotReg (slotArg (argN r.args 1)) Off.FNF_XLIST) = argN r.args 7 ∧
       getFld t (slotReg (slotArg (argN r.args 1)) Off.FNF_XREC) 0 32 = (argN r.args 9).fld 0 32 ∧
       (t.ni (coordNi s)).stage.length = (s.ni (coordNi s)).stage.length + es.length ∧
       nisBut (coordNi s) s t ∧
       slotsBut (slotArg (argN r.args 1)) s t ∧
       t.reg (opcReg Off.OPC_CLAMP_CNT) = s.reg (opcReg Off.OPC_CLAMP_CNT)
         + BitVec.ofNat 36 ((fFnfXrun r.args).clamps) ∧
       regsBut [opcReg Off.OPC_CLAMP_CNT, slotReg (slotArg (argN r.args 1)) Off.FNF_STAT,
                slotReg (slotArg (argN r.args 1)) Off.FNF_LIST, slotReg (slotArg (argN r.args 1)) Off.FNF_LEN,
                slotReg (slotArg (argN r.args 1)) Off.FNF_LT_H, slotReg (slotArg (argN r.args 1)) Off.FNF_LT_L,
                slotReg (slotArg (argN r.args 1)) Off.FNF_PER, slotReg (slotArg (argN r.args 1)) Off.FNF_XCNT,
                slotReg (slotArg (argN r.args 1)) Off.FNF_GFID, slotReg (slotArg (argN r.args 1)) Off.FNF_XLIST,
                slotReg (slotArg (argN r.args 1)) Off.FNF_XREC] s t ∧
       changesOnly [.regs, .nis, .slots, .fanfare, .firmware] s t)) ∧
  (∀ (r : Running) (s : State),
     runsCmd s 0x601 r →
     (slotState s (slotArg (argN r.args 1)) ≠ 0 ∨ regBit s (fnfReg Off.FNF_CTRL) 0 = false) →
     Completes (.fnfRun) s (fun t =>
       answersCmd t r 4 [2, if slotState s (slotArg (argN r.args 1)) = 0 then 0 else 1] false ∧
       t.reg (opcReg Off.OPC_CLAMP_CNT) = s.reg (opcReg Off.OPC_CLAMP_CNT)
         + BitVec.ofNat 36 ((fFnfRun r.args).clamps) ∧
       regsBut [opcReg Off.OPC_CLAMP_CNT] s t ∧
       t = { s with regs := t.regs, running := t.running })) ∧
  (∀ (l : Launch) (r : Running) (s : State),
     runsCmd s 0x604 r →
     slotState s (slotArg (argN r.args 1)) = 5 →
     findLaunch s (slotFid s (slotArg (argN r.args 1))) = some l →
     l.edge = none →
     Completes (.fnfStop) s (fun t =>
       answersCmd t r 0 [] true ∧
       slotState t (slotArg (argN r.args 1)) = 6 ∧
       t.launches = s.launches.filter (fun g => decide (g.fid ≠ slotFid s (slotArg (argN r.args 1)))) ∧
       t.reg (opcReg Off.OPC_CLAMP_CNT) = s.reg (opcReg Off.OPC_CLAMP_CNT)
         + BitVec.ofNat 36 (clamped 0 5 (argN r.args 1)) ∧
       regsBut [opcReg Off.OPC_CLAMP_CNT, slotReg (slotArg (argN r.args 1)) Off.FNF_STAT] s t ∧
       changesOnly [.regs, .fanfare, .firmware] s t)) ∧
  (∀ (r : Running) (s : State),
     runsCmd s 0x604 r →
     slotState s (slotArg (argN r.args 1)) ≠ 5 →
     Completes (.fnfStop) s (fun t =>
       answersCmd t r 0 [] false ∧
       t.reg (opcReg Off.OPC_CLAMP_CNT) = s.reg (opcReg Off.OPC_CLAMP_CNT)
         + BitVec.ofNat 36 (clamped 0 5 (argN r.args 1)) ∧
       regsBut [opcReg Off.OPC_CLAMP_CNT] s t ∧
       t = { s with regs := t.regs, running := t.running })) ∧
  (∀ (r : Running) (s : State),
     runsCmd s 0x605 r →
     r.begun = false →
     (slotState s (slotArg (argN r.args 1)) = 1 ∨ slotState s (slotArg (argN r.args 1)) = 3) →
     s.stageQ.filter (fun j => decide (j ≠ (slotArg (argN r.args 1)))) = [] →
     Completes (.fnfAbort) s (fun t =>
       answersCmd t r 0 [t.reg (slotReg (slotArg (argN r.args 1)) Off.FNF_STAT)] true ∧
       slotState t (slotArg (argN r.args 1)) = 7 ∧ slotReason t (slotArg (argN r.args 1)) = 5 ∧
       (t.slot (slotArg (argN r.args 1))).want = [] ∧
       slotsBut (slotArg (argN r.args 1)) s t ∧
       t.reg (opcReg Off.OPC_CLAMP_CNT) = s.reg (opcReg Off.OPC_CLAMP_CNT)
         + BitVec.ofNat 36 (clamped 0 5 (argN r.args 1)) ∧
       changesOnly [.regs, .nis, .slots, .fanfare, .firmware, .log, .ids] s t)) ∧
  (∀ (l : Launch) (r : Running) (s : State),
     runsCmd s 0x605 r →
     r.begun = false →
     slotState s (slotArg (argN r.args 1)) = 4 →
     findLaunch s (slotFid s (slotArg (argN r.args 1))) = some l →
     ftNow s + 64 * 500 < l.lt →
     Completes (.fnfAbort) s (fun t =>
       t.running = some { r with begun := true } ∧
       (t.ni (coordNi s)).stage.length = (s.ni (coordNi s)).stage.length + 2 ∧
       slotState t (slotArg (argN r.args 1)) = 4 ∧
       t.reg (opcReg Off.OPC_CLAMP_CNT) = s.reg (opcReg Off.OPC_CLAMP_CNT)
         + BitVec.ofNat 36 (clamped 0 5 (argN r.args 1)) ∧
       regsBut [opcReg Off.OPC_CLAMP_CNT] s t ∧
       changesOnly [.regs, .nis, .firmware] s t)) ∧
  (∀ (r : Running) (s : State),
     runsCmd s 0x605 r →
     r.begun = true →
     slotState s (slotArg (argN r.args 1)) ≠ 4 →
     Completes (.fnfAbort) s (fun t =>
       answersCmd t r 0 [s.reg (slotReg (slotArg (argN r.args 1)) Off.FNF_STAT)]
         (decide (slotState s (slotArg (argN r.args 1)) = 7)) ∧
       t = { s with running := t.running })) ∧
  (∀ (r : Running) (s : State),
     runsCmd s 0x101 r →
     queueFull s = false →
     (argN r.args 2).bit 1 = true →
     (argN r.args 2).bit 2 = false →
     sliceState s (tileOf (argN r.args 1)) ((argN r.args 2).fld 0 1) = 0 →
     fenceJobFor s (tileOf (argN r.args 1)) ((argN r.args 2).fld 0 1) = false →
     (s.ta (tileOf (argN r.args 1))).turn = none →
     (sliceState s (tileOf (argN r.args 1)) (1 - ((argN r.args 2).fld 0 1)) = 2 ∨ sliceState s (tileOf (argN r.args 1)) (1 - ((argN r.args 2).fld 0 1)) = 4) →
     Completes (.fenceSlice) s (fun t =>
       answersCmd t r 4 [7, 0] false ∧
       t.reg (opcReg Off.OPC_CLAMP_CNT) = s.reg (opcReg Off.OPC_CLAMP_CNT)
         + BitVec.ofNat 36 (tileClamps (argN r.args 1)) ∧
       regsBut [opcReg Off.OPC_CLAMP_CNT] s t ∧
       t = { s with regs := t.regs, running := t.running })) ∧
  (∀ (r : Running) (s : State),
     runsCmd s 0x101 r →
     queueFull s = false →
     s.jobs = [] →
     (argN r.args 2).bit 1 = true →
     (argN r.args 2).bit 2 = false →
     sliceState s (tileOf (argN r.args 1)) ((argN r.args 2).fld 0 1) = 0 →
     sliceState s (tileOf (argN r.args 1)) (1 - ((argN r.args 2).fld 0 1)) = 0 →
     (s.ta (tileOf (argN r.args 1))).turn = none →
     isolatedBy (addJob (noteClamps s (tileClamps (argN r.args 1))) { kind := .fence, t := (tileOf (argN r.args 1)), a := ((argN r.args 2).fld 0 1) })
       (wantedMap (addJob (noteClamps s (tileClamps (argN r.args 1))) { kind := .fence, t := (tileOf (argN r.args 1)), a := ((argN r.args 2).fld 0 1) })) ≠ 0 →
     Completes (.fenceSlice) s (fun t =>
       answersCmd t r 4 [7, 0] false ∧
       t.reg (opcReg Off.OPC_CLAMP_CNT) = s.reg (opcReg Off.OPC_CLAMP_CNT)
         + BitVec.ofNat 36 (tileClamps (argN r.args 1)) ∧
       regsBut [opcReg Off.OPC_CLAMP_CNT] s t ∧
       t = { s with regs := t.regs, running := t.running })) ∧
  (∀ (r : Running) (s : State),
     runsCmd s 0x102 r →
     queueFull s = false →
     isLink (tileOf (argN r.args 1)) ((argN r.args 2).fld 0 4) = true →
     (argN r.args 3).bit 2 = true →
     (argN r.args 3).bit 3 = false →
     ((linkHalfArg (argN r.args 3)).testBit 0 || halfDown s (tileOf (argN r.args 1)) ((argN r.args 2).fld 0 4) 0) = true →
     ((linkHalfArg (argN r.args 3)).testBit 1 || halfDown s (tileOf (argN r.args 1)) ((argN r.args 2).fld 0 4) 1) = true →
     (pendBits s (tileOf (argN r.args 1))).testBit ((argN r.args 2).fld 0 4) = false →
     isolatedBy (cutLink (noteClamps s (tileClamps (argN r.args 1) + b2n (decide ((argN r.args 3).fld 0 2 = 0)))) (tileOf (argN r.args 1)) ((argN r.args 2).fld 0 4) (linkHalfArg (argN r.args 3)))
       (wantedMap (cutLink (noteClamps s (tileClamps (argN r.args 1) + b2n (decide ((argN r.args 3).fld 0 2 = 0)))) (tileOf (argN r.args 1)) ((argN r.args 2).fld 0 4) (linkHalfArg (argN r.args 3)))) ≠ 0 →
     Completes (.fenceLink) s (fun t =>
       answersCmd t r 4 [7, 0] false ∧
       t.reg (opcReg Off.OPC_CLAMP_CNT) = s.reg (opcReg Off.OPC_CLAMP_CNT)
         + BitVec.ofNat 36 (tileClamps (argN r.args 1) + b2n (decide ((argN r.args 3).fld 0 2 = 0))) ∧
       regsBut [opcReg Off.OPC_CLAMP_CNT] s t ∧
       t = { s with regs := t.regs, running := t.running })) ∧
  (∀ (r : Running) (s : State),
     runsCmd s 0x103 r →
     queueFull s = false →
     (argN r.args 2).bit 0 = true →
     (argN r.args 2).bit 1 = false →
     (pendBits s (tileOf (argN r.args 1))).testBit 16 = false →
     keepsKeeper s (tileOf (argN r.args 1)) = false →
     isolatedBy (takeOut (noteClamps s (tileClamps (argN r.args 1))) (tileOf (argN r.args 1)) false)
       (wantedMap (takeOut (noteClamps s (tileClamps (argN r.args 1))) (tileOf (argN r.args 1)) false)) ≠ 0 →
     Completes (.tileService) s (fun t =>
       answersCmd t r 4 [7, 0] false ∧
       t.reg (opcReg Off.OPC_CLAMP_CNT) = s.reg (opcReg Off.OPC_CLAMP_CNT)
         + BitVec.ofNat 36 (tileClamps (argN r.args 1)) ∧
       regsBut [opcReg Off.OPC_CLAMP_CNT] s t ∧
       t = { s with regs := t.regs, running := t.running })) ∧
  (∀ (r : Running) (s : State),
     runsCmd s 0x103 r →
     queueFull s = false →
     (argN r.args 2).bit 0 = true →
     (pendBits s (tileOf (argN r.args 1))).testBit 16 = false →
     ((tileOf (argN r.args 1)) = 0 ∨ (tileOf (argN r.args 1)) = 63) →
     (tileOf (argN r.args 1)) = 63 * activeTk s →
     regBit s (tkReg Off.TK_STAT) 1 = false →
     Completes (.tileService) s (fun t =>
       answersCmd t r 4 [5, 0] false ∧
       t.reg (opcReg Off.OPC_CLAMP_CNT) = s.reg (opcReg Off.OPC_CLAMP_CNT)
         + BitVec.ofNat 36 (tileClamps (argN r.args 1)) ∧
       regsBut [opcReg Off.OPC_CLAMP_CNT] s t ∧
       t = { s with regs := t.regs, running := t.running })) ∧
  (∀ (r : Running) (s : State),
     runsCmd s 0x103 r →
     queueFull s = false →
     (argN r.args 2).bit 0 = false →
     (argN r.args 2).bit 1 = false →
     isOutNow s (tileOf (argN r.args 1)) = true →
     jobAt s (tileOf (argN r.args 1)) (fun k => decide (k = .restore)) = false →
     isolatedBy (backAgain (noteClamps s (tileClamps (argN r.args 1))) (tileOf (argN r.args 1)))
       (wantedMap (backAgain (noteClamps s (tileClamps (argN r.args 1))) (tileOf (argN r.args 1)))) ≠ 0 →
     Completes (.tileService) s (fun t =>
       answersCmd t r 4 [7, 0] false ∧
       t.reg (opcReg Off.OPC_CLAMP_CNT) = s.reg (opcReg Off.OPC_CLAMP_CNT)
         + BitVec.ofNat 36 (tileClamps (argN r.args 1)) ∧
       regsBut [opcReg Off.OPC_CLAMP_CNT] s t ∧
       t = { s with regs := t.regs, running := t.running })) ∧
  (∀ (r : Running) (c : Instr) (s : State),
     (runsCmd s 0x101 r ∧ (c = .fenceSlice) ∨ runsCmd s 0x102 r ∧ c = .fenceLink ∧ isLink (tileOf (argN r.args 1)) ((argN r.args 2).fld 0 4) = true ∨ runsCmd s 0x103 r ∧ c = .tileService) →
     queueFull s = true →
     Completes (c) s (fun t =>
       answersCmd t r 4 [3, 0] false ∧
       regsBut [opcReg Off.OPC_CLAMP_CNT] s t ∧
       t = { s with regs := t.regs, running := t.running })) ∧
  (∀ (n : Nat) (r : Running) (s : State),
     runsCmd s 0x104 r →
     nodeArg s (argN r.args 1) = some n →
     tileDark s (n / 7) = false →
     (argN r.args 2).bit 0 = false →
     niEn s n = true →
     (s.ni n).eject.filter (fun p => isUnitKind p && !p.killed) = [] →
     Completes (.unitEnable) s (fun t =>
       answersCmd t r 0 [shown t (niReg n Off.NI_STAT)] true ∧
       niEn t n = false ∧
       t.ni n = { s.ni n with draining := true, drained := false, expired := false } ∧
       nisBut n s t ∧
       getFld t (niReg n Off.NI_CTRL) 1 3 = getFld s (niReg n Off.NI_CTRL) 1 3 ∧
       getFld t (niReg n Off.NI_DRAIN_TO) 0 14 = (if (argN r.args 2).fld 1 14 = 0
                                                  then getFld s (niReg n Off.NI_DRAIN_TO) 0 14
                                                  else min ((argN r.args 2).fld 1 14) 10000) ∧
       t.reg (opcReg Off.OPC_CLAMP_CNT) = s.reg (opcReg Off.OPC_CLAMP_CNT)
         + BitVec.ofNat 36 (b2n (decide (10000 < (argN r.args 2).fld 1 14))) ∧
       regsBut [opcReg Off.OPC_CLAMP_CNT, niReg n Off.NI_CTRL, niReg n Off.NI_DRAIN_TO] s t))

/-- PWR_TILE permits a state, queues Slim, or answers what refuses; of a tile in Off it returns a ticket. A claim or
release answers what PWR_TILE_CLAIM gives; both wait for the end of a voltage transition. PWR_RETAIN waits for its
response, or is refused by the first tile that refuses. BIST_TURN names a unit. FW_LOAD begins the check of an image
or answers why it does not; FW_COMMIT ends PENDING and restarts the standby. -/
def Obligations.PowerTestAndUpdateCommands : Prop :=
  (∀ (u v : Nat) (r : Running) (s : State),
     runsCmd s 0x701 r →
     tileOf (argN r.args 1) = u →
     stateArg (argN r.args 2) = v →
     v = 1 ∨ v = 3 ∨ v = 0 ∧ taGear s u = false →
     tileState s u = 0 →
     taVtrans s u = false →
     (s.ta u).nar = none →
     (s.ta u).entering = none →
     (s.ta u).slimDue = none →
     (pendBits s u).testBit 16 = false →
     Completes .pwrTileSet s (fun t =>
       answersCmd t r 0 [0] (decide (s.reg (taReg u Off.PWR_TA_REQ) ≠ natW v)) ∧
       t.reg (taReg u Off.PWR_TA_REQ) = natW v ∧
       shadowOf t (taReg u Off.PWR_TA_REQ) = natW v ∧
       t.jobs = s.jobs.filter (fun j => !decide (j.t = u ∧ j.kind = .slim)) ∧
       t.reg (opcReg Off.OPC_CLAMP_CNT) = s.reg (opcReg Off.OPC_CLAMP_CNT) +
         BitVec.ofNat 36 (tileClamps (argN r.args 1) + clamped 0 4 (argN r.args 2)) ∧
       regsBut [opcReg Off.OPC_CLAMP_CNT, taReg u Off.PWR_TA_REQ] s t ∧
       (∀ a, a ≠ taReg u Off.PWR_TA_REQ → shadowOf t a = shadowOf s a) ∧
       t = { s with regs := t.regs, running := t.running, jobs := t.jobs, shadows := t.shadows })) ∧
  (∀ (u : Nat) (r : Running) (s : State),
     runsCmd s 0x701 r →
     tileOf (argN r.args 1) = u →
     stateArg (argN r.args 2) = 2 →
     tileState s u = 0 →
     taVtrans s u = false →
     sliceIn s u 0 = true →
     sliceIn s u 1 = true →
     refuser s u .slim false = none →
     r.begun = false →
     sc5Tile s u = false →
     s.jobs = [] →
     instHalf s u = false →
     Completes .pwrTileSet s (fun t =>
       t.running = some { r with begun := true, data := [s.reg (taReg u Off.PWR_REFUSE_CNT)] } ∧
       t.jobs = [{ kind := .slim, t := u, a := (Config.freeWord s.freeN).fld 0 1 }] ∧
       t.freeN = s.freeN + 1 ∧
       t.reg (opcReg Off.OPC_CLAMP_CNT) = s.reg (opcReg Off.OPC_CLAMP_CNT) +
         BitVec.ofNat 36 (tileClamps (argN r.args 1) + clamped 0 4 (argN r.args 2)) ∧
       regsBut [opcReg Off.OPC_CLAMP_CNT] s t ∧
       t = { s with regs := t.regs, running := t.running, jobs := t.jobs, freeN := t.freeN })) ∧
  (∀ (u v k w : Nat) (r : Running) (s : State),
     runsCmd s 0x701 r →
     tileOf (argN r.args 1) = u →
     stateArg (argN r.args 2) = v →
     v = 2 ∧ w = 2 ∧ sliceIn s u 0 = true ∧ sliceIn s u 1 = true ∧
         ((s.ta u).turn.isSome || (s.ta u).nar.isNone && (s.ta u).wide.isNone) = true ∧ refuser s u .slim false = some k ∨
       v = 4 ∧ w = 4 ∧ queueFull s = false ∧ offRefuser s u = some k →
     tileState s u ≠ 3 →
     taVtrans s u = false →
     Completes .pwrTileSet s (fun t =>
       answersCmd t r 3 [natW k, s.reg (taReg u Off.PWR_REFUSE_CNT) + 1] false ∧
       t.reg (taReg u Off.PWR_REFUSE_CNT) = s.reg (taReg u Off.PWR_REFUSE_CNT) + 1 ∧
       t.reg (taReg u (Off.PWR_REFUSE_BY k)) = s.reg (taReg u (Off.PWR_REFUSE_BY k)) + 1 ∧
       t.reg (taReg u Off.PWR_LAST_REFUSER) = W.at 0 4 k ||| W.at 4 3 w ∧
       t.reg (opcReg Off.OPC_CLAMP_CNT) = s.reg (opcReg Off.OPC_CLAMP_CNT) +
         BitVec.ofNat 36 (tileClamps (argN r.args 1) + clamped 0 4 (argN r.args 2)) ∧
       regsBut [opcReg Off.OPC_CLAMP_CNT, taReg u Off.PWR_REFUSE_CNT, taReg u (Off.PWR_REFUSE_BY k),
                taReg u Off.PWR_LAST_REFUSER] s t ∧
       t.ta u = (if v = 2 then { s.ta u with slimNo := some k } else s.ta u) ∧
       agentsBut u s t ∧
       t = { s with regs := t.regs, running := t.running, freeN := t.freeN, agents := t.agents })) ∧
  (∀ (u : Nat) (r : Running) (s : State),
     runsCmd s 0x701 r →
     tileOf (argN r.args 1) = u →
     stateArg (argN r.args 2) = 4 →
     taVtrans s u = false →
     (queueFull s = true ∨ tileState s u = 3 ∧ s.jobs = []) →
     Completes .pwrTileSet s (fun t =>
       (queueFull s = true → answersCmd t r 4 [3, 0] false ∧ t.tickLast = s.tickLast ∧ t.fenceTicket = s.fenceTicket) ∧
       (queueFull s = false → answersCmd t r 0 [3, natW (nextTicket s)] false ∧ t.tickLast = nextTicket s ∧
         t.fenceTicket = some (nextTicket s)) ∧
       t.reg (opcReg Off.OPC_CLAMP_CNT) = s.reg (opcReg Off.OPC_CLAMP_CNT) +
         BitVec.ofNat 36 (tileClamps (argN r.args 1) + clamped 0 4 (argN r.args 2)) ∧
       regsBut [opcReg Off.OPC_CLAMP_CNT] s t ∧
       t = { s with regs := t.regs, running := t.running, tickLast := t.tickLast, fenceTicket := t.fenceTicket })) ∧
  (∀ (u : Nat) (r : Running) (s : State),
     runsCmd s 0x701 r →
     tileOf (argN r.args 1) = u →
     stateArg (argN r.args 2) = 4 →
     tileState s u = 0 →
     taVtrans s u = false →
     queueFull s = false →
     offRefuser s u = none →
     s.jobs = [] →
     outNow s u = false →
     isolatedBy (takeOut (noteClamps s (tileClamps (argN r.args 1) + clamped 0 4 (argN r.args 2))) u true)
       (wantedMap (takeOut (noteClamps s (tileClamps (argN r.args 1) + clamped 0 4 (argN r.args 2))) u true)) = 0 →
     Completes .pwrTileSet s (fun t =>
       answersCmd t r 0 [0, natW (nextTicket s)] true ∧
       t.jobs = [{ kind := .gateOut, t := u }, { kind := .off, t := u }] ∧
       pendBits t u = pendBits s u ||| 2 ^ 16 ∧
       (∀ v, v ≠ u → pendBits t v = pendBits s v) ∧
       t.tickLast = nextTicket s ∧ t.fenceTicket = some (nextTicket s) ∧
       t.reg (opcReg Off.OPC_CLAMP_CNT) = s.reg (opcReg Off.OPC_CLAMP_CNT) +
         BitVec.ofNat 36 (tileClamps (argN r.args 1) + clamped 0 4 (argN r.args 2)) ∧
       regsBut [opcReg Off.OPC_CLAMP_CNT] s t ∧
       t = { s with regs := t.regs, running := t.running, jobs := t.jobs, pendMap := t.pendMap, tickLast := t.tickLast,
                    fenceTicket := t.fenceTicket })) ∧
  (∀ (op : Nat) (r : Running) (s : State) (c : Instr),
     op = 0x701 ∧ c = .pwrTileSet ∨ op = 0x702 ∧ c = .tileClaim →
     runsCmd s op r →
     taVtrans s (tileOf (argN r.args 1)) = true →
     Completes c s (fun t => t = s)) ∧
  (∀ (u owner : Nat) (valid : Bool) (r : Running) (s : State),
     runsCmd s 0x702 r →
     tileOf (argN r.args 1) = u →
     (argN r.args 2).fld 0 23 = owner →
     (argN r.args 2).bit 23 = valid →
     (valid = true ∧ taClaimed s u = false ∧ taGear s u = false ∨
       valid = false ∧ taClaimed s u = true ∧ getFld s (taReg u Off.PWR_TILE_CLAIM) 0 23 = owner) →
     tileState s u = 0 →
     taVtrans s u = false →
     (s.ta u).nar = none →
     (s.ta u).entering = none →
     (s.ta u).slimDue = none →
     Completes .tileClaim s (fun t =>
       answersCmd t r 0 [] true ∧
       t.reg (taReg u Off.PWR_TILE_CLAIM) = W.at 0 23 owner ||| W.at 23 1 (b2n valid) ∧
       t.reg (opcReg Off.OPC_CLAMP_CNT) = s.reg (opcReg Off.OPC_CLAMP_CNT) + BitVec.ofNat 36 (tileClamps (argN r.args 1)) ∧
       regsBut [opcReg Off.OPC_CLAMP_CNT, taReg u Off.PWR_TILE_CLAIM] s t ∧
       t = { s with regs := t.regs, running := t.running })) ∧
  (∀ (u code : Nat) (r : Running) (s : State),
     runsCmd s 0x702 r →
     tileOf (argN r.args 1) = u →
     (code = 0x13 ∧ (argN r.args 2).bit 23 = true ∧ taClaimed s u = true ∧
         getFld s (taReg u Off.PWR_TILE_CLAIM) 0 23 ≠ (argN r.args 2).fld 0 23 ∨
       code = 0x11 ∧ (argN r.args 2).bit 23 = false ∧
         (taClaimed s u = false ∨ getFld s (taReg u Off.PWR_TILE_CLAIM) 0 23 ≠ (argN r.args 2).fld 0 23)) →
     tileState s u ≠ 3 →
     taVtrans s u = false →
     Completes .tileClaim s (fun t =>
       answersCmd t r code [natW (getFld s (taReg u Off.PWR_TILE_CLAIM) 0 23)] false ∧
       t.reg (taReg u Off.PWR_TILE_CLAIM) = W.at 0 23 (getFld s (taReg u Off.PWR_TILE_CLAIM) 0 23) |||
         W.at 23 1 (b2n (taClaimed s u)) ||| W.at 24 2 (if code = 0x13 then 1 else 2) ∧
       t.reg (opcReg Off.OPC_CLAMP_CNT) = s.reg (opcReg Off.OPC_CLAMP_CNT) + BitVec.ofNat 36 (tileClamps (argN r.args 1)) ∧
       regsBut [opcReg Off.OPC_CLAMP_CNT, taReg u Off.PWR_TILE_CLAIM] s t ∧
       t = { s with regs := t.regs, running := t.running })) ∧
  (∀ (r : Running) (s : State),
     runsCmd s 0x703 r →
     retainRefuser s = none →
     Completes .pwrRetain s (fun t =>
       answersCmd t r 0 [] true ∧
       t.retain = some (W.at 0 2 ((argN r.args 1).fld 0 2)) ∧
       t = { s with retain := t.retain, running := t.running })) ∧
  (∀ (u k : Nat) (r : Running) (s : State),
     runsCmd s 0x703 r →
     u < 64 →
     tileState s u ≠ 3 →
     refuser s u .off true = some k →
     (∀ v < u, tileState s v = 3 ∨ refuser s v .off true = none) →
     Completes .pwrRetain s (fun t =>
       answersCmd t r 3 [natW k, s.reg (taReg u Off.PWR_REFUSE_CNT) + 1] false ∧
       t.reg (taReg u Off.PWR_REFUSE_CNT) = s.reg (taReg u Off.PWR_REFUSE_CNT) + 1 ∧
       t.reg (taReg u (Off.PWR_REFUSE_BY k)) = s.reg (taReg u (Off.PWR_REFUSE_BY k)) + 1 ∧
       t.reg (taReg u Off.PWR_LAST_REFUSER) = W.at 0 4 k ||| W.at 4 3 4 ∧
       regsBut [taReg u Off.PWR_REFUSE_CNT, taReg u (Off.PWR_REFUSE_BY k), taReg u Off.PWR_LAST_REFUSER] s t ∧
       t = { s with regs := t.regs, running := t.running })) ∧
  (∀ (u : Nat) (r : Running) (s : State),
     runsCmd s 0x802 r →
     tileOf (argN r.args 1) = u →
     Completes .bistTurn s (fun t =>
       ((s.ta u).turn ≠ none → answersCmd t r 3 [5, s.reg (taReg u Off.PWR_REFUSE_CNT)] false ∧ t.placed = s.placed) ∧
       ((s.ta u).turn = none → answersCmd t r 0 [] false ∧ (u, (argN r.args 2).fld 0 3) ∈ t.placed ∧
         (∀ x, x ∈ t.placed → x ∈ s.placed ∨ x = (u, (argN r.args 2).fld 0 3)) ∧ (∀ x ∈ s.placed, x ∈ t.placed)) ∧
       t.reg (opcReg Off.OPC_CLAMP_CNT) = s.reg (opcReg Off.OPC_CLAMP_CNT) + BitVec.ofNat 36 (tileClamps (argN r.args 1)) ∧
       regsBut [opcReg Off.OPC_CLAMP_CNT] s t ∧
       t = { s with regs := t.regs, running := t.running, placed := t.placed })) ∧
  (∀ (b : Nat) (r : Running) (s : State),
     runsCmd s 0x901 r →
     (argN r.args 1).fld 0 1 = b →
     bootSel s = false →
     (r.begun && s.imgCheck.isSome) = false →
     Completes .fwLoad s (fun t =>
       (b = 0 → t.imgCheck = some 0 ∧ t.running = some { r with begun := true }) ∧
       (b = 1 → answersCmd t r 4 [6, 1] false ∧ t.imgCheck = s.imgCheck) ∧
       t = { s with imgCheck := t.imgCheck, running := t.running })) ∧
  (∀ (b why : Nat) (r : Running) (s : State),
     runsCmd s 0x901 r →
     (argN r.args 1).fld 0 1 = b →
     bootSel s = true →
     (why = 6 ∧ b = activeBank s ∨
       why = 2 ∧ b ≠ activeBank s ∧ (s.imgCheck ≠ none ∨ s.imgReady ≠ none ∨ pendingImg s = true) ∨
       why = 5 ∧ b ≠ activeBank s ∧ s.imgCheck = none ∧ s.imgReady = none ∧ pendingImg s = false ∧ stbyCore s = false) →
     Completes .fwLoad s (fun t =>
       answersCmd t r 4 [natW why, natW (if why = 6 then 1 else 0)] false ∧
       t = { s with running := t.running })) ∧
  (∀ (b : Nat) (r : Running) (s : State),
     runsCmd s 0x901 r →
     (argN r.args 1).fld 0 1 = b →
     bootSel s = true →
     b ≠ activeBank s →
     s.imgCheck = none →
     s.imgReady = none →
     pendingImg s = false →
     stbyCore s = true →
     s.evq.length < 16 →
     Completes .fwLoad s (fun t =>
       (imgFormat s b = true → answersCmd t r 0 [s.reg (opcReg Off.OPC_IMG_STAT)] false ∧ t.imgCheck = some b ∧
         t.evq = s.evq ∧ t.reg (opcReg Off.OPC_IMG_STAT) = s.reg (opcReg Off.OPC_IMG_STAT)) ∧
       (imgFormat s b = false → answersCmd t r 0x10 [W.at 0 4 5 ||| W.at 12 24 (imgVersion s b)] false ∧
         t.imgCheck = none ∧ t.reg (opcReg Off.OPC_IMG_STAT) = W.at 0 4 5 ||| W.at 12 24 (imgVersion s b) ∧
         logs s t (mkEv (ftNow s) (coreNode s (1 - activeCore s)) EvC.IMG_REJECT [])) ∧
       regsBut [opcReg Off.OPC_IMG_STAT] s t ∧
       t = { s with regs := t.regs, evq := t.evq, imgCheck := t.imgCheck, running := t.running })) ∧
  (∀ (r : Running) (s : State),
     runsCmd s 0x902 r →
     regBit s (opcReg Off.OPC_IMG_BANK) 1 = true →
     Completes .fwCommit s (fun t =>
       answersCmd t r 0 [(s.reg (opcReg Off.OPC_IMG_BANK)).put 1 1 0] true ∧
       t.reg (opcReg Off.OPC_IMG_BANK) = (s.reg (opcReg Off.OPC_IMG_BANK)).put 1 1 0 ∧
       t.reg (opcReg Off.OPC_FW_STAT) = (s.reg (opcReg Off.OPC_FW_STAT)).put 27 1 0 ∧
       t.core (1 - activeCore s) = { s.core (1 - activeCore s) with rstReq := true } ∧
       regsBut [opcReg Off.OPC_IMG_BANK, opcReg Off.OPC_FW_STAT] s t ∧
       coresBut (1 - activeCore s) s t ∧
       changesOnly [.regs, .cores, .firmware] s t)) ∧
  (∀ (r : Running) (s : State),
     runsCmd s 0x902 r →
     regBit s (opcReg Off.OPC_IMG_BANK) 1 = false →
     Completes .fwCommit s (fun t =>
       answersCmd t r 0 [s.reg (opcReg Off.OPC_IMG_BANK)] false ∧
       t = { s with running := t.running }))

/-- A host's write of PWR_TA_REQ, PWR_TILE_CLAIM or PWR_PROFILE. A target waits for the end of a voltage
transition, TARGET Off also for the end of brace. A tile in Off is asked to return. Run leaves Slim and raises the
gear; Run, low gear and Slim wake a dozing tile. Slim starts a narrowing, Off saves the words of R304 with its
index, loses the memory and drops the tile's interrupt lines, and a refuser declines either. A claim is granted,
wakes a dozing tile, raises one in low gear and ends an entry to Doze, or is answered CLAIMED; a release answers
NOTOWN to anyone but the owner. A profile is written and falls due at every tile that is not in Off, to reach it
at a tc edge (the model's choice of the moment, log entry 2; of a tile in Off, log entry 41). -/
def Obligations.TargetsClaimsAndProfile : Prop :=
  (∀ (u : Fin 64) (v : W) (s : State) (c : Instr),
     c = .targetRun u ∧ v = 0 ∨ c = .targetLowGear u ∧ v = 1 ∨ c = .targetSlim u 0 ∧ v = 2 ∨
       c = .targetSlim u 1 ∧ v = 10 ∨ c = .targetDoze u ∧ v = 3 ∨ c = .targetOff u ∧ v = 4 →
     fstate s ≠ 2 →
     (taVtrans s u = true ∨ (v = 4 ∨ tileState s u = 3) ∧ braced s = true) →
     Completes c s (fun t =>
       t.reg (taReg u Off.PWR_TA_REQ) = v ∧
       t.reg (retReg (tileRet u)) = (if tileState s u = 3 ∧ braced s = false then v else s.reg (retReg (tileRet u))) ∧
       t.ta u = { s.ta u with waitReq := (s.ta u).waitReq ++ [.target v] } ∧
       regsBut [taReg u Off.PWR_TA_REQ, retReg (tileRet u)] s t ∧
       changesOnly [.regs, .agents] s t ∧
       agentsBut u s t)) ∧
  (∀ (u : Fin 64) (v : W) (s : State) (c : Instr),
     c = .targetRun u ∧ v = 0 ∨ c = .targetLowGear u ∧ v = 1 ∨ c = .targetSlim u 0 ∧ v = 2 ∨
       c = .targetSlim u 1 ∧ v = 10 ∨ c = .targetDoze u ∧ v = 3 →
     fstate s ≠ 2 →
     taVtrans s u = false →
     braced s = false →
     tileState s u = 3 →
     Completes c s (fun t =>
       t.reg (taReg u Off.PWR_TA_REQ) = v ∧
       t.reg (retReg (tileRet u)) = v ∧
       t.rstReq = s.rstReq ++ [.tile u] ∧ t.heldResets = s.heldResets ∧
       regsBut [taReg u Off.PWR_TA_REQ, retReg (tileRet u)] s t ∧
       changesOnly [.regs, .resets] s t)) ∧
  (∀ (u : Fin 64) (s : State),
     fstate s ≠ 2 →
     taVtrans s u = false →
     braced s = false →
     tileState s u ≠ 2 →
     tileState s u ≠ 3 →
     (s.ta u).nar = none →
     (s.ta u).entering = none →
     Completes (.targetRun u) s (fun t =>
       t.reg (taReg u Off.PWR_TA_REQ) = 0 ∧
       t.reg (taReg u Off.PWR_TA_STAT) = (if taGear s u = true
                                          then ((s.reg (taReg u Off.PWR_TA_STAT)).put 3 1 1).put 4 1 1
                                          else s.reg (taReg u Off.PWR_TA_STAT)) ∧
       t.reg (taReg u Off.PWR_VT_CNT) = s.reg (taReg u Off.PWR_VT_CNT) + (if taGear s u = true then 1 else 0) ∧
       t.ta u = (let x := if tileState s u = 1 then askWide (dueAtRouter s u) (getFld s (taReg u Off.PWR_TA_STAT) 5 1) { s.ta u with slimDue := none }
                           else { s.ta u with slimDue := none }
                 if taGear s u = true then { x with vtUp := true, vtDue := none, gearRun := 0 } else { x with vtDue := none }) ∧
       regsBut [taReg u Off.PWR_TA_REQ, taReg u Off.PWR_TA_STAT, taReg u Off.PWR_VT_CNT] s t ∧
       changesOnly [.regs, .agents] s t ∧
       agentsBut u s t)) ∧
  (∀ (u : Fin 64) (v : W) (s : State) (c : Instr),
     c = .targetRun u ∧ v = 0 ∨ c = .targetLowGear u ∧ v = 1 ∨ c = .targetSlim u 0 ∧ v = 2 ∨
       c = .targetSlim u 1 ∧ v = 10 →
     fstate s ≠ 2 →
     taVtrans s u = false →
     tileState s u = 2 →
     taGear s u = false →
     (s.ta u).nar = none →
     Completes c s (fun t =>
       t.reg (taReg u Off.PWR_TA_REQ) = v ∧
       t.reg (taReg u Off.PWR_TA_STAT) = (s.reg (taReg u Off.PWR_TA_STAT)).put 0 3 5 ∧
       t.reg (taReg u Off.PWR_PIC_STAT) = (s.reg (taReg u Off.PWR_PIC_STAT)).put 19 2 3 ∧
       regsBut [taReg u Off.PWR_TA_REQ, taReg u Off.PWR_TA_STAT, taReg u Off.PWR_PIC_STAT] s t ∧
       t.ta u = { s.ta u with vtDue := if v = 0 then none else (s.ta u).vtDue, slimDue := if v ≤ 1 then none else (s.ta u).slimDue } ∧
       agentsBut u s t ∧
       changesOnly [.regs, .agents] s t)) ∧
  (∀ (u : Fin 64) (v : W) (s : State) (c : Instr),
     c = .targetLowGear u ∧ v = 1 ∨ c = .targetDoze u ∧ v = 3 →
     fstate s ≠ 2 →
     taVtrans s u = false →
     tileState s u ≠ 2 →
     tileState s u ≠ 3 →
     (s.ta u).nar = none →
     (s.ta u).entering = none →
     Completes c s (fun t =>
       t.reg (taReg u Off.PWR_TA_REQ) = v ∧
       t.ta u = (if tileState s u = 1 then askWide (dueAtRouter s u) (getFld s (taReg u Off.PWR_TA_STAT) 5 1) { s.ta u with slimDue := none }
                           else { s.ta u with slimDue := none }) ∧
       regsBut [taReg u Off.PWR_TA_REQ] s t ∧
       changesOnly [.regs, .agents] s t ∧
       agentsBut u s t)) ∧
  (∀ (u : Fin 64) (sl : Fin 2) (s : State),
     fstate s ≠ 2 →
     taVtrans s u = false →
     tileState s u ≠ 2 →
     tileState s u ≠ 3 →
     sliceIn s u 0 = true →
     sliceIn s u 1 = true →
     (s.ta u).nar = none →
     (s.ta u).wide = none →
     refuser s u .slim false = none →
     (s.ta u).entering = none →
     Completes (.targetSlim u sl) s (fun t =>
       t.reg (taReg u Off.PWR_TA_REQ) = natW (2 + 8 * sl.val) ∧
       t.ta u = { s.ta u with slimNo := none, nar := some { sl := sl, why := .slim, since := s.fc } } ∧
       (∀ i ∈ inputPorts u, resyncOf t u i = some { port := i, half := true, stopped := portStopped s u i }) ∧
       { t.rt u with resync := [] } = { s.rt u with resync := [] } ∧
       regsBut [taReg u Off.PWR_TA_REQ] s t ∧
       changesOnly [.regs, .agents, .routers] s t ∧
       agentsBut u s t ∧
       routersBut [u.val] s t)) ∧
  (∀ (u : Fin 64) (sl : Fin 2) (s : State),
     fstate s ≠ 2 →
     taVtrans s u = false →
     tileState s u ≠ 2 →
     tileState s u ≠ 3 →
     (s.ta u).turn = none →
     (sliceIn s u 0 = false ∨ sliceIn s u 1 = false ∨ (s.ta u).nar.isSome = true ∨ (s.ta u).wide.isSome = true) →
     (s.ta u).entering = none →
     Completes (.targetSlim u sl) s (fun t =>
       t.reg (taReg u Off.PWR_TA_REQ) = natW (2 + 8 * sl.val) ∧
       regsBut [taReg u Off.PWR_TA_REQ] s t ∧
       t.ta u = { s.ta u with slimNo := none, slimDue := if tileState s u = 1 ∧ (s.ta u).wide.isSome = true then some sl else (s.ta u).slimDue } ∧
       agentsBut u s t ∧
       changesOnly [.regs, .agents] s t)) ∧
  (∀ (u : Fin 64) (k w : Nat) (s : State) (c : Instr),
     (∃ sl, c = .targetSlim u sl) ∧ w = 2 ∧ tileState s u ≠ 2 ∧ (s.ta u).entering = none ∧
         ((s.ta u).turn.isSome || (sliceIn s u 0 && sliceIn s u 1 && (s.ta u).nar.isNone && (s.ta u).wide.isNone)) = true ∧
         refuser s u .slim false = some k ∨
       c = .targetOff u ∧ w = 4 ∧ braced s = false ∧ refuser s u .off false = some k →
     fstate s ≠ 2 →
     taVtrans s u = false →
     tileState s u ≠ 3 →
     Completes c s (fun t =>
       t.reg (taReg u Off.PWR_REFUSE_CNT) = s.reg (taReg u Off.PWR_REFUSE_CNT) + 1 ∧
       t.reg (taReg u (Off.PWR_REFUSE_BY k)) = s.reg (taReg u (Off.PWR_REFUSE_BY k)) + 1 ∧
       t.reg (taReg u Off.PWR_LAST_REFUSER) = W.at 0 4 k ||| W.at 4 3 w ∧
       getFld t (taReg u Off.PWR_TA_REQ) 0 3 = w ∧
       regsBut [taReg u Off.PWR_TA_REQ, taReg u Off.PWR_REFUSE_CNT, taReg u (Off.PWR_REFUSE_BY k),
                taReg u Off.PWR_LAST_REFUSER] s t ∧
       t.ta u = (if w = 2 then { s.ta u with slimNo := some k } else s.ta u) ∧
       changesOnly [.regs, .agents] s t ∧
       agentsBut u s t)) ∧
  (∀ (u : Fin 64) (s : State),
     fstate s ≠ 2 →
     taVtrans s u = false →
     braced s = false →
     tileState s u ≠ 3 →
     refuser s u .off false = none →
     Completes (.targetOff u) s (fun t =>
       t.reg (taReg u Off.PWR_TA_REQ) = 4 ∧
       t.reg (taReg u Off.PWR_TA_STAT) = (s.reg (taReg u Off.PWR_TA_STAT)).put 0 3 3 ∧
       t.reg (retReg (tileRet u)) = 4 ∧
       t.reg (retReg (tileRet u + 1)) = s.reg (taReg u Off.PWR_TILE_CLAIM) ∧
       t.reg (retReg (tileRet u + 2)) = s.reg (tmemReg u Off.TMEM_BANK_MAP) ∧
       t.reg (retReg (tileRet u + 3)) = (W.at 0 7 (getFld s (slcReg u 0 Off.SLC_STAT) 0 7) |||
         W.at 7 7 (getFld s (slcReg u 1 Off.SLC_STAT) 0 7)) ∧
       (∀ j < 22, t.reg (retReg (tileRet u + 98 + j)) = 0) ∧
       (∀ j < 22, t.reg (retReg (tileRet u + 4 + j)) = spareWord s u j) ∧
       (∀ j < 72, t.reg (retReg (tileRet u + 26 + j)) = (laneRepairs s u).getD j 0) ∧
       (∀ a, tmemAddr u 0 ≤ a ∧ a < tmemAddr u 0x20000 → t.word a = 0 ∧ isPoison t a = false) ∧
       (∀ a, ¬(tmemAddr u 0 ≤ a ∧ a < tmemAddr u 0x20000) → t.word a = s.word a ∧ isPoison t a = isPoison s a) ∧
       t.ta u = { s.ta u with nar := none, wide := none, wideQ := [], wideFor := [], entering := none, slimDue := none,
                              pic := [], lines := [] } ∧
       t.tmc u = {} ∧
       (∀ k < 4, t.reg (evlReg (if u.val < 32 then Off.EVL_UINT_LO k else Off.EVL_UINT_HI k)) =
         (s.reg (evlReg (if u.val < 32 then Off.EVL_UINT_LO k else Off.EVL_UINT_HI k))).put (u % 32) 1 0) ∧
       (∀ k < 4, regBit t (evlReg Off.EVL_IRQ_PEND) (8 + k) = (regBit s (evlReg Off.EVL_IRQ_PEND) (8 + k) && uintAny t k)) ∧
       (∀ i < 36, ¬(8 ≤ i ∧ i < 12) → regBit t (evlReg Off.EVL_IRQ_PEND) i = regBit s (evlReg Off.EVL_IRQ_PEND) i) ∧
       (∀ a, a ≠ taReg u Off.PWR_TA_REQ → a ≠ taReg u Off.PWR_TA_STAT → (∀ j < 120, a ≠ retReg (tileRet u + j)) →
         (∀ k < 4, a ≠ evlReg (if u.val < 32 then Off.EVL_UINT_LO k else Off.EVL_UINT_HI k)) →
         a ≠ evlReg Off.EVL_IRQ_PEND → t.reg a = s.reg a) ∧
       changesOnly [.regs, .mem, .agents, .tmcs] s t ∧
       agentsBut u s t ∧
       tmcsBut u s t)) ∧
  (∀ (u : Fin 64) (owner : BitVec 23) (v : W) (s : State) (c : Instr),
     c = .pwrClaim u owner ∧ v = (W.at 0 23 owner.toNat ||| W.at 23 1 1) ∨ c = .pwrRelease u owner ∧ v = W.at 0 23 owner.toNat →
     fstate s ≠ 2 →
     (taVtrans s u = true ∨ tileState s u = 3 ∧ braced s = true) →
     Completes c s (fun t =>
       t.ta u = { s.ta u with waitReq := (s.ta u).waitReq ++ [.claim v] } ∧
       changesOnly [.agents] s t ∧
       agentsBut u s t)) ∧
  (∀ (u : Fin 64) (owner : BitVec 23) (s : State),
     fstate s ≠ 2 →
     taVtrans s u = false →
     taClaimed s u = false →
     tileState s u ≠ 2 →
     tileState s u ≠ 3 →
     (s.ta u).nar = none →
     (s.ta u).entering = none →
     taGear s u = false →
     Completes (.pwrClaim u owner) s (fun t =>
       t.reg (taReg u Off.PWR_TILE_CLAIM) = W.at 0 23 owner.toNat ||| W.at 23 1 1 ∧
       t.ta u = (if tileState s u = 1 then askWide (dueAtRouter s u) (getFld s (taReg u Off.PWR_TA_STAT) 5 1) { s.ta u with slimDue := none, vtDue := none }
                           else { s.ta u with slimDue := none, vtDue := none }) ∧
       regsBut [taReg u Off.PWR_TILE_CLAIM] s t ∧
       changesOnly [.regs, .agents] s t ∧
       agentsBut u s t)) ∧
  (∀ (u : Fin 64) (owner : BitVec 23) (s : State),
     fstate s ≠ 2 →
     taVtrans s u = false →
     (tileState s u = 3 → braced s = false) →
     (taClaimed s u = true ∨ tileState s u = 3) →
     Completes (.pwrClaim u owner) s (fun t =>
       t.reg (taReg u Off.PWR_TILE_CLAIM) =
         (if taClaimed s u = true then W.at 0 23 (getFld s (taReg u Off.PWR_TILE_CLAIM) 0 23) ||| W.at 23 1 1 |||
            W.at 24 2 (if getFld s (taReg u Off.PWR_TILE_CLAIM) 0 23 = owner.toNat then 0 else 1)
          else W.at 0 23 owner.toNat ||| W.at 23 1 1) ∧
       t.reg (retReg (tileRet u + 1)) = (if tileState s u = 3 then t.reg (taReg u Off.PWR_TILE_CLAIM)
                                         else s.reg (retReg (tileRet u + 1))) ∧
       regsBut [taReg u Off.PWR_TILE_CLAIM, retReg (tileRet u + 1)] s t ∧
       changesOnly [.regs] s t)) ∧
  (∀ (u : Fin 64) (owner : BitVec 23) (s : State),
     fstate s ≠ 2 →
     taVtrans s u = false →
     (tileState s u = 3 → braced s = false) →
     Completes (.pwrRelease u owner) s (fun t =>
       t.reg (taReg u Off.PWR_TILE_CLAIM) =
         (if taClaimed s u = true ∧ getFld s (taReg u Off.PWR_TILE_CLAIM) 0 23 = owner.toNat then W.at 0 23 owner.toNat
          else W.at 0 23 (getFld s (taReg u Off.PWR_TILE_CLAIM) 0 23) ||| W.at 23 1 (b2n (taClaimed s u)) ||| W.at 24 2 2) ∧
       t.reg (retReg (tileRet u + 1)) = (if tileState s u = 3 then t.reg (taReg u Off.PWR_TILE_CLAIM)
                                         else s.reg (retReg (tileRet u + 1))) ∧
       regsBut [taReg u Off.PWR_TILE_CLAIM, retReg (tileRet u + 1)] s t ∧
       changesOnly [.regs] s t)) ∧
  (∀ (v : W) (s : State),
     braced s = false →
     Completes (.profileWrite v) s (fun t =>
       t.reg (pwrReg Off.PWR_PROFILE) = (if v.fld 0 2 = 3 then 1 else W.at 0 2 (v.fld 0 2)) ∧
       t.profDue = (List.range 64).filter (fun u => decide (tileState s u ≠ 3)) ∧
       t.checkDue = (s.checkDue || decide (t.reg (pwrReg Off.PWR_PROFILE) ≠ s.reg (pwrReg Off.PWR_PROFILE))) ∧
       regsBut [pwrReg Off.PWR_PROFILE] s t ∧
       t = { s with regs := t.regs, profDue := t.profDue, checkDue := t.checkDue })) ∧
  (∀ (v : W) (s : State),
     braced s = true →
     Completes (.profileWrite v) s (fun t =>
       t.heldWrites = s.heldWrites ++ [{ addr := pwrReg Off.PWR_PROFILE, val := v, node := hrpNode s, id := s.nextId }] ∧
       t = { s with heldWrites := t.heldWrites, nextId := s.nextId + 1 })) ∧
  (∀ (u : Fin 64) (owner : BitVec 23) (s : State),
     fstate s ≠ 2 →
     taVtrans s u = false →
     taClaimed s u = false →
     tileState s u = 2 →
     taGear s u = false →
     (s.ta u).nar = none →
     (s.ta u).slimDue = none →
     Completes (.pwrClaim u owner) s (fun t =>
       t.reg (taReg u Off.PWR_TILE_CLAIM) = W.at 0 23 owner.toNat ||| W.at 23 1 1 ∧
       t.reg (taReg u Off.PWR_TA_STAT) = (s.reg (taReg u Off.PWR_TA_STAT)).put 0 3 5 ∧
       t.reg (taReg u Off.PWR_PIC_STAT) = (s.reg (taReg u Off.PWR_PIC_STAT)).put 19 2 3 ∧
       regsBut [taReg u Off.PWR_TILE_CLAIM, taReg u Off.PWR_TA_STAT, taReg u Off.PWR_PIC_STAT] s t ∧
       t.ta u = { s.ta u with vtDue := none } ∧
       agentsBut u s t ∧
       changesOnly [.regs, .agents] s t)) ∧
  (∀ (u : Fin 64) (owner : BitVec 23) (s : State),
     fstate s ≠ 2 →
     taVtrans s u = false →
     taClaimed s u = false →
     braced s = false →
     tileState s u ≠ 2 →
     tileState s u ≠ 3 →
     (s.ta u).nar = none →
     (s.ta u).entering = none →
     taGear s u = true →
     Completes (.pwrClaim u owner) s (fun t =>
       t.reg (taReg u Off.PWR_TILE_CLAIM) = W.at 0 23 owner.toNat ||| W.at 23 1 1 ∧
       t.reg (taReg u Off.PWR_TA_STAT) = ((s.reg (taReg u Off.PWR_TA_STAT)).put 3 1 1).put 4 1 1 ∧
       t.reg (taReg u Off.PWR_VT_CNT) = s.reg (taReg u Off.PWR_VT_CNT) + 1 ∧
       t.ta u = (let x := if tileState s u = 1 then askWide (dueAtRouter s u) (getFld s (taReg u Off.PWR_TA_STAT) 5 1)
                            { s.ta u with slimDue := none }
                          else { s.ta u with slimDue := none }
                 { x with vtUp := true, vtDue := none, gearRun := 0 }) ∧
       regsBut [taReg u Off.PWR_TILE_CLAIM, taReg u Off.PWR_TA_STAT, taReg u Off.PWR_VT_CNT] s t ∧
       changesOnly [.regs, .agents] s t ∧
       agentsBut u s t)) ∧
  (∀ (u : Fin 64) (owner : BitVec 23) (y : Bool) (s : State) (c : Instr),
     c = .pwrClaim u owner ∧ taClaimed s u = false ∧ y = true ∨ c = .targetRun u ∧ y = true ∨ c = .targetLowGear u ∧ y = false →
     fstate s ≠ 2 →
     taVtrans s u = false →
     tileState s u = 0 →
     taGear s u = false →
     (s.ta u).nar = none →
     (s.ta u).entering.isSome = true →
     Completes c s (fun t =>
       t.ta u = { s.ta u with entering := none, slimDue := none, vtDue := if y = true then none else (s.ta u).vtDue } ∧
       (∀ i ∈ inputPorts u, resyncOf t u i = some { port := i, half := routerHalf s u, stopped := portStopped s u i }) ∧
       { t.rt u with resync := [] } = { s.rt u with resync := [] } ∧
       regsBut [taReg u Off.PWR_TA_REQ, taReg u Off.PWR_TILE_CLAIM] s t ∧
       changesOnly [.regs, .agents, .routers] s t ∧
       agentsBut u s t ∧
       routersBut [u.val] s t))

/-- Each interval of 1 µs brings the load figures and the runs up to date, and a load at the upper threshold
raises a tile in low gear. A quiet tile goes to low gear unless a refuser declines; a transition runs in low gear,
and its end takes the profile unless that has still to arrive, a raise of SC5 and the lines of units that it held,
and what waited for it: a claim or a target takes effect, an entry to Doze goes on. A quiet tile begins an entry
to Doze, which a wake flag or a head at one of its NIs abandons, counted as refused by the router or the NI, and
which engages from resynchronised ports 21 fc later (the model's two commands, log entry 41); its wake flags, the
count of its lines or a line that persists wake it, and the wake ends with every count of its ports empty and
TIM_VLD due at the next BEAT; which of its link halves fail the training is open (log entry 4), and one that fails
is fenced. The lines of a unit are sampled. -/
def Obligations.LoadGearsAndDoze : Prop :=
  (∀ (u : Fin 64) (rl ml : Fin 101) (s : State),
     tileDark s u = false →
     ((autoReg s u).fld 7 7 ≤ rl.val → taGear s u = false) →
     Completes (.loadInterval u rl ml) s (fun t =>
       t.ta u = { s.ta u with
         idleRun := if rl.val < getFld s (bstReg Off.BST_CFG) 20 7 then min ((s.ta u).idleRun + 1) 100 else 0,
         midleRun := if ml.val < getFld s (bstReg Off.BST_CFG) 20 7 then min ((s.ta u).midleRun + 1) 100 else 0,
         gearRun := if rl.val < (autoReg s u).fld 0 7 then min ((s.ta u).gearRun + 1) 10230 else 0 } ∧
       t.reg (taReg u Off.BST_TA_LOAD) = W.at 0 7 rl.val ||| W.at 7 7 ml.val |||
         W.at 14 1 (b2n (decide ((t.ta u).idleRun = 100))) ||| W.at 15 1 (b2n (decide ((t.ta u).midleRun = 100))) ∧
       regsBut [taReg u Off.BST_TA_LOAD] s t ∧
       changesOnly [.regs, .agents] s t ∧
       agentsBut u s t)) ∧
  (∀ (u : Fin 64) (rl ml : Fin 101) (s : State),
     tileDark s u = false →
     (autoReg s u).fld 7 7 ≤ rl.val →
     taGear s u = true →
     taVtrans s u = false →
     braced s = false →
     Completes (.loadInterval u rl ml) s (fun t =>
       (t.ta u).vtUp = true ∧ (t.ta u).vtDue = none ∧ (t.ta u).gearRun = 0 ∧
       t.reg (taReg u Off.PWR_TA_STAT) = ((s.reg (taReg u Off.PWR_TA_STAT)).put 3 1 1).put 4 1 1 ∧
       t.reg (taReg u Off.PWR_VT_CNT) = s.reg (taReg u Off.PWR_VT_CNT) + 1 ∧
       regsBut [taReg u Off.BST_TA_LOAD, taReg u Off.PWR_TA_STAT, taReg u Off.PWR_VT_CNT] s t ∧
       changesOnly [.regs, .agents] s t ∧
       agentsBut u s t)) ∧
  (∀ (u : Fin 64) (s : State),
     1 ≤ taTarget s u ∧ taTarget s u ≤ 3 →
     tileDark s u = false →
     taGear s u = false →
     taVtrans s u = false →
     (s.ta u).entering = none →
     10 * (autoReg s u).fld 14 10 ≤ (s.ta u).gearRun →
     refuser s u .gear false = none →
     Completes (.gearDown u) s (fun t =>
       t.reg (taReg u Off.PWR_TA_STAT) = (if braced s = true then s.reg (taReg u Off.PWR_TA_STAT)
                                          else ((s.reg (taReg u Off.PWR_TA_STAT)).put 3 1 1).put 4 1 1) ∧
       t.reg (taReg u Off.PWR_VT_CNT) = s.reg (taReg u Off.PWR_VT_CNT) + (if braced s = true then 0 else 1) ∧
       t.ta u = (if braced s = true then { s.ta u with vtDue := some false }
                 else { s.ta u with vtUp := false, vtDue := none, gearRun := 0 }) ∧
       regsBut [taReg u Off.PWR_TA_STAT, taReg u Off.PWR_VT_CNT] s t ∧
       changesOnly [.regs, .agents] s t ∧
       agentsBut u s t)) ∧
  (∀ (u : Fin 64) (k : Nat) (s : State),
     1 ≤ taTarget s u ∧ taTarget s u ≤ 3 →
     tileDark s u = false →
     taGear s u = false →
     taVtrans s u = false →
     (s.ta u).entering = none →
     10 * (autoReg s u).fld 14 10 ≤ (s.ta u).gearRun →
     refuser s u .gear false = some k →
     Completes (.gearDown u) s (fun t =>
       t.ta u = { s.ta u with gearRun := 0, vtDue := none } ∧
       t.reg (taReg u Off.PWR_REFUSE_CNT) = s.reg (taReg u Off.PWR_REFUSE_CNT) + 1 ∧
       t.reg (taReg u (Off.PWR_REFUSE_BY k)) = s.reg (taReg u (Off.PWR_REFUSE_BY k)) + 1 ∧
       t.reg (taReg u Off.PWR_LAST_REFUSER) = W.at 0 4 k ||| W.at 4 3 1 ||| W.at 7 1 1 ∧
       regsBut [taReg u Off.PWR_REFUSE_CNT, taReg u (Off.PWR_REFUSE_BY k), taReg u Off.PWR_LAST_REFUSER] s t ∧
       changesOnly [.regs, .agents] s t ∧
       agentsBut u s t)) ∧
  (∀ (u : Fin 64) (back : Bool) (s : State),
     taVtrans s u = true →
     (s.ta u).waitReq = [] →
     (s.ta u).vtDue = none →
     (s.ta u).ctrlDue = none →
     (∀ p ∈ (s.ta u).heldInt, p.1 / 7 = u.val) →
     (∀ k < 12, regBit s (evlReg (Off.EVL_IRQ_ROUTE k)) 4 = false) →
     back = (sc5Tile s u && !(s.ta u).vtUp) →
     Completes (.vtransEnd u) s (fun t =>
       t.reg (taReg u Off.PWR_TA_STAT) =
         (if (back && !braced s) = true then ((s.reg (taReg u Off.PWR_TA_STAT)).put 3 1 1).put 4 1 1
          else ((s.reg (taReg u Off.PWR_TA_STAT)).put 3 1 (if (s.ta u).vtUp = true then 0 else 1)).put 4 1 0) ∧
       t.reg (taReg u Off.PWR_VT_CNT) = s.reg (taReg u Off.PWR_VT_CNT) + (if (back && !braced s) = true then 1 else 0) ∧
       t.ta u = { s.ta u with
         prof := if s.profDue.contains u.val then (s.ta u).prof else getFld s (pwrReg Off.PWR_PROFILE) 0 2,
         heldInt := [], vtDue := if (back && braced s) = true then some true else none,
         vtUp := (back && !braced s) || (s.ta u).vtUp,
         gearRun := if (back && !braced s) = true then 0 else (s.ta u).gearRun } ∧
       (∀ n, t.reg (niReg n Off.NI_UINT) = (match ((s.ta u).heldInt.filter (fun p => decide (p.1 = n))).getLast? with
         | none => s.reg (niReg n Off.NI_UINT)
         | some p => W.at 0 4 p.2)) ∧
       ((s.ta u).heldInt ≠ [] → (∀ k < 4, regBit t (evlReg (if u.val < 32 then Off.EVL_UINT_LO k else Off.EVL_UINT_HI k))
           (u.val % 32) = lineUp t u k) ∧
         (∀ k < 4, regBit t (evlReg Off.EVL_IRQ_PEND) (8 + k) =
           decide (t.reg (evlReg (Off.EVL_UINT_LO k)) ≠ 0 ∨ t.reg (evlReg (Off.EVL_UINT_HI k)) ≠ 0)) ∧
         regBit t (evlReg Off.EVL_IRQ_PEND) 5 = mailboxIrq s) ∧
       (∀ a, a ≠ taReg u Off.PWR_TA_STAT → a ≠ taReg u Off.PWR_VT_CNT →
         ((s.ta u).heldInt = [] ∨ (∀ p ∈ (s.ta u).heldInt, a ≠ niReg p.1 Off.NI_UINT) ∧ a ≠ evlReg Off.EVL_IRQ_PEND ∧
           ∀ k < 4, a ≠ evlReg (if u.val < 32 then Off.EVL_UINT_LO k else Off.EVL_UINT_HI k)) → t.reg a = s.reg a) ∧
       changesOnly [.regs, .agents] s t ∧
       agentsBut u s t)) ∧
  (∀ (u : Fin 64) (v : W) (q : WaitReq) (s : State),
     q = .claim v ∧ v.bit 23 = true ∧ taClaimed s u = false ∨ q = .target v ∧ v.fld 0 3 = 0 →
     taVtrans s u = true →
     tileState s u = 0 →
     (s.ta u).waitReq = [q] →
     (s.ta u).vtUp = false →
     (s.ta u).vtDue = none →
     (s.ta u).ctrlDue = none →
     (s.ta u).heldInt = [] →
     (s.ta u).entering = none →
     (s.ta u).nar = none →
     braced s = false →
     Completes (.vtransEnd u) s (fun t =>
       taGear t u = true ∧ taVtrans t u = true ∧
       t.reg (taReg u Off.PWR_VT_CNT) = s.reg (taReg u Off.PWR_VT_CNT) + 1 ∧
       t.reg (taReg u Off.PWR_TILE_CLAIM) = (if q = .claim v then W.at 0 23 (v.fld 0 23) ||| W.at 23 1 1
                                             else s.reg (taReg u Off.PWR_TILE_CLAIM)) ∧
       t.reg (taReg u Off.PWR_TA_REQ) = (if q = .claim v then s.reg (taReg u Off.PWR_TA_REQ) else W.at 3 1 (v.fld 3 1)) ∧
       t.ta u = { s.ta u with
         prof := if s.profDue.contains u.val then (s.ta u).prof else getFld s (pwrReg Off.PWR_PROFILE) 0 2,
         waitReq := [], slimDue := none, vtUp := true, gearRun := 0 } ∧
       regsBut [taReg u Off.PWR_TA_STAT, taReg u Off.PWR_VT_CNT, taReg u Off.PWR_TILE_CLAIM, taReg u Off.PWR_TA_REQ] s t ∧
       changesOnly [.regs, .agents] s t ∧
       agentsBut u s t)) ∧
  (∀ (u : Fin 64) (x : Nat) (s : State),
     (s.ta u).entering = some x →
     x + 21 ≤ s.fc →
     Completes (.dozeEntry u) s (fun t =>
       t.reg (taReg u Off.PWR_TA_STAT) = (s.reg (taReg u Off.PWR_TA_STAT)).put 0 3 2 ∧
       t.reg (rtrReg u Off.RTR_RESYNC_CNT) = s.reg (rtrReg u Off.RTR_RESYNC_CNT) + 21 ∧
       (∀ i ∈ inputPorts u, resyncOf t u i = none) ∧
       { t.rt u with resync := [] } = { s.rt u with resync := [] } ∧
       t.ta u = { s.ta u with pic := [], lines := [], entering := none } ∧
       regsBut [taReg u Off.PWR_TA_STAT, rtrReg u Off.RTR_RESYNC_CNT] s t ∧
       changesOnly [.regs, .agents, .routers] s t ∧
       agentsBut u s t ∧
       routersBut [u.val] s t)) ∧
  (∀ (u : Fin 64) (k : Nat) (s : State),
     taTarget s u = 3 →
     tileState s u = 0 →
     taVtrans s u = false →
     (s.ta u).nar = none →
     (s.ta u).wide = none →
     (s.ta u).entering = none →
     dozeDue s u = true →
     refuser s u .doze false = some k →
     Completes (.dozeEntry u) s (fun t =>
       t.reg (taReg u Off.PWR_REFUSE_CNT) = s.reg (taReg u Off.PWR_REFUSE_CNT) + 1 ∧
       t.reg (taReg u (Off.PWR_REFUSE_BY k)) = s.reg (taReg u (Off.PWR_REFUSE_BY k)) + 1 ∧
       t.reg (taReg u Off.PWR_LAST_REFUSER) = W.at 0 4 k ||| W.at 4 3 3 ||| W.at 7 1 1 ∧
       regsBut [taReg u Off.PWR_REFUSE_CNT, taReg u (Off.PWR_REFUSE_BY k), taReg u Off.PWR_LAST_REFUSER] s t ∧
       t.ta u = { s.ta u with dozeFc := some s.fc } ∧
       changesOnly [.regs, .agents] s t ∧
       agentsBut u s t)) ∧
  (∀ (u : Fin 64) (i : Fin 16) (s : State),
     tileState s u = 2 →
     (s.ta u).entering = none →
     linkWf u i = true →
     flagUp s u i = true →
     Completes (.wakeFlag u i) s (fun t =>
       t.reg (taReg u Off.PWR_TA_STAT) = (s.reg (taReg u Off.PWR_TA_STAT)).put 0 3 5 ∧
       getFld t (taReg u Off.PWR_PIC_STAT) 0 5 = getFld s (taReg u Off.PWR_PIC_STAT) 0 5 ∧
       getFld t (taReg u Off.PWR_PIC_STAT) 5 14 = flagBits s u ∧
       getFld t (taReg u Off.PWR_PIC_STAT) 19 2 = 2 ∧
       regsBut [taReg u Off.PWR_TA_STAT, taReg u Off.PWR_PIC_STAT] s t ∧
       changesOnly [.regs] s t)) ∧
  (∀ (u : Fin 64) (lines : BitVec 21) (n : Nat) (runs : List Nat) (cause : Option Nat) (s : State),
     tileState s u = 2 →
     n = ((List.range 21).filter (fun j => lines.getLsbD j)).length →
     runs = (List.range 21).map (fun j => if lines.getLsbD j = true then (s.ta u).pic.getD j 0 + 1 else 0) →
     (cause = some 2 ∧ flagBits s u ≠ 0 ∨
       cause = some 0 ∧ flagBits s u = 0 ∧ getFld s (pwrReg Off.PWR_PIC_CFG) 10 5 ≤ n ∨
       cause = some 1 ∧ flagBits s u = 0 ∧ n < getFld s (pwrReg Off.PWR_PIC_CFG) 10 5 ∧
         (∃ k ∈ runs, getFld s (pwrReg Off.PWR_PIC_CFG) 15 8 ≤ k) ∨
       cause = none ∧ flagBits s u = 0 ∧ n < getFld s (pwrReg Off.PWR_PIC_CFG) 10 5 ∧
         (∀ k ∈ runs, k < getFld s (pwrReg Off.PWR_PIC_CFG) 15 8)) →
     Completes (.piccoloSample u lines) s (fun t =>
       t.ta u = { s.ta u with pic := runs } ∧
       getFld t (taReg u Off.PWR_PIC_STAT) 0 5 = n ∧
       getFld t (taReg u Off.PWR_PIC_STAT) 5 14 = flagBits s u ∧
       getFld t (taReg u Off.PWR_PIC_STAT) 19 2 = cause.getD (getFld s (taReg u Off.PWR_PIC_STAT) 19 2) ∧
       t.reg (taReg u Off.PWR_TA_STAT) = (if cause = none then s.reg (taReg u Off.PWR_TA_STAT)
                                          else (s.reg (taReg u Off.PWR_TA_STAT)).put 0 3 5) ∧
       regsBut [taReg u Off.PWR_TA_STAT, taReg u Off.PWR_PIC_STAT] s t ∧
       changesOnly [.regs, .agents] s t ∧
       agentsBut u s t)) ∧
  (∀ (u : Fin 64) (s : State),
     tileState s u = 5 →
     (taTarget s u = 1 ∨ taTarget s u = 3 ∨ taTarget s u = 0 ∧ taGear s u = false ∧ taVtrans s u = false) →
     (∀ p ∈ (neighbours u).zip (List.range 14), ∀ h < 2,
       (rxFenced s u (portTo u p.1) h = true ∨ (Config.freeWord s.freeN).bit (2 * p.2 + h) = false) ∧
       (rxFenced s p.1 (portTo p.1 u) h = true ∨ (Config.freeWord (s.freeN + 1)).bit (2 * p.2 + h) = false)) →
     (∀ n ∈ unitNis u, (s.ni n).barack = none ∧ ((s.ni n).urst = true ∨ (s.ni n).hold = [])) →
     Completes (.wakeComplete u) s (fun t =>
       t.reg (taReg u Off.PWR_TA_STAT) = (s.reg (taReg u Off.PWR_TA_STAT)).put 0 3 0 ∧
       t.reg (taReg u Off.PWR_WAKE_CNT) = s.reg (taReg u Off.PWR_WAKE_CNT) + 1 ∧
       t.reg (rtrReg u Off.RTR_RESYNC_CNT) = s.reg (rtrReg u Off.RTR_RESYNC_CNT) + 21 ∧
       (∀ v ∈ neighbours u, t.reg (rtrReg v Off.RTR_RESYNC_CNT) = s.reg (rtrReg v Off.RTR_RESYNC_CNT) + 1) ∧
       (∀ i ∈ inputPorts u, cntOf t (upstream u i).1 (upstream u i).2 = { half := routerHalf s u } ∧
         resyncOf t u i = none) ∧
       (∀ v ∈ neighbours u, cntOf t u (portTo u v) = { half := routerHalf s v } ∧ resyncOf t v (portTo v u) = none) ∧
       (∀ v, (t.rt v).inq = (s.rt v).inq ∧ (t.rt v).trail = (s.rt v).trail) ∧
       (∀ v ∈ neighbours u, ∀ h < 2, ∀ e ∈ [(u.val, v), (v, u.val)],
         t.reg (slcReg e.1 h (Off.LNK_STAT (portTo e.1 e.2))) =
           (if regBit s (slcReg e.1 h (Off.LNK_STAT (portTo e.1 e.2))) 1 = true
            then s.reg (slcReg e.1 h (Off.LNK_STAT (portTo e.1 e.2)))
            else (s.reg (slcReg e.1 h (Off.LNK_STAT (portTo e.1 e.2)))).put 2 15 (511 * 2 ^ 6))) ∧
       regsBut (taReg u Off.PWR_TA_STAT :: taReg u Off.PWR_WAKE_CNT ::
         (u.val :: neighbours u).map (fun v => rtrReg v Off.RTR_RESYNC_CNT) ++
         (neighbours u).flatMap (fun v => [0, 1].flatMap (fun h => [slcReg u h (Off.LNK_STAT (portTo u v)),
           slcReg v h (Off.LNK_STAT (portTo v u))]))) s t ∧
       t.ta u = { s.ta u with vtDue := if taTarget s u = 0 then none else (s.ta u).vtDue } ∧
       t.timDue = s.timDue ++ [u.val] ∧
       t.freeN = s.freeN + 2 ∧ t.nextId = s.nextId ∧
       t = { s with regs := t.regs, routers := t.routers, agents := t.agents, nis := t.nis, timDue := t.timDue, freeN := t.freeN } ∧
       agentsBut u s t ∧
       (∀ n, t.ni n = s.ni n) ∧
       routersBut (u.val :: neighbours u) s t)) ∧
  (∀ (u : Fin 64) (s : State),
     tileState s u = 5 →
     (taTarget s u = 1 ∨ taTarget s u = 3) →
     Completes (.wakeComplete u) s (fun t =>
       tileState t u = 0 ∧
       t.reg (taReg u Off.PWR_WAKE_CNT) = s.reg (taReg u Off.PWR_WAKE_CNT) + 1 ∧
       (∀ p ∈ (neighbours u).zip (List.range 14), ∀ h < 2,
         (rxFenced s u (portTo u p.1) h = false → (Config.freeWord s.freeN).bit (2 * p.2 + h) = true →
           rxFenced t u (portTo u p.1) h = true ∧ txFenced t p.1 (portTo p.1 u) h = true ∧
             getFld t (slcReg u h (Off.LNK_STAT (portTo u p.1))) 2 2 = 2) ∧
         (rxFenced s p.1 (portTo p.1 u) h = false → (Config.freeWord (s.freeN + 1)).bit (2 * p.2 + h) = true →
           rxFenced t p.1 (portTo p.1 u) h = true ∧ txFenced t u (portTo u p.1) h = true ∧
             getFld t (slcReg p.1 h (Off.LNK_STAT (portTo p.1 u))) 2 2 = 2)) ∧
       (∀ i ∈ inputPorts u, cntOf t (upstream u i).1 (upstream u i).2 = { half := routerHalf s u } ∧
         resyncOf t u i = none) ∧
       (∀ v ∈ neighbours u, cntOf t u (portTo u v) = { half := routerHalf s v } ∧ resyncOf t v (portTo v u) = none) ∧
       pieceKept s t .queue ∧ pieceKept s t .mem ∧ pieceKept s t .cores ∧ pieceKept s t .ports ∧ pieceKept s t .fuses ∧
       (∀ v, { t.ta v with busyDue := false } = { s.ta v with busyDue := false }))) ∧
  (∀ (n : NiId) (lines : BitVec 4) (s : State),
     taVtrans s n.t = true →
     Completes (.unitInterrupt n lines) s (fun t =>
       t.ta n.t = { s.ta n.t with heldInt := (s.ta n.t).heldInt ++ [(n.idx, lines.toNat)] } ∧
       changesOnly [.agents] s t ∧
       agentsBut n.t s t)) ∧
  (∀ (n : NiId) (lines : BitVec 4) (s : State),
     taVtrans s n.t = false →
     (∀ k < 12, regBit s (evlReg (Off.EVL_IRQ_ROUTE k)) 4 = false) →
     Completes (.unitInterrupt n lines) s (fun t =>
       t.reg (niReg n.idx Off.NI_UINT) = W.at 0 4 lines.toNat ∧
       (∀ k < 4, regBit t (evlReg (if n.t.val < 32 then Off.EVL_UINT_LO k else Off.EVL_UINT_HI k)) (n.t.val % 32) =
         lineUp t n.t k) ∧
       (∀ k < 4, regBit t (evlReg Off.EVL_IRQ_PEND) (8 + k) =
         decide (t.reg (evlReg (Off.EVL_UINT_LO k)) ≠ 0 ∨ t.reg (evlReg (Off.EVL_UINT_HI k)) ≠ 0)) ∧
       regBit t (evlReg Off.EVL_IRQ_PEND) 5 = mailboxIrq s ∧
       regsBut (niReg n.idx Off.NI_UINT :: evlReg Off.EVL_IRQ_PEND ::
         (List.range 4).map (fun k => evlReg (if n.t.val < 32 then Off.EVL_UINT_LO k else Off.EVL_UINT_HI k))) s t ∧
       changesOnly [.regs] s t)) ∧
  (∀ (u : Fin 64) (s : State),
     taTarget s u = 3 →
     tileState s u = 0 →
     taVtrans s u = false →
     (s.ta u).nar = none →
     (s.ta u).wide = none →
     (s.ta u).entering = none →
     (s.ta u).outFc + 2400 * (autoReg s u).fld 24 10 ≤ s.fc →
     (∀ x, (s.ta u).dozeFc = some x → x + 2400 * (autoReg s u).fld 24 10 ≤ s.fc) →
     refuser s u .doze false = none →
     Completes (.dozeEntry u) s (fun t =>
       t.ta u = { s.ta u with entering := some s.fc, dozeFc := some s.fc } ∧
       changesOnly [.agents] s t ∧
       agentsBut u s t)) ∧
  (∀ (u : Fin 64) (i : Fin 16) (s : State),
     tileState s u ≠ 2 →
     (s.ta u).entering.isSome = true →
     linkWf u i = true →
     flagUp s u i = true →
     Completes (.wakeFlag u i) s (fun t =>
       (t.ta u).entering = none ∧
       (∀ j ∈ inputPorts u, resyncOf t u j = some { port := j, half := routerHalf s u, stopped := portStopped s u j }) ∧
       { t.rt u with resync := [] } = { s.rt u with resync := [] } ∧
       t.reg (taReg u Off.PWR_REFUSE_CNT) = s.reg (taReg u Off.PWR_REFUSE_CNT) + 1 ∧
       t.reg (taReg u (Off.PWR_REFUSE_BY 1)) = s.reg (taReg u (Off.PWR_REFUSE_BY 1)) + 1 ∧
       t.reg (taReg u Off.PWR_LAST_REFUSER) = W.at 0 4 1 ||| W.at 4 3 3 ||| W.at 7 1 1 ∧
       regsBut [taReg u Off.PWR_REFUSE_CNT, taReg u (Off.PWR_REFUSE_BY 1), taReg u Off.PWR_LAST_REFUSER] s t ∧
       changesOnly [.regs, .agents, .routers] s t ∧
       agentsBut u s t ∧
       routersBut [u.val] s t)) ∧
  (∀ (n : NiId) (h : Head) (ch : Chan) (s : State) (c : Instr),
     c = .wr n h ∧ ch = .oreq ∨ c = .rd n h ∧ ch = .oreq ∨ c = .msg n h ∧ ch = .oreq ∨ c = .rdresp n h ∧ ch = .irsp ∨
       c = .wrack n h ∧ ch = .irsp ∨ c = .cell n h ∧ ch = .cpo ∨ c = .cellmc n h ∧ ch = .cpo →
     (s.ta n.t).entering.isSome = true →
     chanHeld (s.ni n.idx) ch = true →
     Completes c s (fun t =>
       (t.ta n.t).entering = none ∧
       (∀ j ∈ inputPorts n.t, resyncOf t n.t j = some { port := j, half := routerHalf s n.t, stopped := portStopped s n.t j }) ∧
       { t.rt n.t with resync := [] } = { s.rt n.t with resync := [] } ∧
       t.reg (taReg n.t Off.PWR_REFUSE_CNT) = s.reg (taReg n.t Off.PWR_REFUSE_CNT) + 1 ∧
       t.reg (taReg n.t (Off.PWR_REFUSE_BY 2)) = s.reg (taReg n.t (Off.PWR_REFUSE_BY 2)) + 1 ∧
       t.reg (taReg n.t Off.PWR_LAST_REFUSER) = W.at 0 4 2 ||| W.at 4 3 3 ||| W.at 7 1 1 ∧
       regsBut [taReg n.t Off.PWR_REFUSE_CNT, taReg n.t (Off.PWR_REFUSE_BY 2), taReg n.t Off.PWR_LAST_REFUSER] s t ∧
       changesOnly [.regs, .agents, .routers] s t ∧
       agentsBut n.t s t ∧
       routersBut [n.t.val] s t))

/-- Entry to Retention saves the registers of R304, each tile's words and the instance's, takes every tile to Off
and stops the cores; a confirmed rise on WAKE that is enabled begins the return on the main rail, and does nothing
in another state, disabled, or on the backup cell. The return restores the registers, word by word, takes every
slice that passes its test into service, leaves one that fails fenced with its cause, one READMIT_FAIL each, and
out of the map that it installs, brings back the tiles that were not Off and starts firmware in normal mode.
Self-test overwrites the memories and keeps what it has found; its decision publishes the signatures, which agree
exactly when everything passes: all parts pass, one slice is fenced, or the safe state is entered with its cause.
The golden values and the contents of a CAUSE with several failures are open (log entries 3, 4 and 41). -/
def Obligations.RetentionAndSelfTest : Prop :=
  (∀ (s : State),
     fstate s = 1 →
     braced s = false →
     (∀ u < 64, taVtrans s u = false) →
     Completes .retentionEntry s (fun t =>
       fstate t = 2 ∧
       regBit t (tkReg Off.TK_STAT) 4 = true ∧
       regBit t (pwrReg Off.PWR_RET_STAT) 0 = true ∧
       (∀ e ∈ (List.range 28).zip
          [mtxReg Off.MTX_REMAP, pwrReg Off.PWR_PROFILE, pwrReg Off.PWR_SC5_TILES_LO, pwrReg Off.PWR_SC5_TILES_HI,
           pwrReg Off.PWR_WAKE_CFG, pwrReg Off.PWR_AUTO_T, pwrReg Off.PWR_AUTO_E, pwrReg Off.PWR_PIC_CFG, fnfReg Off.FNF_CTRL,
           fnfReg Off.FNF_STG_TO, fnfReg Off.FNF_PWR_WIN, opcReg Off.OPC_IMG_BANK, opcReg Off.OPC_CFG_EPOCH,
           extReg Off.EXT_CTRL, extReg Off.EXT_INST, extReg Off.EXT_PC, extReg Off.EXT_MAC_PFX, extReg Off.EXT_XRPT_ADDR,
           bstReg Off.BST_CFG, bstReg Off.BST_NIGHT, bstReg Off.BST_EXCL_LO, bstReg Off.BST_EXCL_HI, bstReg Off.BST_STALE,
           rtrReg 0 Off.RTR_CTRL, rtrReg 0 Off.RTR_WRR_W0, rtrReg 0 Off.RTR_WRR_W1, rtrReg 0 Off.RTR_AGE_LIM,
           rtrReg 0 Off.RTR_MAP_EPOCH], t.reg (retReg e.1) = s.reg e.2) ∧
       (∀ k < 64, t.reg (retReg (0x40 + k)) = s.reg (rtrReg 0 (Off.RTR_FMAP + k))) ∧
       (∀ o < 0x200, 0x1C ≤ o ∧ o < 0x40 ∨ 0x80 ≤ o → t.reg (retReg o) = 0) ∧
       (∀ u < 64, tileState s u ≠ 3 →
         t.reg (retReg (tileRet u + 1)) = s.reg (taReg u Off.PWR_TILE_CLAIM) ∧
         t.reg (retReg (tileRet u + 2)) = s.reg (tmemReg u Off.TMEM_BANK_MAP) ∧
         t.reg (retReg (tileRet u + 3)) = (W.at 0 7 (getFld s (slcReg u 0 Off.SLC_STAT) 0 7) |||
           W.at 7 7 (getFld s (slcReg u 1 Off.SLC_STAT) 0 7)) ∧
         (∀ j < 22, t.reg (retReg (tileRet u + 4 + j)) = spareWord s u j) ∧
         (∀ j < 72, t.reg (retReg (tileRet u + 26 + j)) = (laneRepairs s u).getD j 0) ∧
         (∀ j < 22, t.reg (retReg (tileRet u + 98 + j)) = 0)) ∧
       (∀ u < 64, tileState t u = 3) ∧
       (∀ u < 64, tileState s u ≠ 3 → t.reg (retReg (tileRet u)) = s.reg (taReg u Off.PWR_TA_REQ) ∧ t.tmc u = {}) ∧
       (∀ u < 64, tileState s u ≠ 3 → ∀ i < 0x20000, t.word (tmemAddr u i) = 0 ∧ isPoison t (tmemAddr u i) = false) ∧
       t.core 0 = { haltReq := (s.core 0).haltReq } ∧ t.core 1 = { haltReq := (s.core 1).haltReq } ∧
       t.running = s.running ∧ t.tickets = s.tickets ∧ t.shadows = s.shadows ∧
       changesOnly [.regs, .mem, .nis, .routers, .tmcs, .agents, .cores, .firmware, .log, .fanfare, .ids] s t)) ∧
  (∀ (s : State),
     fstate s = 2 →
     regBit s (pwrReg Off.PWR_WAKE_CFG) 1 = true →
     s.onCell = false →
     Completes .wake s (fun t =>
       t.reg (pwrReg Off.PWR_STAT) = (s.reg (pwrReg Off.PWR_STAT)).put 0 2 3 ∧
       t.reg (pwrReg Off.PWR_WAKE_CAUSE) = W.at 0 4 2 ∧
       t.reg (pwrReg Off.PWR_WAKE_FT_H) = ftHi (ftNow s) ∧
       t.reg (pwrReg Off.PWR_WAKE_FT_L) = ftLo (ftNow s) ∧
       regsBut [pwrReg Off.PWR_STAT, pwrReg Off.PWR_WAKE_CAUSE, pwrReg Off.PWR_WAKE_FT_H, pwrReg Off.PWR_WAKE_FT_L] s t ∧
       changesOnly [.regs] s t)) ∧
  (∀ (s : State),
     (fstate s ≠ 2 ∨ regBit s (pwrReg Off.PWR_WAKE_CFG) 1 = false ∨ s.onCell = true) →
     Completes .wake s (fun t => t = s)) ∧
  (∀ (s : State),
     fstate s = 3 →
     (∀ e ∈ s.shadows, shadowed e.1 = true) →
     (s.shadows.map (·.1)).Nodup →
     Completes (.retentionWake []) s (fun t =>
       fstate t = 0 ∧
       regBit t (tkReg Off.TK_STAT) 4 = false ∧
       t.reg (mtxReg Off.MTX_REMAP) = s.reg (retReg 0) ∧
       (∀ k < 7, t.reg (pwrReg ([Off.PWR_PROFILE, Off.PWR_SC5_TILES_LO, Off.PWR_SC5_TILES_HI, Off.PWR_WAKE_CFG,
          Off.PWR_AUTO_T, Off.PWR_AUTO_E, Off.PWR_PIC_CFG].getD k 0)) = s.reg (retReg (k + 1))) ∧
       t.reg (fnfReg Off.FNF_CTRL) = (s.reg (retReg 8)).put 1 1 0 ∧
       (∀ k < 14, wokenAs s t ([fnfReg Off.FNF_STG_TO, fnfReg Off.FNF_PWR_WIN, opcReg Off.OPC_IMG_BANK, opcReg Off.OPC_CFG_EPOCH,
          extReg Off.EXT_CTRL, extReg Off.EXT_INST, extReg Off.EXT_PC, extReg Off.EXT_MAC_PFX, extReg Off.EXT_XRPT_ADDR,
          bstReg Off.BST_CFG, bstReg Off.BST_NIGHT, bstReg Off.BST_EXCL_LO, bstReg Off.BST_EXCL_HI,
          bstReg Off.BST_STALE].getD k 0) (s.reg (retReg (k + 9)))) ∧
       (∀ u < 64, ∀ k < 4, regBit s (pwrReg Off.PWR_RET_STAT) 0 = true →
         wokenAs s t (rtrReg u ([Off.RTR_CTRL, Off.RTR_WRR_W0, Off.RTR_WRR_W1, Off.RTR_AGE_LIM].getD k 0)) (s.reg (retReg (k + 0x17)))) ∧
       (∀ r < 64, t.reg (rtrReg r Off.RTR_MAP_EPOCH) = W.at 0 16 ((s.reg (retReg 0x1B)).fld 0 16 + 1) ∧
         ∀ u < 64, t.reg (rtrReg r (Off.RTR_FMAP + u)) = (s.reg (retReg (0x40 + u))).put 17 1
           (b2n (decide ((s.reg (retReg (tileRet u))).fld 0 3 = 2)))) ∧
       (∀ u < 64, t.reg (taReg u Off.PWR_TA_REQ) = s.reg (retReg (tileRet u)) ∧
         wokenAs s t (taReg u Off.PWR_TILE_CLAIM) (s.reg (retReg (tileRet u + 1))) ∧
         wokenAs s t (tmemReg u Off.TMEM_BANK_MAP) (s.reg (retReg (tileRet u + 2))) ∧
         (∀ k < 64, wokenAs s t (tmemReg u (Off.TMEM_SPARE k)) (W.at 0 11 ((s.reg (retReg (tileRet u + 4 + k / 3))).fld (11 * (k % 3)) 11))) ∧
         (∀ j < 72, (s.reg (retReg (tileRet u + 26 + j))).bit 19 = true →
           (∀ i < 72, j < i → (s.reg (retReg (tileRet u + 26 + i))).bit 19 = true →
             remapOf u (s.reg (retReg (tileRet u + 26 + i))) ≠ remapOf u (s.reg (retReg (tileRet u + 26 + j)))) →
           (s.reg (retReg (tileRet u + 26 + j))).fld 9 4 < 12 →
           wokenAs s t (remapOf u (s.reg (retReg (tileRet u + 26 + j))))
             (W.at 0 9 ((s.reg (retReg (tileRet u + 26 + j))).fld 0 9) ||| W.at 9 1 1))) ∧
       fwMode t = 3 ∧
       (t.core 0).run = true ∧ (t.core 0).hbFt = ftNow s ∧
       t.running = none ∧ t.session = none ∧ t.route = none ∧
       t.launches = [] ∧ t.stageQ = [] ∧ t.heldResets = [] ∧ t.posted = [] ∧
       regBit t (mbxReg Off.MBX_AVAIL) 0 = true ∧
       (∀ c < 2, ∀ i < 0x2000, t.word (mbxArea c 0 + i) = 0) ∧
       (∀ u < 64, s.reg (retReg (tileRet u)) ≠ 4 → tileState t u = 0 ∧ sliceIn t u 0 = true ∧ sliceIn t u 1 = true) ∧
       (∃ q, t.evq = mkEv (ftNow s) (coreNode t 0) EvC.WAKE [] :: q) ∧
       pieceKept s t .queue ∧ pieceKept s t .ports ∧ pieceKept s t .extension ∧ pieceKept s t .fuses)) ∧
  (∀ (bad : List (Fin 64 × Fin 2)) (s : State),
     fstate s = 3 →
     bad.Nodup →
     bad ≠ [] →
     bad.length < 16 →
     (∀ e ∈ s.shadows, shadowed e.1 = true) →
     (s.shadows.map (·.1)).Nodup →
     Completes (.retentionWake bad) s (fun t =>
       fstate t = 0 ∧
       (∀ u < 64, ∀ l < 2, (u, l) ∈ bad.map (fun x => (x.1.val, x.2.val)) →
         sliceIn t u l = false ∧ getFld t (slcReg u l Off.SLC_STAT) 0 3 = 2 ∧
         getFld t (slcReg u l Off.SLC_STAT) 3 4 = (s.reg (retReg (tileRet u + 3))).fld (7 * l + 3) 4) ∧
       (∀ u < 64, ∀ l < 2, (u, l) ∉ bad.map (fun x => (x.1.val, x.2.val)) → s.reg (retReg (tileRet u)) ≠ 4 →
         getFld t (slcReg u l Off.SLC_STAT) 0 7 = 0) ∧
       (∀ r < 64, t.reg (rtrReg r Off.RTR_MAP_EPOCH) = W.at 0 16 ((s.reg (retReg 0x1B)).fld 0 16 + 1) ∧
         ∀ u < 64, t.reg (rtrReg r (Off.RTR_FMAP + u)) =
           if (bad.filter (fun x => decide (x.1.val = u))).length = 2 then (s.reg (retReg (0x40 + u))).put 16 2 1
           else (s.reg (retReg (0x40 + u))).put 17 1
             (b2n (bad.any (fun x => decide (x.1.val = u)) || decide ((s.reg (retReg (tileRet u))).fld 0 3 = 2)))) ∧
       t.evq.take (bad.length + 1) = mkEv (ftNow s) (coreNode t 0) EvC.WAKE [] ::
         List.replicate bad.length (mkEv (ftNow s) (coreNode t 0) EvC.READMIT_FAIL []) ∧
       fwMode t = 3 ∧
       (t.core 0).run = true ∧
       regBit t (mbxReg Off.MBX_AVAIL) 0 = true ∧
       pieceKept s t .queue ∧ pieceKept s t .ports ∧ pieceKept s t .extension ∧ pieceKept s t .fuses)) ∧
  (∀ (mr : List W) (sigs : List (Fin 64 × Fin 2 × Fin 12 × W)) (rows : List (Fin 64 × Fin 6 × Fin 128)) (h tm sr : Bool)
     (d : BitVec 16) (s : State),
     s.inReset = false →
     s.scanOn = false →
     s.postRun = true →
     s.postRes = none →
     Completes (.post mr sigs rows h tm sr d) s (fun t =>
       (∀ a, t.word a = 0 ∧ isPoison t a = false) ∧
       t.postRes = some
         { memRes := mr,
           bad := (sigs.filter (fun g => decide (g.2.2.2 ≠ Config.goldenPost g.2.2.1.val))).map
             (fun g => (g.1.val, g.2.1.val, g.2.2.1.val, g.2.2.2)),
           rows := rows.map (fun r => (r.1.val, r.2.1.val, r.2.2.val)), hold := h, tmem := tm, sram := sr, dur := d.toNat } ∧
       t = { s with mem := t.mem, poison := t.poison, postRes := t.postRes })) ∧
  (∀ (r : PostRes) (s : State),
     s.postRes = some r →
     s.inReset = false →
     s.scanOn = false →
     r.memRes = Config.goldenPostMem →
     r.bad = [] →
     r.rows = [] →
     r.hold = false ∧ r.tmem = false ∧ r.sram = false →
     s.evq.length < 16 →
     Completes .postDone s (fun t =>
       t.reg (bstReg Off.BST_POST_STAT) = W.at 0 2 3 ∧
       t.reg (bstReg Off.BST_POST_SIG) = postSig r ∧
       t.reg (bstReg Off.BST_POST_REF) = postRef ∧
       t.reg (bstReg Off.BST_POST_COV) = W.at 0 10 987 ||| W.at 10 10 992 ∧
       t.reg (bstReg Off.BST_POST_DUR) = W.at 0 16 r.dur ∧
       t.reg (bstReg Off.BST_POST_ROWS) = 0 ∧
       t.reg (pwrReg Off.PWR_PROFILE_STAT) = (s.reg (pwrReg Off.PWR_PROFILE_STAT)).put 3 1 (b2n (sc5Ready s)) ∧
       t.postRun = false ∧ t.postRes = none ∧ t.postFt = ftNow s ∧ t.safe = s.safe ∧
       logs s t (mkEv (ftNow s) (nodeTP s 0 7) EvC.POST_RESULT []) ∧
       regsBut [bstReg Off.BST_POST_STAT, bstReg Off.BST_POST_SIG, bstReg Off.BST_POST_REF, bstReg Off.BST_POST_COV,
                bstReg Off.BST_POST_DUR, bstReg Off.BST_POST_ROWS, pwrReg Off.PWR_PROFILE_STAT] s t ∧
       changesOnly [.regs, .mode, .log] s t)) ∧
  (∀ (r : PostRes) (u sl p : Nat) (s : State),
     s.postRes = some r →
     s.inReset = false →
     s.scanOn = false →
     r.memRes = Config.goldenPostMem ∨ r.bad.any (fun b => decide (8 ≤ b.2.2.1)) = true →
     r.rows = [] →
     r.hold = false ∧ r.tmem = false ∧ r.sram = false →
     fuse s Fuse.STRICT_POST = false →
     badSlices r = [(u, sl)] →
     firstBad r = some (u, sl, p) →
     s.evq.length < 16 →
     Completes .postDone s (fun t =>
       t.reg (bstReg Off.BST_POST_STAT) = W.at 0 1 1 ||| W.at 3 1 1 ||| W.at 4 3 1 |||
         (W.at 7 6 u ||| W.at 13 1 sl ||| W.at 14 4 p) ∧
       t.reg (bstReg Off.BST_POST_REF) = postRef ∧
       (postSig r ≠ postRef → t.reg (bstReg Off.BST_POST_SIG) = postSig r) ∧
       t.reg (bstReg Off.BST_POST_SIG) ≠ postRef ∧
       sliceState t u sl = 2 ∧
       getFld t (slcReg u sl Off.SLC_STAT) 3 4 = 1 ∧
       (∀ v < 64, t.reg (rtrReg v Off.RTR_RESYNC_CNT) = 0) ∧
       t.postRun = false ∧ t.postRes = none ∧ t.postFt = ftNow s ∧ t.safe = s.safe ∧
       logs s t (mkEv (ftNow s) (nodeTP s 0 7) EvC.POST_RESULT []) ∧
       changesOnly [.regs, .mode, .log, .routers, .ids] s t)) ∧
  (∀ (r : PostRes) (c : Nat) (s : State),
     s.postRes = some r →
     s.inReset = false →
     s.scanOn = false →
     r.memRes = Config.goldenPostMem ∨ r.bad.any (fun b => decide (8 ≤ b.2.2.1)) = true ∨ r.hold = true ∨ r.tmem = true ∨
       r.sram = true →
     r.rows = [] →
     (c = 2 ∧ 2 ≤ (badSlices r).length ∧ r.hold = false ∧ r.tmem = false ∧ r.sram = false ∨
       c = 3 ∧ r.bad = [] ∧ r.hold = true ∧ r.tmem = false ∧ r.sram = false ∨
       c = 4 ∧ r.bad = [] ∧ r.hold = false ∧ r.tmem = true ∧ r.sram = false ∨
       c = 5 ∧ r.bad = [] ∧ r.hold = false ∧ r.tmem = false ∧ r.sram = true ∨
       c = 6 ∧ (badSlices r).length = 1 ∧ fuse s Fuse.STRICT_POST = true ∧ r.hold = false ∧ r.tmem = false ∧ r.sram = false) →
     s.evq.length < 16 →
     Completes .postDone s (fun t =>
       t.safe = true ∧
       regBit t (bstReg Off.BST_POST_STAT) 0 = true ∧ regBit t (bstReg Off.BST_POST_STAT) 1 = false ∧
       regBit t (bstReg Off.BST_POST_STAT) 2 = true ∧ regBit t (bstReg Off.BST_POST_STAT) 3 = false ∧
       getFld t (bstReg Off.BST_POST_STAT) 4 3 = c ∧
       t.reg (bstReg Off.BST_POST_REF) = postRef ∧
       (postSig r ≠ postRef → t.reg (bstReg Off.BST_POST_SIG) = postSig r) ∧
       t.reg (bstReg Off.BST_POST_SIG) ≠ postRef ∧
       t.nextId = s.nextId ∧
       t.postRun = false ∧ t.postRes = none ∧ t.postFt = ftNow s ∧
       logs s t (mkEv (ftNow s) (nodeTP s 0 7) EvC.POST_RESULT []) ∧
       regsBut [bstReg Off.BST_POST_STAT, bstReg Off.BST_POST_SIG, bstReg Off.BST_POST_REF, bstReg Off.BST_POST_COV,
                bstReg Off.BST_POST_DUR, bstReg Off.BST_POST_ROWS, pwrReg Off.PWR_PROFILE_STAT] s t ∧
       changesOnly [.regs, .mode, .log, .ids] s t))

/-- GO starts a turn where the tile agent may, by a narrowing or at the standby bank, waits for the end of a
voltage transition, and is recorded as not started otherwise. A narrowing that waits too long is reported or given
up. The end of a part passes the unit, fails it, or a turn is abandoned; a slice is then widened, or waits for the
one before it, and the widening brings it back, both ends of its halves trained, ends Slim and records the turn.
The re-admission test widens the router or leaves the slice fenced. A slice that faults is fenced; its twin goes
on half-width. The scheduler starts a unit that BIST_TURN has named; a unit that has not passed for too long is
reported. Log entries 4, 19, 30 and 38 name what the rules leave to the model here. -/
def Obligations.TurnsAndRepair : Prop :=
  (∀ (u : Fin 64) (v : W) (s : State),
     v.bit 0 = true →
     taVtrans s u = true →
     fstate s ≠ 2 →
     tileState s u ≠ 3 →
     Completes (.turnGo u v) s (fun t =>
       t.ta u = { s.ta u with waitReq := (s.ta u).waitReq ++ [.turn v] } ∧
       changesOnly [.agents] s t ∧
       agentsBut u s t)) ∧
  (∀ (u : Fin 64) (v : W) (s : State),
     v.bit 0 = true →
     taVtrans s u = false →
     v.fld 1 3 < 2 →
     mayTurnSlice s u (v.fld 4 4) = true →
     fstate s ≠ 2 →
     tileState s u ≠ 3 →
     Completes (.turnGo u v) s (fun t =>
       t.ta u = { s.ta u with
         turn := some { unit := v.fld 1 3, part := v.fld 4 4, phase := .narrowing, go := s.fc },
         nar := some { sl := v.fld 1 3, why := .turn, since := s.fc } } ∧
       t.reg (bstReg Off.BST_TURN_CNT) = s.reg (bstReg Off.BST_TURN_CNT) + 1 ∧
       (∀ i ∈ inputPorts u, resyncOf t u i = some { port := i, half := true, stopped := portStopped s u i }) ∧
       { t.rt u with resync := [] } = { s.rt u with resync := [] } ∧
       regsBut [bstReg Off.BST_TURN_CNT] s t ∧
       changesOnly [.regs, .agents, .routers] s t ∧
       agentsBut u s t ∧
       routersBut [u.val] s t)) ∧
  (∀ (u : Fin 64) (v : W) (s : State),
     v.bit 0 = true →
     taVtrans s u = false →
     2 ≤ v.fld 1 3 →
     mayTurnBank s u (v.fld 1 3 - 2) (v.fld 4 4) = true →
     fstate s ≠ 2 →
     tileState s u ≠ 3 →
     Completes (.turnGo u v) s (fun t =>
       t.ta u = { s.ta u with turn := some { unit := v.fld 1 3, part := v.fld 4 4, phase := .testing, go := s.fc } } ∧
       t.reg (bstReg Off.BST_TURN_CNT) = s.reg (bstReg Off.BST_TURN_CNT) + 1 ∧
       regsBut [bstReg Off.BST_TURN_CNT] s t ∧
       changesOnly [.regs, .agents] s t ∧
       agentsBut u s t)) ∧
  (∀ (u : Fin 64) (v : W) (s : State),
     v.bit 0 = true →
     taVtrans s u = false →
     (v.fld 1 3 < 2 ∧ mayTurnSlice s u (v.fld 4 4) = false ∨
       2 ≤ v.fld 1 3 ∧ mayTurnBank s u (v.fld 1 3 - 2) (v.fld 4 4) = false) →
     fstate s ≠ 2 →
     tileState s u ≠ 3 →
     Completes (.turnGo u v) s (fun t =>
       t.reg (recReg u (v.fld 1 3) 0) = W.at 0 3 4 ||| W.at 3 4 (v.fld 4 4) ∧
       t.reg (recReg u (v.fld 1 3) 2) = goldenOf (v.fld 1 3) (v.fld 4 4) ∧
       t.reg (bstReg Off.BST_TURN_CNT) = s.reg (bstReg Off.BST_TURN_CNT) + 1 ∧
       t.reg (bstReg Off.BST_NOSTART_CNT) = s.reg (bstReg Off.BST_NOSTART_CNT) + 1 ∧
       regsBut [recReg u (v.fld 1 3) 0, recReg u (v.fld 1 3) 2, bstReg Off.BST_TURN_CNT, bstReg Off.BST_NOSTART_CNT] s t ∧
       changesOnly [.regs] s t)) ∧
  (∀ (u : Fin 64) (x : Nar) (s : State),
     (s.ta u).nar = some x →
     narrowReady s u = false →
     x.why = .repair →
     x.slow = false →
     s.evq.length < 16 →
     Completes (.narrowTimeout u) s (fun t =>
       t.ta u = { s.ta u with nar := some { x with slow := true } } ∧
       logs s t (mkEv (ftNow s) (nodeTP s u 5) EvC.NARROW_SLOW []) ∧
       changesOnly [.agents, .log] s t ∧
       agentsBut u s t)) ∧
  (∀ (u : Fin 64) (x : Nar) (s : State),
     (s.ta u).nar = some x →
     narrowReady s u = false →
     x.why = .slim →
     x.sl < 2 →
     Completes (.narrowTimeout u) s (fun t =>
       t.ta u = { s.ta u with nar := none, slimNo := some 1 } ∧
       (∀ i ∈ inputPorts u, resyncOf t u i = some { port := i, half := false, stopped := portStopped s u i }) ∧
       t.reg (taReg u Off.PWR_REFUSE_CNT) = s.reg (taReg u Off.PWR_REFUSE_CNT) + 1 ∧
       t.reg (taReg u (Off.PWR_REFUSE_BY 1)) = s.reg (taReg u (Off.PWR_REFUSE_BY 1)) + 1 ∧
       t.reg (taReg u Off.PWR_LAST_REFUSER) = W.at 0 4 1 ||| W.at 4 3 2 ∧
       (t.reg (slcReg u x.sl Off.SLC_NARROW_MAX)).toNat =
         max (s.reg (slcReg u x.sl Off.SLC_NARROW_MAX)).toNat (min (s.fc - x.since) (2 ^ 24 - 1)) ∧
       regsBut [taReg u Off.PWR_REFUSE_CNT, taReg u (Off.PWR_REFUSE_BY 1), taReg u Off.PWR_LAST_REFUSER,
                slcReg u x.sl Off.SLC_NARROW_MAX] s t ∧
       changesOnly [.regs, .agents, .routers] s t ∧
       agentsBut u s t ∧
       routersBut [u.val] s t)) ∧
  (∀ (u : Fin 64) (x : Nar) (y : Turn) (s : State),
     (s.ta u).nar = some x →
     narrowReady s u = false →
     x.why = .turn →
     x.sl < 2 →
     (s.ta u).turn = some y →
     y.unit < 8 →
     Completes (.narrowTimeout u) s (fun t =>
       t.ta u = { s.ta u with nar := none, turn := none } ∧
       t.reg (recReg u y.unit 0) = W.at 0 3 4 ||| W.at 3 4 y.part ∧
       t.reg (bstReg Off.BST_NOSTART_CNT) = s.reg (bstReg Off.BST_NOSTART_CNT) + 1 ∧
       (∀ i ∈ inputPorts u, resyncOf t u i = some { port := i, half := false, stopped := portStopped s u i }) ∧
       regsBut [recReg u y.unit 0, recReg u y.unit 2, bstReg Off.BST_NOSTART_CNT, slcReg u x.sl Off.SLC_NARROW_MAX] s t ∧
       changesOnly [.regs, .agents, .routers] s t ∧
       agentsBut u s t ∧
       routersBut [u.val] s t)) ∧
  (∀ (u : Fin 64) (y : Turn) (m : W) (code : Nat) (s : State) (c : Instr),
     c = .partDone u m ∧ m = goldenOf y.unit y.part ∧ code = 1 ∨
       c = .turnAbandon u ∧ m = Config.freeWord s.freeN ∧ code = 3 →
     (s.ta u).turn = some y →
     y.phase = .testing →
     y.unit < 2 →
     Completes c s (fun t =>
       t.ta u = askWide (dueAtRouter s u) y.unit { s.ta u with turn := some { y with phase := .closing, code := code, misr := m } } ∧
       t.freeN = s.freeN + (if code = 3 then 1 else 0) ∧
       t.nextId = s.nextId ∧
       changesOnly [.agents, .ids] s t ∧
       agentsBut u s t)) ∧
  (∀ (u : Fin 64) (y : Turn) (m : W) (code : Nat) (s : State) (c : Instr),
     c = .partDone u m ∧ m = goldenOf y.unit y.part ∧ code = 1 ∨
       c = .turnAbandon u ∧ m = Config.freeWord s.freeN ∧ code = 3 →
     (s.ta u).turn = some y →
     y.phase = .testing →
     2 ≤ y.unit →
     y.unit < 8 →
     y.part < 12 →
     Completes c s (fun t =>
       t.ta u = { s.ta u with turn := none } ∧
       t.reg (recReg u y.unit 0) = W.at 0 3 code ||| W.at 3 4 y.part ∧
       t.reg (recReg u y.unit 1) = m ∧
       t.reg (recReg u y.unit 2) = goldenOf y.unit y.part ∧
       t.reg (recReg u y.unit 3) = (if code = 1 then (s.reg (recReg u y.unit 3)).put y.part 1 1
                                    else s.reg (recReg u y.unit 3)) ∧
       t.reg (recReg u y.unit 4) = ftHi (ftNow s) ∧
       t.reg (recReg u y.unit 5) = ftLo (ftNow s) ∧
       t.reg (bstReg Off.BST_ABANDON_CNT) = s.reg (bstReg Off.BST_ABANDON_CNT) + (if code = 3 then 1 else 0) ∧
       (code = 1 → Sparse.get (fun _ => s.postFt) t.lastPass (8 * u.val + y.unit) = ftNow s) ∧
       regsBut (bstReg Off.BST_ABANDON_CNT :: (List.range 6).map (recReg u y.unit)) s t ∧
       changesOnly [.regs, .agents, .firmware, .ids] s t ∧
       agentsBut u s t)) ∧
  (∀ (u : Fin 64) (y : Turn) (m : W) (s : State),
     (s.ta u).turn = some y →
     y.phase = .testing →
     y.unit < 8 →
     m ≠ goldenOf y.unit y.part →
     s.evq.length < 16 →
     (2 ≤ y.unit → (s.tmc u).migWait = []) →
     Completes (.partDone u m) s (fun t =>
       t.ta u = { s.ta u with turn := none } ∧
       t.reg (recReg u y.unit 0) = W.at 0 3 2 ||| W.at 3 4 y.part ∧
       t.reg (recReg u y.unit 1) = m ∧
       t.reg (bstReg Off.BST_FAIL_CNT) = (s.reg (bstReg Off.BST_FAIL_CNT)).satInc ∧
       (y.unit < 2 → sliceState t u y.unit = 2 ∧ getFld t (slcReg u y.unit Off.SLC_STAT) 3 4 = 1 ∧
         logs s t (mkEv (ftNow s) (nodeTP s u 5) EvC.SLICE_FAIL
           [W.at 7 6 u ||| W.at 13 1 y.unit ||| W.at 14 4 y.part, m, goldenOf y.unit y.part])) ∧
       (2 ≤ y.unit → regBit t (tmemReg u Off.TMEM_BANK_MAP) 3 = true ∧
         logs s t (mkEv (ftNow s) (coreNode s (activeCore s)) EvC.BANK_RETIRED [])) ∧
       regsBut (bstReg Off.BST_FAIL_CNT :: (if y.unit < 2 then slcReg u y.unit Off.SLC_STAT else tmemReg u Off.TMEM_BANK_MAP) ::
         (List.range 6).map (recReg u y.unit)) s t ∧
       t.tmc u = (if y.unit < 2 then s.tmc u else { s.tmc u with session := false }) ∧
       changesOnly [.regs, .agents, .tmcs, .log] s t ∧
       tmcsBut u s t ∧
       agentsBut u s t)) ∧
  (∀ (u : Fin 64) (sl : Nat) (s : State),
     (s.ta u).wide = some sl →
     sl < 2 →
     widenHeld s u = false →
     tileDark s u = false →
     (∀ y, (s.ta u).turn = some y → y.phase ≠ .closing) →
     Completes (.widenRouter u) s (fun t =>
       t.ta u = { s.ta u with wide := (s.ta u).wideQ.head?, wideQ := (s.ta u).wideQ.tail,
                              wideFor := if (s.ta u).wideQ = [] then [] else dueAtRouter s u } ∧
       sliceState t u sl = 0 ∧ getFld t (slcReg u sl Off.SLC_STAT) 3 4 = 0 ∧
       t.reg (slcReg u sl Off.SLC_READMIT_CNT) =
         s.reg (slcReg u sl Off.SLC_READMIT_CNT) + (if sliceState s u sl = 4 then 1 else 0) ∧
       (∀ i < 16, isLink u i = true → getFld t (slcReg u sl (Off.LNK_STAT i)) 2 15 = 511 * 2 ^ 6 ∧
         getFld t (slcReg (across u i) sl (Off.LNK_STAT (portTo (across u i) u))) 2 15 = 511 * 2 ^ 6 ∧
         linkOf t u i = { linkOf s u i with esc := if (linkOf s u i).esc = some sl then none else (linkOf s u i).esc }) ∧
       t.reg (taReg u Off.PWR_TA_STAT) = (if tileState s u = 1
                                          then ((s.reg (taReg u Off.PWR_TA_STAT)).put 0 3 0).put 5 1 0
                                          else s.reg (taReg u Off.PWR_TA_STAT)) ∧
       (∀ i ∈ inputPorts u, resyncOf t u i = some { port := i, half := !sliceIn s u (1 - sl), stopped := portStopped s u i }) ∧
       regsBut (taReg u Off.PWR_TA_STAT :: slcReg u sl Off.SLC_STAT :: slcReg u sl Off.SLC_READMIT_CNT ::
         ((List.range 16).map (fun i => slcReg u sl (Off.LNK_STAT i)) ++
          (List.range 16).map (fun i => slcReg (across u i) sl (Off.LNK_STAT (portTo (across u i) u))))) s t ∧
       changesOnly [.regs, .agents, .routers] s t ∧
       agentsBut u s t ∧
       routersBut [u.val] s t)) ∧
  (∀ (u : Fin 64) (sl : Nat) (y : Turn) (s : State),
     (s.ta u).wide = some sl →
     sl < 2 →
     widenHeld s u = false →
     tileDark s u = false →
     (s.ta u).turn = some y →
     y.phase = .closing →
     y.unit < 8 →
     y.part < 12 →
     Completes (.widenRouter u) s (fun t =>
       (t.ta u).wide = (s.ta u).wideQ.head? ∧ (t.ta u).turn = none ∧
       sliceState t u sl = 0 ∧
       t.reg (recReg u y.unit 0) = W.at 0 3 y.code ||| W.at 3 4 y.part ∧
       t.reg (recReg u y.unit 1) = y.misr ∧
       (y.code = 1 → regBit t (recReg u y.unit 3) y.part = true) ∧
       changesOnly [.regs, .agents, .routers, .firmware] s t ∧
       agentsBut u s t ∧
       routersBut [u.val] s t)) ∧
  (∀ (u : Fin 64) (sl : Fin 2) (ms : List W) (s : State),
     sliceState s u sl = 4 →
     (s.ta u).wide ≠ some sl.val →
     (s.ta u).wideQ.contains sl.val = false →
     (∀ i < 12, wordAt ms i = Config.goldenTurn i) →
     Completes (.readmitTest u sl ms) s (fun t =>
       t.ta u = askWide (dueAtRouter s u) sl.val (s.ta u) ∧
       changesOnly [.agents] s t ∧
       agentsBut u s t)) ∧
  (∀ (u : Fin 64) (sl : Fin 2) (ms : List W) (s : State),
     sliceState s u sl = 4 →
     (s.ta u).wide ≠ some sl.val →
     (s.ta u).wideQ.contains sl.val = false →
     (∃ i < 12, wordAt ms i ≠ Config.goldenTurn i) →
     s.evq.length < 16 →
     Completes (.readmitTest u sl ms) s (fun t =>
       t.reg (slcReg u sl Off.SLC_STAT) = (s.reg (slcReg u sl Off.SLC_STAT)).put 0 3 2 ∧
       logs s t (mkEv (ftNow s) (coreNode s (activeCore s)) EvC.READMIT_FAIL []) ∧
       regsBut [slcReg u sl Off.SLC_STAT] s t ∧
       changesOnly [.regs, .log] s t)) ∧
  (∀ (u : Fin 64) (sl : Fin 2) (s : State),
     tileDark s u = false →
     sliceIn s u sl = false →
     eventPasses s (.rtr u) →
     Completes (.sliceFault u sl) s (fun t =>
       logs s t (mkEv (ftNow s) (nodeTP s u 5) EvC.SLICE_FAULT []) ∧
       changesOnly [.log] s t)) ∧
  (∀ (u : Fin 64) (sl : Fin 2) (s : State),
     tileDark s u = false →
     sliceIn s u sl = true →
     sliceIn s u (1 - sl.val) = true →
     (s.rt u).inq = [] →
     (s.rt u).trail = [] →
     (∀ v ∈ neighbours u, (s.rt v).trail = []) →
     (s.ta u).turn = none →
     eventPasses s (.rtr u) →
     Completes (.sliceFault u sl) s (fun t =>
       t.reg (slcReg u sl Off.SLC_STAT) = ((s.reg (slcReg u sl Off.SLC_STAT)).put 0 3 2).put 3 4 2 ∧
       t.ta u = { s.ta u with nar := none, entering := none, slimDue := none, busyDue := true } ∧
       (∀ i ∈ inputPorts u, resyncOf t u i = some { port := i, half := true, stopped := portStopped s u i }) ∧
       logs s t (mkEv (ftNow s) (nodeTP s u 5) EvC.SLICE_FAULT []) ∧
       regsBut [slcReg u sl Off.SLC_STAT] s t ∧
       changesOnly [.regs, .agents, .routers, .log] s t ∧
       agentsBut u s t ∧
       routersBut [u.val] s t)) ∧
  (∀ (u : Fin 64) (sl : Fin 2) (s : State),
     tileDark s u = false →
     sliceIn s u sl = true →
     sliceIn s u (1 - sl.val) = false →
     (s.rt u).inq = [] →
     (s.rt u).trail = [] →
     (s.ta u).turn = none →
     eventPasses s (.rtr u) →
     (s.ta u).entering = none →
     Completes (.sliceFault u sl) s (fun t =>
       t.reg (slcReg u sl Off.SLC_STAT) = ((s.reg (slcReg u sl Off.SLC_STAT)).put 0 3 2).put 3 4 2 ∧
       t.ta u = { s.ta u with nar := none } ∧
       (∀ v ∈ neighbours u, regBit t (rtrReg v Off.RTR_LOCAL_FENCE) (portTo v u) = true) ∧
       logs s t (mkEv (ftNow s) (nodeTP s u 5) EvC.SLICE_FAULT []) ∧
       regsBut (slcReg u sl Off.SLC_STAT :: (neighbours u).map (fun v => rtrReg v Off.RTR_LOCAL_FENCE)) s t ∧
       changesOnly [.regs, .agents, .routers, .log] s t ∧
       agentsBut u s t ∧
       routersBut (neighbours u) s t)) ∧
  (∀ (u : Fin 64) (v : Fin 8) (s : State),
     fwNormal s = true →
     isStale s u v = true →
     tileState s u ≠ 2 →
     s.evq.length < 16 →
     Completes (.testStale u v) s (fun t =>
       t.staleLogged = s.staleLogged ++ [(u.val, v.val)] ∧
       logs s t (mkEv (ftNow s) (coreNode s (activeCore s)) EvC.TEST_STALE []) ∧
       t = { s with staleLogged := t.staleLogged, evq := t.evq })) ∧
  (∀ (u : Fin 64) (sl : Fin 2) (s : State),
     fwNormal s = true →
     s.jobs = [] →
     (∀ v < 64, sessionOver s v = false) →
     s.placed = [(u.val, sl.val)] →
     eligible s u sl = true →
     taGear s u = false →
     instHalf s u = false →
     (∀ x ∈ unitsFrom true 0, (unitDone s x.1 x.2 = true ∨ regBit s (taReg x.1 Off.BST_TA_LOAD) 15 = false)) →
     (∃ x ∈ unitsFrom true 0, unitDone s x.1 x.2 = false) →
     Completes .turnTick s (fun t =>
       t.jobs = [{ kind := .turnGo, t := u, a := sl, b := nextPart s u sl }] ∧
       t.placed = [] ∧
       t.slicePtr = s.slicePtr ∧
       t.reg (bstReg Off.BST_SKIP_CNT) = s.reg (bstReg Off.BST_SKIP_CNT) + 1 ∧
       regsBut [bstReg Off.BST_SKIP_CNT] s t ∧
       changesOnly [.regs, .firmware] s t))

/-- LNK_CTRL.TRAIN starts the training of a half, whose result stands at the receiving end. A scan request that
rises ends turns, stops the cores and starts zeroization, whose end leaves session state, mailbox areas, hold
stores and key shadows zero; one that falls, or rises while FAB_RST is asserted or zeroization runs, moves the pin
and REQ alone; one that has fallen and risen again when zeroization ends begins the next, and so does one that
rises after its end, or in the cold start, where the cores meet no second reset (log entry 38). A halt freezes the
leases of its core where DBG_FREEZE_LEASE says so; a resume renews the locks whose lease ended meanwhile, and ends
the core's reservation where leases ran. The writer puts a record into both copies, a PAD record first where one
with a continuation meets an odd index, and a FLOOD record ahead of the queue where events were lost; it advances
EVL_WR_POS and sets the pending bit of its severity; a copy that is down misses the record, which its gap then
names; a copy that returns is logged, and what it missed is then filled from the other one (the model's two
commands, log entry 23). The fuse programmer blows a fuse and is busy for a time, or reports why not; a GO while
it is busy does nothing (the model's choice, log entry 38). The other fields of a PAD record and the STATUS of a
GO above the last fuse are open (log entry 4), and VPP_OK shows the supply while a blow runs (the model's choice,
log entry 42). -/
def Obligations.TrainingScanAndRecords : Prop :=
  (∀ (u : Fin 64) (sl : Fin 2) (i : Fin 16) (s : State),
     isLink u i = true →
     fstate s ≠ 2 →
     tileDark s u = false →
     guardPasses s (activeCore s) = true →
     coresIdle s →
     Completes (.train u sl i) s (fun t =>
       getFld t (slcReg u sl (Off.LNK_CTRL i)) 0 1 = getFld s (slcReg u sl (Off.LNK_CTRL i)) 0 1 ∧
       t.reg (slcReg (across u i) sl (Off.LNK_STAT (portTo (across u i) u))) =
         (s.reg (slcReg (across u i) sl (Off.LNK_STAT (portTo (across u i) u)))).put 2 1 1 ∧
       regsBut [slcReg u sl (Off.LNK_CTRL i), slcReg (across u i) sl (Off.LNK_STAT (portTo (across u i) u))] s t ∧
       t.shadows = Sparse.set resetValue s.shadows (slcReg u sl (Off.LNK_CTRL i)) (shadowOf t (slcReg u sl (Off.LNK_CTRL i))) ∧
       t = { s with regs := t.regs, shadows := t.shadows })) ∧
  (∀ (u : Fin 64) (sl : Fin 2) (i : Fin 16) (bad : Option (Fin 312)) (s : State),
     isLink u i = true →
     regBit s (slcReg (across u i) sl (Off.LNK_STAT (portTo (across u i) u))) 2 = true →
     Completes (.trainDone u sl i bad) s (fun t =>
       t.reg (slcReg (across u i) sl (Off.LNK_STAT (portTo (across u i) u))) =
         (((s.reg (slcReg (across u i) sl (Off.LNK_STAT (portTo (across u i) u)))).put 2 1 0).put 3 1 (b2n bad.isSome)).put 8 9
           ((bad.map (fun w => w.val)).getD 511) ∧
       regsBut [slcReg (across u i) sl (Off.LNK_STAT (portTo (across u i) u))] s t ∧
       changesOnly [.regs] s t)) ∧
  (∀ (s : State),
     inFabRst s = false →
     s.scanOn = false →
     s.scanReq = false →
     regBit s (bstReg Off.BST_ZERO_STAT) 0 = false →
     Completes .scanRequest s (fun t =>
       t.scanReq = true ∧ t.scanOn = true ∧ t.scanFell = false ∧ t.safe = true ∧
       t.reg (bstReg Off.BST_ZERO_STAT) = W.at 0 1 1 ||| W.at 3 1 1 ∧
       (∀ u < 64, (t.ta u).turn = none ∧ (t.ta u).nar = none ∧ (t.ta u).wide = none) ∧
       (t.core 0).run = false ∧ (t.core 1).run = false ∧ (t.core 0).halted = false ∧ (t.core 1).halted = false ∧
       t.session = (if bootSel s = true then s.session else none) ∧
       t.running = (if bootSel s = true then s.running else none) ∧
       t.hdrs = (if bootSel s = true then s.hdrs else []) ∧
       (∀ u, t.tmc u = { s.tmc u with
         q := (s.tmc u).q.filter (fun r => decide (r.via ≠ .mem (.core 0) ∧ r.via ≠ .mem (.core 1))) }) ∧
       t.heldWrites = s.heldWrites.filter (fun h => decide (h.node ≠ coreNode s 0 ∧ h.node ≠ coreNode s 1 ∧
         h.ack.map (fun x => x.1) ≠ some (.core 0) ∧ h.ack.map (fun x => x.1) ≠ some (.core 1))) ∧
       t.posted = s.posted ∧
       pieceKept s t .queue ∧ pieceKept s t .mem ∧ pieceKept s t .time ∧
       pieceKept s t .ports ∧ pieceKept s t .extension ∧ pieceKept s t .fuses)) ∧
  (∀ (s : State),
     s.scanOn = true →
     regBit s (bstReg Off.BST_ZERO_STAT) 0 = true →
     (s.scanReq = false ∨ s.scanFell = false) →
     Completes .zeroizeDone s (fun t =>
       t.session = none ∧ t.hdrs = [] ∧ t.running = none ∧
       (∀ c < 2, ∀ i < 0x2000, t.word (mbxArea c 0 + i) = 0) ∧
       (∀ a, ¬(mbxArea 0 0 ≤ a ∧ a < mbxArea 0 0 + 0x2000) → ¬(mbxArea 1 0 ≤ a ∧ a < mbxArea 1 0 + 0x2000) →
         t.word a = s.word a) ∧
       (∀ n, t.ni n = { s.ni n with hold := [] }) ∧
       (∀ k < 2, ∀ i < 12, t.reg (opcReg (Off.OPC_KEY_SHADOW k i)) = 0) ∧
       t.reg (opcReg Off.OPC_KEY_STAT) = (s.reg (opcReg Off.OPC_KEY_STAT)).put 5 1 0 ∧
       t.reg (bstReg Off.BST_ZERO_STAT) = ((s.reg (bstReg Off.BST_ZERO_STAT)).put 0 2 2).put 2 1 (b2n s.scanReq) ∧
       regsBut (bstReg Off.BST_ZERO_STAT :: opcReg Off.OPC_KEY_STAT ::
         (List.range 12).flatMap (fun i => [opcReg (Off.OPC_KEY_SHADOW 0 i), opcReg (Off.OPC_KEY_SHADOW 1 i)])) s t ∧
       changesOnly [.regs, .mem, .nis, .fanfare, .firmware] s t)) ∧
  (∀ (c : Fin 2) (s : State),
     (s.core c).run = true →
     (s.core c).halted = false →
     Completes (.debugHalt c) s (fun t =>
       t.core c = { s.core c with haltReq := true, halted := true, haltUsec := ftNow s / us 1 } ∧
       (∀ u < 64, t.reg (epochReg u (coreNode s c)) =
         (if regBit s (dbgReg Off.DBG_FREEZE_LEASE) c = true then (s.reg (epochReg u (coreNode s c))).put 8 1 1
          else s.reg (epochReg u (coreNode s c)))) ∧
       regsBut ((List.range 64).map (fun u => epochReg u (coreNode s c))) s t ∧
       coresBut c s t ∧
       changesOnly [.regs, .cores] s t)) ∧
  (∀ (c : Fin 2) (s : State),
     (s.core c).halted = true →
     regBit s (dbgReg Off.DBG_HALT) c = false →
     frozen s 0 (coreNode s c) = false →
     Completes (.debugResume c) s (fun t =>
       t.core c = { s.core c with haltReq := false, halted := false, hbFt := ftNow s } ∧
       t.reg (niReg (if c = 0 then 6 else 447) Off.NI_RES_STAT) =
         (if regBit s (dbgReg Off.DBG_FREEZE_LEASE) c = true then s.reg (niReg (if c = 0 then 6 else 447) Off.NI_RES_STAT)
          else 0) ∧
       regsBut [niReg (if c = 0 then 6 else 447) Off.NI_RES_STAT] s t ∧
       coresBut c s t ∧
       changesOnly [.regs, .cores] s t)) ∧
  (∀ (c : Fin 2) (s : State),
     (s.core c).halted = true →
     regBit s (dbgReg Off.DBG_HALT) c = false →
     frozen s 0 (coreNode s c) = true →
     s.inv →
     Completes (.debugResume c) s (fun t =>
       t.core c = { s.core c with haltReq := false, halted := false, hbFt := ftNow s } ∧
       (∀ u < 64, t.reg (epochReg u (coreNode s c)) = (s.reg (epochReg u (coreNode s c))).put 8 1 0) ∧
       (∀ u < 64, ∀ k < 256, t.word (tmemAddr u (2 * k + 1)) =
         (if lapsed s c (s.word (tmemAddr u (2 * k))) (s.word (tmemAddr u (2 * k + 1))) u = true ∧
             isPoison s (tmemAddr u (2 * k)) = false ∧ isPoison s (tmemAddr u (2 * k + 1)) = false
          then leaseWord (usecTile s u) (lsLease (s.word (tmemAddr u (2 * k + 1))))
          else s.word (tmemAddr u (2 * k + 1)))) ∧
       (∀ a, (∀ u < 64, ∀ k < 256, a ≠ tmemAddr u (2 * k + 1)) → t.word a = s.word a) ∧
       t.poison = s.poison ∧
       t.reg (niReg (if c = 0 then 6 else 447) Off.NI_RES_STAT) =
         (if regBit s (dbgReg Off.DBG_FREEZE_LEASE) c = true then s.reg (niReg (if c = 0 then 6 else 447) Off.NI_RES_STAT)
          else 0) ∧
       regsBut (niReg (if c = 0 then 6 else 447) Off.NI_RES_STAT :: (List.range 64).map (fun u => epochReg u (coreNode s c)))
         s t ∧
       coresBut c s t ∧
       changesOnly [.regs, .mem, .cores] s t)) ∧
  (∀ (e : Ev) (q : List Ev) (i : Nat) (s : State),
     s.inReset = false →
     fstate s ≠ 2 →
     s.evLost = 0 →
     s.evq = e :: q →
     copyUp s 0 = true →
     copyUp s 1 = true →
     e.cont = none →
     e.sev < 4 →
     e.code ≠ EvC.PAD.code →
     e.code ≠ EvC.FLOOD.code →
     regBit s (evlReg (Off.EVL_IRQ_ROUTE e.sev)) 4 = false →
     ringPos s = i →
     Completes .eventRecord s (fun t =>
       t.evq = q ∧
       (∀ c < 2, t.word (tmemAddr (63 * c) (0xB000 + 4 * i)) = e.ftH ∧
         t.word (tmemAddr (63 * c) (0xB000 + 4 * i + 1)) = e.ftL ∧
         t.word (tmemAddr (63 * c) (0xB000 + 4 * i + 2)) = W.at 0 23 e.node ||| W.at 23 10 e.code ||| W.at 33 2 e.sev ∧
         t.word (tmemAddr (63 * c) (0xB000 + 4 * i + 3)) = e.arg) ∧
       wordsBut ((List.range 4).flatMap (fun j => [tmemAddr 0 (0xB000 + 4 * i + j), tmemAddr 63 (0xB000 + 4 * i + j)])) s t ∧
       t.reg (evlReg Off.EVL_WR_POS) = s.reg (evlReg Off.EVL_WR_POS) + 1 ∧
       t.reg (evlReg Off.EVL_IRQ_PEND) = (s.reg (evlReg Off.EVL_IRQ_PEND)).put e.sev 1 1 ∧
       regsBut [evlReg Off.EVL_WR_POS, evlReg Off.EVL_IRQ_PEND] s t ∧
       t.evLost = 0 ∧
       changesOnly [.regs, .mem, .tmcs, .log] s t)) ∧
  (∀ (e : Ev) (q : List Ev) (i : Nat) (v0 v1 v2 v3 : W) (s : State),
     s.inReset = false →
     fstate s ≠ 2 →
     s.evLost = 0 →
     s.evq = e :: q →
     copyUp s 0 = true →
     copyUp s 1 = true →
     e.cont = some [v0, v1, v2, v3] →
     e.sev < 4 →
     e.code ≠ EvC.PAD.code →
     e.code ≠ EvC.FLOOD.code →
     regBit s (evlReg (Off.EVL_IRQ_ROUTE e.sev)) 4 = false →
     ringPos s = 2 * i →
     Completes .eventRecord s (fun t =>
       t.evq = q ∧
       (∀ c < 2, ∀ j < 8, t.word (tmemAddr (63 * c) (0xB000 + 8 * i + j)) =
         [e.ftH, e.ftL, W.at 0 23 e.node ||| W.at 23 10 e.code ||| W.at 33 2 e.sev ||| W.at 35 1 1, e.arg,
          v0, v1, v2, v3].getD j 0) ∧
       wordsBut ((List.range 8).flatMap (fun j => [tmemAddr 0 (0xB000 + 8 * i + j), tmemAddr 63 (0xB000 + 8 * i + j)])) s t ∧
       t.reg (evlReg Off.EVL_WR_POS) = s.reg (evlReg Off.EVL_WR_POS) + 2 ∧
       t.reg (evlReg Off.EVL_IRQ_PEND) = (s.reg (evlReg Off.EVL_IRQ_PEND)).put e.sev 1 1 ∧
       regsBut [evlReg Off.EVL_WR_POS, evlReg Off.EVL_IRQ_PEND] s t ∧
       t.evLost = 0 ∧
       changesOnly [.regs, .mem, .tmcs, .log] s t)) ∧
  (∀ (e : Ev) (q : List Ev) (s : State),
     s.inReset = false →
     fstate s ≠ 2 →
     s.evq = e :: q →
     copyUp s 0 = false →
     copyUp s 1 = false →
     Completes .eventRecord s (fun t =>
       t.evq = q ∧ t.evLost = s.evLost + 1 ∧
       t.evLostLast = e.ftH.toNat * ftSec + e.ftL.toNat ∧
       t.evLostFirst = (if s.evLost = 0 then e.ftH.toNat * ftSec + e.ftL.toNat else s.evLostFirst) ∧
       changesOnly [.log] s t)) ∧
  (∀ (c : Fin 2) (i : Nat) (s : State),
     mirrorStat s c = 2 →
     getFld s (evlReg (Off.EVL_MIRROR c)) 2 12 = i →
     getFld s (evlReg (Off.EVL_MIRROR c)) 14 12 = i →
     regBit s (evlReg (Off.EVL_MIRROR c)) 26 = false →
     copyUp s 0 = true →
     copyUp s 1 = true →
     c.val ∉ s.mirrorNone →
     Completes (.mirrorGap c) s (fun t =>
       (∀ j < 4, t.word (tmemAddr (63 * c.val) (0xB000 + 4 * i + j)) = s.word (tmemAddr (63 * (1 - c.val)) (0xB000 + 4 * i + j)) ∧
         isPoison t (tmemAddr (63 * c.val) (0xB000 + 4 * i + j)) =
           isPoison s (tmemAddr (63 * (1 - c.val)) (0xB000 + 4 * i + j))) ∧
       wordsBut ((List.range 4).map (fun j => tmemAddr (63 * c.val) (0xB000 + 4 * i + j))) s t ∧
       t.reg (evlReg (Off.EVL_MIRROR c)) = 0 ∧
       regsBut [evlReg (Off.EVL_MIRROR c)] s t ∧
       t.mirrorNone = s.mirrorNone ∧ t.evq = s.evq ∧ t.evLost = s.evLost ∧ t.evLostFirst = s.evLostFirst ∧ t.evLostLast = s.evLostLast ∧
       changesOnly [.regs, .mem, .tmcs, .log] s t ∧
       tmcsBut (63 * c.val) s t)) ∧
  (∀ (a : BitVec 11) (vpp refused : Bool) (s : State),
     s.onCell = false →
     s.fuseEnd ≤ s.fc →
     a.toNat < 1120 →
     (refused = true ↔ vpp = false ∨ 775 ≤ a.toNat ∧ a.toNat ≤ 799 ∨ a.toNat < 384 ∧ s.fuses.testBit (Fuse.ENR 0) = true ∨
       384 ≤ a.toNat ∧ a.toNat < 768 ∧ s.fuses.testBit (Fuse.ENR 1) = true ∨
       800 ≤ a.toNat ∧ s.fuses.testBit Fuse.POP_LOCK = true) →
     Completes (.fuseBlow a vpp) s (fun t =>
       t.fuses = (if refused = true then s.fuses else s.fuses ||| 2 ^ a.toNat) ∧
       t.fuseDr = a.toNat + (if refused = true then 2 else 1) * 4096 ∧
       t.fusesSensed = s.fusesSensed ∧
       t.vppOk = vpp ∧
       t.fuseEnd = (if refused = true then s.fuseEnd else s.fc + 48000) ∧
       (shown t (idReg Off.KNL_FUSE_STAT)).bit 1 = (vpp && !refused) ∧
       (shown t (idReg Off.KNL_FUSE_STAT)).bit 2 = !refused ∧
       changesOnly [.fuses] s t)) ∧
  (∀ (a : BitVec 11) (vpp : Bool) (s : State),
     s.onCell = false →
     s.fuseEnd ≤ s.fc →
     1120 ≤ a.toNat →
     Completes (.fuseBlow a vpp) s (fun t =>
       t.fuses = s.fuses ∧
       t.fuseDr = a.toNat + (if vpp = true then (Config.freeWord s.freeN).fld 0 2 else 2) * 4096 ∧
       t.fusesSensed = s.fusesSensed ∧
       t.freeN = s.freeN + (if vpp = true then 1 else 0) ∧
       t.vppOk = vpp ∧
       t.fuseEnd = s.fuseEnd ∧
       (shown t (idReg Off.KNL_FUSE_STAT)).bit 1 = false ∧
       changesOnly [.fuses, .ids] s t)) ∧
  (∀ (c : Fin 2) (s : State),
     mirrorStat s c = 1 →
     copyUp s c = true →
     s.evq.length < 16 →
     Completes (.mirrorGap c) s (fun t =>
       t.reg (evlReg (Off.EVL_MIRROR c)) = (s.reg (evlReg (Off.EVL_MIRROR c))).put 0 2 2 ∧
       logs s t (mkEv (ftNow s) (nodeTP s 0 7) EvC.MIRROR_GAP []) ∧
       regsBut [evlReg (Off.EVL_MIRROR c)] s t ∧
       changesOnly [.regs, .log] s t)) ∧
  (∀ (s : State),
     (s.scanReq = true ∨ s.inReset = true ∨ regBit s (bstReg Off.BST_ZERO_STAT) 0 = true) →
     Completes .scanRequest s (fun t =>
       t.scanReq = !s.scanReq ∧
       t.scanFell = (s.scanFell || s.scanReq) ∧
       regBit t (bstReg Off.BST_ZERO_STAT) 3 = (!s.scanReq && !s.inReset) ∧
       getFld t (bstReg Off.BST_ZERO_STAT) 0 3 = getFld s (bstReg Off.BST_ZERO_STAT) 0 3 ∧
       regsBut [bstReg Off.BST_ZERO_STAT] s t ∧
       t = { s with regs := t.regs, scanReq := t.scanReq, scanFell := t.scanFell })) ∧
  (∀ (a : BitVec 11) (vpp : Bool) (s : State),
     s.onCell = false →
     s.fc < s.fuseEnd →
     Completes (.fuseBlow a vpp) s (fun t =>
       t = s ∧
       (shown s (idReg Off.KNL_FUSE_STAT)).bit 2 = true)) ∧
  (∀ (e : Ev) (q : List Ev) (i : Nat) (v0 v1 v2 v3 : W) (s : State),
     s.inReset = false →
     fstate s ≠ 2 →
     s.evLost = 0 →
     s.evq = e :: q →
     copyUp s 0 = true →
     copyUp s 1 = true →
     e.cont = some [v0, v1, v2, v3] →
     e.sev < 4 →
     e.code ≠ EvC.PAD.code →
     e.code ≠ EvC.FLOOD.code →
     regBit s (evlReg (Off.EVL_IRQ_ROUTE e.sev)) 4 = false →
     ringPos s = 2 * i + 1 →
     Completes (.eventRecord) s (fun t =>
       t.evq = q ∧
       (∀ c < 2, ∀ j < 4, t.word (tmemAddr (63 * c) (0xB000 + 4 * (2 * i + 1) + j)) =
         [Config.freeWord s.freeN, Config.freeWord (s.freeN + 1), W.at 0 23 ((Config.freeWord (s.freeN + 2)).fld 0 23),
          Config.freeWord (s.freeN + 3)].getD j 0) ∧
       (∀ c < 2, ∀ j < 8, t.word (tmemAddr (63 * c) (0xB000 + (8 * i + 8) % 16384 + j)) =
         [e.ftH, e.ftL, W.at 0 23 e.node ||| W.at 23 10 e.code ||| W.at 33 2 e.sev ||| W.at 35 1 1, e.arg,
          v0, v1, v2, v3].getD j 0) ∧
       wordsBut ((List.range 12).flatMap (fun j => let x := (8 * i + 4 + j) % 16384; [tmemAddr 0 (0xB000 + x), tmemAddr 63 (0xB000 + x)])) s t ∧
       t.reg (evlReg Off.EVL_WR_POS) = s.reg (evlReg Off.EVL_WR_POS) + 3 ∧
       t.reg (evlReg Off.EVL_IRQ_PEND) = (s.reg (evlReg Off.EVL_IRQ_PEND)).put e.sev 1 1 ∧
       regsBut [evlReg Off.EVL_WR_POS, evlReg Off.EVL_IRQ_PEND] s t ∧
       t.evLost = 0 ∧
       t.freeN = s.freeN + 4 ∧
       changesOnly [.regs, .mem, .tmcs, .log, .ids] s t)) ∧
  (∀ (i : Nat) (s : State),
     s.inReset = false →
     fstate s ≠ 2 →
     0 < s.evLost →
     copyUp s 0 = true →
     copyUp s 1 = true →
     regBit s (evlReg (Off.EVL_IRQ_ROUTE 2)) 4 = false →
     regBit s (evlReg (Off.EVL_IRQ_ROUTE 4)) 4 = false →
     ringPos s = 2 * i →
     Completes (.eventRecord) s (fun t =>
       (∀ c < 2, ∀ j < 8, t.word (tmemAddr (63 * c) (0xB000 + 8 * i + j)) =
         [ftHi (ftNow s), ftLo (ftNow s), W.at 0 23 (nodeTP s 0 7) ||| W.at 23 10 0x0F0 ||| W.at 33 2 2 ||| W.at 35 1 1, natW s.evLost,
          ftHi s.evLostFirst, ftLo s.evLostFirst, ftHi s.evLostLast, ftLo s.evLostLast].getD j 0) ∧
       wordsBut ((List.range 8).flatMap (fun j => [tmemAddr 0 (0xB000 + 8 * i + j), tmemAddr 63 (0xB000 + 8 * i + j)])) s t ∧
       t.reg (evlReg Off.EVL_WR_POS) = s.reg (evlReg Off.EVL_WR_POS) + 2 ∧
       t.reg (evlReg Off.EVL_IRQ_PEND) = ((s.reg (evlReg Off.EVL_IRQ_PEND)).put 2 1 1).put 4 1 1 ∧
       t.reg (evlReg Off.EVL_LOST_CNT) = s.reg (evlReg Off.EVL_LOST_CNT) + natW s.evLost ∧
       regsBut [evlReg Off.EVL_WR_POS, evlReg Off.EVL_IRQ_PEND, evlReg Off.EVL_LOST_CNT] s t ∧
       t.evLost = 0 ∧
       t.evq = s.evq ∧
       changesOnly [.regs, .mem, .tmcs, .log] s t)) ∧
  (∀ (i : Nat) (s : State),
     s.inReset = false →
     fstate s ≠ 2 →
     0 < s.evLost →
     copyUp s 0 = true →
     copyUp s 1 = true →
     regBit s (evlReg (Off.EVL_IRQ_ROUTE 2)) 4 = false →
     regBit s (evlReg (Off.EVL_IRQ_ROUTE 4)) 4 = false →
     ringPos s = 2 * i + 1 →
     Completes (.eventRecord) s (fun t =>
       (∀ c < 2, ∀ j < 4, t.word (tmemAddr (63 * c) (0xB000 + 4 * (2 * i + 1) + j)) =
         [Config.freeWord s.freeN, Config.freeWord (s.freeN + 1), W.at 0 23 ((Config.freeWord (s.freeN + 2)).fld 0 23),
          Config.freeWord (s.freeN + 3)].getD j 0) ∧
       (∀ c < 2, ∀ j < 8, t.word (tmemAddr (63 * c) (0xB000 + (8 * i + 8) % 16384 + j)) =
         [ftHi (ftNow s), ftLo (ftNow s), W.at 0 23 (nodeTP s 0 7) ||| W.at 23 10 0x0F0 ||| W.at 33 2 2 ||| W.at 35 1 1, natW s.evLost,
          ftHi s.evLostFirst, ftLo s.evLostFirst, ftHi s.evLostLast, ftLo s.evLostLast].getD j 0) ∧
       wordsBut ((List.range 12).flatMap (fun j => let x := (8 * i + 4 + j) % 16384; [tmemAddr 0 (0xB000 + x), tmemAddr 63 (0xB000 + x)])) s t ∧
       t.reg (evlReg Off.EVL_WR_POS) = s.reg (evlReg Off.EVL_WR_POS) + 3 ∧
       t.reg (evlReg Off.EVL_IRQ_PEND) = ((s.reg (evlReg Off.EVL_IRQ_PEND)).put 2 1 1).put 4 1 1 ∧
       t.reg (evlReg Off.EVL_LOST_CNT) = s.reg (evlReg Off.EVL_LOST_CNT) + natW s.evLost ∧
       regsBut [evlReg Off.EVL_WR_POS, evlReg Off.EVL_IRQ_PEND, evlReg Off.EVL_LOST_CNT] s t ∧
       t.evLost = 0 ∧
       t.evq = s.evq ∧
       t.freeN = s.freeN + 4 ∧
       changesOnly [.regs, .mem, .tmcs, .log, .ids] s t)) ∧
  (∀ (c : Fin 2) (e : Ev) (q : List Ev) (i : Nat) (s : State),
     s.inReset = false →
     fstate s ≠ 2 →
     s.evLost = 0 →
     s.evq = e :: q →
     copyUp s c = true →
     copyUp s (1 - c.val) = false →
     mirrorStat s (1 - c.val) = 1 →
     e.cont = none →
     e.sev < 4 →
     e.code ≠ EvC.PAD.code →
     e.code ≠ EvC.FLOOD.code →
     regBit s (evlReg (Off.EVL_IRQ_ROUTE e.sev)) 4 = false →
     ringPos s = i →
     Completes (.eventRecord) s (fun t =>
       t.evq = q ∧
       (∀ j < 4, t.word (tmemAddr (63 * c.val) (0xB000 + 4 * i + j)) =
         [e.ftH, e.ftL, W.at 0 23 e.node ||| W.at 23 10 e.code ||| W.at 33 2 e.sev, e.arg].getD j 0) ∧
       wordsBut ((List.range 4).map (fun j => tmemAddr (63 * c.val) (0xB000 + 4 * i + j))) s t ∧
       t.reg (evlReg (Off.EVL_MIRROR (1 - c.val))) = ((if 1 - c.val ∈ s.mirrorNone then (s.reg (evlReg (Off.EVL_MIRROR (1 - c.val)))).put 2 12 i else s.reg (evlReg (Off.EVL_MIRROR (1 - c.val)))).put 14 12 i).put 26 1
         (b2n ((s.reg (evlReg (Off.EVL_MIRROR (1 - c.val)))).bit 26 || decide (tileState s (63 * (1 - c.val)) = 3) ||
           decide (1 - c.val ∉ s.mirrorNone ∧ (s.reg (evlReg (Off.EVL_MIRROR (1 - c.val)))).fld 2 12 = i))) ∧
       t.reg (evlReg Off.EVL_WR_POS) = s.reg (evlReg Off.EVL_WR_POS) + 1 ∧
       t.reg (evlReg Off.EVL_IRQ_PEND) = (s.reg (evlReg Off.EVL_IRQ_PEND)).put e.sev 1 1 ∧
       regsBut [evlReg (Off.EVL_MIRROR (1 - c.val)), evlReg Off.EVL_WR_POS, evlReg Off.EVL_IRQ_PEND] s t ∧
       t.evLost = 0 ∧
       t.mirrorNone = s.mirrorNone.filter (fun x => decide (x ≠ 1 - c.val)) ∧
       tmcsBut (63 * c.val) s t ∧
       changesOnly [.regs, .mem, .tmcs, .log] s t)) ∧
  (∀ (c : Fin 2) (s : State),
     mirrorStat s c = 2 →
     c.val ∈ s.mirrorNone →
     regBit s (evlReg (Off.EVL_MIRROR c)) 26 = false →
     copyUp s 0 = true →
     copyUp s 1 = true →
     Completes (.mirrorGap c) s (fun t =>
       t.reg (evlReg (Off.EVL_MIRROR c)) = 0 ∧
       t.mirrorNone = s.mirrorNone.filter (fun x => decide (x ≠ c.val)) ∧
       regsBut [evlReg (Off.EVL_MIRROR c)] s t ∧
       t.evq = s.evq ∧ t.evLost = s.evLost ∧ t.evLostFirst = s.evLostFirst ∧ t.evLostLast = s.evLostLast ∧
       changesOnly [.regs, .log] s t)) ∧
  (∀ (s : State),
     s.inReset = false →
     (s.scanOn = true ∨ s.postRun = true) →
     s.scanReq = false →
     regBit s (bstReg Off.BST_ZERO_STAT) 0 = false →
     Completes .scanRequest s (fun t =>
       t.scanReq = true ∧ t.scanOn = true ∧ t.scanFell = false ∧ t.safe = true ∧
       t.reg (bstReg Off.BST_ZERO_STAT) = W.at 0 1 1 ||| W.at 3 1 1 ∧
       (∀ u < 64, (t.ta u).turn = none ∧ (t.ta u).nar = none ∧ (t.ta u).wide = none) ∧
       getFld t (mtxReg Off.MTX_RST_CNT) 24 12 = getFld s (mtxReg Off.MTX_RST_CNT) 24 12 ∧
       pieceKept s t .cores ∧ pieceKept s t .nis ∧ pieceKept s t .routers ∧ pieceKept s t .tmcs ∧
       pieceKept s t .queue ∧ pieceKept s t .mem ∧ pieceKept s t .time ∧ pieceKept s t .matrix ∧
       pieceKept s t .ports ∧ pieceKept s t .extension ∧ pieceKept s t .fuses)) ∧
  (∀ (s : State),
     s.scanOn = true →
     regBit s (bstReg Off.BST_ZERO_STAT) 0 = true →
     s.scanReq = true →
     s.scanFell = true →
     Completes .zeroizeDone s (fun t =>
       t.session = none ∧ t.hdrs = [] ∧ t.running = none ∧
       (∀ c < 2, ∀ i < 0x2000, t.word (mbxArea c 0 + i) = 0) ∧
       (∀ n, t.ni n = { s.ni n with hold := [] }) ∧
       (∀ k < 2, ∀ i < 12, t.reg (opcReg (Off.OPC_KEY_SHADOW k i)) = 0) ∧
       t.scanReq = true ∧ t.scanOn = true ∧ t.scanFell = false ∧ t.safe = true ∧
       t.reg (bstReg Off.BST_ZERO_STAT) = W.at 0 1 1 ||| W.at 3 1 1 ∧
       pieceKept s t .cores ∧ pieceKept s t .routers ∧ pieceKept s t .tmcs ∧ pieceKept s t .queue ∧
       pieceKept s t .time ∧ pieceKept s t .matrix ∧ pieceKept s t .ports ∧ pieceKept s t .extension ∧
       pieceKept s t .fuses))

/-- A step runs the command at the front of the queue on the state whose queue is the rest; on an empty queue the
block idles, which is the model's choice (log entry 1). -/
def Obligations.StepRunsCommand : Prop :=
  (∀ (c : Instr) (rest : List Instr) (s : State),
     s.pending = c :: rest →
     step s = exec c { s with pending := rest }) ∧
  (∀ (s : State),
     s.pending = [] →
     step s = .next s)

/-- From every state that has the invariant, whatever command stands at the front of its queue, the step answers a
next state, that state has the invariant, no fuse that was blown is whole again, and the queue is the rest of the
queue. -/
def Obligations.InvariantKept : Prop :=
  ∀ (s : State),
    s.inv →
    ∃ t, step s = .next t ∧ t.inv ∧ fusesKept s t ∧ t.pending = s.pending.tail

/-- The state after reset has the invariant: registers and memory in canonical form, no event, request or posted write
waiting beyond its bound. -/
def Obligations.ResetHasInvariant : Prop := State.reset.inv

/-- R41. A request, a cell or a barrier of a unit is carried at SC4 for SC6 or SC7 unless NI_CTRL.HI_SC = 1, and for
SC5 unless the tile is in Profile L; any other class stays. A response leaves with the class of its request, from a
unit, from the tile memory or from the NI itself. Out of
reset HI_SC is 1 at NI(0, 6), NI(7, 6), NI(56, 6) and NI(63, 6) only. -/
def Obligations.ClassClamped : Prop :=
  (∀ (n : NiId) (h : Head) (sc : Nat) (s : State) (c : Instr),
     c = .rd n h ∨ c = .ldres n h ∨ c = .fop n h ∨ c = .lkacq n h ∨ c = .lkrnw n h ∨ c = .lkrel n h →
     h.opcN = Opc.RD ∨ h.opcN = Opc.FOP ∨ isLock h.opcN = true →
     sc = (if 6 ≤ h.sc.toNat then (if regBit s (niReg n.idx Off.NI_CTRL) 1 = true then h.sc.toNat else 4)
           else if h.sc.toNat = 5 then (if profile s n.t = 1 then 5 else 4) else h.sc.toNat) →
     oreqTakes s n.idx h →
     quietNi (s.ni n.idx) →
     guardFails s n.idx (oreqPkt s n.idx h) = none →
     sourceMiss (regionOf s h.arga) (oreqPkt s n.idx h) = false →
     Completes c s (fun t => ∃ e q, (t.ni n.idx).stage = (s.ni n.idx).stage ++ [e] ∧ e.ch = .oreq ∧ e.pkt.sc = sc ∧
       (t.ni n.idx).outst = (s.ni n.idx).outst ++ [q] ∧ q.sc = sc)) ∧
  (∀ (n : NiId) (h : Head) (sc : Nat) (s : State) (c : Instr),
     c = .wr n h ∨ c = .stcond n h →
     h.opcN = Opc.WR →
     sc = (if 6 ≤ h.sc.toNat then (if regBit s (niReg n.idx Off.NI_CTRL) 1 = true then h.sc.toNat else 4)
           else if h.sc.toNat = 5 then (if profile s n.t = 1 then 5 else 4) else h.sc.toNat) →
     oreqTakes s n.idx h →
     (s.ni n.idx).held = [] →
     (∀ e ∈ (s.ni n.idx).oq, isWrite e.pkt = true) →
     Completes c s (fun t => ∃ e q, (t.ni n.idx).oq = (s.ni n.idx).oq ++ [e] ∧ e.pkt.sc = sc ∧
       (t.ni n.idx).outst = (s.ni n.idx).outst ++ [q] ∧ q.sc = sc)) ∧
  (∀ (n : NiId) (h : Head) (sc : Nat) (s : State),
     h.opcN = Opc.MSG →
     sc = (if 6 ≤ h.sc.toNat then (if regBit s (niReg n.idx Off.NI_CTRL) 1 = true then h.sc.toNat else 4)
           else if h.sc.toNat = 5 then (if profile s n.t = 1 then 5 else 4) else h.sc.toNat) →
     oreqTakes s n.idx h →
     quietNi (s.ni n.idx) →
     Completes (.msg n h) s (fun t => ∃ e, (t.ni n.idx).stage = (s.ni n.idx).stage ++ [e] ∧ e.pkt.sc = sc)) ∧
  (∀ (n : NiId) (h : Head) (sc : Nat) (s : State) (c : Instr),
     c = .barAgent n h ∧ h.flg.toNat % 4 = 0 ∨ c = .barTile n h ∧ h.flg.toNat % 4 = 1 ∨
       c = .barSys n h ∧ h.flg.toNat % 4 = 2 →
     h.opcN = Opc.BAR →
     sc = (if 6 ≤ h.sc.toNat then (if regBit s (niReg n.idx Off.NI_CTRL) 1 = true then h.sc.toNat else 4)
           else if h.sc.toNat = 5 then (if profile s n.t = 1 then 5 else 4) else h.sc.toNat) →
     oreqTakes s n.idx h →
     Completes c s (fun t => ∃ b, (t.ni n.idx).bar = some b ∧ b.sc = sc)) ∧
  (∀ (n : NiId) (h : Head) (sc : Nat) (k : HeldH) (rest : List HeldH) (s : State),
     h.opcN = Opc.CELL →
     sc = (if 6 ≤ h.sc.toNat then (if regBit s (niReg n.idx Off.NI_CTRL) 1 = true then h.sc.toNat else 4)
           else if h.sc.toNat = 5 then (if profile s n.t = 1 then 5 else 4) else h.sc.toNat) →
     cpoReads s n.idx h →
     refusing s n.idx = false →
     firstHeld (s.ni n.idx) (h.w0.fld 0 23) sc = some (k, rest) →
     Completes (.cell n h) s (fun t => ∃ e, (t.ni n.idx).stage = (s.ni n.idx).stage ++ [e] ∧ e.ch = .cpo ∧ e.pkt.sc = sc)) ∧
  (∀ (n : NiId) (h : Head) (sc : Nat) (e : GroupEnt) (s : State),
     h.opcN = Opc.CELLMC →
     sc = (if 6 ≤ h.sc.toNat then (if regBit s (niReg n.idx Off.NI_CTRL) 1 = true then h.sc.toNat else 4)
           else if h.sc.toNat = 5 then (if profile s n.t = 1 then 5 else 4) else h.sc.toNat) →
     cpoReads s n.idx h →
     refusing s n.idx = false →
     regBit s (niReg n.idx Off.NI_MC_CFG) 0 = true →
     cacheGet (s.ni n.idx) (h.arg.fld 0 14) = some e →
     e.valid = true →
     e.mask ≠ 0 →
     (tilesOf e.mask).foldl (fun a d => a + 2 ^ d) 0 = e.mask →
     (∀ d ∈ tilesOf e.mask, reachable s (n.idx / 7) d = true ∧ (laneGet (s.ni n.idx) d (h.arg.fld 0 14)).isSome = true) →
     (∀ d ∈ mcDests (s.ni n.idx) e.mask (h.arg.fld 0 14), credit (s.ni n.idx) d ≠ 0) →
     Completes (.cellmc n h) s (fun t => ∃ x, (t.ni n.idx).stage = (s.ni n.idx).stage ++ [x] ∧ x.ch = .cpo ∧ x.pkt.sc = sc)) ∧
  (∀ (n : NiId) (h : Head) (q : Inb) (rest : List Inb) (s : State) (c : Instr),
     c = .rdresp n h ∨ c = .wrack n h ∨ c = .fopresp n h ∨ c = .lkresp n h →
     (s.ni n.idx).urst = false →
     unitClosed s n.idx = false →
     headOk s .irsp h = true →
     findInb (s.ni n.idx) (h.w0.fld 0 23) h.tag.toNat = some (q, rest) →
     Completes c s (fun t => ∃ e, (t.ni n.idx).stage = (s.ni n.idx).stage ++ [e] ∧ e.ch = .irsp ∧ e.pkt.sc = q.sc)) ∧
  (∀ (n : NiId) (b : Bar) (s : State),
     (s.ni n.idx).bar = some b →
     barDone s b = true →
     Completes (.barrierComplete n) s (fun t => ∃ e, (t.ni n.idx).out = (s.ni n.idx).out ++ [e] ∧ e.pkt.sc = b.sc)) ∧
  (∀ (n : NiId) (h : Head) (sc : Nat) (s : State),
     h.opcN = Opc.CELL →
     sc = (if 6 ≤ h.sc.toNat then (if regBit s (niReg n.idx Off.NI_CTRL) 1 = true then h.sc.toNat else 4)
           else if h.sc.toNat = 5 then (if profile s n.t = 1 then 5 else 4) else h.sc.toNat) →
     cpoReads s n.idx h →
     refusing s n.idx = false →
     firstHeld (s.ni n.idx) (h.w0.fld 0 23) sc = none →
     (s.ni n.idx).rsv = none →
     Completes (.cell n h) s (fun t => ∃ w r, (t.ni n.idx).cell = some w ∧ w.pkt.sc = sc ∧
       (t.ni n.idx).rsv = some r ∧ r.sc = sc)) ∧
  (∀ (u : Fin 64) (r : TReq) (q : List TReq) (s : State),
     (s.tmc u).q = r :: q →
     r.via = .fabric →
     r.pkt.opc = Opc.RD →
     r.pkt.isLdres = false →
     (∀ i < r.pkt.cnt, isPoison s (tmemAddr u (offOf r.pkt + i)) = false) →
     Completes (.tmemRd u .clean) s (fun t => ∃ e, (t.ni (niOf u 5)).stage = (s.ni (niOf u 5)).stage ++ [e] ∧
       e.pkt.sc = r.pkt.sc)) ∧
  (∀ (n : NiId) (p : Pkt) (rest : List Pkt) (s : State),
     nextEject s n.idx (fun p => isUnitKind p && !forBridge n.idx p) = some (p, rest) →
     populated s n.idx = false →
     n.idx ≠ 6 ∧ n.idx ≠ 447 →
     isAccess p.opc = true →
     Completes (.inboundRequest n) s (fun t => ∃ e, (t.ni n.idx).stage = (s.ni n.idx).stage ++ [e] ∧ e.pkt.sc = p.sc)) ∧
  (∀ (n : NiId), regBit State.reset (niReg n.idx Off.NI_CTRL) 1 = true ↔
     n.p = 6 ∧ (n.t = 0 ∨ n.t = 7 ∨ n.t = 56 ∨ n.t = 63))

/-- R92. A saturated window of an output is counted, RTR_HOTSPOT_INFO shows its port index and the classes whose heads
wait there, and HOTSPOT is logged with both, unless the router has logged one within the last second: of two windows
less than a second apart at most one is logged. -/
def Obligations.HotspotLogged : Prop :=
  (∀ (u : Fin 64) (o : Fin 23) (s : State),
     readyHeads s u o ≠ [] →
     Completes (.saturatedWindow u o) s (fun t =>
       t.reg (rtrReg u Off.RTR_HOTSPOT_CNT) = (s.reg (rtrReg u Off.RTR_HOTSPOT_CNT)).satInc ∧
       getFld t (rtrReg u Off.RTR_HOTSPOT_INFO) 0 5 = o ∧
       (∀ k < 8, regBit t (rtrReg u Off.RTR_HOTSPOT_INFO) (5 + k) =
         (s.rt u).inq.any (fun f => decide (f.out = some o.val ∧ f.pkt.sc = k))) ∧
       (t.reg (rtrReg u Off.RTR_HOTSPOT_INFO)).toNat < 2 ^ 13 ∧
       regsBut [rtrReg u Off.RTR_HOTSPOT_CNT, rtrReg u Off.RTR_HOTSPOT_INFO, taReg u Off.CDC_TA_STAT, taReg u Off.CDC_TA_LOST] s t ∧
       changesOnly [.regs, .routers, .log] s t ∧
       routersBut [u.val] s t ∧
       { t.rt u with hotFc := (s.rt u).hotFc } = s.rt u)) ∧
  (∀ (u : Fin 64) (o : Fin 23) (s : State),
     readyHeads s u o ≠ [] →
     (∀ x, (s.rt u).hotFc = some x → x + 2400000000 ≤ s.fc) →
     eventPasses s (.rtr u) →
     Completes (.saturatedWindow u o) s (fun t =>
       logs s t (mkEv (ftTile s u) (nodeTP s u 5) EvC.HOTSPOT [t.reg (rtrReg u Off.RTR_HOTSPOT_INFO)]) ∧
       (t.rt u).hotFc = some s.fc)) ∧
  (∀ (u : Fin 64) (o : Fin 23) (x : Nat) (s : State),
     readyHeads s u o ≠ [] →
     (s.rt u).hotFc = some x →
     s.fc < x + 2400000000 →
     Completes (.saturatedWindow u o) s (fun t =>
       t.evq = s.evq ∧ t.evLost = s.evLost ∧ (t.rt u).hotFc = some x)) ∧
  (∀ (u : Fin 64) (o p : Fin 23) (d : Nat) (s : State),
     d < 2400000000 →
     eventPasses s (.rtr u) →
     s.evq.length < 15 →
     readyHeads s u o ≠ [] →
     readyHeads s u p ≠ [] →
     Completes (.saturatedWindow u o) s (fun t =>
       Completes (.saturatedWindow u p) { t with fc := s.fc + d } (fun w =>
         w.evq.length ≤ s.evq.length + 1)))
end

