-- ==== Sys2Proof/Laws/Guard.lean ====
section
/-!
SUPPORT. What `guardPasses` says of every access: the guard of the core refuses none of its words.
-/

namespace Sys2Proof.Machine

variable {s : State} {c g a k : Nat} {r w p : Bool}

theorem mem_coverers : k ∈ coverers s g a p ↔ k < 16 ∧ covers s g k a p = true := by
  simp [coverers]
/-- A word that an active guard passes is in at most one region, and that one permits what is needed. -/
theorem wordFails_none (h : wordFails s g a r w p = none) (hk : k ∈ coverers s g a p) :
    coverers s g a p = [k] ∧ (r = true → (grdPerm s g k).bit 0 = true) ∧ (w = true → (grdPerm s g k).bit 1 = true) := by
  unfold wordFails at h
  split at h
  · rename_i e; simp [e] at hk
  · rename_i j e
    obtain rfl : k = j := by simpa [e] using hk
    refine ⟨e, ?_⟩
    cases h0 : (grdPerm s g k).bit 0 <;> cases h1 : (grdPerm s g k).bit 1 <;> cases r <;> cases w <;> simp_all
  · simp at h
theorem firstSome_none {α β : Type} {f : α → Option β} {l : List α} (h : ∀ x ∈ l, f x = none) : firstSome f l = none := by
  induction l with
  | nil => rfl
  | cons x l ih => simp only [firstSome, h x (by simp)]; exact ih fun y hy => h y (by simp [hy])
theorem accessFails_one (ha : grdActive s g = true) (h : accessFails s g a 1 r w p = none) : wordFails s g a r w p = none := by
  cases e : wordFails s g a r w p with
  | none => rfl
  | some x => simp [accessFails, ha, firstSome, e] at h
/-- R168: the guard of a core for which `guardPasses` holds refuses no word of any access of the core. -/
theorem accessFails_of_passes (h : guardPasses s c = true) : accessFails s (448 + c) a k r w (corePriv s c) = none := by
  unfold guardPasses at h
  cases ha : grdActive s (448 + c) with
  | false => simp [accessFails, ha]
  | true =>
    simp only [ha, Bool.not_true, Bool.false_or, Bool.and_eq_true, Bool.not_eq_true', List.all_eq_true, List.mem_range,
      Bool.or_eq_true, Option.isNone_iff_eq_none] at h
    obtain ⟨hu, hs⟩ := h
    have hp : corePriv s c = true := by simp [corePriv, hu]
    have start : ∀ k x, k ∈ coverers s (448 + c) x true →
        wordFails s (448 + c) (grdStart s (448 + c) k) true true true = none := fun k x hk => by
      obtain ⟨h1, h2⟩ := mem_coverers.1 hk
      simp only [covers, Bool.and_eq_true] at h2
      exact accessFails_one ha ((hs k h1).resolve_left (by simp [h2.1.1.1]))
    have at_ : ∀ j k x, j ∈ coverers s (448 + c) x true → k ∈ coverers s (448 + c) x true →
        grdStart s (448 + c) j ≤ grdStart s (448 + c) k → j ∈ coverers s (448 + c) (grdStart s (448 + c) k) true :=
      fun j k x hj hk le => by
        rw [mem_coverers] at *
        simp only [covers, Bool.and_eq_true, decide_eq_true_eq] at *
        exact ⟨hj.1, ⟨⟨hj.2.1.1.1, le⟩, by omega⟩, hj.2.2⟩
    have one : ∀ x, wordFails s (448 + c) x r w true = none := fun x => by
      unfold wordFails
      split
      · simp
      · rename_i k e
        have hk : k ∈ coverers s (448 + c) x true := by simp [e]
        obtain ⟨-, h0, h1⟩ := wordFails_none (start k x hk) (at_ k k x hk hk (Nat.le_refl _))
        simp [h0 rfl, h1 rfl]
      · rename_i j k l e
        have hj : j ∈ coverers s (448 + c) x true := by simp [e]
        have hk : k ∈ coverers s (448 + c) x true := by simp [e]
        have ne : j ≠ k := fun q => by
          have nd : (coverers s (448 + c) x true).Nodup := List.nodup_range.filter _
          rw [e] at nd; simp [q] at nd
        rcases Nat.le_total (grdStart s (448 + c) j) (grdStart s (448 + c) k) with le | le
        · obtain ⟨e1, -⟩ := wordFails_none (start k x hk) (at_ k k x hk hk (Nat.le_refl _))
          have := at_ j k x hj hk le
          rw [e1] at this
          exact absurd (by simpa using this) ne
        · obtain ⟨e1, -⟩ := wordFails_none (start j x hj) (at_ j j x hj hj (Nat.le_refl _))
          have := at_ k j x hk hj le
          rw [e1] at this
          exact absurd (by simpa using this) (Ne.symm ne)
    rw [accessFails, if_pos ha, hp]
    exact firstSome_none fun i _ => by simp [one]

end Sys2Proof.Machine
end

