-- ==== Sys2Proof/Laws/Sparse.lean ====
section
/-!
SUPPORT. Sparse maps: a read after a write, and the canonical form, which every operation on a map keeps.
-/

namespace Sys2Proof.Sparse

variable {α : Type} {d : Nat → α} {m : Sparse α} {k j : Nat} {v : α}

theorem get_ins_same : get d (ins m k v) k = v := by
  induction m with
  | nil => simp [ins, get]
  | cons e m ih =>
    obtain ⟨i, w⟩ := e
    simp only [ins]
    split
    · simp [get]
    · split
      · simp [get]
      · rename_i h; simp [get, h, ih]

theorem get_ins_ne (h : j ≠ k) : get d (ins m k v) j = get d m j := by
  induction m with
  | nil => simp [ins, get, h]
  | cons e m ih =>
    obtain ⟨i, w⟩ := e
    simp only [ins]
    split
    · simp [get, h]
    · split
      · rename_i e; subst e; simp [get, h]
      · simp [get, ih]

theorem get_del_same : get d (del m k) k = d k := by
  induction m with
  | nil => simp [del, get]
  | cons e m ih =>
    obtain ⟨i, w⟩ := e
    simp only [del]
    split
    · exact ih
    · rename_i h; simp [get, h, ih]

theorem get_del_ne (h : j ≠ k) : get d (del m k) j = get d m j := by
  induction m with
  | nil => simp [del, get]
  | cons e m ih =>
    obtain ⟨i, w⟩ := e
    simp only [del]
    split
    · rename_i e; subst e; simp [get, h, ih]
    · simp [get, ih]

/-- A read after a write to the same key. -/
theorem get_set_same [DecidableEq α] : get d (set d m k v) k = v := by
  unfold set
  split
  · rename_i h; rw [get_del_same, h]
  · exact get_ins_same

/-- A write leaves every other key alone. -/
theorem get_set_ne [DecidableEq α] (h : j ≠ k) : get d (set d m k v) j = get d m j := by
  unfold set
  split
  · exact get_del_ne h
  · exact get_ins_ne h

/-! ### The canonical form -/

/-- The canonical form as a property of the listed entries. -/
theorem wf_iff [DecidableEq α] :
    wf d m = true ↔ (m.map Prod.fst).Pairwise (· < ·) ∧ ∀ e ∈ m, e.2 ≠ d e.1 := by
  induction m with
  | nil => simp [wf]
  | cons e m ih =>
    obtain ⟨i, w⟩ := e
    cases m with
    | nil => simp [wf]
    | cons e' m =>
      obtain ⟨i', w'⟩ := e'
      simp only [wf, Bool.and_eq_true, decide_eq_true_eq, ih, List.map_cons, List.pairwise_cons, List.mem_cons]
      constructor
      · rintro ⟨⟨hw, hi⟩, ⟨h1, h2⟩, h3⟩
        refine ⟨⟨?_, h1, h2⟩, ?_⟩
        · rintro a (rfl | ha)
          · exact hi
          · exact Nat.lt_trans hi (h1 a ha)
        · rintro e (rfl | he)
          · exact hw
          · exact h3 e he
      · rintro ⟨⟨h0, h1, h2⟩, h3⟩
        exact ⟨⟨h3 _ (Or.inl rfl), h0 _ (Or.inl rfl)⟩, ⟨h1, h2⟩, fun e he => h3 e (Or.inr he)⟩

theorem del_sublist : (del m k).Sublist m := by
  induction m with
  | nil => exact List.Sublist.refl _
  | cons e m ih =>
    obtain ⟨i, w⟩ := e
    simp only [del]
    split
    · exact ih.cons _
    · exact ih.cons_cons _

theorem wf_sublist [DecidableEq α] {m' : Sparse α} (h : m'.Sublist m) (w : wf d m = true) : wf d m' = true := by
  rw [wf_iff] at *
  exact ⟨w.1.sublist (h.map _), fun e he => w.2 e (h.subset he)⟩

theorem wf_filter [DecidableEq α] {p : Nat × α → Bool} (w : wf d m = true) : wf d (m.filter p) = true :=
  wf_sublist List.filter_sublist w

theorem mem_ins {e : Nat × α} (h : e ∈ ins m k v) : e = (k, v) ∨ e ∈ m := by
  induction m with
  | nil => simpa [ins] using h
  | cons e' m ih =>
    obtain ⟨i, w⟩ := e'
    simp only [ins] at h
    split at h
    · simpa using h
    · split at h
      · rcases List.mem_cons.1 h with h | h
        · exact Or.inl h
        · exact Or.inr (List.mem_cons_of_mem _ h)
      · rcases List.mem_cons.1 h with h | h
        · exact Or.inr (h ▸ List.mem_cons_self)
        · exact (ih h).imp id (List.mem_cons_of_mem _)

theorem pairwise_ins (h : (m.map Prod.fst).Pairwise (· < ·)) : ((ins m k v).map Prod.fst).Pairwise (· < ·) := by
  induction m with
  | nil => simp [ins]
  | cons e m ih =>
    obtain ⟨i, w⟩ := e
    simp only [List.map_cons, List.pairwise_cons] at h
    simp only [ins]
    split
    · rename_i hk
      simp only [List.map_cons, List.pairwise_cons, List.mem_cons]
      refine ⟨?_, h.1, h.2⟩
      rintro a (rfl | ha)
      · exact hk
      · exact Nat.lt_trans hk (h.1 a ha)
    · split
      · rename_i e; subst e; simpa using h
      · rename_i h1 h2
        simp only [List.map_cons, List.pairwise_cons]
        refine ⟨?_, ih h.2⟩
        intro a ha
        obtain ⟨e, he, rfl⟩ := List.mem_map.1 ha
        rcases mem_ins he with rfl | he
        · exact Nat.lt_of_le_of_ne (Nat.le_of_not_lt h1) (fun x => h2 x.symm)
        · exact h.1 _ (List.mem_map_of_mem he)

/-- Every write keeps the canonical form. -/
theorem wf_set [DecidableEq α] (w : wf d m = true) : wf d (set d m k v) = true := by
  unfold set
  split
  · exact wf_sublist del_sublist w
  · rename_i h
    rw [wf_iff] at *
    refine ⟨pairwise_ins w.1, fun e he => ?_⟩
    rcases mem_ins he with rfl | he
    · exact h
    · exact w.2 e he

end Sys2Proof.Sparse
end

