-- ==== Sys2Proof/Laws/State.lean ====
section
/-!
SUPPORT. One lemma for each field under each named update of the state, true by rfl, and what is read back after a
write, so that no later proof unfolds a record update.
-/

namespace Sys2Proof.Machine

variable {s : State} {a b n m t u k j c d : Nat} {v : W}

/-! ### State.setReg -/

@[simp] theorem State.setReg_pending : (s.setReg a v).pending = s.pending := rfl
@[simp] theorem State.setReg_mem : (s.setReg a v).mem = s.mem := rfl
@[simp] theorem State.setReg_poison : (s.setReg a v).poison = s.poison := rfl
@[simp] theorem State.setReg_nis : (s.setReg a v).nis = s.nis := rfl
@[simp] theorem State.setReg_routers : (s.setReg a v).routers = s.routers := rfl
@[simp] theorem State.setReg_tmcs : (s.setReg a v).tmcs = s.tmcs := rfl
@[simp] theorem State.setReg_agents : (s.setReg a v).agents = s.agents := rfl
@[simp] theorem State.setReg_slots : (s.setReg a v).slots = s.slots := rfl
@[simp] theorem State.setReg_cores : (s.setReg a v).cores = s.cores := rfl
@[simp] theorem State.setReg_nextId : (s.setReg a v).nextId = s.nextId := rfl
@[simp] theorem State.setReg_fc : (s.setReg a v).fc = s.fc := rfl
@[simp] theorem State.setReg_ft : (s.setReg a v).ft = s.ft := rfl
@[simp] theorem State.setReg_steps : (s.setReg a v).steps = s.steps := rfl
@[simp] theorem State.setReg_braceOn : (s.setReg a v).braceOn = s.braceOn := rfl
@[simp] theorem State.setReg_swEnd : (s.setReg a v).swEnd = s.swEnd := rfl
@[simp] theorem State.setReg_tkNone : (s.setReg a v).tkNone = s.tkNone := rfl
@[simp] theorem State.setReg_tkUnasked : (s.setReg a v).tkUnasked = s.tkUnasked := rfl
@[simp] theorem State.setReg_tkDead : (s.setReg a v).tkDead = s.tkDead := rfl
@[simp] theorem State.setReg_tkBack : (s.setReg a v).tkBack = s.tkBack := rfl
@[simp] theorem State.setReg_calN : (s.setReg a v).calN = s.calN := rfl
@[simp] theorem State.setReg_calMax : (s.setReg a v).calMax = s.calMax := rfl
@[simp] theorem State.setReg_calDue : (s.setReg a v).calDue = s.calDue := rfl
@[simp] theorem State.setReg_profDue : (s.setReg a v).profDue = s.profDue := rfl
@[simp] theorem State.setReg_warnFt : (s.setReg a v).warnFt = s.warnFt := rfl
@[simp] theorem State.setReg_launches : (s.setReg a v).launches = s.launches := rfl
@[simp] theorem State.setReg_stageQ : (s.setReg a v).stageQ = s.stageQ := rfl
@[simp] theorem State.setReg_losts : (s.setReg a v).losts = s.losts := rfl
@[simp] theorem State.setReg_aborts : (s.setReg a v).aborts = s.aborts := rfl
@[simp] theorem State.setReg_rstReq : (s.setReg a v).rstReq = s.rstReq := rfl
@[simp] theorem State.setReg_heldResets : (s.setReg a v).heldResets = s.heldResets := rfl
@[simp] theorem State.setReg_savedRegs : (s.setReg a v).savedRegs = s.savedRegs := rfl
@[simp] theorem State.setReg_heldWrites : (s.setReg a v).heldWrites = s.heldWrites := rfl
@[simp] theorem State.setReg_posted : (s.setReg a v).posted = s.posted := rfl
@[simp] theorem State.setReg_hrpQ : (s.setReg a v).hrpQ = s.hrpQ := rfl
@[simp] theorem State.setReg_dbgQ : (s.setReg a v).dbgQ = s.dbgQ := rfl
@[simp] theorem State.setReg_hrpOut : (s.setReg a v).hrpOut = s.hrpOut := rfl
@[simp] theorem State.setReg_dbgOut : (s.setReg a v).dbgOut = s.dbgOut := rfl
@[simp] theorem State.setReg_coreOut : (s.setReg a v).coreOut = s.coreOut := rfl
@[simp] theorem State.setReg_evq : (s.setReg a v).evq = s.evq := rfl
@[simp] theorem State.setReg_evLost : (s.setReg a v).evLost = s.evLost := rfl
@[simp] theorem State.setReg_evLostFirst : (s.setReg a v).evLostFirst = s.evLostFirst := rfl
@[simp] theorem State.setReg_evLostLast : (s.setReg a v).evLostLast = s.evLostLast := rfl
@[simp] theorem State.setReg_shadows : (s.setReg a v).shadows = s.shadows := rfl
@[simp] theorem State.setReg_hdrs : (s.setReg a v).hdrs = s.hdrs := rfl
@[simp] theorem State.setReg_running : (s.setReg a v).running = s.running := rfl
@[simp] theorem State.setReg_session : (s.setReg a v).session = s.session := rfl
@[simp] theorem State.setReg_tickets : (s.setReg a v).tickets = s.tickets := rfl
@[simp] theorem State.setReg_repairDue : (s.setReg a v).repairDue = s.repairDue := rfl
@[simp] theorem State.setReg_repairs : (s.setReg a v).repairs = s.repairs := rfl
@[simp] theorem State.setReg_tickLast : (s.setReg a v).tickLast = s.tickLast := rfl
@[simp] theorem State.setReg_tickApplied : (s.setReg a v).tickApplied = s.tickApplied := rfl
@[simp] theorem State.setReg_tickAborted : (s.setReg a v).tickAborted = s.tickAborted := rfl
@[simp] theorem State.setReg_tickReason : (s.setReg a v).tickReason = s.tickReason := rfl
@[simp] theorem State.setReg_tickLt : (s.setReg a v).tickLt = s.tickLt := rfl
@[simp] theorem State.setReg_pendMap : (s.setReg a v).pendMap = s.pendMap := rfl
@[simp] theorem State.setReg_fenceTicket : (s.setReg a v).fenceTicket = s.fenceTicket := rfl
@[simp] theorem State.setReg_route : (s.setReg a v).route = s.route := rfl
@[simp] theorem State.setReg_jobs : (s.setReg a v).jobs = s.jobs := rfl
@[simp] theorem State.setReg_wasEnabled : (s.setReg a v).wasEnabled = s.wasEnabled := rfl
@[simp] theorem State.setReg_groupMem : (s.setReg a v).groupMem = s.groupMem := rfl
@[simp] theorem State.setReg_checkDue : (s.setReg a v).checkDue = s.checkDue := rfl
@[simp] theorem State.setReg_slicePtr : (s.setReg a v).slicePtr = s.slicePtr := rfl
@[simp] theorem State.setReg_bankPtr : (s.setReg a v).bankPtr = s.bankPtr := rfl
@[simp] theorem State.setReg_placed : (s.setReg a v).placed = s.placed := rfl
@[simp] theorem State.setReg_staleLogged : (s.setReg a v).staleLogged = s.staleLogged := rfl
@[simp] theorem State.setReg_lastPass : (s.setReg a v).lastPass = s.lastPass := rfl
@[simp] theorem State.setReg_imgCheck : (s.setReg a v).imgCheck = s.imgCheck := rfl
@[simp] theorem State.setReg_imgReady : (s.setReg a v).imgReady = s.imgReady := rfl
@[simp] theorem State.setReg_fwLater : (s.setReg a v).fwLater = s.fwLater := rfl
@[simp] theorem State.setReg_vecKept : (s.setReg a v).vecKept = s.vecKept := rfl
@[simp] theorem State.setReg_turnFc : (s.setReg a v).turnFc = s.turnFc := rfl
@[simp] theorem State.setReg_timWait : (s.setReg a v).timWait = s.timWait := rfl
@[simp] theorem State.setReg_fuseEnd : (s.setReg a v).fuseEnd = s.fuseEnd := rfl
@[simp] theorem State.setReg_vppOk : (s.setReg a v).vppOk = s.vppOk := rfl
@[simp] theorem State.setReg_retain : (s.setReg a v).retain = s.retain := rfl
@[simp] theorem State.setReg_seqTx : (s.setReg a v).seqTx = s.seqTx := rfl
@[simp] theorem State.setReg_seqRx : (s.setReg a v).seqRx = s.seqRx := rfl
@[simp] theorem State.setReg_xin : (s.setReg a v).xin = s.xin := rfl
@[simp] theorem State.setReg_xseen : (s.setReg a v).xseen = s.xseen := rfl
@[simp] theorem State.setReg_xco : (s.setReg a v).xco = s.xco := rfl
@[simp] theorem State.setReg_xrep : (s.setReg a v).xrep = s.xrep := rfl
@[simp] theorem State.setReg_xout : (s.setReg a v).xout = s.xout := rfl
@[simp] theorem State.setReg_xcells : (s.setReg a v).xcells = s.xcells := rfl
@[simp] theorem State.setReg_frames : (s.setReg a v).frames = s.frames := rfl
@[simp] theorem State.setReg_xhistN : (s.setReg a v).xhistN = s.xhistN := rfl
@[simp] theorem State.setReg_inReset : (s.setReg a v).inReset = s.inReset := rfl
@[simp] theorem State.setReg_postRun : (s.setReg a v).postRun = s.postRun := rfl
@[simp] theorem State.setReg_safe : (s.setReg a v).safe = s.safe := rfl
@[simp] theorem State.setReg_c1Wait : (s.setReg a v).c1Wait = s.c1Wait := rfl
@[simp] theorem State.setReg_scanOn : (s.setReg a v).scanOn = s.scanOn := rfl
@[simp] theorem State.setReg_scanReq : (s.setReg a v).scanReq = s.scanReq := rfl
@[simp] theorem State.setReg_warn : (s.setReg a v).warn = s.warn := rfl
@[simp] theorem State.setReg_onCell : (s.setReg a v).onCell = s.onCell := rfl
@[simp] theorem State.setReg_aonLost : (s.setReg a v).aonLost = s.aonLost := rfl
@[simp] theorem State.setReg_braceReset : (s.setReg a v).braceReset = s.braceReset := rfl
@[simp] theorem State.setReg_postRes : (s.setReg a v).postRes = s.postRes := rfl
@[simp] theorem State.setReg_postFt : (s.setReg a v).postFt = s.postFt := rfl
@[simp] theorem State.setReg_fuseDr : (s.setReg a v).fuseDr = s.fuseDr := rfl
@[simp] theorem State.setReg_fuses : (s.setReg a v).fuses = s.fuses := rfl
@[simp] theorem State.setReg_fusesSensed : (s.setReg a v).fusesSensed = s.fusesSensed := rfl
@[simp] theorem State.setReg_freeN : (s.setReg a v).freeN = s.freeN := rfl
@[simp] theorem State.setReg_braces : (s.setReg a v).braces = s.braces := rfl
@[simp] theorem State.setReg_timDue : (s.setReg a v).timDue = s.timDue := rfl
@[simp] theorem State.setReg_scanFell : (s.setReg a v).scanFell = s.scanFell := rfl
@[simp] theorem State.setReg_mirrorNone : (s.setReg a v).mirrorNone = s.mirrorNone := rfl
@[simp] theorem State.setReg_word : (s.setReg a v).word b = s.word b := rfl
@[simp] theorem State.setReg_ni : (s.setReg a v).ni m = s.ni m := rfl
@[simp] theorem State.setReg_rt : (s.setReg a v).rt u = s.rt u := rfl
@[simp] theorem State.setReg_tmc : (s.setReg a v).tmc u = s.tmc u := rfl
@[simp] theorem State.setReg_ta : (s.setReg a v).ta u = s.ta u := rfl
@[simp] theorem State.setReg_slot : (s.setReg a v).slot j = s.slot j := rfl
@[simp] theorem State.setReg_core : (s.setReg a v).core d = s.core d := rfl
/-- What was written is read. -/
@[simp] theorem State.setReg_same : (s.setReg a v).reg a = v := Sparse.get_set_same
/-- A write elsewhere changes nothing. -/
theorem State.setReg_ne (h : b ≠ a) : (s.setReg a v).reg b = s.reg b := Sparse.get_set_ne h

/-! ### State.setWord -/

@[simp] theorem State.setWord_pending : (s.setWord a v).pending = s.pending := rfl
@[simp] theorem State.setWord_regs : (s.setWord a v).regs = s.regs := rfl
@[simp] theorem State.setWord_poison : (s.setWord a v).poison = s.poison := rfl
@[simp] theorem State.setWord_nis : (s.setWord a v).nis = s.nis := rfl
@[simp] theorem State.setWord_routers : (s.setWord a v).routers = s.routers := rfl
@[simp] theorem State.setWord_tmcs : (s.setWord a v).tmcs = s.tmcs := rfl
@[simp] theorem State.setWord_agents : (s.setWord a v).agents = s.agents := rfl
@[simp] theorem State.setWord_slots : (s.setWord a v).slots = s.slots := rfl
@[simp] theorem State.setWord_cores : (s.setWord a v).cores = s.cores := rfl
@[simp] theorem State.setWord_nextId : (s.setWord a v).nextId = s.nextId := rfl
@[simp] theorem State.setWord_fc : (s.setWord a v).fc = s.fc := rfl
@[simp] theorem State.setWord_ft : (s.setWord a v).ft = s.ft := rfl
@[simp] theorem State.setWord_steps : (s.setWord a v).steps = s.steps := rfl
@[simp] theorem State.setWord_braceOn : (s.setWord a v).braceOn = s.braceOn := rfl
@[simp] theorem State.setWord_swEnd : (s.setWord a v).swEnd = s.swEnd := rfl
@[simp] theorem State.setWord_tkNone : (s.setWord a v).tkNone = s.tkNone := rfl
@[simp] theorem State.setWord_tkUnasked : (s.setWord a v).tkUnasked = s.tkUnasked := rfl
@[simp] theorem State.setWord_tkDead : (s.setWord a v).tkDead = s.tkDead := rfl
@[simp] theorem State.setWord_tkBack : (s.setWord a v).tkBack = s.tkBack := rfl
@[simp] theorem State.setWord_calN : (s.setWord a v).calN = s.calN := rfl
@[simp] theorem State.setWord_calMax : (s.setWord a v).calMax = s.calMax := rfl
@[simp] theorem State.setWord_calDue : (s.setWord a v).calDue = s.calDue := rfl
@[simp] theorem State.setWord_profDue : (s.setWord a v).profDue = s.profDue := rfl
@[simp] theorem State.setWord_warnFt : (s.setWord a v).warnFt = s.warnFt := rfl
@[simp] theorem State.setWord_launches : (s.setWord a v).launches = s.launches := rfl
@[simp] theorem State.setWord_stageQ : (s.setWord a v).stageQ = s.stageQ := rfl
@[simp] theorem State.setWord_losts : (s.setWord a v).losts = s.losts := rfl
@[simp] theorem State.setWord_aborts : (s.setWord a v).aborts = s.aborts := rfl
@[simp] theorem State.setWord_rstReq : (s.setWord a v).rstReq = s.rstReq := rfl
@[simp] theorem State.setWord_heldResets : (s.setWord a v).heldResets = s.heldResets := rfl
@[simp] theorem State.setWord_savedRegs : (s.setWord a v).savedRegs = s.savedRegs := rfl
@[simp] theorem State.setWord_heldWrites : (s.setWord a v).heldWrites = s.heldWrites := rfl
@[simp] theorem State.setWord_posted : (s.setWord a v).posted = s.posted := rfl
@[simp] theorem State.setWord_hrpQ : (s.setWord a v).hrpQ = s.hrpQ := rfl
@[simp] theorem State.setWord_dbgQ : (s.setWord a v).dbgQ = s.dbgQ := rfl
@[simp] theorem State.setWord_hrpOut : (s.setWord a v).hrpOut = s.hrpOut := rfl
@[simp] theorem State.setWord_dbgOut : (s.setWord a v).dbgOut = s.dbgOut := rfl
@[simp] theorem State.setWord_coreOut : (s.setWord a v).coreOut = s.coreOut := rfl
@[simp] theorem State.setWord_evq : (s.setWord a v).evq = s.evq := rfl
@[simp] theorem State.setWord_evLost : (s.setWord a v).evLost = s.evLost := rfl
@[simp] theorem State.setWord_evLostFirst : (s.setWord a v).evLostFirst = s.evLostFirst := rfl
@[simp] theorem State.setWord_evLostLast : (s.setWord a v).evLostLast = s.evLostLast := rfl
@[simp] theorem State.setWord_shadows : (s.setWord a v).shadows = s.shadows := rfl
@[simp] theorem State.setWord_hdrs : (s.setWord a v).hdrs = s.hdrs := rfl
@[simp] theorem State.setWord_running : (s.setWord a v).running = s.running := rfl
@[simp] theorem State.setWord_session : (s.setWord a v).session = s.session := rfl
@[simp] theorem State.setWord_tickets : (s.setWord a v).tickets = s.tickets := rfl
@[simp] theorem State.setWord_repairDue : (s.setWord a v).repairDue = s.repairDue := rfl
@[simp] theorem State.setWord_repairs : (s.setWord a v).repairs = s.repairs := rfl
@[simp] theorem State.setWord_tickLast : (s.setWord a v).tickLast = s.tickLast := rfl
@[simp] theorem State.setWord_tickApplied : (s.setWord a v).tickApplied = s.tickApplied := rfl
@[simp] theorem State.setWord_tickAborted : (s.setWord a v).tickAborted = s.tickAborted := rfl
@[simp] theorem State.setWord_tickReason : (s.setWord a v).tickReason = s.tickReason := rfl
@[simp] theorem State.setWord_tickLt : (s.setWord a v).tickLt = s.tickLt := rfl
@[simp] theorem State.setWord_pendMap : (s.setWord a v).pendMap = s.pendMap := rfl
@[simp] theorem State.setWord_fenceTicket : (s.setWord a v).fenceTicket = s.fenceTicket := rfl
@[simp] theorem State.setWord_route : (s.setWord a v).route = s.route := rfl
@[simp] theorem State.setWord_jobs : (s.setWord a v).jobs = s.jobs := rfl
@[simp] theorem State.setWord_wasEnabled : (s.setWord a v).wasEnabled = s.wasEnabled := rfl
@[simp] theorem State.setWord_groupMem : (s.setWord a v).groupMem = s.groupMem := rfl
@[simp] theorem State.setWord_checkDue : (s.setWord a v).checkDue = s.checkDue := rfl
@[simp] theorem State.setWord_slicePtr : (s.setWord a v).slicePtr = s.slicePtr := rfl
@[simp] theorem State.setWord_bankPtr : (s.setWord a v).bankPtr = s.bankPtr := rfl
@[simp] theorem State.setWord_placed : (s.setWord a v).placed = s.placed := rfl
@[simp] theorem State.setWord_staleLogged : (s.setWord a v).staleLogged = s.staleLogged := rfl
@[simp] theorem State.setWord_lastPass : (s.setWord a v).lastPass = s.lastPass := rfl
@[simp] theorem State.setWord_imgCheck : (s.setWord a v).imgCheck = s.imgCheck := rfl
@[simp] theorem State.setWord_imgReady : (s.setWord a v).imgReady = s.imgReady := rfl
@[simp] theorem State.setWord_fwLater : (s.setWord a v).fwLater = s.fwLater := rfl
@[simp] theorem State.setWord_vecKept : (s.setWord a v).vecKept = s.vecKept := rfl
@[simp] theorem State.setWord_turnFc : (s.setWord a v).turnFc = s.turnFc := rfl
@[simp] theorem State.setWord_timWait : (s.setWord a v).timWait = s.timWait := rfl
@[simp] theorem State.setWord_fuseEnd : (s.setWord a v).fuseEnd = s.fuseEnd := rfl
@[simp] theorem State.setWord_vppOk : (s.setWord a v).vppOk = s.vppOk := rfl
@[simp] theorem State.setWord_retain : (s.setWord a v).retain = s.retain := rfl
@[simp] theorem State.setWord_seqTx : (s.setWord a v).seqTx = s.seqTx := rfl
@[simp] theorem State.setWord_seqRx : (s.setWord a v).seqRx = s.seqRx := rfl
@[simp] theorem State.setWord_xin : (s.setWord a v).xin = s.xin := rfl
@[simp] theorem State.setWord_xseen : (s.setWord a v).xseen = s.xseen := rfl
@[simp] theorem State.setWord_xco : (s.setWord a v).xco = s.xco := rfl
@[simp] theorem State.setWord_xrep : (s.setWord a v).xrep = s.xrep := rfl
@[simp] theorem State.setWord_xout : (s.setWord a v).xout = s.xout := rfl
@[simp] theorem State.setWord_xcells : (s.setWord a v).xcells = s.xcells := rfl
@[simp] theorem State.setWord_frames : (s.setWord a v).frames = s.frames := rfl
@[simp] theorem State.setWord_xhistN : (s.setWord a v).xhistN = s.xhistN := rfl
@[simp] theorem State.setWord_inReset : (s.setWord a v).inReset = s.inReset := rfl
@[simp] theorem State.setWord_postRun : (s.setWord a v).postRun = s.postRun := rfl
@[simp] theorem State.setWord_safe : (s.setWord a v).safe = s.safe := rfl
@[simp] theorem State.setWord_c1Wait : (s.setWord a v).c1Wait = s.c1Wait := rfl
@[simp] theorem State.setWord_scanOn : (s.setWord a v).scanOn = s.scanOn := rfl
@[simp] theorem State.setWord_scanReq : (s.setWord a v).scanReq = s.scanReq := rfl
@[simp] theorem State.setWord_warn : (s.setWord a v).warn = s.warn := rfl
@[simp] theorem State.setWord_onCell : (s.setWord a v).onCell = s.onCell := rfl
@[simp] theorem State.setWord_aonLost : (s.setWord a v).aonLost = s.aonLost := rfl
@[simp] theorem State.setWord_braceReset : (s.setWord a v).braceReset = s.braceReset := rfl
@[simp] theorem State.setWord_postRes : (s.setWord a v).postRes = s.postRes := rfl
@[simp] theorem State.setWord_postFt : (s.setWord a v).postFt = s.postFt := rfl
@[simp] theorem State.setWord_fuseDr : (s.setWord a v).fuseDr = s.fuseDr := rfl
@[simp] theorem State.setWord_fuses : (s.setWord a v).fuses = s.fuses := rfl
@[simp] theorem State.setWord_fusesSensed : (s.setWord a v).fusesSensed = s.fusesSensed := rfl
@[simp] theorem State.setWord_freeN : (s.setWord a v).freeN = s.freeN := rfl
@[simp] theorem State.setWord_braces : (s.setWord a v).braces = s.braces := rfl
@[simp] theorem State.setWord_timDue : (s.setWord a v).timDue = s.timDue := rfl
@[simp] theorem State.setWord_scanFell : (s.setWord a v).scanFell = s.scanFell := rfl
@[simp] theorem State.setWord_mirrorNone : (s.setWord a v).mirrorNone = s.mirrorNone := rfl
@[simp] theorem State.setWord_reg : (s.setWord a v).reg b = s.reg b := rfl
@[simp] theorem State.setWord_ni : (s.setWord a v).ni m = s.ni m := rfl
@[simp] theorem State.setWord_rt : (s.setWord a v).rt u = s.rt u := rfl
@[simp] theorem State.setWord_tmc : (s.setWord a v).tmc u = s.tmc u := rfl
@[simp] theorem State.setWord_ta : (s.setWord a v).ta u = s.ta u := rfl
@[simp] theorem State.setWord_slot : (s.setWord a v).slot j = s.slot j := rfl
@[simp] theorem State.setWord_core : (s.setWord a v).core d = s.core d := rfl
/-- What was written is read. -/
@[simp] theorem State.setWord_same : (s.setWord a v).word a = v := Sparse.get_set_same
/-- A write elsewhere changes nothing. -/
theorem State.setWord_ne (h : b ≠ a) : (s.setWord a v).word b = s.word b := Sparse.get_set_ne h

/-! ### State.setNi -/

@[simp] theorem State.setNi_pending {x} : (s.setNi n x).pending = s.pending := rfl
@[simp] theorem State.setNi_regs {x} : (s.setNi n x).regs = s.regs := rfl
@[simp] theorem State.setNi_mem {x} : (s.setNi n x).mem = s.mem := rfl
@[simp] theorem State.setNi_poison {x} : (s.setNi n x).poison = s.poison := rfl
@[simp] theorem State.setNi_routers {x} : (s.setNi n x).routers = s.routers := rfl
@[simp] theorem State.setNi_tmcs {x} : (s.setNi n x).tmcs = s.tmcs := rfl
@[simp] theorem State.setNi_agents {x} : (s.setNi n x).agents = s.agents := rfl
@[simp] theorem State.setNi_slots {x} : (s.setNi n x).slots = s.slots := rfl
@[simp] theorem State.setNi_cores {x} : (s.setNi n x).cores = s.cores := rfl
@[simp] theorem State.setNi_nextId {x} : (s.setNi n x).nextId = s.nextId := rfl
@[simp] theorem State.setNi_fc {x} : (s.setNi n x).fc = s.fc := rfl
@[simp] theorem State.setNi_ft {x} : (s.setNi n x).ft = s.ft := rfl
@[simp] theorem State.setNi_steps {x} : (s.setNi n x).steps = s.steps := rfl
@[simp] theorem State.setNi_braces {x} : (s.setNi n x).braces = s.braces := rfl
@[simp] theorem State.setNi_timDue {x} : (s.setNi n x).timDue = s.timDue := rfl
@[simp] theorem State.setNi_scanFell {x} : (s.setNi n x).scanFell = s.scanFell := rfl
@[simp] theorem State.setNi_mirrorNone {x} : (s.setNi n x).mirrorNone = s.mirrorNone := rfl
@[simp] theorem State.setNi_braceOn {x} : (s.setNi n x).braceOn = s.braceOn := rfl
@[simp] theorem State.setNi_swEnd {x} : (s.setNi n x).swEnd = s.swEnd := rfl
@[simp] theorem State.setNi_tkNone {x} : (s.setNi n x).tkNone = s.tkNone := rfl
@[simp] theorem State.setNi_tkUnasked {x} : (s.setNi n x).tkUnasked = s.tkUnasked := rfl
@[simp] theorem State.setNi_tkDead {x} : (s.setNi n x).tkDead = s.tkDead := rfl
@[simp] theorem State.setNi_tkBack {x} : (s.setNi n x).tkBack = s.tkBack := rfl
@[simp] theorem State.setNi_calN {x} : (s.setNi n x).calN = s.calN := rfl
@[simp] theorem State.setNi_calMax {x} : (s.setNi n x).calMax = s.calMax := rfl
@[simp] theorem State.setNi_calDue {x} : (s.setNi n x).calDue = s.calDue := rfl
@[simp] theorem State.setNi_profDue {x} : (s.setNi n x).profDue = s.profDue := rfl
@[simp] theorem State.setNi_warnFt {x} : (s.setNi n x).warnFt = s.warnFt := rfl
@[simp] theorem State.setNi_launches {x} : (s.setNi n x).launches = s.launches := rfl
@[simp] theorem State.setNi_stageQ {x} : (s.setNi n x).stageQ = s.stageQ := rfl
@[simp] theorem State.setNi_losts {x} : (s.setNi n x).losts = s.losts := rfl
@[simp] theorem State.setNi_aborts {x} : (s.setNi n x).aborts = s.aborts := rfl
@[simp] theorem State.setNi_rstReq {x} : (s.setNi n x).rstReq = s.rstReq := rfl
@[simp] theorem State.setNi_heldResets {x} : (s.setNi n x).heldResets = s.heldResets := rfl
@[simp] theorem State.setNi_savedRegs {x} : (s.setNi n x).savedRegs = s.savedRegs := rfl
@[simp] theorem State.setNi_heldWrites {x} : (s.setNi n x).heldWrites = s.heldWrites := rfl
@[simp] theorem State.setNi_posted {x} : (s.setNi n x).posted = s.posted := rfl
@[simp] theorem State.setNi_hrpQ {x} : (s.setNi n x).hrpQ = s.hrpQ := rfl
@[simp] theorem State.setNi_dbgQ {x} : (s.setNi n x).dbgQ = s.dbgQ := rfl
@[simp] theorem State.setNi_hrpOut {x} : (s.setNi n x).hrpOut = s.hrpOut := rfl
@[simp] theorem State.setNi_dbgOut {x} : (s.setNi n x).dbgOut = s.dbgOut := rfl
@[simp] theorem State.setNi_coreOut {x} : (s.setNi n x).coreOut = s.coreOut := rfl
@[simp] theorem State.setNi_evq {x} : (s.setNi n x).evq = s.evq := rfl
@[simp] theorem State.setNi_evLost {x} : (s.setNi n x).evLost = s.evLost := rfl
@[simp] theorem State.setNi_evLostFirst {x} : (s.setNi n x).evLostFirst = s.evLostFirst := rfl
@[simp] theorem State.setNi_evLostLast {x} : (s.setNi n x).evLostLast = s.evLostLast := rfl
@[simp] theorem State.setNi_shadows {x} : (s.setNi n x).shadows = s.shadows := rfl
@[simp] theorem State.setNi_hdrs {x} : (s.setNi n x).hdrs = s.hdrs := rfl
@[simp] theorem State.setNi_running {x} : (s.setNi n x).running = s.running := rfl
@[simp] theorem State.setNi_session {x} : (s.setNi n x).session = s.session := rfl
@[simp] theorem State.setNi_tickets {x} : (s.setNi n x).tickets = s.tickets := rfl
@[simp] theorem State.setNi_repairDue {x} : (s.setNi n x).repairDue = s.repairDue := rfl
@[simp] theorem State.setNi_repairs {x} : (s.setNi n x).repairs = s.repairs := rfl
@[simp] theorem State.setNi_tickLast {x} : (s.setNi n x).tickLast = s.tickLast := rfl
@[simp] theorem State.setNi_tickApplied {x} : (s.setNi n x).tickApplied = s.tickApplied := rfl
@[simp] theorem State.setNi_tickAborted {x} : (s.setNi n x).tickAborted = s.tickAborted := rfl
@[simp] theorem State.setNi_tickReason {x} : (s.setNi n x).tickReason = s.tickReason := rfl
@[simp] theorem State.setNi_tickLt {x} : (s.setNi n x).tickLt = s.tickLt := rfl
@[simp] theorem State.setNi_pendMap {x} : (s.setNi n x).pendMap = s.pendMap := rfl
@[simp] theorem State.setNi_fenceTicket {x} : (s.setNi n x).fenceTicket = s.fenceTicket := rfl
@[simp] theorem State.setNi_route {x} : (s.setNi n x).route = s.route := rfl
@[simp] theorem State.setNi_jobs {x} : (s.setNi n x).jobs = s.jobs := rfl
@[simp] theorem State.setNi_wasEnabled {x} : (s.setNi n x).wasEnabled = s.wasEnabled := rfl
@[simp] theorem State.setNi_groupMem {x} : (s.setNi n x).groupMem = s.groupMem := rfl
@[simp] theorem State.setNi_checkDue {x} : (s.setNi n x).checkDue = s.checkDue := rfl
@[simp] theorem State.setNi_slicePtr {x} : (s.setNi n x).slicePtr = s.slicePtr := rfl
@[simp] theorem State.setNi_bankPtr {x} : (s.setNi n x).bankPtr = s.bankPtr := rfl
@[simp] theorem State.setNi_placed {x} : (s.setNi n x).placed = s.placed := rfl
@[simp] theorem State.setNi_staleLogged {x} : (s.setNi n x).staleLogged = s.staleLogged := rfl
@[simp] theorem State.setNi_lastPass {x} : (s.setNi n x).lastPass = s.lastPass := rfl
@[simp] theorem State.setNi_imgCheck {x} : (s.setNi n x).imgCheck = s.imgCheck := rfl
@[simp] theorem State.setNi_imgReady {x} : (s.setNi n x).imgReady = s.imgReady := rfl
@[simp] theorem State.setNi_fwLater {x} : (s.setNi n x).fwLater = s.fwLater := rfl
@[simp] theorem State.setNi_vecKept {x} : (s.setNi n x).vecKept = s.vecKept := rfl
@[simp] theorem State.setNi_turnFc {x} : (s.setNi n x).turnFc = s.turnFc := rfl
@[simp] theorem State.setNi_timWait {x} : (s.setNi n x).timWait = s.timWait := rfl
@[simp] theorem State.setNi_fuseEnd {x} : (s.setNi n x).fuseEnd = s.fuseEnd := rfl
@[simp] theorem State.setNi_vppOk {x} : (s.setNi n x).vppOk = s.vppOk := rfl
@[simp] theorem State.setNi_retain {x} : (s.setNi n x).retain = s.retain := rfl
@[simp] theorem State.setNi_seqTx {x} : (s.setNi n x).seqTx = s.seqTx := rfl
@[simp] theorem State.setNi_seqRx {x} : (s.setNi n x).seqRx = s.seqRx := rfl
@[simp] theorem State.setNi_xin {x} : (s.setNi n x).xin = s.xin := rfl
@[simp] theorem State.setNi_xseen {x} : (s.setNi n x).xseen = s.xseen := rfl
@[simp] theorem State.setNi_xco {x} : (s.setNi n x).xco = s.xco := rfl
@[simp] theorem State.setNi_xrep {x} : (s.setNi n x).xrep = s.xrep := rfl
@[simp] theorem State.setNi_xout {x} : (s.setNi n x).xout = s.xout := rfl
@[simp] theorem State.setNi_xcells {x} : (s.setNi n x).xcells = s.xcells := rfl
@[simp] theorem State.setNi_frames {x} : (s.setNi n x).frames = s.frames := rfl
@[simp] theorem State.setNi_xhistN {x} : (s.setNi n x).xhistN = s.xhistN := rfl
@[simp] theorem State.setNi_inReset {x} : (s.setNi n x).inReset = s.inReset := rfl
@[simp] theorem State.setNi_postRun {x} : (s.setNi n x).postRun = s.postRun := rfl
@[simp] theorem State.setNi_safe {x} : (s.setNi n x).safe = s.safe := rfl
@[simp] theorem State.setNi_c1Wait {x} : (s.setNi n x).c1Wait = s.c1Wait := rfl
@[simp] theorem State.setNi_scanOn {x} : (s.setNi n x).scanOn = s.scanOn := rfl
@[simp] theorem State.setNi_scanReq {x} : (s.setNi n x).scanReq = s.scanReq := rfl
@[simp] theorem State.setNi_warn {x} : (s.setNi n x).warn = s.warn := rfl
@[simp] theorem State.setNi_onCell {x} : (s.setNi n x).onCell = s.onCell := rfl
@[simp] theorem State.setNi_aonLost {x} : (s.setNi n x).aonLost = s.aonLost := rfl
@[simp] theorem State.setNi_braceReset {x} : (s.setNi n x).braceReset = s.braceReset := rfl
@[simp] theorem State.setNi_postRes {x} : (s.setNi n x).postRes = s.postRes := rfl
@[simp] theorem State.setNi_postFt {x} : (s.setNi n x).postFt = s.postFt := rfl
@[simp] theorem State.setNi_fuseDr {x} : (s.setNi n x).fuseDr = s.fuseDr := rfl
@[simp] theorem State.setNi_fuses {x} : (s.setNi n x).fuses = s.fuses := rfl
@[simp] theorem State.setNi_fusesSensed {x} : (s.setNi n x).fusesSensed = s.fusesSensed := rfl
@[simp] theorem State.setNi_freeN {x} : (s.setNi n x).freeN = s.freeN := rfl
@[simp] theorem State.setNi_reg {x} : (s.setNi n x).reg b = s.reg b := rfl
@[simp] theorem State.setNi_word {x} : (s.setNi n x).word b = s.word b := rfl
@[simp] theorem State.setNi_rt {x} : (s.setNi n x).rt u = s.rt u := rfl
@[simp] theorem State.setNi_tmc {x} : (s.setNi n x).tmc u = s.tmc u := rfl
@[simp] theorem State.setNi_ta {x} : (s.setNi n x).ta u = s.ta u := rfl
@[simp] theorem State.setNi_slot {x} : (s.setNi n x).slot j = s.slot j := rfl
@[simp] theorem State.setNi_core {x} : (s.setNi n x).core d = s.core d := rfl
/-- What was written is read. -/
@[simp] theorem State.setNi_same {x} : (s.setNi n x).ni n = x := Sparse.get_set_same
/-- A write elsewhere changes nothing. -/
theorem State.setNi_ne {x} (h : m ≠ n) : (s.setNi n x).ni m = s.ni m := Sparse.get_set_ne h

/-! ### State.setRt -/

@[simp] theorem State.setRt_pending {x} : (s.setRt t x).pending = s.pending := rfl
@[simp] theorem State.setRt_regs {x} : (s.setRt t x).regs = s.regs := rfl
@[simp] theorem State.setRt_mem {x} : (s.setRt t x).mem = s.mem := rfl
@[simp] theorem State.setRt_poison {x} : (s.setRt t x).poison = s.poison := rfl
@[simp] theorem State.setRt_nis {x} : (s.setRt t x).nis = s.nis := rfl
@[simp] theorem State.setRt_tmcs {x} : (s.setRt t x).tmcs = s.tmcs := rfl
@[simp] theorem State.setRt_agents {x} : (s.setRt t x).agents = s.agents := rfl
@[simp] theorem State.setRt_slots {x} : (s.setRt t x).slots = s.slots := rfl
@[simp] theorem State.setRt_cores {x} : (s.setRt t x).cores = s.cores := rfl
@[simp] theorem State.setRt_nextId {x} : (s.setRt t x).nextId = s.nextId := rfl
@[simp] theorem State.setRt_fc {x} : (s.setRt t x).fc = s.fc := rfl
@[simp] theorem State.setRt_ft {x} : (s.setRt t x).ft = s.ft := rfl
@[simp] theorem State.setRt_steps {x} : (s.setRt t x).steps = s.steps := rfl
@[simp] theorem State.setRt_braces {x} : (s.setRt t x).braces = s.braces := rfl
@[simp] theorem State.setRt_timDue {x} : (s.setRt t x).timDue = s.timDue := rfl
@[simp] theorem State.setRt_scanFell {x} : (s.setRt t x).scanFell = s.scanFell := rfl
@[simp] theorem State.setRt_mirrorNone {x} : (s.setRt t x).mirrorNone = s.mirrorNone := rfl
@[simp] theorem State.setRt_braceOn {x} : (s.setRt t x).braceOn = s.braceOn := rfl
@[simp] theorem State.setRt_swEnd {x} : (s.setRt t x).swEnd = s.swEnd := rfl
@[simp] theorem State.setRt_tkNone {x} : (s.setRt t x).tkNone = s.tkNone := rfl
@[simp] theorem State.setRt_tkUnasked {x} : (s.setRt t x).tkUnasked = s.tkUnasked := rfl
@[simp] theorem State.setRt_tkDead {x} : (s.setRt t x).tkDead = s.tkDead := rfl
@[simp] theorem State.setRt_tkBack {x} : (s.setRt t x).tkBack = s.tkBack := rfl
@[simp] theorem State.setRt_calN {x} : (s.setRt t x).calN = s.calN := rfl
@[simp] theorem State.setRt_calMax {x} : (s.setRt t x).calMax = s.calMax := rfl
@[simp] theorem State.setRt_calDue {x} : (s.setRt t x).calDue = s.calDue := rfl
@[simp] theorem State.setRt_profDue {x} : (s.setRt t x).profDue = s.profDue := rfl
@[simp] theorem State.setRt_warnFt {x} : (s.setRt t x).warnFt = s.warnFt := rfl
@[simp] theorem State.setRt_launches {x} : (s.setRt t x).launches = s.launches := rfl
@[simp] theorem State.setRt_stageQ {x} : (s.setRt t x).stageQ = s.stageQ := rfl
@[simp] theorem State.setRt_losts {x} : (s.setRt t x).losts = s.losts := rfl
@[simp] theorem State.setRt_aborts {x} : (s.setRt t x).aborts = s.aborts := rfl
@[simp] theorem State.setRt_rstReq {x} : (s.setRt t x).rstReq = s.rstReq := rfl
@[simp] theorem State.setRt_heldResets {x} : (s.setRt t x).heldResets = s.heldResets := rfl
@[simp] theorem State.setRt_savedRegs {x} : (s.setRt t x).savedRegs = s.savedRegs := rfl
@[simp] theorem State.setRt_heldWrites {x} : (s.setRt t x).heldWrites = s.heldWrites := rfl
@[simp] theorem State.setRt_posted {x} : (s.setRt t x).posted = s.posted := rfl
@[simp] theorem State.setRt_hrpQ {x} : (s.setRt t x).hrpQ = s.hrpQ := rfl
@[simp] theorem State.setRt_dbgQ {x} : (s.setRt t x).dbgQ = s.dbgQ := rfl
@[simp] theorem State.setRt_hrpOut {x} : (s.setRt t x).hrpOut = s.hrpOut := rfl
@[simp] theorem State.setRt_dbgOut {x} : (s.setRt t x).dbgOut = s.dbgOut := rfl
@[simp] theorem State.setRt_coreOut {x} : (s.setRt t x).coreOut = s.coreOut := rfl
@[simp] theorem State.setRt_evq {x} : (s.setRt t x).evq = s.evq := rfl
@[simp] theorem State.setRt_evLost {x} : (s.setRt t x).evLost = s.evLost := rfl
@[simp] theorem State.setRt_evLostFirst {x} : (s.setRt t x).evLostFirst = s.evLostFirst := rfl
@[simp] theorem State.setRt_evLostLast {x} : (s.setRt t x).evLostLast = s.evLostLast := rfl
@[simp] theorem State.setRt_shadows {x} : (s.setRt t x).shadows = s.shadows := rfl
@[simp] theorem State.setRt_hdrs {x} : (s.setRt t x).hdrs = s.hdrs := rfl
@[simp] theorem State.setRt_running {x} : (s.setRt t x).running = s.running := rfl
@[simp] theorem State.setRt_session {x} : (s.setRt t x).session = s.session := rfl
@[simp] theorem State.setRt_tickets {x} : (s.setRt t x).tickets = s.tickets := rfl
@[simp] theorem State.setRt_repairDue {x} : (s.setRt t x).repairDue = s.repairDue := rfl
@[simp] theorem State.setRt_repairs {x} : (s.setRt t x).repairs = s.repairs := rfl
@[simp] theorem State.setRt_tickLast {x} : (s.setRt t x).tickLast = s.tickLast := rfl
@[simp] theorem State.setRt_tickApplied {x} : (s.setRt t x).tickApplied = s.tickApplied := rfl
@[simp] theorem State.setRt_tickAborted {x} : (s.setRt t x).tickAborted = s.tickAborted := rfl
@[simp] theorem State.setRt_tickReason {x} : (s.setRt t x).tickReason = s.tickReason := rfl
@[simp] theorem State.setRt_tickLt {x} : (s.setRt t x).tickLt = s.tickLt := rfl
@[simp] theorem State.setRt_pendMap {x} : (s.setRt t x).pendMap = s.pendMap := rfl
@[simp] theorem State.setRt_fenceTicket {x} : (s.setRt t x).fenceTicket = s.fenceTicket := rfl
@[simp] theorem State.setRt_route {x} : (s.setRt t x).route = s.route := rfl
@[simp] theorem State.setRt_jobs {x} : (s.setRt t x).jobs = s.jobs := rfl
@[simp] theorem State.setRt_wasEnabled {x} : (s.setRt t x).wasEnabled = s.wasEnabled := rfl
@[simp] theorem State.setRt_groupMem {x} : (s.setRt t x).groupMem = s.groupMem := rfl
@[simp] theorem State.setRt_checkDue {x} : (s.setRt t x).checkDue = s.checkDue := rfl
@[simp] theorem State.setRt_slicePtr {x} : (s.setRt t x).slicePtr = s.slicePtr := rfl
@[simp] theorem State.setRt_bankPtr {x} : (s.setRt t x).bankPtr = s.bankPtr := rfl
@[simp] theorem State.setRt_placed {x} : (s.setRt t x).placed = s.placed := rfl
@[simp] theorem State.setRt_staleLogged {x} : (s.setRt t x).staleLogged = s.staleLogged := rfl
@[simp] theorem State.setRt_lastPass {x} : (s.setRt t x).lastPass = s.lastPass := rfl
@[simp] theorem State.setRt_imgCheck {x} : (s.setRt t x).imgCheck = s.imgCheck := rfl
@[simp] theorem State.setRt_imgReady {x} : (s.setRt t x).imgReady = s.imgReady := rfl
@[simp] theorem State.setRt_fwLater {x} : (s.setRt t x).fwLater = s.fwLater := rfl
@[simp] theorem State.setRt_vecKept {x} : (s.setRt t x).vecKept = s.vecKept := rfl
@[simp] theorem State.setRt_turnFc {x} : (s.setRt t x).turnFc = s.turnFc := rfl
@[simp] theorem State.setRt_timWait {x} : (s.setRt t x).timWait = s.timWait := rfl
@[simp] theorem State.setRt_fuseEnd {x} : (s.setRt t x).fuseEnd = s.fuseEnd := rfl
@[simp] theorem State.setRt_vppOk {x} : (s.setRt t x).vppOk = s.vppOk := rfl
@[simp] theorem State.setRt_retain {x} : (s.setRt t x).retain = s.retain := rfl
@[simp] theorem State.setRt_seqTx {x} : (s.setRt t x).seqTx = s.seqTx := rfl
@[simp] theorem State.setRt_seqRx {x} : (s.setRt t x).seqRx = s.seqRx := rfl
@[simp] theorem State.setRt_xin {x} : (s.setRt t x).xin = s.xin := rfl
@[simp] theorem State.setRt_xseen {x} : (s.setRt t x).xseen = s.xseen := rfl
@[simp] theorem State.setRt_xco {x} : (s.setRt t x).xco = s.xco := rfl
@[simp] theorem State.setRt_xrep {x} : (s.setRt t x).xrep = s.xrep := rfl
@[simp] theorem State.setRt_xout {x} : (s.setRt t x).xout = s.xout := rfl
@[simp] theorem State.setRt_xcells {x} : (s.setRt t x).xcells = s.xcells := rfl
@[simp] theorem State.setRt_frames {x} : (s.setRt t x).frames = s.frames := rfl
@[simp] theorem State.setRt_xhistN {x} : (s.setRt t x).xhistN = s.xhistN := rfl
@[simp] theorem State.setRt_inReset {x} : (s.setRt t x).inReset = s.inReset := rfl
@[simp] theorem State.setRt_postRun {x} : (s.setRt t x).postRun = s.postRun := rfl
@[simp] theorem State.setRt_safe {x} : (s.setRt t x).safe = s.safe := rfl
@[simp] theorem State.setRt_c1Wait {x} : (s.setRt t x).c1Wait = s.c1Wait := rfl
@[simp] theorem State.setRt_scanOn {x} : (s.setRt t x).scanOn = s.scanOn := rfl
@[simp] theorem State.setRt_scanReq {x} : (s.setRt t x).scanReq = s.scanReq := rfl
@[simp] theorem State.setRt_warn {x} : (s.setRt t x).warn = s.warn := rfl
@[simp] theorem State.setRt_onCell {x} : (s.setRt t x).onCell = s.onCell := rfl
@[simp] theorem State.setRt_aonLost {x} : (s.setRt t x).aonLost = s.aonLost := rfl
@[simp] theorem State.setRt_braceReset {x} : (s.setRt t x).braceReset = s.braceReset := rfl
@[simp] theorem State.setRt_postRes {x} : (s.setRt t x).postRes = s.postRes := rfl
@[simp] theorem State.setRt_postFt {x} : (s.setRt t x).postFt = s.postFt := rfl
@[simp] theorem State.setRt_fuseDr {x} : (s.setRt t x).fuseDr = s.fuseDr := rfl
@[simp] theorem State.setRt_fuses {x} : (s.setRt t x).fuses = s.fuses := rfl
@[simp] theorem State.setRt_fusesSensed {x} : (s.setRt t x).fusesSensed = s.fusesSensed := rfl
@[simp] theorem State.setRt_freeN {x} : (s.setRt t x).freeN = s.freeN := rfl
@[simp] theorem State.setRt_reg {x} : (s.setRt t x).reg b = s.reg b := rfl
@[simp] theorem State.setRt_word {x} : (s.setRt t x).word b = s.word b := rfl
@[simp] theorem State.setRt_ni {x} : (s.setRt t x).ni m = s.ni m := rfl
@[simp] theorem State.setRt_tmc {x} : (s.setRt t x).tmc u = s.tmc u := rfl
@[simp] theorem State.setRt_ta {x} : (s.setRt t x).ta u = s.ta u := rfl
@[simp] theorem State.setRt_slot {x} : (s.setRt t x).slot j = s.slot j := rfl
@[simp] theorem State.setRt_core {x} : (s.setRt t x).core d = s.core d := rfl
/-- What was written is read. -/
@[simp] theorem State.setRt_same {x} : (s.setRt t x).rt t = x := Sparse.get_set_same
/-- A write elsewhere changes nothing. -/
theorem State.setRt_ne {x} (h : u ≠ t) : (s.setRt t x).rt u = s.rt u := Sparse.get_set_ne h

/-! ### State.setTmc -/

@[simp] theorem State.setTmc_pending {x} : (s.setTmc t x).pending = s.pending := rfl
@[simp] theorem State.setTmc_regs {x} : (s.setTmc t x).regs = s.regs := rfl
@[simp] theorem State.setTmc_mem {x} : (s.setTmc t x).mem = s.mem := rfl
@[simp] theorem State.setTmc_poison {x} : (s.setTmc t x).poison = s.poison := rfl
@[simp] theorem State.setTmc_nis {x} : (s.setTmc t x).nis = s.nis := rfl
@[simp] theorem State.setTmc_routers {x} : (s.setTmc t x).routers = s.routers := rfl
@[simp] theorem State.setTmc_agents {x} : (s.setTmc t x).agents = s.agents := rfl
@[simp] theorem State.setTmc_slots {x} : (s.setTmc t x).slots = s.slots := rfl
@[simp] theorem State.setTmc_cores {x} : (s.setTmc t x).cores = s.cores := rfl
@[simp] theorem State.setTmc_nextId {x} : (s.setTmc t x).nextId = s.nextId := rfl
@[simp] theorem State.setTmc_fc {x} : (s.setTmc t x).fc = s.fc := rfl
@[simp] theorem State.setTmc_ft {x} : (s.setTmc t x).ft = s.ft := rfl
@[simp] theorem State.setTmc_steps {x} : (s.setTmc t x).steps = s.steps := rfl
@[simp] theorem State.setTmc_braces {x} : (s.setTmc t x).braces = s.braces := rfl
@[simp] theorem State.setTmc_timDue {x} : (s.setTmc t x).timDue = s.timDue := rfl
@[simp] theorem State.setTmc_scanFell {x} : (s.setTmc t x).scanFell = s.scanFell := rfl
@[simp] theorem State.setTmc_mirrorNone {x} : (s.setTmc t x).mirrorNone = s.mirrorNone := rfl
@[simp] theorem State.setTmc_braceOn {x} : (s.setTmc t x).braceOn = s.braceOn := rfl
@[simp] theorem State.setTmc_swEnd {x} : (s.setTmc t x).swEnd = s.swEnd := rfl
@[simp] theorem State.setTmc_tkNone {x} : (s.setTmc t x).tkNone = s.tkNone := rfl
@[simp] theorem State.setTmc_tkUnasked {x} : (s.setTmc t x).tkUnasked = s.tkUnasked := rfl
@[simp] theorem State.setTmc_tkDead {x} : (s.setTmc t x).tkDead = s.tkDead := rfl
@[simp] theorem State.setTmc_tkBack {x} : (s.setTmc t x).tkBack = s.tkBack := rfl
@[simp] theorem State.setTmc_calN {x} : (s.setTmc t x).calN = s.calN := rfl
@[simp] theorem State.setTmc_calMax {x} : (s.setTmc t x).calMax = s.calMax := rfl
@[simp] theorem State.setTmc_calDue {x} : (s.setTmc t x).calDue = s.calDue := rfl
@[simp] theorem State.setTmc_profDue {x} : (s.setTmc t x).profDue = s.profDue := rfl
@[simp] theorem State.setTmc_warnFt {x} : (s.setTmc t x).warnFt = s.warnFt := rfl
@[simp] theorem State.setTmc_launches {x} : (s.setTmc t x).launches = s.launches := rfl
@[simp] theorem State.setTmc_stageQ {x} : (s.setTmc t x).stageQ = s.stageQ := rfl
@[simp] theorem State.setTmc_losts {x} : (s.setTmc t x).losts = s.losts := rfl
@[simp] theorem State.setTmc_aborts {x} : (s.setTmc t x).aborts = s.aborts := rfl
@[simp] theorem State.setTmc_rstReq {x} : (s.setTmc t x).rstReq = s.rstReq := rfl
@[simp] theorem State.setTmc_heldResets {x} : (s.setTmc t x).heldResets = s.heldResets := rfl
@[simp] theorem State.setTmc_savedRegs {x} : (s.setTmc t x).savedRegs = s.savedRegs := rfl
@[simp] theorem State.setTmc_heldWrites {x} : (s.setTmc t x).heldWrites = s.heldWrites := rfl
@[simp] theorem State.setTmc_posted {x} : (s.setTmc t x).posted = s.posted := rfl
@[simp] theorem State.setTmc_hrpQ {x} : (s.setTmc t x).hrpQ = s.hrpQ := rfl
@[simp] theorem State.setTmc_dbgQ {x} : (s.setTmc t x).dbgQ = s.dbgQ := rfl
@[simp] theorem State.setTmc_hrpOut {x} : (s.setTmc t x).hrpOut = s.hrpOut := rfl
@[simp] theorem State.setTmc_dbgOut {x} : (s.setTmc t x).dbgOut = s.dbgOut := rfl
@[simp] theorem State.setTmc_coreOut {x} : (s.setTmc t x).coreOut = s.coreOut := rfl
@[simp] theorem State.setTmc_evq {x} : (s.setTmc t x).evq = s.evq := rfl
@[simp] theorem State.setTmc_evLost {x} : (s.setTmc t x).evLost = s.evLost := rfl
@[simp] theorem State.setTmc_evLostFirst {x} : (s.setTmc t x).evLostFirst = s.evLostFirst := rfl
@[simp] theorem State.setTmc_evLostLast {x} : (s.setTmc t x).evLostLast = s.evLostLast := rfl
@[simp] theorem State.setTmc_shadows {x} : (s.setTmc t x).shadows = s.shadows := rfl
@[simp] theorem State.setTmc_hdrs {x} : (s.setTmc t x).hdrs = s.hdrs := rfl
@[simp] theorem State.setTmc_running {x} : (s.setTmc t x).running = s.running := rfl
@[simp] theorem State.setTmc_session {x} : (s.setTmc t x).session = s.session := rfl
@[simp] theorem State.setTmc_tickets {x} : (s.setTmc t x).tickets = s.tickets := rfl
@[simp] theorem State.setTmc_repairDue {x} : (s.setTmc t x).repairDue = s.repairDue := rfl
@[simp] theorem State.setTmc_repairs {x} : (s.setTmc t x).repairs = s.repairs := rfl
@[simp] theorem State.setTmc_tickLast {x} : (s.setTmc t x).tickLast = s.tickLast := rfl
@[simp] theorem State.setTmc_tickApplied {x} : (s.setTmc t x).tickApplied = s.tickApplied := rfl
@[simp] theorem State.setTmc_tickAborted {x} : (s.setTmc t x).tickAborted = s.tickAborted := rfl
@[simp] theorem State.setTmc_tickReason {x} : (s.setTmc t x).tickReason = s.tickReason := rfl
@[simp] theorem State.setTmc_tickLt {x} : (s.setTmc t x).tickLt = s.tickLt := rfl
@[simp] theorem State.setTmc_pendMap {x} : (s.setTmc t x).pendMap = s.pendMap := rfl
@[simp] theorem State.setTmc_fenceTicket {x} : (s.setTmc t x).fenceTicket = s.fenceTicket := rfl
@[simp] theorem State.setTmc_route {x} : (s.setTmc t x).route = s.route := rfl
@[simp] theorem State.setTmc_jobs {x} : (s.setTmc t x).jobs = s.jobs := rfl
@[simp] theorem State.setTmc_wasEnabled {x} : (s.setTmc t x).wasEnabled = s.wasEnabled := rfl
@[simp] theorem State.setTmc_groupMem {x} : (s.setTmc t x).groupMem = s.groupMem := rfl
@[simp] theorem State.setTmc_checkDue {x} : (s.setTmc t x).checkDue = s.checkDue := rfl
@[simp] theorem State.setTmc_slicePtr {x} : (s.setTmc t x).slicePtr = s.slicePtr := rfl
@[simp] theorem State.setTmc_bankPtr {x} : (s.setTmc t x).bankPtr = s.bankPtr := rfl
@[simp] theorem State.setTmc_placed {x} : (s.setTmc t x).placed = s.placed := rfl
@[simp] theorem State.setTmc_staleLogged {x} : (s.setTmc t x).staleLogged = s.staleLogged := rfl
@[simp] theorem State.setTmc_lastPass {x} : (s.setTmc t x).lastPass = s.lastPass := rfl
@[simp] theorem State.setTmc_imgCheck {x} : (s.setTmc t x).imgCheck = s.imgCheck := rfl
@[simp] theorem State.setTmc_imgReady {x} : (s.setTmc t x).imgReady = s.imgReady := rfl
@[simp] theorem State.setTmc_fwLater {x} : (s.setTmc t x).fwLater = s.fwLater := rfl
@[simp] theorem State.setTmc_vecKept {x} : (s.setTmc t x).vecKept = s.vecKept := rfl
@[simp] theorem State.setTmc_turnFc {x} : (s.setTmc t x).turnFc = s.turnFc := rfl
@[simp] theorem State.setTmc_timWait {x} : (s.setTmc t x).timWait = s.timWait := rfl
@[simp] theorem State.setTmc_fuseEnd {x} : (s.setTmc t x).fuseEnd = s.fuseEnd := rfl
@[simp] theorem State.setTmc_vppOk {x} : (s.setTmc t x).vppOk = s.vppOk := rfl
@[simp] theorem State.setTmc_retain {x} : (s.setTmc t x).retain = s.retain := rfl
@[simp] theorem State.setTmc_seqTx {x} : (s.setTmc t x).seqTx = s.seqTx := rfl
@[simp] theorem State.setTmc_seqRx {x} : (s.setTmc t x).seqRx = s.seqRx := rfl
@[simp] theorem State.setTmc_xin {x} : (s.setTmc t x).xin = s.xin := rfl
@[simp] theorem State.setTmc_xseen {x} : (s.setTmc t x).xseen = s.xseen := rfl
@[simp] theorem State.setTmc_xco {x} : (s.setTmc t x).xco = s.xco := rfl
@[simp] theorem State.setTmc_xrep {x} : (s.setTmc t x).xrep = s.xrep := rfl
@[simp] theorem State.setTmc_xout {x} : (s.setTmc t x).xout = s.xout := rfl
@[simp] theorem State.setTmc_xcells {x} : (s.setTmc t x).xcells = s.xcells := rfl
@[simp] theorem State.setTmc_frames {x} : (s.setTmc t x).frames = s.frames := rfl
@[simp] theorem State.setTmc_xhistN {x} : (s.setTmc t x).xhistN = s.xhistN := rfl
@[simp] theorem State.setTmc_inReset {x} : (s.setTmc t x).inReset = s.inReset := rfl
@[simp] theorem State.setTmc_postRun {x} : (s.setTmc t x).postRun = s.postRun := rfl
@[simp] theorem State.setTmc_safe {x} : (s.setTmc t x).safe = s.safe := rfl
@[simp] theorem State.setTmc_c1Wait {x} : (s.setTmc t x).c1Wait = s.c1Wait := rfl
@[simp] theorem State.setTmc_scanOn {x} : (s.setTmc t x).scanOn = s.scanOn := rfl
@[simp] theorem State.setTmc_scanReq {x} : (s.setTmc t x).scanReq = s.scanReq := rfl
@[simp] theorem State.setTmc_warn {x} : (s.setTmc t x).warn = s.warn := rfl
@[simp] theorem State.setTmc_onCell {x} : (s.setTmc t x).onCell = s.onCell := rfl
@[simp] theorem State.setTmc_aonLost {x} : (s.setTmc t x).aonLost = s.aonLost := rfl
@[simp] theorem State.setTmc_braceReset {x} : (s.setTmc t x).braceReset = s.braceReset := rfl
@[simp] theorem State.setTmc_postRes {x} : (s.setTmc t x).postRes = s.postRes := rfl
@[simp] theorem State.setTmc_postFt {x} : (s.setTmc t x).postFt = s.postFt := rfl
@[simp] theorem State.setTmc_fuseDr {x} : (s.setTmc t x).fuseDr = s.fuseDr := rfl
@[simp] theorem State.setTmc_fuses {x} : (s.setTmc t x).fuses = s.fuses := rfl
@[simp] theorem State.setTmc_fusesSensed {x} : (s.setTmc t x).fusesSensed = s.fusesSensed := rfl
@[simp] theorem State.setTmc_freeN {x} : (s.setTmc t x).freeN = s.freeN := rfl
@[simp] theorem State.setTmc_reg {x} : (s.setTmc t x).reg b = s.reg b := rfl
@[simp] theorem State.setTmc_word {x} : (s.setTmc t x).word b = s.word b := rfl
@[simp] theorem State.setTmc_ni {x} : (s.setTmc t x).ni m = s.ni m := rfl
@[simp] theorem State.setTmc_rt {x} : (s.setTmc t x).rt u = s.rt u := rfl
@[simp] theorem State.setTmc_ta {x} : (s.setTmc t x).ta u = s.ta u := rfl
@[simp] theorem State.setTmc_slot {x} : (s.setTmc t x).slot j = s.slot j := rfl
@[simp] theorem State.setTmc_core {x} : (s.setTmc t x).core d = s.core d := rfl
/-- What was written is read. -/
@[simp] theorem State.setTmc_same {x} : (s.setTmc t x).tmc t = x := Sparse.get_set_same
/-- A write elsewhere changes nothing. -/
theorem State.setTmc_ne {x} (h : u ≠ t) : (s.setTmc t x).tmc u = s.tmc u := Sparse.get_set_ne h

/-! ### State.setTa -/

@[simp] theorem State.setTa_pending {x} : (s.setTa t x).pending = s.pending := rfl
@[simp] theorem State.setTa_regs {x} : (s.setTa t x).regs = s.regs := rfl
@[simp] theorem State.setTa_mem {x} : (s.setTa t x).mem = s.mem := rfl
@[simp] theorem State.setTa_poison {x} : (s.setTa t x).poison = s.poison := rfl
@[simp] theorem State.setTa_nis {x} : (s.setTa t x).nis = s.nis := rfl
@[simp] theorem State.setTa_routers {x} : (s.setTa t x).routers = s.routers := rfl
@[simp] theorem State.setTa_tmcs {x} : (s.setTa t x).tmcs = s.tmcs := rfl
@[simp] theorem State.setTa_slots {x} : (s.setTa t x).slots = s.slots := rfl
@[simp] theorem State.setTa_cores {x} : (s.setTa t x).cores = s.cores := rfl
@[simp] theorem State.setTa_nextId {x} : (s.setTa t x).nextId = s.nextId := rfl
@[simp] theorem State.setTa_fc {x} : (s.setTa t x).fc = s.fc := rfl
@[simp] theorem State.setTa_ft {x} : (s.setTa t x).ft = s.ft := rfl
@[simp] theorem State.setTa_steps {x} : (s.setTa t x).steps = s.steps := rfl
@[simp] theorem State.setTa_braces {x} : (s.setTa t x).braces = s.braces := rfl
@[simp] theorem State.setTa_timDue {x} : (s.setTa t x).timDue = s.timDue := rfl
@[simp] theorem State.setTa_scanFell {x} : (s.setTa t x).scanFell = s.scanFell := rfl
@[simp] theorem State.setTa_mirrorNone {x} : (s.setTa t x).mirrorNone = s.mirrorNone := rfl
@[simp] theorem State.setTa_braceOn {x} : (s.setTa t x).braceOn = s.braceOn := rfl
@[simp] theorem State.setTa_swEnd {x} : (s.setTa t x).swEnd = s.swEnd := rfl
@[simp] theorem State.setTa_tkNone {x} : (s.setTa t x).tkNone = s.tkNone := rfl
@[simp] theorem State.setTa_tkUnasked {x} : (s.setTa t x).tkUnasked = s.tkUnasked := rfl
@[simp] theorem State.setTa_tkDead {x} : (s.setTa t x).tkDead = s.tkDead := rfl
@[simp] theorem State.setTa_tkBack {x} : (s.setTa t x).tkBack = s.tkBack := rfl
@[simp] theorem State.setTa_calN {x} : (s.setTa t x).calN = s.calN := rfl
@[simp] theorem State.setTa_calMax {x} : (s.setTa t x).calMax = s.calMax := rfl
@[simp] theorem State.setTa_calDue {x} : (s.setTa t x).calDue = s.calDue := rfl
@[simp] theorem State.setTa_profDue {x} : (s.setTa t x).profDue = s.profDue := rfl
@[simp] theorem State.setTa_warnFt {x} : (s.setTa t x).warnFt = s.warnFt := rfl
@[simp] theorem State.setTa_launches {x} : (s.setTa t x).launches = s.launches := rfl
@[simp] theorem State.setTa_stageQ {x} : (s.setTa t x).stageQ = s.stageQ := rfl
@[simp] theorem State.setTa_losts {x} : (s.setTa t x).losts = s.losts := rfl
@[simp] theorem State.setTa_aborts {x} : (s.setTa t x).aborts = s.aborts := rfl
@[simp] theorem State.setTa_rstReq {x} : (s.setTa t x).rstReq = s.rstReq := rfl
@[simp] theorem State.setTa_heldResets {x} : (s.setTa t x).heldResets = s.heldResets := rfl
@[simp] theorem State.setTa_savedRegs {x} : (s.setTa t x).savedRegs = s.savedRegs := rfl
@[simp] theorem State.setTa_heldWrites {x} : (s.setTa t x).heldWrites = s.heldWrites := rfl
@[simp] theorem State.setTa_posted {x} : (s.setTa t x).posted = s.posted := rfl
@[simp] theorem State.setTa_hrpQ {x} : (s.setTa t x).hrpQ = s.hrpQ := rfl
@[simp] theorem State.setTa_dbgQ {x} : (s.setTa t x).dbgQ = s.dbgQ := rfl
@[simp] theorem State.setTa_hrpOut {x} : (s.setTa t x).hrpOut = s.hrpOut := rfl
@[simp] theorem State.setTa_dbgOut {x} : (s.setTa t x).dbgOut = s.dbgOut := rfl
@[simp] theorem State.setTa_coreOut {x} : (s.setTa t x).coreOut = s.coreOut := rfl
@[simp] theorem State.setTa_evq {x} : (s.setTa t x).evq = s.evq := rfl
@[simp] theorem State.setTa_evLost {x} : (s.setTa t x).evLost = s.evLost := rfl
@[simp] theorem State.setTa_evLostFirst {x} : (s.setTa t x).evLostFirst = s.evLostFirst := rfl
@[simp] theorem State.setTa_evLostLast {x} : (s.setTa t x).evLostLast = s.evLostLast := rfl
@[simp] theorem State.setTa_shadows {x} : (s.setTa t x).shadows = s.shadows := rfl
@[simp] theorem State.setTa_hdrs {x} : (s.setTa t x).hdrs = s.hdrs := rfl
@[simp] theorem State.setTa_running {x} : (s.setTa t x).running = s.running := rfl
@[simp] theorem State.setTa_session {x} : (s.setTa t x).session = s.session := rfl
@[simp] theorem State.setTa_tickets {x} : (s.setTa t x).tickets = s.tickets := rfl
@[simp] theorem State.setTa_repairDue {x} : (s.setTa t x).repairDue = s.repairDue := rfl
@[simp] theorem State.setTa_repairs {x} : (s.setTa t x).repairs = s.repairs := rfl
@[simp] theorem State.setTa_tickLast {x} : (s.setTa t x).tickLast = s.tickLast := rfl
@[simp] theorem State.setTa_tickApplied {x} : (s.setTa t x).tickApplied = s.tickApplied := rfl
@[simp] theorem State.setTa_tickAborted {x} : (s.setTa t x).tickAborted = s.tickAborted := rfl
@[simp] theorem State.setTa_tickReason {x} : (s.setTa t x).tickReason = s.tickReason := rfl
@[simp] theorem State.setTa_tickLt {x} : (s.setTa t x).tickLt = s.tickLt := rfl
@[simp] theorem State.setTa_pendMap {x} : (s.setTa t x).pendMap = s.pendMap := rfl
@[simp] theorem State.setTa_fenceTicket {x} : (s.setTa t x).fenceTicket = s.fenceTicket := rfl
@[simp] theorem State.setTa_route {x} : (s.setTa t x).route = s.route := rfl
@[simp] theorem State.setTa_jobs {x} : (s.setTa t x).jobs = s.jobs := rfl
@[simp] theorem State.setTa_wasEnabled {x} : (s.setTa t x).wasEnabled = s.wasEnabled := rfl
@[simp] theorem State.setTa_groupMem {x} : (s.setTa t x).groupMem = s.groupMem := rfl
@[simp] theorem State.setTa_checkDue {x} : (s.setTa t x).checkDue = s.checkDue := rfl
@[simp] theorem State.setTa_slicePtr {x} : (s.setTa t x).slicePtr = s.slicePtr := rfl
@[simp] theorem State.setTa_bankPtr {x} : (s.setTa t x).bankPtr = s.bankPtr := rfl
@[simp] theorem State.setTa_placed {x} : (s.setTa t x).placed = s.placed := rfl
@[simp] theorem State.setTa_staleLogged {x} : (s.setTa t x).staleLogged = s.staleLogged := rfl
@[simp] theorem State.setTa_lastPass {x} : (s.setTa t x).lastPass = s.lastPass := rfl
@[simp] theorem State.setTa_imgCheck {x} : (s.setTa t x).imgCheck = s.imgCheck := rfl
@[simp] theorem State.setTa_imgReady {x} : (s.setTa t x).imgReady = s.imgReady := rfl
@[simp] theorem State.setTa_fwLater {x} : (s.setTa t x).fwLater = s.fwLater := rfl
@[simp] theorem State.setTa_vecKept {x} : (s.setTa t x).vecKept = s.vecKept := rfl
@[simp] theorem State.setTa_turnFc {x} : (s.setTa t x).turnFc = s.turnFc := rfl
@[simp] theorem State.setTa_timWait {x} : (s.setTa t x).timWait = s.timWait := rfl
@[simp] theorem State.setTa_fuseEnd {x} : (s.setTa t x).fuseEnd = s.fuseEnd := rfl
@[simp] theorem State.setTa_vppOk {x} : (s.setTa t x).vppOk = s.vppOk := rfl
@[simp] theorem State.setTa_retain {x} : (s.setTa t x).retain = s.retain := rfl
@[simp] theorem State.setTa_seqTx {x} : (s.setTa t x).seqTx = s.seqTx := rfl
@[simp] theorem State.setTa_seqRx {x} : (s.setTa t x).seqRx = s.seqRx := rfl
@[simp] theorem State.setTa_xin {x} : (s.setTa t x).xin = s.xin := rfl
@[simp] theorem State.setTa_xseen {x} : (s.setTa t x).xseen = s.xseen := rfl
@[simp] theorem State.setTa_xco {x} : (s.setTa t x).xco = s.xco := rfl
@[simp] theorem State.setTa_xrep {x} : (s.setTa t x).xrep = s.xrep := rfl
@[simp] theorem State.setTa_xout {x} : (s.setTa t x).xout = s.xout := rfl
@[simp] theorem State.setTa_xcells {x} : (s.setTa t x).xcells = s.xcells := rfl
@[simp] theorem State.setTa_frames {x} : (s.setTa t x).frames = s.frames := rfl
@[simp] theorem State.setTa_xhistN {x} : (s.setTa t x).xhistN = s.xhistN := rfl
@[simp] theorem State.setTa_inReset {x} : (s.setTa t x).inReset = s.inReset := rfl
@[simp] theorem State.setTa_postRun {x} : (s.setTa t x).postRun = s.postRun := rfl
@[simp] theorem State.setTa_safe {x} : (s.setTa t x).safe = s.safe := rfl
@[simp] theorem State.setTa_c1Wait {x} : (s.setTa t x).c1Wait = s.c1Wait := rfl
@[simp] theorem State.setTa_scanOn {x} : (s.setTa t x).scanOn = s.scanOn := rfl
@[simp] theorem State.setTa_scanReq {x} : (s.setTa t x).scanReq = s.scanReq := rfl
@[simp] theorem State.setTa_warn {x} : (s.setTa t x).warn = s.warn := rfl
@[simp] theorem State.setTa_onCell {x} : (s.setTa t x).onCell = s.onCell := rfl
@[simp] theorem State.setTa_aonLost {x} : (s.setTa t x).aonLost = s.aonLost := rfl
@[simp] theorem State.setTa_braceReset {x} : (s.setTa t x).braceReset = s.braceReset := rfl
@[simp] theorem State.setTa_postRes {x} : (s.setTa t x).postRes = s.postRes := rfl
@[simp] theorem State.setTa_postFt {x} : (s.setTa t x).postFt = s.postFt := rfl
@[simp] theorem State.setTa_fuseDr {x} : (s.setTa t x).fuseDr = s.fuseDr := rfl
@[simp] theorem State.setTa_fuses {x} : (s.setTa t x).fuses = s.fuses := rfl
@[simp] theorem State.setTa_fusesSensed {x} : (s.setTa t x).fusesSensed = s.fusesSensed := rfl
@[simp] theorem State.setTa_freeN {x} : (s.setTa t x).freeN = s.freeN := rfl
@[simp] theorem State.setTa_reg {x} : (s.setTa t x).reg b = s.reg b := rfl
@[simp] theorem State.setTa_word {x} : (s.setTa t x).word b = s.word b := rfl
@[simp] theorem State.setTa_ni {x} : (s.setTa t x).ni m = s.ni m := rfl
@[simp] theorem State.setTa_rt {x} : (s.setTa t x).rt u = s.rt u := rfl
@[simp] theorem State.setTa_tmc {x} : (s.setTa t x).tmc u = s.tmc u := rfl
@[simp] theorem State.setTa_slot {x} : (s.setTa t x).slot j = s.slot j := rfl
@[simp] theorem State.setTa_core {x} : (s.setTa t x).core d = s.core d := rfl
/-- What was written is read. -/
@[simp] theorem State.setTa_same {x} : (s.setTa t x).ta t = x := Sparse.get_set_same
/-- A write elsewhere changes nothing. -/
theorem State.setTa_ne {x} (h : u ≠ t) : (s.setTa t x).ta u = s.ta u := Sparse.get_set_ne h

/-! ### State.setSlot -/

@[simp] theorem State.setSlot_pending {x} : (s.setSlot k x).pending = s.pending := rfl
@[simp] theorem State.setSlot_regs {x} : (s.setSlot k x).regs = s.regs := rfl
@[simp] theorem State.setSlot_mem {x} : (s.setSlot k x).mem = s.mem := rfl
@[simp] theorem State.setSlot_poison {x} : (s.setSlot k x).poison = s.poison := rfl
@[simp] theorem State.setSlot_nis {x} : (s.setSlot k x).nis = s.nis := rfl
@[simp] theorem State.setSlot_routers {x} : (s.setSlot k x).routers = s.routers := rfl
@[simp] theorem State.setSlot_tmcs {x} : (s.setSlot k x).tmcs = s.tmcs := rfl
@[simp] theorem State.setSlot_agents {x} : (s.setSlot k x).agents = s.agents := rfl
@[simp] theorem State.setSlot_cores {x} : (s.setSlot k x).cores = s.cores := rfl
@[simp] theorem State.setSlot_nextId {x} : (s.setSlot k x).nextId = s.nextId := rfl
@[simp] theorem State.setSlot_fc {x} : (s.setSlot k x).fc = s.fc := rfl
@[simp] theorem State.setSlot_ft {x} : (s.setSlot k x).ft = s.ft := rfl
@[simp] theorem State.setSlot_steps {x} : (s.setSlot k x).steps = s.steps := rfl
@[simp] theorem State.setSlot_braces {x} : (s.setSlot k x).braces = s.braces := rfl
@[simp] theorem State.setSlot_timDue {x} : (s.setSlot k x).timDue = s.timDue := rfl
@[simp] theorem State.setSlot_scanFell {x} : (s.setSlot k x).scanFell = s.scanFell := rfl
@[simp] theorem State.setSlot_mirrorNone {x} : (s.setSlot k x).mirrorNone = s.mirrorNone := rfl
@[simp] theorem State.setSlot_braceOn {x} : (s.setSlot k x).braceOn = s.braceOn := rfl
@[simp] theorem State.setSlot_swEnd {x} : (s.setSlot k x).swEnd = s.swEnd := rfl
@[simp] theorem State.setSlot_tkNone {x} : (s.setSlot k x).tkNone = s.tkNone := rfl
@[simp] theorem State.setSlot_tkUnasked {x} : (s.setSlot k x).tkUnasked = s.tkUnasked := rfl
@[simp] theorem State.setSlot_tkDead {x} : (s.setSlot k x).tkDead = s.tkDead := rfl
@[simp] theorem State.setSlot_tkBack {x} : (s.setSlot k x).tkBack = s.tkBack := rfl
@[simp] theorem State.setSlot_calN {x} : (s.setSlot k x).calN = s.calN := rfl
@[simp] theorem State.setSlot_calMax {x} : (s.setSlot k x).calMax = s.calMax := rfl
@[simp] theorem State.setSlot_calDue {x} : (s.setSlot k x).calDue = s.calDue := rfl
@[simp] theorem State.setSlot_profDue {x} : (s.setSlot k x).profDue = s.profDue := rfl
@[simp] theorem State.setSlot_warnFt {x} : (s.setSlot k x).warnFt = s.warnFt := rfl
@[simp] theorem State.setSlot_launches {x} : (s.setSlot k x).launches = s.launches := rfl
@[simp] theorem State.setSlot_stageQ {x} : (s.setSlot k x).stageQ = s.stageQ := rfl
@[simp] theorem State.setSlot_losts {x} : (s.setSlot k x).losts = s.losts := rfl
@[simp] theorem State.setSlot_aborts {x} : (s.setSlot k x).aborts = s.aborts := rfl
@[simp] theorem State.setSlot_rstReq {x} : (s.setSlot k x).rstReq = s.rstReq := rfl
@[simp] theorem State.setSlot_heldResets {x} : (s.setSlot k x).heldResets = s.heldResets := rfl
@[simp] theorem State.setSlot_savedRegs {x} : (s.setSlot k x).savedRegs = s.savedRegs := rfl
@[simp] theorem State.setSlot_heldWrites {x} : (s.setSlot k x).heldWrites = s.heldWrites := rfl
@[simp] theorem State.setSlot_posted {x} : (s.setSlot k x).posted = s.posted := rfl
@[simp] theorem State.setSlot_hrpQ {x} : (s.setSlot k x).hrpQ = s.hrpQ := rfl
@[simp] theorem State.setSlot_dbgQ {x} : (s.setSlot k x).dbgQ = s.dbgQ := rfl
@[simp] theorem State.setSlot_hrpOut {x} : (s.setSlot k x).hrpOut = s.hrpOut := rfl
@[simp] theorem State.setSlot_dbgOut {x} : (s.setSlot k x).dbgOut = s.dbgOut := rfl
@[simp] theorem State.setSlot_coreOut {x} : (s.setSlot k x).coreOut = s.coreOut := rfl
@[simp] theorem State.setSlot_evq {x} : (s.setSlot k x).evq = s.evq := rfl
@[simp] theorem State.setSlot_evLost {x} : (s.setSlot k x).evLost = s.evLost := rfl
@[simp] theorem State.setSlot_evLostFirst {x} : (s.setSlot k x).evLostFirst = s.evLostFirst := rfl
@[simp] theorem State.setSlot_evLostLast {x} : (s.setSlot k x).evLostLast = s.evLostLast := rfl
@[simp] theorem State.setSlot_shadows {x} : (s.setSlot k x).shadows = s.shadows := rfl
@[simp] theorem State.setSlot_hdrs {x} : (s.setSlot k x).hdrs = s.hdrs := rfl
@[simp] theorem State.setSlot_running {x} : (s.setSlot k x).running = s.running := rfl
@[simp] theorem State.setSlot_session {x} : (s.setSlot k x).session = s.session := rfl
@[simp] theorem State.setSlot_tickets {x} : (s.setSlot k x).tickets = s.tickets := rfl
@[simp] theorem State.setSlot_repairDue {x} : (s.setSlot k x).repairDue = s.repairDue := rfl
@[simp] theorem State.setSlot_repairs {x} : (s.setSlot k x).repairs = s.repairs := rfl
@[simp] theorem State.setSlot_tickLast {x} : (s.setSlot k x).tickLast = s.tickLast := rfl
@[simp] theorem State.setSlot_tickApplied {x} : (s.setSlot k x).tickApplied = s.tickApplied := rfl
@[simp] theorem State.setSlot_tickAborted {x} : (s.setSlot k x).tickAborted = s.tickAborted := rfl
@[simp] theorem State.setSlot_tickReason {x} : (s.setSlot k x).tickReason = s.tickReason := rfl
@[simp] theorem State.setSlot_tickLt {x} : (s.setSlot k x).tickLt = s.tickLt := rfl
@[simp] theorem State.setSlot_pendMap {x} : (s.setSlot k x).pendMap = s.pendMap := rfl
@[simp] theorem State.setSlot_fenceTicket {x} : (s.setSlot k x).fenceTicket = s.fenceTicket := rfl
@[simp] theorem State.setSlot_route {x} : (s.setSlot k x).route = s.route := rfl
@[simp] theorem State.setSlot_jobs {x} : (s.setSlot k x).jobs = s.jobs := rfl
@[simp] theorem State.setSlot_wasEnabled {x} : (s.setSlot k x).wasEnabled = s.wasEnabled := rfl
@[simp] theorem State.setSlot_groupMem {x} : (s.setSlot k x).groupMem = s.groupMem := rfl
@[simp] theorem State.setSlot_checkDue {x} : (s.setSlot k x).checkDue = s.checkDue := rfl
@[simp] theorem State.setSlot_slicePtr {x} : (s.setSlot k x).slicePtr = s.slicePtr := rfl
@[simp] theorem State.setSlot_bankPtr {x} : (s.setSlot k x).bankPtr = s.bankPtr := rfl
@[simp] theorem State.setSlot_placed {x} : (s.setSlot k x).placed = s.placed := rfl
@[simp] theorem State.setSlot_staleLogged {x} : (s.setSlot k x).staleLogged = s.staleLogged := rfl
@[simp] theorem State.setSlot_lastPass {x} : (s.setSlot k x).lastPass = s.lastPass := rfl
@[simp] theorem State.setSlot_imgCheck {x} : (s.setSlot k x).imgCheck = s.imgCheck := rfl
@[simp] theorem State.setSlot_imgReady {x} : (s.setSlot k x).imgReady = s.imgReady := rfl
@[simp] theorem State.setSlot_fwLater {x} : (s.setSlot k x).fwLater = s.fwLater := rfl
@[simp] theorem State.setSlot_vecKept {x} : (s.setSlot k x).vecKept = s.vecKept := rfl
@[simp] theorem State.setSlot_turnFc {x} : (s.setSlot k x).turnFc = s.turnFc := rfl
@[simp] theorem State.setSlot_timWait {x} : (s.setSlot k x).timWait = s.timWait := rfl
@[simp] theorem State.setSlot_fuseEnd {x} : (s.setSlot k x).fuseEnd = s.fuseEnd := rfl
@[simp] theorem State.setSlot_vppOk {x} : (s.setSlot k x).vppOk = s.vppOk := rfl
@[simp] theorem State.setSlot_retain {x} : (s.setSlot k x).retain = s.retain := rfl
@[simp] theorem State.setSlot_seqTx {x} : (s.setSlot k x).seqTx = s.seqTx := rfl
@[simp] theorem State.setSlot_seqRx {x} : (s.setSlot k x).seqRx = s.seqRx := rfl
@[simp] theorem State.setSlot_xin {x} : (s.setSlot k x).xin = s.xin := rfl
@[simp] theorem State.setSlot_xseen {x} : (s.setSlot k x).xseen = s.xseen := rfl
@[simp] theorem State.setSlot_xco {x} : (s.setSlot k x).xco = s.xco := rfl
@[simp] theorem State.setSlot_xrep {x} : (s.setSlot k x).xrep = s.xrep := rfl
@[simp] theorem State.setSlot_xout {x} : (s.setSlot k x).xout = s.xout := rfl
@[simp] theorem State.setSlot_xcells {x} : (s.setSlot k x).xcells = s.xcells := rfl
@[simp] theorem State.setSlot_frames {x} : (s.setSlot k x).frames = s.frames := rfl
@[simp] theorem State.setSlot_xhistN {x} : (s.setSlot k x).xhistN = s.xhistN := rfl
@[simp] theorem State.setSlot_inReset {x} : (s.setSlot k x).inReset = s.inReset := rfl
@[simp] theorem State.setSlot_postRun {x} : (s.setSlot k x).postRun = s.postRun := rfl
@[simp] theorem State.setSlot_safe {x} : (s.setSlot k x).safe = s.safe := rfl
@[simp] theorem State.setSlot_c1Wait {x} : (s.setSlot k x).c1Wait = s.c1Wait := rfl
@[simp] theorem State.setSlot_scanOn {x} : (s.setSlot k x).scanOn = s.scanOn := rfl
@[simp] theorem State.setSlot_scanReq {x} : (s.setSlot k x).scanReq = s.scanReq := rfl
@[simp] theorem State.setSlot_warn {x} : (s.setSlot k x).warn = s.warn := rfl
@[simp] theorem State.setSlot_onCell {x} : (s.setSlot k x).onCell = s.onCell := rfl
@[simp] theorem State.setSlot_aonLost {x} : (s.setSlot k x).aonLost = s.aonLost := rfl
@[simp] theorem State.setSlot_braceReset {x} : (s.setSlot k x).braceReset = s.braceReset := rfl
@[simp] theorem State.setSlot_postRes {x} : (s.setSlot k x).postRes = s.postRes := rfl
@[simp] theorem State.setSlot_postFt {x} : (s.setSlot k x).postFt = s.postFt := rfl
@[simp] theorem State.setSlot_fuseDr {x} : (s.setSlot k x).fuseDr = s.fuseDr := rfl
@[simp] theorem State.setSlot_fuses {x} : (s.setSlot k x).fuses = s.fuses := rfl
@[simp] theorem State.setSlot_fusesSensed {x} : (s.setSlot k x).fusesSensed = s.fusesSensed := rfl
@[simp] theorem State.setSlot_freeN {x} : (s.setSlot k x).freeN = s.freeN := rfl
@[simp] theorem State.setSlot_reg {x} : (s.setSlot k x).reg b = s.reg b := rfl
@[simp] theorem State.setSlot_word {x} : (s.setSlot k x).word b = s.word b := rfl
@[simp] theorem State.setSlot_ni {x} : (s.setSlot k x).ni m = s.ni m := rfl
@[simp] theorem State.setSlot_rt {x} : (s.setSlot k x).rt u = s.rt u := rfl
@[simp] theorem State.setSlot_tmc {x} : (s.setSlot k x).tmc u = s.tmc u := rfl
@[simp] theorem State.setSlot_ta {x} : (s.setSlot k x).ta u = s.ta u := rfl
@[simp] theorem State.setSlot_core {x} : (s.setSlot k x).core d = s.core d := rfl
/-- What was written is read. -/
@[simp] theorem State.setSlot_same {x} : (s.setSlot k x).slot k = x := Sparse.get_set_same
/-- A write elsewhere changes nothing. -/
theorem State.setSlot_ne {x} (h : j ≠ k) : (s.setSlot k x).slot j = s.slot j := Sparse.get_set_ne h

/-! ### State.setCore -/

@[simp] theorem State.setCore_pending {x} : (s.setCore c x).pending = s.pending := rfl
@[simp] theorem State.setCore_regs {x} : (s.setCore c x).regs = s.regs := rfl
@[simp] theorem State.setCore_mem {x} : (s.setCore c x).mem = s.mem := rfl
@[simp] theorem State.setCore_poison {x} : (s.setCore c x).poison = s.poison := rfl
@[simp] theorem State.setCore_nis {x} : (s.setCore c x).nis = s.nis := rfl
@[simp] theorem State.setCore_routers {x} : (s.setCore c x).routers = s.routers := rfl
@[simp] theorem State.setCore_tmcs {x} : (s.setCore c x).tmcs = s.tmcs := rfl
@[simp] theorem State.setCore_agents {x} : (s.setCore c x).agents = s.agents := rfl
@[simp] theorem State.setCore_slots {x} : (s.setCore c x).slots = s.slots := rfl
@[simp] theorem State.setCore_nextId {x} : (s.setCore c x).nextId = s.nextId := rfl
@[simp] theorem State.setCore_fc {x} : (s.setCore c x).fc = s.fc := rfl
@[simp] theorem State.setCore_ft {x} : (s.setCore c x).ft = s.ft := rfl
@[simp] theorem State.setCore_steps {x} : (s.setCore c x).steps = s.steps := rfl
@[simp] theorem State.setCore_braces {x} : (s.setCore c x).braces = s.braces := rfl
@[simp] theorem State.setCore_timDue {x} : (s.setCore c x).timDue = s.timDue := rfl
@[simp] theorem State.setCore_scanFell {x} : (s.setCore c x).scanFell = s.scanFell := rfl
@[simp] theorem State.setCore_mirrorNone {x} : (s.setCore c x).mirrorNone = s.mirrorNone := rfl
@[simp] theorem State.setCore_braceOn {x} : (s.setCore c x).braceOn = s.braceOn := rfl
@[simp] theorem State.setCore_swEnd {x} : (s.setCore c x).swEnd = s.swEnd := rfl
@[simp] theorem State.setCore_tkNone {x} : (s.setCore c x).tkNone = s.tkNone := rfl
@[simp] theorem State.setCore_tkUnasked {x} : (s.setCore c x).tkUnasked = s.tkUnasked := rfl
@[simp] theorem State.setCore_tkDead {x} : (s.setCore c x).tkDead = s.tkDead := rfl
@[simp] theorem State.setCore_tkBack {x} : (s.setCore c x).tkBack = s.tkBack := rfl
@[simp] theorem State.setCore_calN {x} : (s.setCore c x).calN = s.calN := rfl
@[simp] theorem State.setCore_calMax {x} : (s.setCore c x).calMax = s.calMax := rfl
@[simp] theorem State.setCore_calDue {x} : (s.setCore c x).calDue = s.calDue := rfl
@[simp] theorem State.setCore_profDue {x} : (s.setCore c x).profDue = s.profDue := rfl
@[simp] theorem State.setCore_warnFt {x} : (s.setCore c x).warnFt = s.warnFt := rfl
@[simp] theorem State.setCore_launches {x} : (s.setCore c x).launches = s.launches := rfl
@[simp] theorem State.setCore_stageQ {x} : (s.setCore c x).stageQ = s.stageQ := rfl
@[simp] theorem State.setCore_losts {x} : (s.setCore c x).losts = s.losts := rfl
@[simp] theorem State.setCore_aborts {x} : (s.setCore c x).aborts = s.aborts := rfl
@[simp] theorem State.setCore_rstReq {x} : (s.setCore c x).rstReq = s.rstReq := rfl
@[simp] theorem State.setCore_heldResets {x} : (s.setCore c x).heldResets = s.heldResets := rfl
@[simp] theorem State.setCore_savedRegs {x} : (s.setCore c x).savedRegs = s.savedRegs := rfl
@[simp] theorem State.setCore_heldWrites {x} : (s.setCore c x).heldWrites = s.heldWrites := rfl
@[simp] theorem State.setCore_posted {x} : (s.setCore c x).posted = s.posted := rfl
@[simp] theorem State.setCore_hrpQ {x} : (s.setCore c x).hrpQ = s.hrpQ := rfl
@[simp] theorem State.setCore_dbgQ {x} : (s.setCore c x).dbgQ = s.dbgQ := rfl
@[simp] theorem State.setCore_hrpOut {x} : (s.setCore c x).hrpOut = s.hrpOut := rfl
@[simp] theorem State.setCore_dbgOut {x} : (s.setCore c x).dbgOut = s.dbgOut := rfl
@[simp] theorem State.setCore_coreOut {x} : (s.setCore c x).coreOut = s.coreOut := rfl
@[simp] theorem State.setCore_evq {x} : (s.setCore c x).evq = s.evq := rfl
@[simp] theorem State.setCore_evLost {x} : (s.setCore c x).evLost = s.evLost := rfl
@[simp] theorem State.setCore_evLostFirst {x} : (s.setCore c x).evLostFirst = s.evLostFirst := rfl
@[simp] theorem State.setCore_evLostLast {x} : (s.setCore c x).evLostLast = s.evLostLast := rfl
@[simp] theorem State.setCore_shadows {x} : (s.setCore c x).shadows = s.shadows := rfl
@[simp] theorem State.setCore_hdrs {x} : (s.setCore c x).hdrs = s.hdrs := rfl
@[simp] theorem State.setCore_running {x} : (s.setCore c x).running = s.running := rfl
@[simp] theorem State.setCore_session {x} : (s.setCore c x).session = s.session := rfl
@[simp] theorem State.setCore_tickets {x} : (s.setCore c x).tickets = s.tickets := rfl
@[simp] theorem State.setCore_repairDue {x} : (s.setCore c x).repairDue = s.repairDue := rfl
@[simp] theorem State.setCore_repairs {x} : (s.setCore c x).repairs = s.repairs := rfl
@[simp] theorem State.setCore_tickLast {x} : (s.setCore c x).tickLast = s.tickLast := rfl
@[simp] theorem State.setCore_tickApplied {x} : (s.setCore c x).tickApplied = s.tickApplied := rfl
@[simp] theorem State.setCore_tickAborted {x} : (s.setCore c x).tickAborted = s.tickAborted := rfl
@[simp] theorem State.setCore_tickReason {x} : (s.setCore c x).tickReason = s.tickReason := rfl
@[simp] theorem State.setCore_tickLt {x} : (s.setCore c x).tickLt = s.tickLt := rfl
@[simp] theorem State.setCore_pendMap {x} : (s.setCore c x).pendMap = s.pendMap := rfl
@[simp] theorem State.setCore_fenceTicket {x} : (s.setCore c x).fenceTicket = s.fenceTicket := rfl
@[simp] theorem State.setCore_route {x} : (s.setCore c x).route = s.route := rfl
@[simp] theorem State.setCore_jobs {x} : (s.setCore c x).jobs = s.jobs := rfl
@[simp] theorem State.setCore_wasEnabled {x} : (s.setCore c x).wasEnabled = s.wasEnabled := rfl
@[simp] theorem State.setCore_groupMem {x} : (s.setCore c x).groupMem = s.groupMem := rfl
@[simp] theorem State.setCore_checkDue {x} : (s.setCore c x).checkDue = s.checkDue := rfl
@[simp] theorem State.setCore_slicePtr {x} : (s.setCore c x).slicePtr = s.slicePtr := rfl
@[simp] theorem State.setCore_bankPtr {x} : (s.setCore c x).bankPtr = s.bankPtr := rfl
@[simp] theorem State.setCore_placed {x} : (s.setCore c x).placed = s.placed := rfl
@[simp] theorem State.setCore_staleLogged {x} : (s.setCore c x).staleLogged = s.staleLogged := rfl
@[simp] theorem State.setCore_lastPass {x} : (s.setCore c x).lastPass = s.lastPass := rfl
@[simp] theorem State.setCore_imgCheck {x} : (s.setCore c x).imgCheck = s.imgCheck := rfl
@[simp] theorem State.setCore_imgReady {x} : (s.setCore c x).imgReady = s.imgReady := rfl
@[simp] theorem State.setCore_fwLater {x} : (s.setCore c x).fwLater = s.fwLater := rfl
@[simp] theorem State.setCore_vecKept {x} : (s.setCore c x).vecKept = s.vecKept := rfl
@[simp] theorem State.setCore_turnFc {x} : (s.setCore c x).turnFc = s.turnFc := rfl
@[simp] theorem State.setCore_timWait {x} : (s.setCore c x).timWait = s.timWait := rfl
@[simp] theorem State.setCore_fuseEnd {x} : (s.setCore c x).fuseEnd = s.fuseEnd := rfl
@[simp] theorem State.setCore_vppOk {x} : (s.setCore c x).vppOk = s.vppOk := rfl
@[simp] theorem State.setCore_retain {x} : (s.setCore c x).retain = s.retain := rfl
@[simp] theorem State.setCore_seqTx {x} : (s.setCore c x).seqTx = s.seqTx := rfl
@[simp] theorem State.setCore_seqRx {x} : (s.setCore c x).seqRx = s.seqRx := rfl
@[simp] theorem State.setCore_xin {x} : (s.setCore c x).xin = s.xin := rfl
@[simp] theorem State.setCore_xseen {x} : (s.setCore c x).xseen = s.xseen := rfl
@[simp] theorem State.setCore_xco {x} : (s.setCore c x).xco = s.xco := rfl
@[simp] theorem State.setCore_xrep {x} : (s.setCore c x).xrep = s.xrep := rfl
@[simp] theorem State.setCore_xout {x} : (s.setCore c x).xout = s.xout := rfl
@[simp] theorem State.setCore_xcells {x} : (s.setCore c x).xcells = s.xcells := rfl
@[simp] theorem State.setCore_frames {x} : (s.setCore c x).frames = s.frames := rfl
@[simp] theorem State.setCore_xhistN {x} : (s.setCore c x).xhistN = s.xhistN := rfl
@[simp] theorem State.setCore_inReset {x} : (s.setCore c x).inReset = s.inReset := rfl
@[simp] theorem State.setCore_postRun {x} : (s.setCore c x).postRun = s.postRun := rfl
@[simp] theorem State.setCore_safe {x} : (s.setCore c x).safe = s.safe := rfl
@[simp] theorem State.setCore_c1Wait {x} : (s.setCore c x).c1Wait = s.c1Wait := rfl
@[simp] theorem State.setCore_scanOn {x} : (s.setCore c x).scanOn = s.scanOn := rfl
@[simp] theorem State.setCore_scanReq {x} : (s.setCore c x).scanReq = s.scanReq := rfl
@[simp] theorem State.setCore_warn {x} : (s.setCore c x).warn = s.warn := rfl
@[simp] theorem State.setCore_onCell {x} : (s.setCore c x).onCell = s.onCell := rfl
@[simp] theorem State.setCore_aonLost {x} : (s.setCore c x).aonLost = s.aonLost := rfl
@[simp] theorem State.setCore_braceReset {x} : (s.setCore c x).braceReset = s.braceReset := rfl
@[simp] theorem State.setCore_postRes {x} : (s.setCore c x).postRes = s.postRes := rfl
@[simp] theorem State.setCore_postFt {x} : (s.setCore c x).postFt = s.postFt := rfl
@[simp] theorem State.setCore_fuseDr {x} : (s.setCore c x).fuseDr = s.fuseDr := rfl
@[simp] theorem State.setCore_fuses {x} : (s.setCore c x).fuses = s.fuses := rfl
@[simp] theorem State.setCore_fusesSensed {x} : (s.setCore c x).fusesSensed = s.fusesSensed := rfl
@[simp] theorem State.setCore_freeN {x} : (s.setCore c x).freeN = s.freeN := rfl
@[simp] theorem State.setCore_reg {x} : (s.setCore c x).reg b = s.reg b := rfl
@[simp] theorem State.setCore_word {x} : (s.setCore c x).word b = s.word b := rfl
@[simp] theorem State.setCore_ni {x} : (s.setCore c x).ni m = s.ni m := rfl
@[simp] theorem State.setCore_rt {x} : (s.setCore c x).rt u = s.rt u := rfl
@[simp] theorem State.setCore_tmc {x} : (s.setCore c x).tmc u = s.tmc u := rfl
@[simp] theorem State.setCore_ta {x} : (s.setCore c x).ta u = s.ta u := rfl
@[simp] theorem State.setCore_slot {x} : (s.setCore c x).slot j = s.slot j := rfl
/-- What was written is read. -/
@[simp] theorem State.setCore_same {x} : (s.setCore c x).core c = x := Sparse.get_set_same
/-- A write elsewhere changes nothing. -/
theorem State.setCore_ne {x} (h : d ≠ c) : (s.setCore c x).core d = s.core d := Sparse.get_set_ne h

/-! ### The canonical form of memory and of the registers -/

/-- The one operation that writes a word of memory keeps the canonical form. -/
theorem Memory.wf_setWord (h : Memory.wf s.mem = true) : Memory.wf (s.setWord a v).mem = true := Sparse.wf_set h
theorem Memory.wf_filter {m : Sparse W} {p : Nat × W → Bool} (h : Memory.wf m = true) : Memory.wf (m.filter p) = true :=
  Sparse.wf_filter h
theorem Regs.wf_setReg (h : Regs.wf s.regs = true) : Regs.wf (s.setReg a v).regs = true := Sparse.wf_set h
theorem Memory.wf_reset : Memory.wf State.reset.mem = true := rfl

end Sys2Proof.Machine
end

