-- ==== Sys2Proof/Laws/Up.lean ====
section
/-!
SUPPORT. What every operation of the model keeps, said once: `Up o s` says that `s`, reached from `o`, has the
queue of commands of `o`, every fuse of `o` blown, and the invariant if `o` has it. The lemmas of
Laws/Keeps.lean carry it through every operation; a later proof cites the lemma of the operation it meets.
-/

namespace Sys2Proof.Machine

variable {o s t : State}

/-- The parts of a state that `Up` speaks of. -/
def UpF (o : State) (p : List Instr) (f : Nat) (r m : Sparse W) (q : List Ev) (h : List PortReq) (w : List Posted) : Prop :=
  p = o.pending ∧ (∀ b, o.fuses.testBit b = true → f.testBit b = true) ∧
  (o.inv → Regs.wf r = true ∧ Memory.wf m = true ∧ q.length ≤ 16 ∧ h.length ≤ 4 ∧ w.length ≤ 16)

def Up (o s : State) : Prop := UpF o s.pending s.fuses s.regs s.mem s.evq s.hrpQ s.posted
/-- `Up` of the state in an answer that may be absent. -/
def UpO {α : Type} (o : State) (x : Option (α × State)) : Prop := ∀ a s, x = some (a, s) → Up o s
def UpO22 {α β : Type} (o : State) (x : Option (α × β × State)) : Prop := ∀ a b s, x = some (a, b, s) → Up o s
def UpS (o : State) (x : Option State) : Prop := ∀ s, x = some s → Up o s
/-- The command completes, and its state is `Up`. -/
def UpR (o : State) (r : Res) : Prop := ∃ t, r = .next t ∧ Up o t

theorem Up.refl : Up s s := ⟨rfl, fun _ h => h, id⟩
theorem up_ok (h : Up o s) : UpR o (ok s) := ⟨_, rfl, h⟩
theorem ok_up (h : Up o s) : UpR o (.next s) := ⟨_, rfl, h⟩
theorem when_up {c : Bool} (h : Up o s) (k : Up o t) : UpR o (when_ c s t) :=
  ⟨_, rfl, by cases c <;> [exact h; exact k]⟩
theorem up_ite {c : Prop} [Decidable c] (h : Up o s) (k : Up o t) : Up o (if c then s else t) := by
  split
  · exact h
  · exact k
theorem up_forEach {α : Type} {f : α → State → State} {l : List α} (hf : ∀ x s, Up o s → Up o (f x s)) (h : Up o s) :
    Up o (forEach f l s) := by
  induction l generalizing s with
  | nil => exact h
  | cons x l ih => exact ih (hf x s h)
theorem up_forEach1 {α β : Type} {f : α → State × β → State × β} {l : List α} {x : State × β}
    (hf : ∀ a x, Up o x.1 → Up o (f a x).1) (h : Up o x.1) : Up o (forEach f l x).1 := by
  induction l generalizing x with
  | nil => exact h
  | cons a l ih => exact ih (hf a x h)
theorem up_foldl {α : Type} {f : State → α → State} {l : List α} (hf : ∀ s x, Up o s → Up o (f s x)) (h : Up o s) :
    Up o (l.foldl f s) := by
  induction l generalizing s with
  | nil => exact h
  | cons x l ih => exact ih (hf s x h)

theorem up_ite2 {α : Type} {c : Prop} [Decidable c] {x y : α × State} (h : Up o x.2) (k : Up o y.2) :
    Up o (if c then x else y).2 := by
  split
  · exact h
  · exact k
theorem up_ite1 {α : Type} {c : Prop} [Decidable c] {x y : State × α} (h : Up o x.1) (k : Up o y.1) :
    Up o (if c then x else y).1 := by
  split
  · exact h
  · exact k
theorem up_ite22 {α β : Type} {c : Prop} [Decidable c] {x y : α × β × State} (h : Up o x.2.2) (k : Up o y.2.2) :
    Up o (if c then x else y).2.2 := by
  split
  · exact h
  · exact k
theorem up_ite222 {α β γ : Type} {c : Prop} [Decidable c] {x y : α × β × γ × State} (h : Up o x.2.2.2) (k : Up o y.2.2.2) :
    Up o (if c then x else y).2.2.2 := by
  split
  · exact h
  · exact k
theorem up_iteO {α : Type} {c : Prop} [Decidable c] {x y : Option (α × State)} (h : UpO o x) (k : UpO o y) :
    UpO o (if c then x else y) := by
  split
  · exact h
  · exact k
theorem up_iteS {c : Prop} [Decidable c] {x y : Option State} (h : UpS o x) (k : UpS o y) :
    UpS o (if c then x else y) := by
  split
  · exact h
  · exact k
theorem up_iteR {c : Prop} [Decidable c] {x y : Res} (h : UpR o x) (k : UpR o y) :
    UpR o (if c then x else y) := by
  split
  · exact h
  · exact k
theorem up_iteO22 {α β : Type} {c : Prop} [Decidable c] {x y : Option (α × β × State)} (h : UpO22 o x) (k : UpO22 o y) :
    UpO22 o (if c then x else y) := by
  split
  · exact h
  · exact k
theorem upO_none {α : Type} : UpO (α := α) o none := fun _ _ e => absurd e.symm (Option.some_ne_none _)
theorem upS_none : UpS o none := fun _ e => absurd e.symm (Option.some_ne_none _)
theorem upO_some {α : Type} {a : α} (h : Up o s) : UpO o (some (a, s)) :=
  fun _ _ e => (Prod.mk.inj (Option.some.inj e)).2 ▸ h
theorem upO22_none {α β : Type} : UpO22 (α := α) (β := β) o none := fun _ _ _ e => absurd e.symm (Option.some_ne_none _)
theorem upO22_some {α β : Type} {a : α} {b : β} (h : Up o s) : UpO22 o (some (a, b, s)) :=
  fun _ _ _ e => (Prod.mk.inj (Prod.mk.inj (Option.some.inj e)).2).2 ▸ h
theorem upS_some (h : Up o s) : UpS o (some s) := fun _ e => Option.some.inj e ▸ h
theorem up_mk2 {α : Type} {a : α} (h : Up o s) : Up o (a, s).2 := h
theorem up_mk1 {α : Type} {a : α} (h : Up o s) : Up o (s, a).1 := h
theorem up_eq1 {α : Type} {x : State × α} {a : α} (e : x = (s, a)) (h : Up o x.1) : Up o s := by subst e; exact h
/-- Every part that `Up` speaks of is as before. -/
theorem up_upd (h : Up o s)
    (e : (s.pending, s.fuses, s.regs, s.mem, s.evq, s.hrpQ, s.posted) =
      (t.pending, t.fuses, t.regs, t.mem, t.evq, t.hrpQ, t.posted)) : Up o t := by
  simp only [Prod.mk.injEq] at e
  obtain ⟨e1, e2, e3, e4, e5, e6, e7⟩ := e
  unfold Up at *
  rwa [← e1, ← e2, ← e3, ← e4, ← e5, ← e6, ← e7]

/-! ### Answers taken apart -/

theorem up_pair2 {α : Type} {x : α × State} {f : α → State → State} (h : Up o x.2) (k : ∀ a s, Up o s → Up o (f a s)) :
    Up o (match x with | (a, s) => f a s) := k _ _ h
theorem up_pair1 {α : Type} {x : State × α} {f : State → α → State} (h : Up o x.1) (k : ∀ s, Up o s → ∀ a, Up o (f s a)) :
    Up o (match x with | (s, a) => f s a) := k _ h _
theorem up_pair22 {α β : Type} {x : α × β × State} {f : α → β → State → State} (h : Up o x.2.2)
    (k : ∀ a b s, Up o s → Up o (f a b s)) : Up o (match x with | (a, b, s) => f a b s) := k _ _ _ h
theorem up_eq2 {α : Type} {x : α × State} {a : α} (e : x = (a, s)) (h : Up o x.2) : Up o s := by subst e; exact h
theorem up_eq22 {α β : Type} {x : α × β × State} {a : α} {b : β} (e : x = (a, b, s)) (h : Up o x.2.2) : Up o s := by
  subst e; exact h
theorem up_opt2 {α : Type} {x : Option (α × State)} {n : State} {f : α → State → State} (h : UpO o x) (k : Up o n)
    (g : ∀ a s, Up o s → Up o (f a s)) : Up o (match (generalizing := false) x with | none => n | some (a, s) => f a s) := by
  cases x with
  | none => exact k
  | some y => exact g _ _ (h _ _ rfl)
theorem up_opt {x : Option State} {n : State} {f : State → State} (h : UpS o x) (k : Up o n)
    (g : ∀ s, Up o s → Up o (f s)) : Up o (match (generalizing := false) x with | none => n | some s => f s) := by
  cases x with
  | none => exact k
  | some y => exact g _ (h _ rfl)
theorem upR_opt2 {α : Type} {x : Option (α × State)} {n : Res} {f : α → State → Res} (h : UpO o x) (k : UpR o n)
    (g : ∀ a s, Up o s → UpR o (f a s)) : UpR o (match (generalizing := false) x with | none => n | some (a, s) => f a s) := by
  cases x with
  | none => exact k
  | some y => exact g _ _ (h _ _ rfl)

/-! ### The primitive changes -/

theorem UpF.mk' (h : Up o s) (hp : t.pending = s.pending) (hf : t.fuses = s.fuses)
    (hr : Regs.wf s.regs = true → Regs.wf t.regs = true) (hm : Memory.wf s.mem = true → Memory.wf t.mem = true)
    (he : s.evq.length ≤ 16 → t.evq.length ≤ 16) (hh : s.hrpQ.length ≤ 4 → t.hrpQ.length ≤ 4)
    (hw : s.posted.length ≤ 16 → t.posted.length ≤ 16) : Up o t := by
  obtain ⟨a, b, c⟩ := h
  refine ⟨hp.trans a, fun x y => hf ▸ b x y, fun i => ?_⟩
  obtain ⟨c1, c2, c3, c4, c5⟩ := c i
  exact ⟨hr c1, hm c2, he c3, hh c4, hw c5⟩

theorem State.setReg_up {a v} (h : Up o s) : Up o (s.setReg a v) :=
  UpF.mk' h rfl rfl Sparse.wf_set id id id id
theorem State.setWord_up {a v} (h : Up o s) : Up o (s.setWord a v) :=
  UpF.mk' h rfl rfl id Sparse.wf_set id id id
theorem resetRegs_up {p} (h : Up o s) : Up o (resetRegs s p) :=
  UpF.mk' h rfl rfl Sparse.wf_filter id id id id
theorem pushEv_up {e} (h : Up o s) : Up o (pushEv s e) := by
  unfold pushEv
  split
  · rename_i c
    exact UpF.mk' h rfl rfl id id (fun _ => by simp only [List.length_append, List.length_singleton]; omega) id id
  · exact h

end Sys2Proof.Machine
end

