-- ==== Sys2Proof/Laws/Keeps.lean ====
section
/-!
SUPPORT. One lemma for each operation of the model, in the order in which the operations are built on each
other: it keeps `Up` (Laws/Up.lean).
-/

namespace Sys2Proof.Machine

variable {o : State}

theorem State.setNi_up {a0 a1 a2} (ha0 : Up o a0) : Up o (State.setNi a0 a1 a2) := ha0
theorem modNi_up {a0 a1 a2} (ha0 : Up o a0) : Up o (modNi a0 a1 a2) := (State.setNi_up ha0)
theorem present_up {a0 a1 a2 a3} (ha0 : Up o a0) : Up o (present a0 a1 a2 a3) := (modNi_up ha0)
theorem badOreq_up {a0 a1 a2 a3} (ha0 : Up o a0) : Up o (badOreq a0 a1 a2 a3) := (present_up ha0)
theorem loseRecord_up {a0 a1} (ha0 : Up o a0) : Up o (loseRecord a0 a1) := (State.setReg_up ha0)
theorem setFld_up {a0 a1 a2 a3 a4} (ha0 : Up o a0) : Up o (setFld a0 a1 a2 a3 a4) := (State.setReg_up ha0)
theorem setBit_up {a0 a1 a2 a3} (ha0 : Up o a0) : Up o (setBit a0 a1 a2 a3) := (setFld_up ha0)
theorem logAt_up {a0 a1 a2 a3 a4} (ha0 : Up o a0) : Up o (logAt a0 a1 a2 a3 a4) := (pushEv_up ha0)
theorem overrun_up {a0 a1 a2 a3 a4} (ha0 : Up o a0) : Up o (overrun a0 a1 a2 a3 a4) :=
  (up_ite (setBit_up ha0) (logAt_up (setBit_up ha0)))
theorem incSat_up {a0 a1} (ha0 : Up o a0) : Up o (incSat a0 a1) := (State.setReg_up ha0)
theorem incFldSat_up {a0 a1 a2 a3} (ha0 : Up o a0) : Up o (incFldSat a0 a1 a2 a3) := (setFld_up ha0)
theorem loseCrossing_up {a0 a1} (ha0 : Up o a0) : Up o (loseCrossing a0 a1) := by
  unfold loseCrossing; split; exacts [(overrun_up (incSat_up ha0)), (overrun_up (incFldSat_up ha0)), (overrun_up (incFldSat_up ha0))]
theorem logCross_up {a0 a1 a2 a3} (ha0 : Up o a0) : Up o (logCross a0 a1 a2 a3) :=
  (up_ite (logAt_up ha0) (loseCrossing_up ha0))
theorem logNi_up {a0 a1 a2 a3} (ha0 : Up o a0) : Up o (logNi a0 a1 a2 a3) := (logCross_up ha0)
theorem raiseBit_up {a0 a1 a2 a3 a4 a5 a6} (ha0 : Up o a0) : Up o (raiseBit a0 a1 a2 a3 a4 a5 a6) :=
  (up_ite (setBit_up ha0) (logNi_up (setBit_up ha0)))
theorem loseAtRise_up {a0 a1 a2 a3 a4} (ha0 : Up o a0) (ha4 : Up o a4) : Up o (loseAtRise a0 a1 a2 a3 a4) :=
  (up_ite ha4 (loseRecord_up ha4))
theorem raiseErr_up {a0 a1 a2 a3 a4 a5} (ha0 : Up o a0) : Up o (raiseErr a0 a1 a2 a3 a4 a5) :=
  (loseAtRise_up ha0 (raiseBit_up (up_ite (State.setReg_up ha0) ha0)))
theorem noteOpen_up {a0 a1 a2 a3 a4} (ha0 : Up o a0) : Up o (noteOpen a0 a1 a2 a3 a4) := (modNi_up ha0)
theorem incFld_up {a0 a1 a2 a3} (ha0 : Up o a0) : Up o (incFld a0 a1 a2 a3) := (setFld_up ha0)
theorem startBar_up {a0 a1 a2} (ha0 : Up o a0) : Up o (startBar a0 a1 a2) :=
  (up_ite (incFld_up (State.setReg_up (modNi_up ha0))) (State.setReg_up (modNi_up ha0)))
theorem answer_up {a0 a1 a2} (ha0 : Up o a0) : Up o (answer a0 a1 a2) := (present_up (modNi_up ha0))
theorem guardLosesRes_up {a0 a1} (ha0 : Up o a0) : Up o (guardLosesRes a0 a1) := (loseRecord_up ha0)
theorem raiseGrd_up {a0 a1 a2 a3} (ha0 : Up o a0) : Up o (raiseGrd a0 a1 a2 a3) := (raiseBit_up ha0)
theorem State.setCore_up {a0 a1 a2} (ha0 : Up o a0) : Up o (State.setCore a0 a1 a2) := ha0
theorem modCore_up {a0 a1 a2} (ha0 : Up o a0) : Up o (modCore a0 a1 a2) := (State.setCore_up ha0)
theorem guardTrap_up {a0 a1} (ha0 : Up o a0) : Up o (guardTrap a0 a1) := (up_ite ha0 (modCore_up ha0))
theorem recordFault_up {a0 a1 a2 a3 a4 a5 a6} (ha0 : Up o a0) : Up o (recordFault a0 a1 a2 a3 a4 a5 a6) :=
  (guardTrap_up (guardLosesRes_up (incSat_up (raiseGrd_up (up_ite ha0 (State.setReg_up (State.setReg_up ha0)))))))
theorem decodeMiss_up {a0 a1 a2 a3 a4} (ha0 : Up o a0) : Up o (decodeMiss a0 a1 a2 a3 a4) :=
  (incSat_up (up_ite (State.setReg_up (State.setReg_up ha0)) ha0))
theorem setRecord_up {a0 a1 a2} (ha0 : Up o a0) : Up o (setRecord a0 a1 a2) := by
  unfold setRecord; split; exacts [(State.setReg_up ha0), (State.setReg_up ha0), ha0]
theorem stageOreq_up {a0 a1 a2} (ha0 : Up o a0) : Up o (stageOreq a0 a1 a2) := (modNi_up ha0)
theorem launchReq_up {a0 a1 a2} (ha0 : Up o a0) : Up o (launchReq a0 a1 a2) := by
  unfold launchReq; dsimp only; split; exacts [(answer_up (recordFault_up ha0)), (up_ite (answer_up (decodeMiss_up ha0)) (stageOreq_up (up_ite (setRecord_up ha0) ha0)))]
theorem incWrap_up {a0 a1} (ha0 : Up o a0) : Up o (incWrap a0 a1) := (State.setReg_up ha0)
theorem tryRead_up {a0 a1 a2} (ha0 : Up o a0) : Up o (tryRead a0 a1 a2) := by
  unfold tryRead; dsimp only; split; exacts [(launchReq_up ha0), (up_ite (modNi_up ha0) (by split; exacts [(answer_up (recordFault_up ha0)), (answer_up (incWrap_up ha0))]))]
theorem releaseOq_up {s n k} (h : Up o s) : Up o (releaseOq s n k) := by
  induction k generalizing s with
  | zero => exact h
  | succ k ih =>
    unfold releaseOq; dsimp only; split
    · exact h
    · exact up_ite h (ih (up_ite (stageOreq_up (State.setNi_up h)) (launchReq_up (State.setNi_up h))))
theorem retryRead_up {a0 a1 a2} (ha0 : Up o a0) : Up o (retryRead a0 a1 a2) :=
  (up_ite (launchReq_up ha0) (modNi_up ha0))
theorem settle_up {a0 a1} (ha0 : Up o a0) : Up o (settle a0 a1) :=
  (up_ite ha0 (releaseOq_up (up_forEach (fun _ _ h0 => (retryRead_up h0)) (modNi_up ha0))))
theorem orphanOp_up {a0 a1 a2} (ha0 : Up o a0) : Up o (orphanOp a0 a1 a2) := (modNi_up (raiseErr_up ha0))
theorem State.setTa_up {a0 a1 a2} (ha0 : Up o a0) : Up o (State.setTa a0 a1 a2) := ha0
theorem modTa_up {a0 a1 a2} (ha0 : Up o a0) : Up o (modTa a0 a1 a2) := (State.setTa_up ha0)
theorem recordRefusal_up {a0 a1 a2 a3 a4} (ha0 : Up o a0) : Up o (recordRefusal a0 a1 a2 a3 a4) :=
  (up_ite (modTa_up (State.setReg_up (incWrap_up (incWrap_up ha0)))) (State.setReg_up (incWrap_up (incWrap_up ha0))))
theorem State.setRt_up {a0 a1 a2} (ha0 : Up o a0) : Up o (State.setRt a0 a1 a2) := ha0
theorem modRt_up {a0 a1 a2} (ha0 : Up o a0) : Up o (modRt a0 a1 a2) := (State.setRt_up ha0)
theorem setResync_up {a0 a1 a2} (ha0 : Up o a0) : Up o (setResync a0 a1 a2) := (modRt_up ha0)
theorem startResync_up {a0 a1 a2 a3} (ha0 : Up o a0) : Up o (startResync a0 a1 a2 a3) := (setResync_up ha0)
theorem resyncAll_up {a0 a1 a2} (ha0 : Up o a0) : Up o (resyncAll a0 a1 a2) :=
  (up_forEach (fun _ _ h0 => (startResync_up h0)) ha0)
theorem endEntering_up {a0 a1} (ha0 : Up o a0) : Up o (endEntering a0 a1) := (up_ite (resyncAll_up (modTa_up ha0)) ha0)
theorem stirTile_up {a0 a1 a2} (ha0 : Up o a0) : Up o (stirTile a0 a1 a2) :=
  (up_ite (recordRefusal_up (endEntering_up ha0)) ha0)
theorem putFifo_up {a0 a1 a2 a3} (ha0 : Up o a0) : Up o (putFifo a0 a1 a2 a3) := (modNi_up ha0)
theorem noticeNow_up {a0 a1} (ha0 : Up o a0) : Up o (noticeNow a0 a1) := (up_ite (modNi_up ha0) (modCore_up ha0))
theorem guardNotice_up {a0 a1} (ha0 : Up o a0) : Up o (guardNotice a0 a1) := (up_ite ha0 (modCore_up ha0))
theorem recordNotice_up {a0 a1 a2 a3} (ha0 : Up o a0) : Up o (recordNotice a0 a1 a2 a3) :=
  (up_ite (noticeNow_up (logNi_up (guardNotice_up (guardLosesRes_up (incSat_up (raiseGrd_up (up_ite ha0 (State.setReg_up ha0)))))))) (guardNotice_up (guardLosesRes_up (incSat_up (raiseGrd_up (up_ite ha0 (State.setReg_up ha0)))))))
theorem State.setTmc_up {a0 a1 a2} (ha0 : Up o a0) : Up o (State.setTmc a0 a1 a2) := ha0
theorem modTmc_up {a0 a1 a2} (ha0 : Up o a0) : Up o (modTmc a0 a1 a2) := (State.setTmc_up ha0)
theorem loseReservation_up {a0 a1} (ha0 : Up o a0) : Up o (loseReservation a0 a1) :=
  (loseRecord_up (up_ite ha0 (by split; exacts [(modTmc_up ha0), ha0])))
theorem failWrite_up {a0 a1 a2 a3 a4 a5} (ha0 : Up o a0) : Up o (failWrite a0 a1 a2 a3 a4 a5) :=
  (answer_up (recordNotice_up (up_ite (loseReservation_up ha0) ha0)))
theorem failAccess_up {a0 a1 a2 a3} (ha0 : Up o a0) : Up o (failAccess a0 a1 a2 a3) := (answer_up (recordFault_up ha0))
theorem failIssued_up {a0 a1 a2 a3} (ha0 : Up o a0) : Up o (failIssued a0 a1 a2 a3) :=
  (up_ite (failWrite_up ha0) (failAccess_up ha0))
theorem readOreq_up {a0 a1 a2} (ha0 : Up o a0) : Up o (readOreq a0 a1 a2) := by
  unfold readOreq; dsimp only; exact (up_ite (badOreq_up (raiseErr_up ha0)) (up_ite (badOreq_up (raiseErr_up ha0)) (up_ite (up_ite ha0 (badOreq_up ha0)) (up_ite (startBar_up (noteOpen_up ha0)) (up_ite (settle_up (modNi_up (noteOpen_up ha0))) (by split; exacts [(failIssued_up (modNi_up (noteOpen_up ha0))), (up_ite (tryRead_up (modNi_up (noteOpen_up ha0))) (settle_up (modNi_up (modNi_up (noteOpen_up ha0)))))]))))))
theorem acceptOreq_up {a0 a1 a2} (ha0 : Up o a0) : Up o (acceptOreq a0 a1 a2) :=
  (up_ite (stirTile_up ha0) (up_ite (orphanOp_up (stirTile_up ha0)) (up_ite (putFifo_up (stirTile_up ha0)) (readOreq_up (stirTile_up ha0)))))
theorem execFop_up {a0 a1 a2} (ha2 : Up o a2) : UpR o (execFop a0 a1 a2) := (ok_up (acceptOreq_up ha2))
theorem fwCmd_up {op f s} (hf : ∀ s r, Up o s → Up o (f s r)) (h : Up o s) : UpR o (fwCmd op f s) := by
  unfold fwCmd; split
  · exact up_ok h
  · exact when_up h (hf _ _ h)
theorem addWrap_up {a0 a1 a2} (ha0 : Up o a0) : Up o (addWrap a0 a1 a2) := (State.setReg_up ha0)
theorem noteClamps_up {a0 a1} (ha0 : Up o a0) : Up o (noteClamps a0 a1) := (addWrap_up ha0)
theorem finish_up {a0 a1 a2 a3 a4} (ha0 : Up o a0) : Up o (finish a0 a1 a2 a3 a4) := ha0
theorem failCmd_up {a0 a1 a2 a3 a4} (ha0 : Up o a0) : Up o (failCmd a0 a1 a2 a3 a4) := (finish_up ha0)
theorem logFw_up {a0 a1 a2} (ha0 : Up o a0) : Up o (logFw a0 a1 a2) := (logAt_up ha0)
theorem markReady_up {a0 a1} (ha0 : Up o a0) : Up o (markReady a0 a1) := (modRt_up ha0)
theorem setCnt_up {a0 a1 a2 a3} (ha0 : Up o a0) : Up o (setCnt a0 a1 a2 a3) := (modRt_up ha0)
theorem noteSc5_up {a0} (ha0 : Up o a0) : Up o (noteSc5 a0) := (up_ite (logFw_up (setBit_up ha0)) ha0)
theorem writeRtrCtrl_up {a0 a1 a2} (ha0 : Up o a0) : Up o (writeRtrCtrl a0 a1 a2) :=
  (up_ite (markReady_up (State.setReg_up ha0)) (noteSc5_up (markReady_up (up_forEach (fun _ _ h0 => (up_ite h0 (setCnt_up h0))) (setBit_up (State.setReg_up ha0))))))
theorem writeMapEpoch_up {a0 a1 a2} (ha0 : Up o a0) : Up o (writeMapEpoch a0 a1 a2) :=
  (State.setReg_up (State.setReg_up (State.setReg_up ha0)))
theorem plain_up {a0 a1 a2 a3 a4 a5} (ha0 : Up o a0) : Up o (plain a0 a1 a2 a3 a4 a5) := by
  unfold plain; split; exacts [(State.setReg_up ha0), (State.setReg_up ha0), (State.setReg_up ha0), ha0]
theorem setTk_up {a0 a1 a2} (ha0 : Up o a0) : Up o (setTk a0 a1 a2) := (setBit_up ha0)
theorem startSwitch_up {a0 a1} (ha0 : Up o a0) : Up o (startSwitch a0 a1) := by
  unfold startSwitch; exact (by generalize g : setTk _ _ _ = b; exact (g ▸ (setTk_up ha0) : Up o b))
theorem mapSwitch_up {a0 a1} (ha0 : Up o a0) : Up o (mapSwitch a0 a1) := (up_ite (startSwitch_up ha0) ha0)
theorem noteTrigger_up {a0 a1 a2} (ha0 : Up o a0) (ha1 : Up o a1) : Up o (noteTrigger a0 a1 a2) := (up_ite ha1 ha1)
theorem ownSend_up {a0 a1 a2 a3 a4 a5 a6 a7 a8 a9} (ha0 : Up o a0) : Up o (ownSend a0 a1 a2 a3 a4 a5 a6 a7 a8 a9) :=
  (modNi_up ha0)
theorem sendMsi_up {a0 a1} (ha0 : Up o a0) : Up o (sendMsi a0 a1) :=
  (up_ite (decodeMiss_up (incFld_up (incFld_up ha0))) (ownSend_up (incFld_up ha0)))
theorem setPend_up {a0 a1} (ha0 : Up o a0) : Up o (setPend a0 a1) :=
  (up_ite ha0 (up_ite (sendMsi_up (setBit_up ha0)) (setBit_up ha0)))
theorem freeW_up {a0} (ha0 : Up o a0) : Up o (freeW a0).2 := (up_mk2 ha0)
theorem leaveCopy_up {a0 a1} (ha0 : Up o a0) : Up o (leaveCopy a0 a1) :=
  up_ite (setFld_up ha0) (setPend_up (State.setReg_up (up_upd (freeW_up ha0) rfl)))
theorem noteCopies_up {a0} (ha0 : Up o a0) : Up o (noteCopies a0) :=
  (up_forEach (fun _ _ h0 => (up_ite (leaveCopy_up h0) h0)) ha0)
theorem writeRtr_up {a0 a1 a2 a3 a4} (ha0 : Up o a0) : Up o (writeRtr a0 a1 a2 a3 a4) :=
  (up_ite (writeRtrCtrl_up ha0) (up_ite (markReady_up (writeMapEpoch_up ha0)) (up_ite (mapSwitch_up (up_ite (noteCopies_up (up_ite (noteTrigger_up ha0 (plain_up ha0)) (plain_up ha0))) (up_ite (noteTrigger_up ha0 (plain_up ha0)) (plain_up ha0)))) (up_ite (noteCopies_up (up_ite (noteTrigger_up ha0 (plain_up ha0)) (plain_up ha0))) (up_ite (noteTrigger_up ha0 (plain_up ha0)) (plain_up ha0))))))
theorem trainStart_up {a0 a1 a2 a3} (ha0 : Up o a0) : Up o (trainStart a0 a1 a2 a3) := (setBit_up ha0)
theorem writeSlc_up {a0 a1 a2 a3 a4 a5} (ha0 : Up o a0) : Up o (writeSlc a0 a1 a2 a3 a4 a5) :=
  (up_ite (trainStart_up (plain_up ha0)) (plain_up ha0))
theorem rxCount_up {a0 a1 a2} (ha0 : Up o a0) : Up o (rxCount a0 a1 a2) := (up_ite ha0 (addWrap_up ha0))
theorem takeEject_up {a0 a1 a2} (ha0 : Up o a0) : UpO o (takeEject a0 a1 a2) := by
  unfold takeEject; split; exacts [upO_none, (upO_some (rxCount_up (modNi_up ha0)))]
theorem sramStores_up {s off ws i k} (h : Up o s) : Up o (sramStores s off ws i k) := by
  induction k generalizing s i with
  | zero => exact h
  | succ k ih => exact ih (State.setWord_up h)
theorem opconServe_up {a0 a1} (ha0 : Up o a0) : Up o (opconServe a0 a1).2.2 := by
  unfold opconServe; dsimp only; split; exacts [(up_ite22 (up_mk2 ha0) (up_ite22 (up_mk2 ha0) (up_mk2 (decodeMiss_up ha0)))), (up_ite22 (up_mk2 (decodeMiss_up ha0)) (up_ite22 (up_mk2 ha0) (up_ite22 (up_mk2 ha0) (up_ite22 (up_mk2 (sramStores_up ha0)) (up_mk2 (decodeMiss_up ha0)))))), (up_mk2 (decodeMiss_up ha0))]
theorem stageOwn_up {a0 a1 a2} (ha0 : Up o a0) : Up o (stageOwn a0 a1 a2) := (modNi_up ha0)
theorem owedResp_up {a0 a1 a2 a3} (ha0 : Up o a0) : Up o (owedResp a0 a1 a2 a3) := (stageOwn_up ha0)
theorem abortInbound_up {a0 a1 a2} (ha0 : Up o a0) : Up o (abortInbound a0 a1 a2) := (incSat_up (owedResp_up ha0))
theorem presentReq_up {a0 a1 a2} (ha0 : Up o a0) : Up o (presentReq a0 a1 a2) :=
  (up_ite (modNi_up (present_up ha0)) (present_up ha0))
theorem handleReq_up {a0 a1 a2} (ha0 : Up o a0) : Up o (handleReq a0 a1 a2) :=
  (up_ite (up_pair22 (opconServe_up ha0) fun _ _ _ h0 => (stageOwn_up h0)) (up_ite (up_ite (stageOwn_up (decodeMiss_up ha0)) ha0) (up_ite (up_ite (abortInbound_up ha0) (incSat_up ha0)) (presentReq_up ha0))))
theorem drainOp_up {a0 a1} (ha0 : Up o a0) : Up o (drainOp a0 a1) :=
  (modNi_up (setBit_up (up_forEach (fun _ _ h0 => (by split <;> rename_i e; exacts [h0, (handleReq_up ((takeEject_up h0) _ _ e))])) ha0)))
theorem sendRef_up {a0 a1 a2} (ha0 : Up o a0) : Up o (sendRef a0 a1 a2) := (ownSend_up ha0)
theorem grantNow_up {a0 a1 a2 a3} (ha0 : Up o a0) : Up o (grantNow a0 a1 a2 a3) := by
  unfold grantNow; dsimp only; split; exacts [ha0, (ownSend_up (State.setNi_up ha0))]
theorem serveOne_up {a0 a1} (ha0 : Up o a0) : UpS o (serveOne a0 a1) := by
  unfold serveOne; dsimp only; split; exacts [upS_none, (up_iteS (up_iteS (upS_some (sendRef_up (State.setNi_up ha0))) upS_none) (upS_some (grantNow_up (State.setNi_up ha0))))]
theorem serveParked_up {s n k} (h : Up o s) : Up o (serveParked s n k) := by
  induction k generalizing s with
  | zero => exact h
  | succ k ih =>
    unfold serveParked; split
    · exact up_opt (serveOne_up h) h fun _ g => ih g
    · exact h
theorem serveAll_up {a0 a1} (ha0 : Up o a0) : Up o (serveAll a0 a1) := (serveParked_up ha0)
theorem raiseRsvErr_up {a0 a1 a2} (ha0 : Up o a0) : Up o (raiseRsvErr a0 a1 a2) := (loseAtRise_up ha0 (raiseBit_up ha0))
theorem rsvPush_up {a0 a1 a2} (ha0 : Up o a0) : Up o (rsvPush a0 a1 a2) :=
  (up_ite (serveAll_up (State.setNi_up ha0)) (raiseRsvErr_up ha0))
theorem bridgePublish_up {a0} (ha0 : Up o a0) : Up o (bridgePublish a0) :=
  (up_ite (up_forEach (fun _ _ h0 => (rsvPush_up h0)) ha0) ha0)
theorem republish_up {a0 a1} (ha0 : Up o a0) : Up o (republish a0 a1) := (up_ite (bridgePublish_up ha0) ha0)
theorem enableOp_up {a0 a1} (ha0 : Up o a0) : Up o (enableOp a0 a1) := (republish_up (modNi_up (setBit_up ha0)))
theorem writeNiCtrl_up {a0 a1 a2} (ha0 : Up o a0) : Up o (writeNiCtrl a0 a1 a2) :=
  (State.setReg_up (up_ite (drainOp_up ha0) (up_ite (enableOp_up ha0) ha0)))
theorem seedOp_up {a0 a1 a2} (ha0 : Up o a0) : Up o (seedOp a0 a1 a2) := (modNi_up (State.setReg_up ha0))
theorem clampTokens_up {a0 a1 a2} (ha0 : Up o a0) : Up o (clampTokens a0 a1 a2) := (setFld_up ha0)
theorem mcInvOp_up {a0 a1 a2} (ha0 : Up o a0) : Up o (mcInvOp a0 a1 a2) := (modNi_up ha0)
theorem sendPhold_up {a0 a1 a2} (ha0 : Up o a0) : Up o (sendPhold a0 a1 a2) :=
  (up_ite ha0 (up_ite (decodeMiss_up ha0) (incWrap_up (ownSend_up ha0))))
theorem followPend_up {a0 a1 a2} (ha0 : Up o a0) : Up o (followPend a0 a1 a2) :=
  (up_ite (setPend_up ha0) (setBit_up ha0))
theorem irqSync_up {s} (h : Up o s) : Up o (irqSync s) := up_foldl (fun _ _ k => followPend_up k) (followPend_up h)
theorem uintSync_up {s t} (h : Up o s) : Up o (uintSync s t) := up_foldl (fun _ _ k => setBit_up k) h
theorem writeNi_up {a0 a1 a2 a3 a4} (ha0 : Up o a0) : Up o (writeNi a0 a1 a2 a3 a4) :=
  (up_ite (writeNiCtrl_up ha0) (up_ite (seedOp_up ha0) (up_ite (clampTokens_up (up_ite (noteTrigger_up ha0 (plain_up ha0)) (plain_up ha0))) (up_ite (clampTokens_up (up_ite (noteTrigger_up ha0 (plain_up ha0)) (plain_up ha0))) (up_ite (clampTokens_up (up_ite (noteTrigger_up ha0 (plain_up ha0)) (plain_up ha0))) (up_ite (rsvPush_up ha0) (up_ite (mcInvOp_up ha0) (up_ite (sendPhold_up ha0) (up_ite (setFld_up (up_ite (noteTrigger_up ha0 (plain_up ha0)) (plain_up ha0))) (up_ite (irqSync_up (uintSync_up (up_ite (noteTrigger_up ha0 (plain_up ha0)) (plain_up ha0)))) (up_ite (noteTrigger_up ha0 (plain_up ha0)) (plain_up ha0))))))))))))
theorem recheck_up {a0 a1 a2} (ha2 : Up o a2) : Up o (recheck a0 a1 a2) := by
  unfold recheck; split; exacts [ha2, (failIssued_up (modNi_up ha2))]
theorem grdRelease_up {a0 a1 a2} (ha0 : Up o a0) : Up o (grdRelease a0 a1 a2) :=
  (settle_up (up_ite (up_forEach (fun _ _ h0 => (recheck_up h0)) ha0) ha0))
theorem overlapCheck_up {a0 a1} (ha0 : Up o a0) : Up o (overlapCheck a0 a1) := by
  unfold overlapCheck; split; exacts [(State.setReg_up ha0), (up_ite (raiseGrd_up (State.setReg_up ha0)) (logNi_up (raiseGrd_up (State.setReg_up ha0))))]
theorem writeGrdCtrl_up {a0 a1 a2} (ha0 : Up o a0) : Up o (writeGrdCtrl a0 a1 a2) :=
  (up_ite (State.setReg_up ha0) (grdRelease_up (up_ite (overlapCheck_up (State.setReg_up ha0)) (State.setReg_up ha0))))
theorem writeRegion_up {a0 a1 a2 a3 a4} (ha0 : Up o a0) : Up o (writeRegion a0 a1 a2 a3 a4) :=
  (up_ite (raiseGrd_up ha0) (State.setReg_up ha0))
theorem fwWord_up {a0 a1} (ha0 : Up o a0) : Up o (fwWord a0 a1).2 := by
  unfold fwWord; split; exacts [(freeW_up (recordFault_up ha0)), (up_ite2 (freeW_up ha0) (up_mk2 ha0))]
theorem keepHeader_up {a0 a1} (ha0 : Up o a0) : Up o (keepHeader a0 a1) := (up_pair2 (fwWord_up ha0) fun _ _ h0 => h0)
theorem readHeaders_up {a0} (ha0 : Up o a0) : Up o (readHeaders a0) :=
  (up_ite (up_forEach (fun _ _ h0 => (up_ite h0 (keepHeader_up h0))) ha0) ha0)
theorem writeGrd_up {a0 a1 a2 a3 a4 a5} (ha0 : Up o a0) : Up o (writeGrd a0 a1 a2 a3 a4 a5) :=
  (up_ite (readHeaders_up (writeGrdCtrl_up ha0)) (up_ite (by split; exacts [(writeRegion_up ha0), (writeRegion_up ha0), (writeRegion_up ha0), ha0]) (plain_up ha0)))
theorem startMig_up {a0 a1 a2} (ha0 : Up o a0) : Up o (startMig a0 a1 a2) :=
  (up_ite (modTmc_up ha0) (by split; exacts [(State.setReg_up (modTmc_up ha0)), (modTmc_up ha0)]))
theorem writeSpare_up {a0 a1 a2 a3} (ha0 : Up o a0) : Up o (writeSpare a0 a1 a2 a3) :=
  (up_ite (State.setReg_up ha0) (startMig_up (State.setReg_up ha0)))
theorem beginVt_up {a0 a1 a2} (ha0 : Up o a0) : Up o (beginVt a0 a1 a2) :=
  (modTa_up (incWrap_up (setFld_up (setBit_up ha0))))
theorem wantVt_up {a0 a1 a2} (ha0 : Up o a0) : Up o (wantVt a0 a1 a2) :=
  (up_ite (modTa_up ha0) (up_ite (up_ite (modTa_up ha0) (beginVt_up ha0)) ha0))
theorem startWiden_up {a0 a1 a2} (ha0 : Up o a0) : Up o (startWiden a0 a1 a2) := (modTa_up ha0)
theorem leaveSlim_up {a0 a1} (ha0 : Up o a0) : Up o (leaveSlim a0 a1) :=
  (up_ite (startWiden_up (by split; exacts [(up_ite (resyncAll_up (modTa_up ha0)) ha0), ha0])) (by split; exacts [(up_ite (resyncAll_up (modTa_up ha0)) ha0), ha0]))
theorem setTileState_up {a0 a1 a2} (ha0 : Up o a0) : Up o (setTileState a0 a1 a2) := (setFld_up ha0)
theorem wakeTile_up {a0 a1 a2} (ha0 : Up o a0) : Up o (wakeTile a0 a1 a2) :=
  (up_ite (setFld_up (setTileState_up ha0)) (endEntering_up ha0))
theorem raiseTile_up {a0 a1} (ha0 : Up o a0) : Up o (raiseTile a0 a1) := (wantVt_up (leaveSlim_up (wakeTile_up ha0)))
theorem startNarrow_up {a0 a1 a2 a3} (ha0 : Up o a0) : Up o (startNarrow a0 a1 a2 a3) := (resyncAll_up (modTa_up ha0))
theorem requestSlim_up {a0 a1 a2} (ha0 : Up o a0) : Up o (requestSlim a0 a1 a2) :=
  (up_ite (up_ite (modTa_up (modTa_up ha0)) (modTa_up ha0)) (by split; exacts [(recordRefusal_up (modTa_up ha0)), (startNarrow_up (modTa_up ha0))]))
theorem loseMemory_up {s t} (h : Up o s) : Up o (loseMemory s t) :=
  modTmc_up (UpF.mk' h rfl rfl id Sparse.wf_filter id id id)
theorem writeWords_up {s a ws} (h : Up o s) : Up o (writeWords s a ws) := by
  induction ws generalizing s a with
  | nil => exact h
  | cons w ws ih => exact ih (State.setReg_up h)
theorem saveTile_up {a0 a1} (ha0 : Up o a0) : Up o (saveTile a0 a1) := (writeWords_up ha0)
theorem uintDrop_up {a0 a1} (ha0 : Up o a0) : Up o (uintDrop a0 a1) :=
  (up_foldl (fun _ _ h0 => (up_ite h0 (setBit_up h0))) (uintSync_up ha0))
theorem enterOff_up {a0 a1} (ha0 : Up o a0) : Up o (enterOff a0 a1) :=
  (uintDrop_up (loseMemory_up (modTa_up (setTileState_up (saveTile_up ha0)))))
theorem requestOff_up {a0 a1} (ha0 : Up o a0) : Up o (requestOff a0 a1) :=
  (up_ite ha0 (by split; exacts [(recordRefusal_up ha0), (enterOff_up ha0)]))
theorem applyTarget_up {a0 a1 a2} (ha0 : Up o a0) : Up o (applyTarget a0 a1 a2) :=
  (up_ite (up_ite ha0 ha0) (up_ite (raiseTile_up ha0) (up_ite (leaveSlim_up (wakeTile_up ha0)) (up_ite (up_ite (wakeTile_up ha0) (requestSlim_up (endEntering_up ha0))) (up_ite (leaveSlim_up ha0) (requestOff_up ha0))))))
theorem writeTarget_up {a0 a1 a2} (ha0 : Up o a0) : Up o (writeTarget a0 a1 a2) :=
  (up_ite (modTa_up (up_ite (State.setReg_up (State.setReg_up ha0)) (State.setReg_up ha0))) (applyTarget_up (up_ite (State.setReg_up (State.setReg_up ha0)) (State.setReg_up ha0))))
theorem applyClaim_up {a0 a1 a2} (ha0 : Up o a0) : Up o (applyClaim a0 a1 a2) :=
  (up_ite (up_ite (up_ite (State.setReg_up ha0) (raiseTile_up (State.setReg_up ha0))) (State.setReg_up ha0)) (up_ite (State.setReg_up ha0) (State.setReg_up ha0)))
theorem writeClaim_up {a0 a1 a2} (ha0 : Up o a0) : Up o (writeClaim a0 a1 a2) :=
  (up_ite (modTa_up ha0) (up_ite (State.setReg_up (applyClaim_up ha0)) (applyClaim_up ha0)))
theorem recordCode_up {a0 a1 a2 a3 a4} (ha0 : Up o a0) : Up o (recordCode a0 a1 a2 a3 a4) :=
  (State.setReg_up (State.setReg_up ha0))
theorem notStarted_up {a0 a1 a2 a3} (ha0 : Up o a0) : Up o (notStarted a0 a1 a2 a3) := (incWrap_up (recordCode_up ha0))
theorem turnStart_up {a0 a1 a2 a3} (ha0 : Up o a0) : Up o (turnStart a0 a1 a2 a3) :=
  (up_ite (up_ite (startNarrow_up (modTa_up (incWrap_up ha0))) (notStarted_up (incWrap_up ha0))) (up_ite (modTa_up (incWrap_up ha0)) (notStarted_up (incWrap_up ha0))))
theorem turnCtrl_up {a0 a1 a2} (ha0 : Up o a0) : Up o (turnCtrl a0 a1 a2) :=
  (up_ite ha0 (up_ite (modTa_up ha0) (turnStart_up ha0)))
theorem writeTa_up {a0 a1 a2 a3 a4} (ha0 : Up o a0) : Up o (writeTa a0 a1 a2 a3 a4) :=
  (up_ite (writeTarget_up ha0) (up_ite (writeClaim_up ha0) (up_ite (turnCtrl_up ha0) (plain_up ha0))))
theorem haltCore_up {a0 a1} (ha0 : Up o a0) : Up o (haltCore a0 a1) :=
  (up_ite (up_forEach (fun _ _ h0 => (setBit_up h0)) (modCore_up ha0)) (modCore_up ha0))
theorem thaw_up {a0 a1} (ha0 : Up o a0) : Up o (thaw a0 a1) := (up_forEach (fun _ _ h0 => (setBit_up h0)) ha0)
theorem renewLapsed_up {a0 a1} (ha0 : Up o a0) : Up o (renewLapsed a0 a1) :=
  (up_forEach (fun _ _ h0 => (by split; exacts [(up_ite (State.setWord_up h0) h0), h0])) ha0)
theorem resumeCore_up {a0 a1} (ha0 : Up o a0) : Up o (resumeCore a0 a1) :=
  (modCore_up (up_ite (up_ite (thaw_up (renewLapsed_up ha0)) ha0) (loseRecord_up (up_ite (thaw_up (renewLapsed_up ha0)) ha0))))
theorem haltSync_up {a0 a1} (ha0 : Up o a0) : Up o (haltSync a0 a1) :=
  (up_ite (up_ite (haltCore_up ha0) ha0) (up_ite (resumeCore_up ha0) ha0))
theorem setRun_up {a0 a1 a2} (ha0 : Up o a0) : Up o (setRun a0 a1 a2) := (haltSync_up (modCore_up ha0))
theorem restart_up {a0 a1 a2} (ha0 : Up o a0) : Up o (restart a0 a1 a2) := (setRun_up (up_ite (modCore_up ha0) ha0))
theorem writeRstOpc_up {a0 a1} (ha0 : Up o a0) : Up o (writeRstOpc a0 a1) :=
  (up_ite (modCore_up ha0) (up_ite (restart_up (modCore_up (up_ite (setBit_up ha0) ha0))) (modCore_up ha0)))
theorem writeMtx_up {a0 a1 a2 a3} (ha0 : Up o a0) : Up o (writeMtx a0 a1 a2 a3) :=
  (up_ite (up_ite ha0 ha0) (up_ite (up_ite ha0 (up_ite ha0 ha0)) (up_ite (writeRstOpc_up ha0) (plain_up ha0))))
theorem logGlobal_up {a0 a1 a2} (ha0 : Up o a0) : Up o (logGlobal a0 a1 a2) := (logAt_up ha0)
theorem askSwitch_up {a0} (ha0 : Up o a0) : Up o (askSwitch a0) :=
  (up_ite (logGlobal_up ha0) (up_ite ha0 (startSwitch_up ha0)))
theorem snapFt_up {a0} (ha0 : Up o a0) : Up o (snapFt a0) := (State.setReg_up (State.setReg_up ha0))
theorem issueStep_up {a0 a1 a2} (ha0 : Up o a0) : Up o (issueStep a0 a1 a2) := ha0
theorem pstep_up {a0 a1} (ha0 : Up o a0) : Up o (pstep a0 a1) := (up_ite ha0 (issueStep_up ha0))
theorem writeTk_up {a0 a1 a2 a3} (ha0 : Up o a0) : Up o (writeTk a0 a1 a2 a3) :=
  (up_ite (up_ite (askSwitch_up (plain_up ha0)) (plain_up ha0)) (up_ite (snapFt_up ha0) (up_ite (pstep_up ha0) (plain_up ha0))))
theorem State.setSlot_up {a0 a1 a2} (ha0 : Up o a0) : Up o (State.setSlot a0 a1 a2) := ha0
theorem setBad_up {a0 a1 a2 a3} (ha0 : Up o a0) : Up o (setBad a0 a1 a2 a3) := (State.setReg_up ha0)
theorem setSlotState_up {a0 a1 a2} (ha0 : Up o a0) : Up o (setSlotState a0 a1 a2) := (setFld_up ha0)
theorem modSlot_up {a0 a1 a2} (ha0 : Up o a0) : Up o (modSlot a0 a1 a2) := (State.setSlot_up ha0)
theorem slotAborted_up {a0 a1 a2 a3 a4} (ha0 : Up o a0) : Up o (slotAborted a0 a1 a2 a3 a4) := by
  unfold slotAborted; exact (logGlobal_up (incWrap_up (by generalize g : modSlot _ _ _ = b; exact (g ▸ (modSlot_up (setBad_up (setFld_up (setSlotState_up ha0)))) : Up o b))))
theorem sendFabrts_up {a0 a1} (ha0 : Up o a0) : Up o (sendFabrts a0 a1) :=
  (up_forEach (fun _ _ h0 => (ownSend_up h0)) ha0)
theorem stageUnreach_up {a0 a1 a2} (ha0 : Up o a0) : Up o (stageUnreach a0 a1 a2) :=
  (slotAborted_up (sendFabrts_up ha0))
theorem sendStage_up {a0 a1 a2 a3} (ha0 : Up o a0) : Up o (sendStage a0 a1 a2 a3) := (ownSend_up (modSlot_up ha0))
theorem listMiss_up {a0 a1} (ha0 : Up o a0) : Up o (listMiss a0 a1).2 := decodeMiss_up (freeW_up ha0)
theorem askRow_up {a0 a1 a2 a3} (ha0 : Up o a0) : Up o (askRow a0 a1 a2 a3) := (modTmc_up ha0)
theorem logTile_up {a0 a1 a2 a3} (ha0 : Up o a0) : Up o (logTile a0 a1 a2 a3) :=
  (up_ite (logCross_up ha0) (up_ite (logCross_up ha0) (logAt_up ha0)))
theorem trackRow_up {s t b r} (h : Up o s) : Up o (trackRow s t b r) := by
  unfold trackRow; extract_lets a key; split
  exact up_ite (askRow_up (logTile_up (State.setReg_up h))) (State.setReg_up h)
theorem noteUe_up {a0 a1 a2} (ha0 : Up o a0) : Up o (noteUe a0 a1 a2) :=
  (trackRow_up (logTile_up (State.setReg_up (incSat_up ha0))))
theorem noteCe_up {a0 a1 a2} (ha0 : Up o a0) : Up o (noteCe a0 a1 a2) := (trackRow_up (incWrap_up ha0))
theorem setPoison_up {a0 a1 a2} (ha0 : Up o a0) : Up o (setPoison a0 a1 a2) := ha0
theorem tmemRead_up {a0 a1 a2 a3} (ha0 : Up o a0) : Up o (tmemRead a0 a1 a2 a3).2 :=
  (up_ite2 (up_mk2 (noteUe_up ha0)) (by split; exacts [(up_mk2 ha0), (up_mk2 (noteCe_up ha0)), (up_mk2 (noteUe_up (setPoison_up ha0)))]))
theorem afterWake_up {a0 a1} (ha0 : Up o a0) : Up o (afterWake a0 a1) :=
  (up_ite (up_ite (modTa_up ha0) (requestSlim_up ha0)) (up_ite (wantVt_up ha0) ha0))
theorem deliverHeld_up {a0 a1} (ha0 : Up o a0) : Up o (deliverHeld a0 a1) :=
  (up_ite ha0 (modNi_up (up_forEach (fun _ _ h0 => (up_ite h0 (present_up h0))) ha0)))
theorem unclamp_up {a0 a1} (ha0 : Up o a0) : Up o (unclamp a0 a1) :=
  (up_ite (by split; exacts [ha0, (present_up (modNi_up ha0))]) (deliverHeld_up (by split; exacts [ha0, (present_up (modNi_up ha0))])))
theorem endResync_up {a0 a1 a2} (ha0 : Up o a0) : Up o (endResync a0 a1 a2) := (modRt_up ha0)
theorem emptyPorts_up {a0 a1} (ha0 : Up o a0) : Up o (emptyPorts a0 a1) :=
  (up_forEach (fun _ _ h0 => (incWrap_up (setCnt_up (endResync_up (modRt_up h0))))) (up_forEach (fun _ _ h1 => (incWrap_up (setCnt_up (endResync_up (modRt_up h1))))) ha0))
theorem addSat_up {a0 a1 a2} (ha0 : Up o a0) : Up o (addSat a0 a1 a2) := (State.setReg_up ha0)
theorem noteLoss_up {a0 a1 a2} (ha0 : Up o a0) : Up o (noteLoss a0 a1 a2) := (up_ite ha0 (logTile_up (addSat_up ha0)))
theorem caughtFrom_up {a0 a1 a2} (ha0 : Up o a0) : Up o (caughtFrom a0 a1 a2).1 := (up_mk1 (modRt_up ha0))
theorem killDown_up {a0 a1 a2 a3} (ha0 : Up o a0) : Up o (killDown a0 a1 a2 a3) := by
  unfold killDown; dsimp only; exact (up_ite (modRt_up ha0) (by split; exacts [(modNi_up (modNi_up ha0)), (modNi_up ha0)]))
theorem cutTrail_up {a0 a1 a2} (ha0 : Up o a0) : Up o (cutTrail a0 a1 a2) := by
  unfold cutTrail; dsimp only; split; exacts [(modRt_up ha0), (killDown_up (modRt_up ha0))]
theorem maxReg_up {a0 a1 a2} (ha0 : Up o a0) : Up o (maxReg a0 a1 a2) := (up_ite (State.setReg_up ha0) ha0)
theorem setSlice_up {a0 a1 a2 a3 a4} (ha0 : Up o a0) : Up o (setSlice a0 a1 a2 a3 a4) := (setFld_up (setFld_up ha0))
theorem narrowFence_up {a0 a1 a2} (ha0 : Up o a0) : Up o (narrowFence a0 a1 a2) :=
  (up_ite (setFld_up (setTileState_up (modTa_up (maxReg_up (setSlice_up ha0))))) (modTa_up (maxReg_up (setSlice_up ha0))))
theorem narrowDone_up {a0 a1} (ha0 : Up o a0) : Up o (narrowDone a0 a1) := by
  unfold narrowDone; split; exacts [ha0, (up_ite (narrowFence_up ha0) ha0)]
theorem returnPip_up {a0 a1 a2 a3 a4} (ha0 : Up o a0) : Up o (returnPip a0 a1 a2 a3 a4) := by
  unfold returnPip; dsimp only; split; exacts [(up_ite (setResync_up ha0) (up_ite (setCnt_up ha0) (modRt_up ha0))), (up_ite (narrowDone_up (setCnt_up ha0)) (modRt_up ha0))]
theorem returnPips_up {s t i k d n} (h : Up o s) : Up o (returnPips s t i k d n) := by
  induction n generalizing s with
  | zero => exact h
  | succ n ih =>
    cases n with
    | zero => exact returnPip_up h
    | succ n => exact ih (returnPip_up h)
theorem leaveBuffer_up {a0 a1 a2 a3} (ha0 : Up o a0) : Up o (leaveBuffer a0 a1 a2 a3) :=
  (up_ite (modRt_up ha0) (up_ite (returnPips_up (modRt_up ha0)) (modRt_up (returnPips_up (modRt_up ha0)))))
theorem dropFlight_up {a0 a1 a2} (ha0 : Up o a0) : Up o (dropFlight a0 a1 a2) := (leaveBuffer_up ha0)
theorem caughtAt_up {a0 a1 a2} (ha0 : Up o a0) : Up o (caughtAt a0 a1 a2).1 :=
  (up_mk1 (up_forEach (fun _ _ h0 => (modRt_up (cutTrail_up h0))) (up_forEach (fun _ _ h1 => (modRt_up (dropFlight_up h1))) ha0)))
theorem busyAt_up {a0 a1} (ha0 : Up o a0) : Up o (busyAt a0 a1) := (modTa_up ha0)
theorem setTx_up {a0 a1 a2 a3 a4} (ha0 : Up o a0) : Up o (setTx a0 a1 a2 a3 a4) := (setBit_up ha0)
theorem setRx_up {a0 a1 a2 a3 a4} (ha0 : Up o a0) : Up o (setRx a0 a1 a2 a3 a4) := (setBit_up ha0)
theorem reroute_up {a0 a1 a2} (ha0 : Up o a0) : Up o (reroute a0 a1 a2) := (modRt_up ha0)
theorem fenceLocal_up {a0 a1 a2} (ha0 : Up o a0) : Up o (fenceLocal a0 a1 a2) := (reroute_up (setBit_up ha0))
theorem loseLink_up {s t i} (h : Up o s) : Up o (loseLink s t i) := by
  unfold loseLink; dsimp only
  refine markReady_up (markReady_up (noteLoss_up (noteLoss_up ?_)))
  exact caughtFrom_up (caughtAt_up (logTile_up (busyAt_up (setTx_up (setTx_up (setRx_up (setRx_up (fenceLocal_up (fenceLocal_up h)))))))))
theorem repairAsk_up {a0 a1 a2 a3} (ha0 : Up o a0) : Up o (repairAsk a0 a1 a2 a3) := (up_ite ha0 ha0)
theorem setLink_up {a0 a1 a2 a3} (ha0 : Up o a0) : Up o (setLink a0 a1 a2 a3) := (modRt_up ha0)
theorem wakeFails_up {a0 a1 a2 a3} (ha0 : Up o a0) : Up o (wakeFails a0 a1 a2 a3) :=
  (up_pair2 (freeW_up ha0) fun _ _ h0 => (up_ite (loseLink_up (setFld_up (setFld_up h0))) (repairAsk_up (setLink_up (setTx_up (setRx_up (setFld_up (setFld_up h0))))))))
theorem trainPassed_up {a0 a1 a2 a3} (ha0 : Up o a0) : Up o (trainPassed a0 a1 a2 a3) := (setFld_up ha0)
theorem wakeHalf_up {a0 a1 a2 a3 a4} (ha0 : Up o a0) : Up o (wakeHalf a0 a1 a2 a3 a4) :=
  (up_ite ha0 (up_ite (wakeFails_up ha0) (trainPassed_up ha0)))
theorem wakeTrain_up {a0 a1} (ha0 : Up o a0) : Up o (wakeTrain a0 a1) := by
  unfold wakeTrain
  exact up_forEach (fun _ _ h2 => up_forEach (fun _ _ h3 => wakeHalf_up (wakeHalf_up h3)) h2) (freeW_up (freeW_up ha0))
theorem wakeDone_up {a0 a1} (ha0 : Up o a0) : Up o (wakeDone a0 a1) :=
  (up_ite (afterWake_up (up_forEach (fun _ _ h0 => (unclamp_up h0)) (emptyPorts_up (wakeTrain_up (incWrap_up (setTileState_up ha0)))))) ha0)
theorem wakeNow_up {a0 a1} (ha0 : Up o a0) : Up o (wakeNow a0 a1) := (wakeDone_up (wakeTile_up ha0))
theorem listWord_up {a0 a1} (ha0 : Up o a0) : Up o (listWord a0 a1).2 := by
  unfold listWord; split; exacts [(up_ite2 (listMiss_up ha0) (tmemRead_up (up_ite (wakeNow_up ha0) ha0))), (up_mk2 ha0), (up_ite2 (up_mk2 ha0) (listMiss_up ha0)), (listMiss_up ha0)]
theorem listWords_up {s a n} (h : Up o s) : Up o (listWords s a n).2 := by
  induction n generalizing s a with
  | zero => exact h
  | succ n ih =>
    unfold listWords
    split <;> rename_i e <;> have k := up_eq2 e (listWord_up h)
    · exact k
    · exact ih k
theorem listRecord_up {a0 a1} (ha0 : Up o a0) : Up o (listRecord a0 a1).2 := by
  have k := listWords_up (a := a1) (n := 2) ha0
  unfold listRecord; dsimp only
  split
  · exact k
  · exact up_ite2 k (listWords_up k)
theorem checkPass_up {s n i a l} (h : Up o s) : Up o (checkPass s n i a l).2 := by
  induction n generalizing s i a l with
  | zero => exact h
  | succ n ih =>
    unfold checkPass
    split <;> rename_i e <;> have k := up_eq2 e (listRecord_up h)
    · exact k
    · split
      · exact k
      · exact ih k
theorem checkList_up {a0 a1} (ha0 : Up o a0) : Up o (checkList a0 a1).2 := by
  unfold checkList; split; exacts [(checkPass_up ha0), (by split; exacts [(up_mk2 ha0), (up_mk2 ha0)])]
theorem checkSlot_up {a0 a1} (ha0 : Up o a0) : Up o (checkSlot a0 a1) := by
  unfold checkSlot
  split <;> rename_i e <;> have k := up_eq2 e (checkList_up ha0)
  · exact slotAborted_up k
  · exact modSlot_up k
theorem rereadEnt_up {a0 a1} (ha0 : Up o a0) : Up o (rereadEnt a0 a1).2 := by
  unfold rereadEnt; split
  · exact ha0
  · exact listRecord_up ha0

theorem rereadEnts_up {s i l} (h : Up o s) : Up o (rereadEnts s i l).2 := by
  induction l generalizing s i with
  | nil => exact h
  | cons x l ih =>
    unfold rereadEnts
    split <;> rename_i e <;> have k := up_eq2 e (rereadEnt_up h)
    · exact k
    · split <;> rename_i g <;> exact up_eq2 g (ih k)
theorem prefetch_up {a0 a1} (ha0 : Up o a0) : Up o (prefetch a0 a1) := by
  unfold prefetch; dsimp only
  split <;> rename_i e <;> have k := up_eq2 e (rereadEnts_up ha0)
  · exact modSlot_up k
  · exact slotAborted_up (sendFabrts_up k)
theorem pumpFuel_up {s k} (h : Up o s) : Up o (pumpFuel s k) := by
  induction k generalizing s with
  | zero => exact h
  | succ k ih =>
    unfold pumpFuel; split
    · exact h
    · rename_i x _
      refine up_ite (ih (checkSlot_up h)) ?_
      split
      · exact ih (up_upd h rfl)
      · have hp : Up o (prefetch s x) := prefetch_up h
        extract_lets s1
        have h1 : Up o s1 := hp
        clear_value s1
        split
        · exact ih h1
        · exact up_ite (ih (stageUnreach_up h1)) (up_ite h1 (ih (sendStage_up h1)))
theorem pump_up {a0} (ha0 : Up o a0) : Up o (pump a0) := (pumpFuel_up ha0)
theorem startSlot_up {a0 a1 a2} (ha0 : Up o a0) : Up o (startSlot a0 a1 a2) :=
  (pump_up (by generalize g : State.setSlot _ _ _ = b; exact (g ▸ (State.setSlot_up (State.setReg_up ha0)) : Up o b)))
theorem fnfGo_up {a0 a1 a2} (ha0 : Up o a0) : Up o (fnfGo a0 a1 a2) := (up_ite (startSlot_up ha0) ha0)
theorem dropLaunch_up {a0 a1} (ha0 : Up o a0) : Up o (dropLaunch a0 a1) := ha0
theorem fnfStop_up {a0 a1} (ha0 : Up o a0) : Up o (fnfStop a0 a1) :=
  (up_ite ha0 (by split; exacts [(setSlotState_up ha0), (up_ite (modSlot_up ha0) (setSlotState_up (dropLaunch_up ha0)))]))
theorem abortStaged_up {a0 a1 a2 a3 a4} (ha0 : Up o a0) : Up o (abortStaged a0 a1 a2 a3 a4) :=
  (pump_up (slotAborted_up (sendFabrts_up ha0)))
theorem fnfAbort_up {a0 a1} (ha0 : Up o a0) : Up o (fnfAbort a0 a1) :=
  (up_ite (abortStaged_up ha0) (up_ite (up_forEach (fun _ _ h0 => (ownSend_up h0)) ha0) ha0))
theorem fnfCmd_up {a0 a1 a2} (ha0 : Up o a0) : Up o (fnfCmd a0 a1 a2) :=
  (up_ite (fnfAbort_up (up_ite (fnfStop_up (up_ite (fnfGo_up ha0) (up_ite (fnfGo_up ha0) ha0))) (up_ite (fnfGo_up ha0) (up_ite (fnfGo_up ha0) ha0)))) (up_ite (fnfStop_up (up_ite (fnfGo_up ha0) (up_ite (fnfGo_up ha0) ha0))) (up_ite (fnfGo_up ha0) (up_ite (fnfGo_up ha0) ha0))))
theorem writeFnf_up {a0 a1 a2 a3} (ha0 : Up o a0) : Up o (writeFnf a0 a1 a2 a3) :=
  (up_ite (fnfCmd_up ha0) (plain_up ha0))
theorem takeProfile_up {a0 a1} (ha0 : Up o a0) : Up o (takeProfile a0 a1) := (up_ite ha0 (modTa_up ha0))
theorem writeProfile_up {a0 a1} (ha0 : Up o a0) : Up o (writeProfile a0 a1) := (State.setReg_up ha0)
theorem writeSc5_up {a0 a1 a2} (ha0 : Up o a0) : Up o (writeSc5 a0 a1 a2) :=
  (up_forEach (fun _ _ h0 => (up_ite (wantVt_up (wakeTile_up h0)) h0)) (State.setReg_up ha0))
theorem writePwr_up {a0 a1 a2 a3} (ha0 : Up o a0) : Up o (writePwr a0 a1 a2 a3) :=
  (up_ite (writeProfile_up ha0) (up_ite (writeSc5_up ha0) (plain_up ha0)))
theorem writeC1Run_up {a0 a1} (ha0 : Up o a0) : Up o (writeC1Run a0 a1) :=
  (up_ite (setRun_up (State.setReg_up ha0)) (up_ite (modCore_up (State.setReg_up ha0)) (State.setReg_up ha0)))
theorem writeClk_up {a0 a1 a2} (ha0 : Up o a0) : Up o (writeClk a0 a1 a2) :=
  (up_ite (up_ite (setBit_up (setBit_up ha0)) (setBit_up ha0)) (setBit_up (setBit_up ha0)))
theorem writeOpc_up {a0 a1 a2 a3} (ha0 : Up o a0) : Up o (writeOpc a0 a1 a2 a3) :=
  (up_ite (writeC1Run_up ha0) (up_ite (writeClk_up ha0) (up_ite (writeClk_up ha0) (plain_up ha0))))
theorem setBox_up {a0 a1 a2} (ha0 : Up o a0) : Up o (setBox a0 a1 a2) := (setBit_up ha0)
theorem crossDoorbell_up {a0 a1} (ha0 : Up o a0) (ha1 : Up o a1) : Up o (crossDoorbell a0 a1) :=
  (up_ite ha1 (up_forEach (fun _ _ h0 => (overrun_up (incFldSat_up h0))) ha1))
theorem doorbell_up {a0 a1 a2} (ha0 : Up o a0) : Up o (doorbell a0 a1 a2) :=
  (up_ite (setBox_up ha0) (up_ite (keepHeader_up (State.setReg_up (State.setReg_up ha0))) (crossDoorbell_up ha0 (State.setReg_up (State.setReg_up ha0)))))
theorem askSession_up {a0 a1 a2} (ha0 : Up o a0) : Up o (askSession a0 a1 a2) := by
  unfold askSession; dsimp only; split <;> exact (by generalize g : setBit _ _ _ _ = b; exact (g ▸ (setBit_up ha0) : Up o b))
theorem takeResets_up {s n} (h : Up o s) : Up o (takeResets s n) := by
  induction n generalizing s with
  | zero => exact h
  | succ n ih =>
    unfold takeResets; split
    · exact h
    · exact ih (askSession_up h)
theorem sessionWrite_up {a0} (ha0 : Up o a0) : Up o (sessionWrite a0) := (askSession_up (takeResets_up ha0))
theorem writeMbx_up {a0 a1 a2 a3} (ha0 : Up o a0) : Up o (writeMbx a0 a1 a2 a3) :=
  (up_ite (doorbell_up ha0) (up_ite (sessionWrite_up ha0) (irqSync_up (plain_up ha0))))
theorem writeExt_up {a0 a1 a2 a3} (ha0 : Up o a0) : Up o (writeExt a0 a1 a2 a3) :=
  (up_ite ha0 (up_ite (bridgePublish_up (plain_up ha0)) (plain_up ha0)))
theorem setFrozen_up {a0 a1 a2} (ha0 : Up o a0) : Up o (setFrozen a0 a1 a2) :=
  (up_forEach (fun _ _ h0 => (setBit_up h0)) ha0)
theorem freezeSync_up {a0 a1} (ha0 : Up o a0) : Up o (freezeSync a0 a1) := (up_ite (setFrozen_up ha0) ha0)
theorem writeDbg_up {a0 a1 a2 a3} (ha0 : Up o a0) : Up o (writeDbg a0 a1 a2 a3) :=
  (up_ite (freezeSync_up (freezeSync_up (plain_up ha0))) (up_ite (haltSync_up (haltSync_up (plain_up ha0))) (plain_up ha0)))
theorem writeAt_up {a0 a1 a2 a3 a4 a5} (ha0 : Up o a0) : Up o (writeAt a0 a1 a2 a3 a4 a5) := by
  unfold writeAt; split; exacts [ha0, ha0, ha0, (by split; exacts [(writeRtr_up ha0), (writeSlc_up ha0), (writeNi_up ha0), (writeGrd_up ha0), (writeGrd_up ha0), (up_ite (writeSpare_up ha0) (plain_up ha0)), (writeTa_up ha0), (writeMtx_up ha0), (writeTk_up ha0), (writeFnf_up ha0), (writePwr_up ha0), (writeOpc_up ha0), (writeMbx_up ha0), (writeExt_up ha0), (plain_up ha0), (plain_up ha0), ha0, (writeDbg_up ha0)])]
theorem wakeFor_up {a0 a1} (ha0 : Up o a0) : Up o (wakeFor a0 a1) := by
  unfold wakeFor; split; exacts [(up_ite (wakeNow_up ha0) ha0), ha0]
theorem writeWord_up {a0 a1 a2 a3 a4} (ha0 : Up o a0) : Up o (writeWord a0 a1 a2 a3 a4).2 := by
  unfold writeWord; split; exacts [(up_mk2 (decodeMiss_up ha0)), (up_ite2 (up_mk2 ha0) (up_mk2 (writeAt_up (wakeFor_up ha0))))]
theorem poke_up {a0 a1 a2 a3} (ha0 : Up o a0) : Up o (poke a0 a1 a2 a3) := (writeWord_up ha0)
theorem setShadow_up {a0 a1 a2} (ha0 : Up o a0) : Up o (setShadow a0 a1 a2) := ha0
theorem noteMiss_up {a0 a1 a2} (ha0 : Up o a0) : Up o (noteMiss a0 a1 a2) := (up_ite (logAt_up ha0) (logAt_up ha0))
theorem postEvent_up {a0 a1 a2} (ha0 : Up o a0) : Up o (postEvent a0 a1 a2) := (pushEv_up ha0)
theorem writeBurst_up {s n a x l} (h : Up o s) : Up o (writeBurst s n a x l).2 := by
  induction l generalizing s x with
  | nil => exact h
  | cons v l ih => exact ih (writeWord_up h)
theorem burst_up {a0 a1 a2 a3 a4} (ha0 : Up o a0) : Up o (burst a0 a1 a2 a3 a4).2 :=
  (up_mk2 (up_ite (postEvent_up (writeBurst_up ha0)) (writeBurst_up ha0)))
theorem answered_length (l : List PortReq) : (answered l).2.length ≤ l.length := by
  induction l with
  | nil => exact Nat.le_refl _
  | cons q l ih =>
    unfold answered; split
    · exact Nat.le_refl _
    · exact Nat.le_succ_of_le ih
theorem flushPorts_up {s} (h : Up o s) : Up o (flushPorts s) :=
  UpF.mk' h rfl rfl id id id (fun k => Nat.le_trans (answered_length _) k) id
theorem answerPort_up {s m i st d} (h : Up o s) : Up o (answerPort s m i st d) := by
  cases m
  · exact up_ite (modCore_up h) (up_upd h rfl)
  · exact flushPorts_up h
  · exact flushPorts_up (UpF.mk' h rfl rfl id id id (fun k => by simpa using k) id)
theorem memAccess_up {a0 a1 a2 a3 a4 a5 a6} (ha0 : Up o a0) : Up o (memAccess a0 a1 a2 a3 a4 a5 a6) := by
  unfold memAccess; split; exacts [(answerPort_up (decodeMiss_up ha0)), (up_pair22 (opconServe_up ha0) fun _ _ _ h0 => (answerPort_up h0)), (modTmc_up (up_ite (wakeNow_up ha0) ha0))]
theorem coreMemory_up {a0 a1 a2 a3 a4} (ha0 : Up o a0) : Up o (coreMemory a0 a1 a2 a3 a4) :=
  (up_ite (noteMiss_up (memAccess_up ha0)) (memAccess_up ha0))
theorem coreWrite_up {a0 a1 a2 a3} (ha0 : Up o a0) : Up o (coreWrite a0 a1 a2 a3) := by
  unfold coreWrite; dsimp only
  split
  · exact recordNotice_up ha0
  · refine up_ite (coreMemory_up ha0) ?_
    have k := burst_up (a1 := coreNode a0 a1) (a2 := a2) (a3 := a3) (a4 := some (.core (Fin.ofNat 2 a1), a0.nextId)) ha0
    generalize burst a0 (coreNode a0 a1) a2 a3 (some (.core (Fin.ofNat 2 a1), a0.nextId)) = x at k
    split
    · exact noteMiss_up (up_ite (modCore_up k) (up_upd k rfl))
    · exact up_ite (modCore_up k) (up_upd k rfl)
theorem readSlotStat_up {a0 a1} (ha0 : Up o a0) : Up o (readSlotStat a0 a1) := (up_ite (setSlotState_up ha0) ha0)
theorem readWord_up {a0 a1 a2 a3} (ha0 : Up o a0) : Up o (readWord a0 a1 a2 a3).2 := by
  unfold readWord; dsimp only; split; exacts [(up_mk2 (decodeMiss_up ha0)), (up_mk2 (up_ite (wakeFor_up ha0) (up_ite (State.setReg_up (wakeFor_up ha0)) (by split; exacts [(readSlotStat_up (wakeFor_up ha0)), (wakeFor_up ha0)]))))]
theorem coreRead_up {a0 a1 a2} (ha0 : Up o a0) : Up o (coreRead a0 a1 a2) := by
  unfold coreRead; split
  · exact recordFault_up ha0
  · refine up_ite (coreMemory_up ha0) ?_
    split; rename_i e
    have k := up_eq2 e (readWord_up ha0)
    exact up_ite (noteMiss_up k) k
theorem coreNow_up {a0 a1 a2} (ha0 : Up o a0) : Up o (coreNow a0 a1 a2) := (up_ite (coreWrite_up ha0) (coreRead_up ha0))
theorem coreDrain_up {s n} (h : Up o s) : Up o (coreDrain s n) := by
  induction n generalizing s with
  | zero => exact h
  | succ n ih =>
    unfold coreDrain; split
    · exact h
    · exact ih (coreNow_up (modCore_up h))
theorem coreSettle_up {a0} (ha0 : Up o a0) : Up o (coreSettle a0) := (coreDrain_up ha0)
theorem fwStore_up {a0 a1 a2} (ha0 : Up o a0) : Up o (fwStore a0 a1 a2) := by
  unfold fwStore; split; exacts [(poke_up ha0), (up_ite (setShadow_up (poke_up ha0)) (poke_up ha0))]
theorem fwPoke_up {a0 a1 a2} (ha0 : Up o a0) : Up o (fwPoke a0 a1 a2) := by
  unfold fwPoke; split; exacts [(recordNotice_up ha0), (up_ite (noteMiss_up (poke_up ha0)) (coreSettle_up (fwStore_up ha0)))]
theorem fwWrites_up {s l} (h : Up o s) : Up o (fwWrites s l).2 := by
  induction l generalizing s with
  | nil => exact h
  | cons e l ih =>
    obtain ⟨a, v⟩ := e
    exact up_ite2 (fwPoke_up h) (ih (fwPoke_up h))
theorem okCmd_up {a0 a1 a2 a3} (ha0 : Up o a0) : Up o (okCmd a0 a1 a2 a3) := (finish_up ha0)
theorem runSlot_up {a0 a1 a2 a3} (ha0 : Up o a0) : Up o (runSlot a0 a1 a2 a3) :=
  (up_ite (failCmd_up (noteClamps_up ha0)) (up_ite (failCmd_up (noteClamps_up ha0)) (by split <;> rename_i e; exacts [(failCmd_up (up_eq2 e (fwWrites_up (noteClamps_up ha0)))), (okCmd_up (up_eq2 e (fwWrites_up (noteClamps_up ha0))))])))
theorem fnfRun_up {a0 a1} (ha0 : Up o a0) : Up o (fnfRun a0 a1) := (runSlot_up ha0)
theorem execFnfRun_up {a0} (ha0 : Up o a0) : UpR o (execFnfRun a0) := (fwCmd_up (fun _ _ h0 => (fnfRun_up h0)) ha0)
theorem fwPokes_up {a0 a1} (ha0 : Up o a0) : Up o (fwPokes a0 a1) := (up_forEach (fun _ _ h0 => (fwPoke_up h0)) ha0)
theorem dropRoute_up {a0 a1} (ha0 : Up o a0) : Up o (dropRoute a0 a1) := by
  unfold dropRoute; dsimp only; split; exacts [ha0, (up_ite (fwPokes_up ha0) ha0)]
theorem fwTrapped_up {a0 a1} (ha0 : Up o a0) : UpO o (fwTrapped a0 a1) := by
  unfold fwTrapped; cases accessFails a0 (448 + activeCore a0) a1 1 true false (corePriv a0 (activeCore a0)) with
  | none => exact upO_none
  | some x => exact upO_some (freeW_up (recordFault_up ha0))
theorem fwReadWord_up {a0 a1 a2} (ha0 : Up o a0) : Up o (fwReadWord a0 a1 a2).2 := by
  unfold fwReadWord; split <;> rename_i e
  · exact (fwTrapped_up ha0) _ _ e
  · split <;> rename_i e
    · exact noteMiss_up (up_eq2 e (readWord_up ha0))
    · exact up_eq2 e (readWord_up ha0)
theorem fwReads_up {s p l} (h : Up o s) : Up o (fwReads s p l).2.2 := by
  induction l generalizing s with
  | nil => exact h
  | cons a l ih =>
    unfold fwReads; split <;> rename_i e
    · exact up_eq2 e (fwReadWord_up h)
    · exact ih (up_eq2 e (fwReadWord_up h))
theorem pwrRead_up {s r} (h : Up o s) : Up o (pwrRead s r) := by
  unfold pwrRead; extract_lets t; generalize e : fwReads _ _ _ = x
  have k : Up o x.2.2 := e ▸ fwReads_up (noteClamps_up h)
  obtain ⟨_ | _, _, s1⟩ := x
  · exact okCmd_up k
  · exact failCmd_up k
theorem execPwrRead_up {a0} (ha0 : Up o a0) : UpR o (execPwrRead a0) := (fwCmd_up (fun _ _ h0 => (pwrRead_up h0)) ha0)
theorem loadKeys_up {a0} (ha0 : Up o a0) : Up o (loadKeys a0) :=
  (up_forEach (fun _ _ h0 => (up_forEach (fun _ _ h1 => (State.setReg_up h1)) h0)) ha0)
theorem setPort_up {a0 a1} (ha0 : Up o a0) : Up o (setPort a0 a1) := (fwPoke_up ha0)
theorem wakeCores_up {a0} (ha0 : Up o a0) : Up o (wakeCores a0) :=
  (setPort_up (setFld_up (setFld_up (writeClk_up (setRun_up (modCore_up (setBit_up (loadKeys_up ha0))))))))
theorem refill_up {a0 a1 a2} (_ha0 : Up o a0) (ha1 : Up o a1) : Up o (refill a0 a1 a2) := by
  unfold refill; dsimp only; split; exacts [(up_forEach (fun _ _ h0 => (State.setReg_up h0)) ha1), (up_ite (up_forEach (fun _ _ h1 => (State.setReg_up h1)) ha1) (up_forEach (fun _ _ h2 => (State.setReg_up h2)) ha1))]
theorem restoreTile_up {a0 a1} (ha0 : Up o a0) : Up o (restoreTile a0 a1) :=
  (up_forEach (fun _ _ h0 => (up_ite (State.setReg_up h0) h0)) (up_forEach (fun _ _ h1 => (State.setReg_up h1)) (setFld_up (setFld_up (State.setReg_up (State.setReg_up (State.setReg_up ha0)))))))
theorem retrain_up {a0 a1} (ha0 : Up o a0) : Up o (retrain a0 a1) :=
  (up_forEach (fun _ _ h0 => (up_forEach (fun _ _ h1 => (setFld_up (setTx_up (setRx_up (setTx_up (setRx_up h1)))))) (setLink_up (setLink_up h0)))) ha0)
theorem bumpEpoch_up {a0 a1} (ha0 : Up o a0) : Up o (bumpEpoch a0 a1) := (setFld_up (loseRecord_up ha0))
theorem keepEpochs_up {a0 a1 a2} (ha0 : Up o a0) (ha1 : Up o a1) : Up o (keepEpochs a0 a1 a2) :=
  (up_forEach (fun _ _ h0 => (bumpEpoch_up (State.setReg_up (State.setReg_up h0)))) ha1)
theorem tileResetOff_up {a0 a1} (ha0 : Up o a0) : Up o (tileResetOff a0 a1) :=
  (republish_up (uintDrop_up (emptyPorts_up (retrain_up (State.setReg_up (up_forEach (fun _ _ h0 => (up_forEach (fun _ _ h1 => (noteTrigger_up ha0 h1)) h0)) (modTa_up (refill_up ha0 (restoreTile_up (keepEpochs_up ha0 (resetRegs_up (up_forEach (fun _ _ h2 => (State.setNi_up h2)) (State.setTmc_up (State.setRt_up ha0))))))))))))))
theorem restoreGlobals_up {a0} (ha0 : Up o a0) : Up o (restoreGlobals a0) :=
  (up_forEach (fun _ _ h0 => (State.setReg_up h0)) ha0)
theorem wakeGlobals_up {s} (h : Up o s) : Up o (wakeGlobals s) :=
  up_forEach (fun _ _ k => tileResetOff_up k) (setTk_up (restoreGlobals_up
    (UpF.mk' h rfl rfl Sparse.wf_filter id (fun _ => Nat.zero_le _) id fun _ => Nat.zero_le _)))
theorem rewriteShadows_up {a0} (ha0 : Up o a0) : Up o (rewriteShadows a0) :=
  (up_forEach (fun _ _ h0 => (up_ite h0 (State.setReg_up h0))) ha0)
theorem restoreNiRegs_up {a0 a1} (ha0 : Up o a0) : Up o (restoreNiRegs a0 a1) := (fwPokes_up ha0)
theorem wakeSlice_up {a0 a1 a2} (ha2 : Up o a2) : Up o (wakeSlice a0 a1 a2) :=
  (up_ite ha2 (up_ite (logFw_up (setSlice_up ha2)) (incWrap_up (setSlice_up ha2))))
theorem wakeTarget_up {a0 a1} (ha1 : Up o a1) : Up o (wakeTarget a0 a1) :=
  (up_ite (requestSlim_up ha1) (up_ite (enterOff_up ha1) ha1))
theorem wakeMap_up {a0} (ha0 : Up o a0) : Up o (wakeMap a0) :=
  (up_forEach (fun _ _ h0 => (setShadow_up (State.setReg_up (up_forEach (fun _ _ h1 => (setShadow_up (State.setReg_up h1))) h0)))) ha0)
theorem zeroWords_up {s a k} (h : Up o s) : Up o (zeroWords s a k) := UpF.mk' h rfl rfl id Sparse.wf_filter id id id
theorem wakeFabric_up {s bad} (h : Up o s) : Up o (wakeFabric s bad) := by
  unfold wakeFabric
  extract_lets s1 s2 s3 s4 s5 s6 s7 s8
  have k3 : Up o s3 := rewriteShadows_up (logFw_up (wakeCores_up (wakeGlobals_up h)))
  clear_value s3
  have k4 : Up o s4 := up_forEach (fun _ _ h => up_ite h (restoreNiRegs_up h)) k3
  clear_value s4
  have k5 : Up o s5 := up_forEach (fun _ _ h => wakeSlice_up h) k4
  clear_value s5
  have k6 : Up o s6 := up_forEach (fun _ _ h => up_ite h (emptyPorts_up (retrain_up h))) k5
  clear_value s6
  have k7 : Up o s7 := up_forEach (fun _ _ h => wakeTarget_up h) (wakeMap_up k6)
  clear_value s7
  have k8 : Up o s8 := setBit_up (zeroWords_up (zeroWords_up k7))
  clear_value s8
  have k : Up o (setFld s8 (pwrReg Off.PWR_STAT) 0 2 0) := setFld_up k8
  have e : ∀ u : State, Up o u → Up o (noteSc5 { u with checkDue := true }) := fun u h => noteSc5_up (up_upd h rfl)
  exact bridgePublish_up (e _ k)
theorem execRetentionWake_up {a0 a1} (ha1 : Up o a1) : UpR o (execRetentionWake a0 a1) :=
  (when_up ha1 (wakeFabric_up ha1))
theorem execWakeComplete_up {a0 a1} (ha1 : Up o a1) : UpR o (execWakeComplete a0 a1) := (up_ok (wakeDone_up ha1))
theorem debitBranches_up {s t f l} (h : Up o s) : UpS o (debitBranches s t f l) := by
  induction l generalizing s with
  | nil => exact upS_some h
  | cons e l ih =>
    obtain ⟨p, _ | ⟨i, b, c⟩⟩ := e
    · exact ih h
    · unfold debitBranches; split
      · split
        · split
          · exact upS_none
          · exact ih (setCnt_up h)
        · exact upS_none
      · exact up_iteS (ih h) upS_none
theorem placeBranches_up {a0 a1 a2 a3} (ha0 : Up o a0) : Up o (placeBranches a0 a1 a2 a3) := (modRt_up ha0)
theorem makeBranches_up {t f g l s} (h : Up o s) : Up o (makeBranches t f g l s).2 := by
  induction l generalizing s with
  | nil => exact h
  | cons x l ih =>
    obtain ⟨p, _ | ⟨a, b, c⟩⟩ := x
    · exact ih (logTile_up (incSat_up (up_ite (State.setReg_up h) h)))
    · exact ih (up_upd h rfl)
theorem replicateOne_up {a0 a1 a2} (ha0 : Up o a0) : UpS o (replicateOne a0 a1 a2) := by
  unfold replicateOne; dsimp only
  split <;> rename_i e
  · exact upS_none
  · exact upS_some (up_ite (dropFlight_up (makeBranches_up (addWrap_up (modRt_up (debitBranches_up ha0 _ e)))))
      (placeBranches_up (makeBranches_up (addWrap_up (modRt_up (debitBranches_up ha0 _ e))))))
theorem holdDead_up {a0 a1} (ha0 : Up o a0) : Up o (holdDead a0 a1) := (logFw_up (modCore_up (setBit_up ha0)))
theorem trapCore_up {a0 a1 a2 a3} (ha0 : Up o a0) : Up o (trapCore a0 a1 a2 a3) :=
  (up_ite (modCore_up (logAt_up (State.setReg_up (modCore_up (loseRecord_up ha0))))) (up_ite (holdDead_up (setBit_up (modCore_up (logAt_up (State.setReg_up (modCore_up (loseRecord_up ha0))))))) (modCore_up (setBit_up (modCore_up (logAt_up (State.setReg_up (modCore_up (loseRecord_up ha0)))))))))
theorem execOpcTrap_up {a0 a1 a2 a3} (ha3 : Up o a3) : UpR o (execOpcTrap a0 a1 a2 a3) :=
  (when_up ha3 (trapCore_up ha3))
theorem dropJobs_up {a0 a1 a2} (ha0 : Up o a0) : Up o (dropJobs a0 a1 a2) := ha0
theorem fabReset_up {s} (h : Up o s) : Up o (fabReset s) :=
  setBit_up (setBit_up (setBit_up (UpF.mk' h rfl rfl Sparse.wf_filter Sparse.wf_filter (fun _ => Nat.zero_le _) (fun _ => Nat.zero_le _) fun _ => Nat.zero_le _)))
theorem scanAgain_up {a0 a1} (ha0 : Up o a0) : Up o (scanAgain a0 a1) := ha0
theorem reached_up {s a f} (h : Up o s) (hf : ∀ s, Up o s → Up o (f s)) : Up o (reached s a f) := by
  unfold reached; split
  · exact decodeMiss_up h
  · exact hf _ (wakeFor_up h)
theorem execNiEnable_up {a0 a1} (ha1 : Up o a1) : UpR o (execNiEnable a0 a1) :=
  up_ok (reached_up ha1 fun _ k => up_ite k (writeNiCtrl_up k))
theorem fnfXrun_up {a0 a1} (ha0 : Up o a0) : Up o (fnfXrun a0 a1) := (runSlot_up ha0)
theorem execFnfXrun_up {a0} (ha0 : Up o a0) : UpR o (execFnfXrun a0) := (fwCmd_up (fun _ _ h0 => (fnfXrun_up h0)) ha0)
theorem takeRsv_up {a0 a1 a2 a3} (ha0 : Up o a0) : UpO o (takeRsv a0 a1 a2 a3) := (takeEject_up ha0)
theorem execBeat_up {a0} (ha0 : Up o a0) : UpR o (execBeat a0) := (when_up ha0 (State.setReg_up ha0))
theorem storeEnds_up {a0 a1 a2 a3} (ha0 : Up o a0) : Up o (storeEnds a0 a1 a2 a3) := (modTmc_up ha0)
theorem tmemStore_up {a0 a1 a2 a3 a4 a5} (ha0 : Up o a0) : Up o (tmemStore a0 a1 a2 a3 a4 a5) :=
  (storeEnds_up (setPoison_up (State.setWord_up ha0)))
theorem storeEntries_up {s t n} (h : Up o s) : Up o (storeEntries s t n) := by
  induction n generalizing s with
  | zero => exact h
  | succ n ih =>
    unfold storeEntries; split
    · exact h
    · exact up_ite (ih (tmemStore_up (modTmc_up h))) h
theorem popReq_up {a0 a1} (ha0 : Up o a0) : Up o (popReq a0 a1) := (storeEntries_up (modTmc_up ha0))
theorem stageTmem_up {a0 a1 a2} (ha0 : Up o a0) : Up o (stageTmem a0 a1 a2) := (modNi_up ha0)
theorem tmemAnswer_up {a0 a1 a2 a3 a4 a5} (ha0 : Up o a0) : Up o (tmemAnswer a0 a1 a2 a3 a4 a5) := by
  unfold tmemAnswer; split; exacts [(popReq_up ha0), (stageTmem_up (popReq_up ha0)), (answerPort_up (popReq_up ha0))]
theorem fopFinish_up {a0 a1 a2 a3} (ha0 : Up o a0) : Up o (fopFinish a0 a1 a2 a3) :=
  (up_ite (tmemAnswer_up ha0) (up_ite (tmemAnswer_up ha0) (tmemAnswer_up ha0)))
theorem fopStep_up {a0 a1 a2 a3} (ha0 : Up o a0) : Up o (fopStep a0 a1 a2 a3) :=
  (up_ite (modTmc_up (incWrap_up ha0)) (fopFinish_up (modTmc_up (incWrap_up ha0))))
theorem fopWord_up {a0 a1 a2 a3} (ha0 : Up o a0) : Up o (fopWord a0 a1 a2 a3) := by
  unfold fopWord; dsimp only; split <;> rename_i e; exacts [(fopFinish_up (up_eq2 e (tmemRead_up ha0))), (fopStep_up (tmemStore_up (up_eq2 e (tmemRead_up ha0))))]
theorem execOr36_up {a0 a1 a2} (ha2 : Up o a2) : UpR o (execOr36 a0 a1 a2) := by
  unfold execOr36; split; exacts [(ok_up ha2), (when_up ha2 (fopWord_up ha2))]
theorem takeBack_up {a0 a1 a2} (ha0 : Up o a0) : Up o (takeBack a0 a1 a2) := (serveAll_up (State.setNi_up ha0))
theorem skipSlot_up {a0 a1 a2 a3} (ha0 : Up o a0) : Up o (skipSlot a0 a1 a2 a3) :=
  (logNi_up (incSat_up (takeBack_up (modNi_up ha0))))
theorem execReorderSkip_up {a0 a1 a2} (ha2 : Up o a2) : UpR o (execReorderSkip a0 a1 a2) := by
  unfold execReorderSkip; dsimp only; split; exacts [(ok_up ha2), (when_up ha2 (skipSlot_up ha2))]
theorem performWrite_up {a s} (h : Up o s) : Up o (performWrite a s) := by
  unfold performWrite; split; rename_i e; split
  · exact up_ite (answerPort_up (up_eq2 e (writeWord_up h))) (up_eq2 e (writeWord_up h))
  · exact up_eq2 e (writeWord_up h)
theorem performWrites_up {l s} (h : Up o s) : Up o (performWrites l s) := by
  induction l generalizing s with
  | nil => exact h
  | cons e l ih => exact ih (performWrite_up h)
theorem serveWait_up {a0 a1 a2} (ha2 : Up o a2) : Up o (serveWait a0 a1 a2) := by
  unfold serveWait; split; exacts [(writeTarget_up ha2), (writeClaim_up ha2), (turnCtrl_up ha2)]
theorem gearOp_up {a0 a1} (ha0 : Up o a0) : Up o (gearOp a0 a1) := by
  unfold gearOp; split; exacts [(recordRefusal_up (modTa_up ha0)), (wantVt_up ha0)]
theorem beginDue_up {a0 a1} (ha0 : Up o a0) : Up o (beginDue a0 a1) := by
  unfold beginDue; split; exacts [ha0, (wantVt_up ha0), (up_ite (modTa_up ha0) (gearOp_up ha0))]
theorem afterBrace_up {a0 a1} (ha0 : Up o a0) : Up o (afterBrace a0 a1) :=
  (up_ite ha0 (beginDue_up (up_forEach (fun _ _ h0 => (serveWait_up h0)) (modTa_up ha0))))
theorem applyPosted_up {s} (h : Up o s) : Up o (applyPosted s) := by
  unfold applyPosted; split
  · exact h
  · rename_i e
    exact up_ite h (burst_up (UpF.mk' h rfl rfl id id id id fun k => by rw [e] at k; exact Nat.le_of_succ_le k))
theorem applyAllPosted_up {s k} (h : Up o s) : Up o (applyAllPosted s k) := by
  induction k generalizing s with
  | zero => exact h
  | succ k ih => exact up_ite h (ih (applyPosted_up h))
theorem endBrace_up {a0} (ha0 : Up o a0) : Up o (endBrace a0) :=
  (logGlobal_up (up_forEach (fun _ _ h0 => (afterBrace_up h0)) (coreSettle_up (applyAllPosted_up (performWrites_up (maxReg_up (incWrap_up (State.setReg_up (setFld_up ha0)))))))))
theorem execBraceEnd_up {a0} (ha0 : Up o a0) : UpR o (execBraceEnd a0) :=
  (up_iteR (up_ok (endBrace_up ha0)) (when_up ha0 (setBit_up ha0)))
theorem enterDoze_up {a0 a1} (ha0 : Up o a0) : Up o (enterDoze a0 a1) :=
  (modTa_up (setTileState_up (up_forEach (fun _ _ h0 => (incWrap_up (endResync_up h0))) ha0)))
theorem setDrained_up {a0 a1} (ha0 : Up o a0) : Up o (setDrained a0 a1) := (logNi_up (modNi_up ha0))
theorem execDrainEnd_up {a0 a1} (ha1 : Up o a1) : UpR o (execDrainEnd a0 a1) := (when_up ha1 (setDrained_up ha1))
theorem computeGrant_up {a0 a1 a2 a3} (ha0 : Up o a0) : Up o (computeGrant a0 a1 a2 a3) := (setResync_up (modRt_up ha0))
theorem execResyncMark_up {a0 a1 a2} (ha2 : Up o a2) : UpR o (execResyncMark a0 a1 a2) := by
  unfold execResyncMark; split; exacts [(ok_up ha2), (when_up ha2 (computeGrant_up ha2))]
theorem acquire_up {a0 a1 a2 a3 a4} (ha2 : Up o a2) : Up o (acquire a0 a1 a2 a3 a4).2.2.2 :=
  (up_ite222 (up_mk2 ha2) (up_ite222 (up_mk2 ha2) (up_ite222 (up_mk2 ha2) (up_mk2 (State.setReg_up (incSat_up ha2))))))
theorem badIrsp_up {a0 a1 a2} (ha0 : Up o a0) : Up o (badIrsp a0 a1 a2) := by
  unfold badIrsp; split; exacts [(raiseErr_up ha0), (owedResp_up (modNi_up (raiseErr_up ha0)))]
theorem readIrsp_up {a0 a1 a2} (ha0 : Up o a0) : Up o (readIrsp a0 a1 a2) := by
  unfold readIrsp; exact (up_ite (badIrsp_up ha0) (by split; exacts [(modNi_up (noteOpen_up ha0))]))
theorem acceptIrsp_up {a0 a1 a2} (ha0 : Up o a0) : Up o (acceptIrsp a0 a1 a2) :=
  (up_ite (stirTile_up ha0) (up_ite (orphanOp_up (stirTile_up ha0)) (up_ite (putFifo_up (stirTile_up ha0)) (readIrsp_up (stirTile_up ha0)))))
theorem execFopresp_up {a0 a1 a2} (ha2 : Up o a2) : UpR o (execFopresp a0 a1 a2) := (ok_up (acceptIrsp_up ha2))
theorem execMsg_up {a0 a1 a2} (ha2 : Up o a2) : UpR o (execMsg a0 a1 a2) := (ok_up (acceptOreq_up ha2))
theorem restartTk_up {a0 a1} (ha0 : Up o a0) : Up o (restartTk a0 a1) := by
  unfold restartTk; split; exacts [(up_ite (logFw_up ha0) ha0), ha0]
theorem keepHist_up {a0 a1 a2} (ha0 : Up o a0) : Up o (keepHist a0 a1 a2) := (State.setReg_up (State.setReg_up ha0))
theorem xoutcome_up {s a b c} (h : Up o s) : Up o (xoutcome s a b c) := by
  unfold xoutcome; dsimp only; split
  · generalize g : modSlot _ _ _ = b; exact (g ▸ modSlot_up (up_ite (keepHist_up h) h) : Up o b)
  · exact modSlot_up (up_ite (keepHist_up h) h)
theorem abortArmed_up {a0 a1 a2 a3 a4} (ha0 : Up o a0) : Up o (abortArmed a0 a1 a2 a3 a4) :=
  (slotAborted_up (dropLaunch_up ha0))
theorem abortLaunch_up {a0 a1 a2 a3 a4} (ha0 : Up o a0) : Up o (abortLaunch a0 a1 a2 a3 a4) :=
  (xoutcome_up (abortArmed_up ha0))
theorem modLaunch_up {a0 a1 a2} (ha0 : Up o a0) : Up o (modLaunch a0 a1 a2) := ha0
theorem clearPath_up {a0 a1 a2} (ha0 : Up o a0) : Up o (clearPath a0 a1 a2) :=
  (up_forEach (fun _ _ h0 => (by split; exacts [(up_ite (modLaunch_up h0) h0), h0])) ha0)
theorem holdLaunch_up {a0 a1} (ha0 : Up o a0) : Up o (holdLaunch a0 a1) := by
  unfold holdLaunch; split; exacts [(modLaunch_up ha0), (clearPath_up (modLaunch_up ha0))]
theorem issueLaunch_up {a0 a1} (ha0 : Up o a0) : Up o (issueLaunch a0 a1) := by
  unfold issueLaunch; split; exacts [(abortLaunch_up ha0), (up_ite (holdLaunch_up ha0) (modLaunch_up ha0))]
theorem switchDone_up {a0} (ha0 : Up o a0) : Up o (switchDone a0) := by
  unfold switchDone; dsimp only
  have k := up_upd (t := { setFld (setTk a0 2 false) (tkReg Off.TK_STAT) 0 1 (1 - activeTk a0) with swEnd := some (tcNow a0) })
    (setFld_up (setTk_up (a1 := 2) (a2 := false) ha0)) rfl
  exact up_ite (up_forEach (fun _ _ h => up_ite (issueLaunch_up h) h)
    (restartTk_up (up_upd (setTk_up (logGlobal_up (incWrap_up k))) rfl))) (logGlobal_up (incWrap_up k))
theorem tkSwitchCmd_up {a0 a1} (ha0 : Up o a0) : Up o (tkSwitchCmd a0 a1) :=
  (up_ite (failCmd_up ha0) (okCmd_up (up_ite (switchDone_up (askSwitch_up ha0)) (askSwitch_up ha0))))
theorem execTkSwitch_up {a0} (ha0 : Up o a0) : UpR o (execTkSwitch a0) :=
  (fwCmd_up (fun _ _ h0 => (tkSwitchCmd_up h0)) ha0)
theorem noteLate_up {a0 a1 a2 a3} (ha0 : Up o a0) : Up o (noteLate a0 a1 a2 a3) :=
  (up_ite (modNi_up (logNi_up (up_ite (State.setReg_up (State.setReg_up (State.setReg_up (incWrap_up ha0)))) (incWrap_up ha0)))) (up_ite (State.setReg_up (State.setReg_up (State.setReg_up (incWrap_up ha0)))) (incWrap_up ha0)))
theorem trackLate_up {a0 a1 a2 a3} (ha0 : Up o a0) : Up o (trackLate a0 a1 a2 a3) :=
  (up_ite ha0 (up_ite (up_ite (State.setNi_up (up_ite (incSat_up ha0) ha0)) (up_ite (up_ite (incSat_up ha0) ha0) (State.setNi_up (up_ite (incSat_up ha0) ha0)))) (by dsimp only; split; exacts [ha0, (noteLate_up (State.setNi_up ha0))])))
theorem presentCell_up {a0 a1 a2 a3} (ha0 : Up o a0) : Up o (presentCell a0 a1 a2 a3) :=
  (serveAll_up (trackLate_up (present_up (modNi_up ha0))))
theorem deliverCell_up {a0 a1 a2 a3} (ha0 : Up o a0) : Up o (deliverCell a0 a1 a2 a3) := by
  unfold deliverCell; dsimp only; split; exacts [(raiseRsvErr_up (incSat_up ha0)), (up_ite (incSat_up ha0) (up_ite (raiseRsvErr_up (incSat_up ha0)) (up_ite (incSat_up (takeBack_up (State.setNi_up ha0))) (up_ite (presentCell_up ha0) (State.setNi_up ha0)))))]
theorem beginRetain_up {a0} (ha0 : Up o a0) : Up o (beginRetain a0) := by
  unfold beginRetain; split; exacts [ha0, (fwPoke_up (setFld_up ha0))]
theorem setMbxState_up {a0 a1 a2} (ha0 : Up o a0) : Up o (setMbxState a0 a1 a2) := (setFld_up ha0)
theorem finishBox_up {a0 a1 a2} (ha0 : Up o a0) : Up o (finishBox a0 a1 a2) :=
  (up_ite (irqSync_up (setBox_up (setMbxState_up ha0))) (setMbxState_up ha0))
theorem fwTmemStore_up {a0 a1 a2 a3} (ha0 : Up o a0) : Up o (fwTmemStore a0 a1 a2 a3) := by
  unfold fwTmemStore; split; exacts [(recordNotice_up ha0), (tmemStore_up ha0)]
theorem postResponse_up {a0 a1 a2 a3 a4 a5 a6} (ha0 : Up o a0) : Up o (postResponse a0 a1 a2 a3 a4 a5 a6) :=
  (up_forEach (fun _ _ h0 => (fwTmemStore_up h0)) ha0)
theorem noteQuiet_up {a0} (ha0 : Up o a0) : Up o (noteQuiet a0) := (up_ite (setBit_up ha0) ha0)
theorem coreKeeps_up {a0 a1 a2 a3} (ha0 : Up o a0) : Up o (coreKeeps a0 a1 a2 a3) := by
  unfold coreKeeps; split; exacts [(recordNotice_up ha0), (State.setReg_up ha0)]
theorem fwCount_up {a0 a1} (ha0 : Up o a0) : Up o (fwCount a0 a1) := (coreKeeps_up ha0)
theorem complete_up {a0 a1} (ha0 : Up o a0) : Up o (complete a0 a1) := by
  unfold complete; dsimp only
  have k1 := up_ite (c := (supersededBy a0 a1).isSome = true) (fwCount_up (a1 := opcReg Off.OPC_SUPER_CNT) ha0) ha0
  have k := up_ite (c := a1.changed = true) (fwCount_up (a1 := opcReg Off.OPC_CFG_EPOCH) k1) k1
  exact noteQuiet_up (beginRetain_up (up_ite (up_upd k rfl) (finishBox_up (postResponse_up (up_upd k rfl)))))
theorem execCommandComplete_up {a0} (ha0 : Up o a0) : UpR o (execCommandComplete a0) := by
  unfold execCommandComplete; split; exacts [(ok_up ha0), (when_up ha0 (complete_up ha0))]
theorem noteApplied_up {a0 a1 a2} (ha0 : Up o a0) : Up o (noteApplied a0 a1 a2) := ha0
theorem memPut_up {a0 a1 a2 a3} (ha0 : Up o a0) : Up o (memPut a0 a1 a2 a3) := by
  unfold memPut; split; exacts [(recordNotice_up ha0), (by split; exacts [(up_ite (decodeMiss_up ha0) (tmemStore_up ha0)), (State.setWord_up ha0), (decodeMiss_up ha0)])]
theorem landEntry_up {a0 a1 a2} (ha0 : Up o a0) : Up o (landEntry a0 a1 a2) :=
  (up_ite (up_ite ha0 ha0) (up_ite (up_ite (setShadow_up (up_ite ha0 ha0)) (up_ite ha0 ha0)) (up_ite (memPut_up (up_ite ha0 ha0)) (fwPoke_up (up_ite ha0 ha0)))))
theorem landTicket_up {a0 a1 a2} (ha0 : Up o a0) : Up o (landTicket a0 a1 a2) :=
  (noteApplied_up (up_forEach (fun _ _ h0 => (landEntry_up h0)) ha0))
theorem stepTurnGo_up {a0 a1} (ha1 : Up o a1) : Up o (stepTurnGo a0 a1).2 := by
  unfold stepTurnGo; exact (up_ite2 (up_mk2 ha1) (up_ite2 (up_mk2 (wantVt_up ha1)) (up_ite2 (up_mk2 (fwPoke_up ha1)) (up_mk2 ha1))))
theorem stepTurnEnd_up {a0 a1} (ha1 : Up o a1) : Up o (stepTurnEnd a0 a1).2 := by
  unfold stepTurnEnd; exact (up_ite2 (up_mk2 ha1) (up_mk2 ha1))
theorem stepSlim_up {a0 a1} (ha1 : Up o a1) : Up o (stepSlim a0 a1).2 :=
  (up_ite2 (up_ite2 (up_mk2 (recordRefusal_up ha1)) (up_ite2 (up_mk2 (fwPoke_up ha1)) (up_mk2 ha1))) (up_ite2 (up_mk2 ha1) (up_mk2 ha1)))
theorem recordTurn_up {s t x c m} (h : Up o s) : Up o (recordTurn s t x c m) := by
  unfold recordTurn; extract_lets s1 s2 s3
  have k : Up o s3 := modTa_up (State.setReg_up (State.setReg_up (State.setReg_up (recordCode_up h))))
  clear_value s3; split
  · exact setBit_up k
  · exact up_ite (incSat_up k) (incWrap_up k)
theorem recordAbandon_up {a0 a1 a2} (ha0 : Up o a0) : Up o (recordAbandon a0 a1 a2) :=
  (up_pair2 (freeW_up ha0) fun _ _ h0 => (recordTurn_up h0))
theorem endAgentWork_up {a0 a1} (ha0 : Up o a0) : Up o (endAgentWork a0 a1) :=
  (modTa_up (by split; exacts [ha0, (recordAbandon_up ha0)]))
theorem sliceBack_up {a0 a1 a2} (ha0 : Up o a0) : Up o (sliceBack a0 a1 a2) :=
  (up_ite (setFld_up (setTileState_up (up_ite (incWrap_up (setSlice_up ha0)) (setSlice_up ha0)))) (up_ite (incWrap_up (setSlice_up ha0)) (setSlice_up ha0)))
theorem endAgentSlices_up {a0 a1} (ha0 : Up o a0) : Up o (endAgentSlices a0 a1) :=
  (up_forEach (fun _ _ h0 => (up_ite (sliceBack_up h0) h0)) (endAgentWork_up ha0))
theorem stepGateOut_up {a0 a1} (ha1 : Up o a1) : Up o (stepGateOut a0 a1).2 :=
  (up_ite2 (up_mk2 ha1) (up_ite2 (up_mk2 ha1) (up_mk2 (up_ite (setSlice_up (up_ite (setSlice_up (endAgentSlices_up (up_ite (wakeNow_up ha1) ha1))) (endAgentSlices_up (up_ite (wakeNow_up ha1) ha1)))) (up_ite (setSlice_up (endAgentSlices_up (up_ite (wakeNow_up ha1) ha1))) (endAgentSlices_up (up_ite (wakeNow_up ha1) ha1)))))))
theorem saveNiRegs_up {a0 a1} (ha0 : Up o a0) : Up o (saveNiRegs a0 a1) := ha0
theorem stepOff_up {a0 a1} (ha1 : Up o a1) : Up o (stepOff a0 a1).2 := by
  unfold stepOff; exact (up_ite2 (up_mk2 ha1) (up_ite2 (up_mk2 (fwPoke_up (saveNiRegs_up ha1))) (up_mk2 ha1)))
theorem fenceAround_up {a0 a1} (ha0 : Up o a0) : Up o (fenceAround a0 a1) :=
  (up_forEach (fun _ _ h0 => (fenceLocal_up h0)) ha0)
theorem stepFence_up {a0 a1} (ha1 : Up o a1) : Up o (stepFence a0 a1).2 :=
  (up_ite2 (up_mk2 ha1) (up_ite2 (up_mk2 (wakeTile_up ha1)) (up_ite2 (up_mk2 ha1) (up_ite2 (up_ite2 (up_mk2 ha1) (up_mk2 ha1)) (up_ite2 (up_mk2 ha1) (up_ite2 (up_mk2 ha1) (up_ite2 (up_ite2 (up_mk2 (startNarrow_up ha1)) (up_mk2 ha1)) (up_ite2 (up_mk2 (fenceAround_up (setSlice_up ha1))) (up_mk2 ha1)))))))))
theorem writeFences_up {a0 a1 a2 a3 a4} (ha0 : Up o a0) : Up o (writeFences a0 a1 a2 a3 a4) :=
  (up_forEach (fun _ _ h0 => (up_ite (fwPoke_up (fwPoke_up h0)) h0)) ha0)
theorem stepLinkFence_up {a0 a1} (ha1 : Up o a1) : Up o (stepLinkFence a0 a1).2 :=
  (up_ite2 (up_mk2 (writeFences_up ha1)) (up_mk2 ha1))
theorem setPend16_up {a0 a1 a2 a3} (ha0 : Up o a0) : Up o (setPend16 a0 a1 a2 a3) := ha0
theorem clearEsc_up {a0 a1} (ha0 : Up o a0) : Up o (clearEsc a0 a1) := (up_ite (setLink_up ha0) ha0)
theorem openHalf_up {a0 a1 a2 a3} (ha3 : Up o a3) : Up o (openHalf a0 a1 a2 a3) :=
  (up_forEach (fun _ _ h0 => (clearEsc_up (fwPoke_up h0))) ha3)
theorem stepLinkOpen_up {a0 a1} (ha1 : Up o a1) : Up o (stepLinkOpen a0 a1).2 :=
  (up_ite2 (up_mk2 ha1) (up_ite2 (up_mk2 ha1) (up_mk2 (setPend16_up (setPend16_up (up_forEach (fun _ _ h0 => (openHalf_up h0)) ha1))))))
theorem startReadmit_up {a0 a1 a2} (ha0 : Up o a0) : Up o (startReadmit a0 a1 a2) := (up_ite ha0 (setFld_up ha0))
theorem rewriteGroups_up {a0 a1} (ha0 : Up o a0) : Up o (rewriteGroups a0 a1) := (up_ite ha0 ha0)
theorem stepRestore_up {a0 a1} (ha1 : Up o a1) : Up o (stepRestore a0 a1).2 :=
  (up_ite2 (up_mk2 ha1) (up_ite2 (up_mk2 (startReadmit_up (startReadmit_up ha1))) (up_ite2 (up_mk2 ha1) (up_ite2 (up_mk2 ha1) (up_ite2 (up_mk2 ha1) (up_mk2 (up_ite (restoreNiRegs_up (rewriteGroups_up ha1)) (rewriteGroups_up ha1))))))))
theorem enableNi_up {a0 a1} (ha0 : Up o a0) : Up o (enableNi a0 a1) := (fwPoke_up ha0)
theorem stepEnable_up {a0 a1} (ha1 : Up o a1) : Up o (stepEnable a0 a1).2 :=
  (up_ite2 (up_mk2 ha1) (up_mk2 (up_forEach (fun _ _ h0 => (up_ite (enableNi_up h0) h0)) ha1)))
theorem jobStep_up {a0 a1} (ha1 : Up o a1) : Up o (jobStep a0 a1).2 := by
  unfold jobStep; split; exacts [(stepTurnGo_up ha1), (stepTurnEnd_up ha1), (stepSlim_up ha1), (stepGateOut_up ha1), (stepOff_up ha1), (stepFence_up ha1), (stepLinkFence_up ha1), (stepLinkOpen_up ha1), (stepRestore_up ha1), (stepEnable_up ha1)]
theorem runJobList_up {l s} (h : Up o s) : Up o (runJobList l s) := by
  induction l generalizing s with
  | nil => exact h
  | cons e l ih => exact ih (jobStep_up h)
theorem runJobs_up {a0} (ha0 : Up o a0) : Up o (runJobs a0) := (runJobList_up ha0)
theorem routeLaunched_up {a0 a1 a2} (ha0 : Up o a0) : Up o (routeLaunched a0 a1 a2) := by
  unfold routeLaunched; split; exacts [(fwPokes_up ha0), (runJobs_up (logFw_up (noteApplied_up (fwPokes_up ha0))))]
theorem landDue_up {s n} (h : Up o s) : Up o (landDue s n) := by
  induction n generalizing s with
  | zero => exact h
  | succ n ih =>
    unfold landDue; split
    · exact h
    · split
      · exact h
      · exact up_ite (ih (landTicket_up h)) h
theorem landAll_up {a0} (ha0 : Up o a0) : Up o (landAll a0) := (landDue_up ha0)
theorem takeNote_up {a0 a1} (ha1 : Up o a1) : Up o (takeNote a0 a1) := by
  unfold takeNote; dsimp only; split; exacts [(up_ite (routeLaunched_up (landAll_up ha1)) (by split; exacts [(landTicket_up (landAll_up ha1)), (landAll_up ha1)])), (by split; exacts [(landTicket_up (landAll_up ha1)), (landAll_up ha1)])]
theorem ticketLaunched_up {s k} (h : Up o s) : Up o (ticketLaunched s k) := by
  unfold ticketLaunched; split
  · exact h
  · extract_lets x s0
    have k0 : Up o s0 := modSlot_up h
    clear_value s0
    exact up_ite (takeNote_up k0) (up_upd k0 rfl)
theorem afterLaunch_up {a0 a1 a2 a3} (ha0 : Up o a0) : Up o (afterLaunch a0 a1 a2 a3) :=
  (up_ite (ticketLaunched_up (xoutcome_up (setSlotState_up (dropLaunch_up ha0)))) (up_ite (setSlotState_up (dropLaunch_up ha0)) (modLaunch_up (setSlotState_up ha0))))
theorem giveUpNarrow_up {a0 a1 a2} (ha0 : Up o a0) : Up o (giveUpNarrow a0 a1 a2) :=
  (resyncAll_up (modTa_up (maxReg_up ha0)))
theorem parityFail_up {a0 a1 a2 a3} (ha0 : Up o a0) : Up o (parityFail a0 a1 a2 a3) :=
  (up_ite (up_ite (loseLink_up (startResync_up (setLink_up (by split; exacts [ha0, (modRt_up ha0)])))) (logTile_up (repairAsk_up (busyAt_up (setRx_up (setTx_up (setLink_up (startResync_up (setLink_up (by split; exacts [ha0, (modRt_up ha0)])))))))))) (startResync_up (setLink_up (by split; exacts [ha0, (modRt_up ha0)]))))
theorem execReturnParityFail_up {a0 a1 a2 a3} (ha3 : Up o a3) : UpR o (execReturnParityFail a0 a1 a2 a3) :=
  (up_ok (parityFail_up ha3))
theorem holdFrom_up {a0 a1} (ha0 : Up o a0) : Up o (holdFrom a0 a1) := ha0
theorem warnRises_up {s} (h : Up o s) : Up o (warnRises s) := by
  unfold warnRises
  extract_lets s1 b s2
  have k1 : Up o s1 := setBit_up (up_upd h rfl)
  clear_value s1
  have k2 : Up o s2 := State.setReg_up (State.setReg_up k1)
  clear_value s2
  have k : Up o (setBit s2 (pwrReg Off.PWR_STAT) 2 true) := setBit_up k2
  exact up_ite k1 (holdFrom_up (up_upd k rfl))
theorem execHandleReclaim_up {a0 a1 a2} (ha2 : Up o a2) : UpR o (execHandleReclaim a0 a1 a2) := by
  unfold execHandleReclaim; split; exacts [(ok_up ha2), (when_up ha2 (incSat_up (takeBack_up (modNi_up ha2))))]
theorem recordPend_up {a0 a1} (ha0 : Up o a0) : Up o (recordPend a0 a1) :=
  (up_ite (setPend_up (up_ite ha0 (setPend_up ha0))) (up_ite ha0 (setPend_up ha0)))
theorem missedNow_up {a0 a1} (ha0 : Up o a0) : Up o (missedNow a0 a1) := ha0
theorem missRecord_up {a0 a1 a2} (ha0 : Up o a0) : Up o (missRecord a0 a1 a2) :=
  (up_ite (up_ite (setPend_up (State.setReg_up (missedNow_up ha0))) (State.setReg_up (missedNow_up ha0))) (State.setReg_up ha0))
theorem storeRecord_up {a0 a1 a2 a3} (ha3 : Up o a3) : Up o (storeRecord a0 a1 a2 a3) :=
  (up_ite (up_forEach (fun _ _ h0 => (tmemStore_up h0)) ha3) (missRecord_up ha3))
theorem putRecord_up {a0 a1} (ha0 : Up o a0) : Up o (putRecord a0 a1) :=
  (incWrap_up (storeRecord_up (storeRecord_up ha0)))
theorem putPad_up {a0} (ha0 : Up o a0) : Up o (putPad a0) :=
  (up_pair2 (freeW_up ha0) fun _ _ h0 => (up_pair2 (freeW_up h0) fun _ _ h1 => (up_pair2 (freeW_up h1) fun _ _ h2 => (up_pair2 (freeW_up h2) fun _ _ h3 => (putRecord_up h3)))))
theorem writeEv_up {a0 a1} (ha0 : Up o a0) : Up o (writeEv a0 a1) := by
  unfold writeEv; dsimp only; split; exacts [(recordPend_up (putRecord_up ha0)), (recordPend_up (putRecord_up (putRecord_up (up_ite (putPad_up ha0) ha0))))]
theorem noteTraining_up {a0 a1 a2 a3 a4} (ha0 : Up o a0) : Up o (noteTraining a0 a1 a2 a3 a4) :=
  (setFld_up (setFld_up ha0))
theorem xsend_up {a0 a1 a2 a3} (ha0 : Up o a0) : Up o (xsend a0 a1 a2 a3) := ha0
theorem xsends_up {s d t m k} (h : Up o s) : Up o (xsends s d t m k) := by
  induction k generalizing s with
  | zero => exact h
  | succ k ih => exact ih (xsend_up h)
theorem modXco_up {a0 a1 a2} (ha0 : Up o a0) : Up o (modXco a0 a1 a2) := ha0
theorem confirmAll_up {a0 a1} (ha0 : Up o a0) : Up o (confirmAll a0 a1) :=
  (modSlot_up (modXco_up (up_forEach (fun _ _ h0 => (up_ite (xsends_up h0) h0)) ha0)))
theorem execLkrnw_up {a0 a1 a2} (ha2 : Up o a2) : UpR o (execLkrnw a0 a1 a2) := (ok_up (acceptOreq_up ha2))
theorem setTurn_up {a0 a1 a2} (ha0 : Up o a0) : Up o (setTurn a0 a1 a2) := (modTa_up ha0)
theorem closeTurn_up {a0 a1 a2 a3 a4} (ha0 : Up o a0) : Up o (closeTurn a0 a1 a2 a3 a4) :=
  (startWiden_up (setTurn_up ha0))
theorem faultTurn_up {a0 a1} (ha0 : Up o a0) : Up o (faultTurn a0 a1) := by
  unfold faultTurn; dsimp only; split; exacts [ha0, (up_ite ha0 (by split; exacts [(recordAbandon_up ha0), (setTurn_up ha0), (up_pair2 (freeW_up ha0) fun _ _ h0 => (closeTurn_up h0))]))]
theorem writeSpares_up {a0 a1 a2} (ha0 : Up o a0) : Up o (writeSpares a0 a1 a2) :=
  (up_forEach (fun _ _ h0 => (fwPoke_up (fwPoke_up h0))) ha0)
theorem dropSlim_up {a0 a1} (ha0 : Up o a0) : Up o (dropSlim a0 a1) := (dropJobs_up ha0)
theorem addJob_up {a0 a1} (ha0 : Up o a0) : Up o (addJob a0 a1) := ha0
theorem bringBack_up {a0 a1 a2} (ha0 : Up o a0) : Up o (bringBack a0 a1 a2) :=
  (addJob_up (addJob_up (up_ite (fwPoke_up (setPend16_up (dropJobs_up ha0))) (setPend16_up (dropJobs_up ha0)))))
theorem writeCmd_up {a0 a1 a2 a3} (ha0 : Up o a0) : Up o (writeCmd a0 a1 a2 a3) := by
  unfold writeCmd; split <;> rename_i e; exacts [(failCmd_up (up_eq2 e (fwWrites_up ha0))), (okCmd_up (up_eq2 e (fwWrites_up ha0)))]
theorem refuseCmd_up {a0 a1 a2 a3} (ha0 : Up o a0) : Up o (refuseCmd a0 a1 a2 a3) := (finish_up ha0)
theorem refusedSet_up {a0 a1 a2 a3 a4} (ha0 : Up o a0) : Up o (refusedSet a0 a1 a2 a3 a4) :=
  (refuseCmd_up (recordRefusal_up ha0))
theorem begunCmd_up {a0 a1} (ha0 : Up o a0) : Up o (begunCmd a0 a1) := ha0
theorem setSlim_up {s r t} (h : Up o s) : Up o (setSlim s r t) := by
  unfold setSlim; split; rename_i e
  have k := up_eq2 e (freeW_up (dropSlim_up (a1 := t) h))
  dsimp only
  refine up_ite (refusedSet_up h) (up_ite (okCmd_up (runJobs_up (addJob_up (bringBack_up k)))) (up_ite (writeCmd_up k) ?_))
  split
  · exact refusedSet_up h
  · exact runJobs_up (addJob_up (begunCmd_up k))
theorem fenceTicketOk_up {a0 a1 a2 a3} (ha0 : Up o a0) : Up o (fenceTicketOk a0 a1 a2 a3) := (runJobs_up (okCmd_up ha0))
theorem logIsolated_up {a0 a1} (ha0 : Up o a0) : Up o (logIsolated a0 a1) := (up_ite ha0 (logFw_up ha0))
theorem fenceOr_up {a0 a1 a2 a3 a4 a5} (ha0 : Up o a0) (ha1 : Up o a1) (_ha2 : Up o a2) : Up o (fenceOr a0 a1 a2 a3 a4 a5) :=
  (up_ite (failCmd_up ha0) (fenceTicketOk_up (logIsolated_up ha1)))
theorem takeOut_up {a0 a1 a2} (ha0 : Up o a0) : Up o (takeOut a0 a1 a2) :=
  (up_ite (addJob_up (addJob_up (setPend16_up (dropJobs_up ha0)))) (addJob_up (setPend16_up (dropJobs_up ha0))))
theorem setOff_up {a0 a1 a2} (ha0 : Up o a0) : Up o (setOff a0 a1 a2) :=
  (up_ite (failCmd_up ha0) (up_ite (fenceTicketOk_up ha0) (by split; exacts [(refusedSet_up ha0), (fenceOr_up ha0 (takeOut_up ha0) (takeOut_up ha0))])))
theorem setPermit_up {a0 a1 a2 a3} (ha0 : Up o a0) : Up o (setPermit a0 a1 a2 a3) :=
  (up_ite (okCmd_up (fwPokes_up (bringBack_up (dropSlim_up ha0)))) (writeCmd_up (dropSlim_up ha0)))
theorem slimEnd_up {a0 a1 a2} (ha0 : Up o a0) : Up o (slimEnd a0 a1 a2) :=
  (up_ite ha0 (by split; exacts [(refuseCmd_up ha0), (okCmd_up ha0)]))
theorem pwrTileSet_up {a0 a1} (ha0 : Up o a0) : Up o (pwrTileSet a0 a1) :=
  (up_ite ha0 (up_ite (slimEnd_up ha0) (up_ite (setSlim_up (noteClamps_up ha0)) (up_ite (setOff_up (noteClamps_up ha0)) (setPermit_up (noteClamps_up ha0))))))
theorem execPwrTileSet_up {a0} (ha0 : Up o a0) : UpR o (execPwrTileSet a0) :=
  (fwCmd_up (fun _ _ h0 => (pwrTileSet_up h0)) ha0)
theorem topoRead_up {s r} (h : Up o s) : Up o (topoRead s r) := by
  unfold topoRead; extract_lets t s1; generalize e : fwReads _ _ _ = x
  have k : Up o x.2.2 := e ▸ fwReads_up (noteClamps_up h)
  obtain ⟨_ | _, _, s1⟩ := x
  · exact okCmd_up k
  · exact failCmd_up k
theorem unplace_up {a0 a1} (ha0 : Up o a0) : Up o (unplace a0 a1) := ha0
theorem beginSession_up {a0 a1 a2} (ha0 : Up o a0) : Up o (beginSession a0 a1 a2) := (startMig_up (modTmc_up ha0))
theorem startUnit_up {a0 a1} (ha0 : Up o a0) : Up o (startUnit a0 a1) :=
  (up_ite (runJobs_up (addJob_up (unplace_up ha0))) (up_ite (beginSession_up ha0) (fwPoke_up (unplace_up ha0))))
theorem setPtr_up {a0 a1 a2} (ha0 : Up o a0) : Up o (setPtr a0 a1 a2) := (up_ite ha0 ha0)
theorem endPass_up {a0 a1} (ha0 : Up o a0) : Up o (endPass a0 a1) :=
  (incFld_up (by generalize g : Sys2Proof.forEach _ _ _ = b; exact (g ▸ (up_forEach (fun _ _ h0 => (State.setReg_up h0)) ha0) : Up o b)))
theorem settlePtr_up {a0 a1} (ha0 : Up o a0) : Up o (settlePtr a0 a1) := by
  unfold settlePtr; dsimp only; split; exacts [(setPtr_up ha0), (setPtr_up (endPass_up ha0))]
theorem tickUnits_up {a0 a1} (ha1 : Up o a1) : Up o (tickUnits a0 a1) := by
  unfold tickUnits; dsimp only; split; exacts [(startUnit_up ha1), (up_ite (startUnit_up (settlePtr_up ha1)) (by split; exacts [(startUnit_up (incWrap_up (settlePtr_up ha1))), (incWrap_up (settlePtr_up ha1))]))]
theorem endSession_up {a0 a1} (ha1 : Up o a1) : Up o (endSession a0 a1) := (up_ite (startMig_up ha1) ha1)
theorem catchUp_up {a0} (ha0 : Up o a0) : Up o (catchUp a0) := (up_forEach (fun _ _ h0 => (takeNote_up h0)) ha0)
theorem turnTickOp_up {a0} (ha0 : Up o a0) : Up o (turnTickOp a0) :=
  (tickUnits_up (tickUnits_up (up_forEach (fun _ _ h0 => (endSession_up h0)) (runJobs_up (catchUp_up ha0)))))
theorem copyRecord_up {a0 a1 a2} (ha2 : Up o a2) : Up o (copyRecord a0 a1 a2) :=
  (up_forEach (fun _ _ h0 => (tmemStore_up h0)) ha2)
theorem closeGap_up {a0 a1} (ha0 : Up o a0) : Up o (closeGap a0 a1) :=
  (State.setReg_up (up_forEach (fun _ _ h0 => (copyRecord_up h0)) ha0))
theorem openCopy_up {a0 a1} (ha0 : Up o a0) : Up o (openCopy a0 a1) := (logGlobal_up (setFld_up ha0))
theorem execMirrorGap_up {a0 a1} (ha1 : Up o a1) : UpR o (execMirrorGap a0 a1) :=
  (up_iteR (when_up ha1 (closeGap_up ha1)) (when_up ha1 (openCopy_up ha1)))
theorem writeFlood_up {a0} (ha0 : Up o a0) : Up o (writeFlood a0) :=
  (addWrap_up (by generalize g : writeEv _ _ = b; exact (g ▸ (writeEv_up ha0) : Up o b)))
theorem cellRef_up {a0 a1 a2 a3} (ha0 : Up o a0) : Up o (cellRef a0 a1 a2 a3) := (present_up ha0)
theorem abortReq_up {a0 a1 a2 a3} (ha0 : Up o a0) : Up o (abortReq a0 a1 a2 a3) := (settle_up (answer_up ha0))
theorem refuseHead_up {a0 a1 a2 a3} (ha0 : Up o a0) : Up o (refuseHead a0 a1 a2 a3) :=
  (up_ite (cellRef_up ha0) (up_ite (abortReq_up ha0) ha0))
theorem takeX_up {a0 a1} (ha0 : Up o a0) : UpO22 o (takeX a0 a1) := by
  unfold takeX; dsimp only; split; exacts [upO22_none, (up_iteO22 (upO22_some ha0) (upO22_some ha0))]
theorem onX_up {s t f} (h : Up o s) (hf : ∀ s m, Up o s → Up o (f s m)) : UpR o (onX s t f) := by
  unfold onX; split
  · exact up_ok h
  · rename_i e; exact up_ok (up_ite (hf _ _ (takeX_up h _ _ _ e)) (takeX_up h _ _ _ e))
theorem takeXstaged_up {a0 a1} (ha0 : Up o a0) : Up o (takeXstaged a0 a1) := by
  unfold takeXstaged; dsimp only; split; exacts [(modXco_up ha0), (up_ite (confirmAll_up (modXco_up ha0)) (modXco_up ha0))]
theorem execXstaged_up {a0} (ha0 : Up o a0) : UpR o (execXstaged a0) := (onX_up ha0 (fun _ _ h0 => (takeXstaged_up h0)))
theorem execVddAonUp_up {a0} (ha0 : Up o a0) : UpR o (execVddAonUp a0) :=
  (ok_up (by generalize g : setBit _ _ _ _ = b; exact (g ▸ (setBit_up (resetRegs_up ha0)) : Up o b)))
theorem intactWord_up {a0 a1 a2} (ha0 : Up o a0) : Up o (intactWord a0 a1 a2) :=
  (up_ite (up_ite ha0 (setLink_up ha0)) ha0)
theorem execResyncReq_up {a0 a1 a2} (ha2 : Up o a2) : UpR o (execResyncReq a0 a1 a2) := by
  unfold execResyncReq; split; exacts [(up_ok ha2), (when_up ha2 (intactWord_up (setResync_up ha2)))]
theorem hostWrite_up {a0 a1 a2} (ha0 : Up o a0) : UpR o (hostWrite a0 a1 a2) := (ok_up (poke_up ha0))
theorem execMtxRstNi_up {a0 a1} (ha1 : Up o a1) : UpR o (execMtxRstNi a0 a1) := (hostWrite_up ha1)
theorem ticketCmd_up {a0 a1 a2 a3 a4} (ha0 : Up o a0) : Up o (ticketCmd a0 a1 a2 a3 a4) :=
  (up_ite (failCmd_up ha0) (okCmd_up ha0))
theorem mcGroupClear_up {a0 a1} (ha0 : Up o a0) : Up o (mcGroupClear a0 a1) := (ticketCmd_up (noteClamps_up ha0))
theorem setOut_up {a0 a1 a2 a3} (ha0 : Up o a0) : Up o (setOut a0 a1 a2 a3) := (modRt_up ha0)
theorem pickNext_up {a0 a1 a2} (ha0 : Up o a0) : UpO o (pickNext a0 a1 a2) := by
  unfold pickNext; dsimp only; split; exacts [(upO_some ha0), (upO_some ha0), (upO_some ha0), (by split; exacts [(upO_some (incWrap_up ha0)), (by split; exacts [upO_none, (by split; exacts [upO_none, (upO_some (setOut_up ha0))])])])]
theorem bufUe_up {a0 a1 a2 a3} (ha0 : Up o a0) : Up o (bufUe a0 a1 a2 a3).1 :=
  (up_mk1 (up_forEach (fun _ _ h0 => (logTile_up (incWrap_up h0))) ha0))
theorem startLink_up {a0 a1 a2 a3 a4} (ha0 : Up o a0) : Up o (startLink a0 a1 a2 a3 a4) :=
  (modRt_up (leaveBuffer_up (up_ite (incWrap_up (up_ite (incWrap_up (up_ite (incWrap_up (up_ite (incWrap_up (up_ite ha0 (by split; exacts [ha0, (setCnt_up ha0)]))) (up_ite ha0 (by split; exacts [ha0, (setCnt_up ha0)])))) (up_ite (incWrap_up (up_ite ha0 (by split; exacts [ha0, (setCnt_up ha0)]))) (up_ite ha0 (by split; exacts [ha0, (setCnt_up ha0)]))))) (up_ite (incWrap_up (up_ite (incWrap_up (up_ite ha0 (by split; exacts [ha0, (setCnt_up ha0)]))) (up_ite ha0 (by split; exacts [ha0, (setCnt_up ha0)])))) (up_ite (incWrap_up (up_ite ha0 (by split; exacts [ha0, (setCnt_up ha0)]))) (up_ite ha0 (by split; exacts [ha0, (setCnt_up ha0)])))))) (up_ite (incWrap_up (up_ite (incWrap_up (up_ite (incWrap_up (up_ite ha0 (by split; exacts [ha0, (setCnt_up ha0)]))) (up_ite ha0 (by split; exacts [ha0, (setCnt_up ha0)])))) (up_ite (incWrap_up (up_ite ha0 (by split; exacts [ha0, (setCnt_up ha0)]))) (up_ite ha0 (by split; exacts [ha0, (setCnt_up ha0)]))))) (up_ite (incWrap_up (up_ite (incWrap_up (up_ite ha0 (by split; exacts [ha0, (setCnt_up ha0)]))) (up_ite ha0 (by split; exacts [ha0, (setCnt_up ha0)])))) (up_ite (incWrap_up (up_ite ha0 (by split; exacts [ha0, (setCnt_up ha0)]))) (up_ite ha0 (by split; exacts [ha0, (setCnt_up ha0)]))))))))
theorem halfSc5_up {a0 a1 a2} (ha0 : Up o a0) : Up o (halfSc5 a0 a1 a2) := (up_ite (incWrap_up ha0) ha0)
theorem startLocal_up {a0 a1 a2 a3 a4} (ha0 : Up o a0) : Up o (startLocal a0 a1 a2 a3 a4) :=
  (up_ite (up_ite (leaveBuffer_up (halfSc5_up ha0)) (modTmc_up (leaveBuffer_up (halfSc5_up ha0)))) (up_ite (leaveBuffer_up (halfSc5_up ha0)) (modNi_up (leaveBuffer_up (halfSc5_up ha0)))))
theorem execStartNext_up {a0 a1 a2 a3} (ha3 : Up o a3) : UpR o (execStartNext a0 a1 a2 a3) := by
  unfold execStartNext; dsimp only; split <;> rename_i e; exacts [(ok_up (markReady_up ha3)), (ok_up (markReady_up (up_ite (startLink_up (bufUe_up ((pickNext_up (markReady_up ha3)) _ _ e))) (startLocal_up (bufUe_up ((pickNext_up (markReady_up ha3)) _ _ e))))))]
theorem sendStandRel_up {a0 a1 a2 a3 a4} (ha0 : Up o a0) : Up o (sendStandRel a0 a1 a2 a3 a4) := (ownSend_up ha0)
theorem restoreSpare_up {a0 a1 a2} (ha2 : Up o a2) : Up o (restoreSpare a0 a1 a2) := (up_ite ha2 (State.setReg_up ha2))
theorem clearSpares_up {a0 a1 a2} (ha0 : Up o a0) : Up o (clearSpares a0 a1 a2) :=
  (up_forEach (fun _ _ h0 => (up_ite (State.setReg_up h0) h0)) ha0)
theorem finishMig_up {a0 a1 a2} (ha0 : Up o a0) : Up o (finishMig a0 a1 a2) :=
  (State.setReg_up (modTmc_up (up_ite (up_ite (up_forEach (fun _ _ h0 => (restoreSpare_up h0)) (modTmc_up (clearSpares_up (setFld_up ha0)))) (clearSpares_up (setFld_up ha0))) (up_ite (logFw_up (setBit_up ha0)) (setBit_up ha0)))))
theorem nextMig_up {a0 a1} (ha0 : Up o a0) : Up o (nextMig a0 a1) :=
  (up_ite ha0 (by split; exacts [ha0, (startMig_up (modTmc_up ha0))]))
theorem migrationEnd_up {a0 a1} (ha0 : Up o a0) : Up o (migrationEnd a0 a1) := by
  unfold migrationEnd; split; exacts [ha0, (nextMig_up (finishMig_up ha0))]
theorem coresOff_up {a0} (ha0 : Up o a0) : Up o (coresOff a0) := (modCore_up (modCore_up ha0))
theorem coreNisOff_up {a0} (ha0 : Up o a0) : Up o (coreNisOff a0) := (up_forEach (fun _ _ h0 => (fwPoke_up h0)) ha0)
theorem saveGlobals_up {a0} (ha0 : Up o a0) : Up o (saveGlobals a0) :=
  (setBit_up (up_forEach (fun _ _ h0 => (State.setReg_up h0)) (up_forEach (fun _ _ h1 => (State.setReg_up h1)) ha0)))
theorem enterRetention_up {a0} (ha0 : Up o a0) : Up o (enterRetention a0) :=
  (setTk_up (setFld_up (up_forEach (fun _ _ h0 => (up_ite h0 (enterOff_up h0))) (coresOff_up (coreNisOff_up (saveGlobals_up (up_forEach (fun _ _ h1 => (saveNiRegs_up h1)) ha0)))))))
theorem execRetentionEntry_up {a0} (ha0 : Up o a0) : UpR o (execRetentionEntry a0) :=
  (when_up ha0 (enterRetention_up ha0))
theorem endTurn_up {a0 a1} (ha0 : Up o a0) : Up o (endTurn a0 a1) := by
  unfold endTurn; split; exacts [ha0, (up_ite (recordTurn_up ha0) ha0)]
theorem slimWaited_up {a0 a1} (ha0 : Up o a0) : Up o (slimWaited a0 a1) := by
  unfold slimWaited; split; exacts [ha0, (requestSlim_up (modTa_up ha0))]
theorem nextWide_up {a0 a1} (ha0 : Up o a0) : Up o (nextWide a0 a1) := (modTa_up ha0)
theorem widenNow_up {a0 a1 a2} (ha0 : Up o a0) : Up o (widenNow a0 a1 a2) :=
  (slimWaited_up (resyncAll_up (sliceBack_up (nextWide_up (up_forEach (fun _ _ h0 => (up_ite h0 (trainPassed_up (trainPassed_up (setLink_up h0))))) ha0)))))
theorem widenRouter_up {a0 a1} (ha0 : Up o a0) : Up o (widenRouter a0 a1) := by
  unfold widenRouter; split; exacts [ha0, (up_ite ha0 (endTurn_up (widenNow_up ha0)))]
theorem execLdres_up {a0 a1 a2} (ha2 : Up o a2) : UpR o (execLdres a0 a1 a2) := (ok_up (acceptOreq_up ha2))
theorem stbyUp_up {a0} (ha0 : Up o a0) : Up o (stbyUp a0) := (noteQuiet_up (modCore_up (setBit_up ha0)))
theorem rerun_up {a0} (ha0 : Up o a0) : Up o (rerun a0) := ha0
theorem execOpcStbyOk_up {a0} (ha0 : Up o a0) : UpR o (execOpcStbyOk a0) :=
  (up_iteR (ok_up ha0) (up_iteR (ok_up (stbyUp_up ha0)) (when_up ha0 (rerun_up (modCore_up ha0)))))
theorem execReplicate_up {a0 a1 a2} (ha2 : Up o a2) : UpR o (execReplicate a0 a1 a2) := by
  unfold execReplicate; split
  · exact ok_up ha2
  · rename_i e
    refine ok_up (markReady_up ?_)
    generalize wholeMcs a2 a0.val a1.val = l at e
    induction l with
    | nil => cases e
    | cons f l ih =>
      simp only [firstSome] at e
      split at e
      · rename_i x
        exact Option.some.inj e ▸ replicateOne_up ha2 _ x
      · exact ih e
theorem pushStrobe_up {a0 a1 a2 a3} (ha0 : Up o a0) : Up o (pushStrobe a0 a1 a2 a3) :=
  (up_ite ha0 (up_ite (modNi_up ha0) (logNi_up (raiseBit_up (incSat_up ha0)))))
theorem discardAt_up {a0 a1 a2} (ha2 : Up o a2) : Up o (discardAt a0 a1 a2) :=
  (up_ite (pushStrobe_up (modNi_up ha2)) ha2)
theorem abortAll_up {a0 a1} (ha0 : Up o a0) : Up o (abortAll a0 a1) :=
  (up_forEach (fun _ _ h0 => (discardAt_up h0)) ha0)
theorem execAbort_up {a0 a1} (ha1 : Up o a1) : UpR o (execAbort a0 a1) := by
  unfold execAbort; split; exacts [(ok_up ha1), (ok_up (abortAll_up ha1))]
theorem replyStaged_up {a0 a1 a2} (ha0 : Up o a0) : Up o (replyStaged a0 a1 a2) := (xsend_up ha0)
theorem memRead_up {s a} (h : Up o s) : Up o (memRead s a).2 := by
  unfold memRead; split
  · exact logFw_up (decodeMiss_up h)
  · split
    · exact freeW_up (recordFault_up h)
    · exact up_ite2 (freeW_up h) h
theorem memReads_up {s l} (h : Up o s) : Up o (memReads s l).2 := by
  induction l generalizing s with
  | nil => exact h
  | cons a l ih =>
    unfold memReads; split <;> rename_i e
    · exact up_eq2 e (memRead_up h)
    · have k := ih (up_eq2 e (memRead_up h))
      split <;> rename_i e' <;> exact up_eq2 e' k
theorem mcGroupRead_up {a0 a1} (ha0 : Up o a0) : Up o (mcGroupRead a0 a1) := by
  unfold mcGroupRead; dsimp only; split <;> rename_i e; exacts [(failCmd_up (up_eq2 e (memReads_up (noteClamps_up ha0)))), (okCmd_up (up_eq2 e (memReads_up (noteClamps_up ha0))))]
theorem execMcGroupRead_up {a0} (ha0 : Up o a0) : UpR o (execMcGroupRead a0) :=
  (fwCmd_up (fun _ _ h0 => (mcGroupRead_up h0)) ha0)
theorem pps_up {a0 a1} (ha0 : Up o a0) : Up o (pps a0 a1) :=
  (up_ite (issueStep_up (setBit_up (setTk_up (incWrap_up (State.setReg_up (State.setReg_up ha0)))))) (setTk_up (incWrap_up (State.setReg_up (State.setReg_up ha0)))))
theorem execPpsEdge_up {a0 a1} (ha1 : Up o a1) : UpR o (execPpsEdge a0 a1) := (when_up ha1 (pps_up ha1))
theorem startWake_up {a0 a1} (ha0 : Up o a0) : Up o (startWake a0 a1) :=
  (setFld_up (State.setReg_up (State.setReg_up (State.setReg_up ha0))))
theorem execWake_up {a0} (ha0 : Up o a0) : UpR o (execWake a0) := (when_up ha0 (startWake_up ha0))
theorem readCmd_up {a0 a1 a2} (ha0 : Up o a0) : Up o (readCmd a0 a1 a2) := by
  unfold readCmd; split <;> rename_i e; exacts [(failCmd_up (up_eq22 e (fwReads_up ha0))), (okCmd_up (up_eq22 e (fwReads_up ha0)))]
theorem bistResult_up {a0 a1} (ha0 : Up o a0) : Up o (bistResult a0 a1) :=
  (up_ite (okCmd_up (noteClamps_up ha0)) (readCmd_up (noteClamps_up ha0)))
theorem recordImg_up {a0 a1 a2} (ha0 : Up o a0) : Up o (recordImg a0 a1 a2) :=
  (up_ite (logAt_up (State.setReg_up ha0)) (up_ite (State.setReg_up ha0) (logAt_up (State.setReg_up ha0))))
theorem loadNext_up {a0 a1 a2} (ha0 : Up o a0) : Up o (loadNext a0 a1 a2) :=
  (up_ite (failCmd_up ha0) (up_ite (failCmd_up ha0) (up_ite (failCmd_up ha0) (up_ite (finish_up (recordImg_up ha0)) (okCmd_up ha0)))))
theorem takeXconfirm_up {a0 a1} (ha0 : Up o a0) : Up o (takeXconfirm a0 a1) := by
  unfold takeXconfirm; split; exacts [ha0, (modSlot_up ha0)]
theorem execBackup_up {s} (h : Up o s) : UpR o (execBackup s) :=
  ok_up (setTk_up (setBit_up (UpF.mk' (fabReset_up h) rfl rfl id (fun _ => rfl) id id id)))
theorem endBar_up {a0 a1 a2 a3} (ha0 : Up o a0) : Up o (endBar a0 a1 a2 a3) :=
  (up_ite (modNi_up (up_ite (setFld_up (State.setReg_up (modNi_up ha0))) (State.setReg_up (modNi_up ha0)))) (present_up (up_ite (setFld_up (State.setReg_up (modNi_up ha0))) (State.setReg_up (modNi_up ha0)))))
theorem barTimeoutOp_up {a0 a1} (ha0 : Up o a0) : Up o (barTimeoutOp a0 a1) := by
  unfold barTimeoutOp; split; exacts [ha0, (up_ite ha0 (logNi_up (incSat_up (endBar_up ha0))))]
theorem execBarTimeout_up {a0 a1} (ha1 : Up o a1) : UpR o (execBarTimeout a0 a1) :=
  (up_ok (readHeaders_up (coreSettle_up (barTimeoutOp_up ha1))))
theorem ownRead_up {a0 a1 a2 a3 a4 a5 a6} (ha0 : Up o a0) : Up o (ownRead a0 a1 a2 a3 a4 a5 a6) := (ownSend_up ha0)
theorem dropCell_up {a0 a1 a2 a3} (ha0 : Up o a0) : Up o (dropCell a0 a1 a2 a3) := (cellRef_up (modNi_up ha0))
theorem raiseMcErr_up {a0 a1 a2} (ha0 : Up o a0) : Up o (raiseMcErr a0 a1 a2) := (loseAtRise_up ha0 (raiseBit_up ha0))
theorem noteWait_up {a0 a1 a2} (ha0 : Up o a0) : Up o (noteWait a0 a1 a2) := (maxReg_up ha0)
theorem stageCell_up {a0 a1 a2 a3} (ha0 : Up o a0) : Up o (stageCell a0 a1 a2 a3) := (modNi_up (noteWait_up ha0))
theorem sendReq_up {a0 a1 a2 a3 a4 a5} (ha0 : Up o a0) : Up o (sendReq a0 a1 a2 a3 a4 a5) := (modNi_up (ownSend_up ha0))
theorem advanceMc_up {a0 a1 a2} (ha0 : Up o a0) : Up o (advanceMc a0 a1 a2) := by
  unfold advanceMc; dsimp only; exact (up_ite ha0 (by split; exacts [(ownRead_up (incWrap_up (modNi_up ha0))), (up_ite (dropCell_up (raiseMcErr_up ha0)) (up_ite (dropCell_up (up_ite (incSat_up ha0) ha0)) (by split; exacts [(ownRead_up (modNi_up (up_ite (incSat_up ha0) ha0))), (by split; exacts [(stageCell_up (up_ite (incSat_up ha0) ha0)), (by split; exacts [(sendReq_up (modNi_up (up_ite (incSat_up ha0) ha0))), (modNi_up (up_ite (incSat_up ha0) ha0))])])])))]))
theorem advanceCell_up {a0 a1 a2} (ha0 : Up o a0) : Up o (advanceCell a0 a1 a2) := by
  unfold advanceCell; dsimp only; split; exacts [(stageCell_up (State.setNi_up ha0)), (by split; exacts [ha0, (up_ite (sendReq_up (State.setNi_up ha0)) ha0)])]
theorem advance_up {a0 a1} (ha0 : Up o a0) : Up o (advance a0 a1) := by
  unfold advance; split; exacts [ha0, (up_ite (advanceMc_up ha0) (advanceCell_up ha0))]
theorem fillCell_up {a0 a1 a2} (ha0 : Up o a0) : Up o (fillCell a0 a1 a2) := by
  unfold fillCell; dsimp only; split; exacts [(up_ite ha0 (modNi_up ha0)), (up_ite (advance_up (modNi_up (up_ite ha0 (modNi_up ha0)))) (up_ite ha0 (modNi_up ha0)))]
theorem busyEdge_up {a0 a1 a2} (ha2 : Up o a2) : Up o (busyEdge a0 a1 a2) :=
  (up_ite (modLaunch_up ha2) (clearPath_up (modLaunch_up ha2)))
theorem takeBusy_up {a0 a1 a2} (ha0 : Up o a0) : Up o (takeBusy a0 a1 a2) := by
  unfold takeBusy
  extract_lets b s1 meets late
  have k : Up o s1 := modTa_up ha0
  clear_value s1
  exact up_forEach (fun _ _ h0 => busyEdge_up h0) (up_upd k rfl)
theorem refHere_up {a0 a1 a2} (ha0 : Up o a0) : Up o (refHere a0 a1 a2) := by
  unfold refHere; split; exacts [ha0, (up_ite (advance_up (modNi_up ha0)) ha0)]
theorem unreachable_up {a0 a1 a2 a3} (ha0 : Up o a0) : Up o (unreachable a0 a1 a2 a3) :=
  (up_ite (up_ite (incFld_up (up_ite ha0 (incSat_up ha0))) (up_ite ha0 (incSat_up ha0))) (up_ite (refHere_up (up_ite ha0 (incSat_up ha0))) (by split; exacts [(up_ite (abortReq_up (up_ite ha0 (incSat_up ha0))) (up_ite ha0 (incSat_up ha0))), (up_ite (modNi_up (cellRef_up (up_ite ha0 (incSat_up ha0)))) (cellRef_up (up_ite ha0 (incSat_up ha0)))), (up_ite ha0 (incSat_up ha0))])))
theorem debitTokens_up {a0 a1 a2} (ha0 : Up o a0) : Up o (debitTokens a0 a1 a2) := (up_ite (setFld_up ha0) ha0)
theorem noteUndeclared_up {a0 a1 a2} (ha0 : Up o a0) : Up o (noteUndeclared a0 a1 a2) :=
  (up_ite (up_ite (modNi_up (logNi_up (loseAtRise_up ha0 (raiseBit_up (incSat_up ha0))))) (loseAtRise_up ha0 (raiseBit_up (incSat_up ha0)))) ha0)
theorem sprayCell_up {a0 a1 a2} (ha0 : Up o a0) : Up o (sprayCell a0 a1 a2).1 :=
  (up_ite1 (up_mk1 (State.setNi_up ha0)) (up_ite1 (up_mk1 ha0) (up_mk1 ha0)))
theorem enterRouter_up {a0 a1 a2 a3} (ha0 : Up o a0) : Up o (enterRouter a0 a1 a2 a3) :=
  (modRt_up (setCnt_up (stirTile_up ha0)))
theorem holdHead_up {a0 a1 a2} (ha0 : Up o a0) : Up o (holdHead a0 a1 a2) := (up_ite ha0 (modNi_up ha0))
theorem countCut_up {a0 a1 a2 a3} (ha0 : Up o a0) : Up o (countCut a0 a1 a2 a3) := (up_ite (incSat_up ha0) ha0)
theorem injectOne_up {a0 a1 a2} (ha0 : Up o a0) : Up o (injectOne a0 a1 a2) := by
  unfold injectOne; dsimp only; split; exacts [ha0, (up_ite (refuseHead_up (State.setNi_up ha0)) (up_ite (holdHead_up ha0) (up_ite (unreachable_up (State.setNi_up ha0)) (up_ite (up_ite (holdHead_up ha0) (incWrap_up (modNi_up (holdHead_up ha0)))) (by split; exacts [(holdHead_up ha0), (up_ite (up_ite (holdHead_up ha0) (incSat_up (modNi_up (holdHead_up ha0)))) (up_ite (holdHead_up ha0) (up_pair1 (sprayCell_up (up_ite (noteUndeclared_up (up_ite (incWrap_up (setFld_up (debitTokens_up (countCut_up (State.setNi_up ha0))))) (debitTokens_up (countCut_up (State.setNi_up ha0))))) (addWrap_up (noteUndeclared_up (up_ite (incWrap_up (setFld_up (debitTokens_up (countCut_up (State.setNi_up ha0))))) (debitTokens_up (countCut_up (State.setNi_up ha0)))))))) fun _ h0 _ => (up_ite (advance_up (enterRouter_up h0)) (enterRouter_up h0)))))])))))]
theorem setFlight_up {a0 a1 a2 a3} (ha0 : Up o a0) : Up o (setFlight a0 a1 a2 a3) := (modRt_up ha0)
theorem unroute_up {a0 a1 a2} (ha0 : Up o a0) : Up o (unroute a0 a1 a2) :=
  (logTile_up (dropFlight_up (incSat_up (up_ite (State.setReg_up ha0) ha0))))
theorem routeFlight_up {a0 a1 a2} (ha0 : Up o a0) : Up o (routeFlight a0 a1 a2) := by
  unfold routeFlight; dsimp only; split; exacts [(setFlight_up ha0), (setFlight_up ha0), (unroute_up ha0)]
theorem dropLinkJobs_up {a0 a1 a2 a3 a4} (ha0 : Up o a0) : Up o (dropLinkJobs a0 a1 a2 a3 a4) := ha0
theorem pendLink_up {a0 a1 a2 a3} (ha0 : Up o a0) : Up o (pendLink a0 a1 a2 a3) := (setPend16_up (setPend16_up ha0))
theorem dropRepairs_up {a0 a1 a2 a3} (ha0 : Up o a0) : Up o (dropRepairs a0 a1 a2 a3) := ha0
theorem fenceLinkOut_up {a0 a1 a2 a3 a4 a5} (ha0 : Up o a0) : Up o (fenceLinkOut a0 a1 a2 a3 a4 a5) :=
  (up_ite (up_ite (fenceTicketOk_up (addJob_up (pendLink_up (dropLinkJobs_up (dropRepairs_up (dropLinkJobs_up ha0)))))) (fenceOr_up ha0 (addJob_up (pendLink_up (dropLinkJobs_up (dropRepairs_up (dropLinkJobs_up ha0))))) (addJob_up (pendLink_up (dropLinkJobs_up (dropRepairs_up (dropLinkJobs_up ha0))))))) (fenceTicketOk_up (writeFences_up (dropRepairs_up (dropLinkJobs_up ha0)))))
theorem fenceLinkIn_up {a0 a1 a2 a3 a4} (ha0 : Up o a0) : Up o (fenceLinkIn a0 a1 a2 a3 a4) :=
  (up_ite (up_ite (fenceTicketOk_up (pendLink_up (dropRepairs_up (dropLinkJobs_up ha0)))) (fenceTicketOk_up ha0)) (fenceTicketOk_up (addJob_up (dropLinkJobs_up (up_forEach (fun _ _ h0 => (fwPoke_up h0)) (dropRepairs_up (dropLinkJobs_up ha0)))))))
theorem fenceLink_up {a0 a1} (ha0 : Up o a0) : Up o (fenceLink a0 a1) :=
  (up_ite (failCmd_up ha0) (up_ite (failCmd_up (noteClamps_up ha0)) (up_ite (fenceLinkOut_up (noteClamps_up ha0)) (fenceLinkIn_up (noteClamps_up ha0)))))
theorem narrowArrives_up {a0 a1 a2 a3} (ha0 : Up o a0) : Up o (narrowArrives a0 a1 a2 a3) :=
  (up_ite ha0 (up_ite (up_ite (loseLink_up (setRx_up (setTx_up ha0))) (setRx_up (setTx_up ha0))) ha0))
theorem saturated_up {a0 a1 a2} (ha0 : Up o a0) : Up o (saturated a0 a1 a2) :=
  (up_ite (modRt_up (logTile_up (State.setReg_up (incSat_up ha0)))) (State.setReg_up (incSat_up ha0)))
theorem pushPort_up {s m q} (h : Up o s) (k : m = .hrp → s.hrpQ.length < 4) : Up o (pushPort s m q) := by
  cases m
  · exact h
  · exact h
  · exact UpF.mk' h rfl rfl id id id
      (fun _ => by simp only [pushPort, List.length_append, List.length_singleton]; exact k rfl) id
theorem applyOwn_up {a0 a1 a2 a3} (ha0 : Up o a0) : Up o (applyOwn a0 a1 a2 a3) :=
  (up_ite (up_forEach (fun _ _ h0 => (rsvPush_up h0)) ha0) (sendPhold_up ha0))
theorem drainOne_up {a0 a1} (ha0 : Up o a0) : Up o (drainOne a0 a1) := by
  unfold drainOne; dsimp only; split; exacts [ha0, (up_ite ha0 (settle_up (by split; exacts [(answer_up (recordNotice_up (up_ite (loseReservation_up ha0) ha0))), (up_ite (answer_up (decodeMiss_up ha0)) (up_ite (answer_up (loseReservation_up ha0)) (up_ite (answer_up (applyOwn_up ha0)) (stageOreq_up (modNi_up ha0)))))])))]
theorem execStoreBufferDrain_up {a0 a1} (ha1 : Up o a1) : UpR o (execStoreBufferDrain a0 a1) :=
  (ok_up (drainOne_up ha1))
theorem narrowExpires_up {a0 a1} (ha0 : Up o a0) : Up o (narrowExpires a0 a1) := by
  unfold narrowExpires; dsimp only; split; exacts [ha0, (up_ite ha0 (by split; exacts [(up_ite ha0 (logTile_up (modTa_up ha0))), (recordRefusal_up (giveUpNarrow_up ha0)), (by split; exacts [(giveUpNarrow_up ha0), (notStarted_up (modTa_up (giveUpNarrow_up ha0)))])]))]
theorem directCmd_up {a0 a1 a2 a3} (ha0 : Up o a0) : Up o (directCmd a0 a1 a2 a3) := by
  unfold directCmd; split; exacts [(failCmd_up ha0), (writeCmd_up (noteClamps_up ha0))]
theorem admSet_up {a0 a1} (ha0 : Up o a0) : Up o (admSet a0 a1) := (directCmd_up ha0)
theorem countRst_up {a0 a1} (ha0 : Up o a0) : Up o (countRst a0 a1) := (incFld_up ha0)
theorem takeOpc_up {a0 a1 a2} (ha0 : Up o a0) : UpO o (takeOpc a0 a1 a2) := (takeEject_up ha0)
theorem takeFabrt_up {a0 a1 a2} (ha0 : Up o a0) : Up o (takeFabrt a0 a1 a2) :=
  (up_ite (up_ite (abortLaunch_up ha0) ha0) (discardAt_up ha0))
theorem execFabrt_up {a0 a1} (ha1 : Up o a1) : UpR o (execFabrt a0 a1) := by
  unfold execFabrt; split <;> rename_i e; exacts [(ok_up ha1), (ok_up (takeFabrt_up ((takeOpc_up ha1) _ _ e)))]
theorem afterKill_up {a0 a1 a2 a3 a4} (ha0 : Up o a0) : Up o (afterKill a0 a1 a2 a3 a4) := by
  unfold afterKill; split; exacts [(up_ite (abortReq_up ha0) (up_ite (present_up ha0) ha0)), (stageOwn_up (up_ite (incSat_up ha0) ha0)), (up_ite (cellRef_up ha0) ha0), ha0]
theorem copyArgs_up {s a k} (h : Up o s) : Up o (copyArgs s a k).2 := by
  induction k generalizing s a with
  | zero => exact h
  | succ k ih =>
    refine ih (?_ : Up o (match fwReadFails s a with
      | some (w, cause, x) => freeW (recordFault s (448 + activeCore s) Opc.RD 0 w cause x)
      | none => if isPoison s a = true then freeW s else (s.word a, s)).2)
    split
    · exact freeW_up (recordFault_up h)
    · exact up_ite2 (freeW_up h) h
theorem staleOp_up {a0 a1 a2} (ha0 : Up o a0) : Up o (staleOp a0 a1 a2) :=
  (up_ite (wakeTile_up (logFw_up ha0)) (logFw_up ha0))
theorem spareRow_up {a0 a1} (ha1 : Up o a1.1) : Up o (spareRow a0 a1).1 := by
  unfold spareRow; split; exacts [(up_mk1 (State.setReg_up ha1)), (up_mk1 ha1)]
theorem fenceBoth_up {a0 a1} (ha0 : Up o a0) : Up o (fenceBoth a0 a1) := (addJob_up ha0)
theorem execMax36_up {a0 a1 a2} (ha2 : Up o a2) : UpR o (execMax36 a0 a1 a2) := by
  unfold execMax36; split; exacts [(ok_up ha2), (when_up ha2 (fopWord_up ha2))]
theorem returnWord_up {a0 a1 a2} (ha0 : Up o a0) : Up o (returnWord a0 a1 a2) :=
  (up_ite (up_ite (setLink_up ha0) ha0) (by dsimp only; split; exacts [(up_ite (setLink_up ha0) ha0), (noteSc5_up (setCnt_up (modRt_up (up_ite (setLink_up ha0) ha0))))]))
theorem execPip_up {a0 a1 a2} (ha2 : Up o a2) : UpR o (execPip a0 a1 a2) := (ok_up (markReady_up (returnWord_up ha2)))
theorem writeCtrlAt_up {a0 a1 a2} (ha0 : Up o a0) : Up o (writeCtrlAt a0 a1 a2) :=
  (reached_up ha0 (fun _ h0 => (readHeaders_up (coreSettle_up (writeGrdCtrl_up h0)))))
theorem execGrdEnable_up {a0 a1} (ha1 : Up o a1) : UpR o (execGrdEnable a0 a1) := (up_ok (writeCtrlAt_up ha1))
theorem execFnfCmdStageOnly_up {a0 a1} (ha1 : Up o a1) : UpR o (execFnfCmdStageOnly a0 a1) := (hostWrite_up ha1)
theorem reportLost_up {a0 a1 a2} (ha0 : Up o a0) : Up o (reportLost a0 a1 a2) := (up_ite ha0 ha0)
theorem loseDelivered_up {a0 a1} (ha0 : Up o a0) : Up o (loseDelivered a0 a1) :=
  (up_forEach (fun _ _ h0 => (up_ite (logNi_up h0) (reportLost_up h0))) (modNi_up ha0))
theorem countKillTx_up {a0 a1 a2 a3} (ha0 : Up o a0) : Up o (countKillTx a0 a1 a2 a3) := (raiseErr_up (incSat_up ha0))
theorem killInNet_up {a0 a1} (ha0 : Up o a0) : Up o (killInNet a0 a1) := ha0
theorem killOpen_up {a0 a1 a2 a3 a4} (ha0 : Up o a0) : Up o (killOpen a0 a1 a2 a3 a4) :=
  (up_ite (afterKill_up (countKillTx_up (killInNet_up (modNi_up ha0)))) (modNi_up ha0))
theorem dropCopy_up {a0 a1 a2} (ha0 : Up o a0) : Up o (dropCopy a0 a1 a2) := by
  unfold dropCopy; split; exacts [(raiseMcErr_up (incSat_up ha0)), (takeBack_up (modNi_up ha0))]
theorem flushEject_up {a0 a1 a2} (ha2 : Up o a2) : Up o (flushEject a0 a1 a2) :=
  (up_ite (abortInbound_up (modNi_up ha2)) (up_ite (by split; exacts [(incSat_up (modNi_up ha2)), (up_ite (incSat_up (modNi_up ha2)) (takeBack_up (modNi_up (modNi_up ha2))))]) (up_ite (dropCopy_up (modNi_up ha2)) (up_ite (incSat_up (modNi_up (modNi_up ha2))) (up_ite (incSat_up (modNi_up ha2)) ha2)))))
theorem sendRel_up {a0 a1 a2 a3 a4 a5} (ha0 : Up o a0) : Up o (sendRel a0 a1 a2 a3 a4 a5) := (ownSend_up ha0)
theorem returnPair_up {a0 a1 a2 a3} (ha0 : Up o a0) : Up o (returnPair a0 a1 a2 a3) :=
  (up_forEach (fun _ _ h0 => (sendRel_up h0)) (State.setNi_up ha0))
theorem sendWithdraw_up {a0 a1 a2 a3} (ha0 : Up o a0) : Up o (sendWithdraw a0 a1 a2 a3) := (ownSend_up ha0)
theorem returnAll_up {a0 a1} (ha0 : Up o a0) : Up o (returnAll a0 a1) := by
  unfold returnAll; dsimp only; split; exacts [(modNi_up (up_forEach (fun _ _ h0 => (sendStandRel_up h0)) (up_forEach (fun _ _ h1 => (returnPair_up h1)) ha0))), (modNi_up (up_ite (modNi_up (up_forEach (fun _ _ h2 => (sendStandRel_up h2)) (up_forEach (fun _ _ h3 => (returnPair_up h3)) ha0))) (sendWithdraw_up (modNi_up (up_forEach (fun _ _ h4 => (sendStandRel_up h4)) (up_forEach (fun _ _ h5 => (returnPair_up h5)) ha0))))))]
theorem unitDrop_up {a0 a1} (ha0 : Up o a0) : Up o (unitDrop a0 a1) :=
  (up_forEach (fun _ _ h0 => (flushEject_up h0)) (modNi_up (up_forEach (fun _ _ h1 => (incSat_up (owedResp_up h1))) (up_forEach (fun _ _ h2 => (incSat_up (stageOwn_up h2))) (modNi_up (up_forEach (fun _ _ h3 => (up_ite h3 (up_ite (up_ite (modNi_up (countKillTx_up (killInNet_up h3))) h3) (killOpen_up h3)))) ha0))))))
theorem unitGone_up {a0 a1} (ha0 : Up o a0) : Up o (unitGone a0 a1) := (returnAll_up (unitDrop_up ha0))
theorem unitResetOp_up {a0 a1} (ha0 : Up o a0) : Up o (unitResetOp a0 a1) :=
  (up_ite ha0 (State.setReg_up (modNi_up (by split; exacts [(loseDelivered_up (bumpEpoch_up (unitGone_up ha0))), (up_ite (setFld_up (loseDelivered_up (bumpEpoch_up (unitGone_up ha0)))) (loseDelivered_up (bumpEpoch_up (unitGone_up ha0))))]))))
theorem launchStore_up {a0 a1 a2 a3} (ha0 : Up o a0) : Up o (launchStore a0 a1 a2 a3) :=
  (up_ite (tmemStore_up ha0) (modTmc_up ha0))
theorem profileLaunch_up {a0} (ha0 : Up o a0) : Up o (profileLaunch a0) :=
  (up_forEach (fun _ _ h0 => (takeProfile_up h0)) ha0)
theorem applyLate_up {a0 a1 a2 a3 a4} (ha0 : Up o a0) : Up o (applyLate a0 a1 a2 a3 a4) :=
  (setShadow_up (modTa_up (poke_up ha0)))
theorem applyWord_up {a0 a1 a2 a3} (ha0 : Up o a0) : Up o (applyWord a0 a1 a2 a3) := by
  unfold applyWord; dsimp only; split; exacts [(launchStore_up ha0), (by split; exacts [(applyLate_up ha0), (up_ite (setShadow_up (up_ite (profileLaunch_up (poke_up ha0)) (poke_up ha0))) (up_ite (profileLaunch_up (poke_up ha0)) (poke_up ha0)))]), ha0]
theorem applyEntry_up {a0 a1} (ha0 : Up o a0) : Up o (applyEntry a0 a1) :=
  (up_ite ha0 (up_forEach (fun _ _ h0 => (applyWord_up h0)) ha0))
theorem noteLaunch_up {a0 a1 a2 a3} (ha0 : Up o a0) : Up o (noteLaunch a0 a1 a2 a3) :=
  (up_ite (logGlobal_up (up_ite (logGlobal_up (incWrap_up (State.setReg_up (incWrap_up ha0)))) (State.setReg_up (incWrap_up ha0)))) (up_ite (logGlobal_up (incWrap_up (State.setReg_up (incWrap_up ha0)))) (State.setReg_up (incWrap_up ha0))))
theorem performLaunch_up {a0 a1 a2} (ha0 : Up o a0) : Up o (performLaunch a0 a1 a2) :=
  (afterLaunch_up (noteLaunch_up (up_forEach (fun _ _ h0 => (modTa_up h0)) (up_forEach (fun _ _ h1 => (up_ite (pushStrobe_up h1) h1)) (up_forEach (fun _ _ h2 => (up_ite (applyEntry_up h2) h2)) ha0)))))
theorem returnGrant_up {a0 a1 a2} (ha0 : Up o a0) : Up o (returnGrant a0 a1 a2) :=
  (up_ite (sendStandRel_up ha0) (sendRel_up ha0))
theorem acceptGrant_up {a0 a1 a2 a3} (ha0 : Up o a0) : Up o (acceptGrant a0 a1 a2 a3) :=
  (up_ite (modNi_up (modNi_up ha0)) (up_ite (returnGrant_up (modNi_up ha0)) (modNi_up (modNi_up ha0))))
theorem takeGrant_up {a0 a1 a2} (ha0 : Up o a0) : Up o (takeGrant a0 a1 a2) := by
  unfold takeGrant; split; exacts [(returnGrant_up ha0), (up_ite (returnGrant_up ha0) (up_ite (advance_up (returnGrant_up (modNi_up ha0))) (advance_up (acceptGrant_up ha0))))]
theorem execRsvgnt_up {a0 a1} (ha1 : Up o a1) : UpR o (execRsvgnt a0 a1) := by
  unfold execRsvgnt; split <;> rename_i e; exacts [(ok_up ha1), (ok_up (up_ite ((takeRsv_up ha1) _ _ e) (takeGrant_up ((takeRsv_up ha1) _ _ e))))]
theorem puntSet_up {a0 a1} (ha0 : Up o a0) : Up o (puntSet a0 a1) := (directCmd_up ha0)
theorem stageEntry_up {a0 a1 a2} (ha0 : Up o a0) : Up o (stageEntry a0 a1 a2) :=
  (up_ite (reportLost_up ha0) (up_ite (present_up (modNi_up ha0)) (modNi_up ha0)))
theorem execFstage_up {a0 a1} (ha1 : Up o a1) : UpR o (execFstage a0 a1) := by
  unfold execFstage; split <;> rename_i e; exacts [(ok_up ha1), (ok_up (stageEntry_up ((takeOpc_up ha1) _ _ e)))]
theorem tmemStores_up {s t off w p i k} (h : Up o s) : Up o (tmemStores s t off w p i k) := by
  induction k generalizing s i with
  | zero => exact h
  | succ k ih => exact ih (tmemStore_up h)
theorem serveWrite_up {a0 a1 a2} (ha0 : Up o a0) : Up o (serveWrite a0 a1 a2) :=
  (tmemAnswer_up (up_ite (incWrap_up (tmemStores_up ha0)) (tmemStores_up ha0)))
theorem clearEntry_up {a0 a1 a2} (ha0 : Up o a0) : Up o (clearEntry a0 a1 a2) := (modTmc_up ha0)
theorem serveStcond_up {a0 a1 a2} (ha0 : Up o a0) : Up o (serveStcond a0 a1 a2) :=
  (up_ite (serveWrite_up (clearEntry_up ha0)) (tmemAnswer_up (incWrap_up (up_ite (clearEntry_up ha0) ha0))))
theorem execTmemStcond_up {a0 a1} (ha1 : Up o a1) : UpR o (execTmemStcond a0 a1) := by
  unfold execTmemStcond; split; exacts [(ok_up ha1), (when_up ha1 (serveStcond_up ha1))]
theorem reqArrives_up {a0 a1 a2} (ha0 : Up o a0) : Up o (reqArrives a0 a1 a2) :=
  (up_ite (grantNow_up ha0) (up_ite (sendRef_up ha0) (State.setNi_up ha0)))
theorem execRsvAnswerLost_up {a0 a1} (ha1 : Up o a1) : UpR o (execRsvAnswerLost a0 a1) :=
  (when_up ha1 (advance_up (incSat_up (modNi_up ha1))))
theorem setSlotLt_up {a0 a1 a2} (ha0 : Up o a0) : Up o (setSlotLt a0 a1 a2) := (State.setReg_up (State.setReg_up ha0))
theorem noteTicketLt_up {a0 a1 a2} (ha0 : Up o a0) : Up o (noteTicketLt a0 a1 a2) := (up_ite ha0 ha0)
theorem armSlot_up {a0 a1 a2} (ha0 : Up o a0) : Up o (armSlot a0 a1 a2) :=
  (ownSend_up (ownSend_up (noteTicketLt_up (setSlotLt_up (setFld_up (setFld_up (setSlotState_up ha0)))))))
theorem xlistFrom_up {s a n} (h : Up o s) : Up o (xlistFrom s a n).2 := by
  induction n generalizing s a with
  | zero => exact h
  | succ n ih => exact ih (listWord_up h)
theorem xlist_up {a0 a1} (ha0 : Up o a0) : Up o (xlist a0 a1).2 := (xlistFrom_up ha0)
theorem armCross_up {a0 a1} (ha0 : Up o a0) : Up o (armCross a0 a1) := by
  have g (m : XMsg) (c : List XCo) (x : List Nat × State) (h : Up o x.2) :
      Up o { forEach (fun i st => xsend st i XT.XARM m) x.1 x.2 with xco := c } :=
    up_upd (up_forEach (fun _ _ h => xsend_up h) h) rfl
  exact armSlot_up (modSlot_up (g _ _ (xlist a0 a1) (xlist_up ha0)))
theorem slotStaged_up {a0 a1} (ha0 : Up o a0) : Up o (slotStaged a0 a1) :=
  (up_ite (setSlotState_up ha0) (up_ite ha0 (up_ite (armCross_up ha0) (armSlot_up ha0))))
theorem countStaged_up {a0 a1 a2 a3} (ha0 : Up o a0) : Up o (countStaged a0 a1 a2 a3) :=
  (up_ite ha0 (by dsimp only; split; exacts [ha0, (up_ite (abortStaged_up ha0) (up_ite (slotStaged_up (modSlot_up ha0)) (modSlot_up ha0)))]))
theorem execFstgd_up {a0 a1} (ha1 : Up o a1) : UpR o (execFstgd a0 a1) := by
  unfold execFstgd; split <;> rename_i e; exacts [(ok_up ha1), (ok_up (countStaged_up ((takeOpc_up ha1) _ _ e)))]
theorem fenceOutSlice_up {a0 a1 a2} (ha0 : Up o a0) : Up o (fenceOutSlice a0 a1 a2) :=
  (up_ite (setTileState_up (modTa_up (setSlice_up ha0))) (modTa_up (setSlice_up ha0)))
theorem writeVector_up {a0} (ha0 : Up o a0) : Up o (writeVector a0) :=
  (up_pair2 (freeW_up ha0) fun _ _ h0 => (State.setWord_up h0))
theorem revert_up {a0} (ha0 : Up o a0) : Up o (revert a0) :=
  (logFw_up (setFld_up (setFld_up (State.setWord_up (State.setReg_up ha0)))))
theorem releaseC1_up {a0 a1} (ha0 : Up o a0) : Up o (releaseC1 a0 a1) := (up_ite (writeC1Run_up ha0) ha0)
theorem execOcOk_up {a0 a1} (ha1 : Up o a1) : UpR o (execOcOk a0 a1) :=
  (up_ok (up_ite (releaseC1_up (setBit_up (setBit_up ha1))) (setBit_up ha1)))
theorem askChecks_up {a0 a1} (ha0 : Up o a0) : Up o (askChecks a0 a1) := (up_ite ha0 ha0)
theorem execHeadRoute_up {a0 a1 a2 a3} (ha3 : Up o a3) : UpR o (execHeadRoute a0 a1 a2 a3) := by
  unfold execHeadRoute; split; exacts [(ok_up ha3), (up_iteR (ok_up (noteLoss_up (dropFlight_up ha3))) (ok_up (markReady_up (routeFlight_up ha3))))]
theorem ticketRegs_up {a0 a1 a2 a3 a4} (ha0 : Up o a0) : Up o (ticketRegs a0 a1 a2 a3 a4) :=
  (ticketCmd_up (noteClamps_up ha0))
theorem execMtxRemap_up {a0 a1} (ha1 : Up o a1) : UpR o (execMtxRemap a0 a1) := (hostWrite_up ha1)
theorem repaired_up {a0 a1 a2} (ha0 : Up o a0) : Up o (repaired a0 a1 a2) :=
  (up_ite (setPend16_up (setPend16_up (incWrap_up (setLink_up (fwPoke_up ha0))))) (incWrap_up (setLink_up (fwPoke_up ha0))))
theorem repairEnd_up {a0 a1} (ha0 : Up o a0) : Up o (repairEnd a0 a1) := ha0
theorem repairPasses_up {a b n l s} (h : Up o s) : Up o (repairPasses a b n l s) := by
  induction n generalizing s l with
  | zero => exact logFw_up (repairEnd_up h)
  | succ n ih =>
    exact up_ite (logFw_up (repairEnd_up (noteTraining_up h)))
      (up_ite (repaired_up (noteTraining_up (writeSpares_up (noteTraining_up h))))
        (ih (noteTraining_up (writeSpares_up (noteTraining_up h)))))
theorem repairHalf_up {a0 a1 a2} (ha0 : Up o a0) : Up o (repairHalf a0 a1 a2) :=
  (up_ite (setPend16_up (setPend16_up ha0)) (up_ite (fwPoke_up ha0) (repairPasses_up ha0)))
theorem calibrate_up {a0 a1 a2 a3 a4} (ha0 : Up o a0) : Up o (calibrate a0 a1 a2 a3 a4) :=
  (up_ite (by generalize g : State.setReg _ _ _ = b; exact (g ▸ (State.setReg_up ha0) : Up o b)) (by generalize g : State.setReg _ _ _ = b; exact (g ▸ (State.setReg_up (State.setReg_up ha0)) : Up o b)))
theorem execTreeCalibrate_up {a0 a1 a2 a3 a4} (ha4 : Up o a4) : UpR o (execTreeCalibrate a0 a1 a2 a3 a4) :=
  (when_up ha4 (calibrate_up ha4))
theorem execRowMigration_up {a0 a1 a2 a3 a4} (ha4 : Up o a4) : UpR o (execRowMigration a0 a1 a2 a3 a4) :=
  (when_up ha4 (writeSpare_up ha4))
theorem slotRegs_up {a0 a1 a2 a3} (ha0 : Up o a0) : Up o (slotRegs a0 a1 a2 a3) :=
  (up_pair2 (freeW_up ha0) fun _ _ h0 => (fwPokes_up h0))
theorem presentKill_up {a0 a1 a2} (ha0 : Up o a0) : Up o (presentKill a0 a1 a2) := by
  unfold presentKill; dsimp only; split; exacts [(up_ite (modNi_up (raiseErr_up (incSat_up ha0))) (takeBack_up (modNi_up (raiseErr_up (incSat_up ha0))))), (settle_up (modNi_up (modNi_up (raiseErr_up (incSat_up ha0))))), (modNi_up (modNi_up (raiseErr_up (incSat_up ha0))))]
theorem takeLost_up {a0 a1 a2} (ha0 : Up o a0) : Up o (takeLost a0 a1 a2) :=
  (up_ite ha0 (up_ite (abortStaged_up ha0) (up_ite (abortLaunch_up ha0) ha0)))
theorem failCross_up {a0 a1} (ha0 : Up o a0) : Up o (failCross a0 a1) :=
  (up_ite (abortLaunch_up (modXco_up (up_forEach (fun _ _ h0 => (xsends_up h0)) ha0))) (modXco_up (up_forEach (fun _ _ h1 => (xsends_up h1)) ha0)))
theorem coreAccess_up {a0 a1 a2} (ha0 : Up o a0) : Up o (coreAccess a0 a1 a2) :=
  (up_ite (coreNow_up ha0) (up_ite ha0 (modCore_up ha0)))
theorem readBurst_up {s n p a k} (h : Up o s) : Up o (readBurst s n p a k).2 := by
  induction k generalizing s a with
  | zero => exact h
  | succ k ih => exact ih (readWord_up h)
theorem portAccess_up {a0 a1 a2 a3 a4 a5 a6} (ha0 : Up o a0) : Up o (portAccess a0 a1 a2 a3 a4 a5 a6) :=
  (up_ite (up_ite (up_pair2 (burst_up ha0) fun _ _ h0 => (up_ite (answerPort_up h0) h0)) (up_pair2 (readBurst_up ha0) fun _ _ h1 => (answerPort_up h1))) (memAccess_up ha0))
theorem portRequest_up {s m w a l d} (h : Up o s) : Up o (portRequest s m w a l d) := by
  unfold portRequest; split
  · exact h
  · rename_i c
    refine portAccess_up (pushPort_up (up_upd h rfl) fun e => ?_)
    simp only [e, decide_true, Bool.true_and, Bool.or_eq_true, decide_eq_true_eq, not_or] at c
    exact Nat.lt_of_not_le c.1.1.2
theorem readBy_up {a0 a1 a2} (ha0 : Up o a0) : UpR o (readBy a0 a1 a2) := by
  unfold readBy; split; exacts [(when_up ha0 (coreAccess_up ha0)), (up_ok (portRequest_up ha0))]
theorem execFnfStatRead_up {a0 a1 a2} (ha2 : Up o a2) : UpR o (execFnfStatRead a0 a1 a2) := (readBy_up ha2)
theorem fuseGo_up {s b v} (h : Up o s) : Up o (fuseGo s b v) := by
  unfold fuseGo; dsimp only
  split
  · exact up_upd h rfl
  · split
    · refine ⟨h.1, fun x y => ?_, h.2.2⟩
      rw [Nat.testBit_or, h.2.1 x y, Bool.true_or]
    · exact up_upd h rfl
theorem execFuseBlow_up {a0 a1 a2} (ha2 : Up o a2) : UpR o (execFuseBlow a0 a1 a2) := (when_up ha2 (fuseGo_up ha2))
theorem clampLt_up {a0 a1 a2} (ha0 : Up o a0) : Up o (clampLt a0 a1 a2) :=
  (up_ite (by generalize g : incWrap _ _ = b; exact (g ▸ (incWrap_up (setShadow_up (setShadow_up (setBit_up (setSlotLt_up ha0))))) : Up o b)) (incWrap_up (setShadow_up (setShadow_up (setBit_up (setSlotLt_up ha0))))))
theorem enterLaunch_up {s f l} (h : Up o s) : Up o (enterLaunch s f l) := by
  unfold enterLaunch; extract_lets k short lt' l' s1; clear_value k l'
  have k1 : Up o s1 := up_ite (clampLt_up h) h
  clear_value s1; split
  · exact h
  · exact k1
theorem execFarm_up {a0 a1} (ha1 : Up o a1) : UpR o (execFarm a0 a1) := by
  unfold execFarm; split <;> rename_i e; exacts [(up_ok ha1), (up_ok (up_ite ((takeOpc_up ha1) _ _ e) (enterLaunch_up ((takeOpc_up ha1) _ _ e))))]
theorem execMcGroupClear_up {a0} (ha0 : Up o a0) : UpR o (execMcGroupClear a0) :=
  (fwCmd_up (fun _ _ h0 => (mcGroupClear_up h0)) ha0)
theorem loseHold_up {a0 a1} (ha0 : Up o a0) : Up o (loseHold a0 a1) :=
  (up_forEach (fun _ _ h0 => (reportLost_up h0)) (modNi_up ha0))
theorem niResetOp_up {a0 a1} (ha0 : Up o a0) : Up o (niResetOp a0 a1) :=
  (up_ite (State.setNi_up (startResync_up (by split; exacts [(up_ite (unitDrop_up (loseHold_up ha0)) (bumpEpoch_up (unitDrop_up (loseHold_up ha0)))), (up_ite (setFld_up (up_ite (unitDrop_up (loseHold_up ha0)) (bumpEpoch_up (unitDrop_up (loseHold_up ha0))))) (up_ite (unitDrop_up (loseHold_up ha0)) (bumpEpoch_up (unitDrop_up (loseHold_up ha0)))))]))) (republish_up (uintDrop_up (setBit_up (State.setReg_up (State.setReg_up (up_forEach (fun _ _ h0 => (noteTrigger_up ha0 h0)) (resetRegs_up (State.setNi_up (startResync_up (by split; exacts [(up_ite (unitDrop_up (loseHold_up ha0)) (bumpEpoch_up (unitDrop_up (loseHold_up ha0)))), (up_ite (setFld_up (up_ite (unitDrop_up (loseHold_up ha0)) (bumpEpoch_up (unitDrop_up (loseHold_up ha0))))) (up_ite (unitDrop_up (loseHold_up ha0)) (bumpEpoch_up (unitDrop_up (loseHold_up ha0)))))])))))))))))
theorem niRstOr_up {a0 a1} (ha0 : Up o a0) : Up o (niRstOr a0 a1) := (up_ite ha0 (niResetOp_up (countRst_up ha0)))
theorem dropRouter_up {a0 a1} (ha0 : Up o a0) : Up o (dropRouter a0 a1) :=
  (noteLoss_up (up_forEach (fun _ _ h0 => (cutTrail_up h0)) (up_forEach (fun _ _ h1 => (dropFlight_up h1)) ha0)))
theorem resetSlices_up {a0 a1} (ha0 : Up o a0) : Up o (resetSlices a0 a1) := (resetRegs_up ha0)
theorem resetTmc_up {a0 a1} (ha0 : Up o a0) : Up o (resetTmc a0 a1) :=
  (State.setReg_up (storeEntries_up (modTmc_up (up_forEach (fun _ _ h0 => (askRow_up h0)) ha0))))
theorem coreNiReset_up {a0 a1} (ha0 : Up o a0) : Up o (coreNiReset a0 a1) := (modNi_up (unitResetOp_up ha0))
theorem coreNiRstOr_up {a0 a1} (ha0 : Up o a0) : Up o (coreNiRstOr a0 a1) := (up_ite ha0 (coreNiReset_up ha0))
theorem dropAccess_up {a0 a1} (ha0 : Up o a0) : Up o (dropAccess a0 a1) := ha0
theorem coreCut_up {s c} (h : Up o s) : Up o (coreCut s c) := by
  have k : Up o (dropAccess s (.core (Fin.ofNat 2 c))) := dropAccess_up h
  unfold coreCut; dsimp only
  generalize dropAccess s (.core (Fin.ofNat 2 c)) = u at k
  exact up_ite (incSat_up (up_upd k rfl)) (up_upd k rfl)
theorem leaveLoader_up {a0} (ha0 : Up o a0) : Up o (leaveLoader a0) := (setBit_up (setFld_up ha0))
theorem coreReset_up {a0 a1} (ha0 : Up o a0) : Up o (coreReset a0 a1) :=
  (restart_up (modCore_up (up_ite (setBit_up (thaw_up (setFld_up (resetRegs_up (coreNiRstOr_up (countRst_up (coreCut_up (up_ite (leaveLoader_up ha0) ha0)))))))) (thaw_up (setFld_up (resetRegs_up (coreNiRstOr_up (countRst_up (coreCut_up (up_ite (leaveLoader_up ha0) ha0))))))))))
theorem tileCore_up {a0 a1} (ha0 : Up o a0) : Up o (tileCore a0 a1) :=
  (up_ite (coreReset_up ha0) (up_ite (coreReset_up ha0) ha0))
theorem catchAround_up {a0 a1} (ha0 : Up o a0) : Up o (catchAround a0 a1) :=
  (up_forEach (fun _ _ h0 => (noteLoss_up (caughtFrom_up h0))) ha0)
theorem killTails_up {a0 a1 a2} (ha0 : Up o a0) : Up o (killTails a0 a1 a2) := (modRt_up ha0)
theorem killAround_up {a0 a1} (ha0 : Up o a0) : Up o (killAround a0 a1) :=
  (up_forEach (fun _ _ h0 => (killTails_up h0)) ha0)
theorem tileResetOn_up {a0 a1} (ha0 : Up o a0) : Up o (tileResetOn a0 a1) :=
  (tileCore_up (emptyPorts_up (retrain_up (refill_up ha0 (State.setRt_up (resetSlices_up (resetRegs_up (resetTmc_up (up_forEach (fun _ _ h0 => (niResetOp_up h0)) (dropRouter_up (catchAround_up (killAround_up (fenceAround_up (endAgentSlices_up ha0))))))))))))))
theorem loseRing_up {a0 a1} (ha0 : Up o a0) : Up o (loseRing a0 a1) :=
  (up_ite ha0 (up_ite (setBit_up ha0) (up_pair2 (freeW_up ha0) fun _ _ h0 => (setPend_up (State.setReg_up h0)))))
theorem tileResetNow_up {a0 a1} (ha0 : Up o a0) : Up o (tileResetNow a0 a1) :=
  (logTile_up (countRst_up (up_ite (loseRing_up (tileResetOff_up ha0)) (tileResetOn_up ha0))))
theorem tileRstOr_up {a0 a1} (ha0 : Up o a0) : Up o (tileRstOr a0 a1) :=
  (up_ite ha0 (tileResetNow_up (up_ite (wakeNow_up ha0) ha0)))
theorem performHeld_up {a0 a1} (ha0 : Up o a0) : Up o (performHeld a0 a1) := by
  unfold performHeld; split; exacts [(niRstOr_up ha0), (tileRstOr_up ha0), (coreNiReset_up ha0)]
theorem refuseCell_up {a0 a1 a2} (ha0 : Up o a0) : Up o (refuseCell a0 a1 a2) := by
  unfold refuseCell; dsimp only; split; exacts [(dropCell_up (incSat_up (noteWait_up ha0))), (up_ite (dropCell_up (incSat_up (noteWait_up ha0))) (sendWithdraw_up (modNi_up (dropCell_up (incSat_up (noteWait_up ha0))))))]
theorem execAdmissionTimeout_up {a0 a1} (ha1 : Up o a1) : UpR o (execAdmissionTimeout a0 a1) := by
  unfold execAdmissionTimeout; split; exacts [(ok_up ha1), (ok_up (refuseCell_up ha1))]
theorem roundWrite_up {a0 a1 a2} (ha2 : Up o a2) : Up o (roundWrite a0 a1 a2) := by
  unfold roundWrite; dsimp only; split; exacts [(coreWrite_up ha2), (by split; exacts [(portRequest_up ha2), (poke_up ha2)])]
theorem offRound_up {a0 a1 a2} (ha2 : Up o a2) : Up o (offRound a0 a1 a2) := by
  unfold offRound; split; exacts [(up_ite (coreAccess_up ha2) ha2), ha2]
theorem writeRound_up {a0 a1 a2} (ha0 : Up o a0) : Up o (writeRound a0 a1 a2) := by
  unfold writeRound; dsimp only; split; exacts [(up_forEach (fun _ _ h0 => (roundWrite_up h0)) (up_forEach (fun _ _ h1 => (offRound_up h1)) ha0)), (up_ite (State.setReg_up (incWrap_up (up_forEach (fun _ _ h2 => (roundWrite_up h2)) (up_forEach (fun _ _ h3 => (offRound_up h3)) ha0)))) (up_forEach (fun _ _ h4 => (roundWrite_up h4)) (up_forEach (fun _ _ h5 => (offRound_up h5)) ha0)))]
theorem alarmSet_up {a0 a1} (ha0 : Up o a0) : Up o (alarmSet a0 a1) :=
  (up_ite (writeCmd_up (noteClamps_up ha0)) (writeCmd_up (noteClamps_up ha0)))
theorem execAlarmSet_up {a0} (ha0 : Up o a0) : UpR o (execAlarmSet a0) :=
  (fwCmd_up (fun _ _ h0 => (alarmSet_up h0)) ha0)
theorem grdRead_up {a0 a1} (ha0 : Up o a0) : Up o (grdRead a0 a1) := by
  unfold grdRead; split; exacts [(failCmd_up ha0), (readCmd_up ha0)]
theorem fenceUnslim_up {a0 a1} (ha0 : Up o a0) : Up o (fenceUnslim a0 a1) := (fwPoke_up (dropJobs_up ha0))
theorem execBankMigration_up {a0 a1 a2} (ha2 : Up o a2) : UpR o (execBankMigration a0 a1 a2) :=
  (when_up ha2 (startMig_up ha2))
theorem execWrack_up {a0 a1 a2} (ha2 : Up o a2) : UpR o (execWrack a0 a1 a2) := (ok_up (acceptIrsp_up ha2))
theorem bistCfg_up {a0 a1} (ha0 : Up o a0) : Up o (bistCfg a0 a1) := (directCmd_up ha0)
theorem execBistCfg_up {a0} (ha0 : Up o a0) : UpR o (execBistCfg a0) := (fwCmd_up (fun _ _ h0 => (bistCfg_up h0)) ha0)
theorem execTestStale_up {a0 a1 a2} (ha2 : Up o a2) : UpR o (execTestStale a0 a1 a2) := (when_up ha2 (staleOp_up ha2))
theorem reportStart_up {a0} (ha0 : Up o a0) : Up o (reportStart a0) :=
  (up_ite (logFw_up (setBit_up (up_ite (logFw_up (by generalize g : setBit _ _ _ _ = b; exact (g ▸ (setBit_up ha0) : Up o b))) (setBit_up ha0)))) (up_ite (logFw_up (by generalize g : setBit _ _ _ _ = b; exact (g ▸ (setBit_up ha0) : Up o b))) (setBit_up ha0)))
theorem enterFirmware_up {a0 a1} (ha0 : Up o a0) : Up o (enterFirmware a0 a1) :=
  (reportStart_up (State.setReg_up (setFld_up (setFld_up (setPort_up (fwPoke_up (fwPoke_up (fwPoke_up (writeVector_up ha0)))))))))
theorem loaderDecides_up {a0 a1} (ha0 : Up o a0) : Up o (loaderDecides a0 a1) := by
  unfold loaderDecides; dsimp only; split; exacts [(recordImg_up ha0), (up_ite (okCmd_up (enterFirmware_up (recordImg_up ha0))) (finish_up (recordImg_up ha0)))]
theorem standbyDecides_up {a0 a1} (ha0 : Up o a0) : Up o (standbyDecides a0 a1) :=
  (up_ite (noteQuiet_up (recordImg_up ha0)) (recordImg_up ha0))
theorem execImageCheckDone_up {a0} (ha0 : Up o a0) : UpR o (execImageCheckDone a0) := by
  unfold execImageCheckDone; split; exacts [(ok_up ha0), (up_iteR (when_up ha0 (loaderDecides_up ha0)) (when_up ha0 (standbyDecides_up ha0)))]
theorem execLkacq_up {a0 a1 a2} (ha2 : Up o a2) : UpR o (execLkacq a0 a1 a2) := (ok_up (acceptOreq_up ha2))
theorem niRead_up {a0 a1 a2} (ha0 : Up o a0) : Up o (niRead a0 a1 a2) := by
  unfold niRead; split; exacts [(failCmd_up ha0), (readCmd_up ha0)]
theorem cntRead_up {a0 a1} (ha0 : Up o a0) : Up o (cntRead a0 a1) :=
  (up_ite (niRead_up (noteClamps_up ha0)) (readCmd_up (noteClamps_up (noteClamps_up ha0))))
theorem execCntRead_up {a0} (ha0 : Up o a0) : UpR o (execCntRead a0) := (fwCmd_up (fun _ _ h0 => (cntRead_up h0)) ha0)
theorem setActive_up {a0 a1} (ha0 : Up o a0) : Up o (setActive a0 a1) := (setFld_up ha0)
theorem fnfStage_up {a0 a1} (ha0 : Up o a0) : Up o (fnfStage a0 a1) := (runSlot_up ha0)
theorem execOpcRstHold_up {a0 a1} (ha1 : Up o a1) : UpR o (execOpcRstHold a0 a1) := (hostWrite_up ha1)
theorem badCell_up {a0 a1 a2} (ha0 : Up o a0) : Up o (badCell a0 a1 a2) := (cellRef_up (raiseErr_up ha0))
theorem readCell_up {a0 a1 a2} (ha0 : Up o a0) : Up o (readCell a0 a1 a2) :=
  (up_ite (badCell_up ha0) (up_ite (cellRef_up ha0) (advance_up (modNi_up (noteOpen_up ha0)))))
theorem acceptCell_up {a0 a1 a2} (ha0 : Up o a0) : Up o (acceptCell a0 a1 a2) :=
  (up_ite (stirTile_up ha0) (up_ite (orphanOp_up (stirTile_up ha0)) (up_ite (putFifo_up (stirTile_up ha0)) (readCell_up (stirTile_up ha0)))))
theorem execWr_up {a0 a1 a2} (ha2 : Up o a2) : UpR o (execWr a0 a1 a2) := (ok_up (acceptOreq_up ha2))
theorem barrierOp_up {a0 a1} (ha0 : Up o a0) : Up o (barrierOp a0 a1) := by
  unfold barrierOp; split; exacts [ha0, (up_ite (endBar_up ha0) ha0)]
theorem execBarrierComplete_up {a0 a1} (ha1 : Up o a1) : UpR o (execBarrierComplete a0 a1) :=
  (up_ok (readHeaders_up (coreSettle_up (barrierOp_up ha1))))
theorem discardKilled_up {a0 a1 a2} (ha0 : Up o a0) : Up o (discardKilled a0 a1 a2) :=
  (up_ite (by split; exacts [(raiseErr_up (incSat_up ha0)), (up_ite (raiseErr_up (incSat_up ha0)) (takeBack_up (modNi_up (raiseErr_up (incSat_up ha0)))))]) (up_ite (dropCopy_up (raiseErr_up (incSat_up ha0))) (raiseErr_up (incSat_up ha0))))
theorem execKill_up {a0 a1} (ha1 : Up o a1) : UpR o (execKill a0 a1) := by
  unfold execKill; split; exacts [(up_ok (discardKilled_up (modNi_up ha1))), (up_ok (discardKilled_up (modNi_up ha1))), (up_ok (presentKill_up (modNi_up ha1))), (up_ok ha1)]
theorem unitEnable_up {a0 a1} (ha0 : Up o a0) : Up o (unitEnable a0 a1) := (directCmd_up ha0)
theorem execUnitEnable_up {a0} (ha0 : Up o a0) : UpR o (execUnitEnable a0) :=
  (fwCmd_up (fun _ _ h0 => (unitEnable_up h0)) ha0)
theorem scanBegins_up {a0} (ha0 : Up o a0) : Up o (scanBegins a0) :=
  (up_forEach (fun _ _ h0 => (endAgentWork_up h0)) (up_ite (State.setReg_up ha0) (coreReset_up (coreReset_up (State.setReg_up ha0)))))
theorem scanPin_up {a0} (ha0 : Up o a0) : Up o (scanPin a0) := (up_ite (setBit_up ha0) (scanBegins_up (setBit_up ha0)))
theorem execScanRequest_up {a0} (ha0 : Up o a0) : UpR o (execScanRequest a0) := (up_ok (scanPin_up ha0))
theorem tileClaim_up {a0 a1} (ha0 : Up o a0) : Up o (tileClaim a0 a1) :=
  (up_ite ha0 (up_ite (finish_up (fwPoke_up (noteClamps_up ha0))) (up_ite (finish_up (fwPoke_up (noteClamps_up ha0))) (okCmd_up (fwPoke_up (noteClamps_up ha0))))))
theorem execTileClaim_up {a0} (ha0 : Up o a0) : UpR o (execTileClaim a0) :=
  (fwCmd_up (fun _ _ h0 => (tileClaim_up h0)) ha0)
theorem execGrdUpdateHold_up {a0 a1} (ha1 : Up o a1) : UpR o (execGrdUpdateHold a0 a1) := (up_ok (writeCtrlAt_up ha1))
theorem tmemReadsAt_up {s t off e j k} (h : Up o s) : Up o (tmemReadsAt s t off e j k).2 := by
  induction k generalizing s off e j with
  | zero => exact h
  | succ k ih => exact ih (tmemRead_up h)
theorem errAt_up {a0 a1 a2} (ha0 : Up o a0) : Up o (errAt a0 a1 a2).2 := (up_ite2 (up_mk2 ha0) (up_mk2 (freeW_up ha0)))
theorem tmemReads_up {s t off e k} (h : Up o s) : Up o (tmemReads s t off e k).2 := tmemReadsAt_up (errAt_up h)
theorem sentWords_up {s l} (h : Up o s) : Up o (sentWords s l).2 := by
  induction l generalizing s with
  | nil => exact h
  | cons v l ih =>
    cases v with
    | some v => exact ih h
    | none => exact ih (freeW_up h)
theorem serveRead_up {a0 a1 a2 a3} (ha0 : Up o a0) : Up o (serveRead a0 a1 a2 a3) :=
  (up_pair2 (tmemReads_up ha0) fun _ _ h0 => (up_pair2 (sentWords_up h0) fun _ _ h1 => (tmemAnswer_up h1)))
theorem missSet_up {a0 a1} (ha0 : Up o a0) : Up o (missSet a0 a1) := (ticketRegs_up ha0)
theorem execMissSet_up {a0} (ha0 : Up o a0) : UpR o (execMissSet a0) := (fwCmd_up (fun _ _ h0 => (missSet_up h0)) ha0)
theorem fnfAbortCmd_up {a0 a1} (ha0 : Up o a0) : Up o (fnfAbortCmd a0 a1) :=
  (up_ite (up_ite (okCmd_up ha0) ha0) (up_ite (begunCmd_up (fwPoke_up (noteClamps_up ha0))) (okCmd_up (fwPoke_up (noteClamps_up ha0)))))
theorem execFnfAbort_up {a0} (ha0 : Up o a0) : UpR o (execFnfAbort a0) :=
  (fwCmd_up (fun _ _ h0 => (fnfAbortCmd_up h0)) ha0)
theorem execGrdDisable_up {a0 a1} (ha1 : Up o a1) : UpR o (execGrdDisable a0 a1) := (up_ok (writeCtrlAt_up ha1))
theorem loseArmed_up {a0} (ha0 : Up o a0) : Up o (loseArmed a0) :=
  (up_forEach (fun _ _ h0 => (up_ite (up_forEach (fun _ _ h1 => (discardAt_up h1)) (xoutcome_up (slotAborted_up (dropLaunch_up h0)))) h0)) ha0)
theorem loseTree_up {a0 a1} (ha0 : Up o a0) : Up o (loseTree a0 a1) :=
  (up_ite (logTile_up (modTa_up ha0)) (by generalize g : setTk _ _ _ = b; exact (g ▸ (setTk_up (loseArmed_up (logTile_up (modTa_up ha0)))) : Up o b)))
theorem execTkLostBoth_up {a0 a1} (ha1 : Up o a1) : UpR o (execTkLostBoth a0 a1) := (when_up ha1 (loseTree_up ha1))
theorem execGrdRegionWrite_up {a0 a1 a2 a3 a4} (ha4 : Up o a4) : UpR o (execGrdRegionWrite a0 a1 a2 a3 a4) :=
  up_ok (reached_up ha4 fun _ k => writeRegion_up k)
theorem execNiMcInv_up {a0 a1 a2} (ha2 : Up o a2) : UpR o (execNiMcInv a0 a1 a2) :=
  (up_ok (reached_up ha2 (fun _ h0 => (mcInvOp_up h0))))
theorem execC1Run_up {a0} (ha0 : Up o a0) : UpR o (execC1Run a0) := (hostWrite_up ha0)
theorem dropReset_up {a0 a1} (ha0 : Up o a0) : UpS o (dropReset a0 a1) := by
  unfold dropReset; split; exacts [upS_none, (upS_some ha0)]
theorem execFnfCmdStop_up {a0 a1} (ha1 : Up o a1) : UpR o (execFnfCmdStop a0 a1) := (hostWrite_up ha1)
theorem adopt_up {a0 a1} (ha1 : Up o a1) : Up o (adopt a0 a1) := by
  have k : Up o ((fwTrapped a1 a0).getD (a1.reg a0, a1)).2 := by
    cases h : fwTrapped a1 a0 with
    | none => exact ha1
    | some x => exact fwTrapped_up ha1 _ _ h
  unfold adopt
  generalize (fwTrapped a1 a0).getD (a1.reg a0, a1) = x at k
  have k3 := fwCount_up (a1 := opcReg Off.OPC_SHADOW_CNT) (fwCount_up (a1 := opcReg Off.OPC_CFG_EPOCH) (setShadow_up (a1 := a0) (a2 := x.1) k))
  exact up_ite k (logFw_up (coreKeeps_up (up_ite (up_upd k3 rfl) k3)))
theorem deliverFrame_up {a0 a1} (ha0 : Up o a0) : Up o (deliverFrame a0 a1) := by
  unfold deliverFrame; split; exacts [ha0, (up_ite (incSat_up ha0) (up_ite (decodeMiss_up ha0) (stageOwn_up ha0)))]
theorem noteSeq_up {a0 a1} (ha0 : Up o a0) : Up o (noteSeq a0 a1) := ha0
theorem countFrame_up {a0 a1} (ha0 : Up o a0) : Up o (countFrame a0 a1) := (incWrap_up (addSat_up (noteSeq_up ha0)))
theorem frameIn_up {a0 a1} (ha0 : Up o a0) : Up o (frameIn a0 a1) :=
  (up_ite (incSat_up ha0) (deliverFrame_up (countFrame_up ha0)))
theorem execExtFrameIn_up {a0 a1} (ha1 : Up o a1) : UpR o (execExtFrameIn a0 a1) :=
  (when_up ha1 (bridgePublish_up (up_ite (frameIn_up ha1) (incSat_up ha1))))
theorem execNiPhold_up {a0 a1 a2} (ha2 : Up o a2) : UpR o (execNiPhold a0 a1 a2) :=
  (up_ok (reached_up ha2 (fun _ h0 => (sendPhold_up h0))))
theorem endRepairNar_up {a0 a1 a2} (ha0 : Up o a0) : Up o (endRepairNar a0 a1 a2) := by
  unfold endRepairNar; split; exacts [(up_ite (giveUpNarrow_up ha0) ha0), ha0]
theorem fenceSliceIn_up {a0 a1 a2 a3} (ha0 : Up o a0) : Up o (fenceSliceIn a0 a1 a2 a3) :=
  (up_ite (failCmd_up ha0) (up_ite (fenceTicketOk_up (endRepairNar_up ha0)) (up_ite (fenceTicketOk_up (startReadmit_up (up_ite (wakeNow_up ha0) ha0))) (fenceTicketOk_up ha0))))
theorem setPic_up {a0 a1 a2 a3} (ha0 : Up o a0) : Up o (setPic a0 a1 a2 a3) := (setFld_up (setFld_up ha0))
theorem picSample_up {a0 a1 a2} (ha0 : Up o a0) : Up o (picSample a0 a1 a2) :=
  (up_ite (wakeTile_up (modTa_up (setPic_up ha0))) (up_ite (wakeTile_up (modTa_up (setPic_up ha0))) (up_ite (wakeTile_up (modTa_up (setPic_up ha0))) (modTa_up (setPic_up ha0)))))
theorem fwInfo_up {a0 a1} (ha0 : Up o a0) : Up o (fwInfo a0 a1) := by
  unfold fwInfo; split <;> rename_i e; exacts [(failCmd_up (up_eq22 e (fwReads_up ha0))), (okCmd_up (up_eq22 e (fwReads_up ha0)))]
theorem execFwInfo_up {a0} (ha0 : Up o a0) : UpR o (execFwInfo a0) := (fwCmd_up (fun _ _ h0 => (fwInfo_up h0)) ha0)
theorem execFnfCmdAbort_up {a0 a1} (ha1 : Up o a1) : UpR o (execFnfCmdAbort a0 a1) := (hostWrite_up ha1)
theorem ticketAbort_up {s k n} (h : Up o s) : Up o (ticketAbort s k n) := by
  unfold ticketAbort; dsimp only; generalize g : modSlot _ _ _ = b
  exact (g ▸ modSlot_up (dropRoute_up (logFw_up h)) : Up o b)
theorem execXconfirmDeadline_up {a0 a1} (ha1 : Up o a1) : UpR o (execXconfirmDeadline a0 a1) := by
  unfold execXconfirmDeadline; split; exacts [(ok_up ha1), (ok_up (failCross_up ha1))]
theorem fwZero_up {a0 a1 a2} (ha0 : Up o a0) : Up o (fwZero a0 a1 a2) := by
  unfold fwZero; split; exacts [(zeroWords_up ha0), (up_forEach (fun _ _ h0 => (by split; exacts [(recordNotice_up h0), (zeroWords_up h0)])) ha0)]
theorem runSession_up {a0 a1} (ha0 : Up o a0) : Up o (runSession a0 a1) := by
  unfold runSession
  extract_lets gone later disc hdr s1 s2 s3 a s4 s5
  have k1 : Up o s1 := up_forEach (fun _ _ h3 => up_forEach (fun _ _ h4 =>
    up_ite (up_ite h4 (fwZero_up h4)) (fwZero_up (up_ite h4 (fwZero_up h4)))) h3) ha0
  clear_value s1
  have k2 : Up o s2 := up_forEach (fun _ _ h => up_ite h (setMbxState_up h)) k1
  clear_value s2
  have k3 : Up o s3 := up_forEach (fun _ _ h => State.setReg_up h) k2
  clear_value s3
  have k4 : Up o s4 := State.setReg_up k3
  clear_value s4
  have k : Up o (setBit s4 (mbxReg Off.MBX_AVAIL) 2 false) := setBit_up k4
  have k5 : Up o s5 := up_upd k rfl
  clear_value s5
  exact noteQuiet_up (up_forEach (fun _ _ h => finishBox_up (postResponse_up h)) (irqSync_up k5))
theorem execSessionResetRun_up {a0} (ha0 : Up o a0) : UpR o (execSessionResetRun a0) := by
  unfold execSessionResetRun; split; exacts [(ok_up ha0), (when_up ha0 (runSession_up ha0))]
theorem takeEpoch_up {a0 a1 a2 a3} (ha0 : Up o a0) : Up o (takeEpoch a0 a1 a2 a3) := (up_ite (setFld_up ha0) ha0)
theorem lockStep_up {s t r e f} (h : Up o s) (hf : ∀ s a b, Up o s → Up o (f s a b).2.2.2) : Up o (lockStep s t r e f) := by
  unfold lockStep; dsimp only; split <;> rename_i e1
  · have k2 := up_eq2 e1 (tmemReads_up (takeEpoch_up h))
    exact tmemAnswer_up (up_ite (storeEnds_up (hf _ _ _ k2)) (tmemStore_up (tmemStore_up (hf _ _ _ k2))))
  · exact tmemAnswer_up (up_eq2 e1 (tmemReads_up (takeEpoch_up h)))
theorem sampleLines_up {a0 a1 a2} (ha0 : Up o a0) : Up o (sampleLines a0 a1 a2) :=
  (irqSync_up (uintSync_up (State.setReg_up ha0)))
theorem takeXreport_up {a0 a1} (ha0 : Up o a0) : Up o (takeXreport a0 a1) := (modXco_up ha0)
theorem zeroize_up {a0} (ha0 : Up o a0) : Up o (zeroize a0) :=
  (setBit_up (up_forEach (fun _ _ h0 => (up_forEach (fun _ _ h1 => (State.setReg_up h1)) h0)) (up_forEach (fun _ _ h2 => (loseHold_up h2)) (zeroWords_up (zeroWords_up ha0)))))
theorem zeroizeEnds_up {a0} (ha0 : Up o a0) : Up o (zeroizeEnds a0) :=
  (up_ite (scanBegins_up (setBit_up (setFld_up (zeroize_up ha0)))) (setBit_up (setFld_up (zeroize_up ha0))))
theorem bootStart_up {a0} (ha0 : Up o a0) : Up o (bootStart a0) :=
  (setBit_up (zeroWords_up (zeroWords_up (setBit_up (loadKeys_up (setRun_up (modCore_up (setFld_up ha0))))))))
theorem execBootRomStart_up {a0} (ha0 : Up o a0) : UpR o (execBootRomStart a0) := (when_up ha0 (bootStart_up ha0))
theorem commitImg_up {a0} (ha0 : Up o a0) : Up o (commitImg a0) := (modCore_up (setBit_up (setBit_up ha0)))
theorem fwCommit_up {a0 a1} (ha0 : Up o a0) : Up o (fwCommit a0 a1) := (okCmd_up (up_ite (commitImg_up ha0) ha0))
theorem sendFrame_up {a0 a1 a2} (ha0 : Up o a0) : Up o (sendFrame a0 a1 a2) := (incWrap_up ha0)
theorem crossOut_up {a0 a1} (ha0 : Up o a0) : Up o (crossOut a0 a1) := (up_ite (incSat_up ha0) (sendFrame_up ha0))
theorem feedBridge_up {a0} (ha0 : Up o a0) : Up o (feedBridge a0) := by
  unfold feedBridge; split; exacts [ha0, (up_ite (acceptCell_up ha0) ha0)]
theorem frameOut_up {a0} (ha0 : Up o a0) : Up o (frameOut a0) := by
  unfold frameOut; split <;> rename_i e; exacts [(crossOut_up ((takeEject_up ha0) _ _ e)), (by split; exacts [ha0, (sendFrame_up ha0)])]
theorem execExtMsgOut_up {a0} (ha0 : Up o a0) : UpR o (execExtMsgOut a0) := (up_ok (feedBridge_up (frameOut_up ha0)))
theorem execFabRstAssert_up {a0} (ha0 : Up o a0) : UpR o (execFabRstAssert a0) := (ok_up (fabReset_up ha0))
theorem abandonTurn_up {a0 a1} (ha0 : Up o a0) : Up o (abandonTurn a0 a1) := by
  unfold abandonTurn; dsimp only; split; exacts [ha0, (up_ite ha0 (up_ite (up_pair2 (freeW_up ha0) fun _ _ h0 => (closeTurn_up h0)) (recordAbandon_up ha0)))]
theorem memPuts_up {a0 a1 a2 a3} (ha0 : Up o a0) : Up o (memPuts a0 a1 a2 a3) :=
  (up_forEach (fun _ _ h0 => (memPut_up h0)) ha0)
theorem sendReport_up {a0 a1} (ha0 : Up o a0) : Up o (sendReport a0 a1) := (xsends_up ha0)
theorem execXreportSend_up {a0 a1} (ha1 : Up o a1) : UpR o (execXreportSend a0 a1) := by
  unfold execXreportSend; split; exacts [(ok_up ha1), (ok_up (sendReport_up ha1))]
theorem deliverCopy_up {a0 a1 a2 a3} (ha0 : Up o a0) : Up o (deliverCopy a0 a1 a2 a3) := by
  unfold deliverCopy; split; exacts [(raiseMcErr_up (incSat_up ha0)), (up_ite (incSat_up (takeBack_up (modNi_up ha0))) (trackLate_up (present_up (modNi_up (modNi_up ha0)))))]
theorem mcCfgSet_up {a0 a1} (ha0 : Up o a0) : Up o (mcCfgSet a0 a1) := (directCmd_up ha0)
theorem relOne_up {a0 a1 a2 a3} (ha3 : Up o a3) : Up o (relOne a0 a1 a2 a3) := by
  unfold relOne; dsimp only; split; exacts [(raiseRsvErr_up ha3), (takeBack_up (State.setNi_up ha3))]
theorem execRsvrel_up {a0 a1} (ha1 : Up o a1) : UpR o (execRsvrel a0 a1) := by
  unfold execRsvrel; split <;> rename_i e; exacts [(ok_up ha1), (ok_up (up_ite ((takeRsv_up ha1) _ _ e) (up_forEach (fun _ _ h => relOne_up h) ((takeRsv_up ha1) _ _ e))))]
theorem drainNi_up {a0 a1} (ha1 : Up o a1) : Up o (drainNi a0 a1) :=
  (up_ite (fwPoke_up (up_ite ha1 (up_ite ha1 (fwPoke_up ha1)))) (up_ite ha1 (up_ite ha1 (fwPoke_up ha1))))
theorem startEnts_up {a0 a1 a2 a3 a4} (ha0 : Up o a0) : Up o (startEnts a0 a1 a2 a3 a4) :=
  (pump_up (by generalize g : State.setSlot _ _ _ = b; exact (g ▸ (State.setSlot_up (State.setReg_up (slotRegs_up (readSlotStat_up ha0)))) : Up o b)))
theorem setTicketSlot_up {a0 a1 a2} (ha0 : Up o a0) : Up o (setTicketSlot a0 a1 a2) := ha0
theorem goRoute_up {a0 a1 a2} (ha0 : Up o a0) : Up o (goRoute a0 a1 a2) :=
  (up_ite (up_forEach (fun _ _ h => drainNi_up h) ha0) (startEnts_up (by generalize g : setTicketSlot _ _ _ = b; exact (g ▸ (setTicketSlot_up ha0) : Up o b))))
theorem landLater_up {a0 a1 a2} (ha0 : Up o a0) : Up o (landLater a0 a1 a2) := (landAll_up ha0)
theorem goTicket_up {a0 a1 a2} (ha0 : Up o a0) : Up o (goTicket a0 a1 a2) :=
  (up_ite (landLater_up ha0) (startEnts_up (setTicketSlot_up ha0)))
theorem ticketGo_up {a0} (ha0 : Up o a0) : Up o (ticketGo a0) := by
  unfold ticketGo; split; exacts [(up_ite (goRoute_up ha0) (goTicket_up ha0)), ha0]
theorem ticketWork_up {a0} (ha0 : Up o a0) : Up o (ticketWork a0) := (up_ite (ticketGo_up ha0) ha0)
theorem execTicketGo_up {a0} (ha0 : Up o a0) : UpR o (execTicketGo a0) :=
  (when_up ha0 (ticketWork_up (landAll_up (catchUp_up ha0))))
theorem execPwrWarnAssert_up {a0} (ha0 : Up o a0) : UpR o (execPwrWarnAssert a0) := (when_up ha0 (warnRises_up ha0))
theorem execCellDeliver_up {a0 a1 a2} (ha2 : Up o a2) : UpR o (execCellDeliver a0 a1 a2) := by
  unfold execCellDeliver; split <;> rename_i e; exacts [(ok_up ha2), (ok_up (deliverCell_up ((takeEject_up ha2) _ _ e)))]
theorem failTurn_up {a0 a1 a2 a3} (ha0 : Up o a0) : Up o (failTurn a0 a1 a2 a3) :=
  (up_ite (logTile_up (setSlice_up (recordTurn_up ha0))) (nextMig_up (modTmc_up (logFw_up (setBit_up (recordTurn_up ha0))))))
theorem execTmemWr_up {a0 a1} (ha1 : Up o a1) : UpR o (execTmemWr a0 a1) := by
  unfold execTmemWr; split; exacts [(ok_up ha1), (when_up ha1 (serveWrite_up ha1))]
theorem fnfStatus_up {a0 a1} (ha0 : Up o a0) : Up o (fnfStatus a0 a1) := (readCmd_up (noteClamps_up ha0))
theorem mcGroupSet_up {a0 a1} (ha0 : Up o a0) : Up o (mcGroupSet a0 a1) := (ticketCmd_up (noteClamps_up ha0))
theorem execMcGroupSet_up {a0} (ha0 : Up o a0) : UpR o (execMcGroupSet a0) :=
  (fwCmd_up (fun _ _ h0 => (mcGroupSet_up h0)) ha0)
theorem fopDouble_up {s t r e} (h : Up o s) : Up o (fopDouble s t r e) := by
  unfold fopDouble; dsimp only; split <;> rename_i e1
  · exact fopStep_up (tmemStore_up (tmemStore_up (up_eq2 e1 (tmemReads_up h))))
  · exact fopFinish_up (up_eq2 e1 (tmemReads_up h))
theorem loadFirst_up {a0 a1 a2} (ha0 : Up o a0) : Up o (loadFirst a0 a1 a2) := (up_ite (failCmd_up ha0) ha0)
theorem stepEdge_up {a0 a1} (ha1 : Up o a1) : Up o (stepEdge a0 a1) := by
  unfold stepEdge; split; exacts [ha1, (modLaunch_up ha1)]
theorem stepNow_up {a0 a1 a2} (ha0 : Up o a0) : Up o (stepNow a0 a1 a2) :=
  (up_forEach (fun _ _ h0 => (stepEdge_up h0)) ha0)
theorem execTkPstep_up {a0 a1} (ha1 : Up o a1) : UpR o (execTkPstep a0 a1) := (hostWrite_up ha1)
theorem fenceTurned_up {a0 a1 a2} (ha0 : Up o a0) : Up o (fenceTurned a0 a1 a2) := by
  unfold fenceTurned; dsimp only; split; exacts [ha0, (up_ite (by split; exacts [(addJob_up (giveUpNarrow_up (recordAbandon_up ha0))), (addJob_up (recordAbandon_up ha0))]) (modTa_up (setSlice_up (recordAbandon_up ha0))))]
theorem execFenceLink_up {a0} (ha0 : Up o a0) : UpR o (execFenceLink a0) :=
  (fwCmd_up (fun _ _ h0 => (fenceLink_up h0)) ha0)
theorem execNarrowTimeout_up {a0 a1} (ha1 : Up o a1) : UpR o (execNarrowTimeout a0 a1) := (ok_up (narrowExpires_up ha1))
theorem goMap_up {a0 a1} (ha0 : Up o a0) : Up o (goMap a0 a1) := by
  unfold goMap; split; exacts [ha0, (up_ite (startEnts_up ha0) ha0)]
theorem execFnfStatus_up {a0} (ha0 : Up o a0) : UpR o (execFnfStatus a0) :=
  (fwCmd_up (fun _ _ h0 => (fnfStatus_up h0)) ha0)
theorem fabRelease_up {a0} (ha0 : Up o a0) : Up o (fabRelease a0) :=
  (up_ite (scanBegins_up (setTk_up (loadKeys_up (setBit_up (setBit_up ha0))))) (setTk_up (loadKeys_up (setBit_up (setBit_up ha0)))))
theorem scrubIdle_up {a0 a1 a2 a3 a4} (ha0 : Up o a0) : Up o (scrubIdle a0 a1 a2 a3 a4) := by
  unfold scrubIdle; split; exacts [ha0, (trackRow_up (incWrap_up ha0)), (up_pair2 (freeW_up ha0) fun _ _ h0 => (trackRow_up (logTile_up (State.setReg_up (incSat_up h0)))))]
theorem scrubOne_up {a0 a1 a2} (ha0 : Up o a0) : Up o (scrubOne a0 a1 a2) :=
  (up_ite (setFld_up (by split; exacts [ha0, (tmemRead_up ha0), (scrubIdle_up ha0)])) (State.setReg_up (incFld_up (setFld_up (by split; exacts [ha0, (tmemRead_up ha0), (scrubIdle_up ha0)])))))
theorem deliverFlit_up {a0 a1 a2 a3} (ha0 : Up o a0) : Up o (deliverFlit a0 a1 a2 a3) := by
  unfold deliverFlit; dsimp only; split; exacts [(returnPip_up (modRt_up ha0)), (modRt_up ha0)]
theorem clsTbSet_up {a0 a1} (ha0 : Up o a0) : Up o (clsTbSet a0 a1) := (askChecks_up (directCmd_up ha0))
theorem execClsTbSet_up {a0} (ha0 : Up o a0) : UpR o (execClsTbSet a0) :=
  (fwCmd_up (fun _ _ h0 => (clsTbSet_up h0)) ha0)
theorem sessionInfo_up {a0 a1} (ha0 : Up o a0) : Up o (sessionInfo a0 a1) := (readCmd_up ha0)
theorem execMbxSession_up {a0} (ha0 : Up o a0) : UpR o (execMbxSession a0) := (hostWrite_up ha0)
theorem execRd_up {a0 a1 a2} (ha2 : Up o a2) : UpR o (execRd a0 a1 a2) := (ok_up (acceptOreq_up ha2))
theorem execZeroizeDone_up {a0} (ha0 : Up o a0) : UpR o (execZeroizeDone a0) := (when_up ha0 (zeroizeEnds_up ha0))
theorem faultCarrying_up {a0 a1 a2} (ha0 : Up o a0) : Up o (faultCarrying a0 a1 a2) :=
  (up_ite (modTa_up (resyncAll_up (faultTurn_up (modTa_up (setSlice_up (dropRouter_up (killAround_up ha0))))))) (catchAround_up (fenceAround_up (faultTurn_up (modTa_up (setSlice_up (dropRouter_up (killAround_up ha0))))))))
theorem faultSlice_up {a0 a1 a2} (ha0 : Up o a0) : Up o (faultSlice a0 a1 a2) :=
  (up_ite ha0 (up_ite (faultCarrying_up (logTile_up ha0)) (logTile_up ha0)))
theorem execSliceFault_up {a0 a1 a2} (ha2 : Up o a2) : UpR o (execSliceFault a0 a1 a2) := (ok_up (faultSlice_up ha2))
theorem execAdmSet_up {a0} (ha0 : Up o a0) : UpR o (execAdmSet a0) := (fwCmd_up (fun _ _ h0 => (admSet_up h0)) ha0)
theorem execXreport_up {a0} (ha0 : Up o a0) : UpR o (execXreport a0) := (onX_up ha0 (fun _ _ h0 => (takeXreport_up h0)))
theorem fireAlarm_up {a0} (ha0 : Up o a0) : Up o (fireAlarm a0) :=
  (up_ite (setBit_up (State.setReg_up (State.setReg_up (setBit_up (setBit_up ha0))))) (up_ite (startWake_up (setBit_up (setBit_up ha0))) (setBit_up (setBit_up ha0))))
theorem execAlarm_up {a0} (ha0 : Up o a0) : UpR o (execAlarm a0) := (when_up ha0 (fireAlarm_up ha0))
theorem execTmemLdres_up {a0 a1 a2} (ha2 : Up o a2) : UpR o (execTmemLdres a0 a1 a2) := by
  unfold execTmemLdres; split; exacts [(ok_up ha2), (when_up ha2 (serveRead_up (modTmc_up ha2)))]
theorem readmitEnd_up {a0 a1 a2 a3} (ha0 : Up o a0) : Up o (readmitEnd a0 a1 a2 a3) :=
  (up_ite ha0 (up_ite (startWiden_up ha0) (logFw_up (setFld_up ha0))))
theorem execWidenRouter_up {a0 a1} (ha1 : Up o a1) : UpR o (execWidenRouter a0 a1) := (ok_up (widenRouter_up ha1))
theorem execTargetSlim_up {a0 a1 a2} (ha2 : Up o a2) : UpR o (execTargetSlim a0 a1 a2) := (hostWrite_up ha2)
theorem execLost_up {a0 a1 a2} (ha2 : Up o a2) : UpR o (execLost a0 a1 a2) := by
  unfold execLost; split; exacts [(ok_up ha2), (ok_up (takeLost_up ha2))]
theorem pwrRetain_up {a0 a1} (ha0 : Up o a0) : Up o (pwrRetain a0 a1) := by
  unfold pwrRetain; split; exacts [(refusedSet_up ha0), (okCmd_up ha0)]
theorem execPwrRetain_up {a0} (ha0 : Up o a0) : UpR o (execPwrRetain a0) :=
  (fwCmd_up (fun _ _ h0 => (pwrRetain_up h0)) ha0)
theorem standReturn_up {a0 a1 a2 a3} (ha0 : Up o a0) : Up o (standReturn a0 a1 a2 a3) :=
  (up_forEach (fun _ _ h0 => (takeBack_up h0)) (up_ite (modNi_up ha0) (raiseMcErr_up (modNi_up ha0))))
theorem execRsvrelStanding_up {a0 a1} (ha1 : Up o a1) : UpR o (execRsvrelStanding a0 a1) := by
  unfold execRsvrelStanding; split <;> rename_i e; exacts [(ok_up ha1), (ok_up (up_ite ((takeRsv_up ha1) _ _ e) (standReturn_up ((takeRsv_up ha1) _ _ e))))]
theorem cfgStatus_up {a0 a1} (ha0 : Up o a0) : Up o (cfgStatus a0 a1) := by
  unfold cfgStatus; dsimp only; split <;> rename_i e; exacts [(failCmd_up (up_eq22 e (fwReads_up ha0))), (okCmd_up (up_eq22 e (fwReads_up ha0)))]
theorem fnfStopCmd_up {a0 a1} (ha0 : Up o a0) : Up o (fnfStopCmd a0 a1) :=
  (up_ite (okCmd_up (fwPoke_up (noteClamps_up ha0))) (okCmd_up (noteClamps_up ha0)))
theorem execFnfStop_up {a0} (ha0 : Up o a0) : UpR o (execFnfStop a0) :=
  (fwCmd_up (fun _ _ h0 => (fnfStopCmd_up h0)) ha0)
theorem rewriteSc5_up {a0} (ha0 : Up o a0) : Up o (rewriteSc5 a0) := (fwPokes_up ha0)
theorem clsDestSet_up {a0 a1} (ha0 : Up o a0) : Up o (clsDestSet a0 a1) :=
  (askChecks_up (up_ite (rewriteSc5_up (directCmd_up ha0)) (directCmd_up ha0)))
theorem execClsDestSet_up {a0} (ha0 : Up o a0) : UpR o (execClsDestSet a0) :=
  (fwCmd_up (fun _ _ h0 => (clsDestSet_up h0)) ha0)
theorem logRead_up {a0 a1} (ha0 : Up o a0) : Up o (logRead a0 a1) := by
  unfold logRead; dsimp only; split <;> rename_i e; exacts [(failCmd_up (up_eq2 e (memReads_up (noteClamps_up ha0)))), (okCmd_up (up_eq2 e (memReads_up (noteClamps_up ha0))))]
theorem endVt_up {a0 a1} (ha0 : Up o a0) : Up o (endVt a0 a1) :=
  (up_ite (wantVt_up (by split; exacts [(wantVt_up (up_forEach (fun _ _ h0 => (serveWait_up h0)) (up_ite (modTa_up (setFld_up (setBit_up ha0))) (takeProfile_up (modTa_up (setFld_up (setBit_up ha0))))))), (up_forEach (fun _ _ h1 => (serveWait_up h1)) (up_ite (modTa_up (setFld_up (setBit_up ha0))) (takeProfile_up (modTa_up (setFld_up (setBit_up ha0))))))])) (by split; exacts [(wantVt_up (up_forEach (fun _ _ h2 => (serveWait_up h2)) (up_ite (modTa_up (setFld_up (setBit_up ha0))) (takeProfile_up (modTa_up (setFld_up (setBit_up ha0))))))), (up_forEach (fun _ _ h3 => (serveWait_up h3)) (up_ite (modTa_up (setFld_up (setBit_up ha0))) (takeProfile_up (modTa_up (setFld_up (setBit_up ha0))))))]))
theorem vtEnd_up {a0 a1} (ha0 : Up o a0) : Up o (vtEnd a0 a1) :=
  (up_forEach (fun _ _ h0 => (sampleLines_up h0)) (by split; exacts [(endVt_up (modTa_up ha0)), (writeRtrCtrl_up (endVt_up (modTa_up ha0)))]))
theorem countFail_up {a0 a1 a2 a3} (ha0 : Up o a0) : Up o (countFail a0 a1 a2 a3) := (incFld_up (setFld_up ha0))
theorem escalate_up {a0 a1 a2 a3} (ha0 : Up o a0) : Up o (escalate a0 a1 a2 a3) :=
  (up_ite (loseLink_up ha0) (logTile_up (setLink_up (repairAsk_up (busyAt_up (setRx_up ha0))))))
theorem rejectFlit_up {a0 a1 a2 a3 a4} (ha0 : Up o a0) : Up o (rejectFlit a0 a1 a2 a3 a4) :=
  (up_ite (up_ite (escalate_up (up_forEach (fun _ _ h0 => (countFail_up h0)) (setLink_up (setLink_up (up_forEach (fun _ _ h1 => (incWrap_up h1)) ha0))))) (up_forEach (fun _ _ h2 => (countFail_up h2)) (setLink_up (setLink_up (up_forEach (fun _ _ h3 => (incWrap_up h3)) ha0))))) (setLink_up (setLink_up (up_forEach (fun _ _ h4 => (incWrap_up h4)) ha0))))
theorem badUnread_up {a0 a1 a2 a3} (ha0 : Up o a0) : Up o (badUnread a0 a1 a2 a3) := by
  unfold badUnread; split; exacts [(badOreq_up (raiseErr_up ha0)), (badIrsp_up ha0), (badCell_up ha0), ha0]
theorem execSequenceFail_up {a0 a1 a2} (ha2 : Up o a2) : UpR o (execSequenceFail a0 a1 a2) := by
  unfold execSequenceFail; split; exacts [(up_ok (badUnread_up (modNi_up ha2))), (by split; exacts [(up_ok ha2), (up_iteR (up_ok (afterKill_up (modNi_up (raiseErr_up ha2)))) (up_ok (killOpen_up (raiseErr_up ha2))))])]
theorem releaseNow_up {a0} (ha0 : Up o a0) : Up o (releaseNow a0) :=
  (up_forEach (fun _ _ h0 => (modLaunch_up h0)) (up_forEach (fun _ _ h1 => (modLaunch_up h1)) (setTk_up ha0)))
theorem execHoldoverTick_up {a0} (ha0 : Up o a0) : UpR o (execHoldoverTick a0) := when_up ha0 (up_upd ha0 rfl)
theorem execFnfStage_up {a0} (ha0 : Up o a0) : UpR o (execFnfStage a0) :=
  (fwCmd_up (fun _ _ h0 => (fnfStage_up h0)) ha0)
theorem execNarrow_up {a0 a1 a2 a3} (ha3 : Up o a3) : UpR o (execNarrow a0 a1 a2 a3) := (ok_up (narrowArrives_up ha3))
theorem armAt_up {a0 a1 a2} (ha0 : Up o a0) : Up o (armAt a0 a1 a2) := by
  unfold armAt; split; exacts [ha0, (up_ite (wakeTile_up ha0) ha0)]
theorem execArm_up {a0 a1 a2} (ha2 : Up o a2) : UpR o (execArm a0 a1 a2) := (ok_up (armAt_up ha2))
theorem execFnfCmdGo_up {a0 a1} (ha1 : Up o a1) : UpR o (execFnfCmdGo a0 a1) := (hostWrite_up ha1)
theorem execNiRst_up {a0 a1} (ha1 : Up o a1) : UpR o (execNiRst a0 a1) := by
  unfold execNiRst; split <;> rename_i e; exacts [(ok_up ha1), (ok_up (niRstOr_up ((dropReset_up ha1) _ e)))]
theorem execLkresp_up {a0 a1 a2} (ha2 : Up o a2) : UpR o (execLkresp a0 a1 a2) := (ok_up (acceptIrsp_up ha2))
theorem strobeOut_up {a0 a1 a2} (ha0 : Up o a0) : Up o (strobeOut a0 a1 a2) := by
  unfold strobeOut; split; exacts [ha0, (up_ite ha0 (up_ite (modNi_up ha0) (up_ite (raiseErr_up (modNi_up ha0)) (logNi_up (raiseErr_up (modNi_up ha0))))))]
theorem widenArrives_up {a0 a1 a2 a3} (ha0 : Up o a0) : Up o (widenArrives a0 a1 a2 a3) :=
  (up_ite (setRx_up (setTx_up ha0)) ha0)
theorem execTurnTick_up {a0} (ha0 : Up o a0) : UpR o (execTurnTick a0) := (when_up ha0 (turnTickOp_up ha0))
theorem loadOp_up {a0 a1 a2 a3} (ha0 : Up o a0) : Up o (loadOp a0 a1 a2 a3) :=
  (up_ite (wantVt_up (modTa_up (State.setReg_up ha0))) (modTa_up (State.setReg_up ha0)))
theorem execLoadInterval_up {a0 a1 a2 a3} (ha3 : Up o a3) : UpR o (execLoadInterval a0 a1 a2 a3) :=
  (when_up ha3 (loadOp_up ha3))
theorem emptyScan_up {a0 a1} (ha0 : Up o a0) : Up o (emptyScan a0 a1) := by
  unfold emptyScan; split; exacts [(scanAgain_up ha0), (up_ite (goMap_up ha0) (scanAgain_up ha0)), ha0]
theorem execEmptyScan_up {a0} (ha0 : Up o a0) : UpR o (execEmptyScan a0) := by
  unfold execEmptyScan; split; exacts [(ok_up ha0), (when_up ha0 (emptyScan_up ha0))]
theorem execSessionReset_up {a0} (ha0 : Up o a0) : UpR o (execSessionReset a0) := by
  unfold execSessionReset; split; exacts [(ok_up ha0), (when_up ha0 (askSession_up ha0))]
theorem execMcLinger_up {a0 a1 a2} (ha2 : Up o a2) : UpR o (execMcLinger a0 a1 a2) :=
  (when_up ha2 (sendStandRel_up (modNi_up ha2)))
theorem execSaturatedWindow_up {a0 a1 a2} (ha2 : Up o a2) : UpR o (execSaturatedWindow a0 a1 a2) :=
  (when_up ha2 (saturated_up ha2))
theorem execUnitResetRelease_up {a0 a1} (ha1 : Up o a1) : UpR o (execUnitResetRelease a0 a1) :=
  (when_up ha1 (deliverHeld_up (modNi_up ha1)))
theorem execFwCommit_up {a0} (ha0 : Up o a0) : UpR o (execFwCommit a0) :=
  (fwCmd_up (fun _ _ h0 => (fwCommit_up h0)) ha0)
theorem takeRef_up {a0 a1 a2} (ha0 : Up o a0) : Up o (takeRef a0 a1 a2) := by
  unfold takeRef; split; exacts [ha0, (up_ite (advance_up (modNi_up ha0)) ha0)]
theorem backAgain_up {a0 a1} (ha0 : Up o a0) : Up o (backAgain a0 a1) :=
  (setSlice_up (setSlice_up (setPend16_up (dropJobs_up ha0))))
theorem renew_up {a0 a1 a2 a3 a4} (ha2 : Up o a2) : Up o (renew a0 a1 a2 a3 a4).2.2.2 :=
  (up_ite222 (up_mk2 ha2) (up_mk2 ha2))
theorem execPost_up {m g r a b c d s} (h : Up o s) : UpR o (execPost m g r a b c d s) :=
  when_up h (UpF.mk' h rfl rfl id (fun _ => rfl) id id id)
theorem release_up {a0 a1 a2 a3 a4} (ha2 : Up o a2) : Up o (release a0 a1 a2 a3 a4).2.2.2 :=
  (up_ite222 (up_mk2 ha2) (up_mk2 ha2))
theorem execTmemLkrel_up {a0 a1 a2} (ha2 : Up o a2) : UpR o (execTmemLkrel a0 a1 a2) := by
  unfold execTmemLkrel; split
  · exact ok_up ha2
  · exact when_up ha2 (lockStep_up ha2 fun _ _ _ h0 => release_up h0)
theorem profileSet_up {a0 a1} (ha0 : Up o a0) : Up o (profileSet a0 a1) := (ticketRegs_up ha0)
theorem execProfileSet_up {a0} (ha0 : Up o a0) : UpR o (execProfileSet a0) :=
  (fwCmd_up (fun _ _ h0 => (profileSet_up h0)) ha0)
theorem execVtransEnd_up {a0 a1} (ha1 : Up o a1) : UpR o (execVtransEnd a0 a1) := (when_up ha1 (vtEnd_up ha1))
theorem startHalf_up {a0 a1 a2} (ha0 : Up o a0) : Up o (startHalf a0 a1 a2) :=
  (up_forEach (fun _ _ h0 => (State.setReg_up h0)) (emptyPorts_up (up_forEach (fun _ _ h1 => (setRx_up (setTx_up (setRx_up (setTx_up h1))))) (setSlice_up ha0))))
theorem causeOf_up {a0 a1} (ha0 : Up o a0) : Up o (causeOf a0 a1).2 := by
  unfold causeOf; dsimp only; split; exacts [(up_mk2 ha0), (up_mk2 (freeW_up ha0))]
theorem decidePost_up {a0 a1 a2} (ha0 : Up o a0) : Up o (decidePost a0 a1 a2) :=
  (up_ite (State.setReg_up ha0) (up_ite (startHalf_up (State.setReg_up ha0)) (up_pair2 (causeOf_up ha0) fun _ _ h0 => (State.setReg_up h0))))
theorem execTargetLowGear_up {a0 a1} (ha1 : Up o a1) : UpR o (execTargetLowGear a0 a1) := (hostWrite_up ha1)
theorem execRelease_up {a0} (ha0 : Up o a0) : UpR o (execRelease a0) := by
  unfold execRelease; split; exacts [(ok_up ha0), (when_up ha0 (releaseNow_up ha0))]
theorem execNiRsvPush_up {a0 a1 a2} (ha2 : Up o a2) : UpR o (execNiRsvPush a0 a1 a2) :=
  (up_ok (reached_up ha2 (fun _ h0 => (rsvPush_up h0))))
theorem sendFstgd_up {a0 a1 a2} (ha0 : Up o a0) : Up o (sendFstgd a0 a1 a2) := by
  unfold sendFstgd; dsimp only; split; exacts [ha0, (up_ite (ownSend_up (modNi_up ha0)) ha0)]
theorem execFstgdSend_up {a0 a1 a2} (ha2 : Up o a2) : UpR o (execFstgdSend a0 a1 a2) := (ok_up (sendFstgd_up ha2))
theorem tkReady_up {a0 a1} (ha0 : Up o a0) : Up o (tkReady a0 a1) :=
  (up_ite (up_forEach (fun _ _ h0 => (modTa_up h0)) (by generalize g : setFld _ _ _ _ _ = b; exact (g ▸ (setFld_up ha0) : Up o b))) (setTk_up ha0))
theorem execTkStbyOk_up {a0 a1} (ha1 : Up o a1) : UpR o (execTkStbyOk a0 a1) := (when_up ha1 (tkReady_up ha1))
theorem loseEv_up {a0 a1} (ha0 : Up o a0) : Up o (loseEv a0 a1) := ha0
theorem startCmd_up {a0 a1} (ha0 : Up o a0) : Up o (startCmd a0 a1) :=
  (up_pair2 (copyArgs_up (up_ite ha0 (keepHeader_up ha0))) fun _ _ h0 => (setMbxState_up h0))
theorem noteWire_up {a0 a1 a2 a3 a4} (ha0 : Up o a0) : Up o (noteWire a0 a1 a2 a3 a4) :=
  (up_ite (repairAsk_up (logTile_up (State.setReg_up (incWrap_up ha0)))) (State.setReg_up (incWrap_up ha0)))
theorem quarterCe_up {a0 a1 a2 a3 a4} (ha0 : Up o a0) : Up o (quarterCe a0 a1 a2 a3 a4) := by
  unfold quarterCe; split; exacts [(noteWire_up ha0), ha0]
theorem execLkrel_up {a0 a1 a2} (ha2 : Up o a2) : UpR o (execLkrel a0 a1 a2) := (ok_up (acceptOreq_up ha2))
theorem haltPin_up {a0 a1 a2} (ha0 : Up o a0) : Up o (haltPin a0 a1 a2) := (haltSync_up (modCore_up ha0))
theorem execDebugHalt_up {a0 a1} (ha1 : Up o a1) : UpR o (execDebugHalt a0 a1) := (up_ok (haltPin_up ha1))
theorem execPuntToken_up {a0 a1} (ha1 : Up o a1) : UpR o (execPuntToken a0 a1) := (ok_up (setFld_up ha1))
theorem execAdd36_up {a0 a1 a2} (ha2 : Up o a2) : UpR o (execAdd36 a0 a1 a2) := by
  unfold execAdd36; split; exacts [(ok_up ha2), (when_up ha2 (fopWord_up ha2))]
theorem grdSet_up {a0 a1} (ha0 : Up o a0) : Up o (grdSet a0 a1) := by
  unfold grdSet; dsimp only; split; exacts [(failCmd_up ha0), (by split <;> rename_i e; exacts [(failCmd_up (up_eq2 e (fwWrites_up (noteClamps_up ha0)))), (finish_up (up_eq2 e (fwWrites_up (noteClamps_up ha0))))])]
theorem execGrdSet_up {a0} (ha0 : Up o a0) : UpR o (execGrdSet a0) := (fwCmd_up (fun _ _ h0 => (grdSet_up h0)) ha0)
theorem badop_up {a0 a1} (ha0 : Up o a0) : Up o (badop a0 a1) := (up_ite (finish_up ha0) (up_ite (finish_up ha0) ha0))
theorem absorbMsi_up {a0 a1} (ha0 : Up o a0) : Up o (absorbMsi a0 a1) := (up_ite (incFld_up ha0) ha0)
theorem takeResponse_up {a0 a1 a2} (ha0 : Up o a0) : Up o (takeResponse a0 a1 a2) := by
  unfold takeResponse; dsimp only; split; exacts [(incSat_up (raiseErr_up ha0)), (settle_up (answer_up (up_ite (loseRecord_up ha0) ha0)))]
theorem responseOp_up {a0 a1} (ha0 : Up o a0) : Up o (responseOp a0 a1) := by
  unfold responseOp; split <;> rename_i e; exacts [ha0, (up_ite (absorbMsi_up ((takeEject_up ha0) _ _ e)) (up_ite (incSat_up (modNi_up ((takeEject_up ha0) _ _ e))) (takeResponse_up ((takeEject_up ha0) _ _ e))))]
theorem execResponseReceived_up {a0 a1} (ha1 : Up o a1) : UpR o (execResponseReceived a0 a1) :=
  (up_ok (coreSettle_up (responseOp_up ha1)))
theorem execDrain_up {a0 a1} (ha1 : Up o a1) : UpR o (execDrain a0 a1) :=
  (up_ok (reached_up ha1 (fun _ h0 => (up_ite (writeNiCtrl_up h0) h0))))
theorem execWakeFlag_up {a0 a1 a2} (ha2 : Up o a2) : UpR o (execWakeFlag a0 a1 a2) :=
  (when_up (up_ite (stirTile_up ha2) ha2) (wakeTile_up (setPic_up (up_ite (stirTile_up ha2) ha2))))
theorem execPhold_up {a0 a1} (ha1 : Up o a1) : UpR o (execPhold a0 a1) := by
  unfold execPhold; split <;> rename_i e; exacts [(ok_up ha1), (ok_up (handleReq_up ((takeEject_up ha1) _ _ e)))]
theorem execScrub_up {a0 a1 a2} (ha2 : Up o a2) : UpR o (execScrub a0 a1 a2) := (when_up ha2 (scrubOne_up ha2))
theorem endHandover_up {a0} (ha0 : Up o a0) : Up o (endHandover a0) := (readHeaders_up (setBit_up ha0))
theorem handOver_up {a0 a1} (ha0 : Up o a0) : Up o (handOver a0 a1) :=
  (logFw_up (modCore_up (endHandover_up (by generalize g : setFld _ _ _ _ _ = b; exact (g ▸ (setFld_up (setActive_up (State.setReg_up (writeVector_up (setPort_up ha0))))) : Up o b)))))
theorem execHandover_up {a0} (ha0 : Up o a0) : UpR o (execHandover a0) := by
  unfold execHandover; split; exacts [(ok_up ha0), (when_up ha0 (handOver_up ha0))]
theorem killArrives_up {a0 a1 a2} (ha0 : Up o a0) : Up o (killArrives a0 a1 a2) := by
  unfold killArrives; dsimp only; split; exacts [(by split; exacts [(returnPips_up (modRt_up ha0)), (killDown_up (returnPips_up (modRt_up ha0)))]), (by split; exacts [ha0, (up_ite (returnPips_up (modRt_up ha0)) (returnPips_up (modRt_up ha0)))])]
theorem execRouterKill_up {a0 a1 a2} (ha2 : Up o a2) : UpR o (execRouterKill a0 a1 a2) := (ok_up (killArrives_up ha2))
theorem freeSlotEnts_up {a0 a1} (ha0 : Up o a0) : Up o (freeSlotEnts a0 a1) :=
  (modSlot_up (up_forEach (fun _ _ h0 => (modNi_up h0)) ha0))
theorem execAbortedEnd_up {a0 a1} (ha1 : Up o a1) : UpR o (execAbortedEnd a0 a1) :=
  (when_up ha1 (pump_up (setSlotState_up (freeSlotEnts_up ha1))))
theorem clsRead_up {a0 a1} (ha0 : Up o a0) : Up o (clsRead a0 a1) := (niRead_up ha0)
theorem profileArrives_up {a0 a1} (ha0 : Up o a0) : Up o (profileArrives a0 a1) :=
  (takeProfile_up (writeRtrCtrl_up ha0))
theorem profileStep_up {a0} (ha0 : Up o a0) : Up o (profileStep a0) := by
  unfold profileStep; split
  · exact ha0
  · exact up_forEach (fun _ _ h => up_ite (profileArrives_up h) h) (freeW_up (freeW_up ha0))
theorem tcStep_up {a0} (ha0 : Up o a0) : Up o (tcStep a0) := ha0
theorem execTcEdge_up {a0} (ha0 : Up o a0) : UpR o (execTcEdge a0) := (when_up ha0 (profileStep_up (tcStep_up ha0)))
theorem execAnd36_up {a0 a1 a2} (ha2 : Up o a2) : UpR o (execAnd36 a0 a1 a2) := by
  unfold execAnd36; split; exacts [(ok_up ha2), (when_up ha2 (fopWord_up ha2))]
theorem clsWrrSet_up {a0 a1} (ha0 : Up o a0) : Up o (clsWrrSet a0 a1) := (ticketRegs_up ha0)
theorem execBarSys_up {a0 a1 a2} (ha2 : Up o a2) : UpR o (execBarSys a0 a1 a2) := (ok_up (acceptOreq_up ha2))
theorem execTkFadj_up {a0 a1} (ha1 : Up o a1) : UpR o (execTkFadj a0 a1) := (hostWrite_up ha1)
theorem execOpcRstPulse_up {a0 a1} (ha1 : Up o a1) : UpR o (execOpcRstPulse a0 a1) := (hostWrite_up ha1)
theorem execTmemLkrnw_up {a0 a1 a2} (ha2 : Up o a2) : UpR o (execTmemLkrnw a0 a1 a2) := by
  unfold execTmemLkrnw; split
  · exact ok_up ha2
  · exact when_up ha2 (lockStep_up ha2 fun _ _ _ h0 => renew_up h0)
theorem execMin36_up {a0 a1 a2} (ha2 : Up o a2) : UpR o (execMin36 a0 a1 a2) := by
  unfold execMin36; split; exacts [(ok_up ha2), (when_up ha2 (fopWord_up ha2))]
theorem execGrdRead_up {a0} (ha0 : Up o a0) : UpR o (execGrdRead a0) := (fwCmd_up (fun _ _ h0 => (grdRead_up h0)) ha0)
theorem withdrawOp_up {a0 a1 a2} (ha0 : Up o a0) : Up o (withdrawOp a0 a1 a2) := by
  unfold withdrawOp; dsimp only; split; exacts [ha0, (sendRef_up (State.setNi_up ha0))]
theorem execTrain_up {a0 a1 a2 a3} (ha3 : Up o a3) : UpR o (execTrain a0 a1 a2 a3) := (hostWrite_up ha3)
theorem fenceSliceOut_up {a0 a1 a2 a3 a4} (ha0 : Up o a0) : Up o (fenceSliceOut a0 a1 a2 a3 a4) :=
  (up_ite (refuseCmd_up ha0) (up_ite (fenceTicketOk_up (fenceTurned_up ha0)) (up_ite (fenceTicketOk_up ha0) (up_ite (fenceTicketOk_up (fenceOutSlice_up ha0)) (up_ite (up_ite (fenceTicketOk_up (logIsolated_up (fenceBoth_up (dropJobs_up ha0)))) (failCmd_up ha0)) (fenceOr_up ha0 (addJob_up (up_ite (fenceUnslim_up (dropJobs_up ha0)) (dropJobs_up ha0))) (addJob_up (up_ite (fenceUnslim_up (dropJobs_up ha0)) (dropJobs_up ha0)))))))))
theorem execTopoRead_up {a0} (ha0 : Up o a0) : UpR o (execTopoRead a0) :=
  (fwCmd_up (fun _ _ h0 => (topoRead_up h0)) ha0)
theorem execUnitInterrupt_up {a0 a1 a2} (ha2 : Up o a2) : UpR o (execUnitInterrupt a0 a1 a2) :=
  (up_iteR (ok_up (modTa_up ha2)) (ok_up (sampleLines_up ha2)))
theorem execSpraySeedWrite_up {a0 a1 a2} (ha2 : Up o a2) : UpR o (execSpraySeedWrite a0 a1 a2) :=
  up_ok (reached_up ha2 fun _ k => seedOp_up k)
theorem execProfileWrite_up {a0 a1} (ha1 : Up o a1) : UpR o (execProfileWrite a0 a1) := (hostWrite_up ha1)
theorem bridgeRead_up {a0 a1 a2} (ha0 : Up o a0) : Up o (bridgeRead a0 a1 a2) :=
  (up_pair2 (readBurst_up ha0) fun _ _ h0 => (stageOwn_up h0))
theorem takeEject_posted {s n k p s1} (e : takeEject s n k = some (p, s1)) : s1.posted = s.posted := by
  unfold takeEject at e; split at e
  · exact absurd e.symm (Option.some_ne_none _)
  · rw [← (Prod.mk.inj (Option.some.inj e)).2]; unfold rxCount addWrap modNi; split <;> simp only [State.setReg_posted, State.setNi_posted]
theorem bridgeTake_up {s n} (h : Up o s) : Up o (bridgeTake s n) := by
  unfold bridgeTake; split
  · exact h
  · rename_i c
    have c' : s.posted.length < 16 := by
      simp only [bridgeMayTake, Bool.not_eq_true', Bool.not_eq_false, Bool.and_eq_true, decide_eq_true_eq] at c
      exact c.1
    split
    · exact h
    · rename_i e
      have k := takeEject_up h _ _ e
      have kp := takeEject_posted e
      refine up_ite (bridgeRead_up k) (up_ite (stageOwn_up k) (up_ite (stageOwn_up ?_) (stageOwn_up (decodeMiss_up k))))
      refine UpF.mk' k rfl rfl id id id id fun _ => ?_
      rw [List.length_append, kp]; exact c'
theorem execTileRst_up {a0 a1} (ha1 : Up o a1) : UpR o (execTileRst a0 a1) := by
  unfold execTileRst; split <;> rename_i e; exacts [(ok_up ha1), (when_up ha1 (tileRstOr_up ((dropReset_up ha1) _ e)))]
theorem pokes_up {a0 a1 a2} (ha0 : Up o a0) : Up o (pokes a0 a1 a2) := (up_forEach (fun _ _ h0 => (poke_up h0)) ha0)
theorem execRsvrelWithdraw_up {a0 a1} (ha1 : Up o a1) : UpR o (execRsvrelWithdraw a0 a1) := by
  unfold execRsvrelWithdraw; split <;> rename_i e; exacts [(ok_up ha1), (ok_up (up_ite ((takeRsv_up ha1) _ _ e) (withdrawOp_up ((takeRsv_up ha1) _ _ e))))]
theorem execLogRead_up {a0} (ha0 : Up o a0) : UpR o (execLogRead a0) := (fwCmd_up (fun _ _ h0 => (logRead_up h0)) ha0)
theorem cutBursts_up {a0 a1} (ha0 : Up o a0) : Up o (cutBursts a0 a1) := (up_ite (incSat_up ha0) ha0)
theorem execDbgRst_up {a0} (ha0 : Up o a0) : UpR o (execDbgRst a0) :=
  (ok_up (by generalize g : cutBursts _ _ = b; exact (g ▸ (cutBursts_up ha0) : Up o b)))
theorem execFreeingEnd_up {a0 a1} (ha1 : Up o a1) : UpR o (execFreeingEnd a0 a1) :=
  (when_up ha1 (pump_up (logGlobal_up (incWrap_up (setSlotState_up (freeSlotEnts_up ha1))))))
theorem execTkSwitchWrite_up {a0} (ha0 : Up o a0) : UpR o (execTkSwitchWrite a0) := (hostWrite_up ha0)
theorem updTimeout_up {a0 a1} (ha0 : Up o a0) : Up o (updTimeout a0 a1) :=
  (writeGrdCtrl_up (up_ite (raiseGrd_up ha0) (logNi_up (raiseGrd_up ha0))))
theorem execGrdUpdTo_up {a0 a1} (ha1 : Up o a1) : UpR o (execGrdUpdTo a0 a1) := (when_up ha1 (updTimeout_up ha1))
theorem tileService_up {a0 a1} (ha0 : Up o a0) : Up o (tileService a0 a1) :=
  (up_ite (failCmd_up (noteClamps_up ha0)) (up_ite (up_ite (fenceTicketOk_up (noteClamps_up ha0)) (up_ite (failCmd_up (noteClamps_up ha0)) (fenceOr_up (noteClamps_up ha0) (takeOut_up (noteClamps_up ha0)) (takeOut_up (noteClamps_up ha0))))) (up_ite (fenceOr_up (noteClamps_up ha0) (bringBack_up (noteClamps_up ha0)) (backAgain_up (noteClamps_up ha0))) (fenceTicketOk_up (noteClamps_up ha0)))))
theorem execTileService_up {a0} (ha0 : Up o a0) : UpR o (execTileService a0) :=
  (fwCmd_up (fun _ _ h0 => (tileService_up h0)) ha0)
theorem fenceSlice_up {a0 a1} (ha0 : Up o a0) : Up o (fenceSlice a0 a1) :=
  (up_ite (failCmd_up (noteClamps_up ha0)) (up_ite (fenceSliceOut_up (noteClamps_up ha0)) (fenceSliceIn_up (noteClamps_up ha0))))
theorem repairBegin_up {a0 a1} (ha0 : Up o a0) : Up o (repairBegin a0 a1) := (up_ite ha0 ha0)
theorem execLaneRepair_up {a0 a1 a2 a3 a4} (ha4 : Up o a4) : UpR o (execLaneRepair a0 a1 a2 a3 a4) :=
  (when_up ha4 (repairHalf_up (repairBegin_up ha4)))
theorem postSigShown_up {s r b} (h : Up o s) : Up o (postSigShown s r b).2 :=
  up_ite2 (up_mk2 h) (up_ite2 (up_mk2 h) (freeW_up h))
theorem postEnds_up {s r} (h : Up o s) : Up o (postEnds s r) := by
  unfold postEnds
  split; rename_i e
  have k : Up o (forEach spareRow r.rows (s, 0, false)).1 := up_forEach1 (fun _ _ => spareRow_up) (up_mk1 h)
  rw [e] at k
  extract_lets tm
  split; rename_i e'
  have k' := up_eq2 e' (postSigShown_up k)
  extract_lets s2 s3 s4 s5 s6
  have k6 : Up o s6 := setBit_up (State.setReg_up (State.setReg_up (State.setReg_up (State.setReg_up (State.setReg_up (decidePost_up k'))))))
  clear_value s6
  exact logGlobal_up (up_upd k6 rfl)
theorem execPuntSet_up {a0} (ha0 : Up o a0) : UpR o (execPuntSet a0) := (fwCmd_up (fun _ _ h0 => (puntSet_up h0)) ha0)
theorem execNakRetry_up {a0 a1 a2} (ha2 : Up o a2) : UpR o (execNakRetry a0 a1 a2) :=
  (up_iteR (ok_up ha2) (ok_up (setLink_up (up_forEach (fun _ _ h0 => (incWrap_up h0)) ha2))))
theorem execRegisterWrite_up {a0 a1 a2} (ha2 : Up o a2) : UpR o (execRegisterWrite a0 a1 a2) :=
  (up_ok (coreSettle_up (writeRound_up ha2)))
theorem takeXabort_up {a0 a1} (ha0 : Up o a0) : Up o (takeXabort a0 a1) := by
  unfold takeXabort; split; exacts [ha0, (up_ite (abortLaunch_up ha0) ha0)]
theorem execXabort_up {a0} (ha0 : Up o a0) : UpR o (execXabort a0) := (onX_up ha0 (fun _ _ h0 => (takeXabort_up h0)))
theorem execMtxRstTile_up {a0 a1} (ha1 : Up o a1) : UpR o (execMtxRstTile a0 a1) := (hostWrite_up ha1)
theorem partEnd_up {a0 a1 a2} (ha0 : Up o a0) : Up o (partEnd a0 a1 a2) := by
  unfold partEnd; split; exacts [ha0, (up_ite ha0 (up_ite (failTurn_up ha0) (up_ite (closeTurn_up ha0) (recordTurn_up ha0))))]
theorem execPartDone_up {a0 a1 a2} (ha2 : Up o a2) : UpR o (execPartDone a0 a1 a2) := (ok_up (partEnd_up ha2))
theorem execDebugResume_up {a0 a1} (ha1 : Up o a1) : UpR o (execDebugResume a0 a1) := (up_ok (haltPin_up ha1))
theorem execTargetRun_up {a0 a1} (ha1 : Up o a1) : UpR o (execTargetRun a0 a1) := (hostWrite_up ha1)
theorem budgetCheck_up {s} (h : Up o s) : Up o (budgetCheck s) := by
  unfold budgetCheck; dsimp only
  exact logFw_up (fwPokes_up (freeW_up (a0 := { s with checkDue := false }) h))
theorem execSwitchoverDone_up {a0} (ha0 : Up o a0) : UpR o (execSwitchoverDone a0) := (when_up ha0 (switchDone_up ha0))
theorem execBeatMissing_up {a0} (ha0 : Up o a0) : UpR o (execBeatMissing a0) := (when_up ha0 (startSwitch_up ha0))
theorem readUnread_up {a0 a1 a2 a3 a4} (ha0 : Up o a0) : Up o (readUnread a0 a1 a2 a3 a4) := by
  unfold readUnread; split; exacts [(up_ite (readOreq_up (modNi_up ha0)) ha0), (up_ite ha0 (readIrsp_up (modNi_up ha0))), (up_ite (readCell_up (modNi_up ha0)) ha0), ha0]
theorem execNiInject_up {a0 a1 a2} (ha2 : Up o a2) : UpR o (execNiInject a0 a1 a2) := by
  unfold execNiInject; split; exacts [(up_ok (readUnread_up ha2)), (up_ok (injectOne_up ha2))]
theorem takeXarm_up {a0 a1} (ha0 : Up o a0) : Up o (takeXarm a0 a1) :=
  (up_ite (replyStaged_up ha0) (by split; exacts [(replyStaged_up ha0), (up_ite (replyStaged_up ha0) (up_ite (replyStaged_up ha0) (replyStaged_up (armSlot_up (modSlot_up ha0)))))]))
theorem execXarm_up {a0} (ha0 : Up o a0) : UpR o (execXarm a0) := (onX_up ha0 (fun _ _ h0 => (takeXarm_up h0)))
theorem execRsvref_up {a0 a1} (ha1 : Up o a1) : UpR o (execRsvref a0 a1) := by
  unfold execRsvref; split <;> rename_i e; exacts [(ok_up ha1), (ok_up (up_ite ((takeRsv_up ha1) _ _ e) (takeRef_up ((takeRsv_up ha1) _ _ e))))]
theorem execBadop_up {a0} (ha0 : Up o a0) : UpR o (execBadop a0) := by
  unfold execBadop; split; exacts [(ok_up ha0), (when_up ha0 (badop_up ha0))]
theorem execBusy_up {a0 a1 a2} (ha2 : Up o a2) : UpR o (execBusy a0 a1 a2) := (when_up ha2 (takeBusy_up ha2))
theorem execNoconfirm_up {a0 a1} (ha1 : Up o a1) : UpR o (execNoconfirm a0 a1) := (when_up ha1 (abortLaunch_up ha1))
theorem execTurnGo_up {a0 a1 a2} (ha2 : Up o a2) : UpR o (execTurnGo a0 a1 a2) := (hostWrite_up ha2)
theorem execPwrClaim_up {a0 a1 a2} (ha2 : Up o a2) : UpR o (execPwrClaim a0 a1 a2) := (hostWrite_up ha2)
theorem execRdresp_up {a0 a1 a2} (ha2 : Up o a2) : UpR o (execRdresp a0 a1 a2) := (ok_up (acceptIrsp_up ha2))
theorem commit_up {a0 a1} (ha0 : Up o a0) : Up o (commit a0 a1) := (logGlobal_up (memPuts_up ha0))
theorem execBudgetCheck_up {a0} (ha0 : Up o a0) : UpR o (execBudgetCheck a0) := (when_up ha0 (budgetCheck_up ha0))
theorem execTkSnap_up {a0} (ha0 : Up o a0) : UpR o (execTkSnap a0) := (hostWrite_up ha0)
theorem heartbeat_up {a0 a1} (ha0 : Up o a0) : Up o (heartbeat a0 a1) := by
  unfold heartbeat; dsimp only; split; exacts [(recordNotice_up ha0), (modCore_up (incWrap_up ha0))]
theorem execHeartbeat_up {a0 a1} (ha1 : Up o a1) : UpR o (execHeartbeat a0 a1) := (when_up ha1 (heartbeat_up ha1))
theorem execStepEdge_up {a0} (ha0 : Up o a0) : UpR o (execStepEdge a0) := by
  unfold execStepEdge; split; exacts [(up_ok ha0), (up_ok (stepNow_up ha0))]
theorem shadowScan_up {a0} (ha0 : Up o a0) : Up o (shadowScan a0) :=
  (up_pair2 (freeW_up (up_forEach (fun _ _ h0 => (adopt_up h0)) ha0)) fun _ _ h1 => (coreKeeps_up h1))
theorem grdOff_up {a0 a1} (ha0 : Up o a0) : Up o (grdOff a0 a1) := by
  unfold grdOff; split; exacts [(failCmd_up ha0), (writeCmd_up ha0)]
theorem execGrdOff_up {a0} (ha0 : Up o a0) : UpR o (execGrdOff a0) := (fwCmd_up (fun _ _ h0 => (grdOff_up h0)) ha0)
theorem execRsvreq_up {a0 a1} (ha1 : Up o a1) : UpR o (execRsvreq a0 a1) := by
  unfold execRsvreq; split <;> rename_i e; exacts [(ok_up ha1), (ok_up (up_ite ((takeRsv_up ha1) _ _ e) (reqArrives_up ((takeRsv_up ha1) _ _ e))))]
theorem execDbgRequest_up {a0 a1 a2 a3 a4} (ha4 : Up o a4) : UpR o (execDbgRequest a0 a1 a2 a3 a4) :=
  (up_ok (coreSettle_up (portRequest_up ha4)))
theorem queueRoute_up {a0} (ha0 : Up o a0) : Up o (queueRoute a0) := ha0
theorem execRouteChange_up {a0} (ha0 : Up o a0) : UpR o (execRouteChange a0) :=
  (up_iteR (up_ok (up_ite (queueRoute_up (runJobs_up (catchUp_up ha0))) (runJobs_up (catchUp_up ha0)))) (up_ok ha0))
theorem execStgTo_up {a0 a1} (ha1 : Up o a1) : UpR o (execStgTo a0 a1) := (when_up ha1 (abortStaged_up ha1))
theorem execStcond_up {a0 a1 a2} (ha2 : Up o a2) : UpR o (execStcond a0 a1 a2) := (ok_up (acceptOreq_up ha2))
theorem execWiden_up {a0 a1 a2 a3} (ha3 : Up o a3) : UpR o (execWiden a0 a1 a2 a3) := (ok_up (widenArrives_up ha3))
theorem execEpochUpdate_up {a0 a1 a2} (ha2 : Up o a2) : UpR o (execEpochUpdate a0 a1 a2) := (ok_up (takeEpoch_up ha2))
theorem execLaunchEdge_up {a0 a1} (ha1 : Up o a1) : UpR o (execLaunchEdge a0 a1) := by
  unfold execLaunchEdge; split; exacts [(ok_up ha1), (by split; exacts [(ok_up ha1), (when_up ha1 (coreSettle_up (up_forEach (fun _ _ h0 => (performLaunch_up h0)) ha1)))])]
theorem clearFail_up {a0 a1 a2 a3} (ha0 : Up o a0) : Up o (clearFail a0 a1 a2 a3) := (up_ite ha0 (setFld_up ha0))
theorem execAdd72_up {a0 a1 a2} (ha2 : Up o a2) : UpR o (execAdd72 a0 a1 a2) := by
  unfold execAdd72; split; exacts [(ok_up ha2), (when_up ha2 (fopDouble_up ha2))]
theorem refillNext_up {a0 a1} (ha0 : Up o a0) : Up o (refillNext a0 a1) := by
  unfold refillNext; dsimp only; split; exacts [(sendReq_up (State.setNi_up ha0)), ha0]
theorem execMcRefill_up {a0 a1} (ha1 : Up o a1) : UpR o (execMcRefill a0 a1) := (ok_up (refillNext_up ha1))
theorem execMbxDb_up {a0 a1} (ha1 : Up o a1) : UpR o (execMbxDb a0 a1) :=
  (up_ok (up_forEach (fun _ _ h0 => (poke_up h0)) ha1))
theorem execCas36_up {a0 a1 a2} (ha2 : Up o a2) : UpR o (execCas36 a0 a1 a2) := by
  unfold execCas36; split; exacts [(ok_up ha2), (when_up ha2 (fopWord_up ha2))]
theorem execMcCfgSet_up {a0} (ha0 : Up o a0) : UpR o (execMcCfgSet a0) :=
  (fwCmd_up (fun _ _ h0 => (mcCfgSet_up h0)) ha0)
theorem execTmemLkacq_up {a0 a1 a2} (ha2 : Up o a2) : UpR o (execTmemLkacq a0 a1 a2) := by
  unfold execTmemLkacq; split
  · exact ok_up ha2
  · exact when_up ha2 (lockStep_up ha2 fun _ _ _ h0 => acquire_up h0)
theorem fwLoad_up {a0 a1} (ha0 : Up o a0) : Up o (fwLoad a0 a1) :=
  (up_ite (up_ite ha0 (loadFirst_up ha0)) (loadNext_up ha0))
theorem execFwLoad_up {a0} (ha0 : Up o a0) : UpR o (execFwLoad a0) := (fwCmd_up (fun _ _ h0 => (fwLoad_up h0)) ha0)
theorem nextRecord_up {s} (h : Up o s) : Up o (nextRecord s) := by
  have k : ∀ {e q}, s.evq = e :: q → Up o { s with evq := q } := fun c =>
    UpF.mk' h rfl rfl id id (fun x => by rw [c] at x; exact Nat.le_of_succ_le x) id id
  unfold nextRecord; split
  · split
    · exact h
    · rename_i c; exact loseEv_up (k c)
  · split
    · exact writeFlood_up h
    · split
      · exact h
      · rename_i c; exact writeEv_up (k c)
theorem execPktTo_up {a0 a1 a2} (ha2 : Up o a2) : UpR o (execPktTo a0 a1 a2) := by
  unfold execPktTo; split; exacts [(ok_up ha2), (when_up ha2 (killOpen_up (raiseErr_up ha2)))]
theorem execOpcRst_up {a0 a1} (ha1 : Up o a1) : UpR o (execOpcRst a0 a1) := (when_up ha1 (coreReset_up ha1))
theorem loadGrant_up {a0 a1 a2 a3} (ha0 : Up o a0) : Up o (loadGrant a0 a1 a2 a3) := by
  unfold loadGrant; split; exacts [(narrowDone_up (noteSc5_up (markReady_up (modTa_up (up_ite (reroute_up (setBit_up (incWrap_up (setCnt_up (endResync_up (intactWord_up ha0)))))) (incWrap_up (setCnt_up (endResync_up (intactWord_up ha0)))))))))]
theorem takeOver_up {a0} (ha0 : Up o a0) : Up o (takeOver a0) :=
  (endHandover_up (up_ite (revert_up (up_ite (holdDead_up (modCore_up (logFw_up (State.setReg_up (rerun_up (setPort_up (modCore_up (setBit_up (setActive_up ha0))))))))) (up_ite (modCore_up (logFw_up (State.setReg_up (rerun_up (setPort_up (modCore_up (setBit_up (setActive_up ha0)))))))) (modCore_up (modCore_up (logFw_up (State.setReg_up (rerun_up (setPort_up (modCore_up (setBit_up (setActive_up ha0)))))))))))) (up_ite (holdDead_up (modCore_up (logFw_up (State.setReg_up (rerun_up (setPort_up (modCore_up (setBit_up (setActive_up ha0))))))))) (up_ite (modCore_up (logFw_up (State.setReg_up (rerun_up (setPort_up (modCore_up (setBit_up (setActive_up ha0)))))))) (modCore_up (modCore_up (logFw_up (State.setReg_up (rerun_up (setPort_up (modCore_up (setBit_up (setActive_up ha0)))))))))))))
theorem execBrace_up {a0} (ha0 : Up o a0) : UpR o (execBrace a0) := by
  unfold execBrace; split; exacts [(ok_up ha0), (when_up ha0 (setTk_up ha0))]
theorem execUnitReset_up {a0 a1} (ha1 : Up o a1) : UpR o (execUnitReset a0 a1) := (ok_up (unitResetOp_up ha1))
theorem execSessionInfo_up {a0} (ha0 : Up o a0) : UpR o (execSessionInfo a0) :=
  (fwCmd_up (fun _ _ h0 => (sessionInfo_up h0)) ha0)
theorem execFenceSlice_up {a0} (ha0 : Up o a0) : UpR o (execFenceSlice a0) :=
  (fwCmd_up (fun _ _ h0 => (fenceSlice_up h0)) ha0)
theorem execSwap36_up {a0 a1 a2} (ha2 : Up o a2) : UpR o (execSwap36 a0 a1 a2) := by
  unfold execSwap36; split; exacts [(ok_up ha2), (when_up ha2 (fopWord_up ha2))]
theorem execOrphanFlit_up {a0 a1 a2} (ha2 : Up o a2) : UpR o (execOrphanFlit a0 a1 a2) :=
  (ok_up (modNi_up (raiseErr_up ha2)))
theorem execCell_up {a0 a1 a2} (ha2 : Up o a2) : UpR o (execCell a0 a1 a2) := (ok_up (acceptCell_up ha2))
theorem tailFc_up {a0} (ha0 : Up o a0) : Up o (tailFc a0).2 := (up_mk2 (freeW_up ha0))
theorem execCellmcCopy_up {a0 a1} (ha1 : Up o a1) : UpR o (execCellmcCopy a0 a1) := by
  unfold execCellmcCopy; split <;> rename_i e; exacts [(up_ok ha1), (up_ok (deliverCopy_up (tailFc_up ((takeEject_up ha1) _ _ e))))]
theorem execLinkLost_up {a0 a1 a2} (ha2 : Up o a2) : UpR o (execLinkLost a0 a1 a2) := (ok_up (loseLink_up ha2))
theorem bridgeOp_up {a0 a1} (ha0 : Up o a0) : Up o (bridgeOp a0 a1) :=
  (up_ite (bridgeTake_up ha0) (bridgeTake_up (coreSettle_up (applyPosted_up ha0))))
theorem execBridgeWrite_up {a0 a1} (ha1 : Up o a1) : UpR o (execBridgeWrite a0 a1) := (up_ok (bridgeOp_up ha1))
theorem execResyncGrant_up {a0 a1 a2} (ha2 : Up o a2) : UpR o (execResyncGrant a0 a1 a2) := by
  unfold execResyncGrant; split; exacts [(ok_up ha2), (when_up ha2 (loadGrant_up ha2))]
theorem lateSet_up {a0 a1} (ha0 : Up o a0) : Up o (lateSet a0 a1) := (directCmd_up ha0)
theorem refillOne_up {a0 a1 a2} (ha0 : Up o a0) : Up o (refillOne a0 a1 a2) := (setFld_up ha0)
theorem bistTurn_up {a0 a1} (ha0 : Up o a0) : Up o (bistTurn a0 a1) :=
  (up_ite (refuseCmd_up (noteClamps_up ha0)) (okCmd_up (by generalize g : noteClamps _ _ = b; exact (g ▸ (noteClamps_up ha0) : Up o b))))
theorem execBistTurn_up {a0} (ha0 : Up o a0) : UpR o (execBistTurn a0) :=
  (fwCmd_up (fun _ _ h0 => (bistTurn_up h0)) ha0)
theorem execHrpRequest_up {a0 a1 a2 a3 a4} (ha4 : Up o a4) : UpR o (execHrpRequest a0 a1 a2 a3 a4) :=
  (up_ok (coreSettle_up (portRequest_up ha4)))
theorem execDeferredReset_up {a0} (ha0 : Up o a0) : UpR o (execDeferredReset a0) := by
  unfold execDeferredReset; split; exacts [(ok_up ha0), (ok_up (performHeld_up (incWrap_up ha0)))]
theorem execLaunch_up {a0 a1} (ha1 : Up o a1) : UpR o (execLaunch a0 a1) := by
  unfold execLaunch; split; exacts [(ok_up ha1), (when_up ha1 (issueLaunch_up ha1))]
theorem execCellmc_up {a0 a1 a2} (ha2 : Up o a2) : UpR o (execCellmc a0 a1 a2) := (ok_up (acceptCell_up ha2))
theorem execGearDown_up {a0 a1} (ha1 : Up o a1) : UpR o (execGearDown a0 a1) := (when_up ha1 (gearOp_up ha1))
theorem execTmemRd_up {a0 a1 a2} (ha2 : Up o a2) : UpR o (execTmemRd a0 a1 a2) := by
  unfold execTmemRd; split; exacts [(ok_up ha2), (when_up ha2 (serveRead_up ha2))]
theorem execBistResult_up {a0} (ha0 : Up o a0) : UpR o (execBistResult a0) :=
  (fwCmd_up (fun _ _ h0 => (bistResult_up h0)) ha0)
theorem execLateSet_up {a0} (ha0 : Up o a0) : UpR o (execLateSet a0) := (fwCmd_up (fun _ _ h0 => (lateSet_up h0)) ha0)
theorem dozeOp_up {a0 a1} (ha0 : Up o a0) : Up o (dozeOp a0 a1) := by
  unfold dozeOp; dsimp only; split; exacts [(recordRefusal_up (modTa_up ha0)), (modTa_up (modTa_up ha0))]
theorem execDozeEntry_up {a0 a1} (ha1 : Up o a1) : UpR o (execDozeEntry a0 a1) := by
  unfold execDozeEntry; split; exacts [(when_up ha1 (enterDoze_up ha1)), (when_up ha1 (dozeOp_up ha1))]
theorem execEventRecord_up {a0} (ha0 : Up o a0) : UpR o (execEventRecord a0) := (when_up ha0 (nextRecord_up ha0))
theorem execXconfirm_up {a0} (ha0 : Up o a0) : UpR o (execXconfirm a0) :=
  (onX_up ha0 (fun _ _ h0 => (takeXconfirm_up h0)))
theorem alarmRead_up {a0 a1} (ha0 : Up o a0) : Up o (alarmRead a0 a1) := (readCmd_up ha0)
theorem execTimStrobe_up {a0 a1 a2} (ha2 : Up o a2) : UpR o (execTimStrobe a0 a1 a2) := (ok_up (strobeOut_up ha2))
theorem execCommandStart_up {a0} (ha0 : Up o a0) : UpR o (execCommandStart a0) := by
  unfold execCommandStart; split; exacts [(ok_up ha0), (when_up ha0 (startCmd_up ha0))]
theorem execTrainDone_up {a0 a1 a2 a3 a4} (ha4 : Up o a4) : UpR o (execTrainDone a0 a1 a2 a3 a4) :=
  (when_up ha4 (noteTraining_up ha4))
theorem execInboundRequest_up {a0 a1} (ha1 : Up o a1) : UpR o (execInboundRequest a0 a1) := by
  unfold execInboundRequest; split <;> rename_i e; exacts [(ok_up ha1), (ok_up (handleReq_up ((takeEject_up ha1) _ _ e)))]
theorem execHrpRst_up {s} (h : Up o s) : UpR o (execHrpRst s) :=
  ok_up (UpF.mk' (cutBursts_up h) rfl rfl id id id (fun _ => Nat.zero_le _) id)
theorem execCommitReport_up {a0 a1} (ha1 : Up o a1) : UpR o (execCommitReport a0 a1) := by
  unfold execCommitReport; dsimp only; split; exacts [(ok_up ha1), (ok_up (commit_up ha1))]
theorem execTokenRefill_up {a0 a1} (ha1 : Up o a1) : UpR o (execTokenRefill a0 a1) :=
  (ok_up (refillOne_up (refillOne_up (refillOne_up ha1))))
theorem execNak_up {a0 a1 a2} (ha2 : Up o a2) : UpR o (execNak a0 a1 a2) :=
  (up_iteR (by split; exacts [(up_ok (setLink_up (intactWord_up ha2))), (up_ok (setTx_up (setLink_up (intactWord_up ha2))))]) (up_ok (intactWord_up ha2)))
theorem execReorderPresent_up {a0 a1} (ha1 : Up o a1) : UpR o (execReorderPresent a0 a1) := by
  unfold execReorderPresent; dsimp only; split; exacts [(up_ok ha1), (by split; exacts [(up_ok ha1), (up_iteR (up_ok (incSat_up (takeBack_up (State.setNi_up ha1)))) (up_ok (presentCell_up (tailFc_up ha1))))])]
theorem execTargetOff_up {a0 a1} (ha1 : Up o a1) : UpR o (execTargetOff a0 a1) := (hostWrite_up ha1)
theorem execBarAgent_up {a0 a1 a2} (ha2 : Up o a2) : UpR o (execBarAgent a0 a1 a2) := (ok_up (acceptOreq_up ha2))
theorem execRsvIdle_up {a0 a1 a2 a3} (ha3 : Up o a3) : UpR o (execRsvIdle a0 a1 a2 a3) := (ok_up (returnPair_up ha3))
theorem execAlarmRead_up {a0} (ha0 : Up o a0) : UpR o (execAlarmRead a0) :=
  (fwCmd_up (fun _ _ h0 => (alarmRead_up h0)) ha0)
theorem execShadowScan_up {a0} (ha0 : Up o a0) : UpR o (execShadowScan a0) := (when_up ha0 (shadowScan_up ha0))
theorem execTakeover_up {a0} (ha0 : Up o a0) : UpR o (execTakeover a0) := (when_up ha0 (takeOver_up ha0))
theorem execLnkWinEnd_up {a0} (ha0 : Up o a0) : UpR o (execLnkWinEnd a0) := (ok_up (resetRegs_up ha0))
theorem execClsRead_up {a0} (ha0 : Up o a0) : UpR o (execClsRead a0) := (fwCmd_up (fun _ _ h0 => (clsRead_up h0)) ha0)
theorem postBurst_up {a0 a1 a2} (ha0 : Up o a0) : Up o (postBurst a0 a1 a2) := by
  unfold postBurst; split; exacts [(coreAccess_up ha0), (by split; exacts [(up_ite ha0 (portRequest_up ha0)), (burst_up ha0)])]
theorem execEvlPost_up {a0 a1 a2} (ha2 : Up o a2) : UpR o (execEvlPost a0 a1 a2) := (when_up ha2 (postBurst_up ha2))
theorem execRsvreqStanding_up {a0 a1} (ha1 : Up o a1) : UpR o (execRsvreqStanding a0 a1) := by
  unfold execRsvreqStanding; split <;> rename_i e; exacts [(ok_up ha1), (ok_up (up_ite ((takeRsv_up ha1) _ _ e) (reqArrives_up ((takeRsv_up ha1) _ _ e))))]
theorem execRcRead_up {a0 a1 a2} (ha2 : Up o a2) : UpR o (execRcRead a0 a1 a2) := (readBy_up ha2)
theorem execFabRst_up {a0} (ha0 : Up o a0) : UpR o (execFabRst a0) := (when_up ha0 (fabRelease_up ha0))
theorem noteOut_up {a0 a1} (ha0 : Up o a0) : Up o (noteOut a0 a1) := (modTa_up ha0)
theorem arriveFlit_up {a0 a1 a2 a3} (ha0 : Up o a0) : Up o (arriveFlit a0 a1 a2 a3) := by
  unfold arriveFlit; split; exacts [ha0, (up_ite ha0 (up_ite (markReady_up (deliverFlit_up (stirTile_up (noteOut_up (setLink_up (setLink_up (clearFail_up (clearFail_up (up_forEach (fun _ _ h0 => (quarterCe_up h0)) (up_ite ha0 (setLink_up ha0))))))))))) (rejectFlit_up (up_forEach (fun _ _ h1 => (quarterCe_up h1)) (up_ite ha0 (setLink_up ha0))))))]
theorem execReadmitTest_up {a0 a1 a2 a3} (ha3 : Up o a3) : UpR o (execReadmitTest a0 a1 a2 a3) :=
  (ok_up (readmitEnd_up ha3))
theorem execBarTile_up {a0 a1 a2} (ha2 : Up o a2) : UpR o (execBarTile a0 a1 a2) := (ok_up (acceptOreq_up ha2))
theorem execGroupCacheFill_up {a0 a1} (ha1 : Up o a1) : UpR o (execGroupCacheFill a0 a1) := by
  unfold execGroupCacheFill; split <;> rename_i e; exacts [(ok_up ha1), (ok_up (fillCell_up ((takeEject_up ha1) _ _ e)))]
theorem execMigrationDone_up {a0 a1} (ha1 : Up o a1) : UpR o (execMigrationDone a0 a1) := (ok_up (migrationEnd_up ha1))
theorem execPostDone_up {a0} (ha0 : Up o a0) : UpR o (execPostDone a0) := by
  unfold execPostDone; split; exacts [(ok_up ha0), (when_up ha0 (postEnds_up ha0))]
theorem execClsWrrSet_up {a0} (ha0 : Up o a0) : UpR o (execClsWrrSet a0) :=
  (fwCmd_up (fun _ _ h0 => (clsWrrSet_up h0)) ha0)
theorem execTicketAbort_up {a0 a1} (ha1 : Up o a1) : UpR o (execTicketAbort a0 a1) := by
  unfold execTicketAbort; split; exacts [(ok_up ha1), (when_up ha1 (ticketAbort_up ha1))]
theorem execDrainTimeout_up {a0 a1} (ha1 : Up o a1) : UpR o (execDrainTimeout a0 a1) :=
  (when_up ha1 (setDrained_up (unitGone_up ha1)))
theorem execPiccoloSample_up {a0 a1 a2} (ha2 : Up o a2) : UpR o (execPiccoloSample a0 a1 a2) :=
  (when_up ha2 (picSample_up ha2))
theorem execOpcClkSel_up {a0 a1 a2} (ha2 : Up o a2) : UpR o (execOpcClkSel a0 a1 a2) := (hostWrite_up ha2)
theorem execCfgStatus_up {a0} (ha0 : Up o a0) : UpR o (execCfgStatus a0) :=
  (fwCmd_up (fun _ _ h0 => (cfgStatus_up h0)) ha0)
theorem execTargetDoze_up {a0 a1} (ha1 : Up o a1) : UpR o (execTargetDoze a0 a1) := (hostWrite_up ha1)
theorem execLinkFlit_up {a0 a1 a2 a3 a4 a5 a6} (ha6 : Up o a6) : UpR o (execLinkFlit a0 a1 a2 a3 a4 a5 a6) :=
  (ok_up (arriveFlit_up ha6))
theorem execTurnAbandon_up {a0 a1} (ha1 : Up o a1) : UpR o (execTurnAbandon a0 a1) := (ok_up (abandonTurn_up ha1))
theorem execPwrRelease_up {a0 a1 a2} (ha2 : Up o a2) : UpR o (execPwrRelease a0 a1 a2) := (hostWrite_up ha2)
theorem loseSlot_up {a0 a1} (ha1 : Up o a1) : Up o (loseSlot a0 a1) :=
  (up_forEach (fun _ _ h0 => (discardAt_up h0)) (xoutcome_up (slotAborted_up (dropLaunch_up ha1))))
theorem resyncAgain_up {a0 a1 a2 a3} (ha0 : Up o a0) : Up o (resyncAgain a0 a1 a2 a3) := (startResync_up ha0)
theorem withMapAt_up {a0 a1 a2} (ha0 : Up o a0) : Up o (withMapAt a0 a1 a2) :=
  (State.setReg_up (State.setReg_up (writeWords_up ha0)))
theorem closing_up {a0 a1 a2 a3} (ha0 : Up o a0) : Up o (closing a0 a1 a2 a3) := (dropRepairs_up (dropLinkJobs_up ha0))
theorem cutLink_up {a0 a1 a2 a3} (ha0 : Up o a0) : Up o (cutLink a0 a1 a2 a3) :=
  (addJob_up (pendLink_up (dropLinkJobs_up (closing_up ha0))))

end Sys2Proof.Machine
end

