-- ==== Sys2Proof/Tests/Slice0.lean ====
section
/-!
SUPPORT. Tests: states that the tests share, ill-formed terms that WellFormed refuses, and for every statement with
hypotheses a state and operands that meet all of them.
-/

namespace Sys2Proof.Tests

open Sys2Proof Sys2Proof.Machine

set_option linter.unusedVariables false
set_option Elab.async false

/-- The block after power-on self-test, every register at its reset value. -/
def up : State := { State.reset with postRun := false }
def nA : NiId := ⟨0, 0⟩
/-- NI(0, 0) enabled. -/
def upA : State := up.setReg (niReg 0 Off.NI_CTRL) 5
def hWr : Head := { opc := 2, cnt := 1, tag := 5, arg := 0x100000000, words := [7] }
def hRd : Head := { opc := 1, cnt := 1, tag := 5, arg := 0x100000000 }
def hLk : Head := { opc := 4, cnt := 0, tag := 5, arg := 0x100000000, words := [9] }
def hMsg : Head := { opc := 0x3D, cnt := 1, tag := 5, words := [7] }
def hBar (f : BitVec 8) : Head := { opc := 0x0F, cnt := 0, tag := 5, flg := f }
def hRr : Head := { opc := 0x11, cnt := 1, tag := 5, w0 := 9, words := [7] }
def hCell : Head := { opc := 0x21, cnt := 10, tag := 5, w0 := 9, flg := 3, words := [7] }
def hMc : Head := { opc := 0x22, cnt := 10, tag := 5, flg := 3, words := [7] }
def pWr : Pkt := { id := 1, opc := 2, dst := 0, src := 0, sc := 0, cnt := 1, tag := 5, arg := 0x100000000, words := [7] }
def pRd : Pkt := { pWr with opc := 1, words := [] }
/-- A command as firmware has copied it. -/
def rn (op : Nat) (args : List W) : Running := { mbx := 3, copy := 0, hdr := W.at 24 12 op, args := args }
/-- Firmware in normal mode on core 0. -/
def fw0 : State :=
  ((up.setReg (mtxReg Off.MTX_REMAP) 1).setReg (opcReg Off.OPC_FW_STAT) (W.at 24 2 3)).setCore 0 { run := true }
/-- Firmware that runs a command. -/
def fw (op : Nat) (args : List W) : State := { fw0 with running := some (rn op args) }
/-- Firmware with a command queued in mailbox 3. -/
def qd (op len flg : Nat) : State :=
  { fw0.setReg (mbxReg (Off.MBX_STAT 3)) 1 with hdrs := [(3, W.at 24 12 op ||| W.at 8 8 len ||| W.at 0 8 flg)] }
/-- Firmware that has completed the effect of a command. -/
def fin (r : Running) : State := { fw0 with running := some { r with done := true } }

/-! ### Every hypothesis is met somewhere -/

theorem witness_WriteBuffered : ∃ (n : NiId) (h : Head) (s : State),
    h.opcN = Opc.WR ∧ oreqTakes s n.idx h ∧ (s.ni n.idx).held = [] ∧ (∀ e ∈ (s.ni n.idx).oq, isWrite e.pkt = true) :=
  ⟨nA, hWr, upA, by decide +kernel⟩
theorem witness_RequestLaunched_1_a : ∃ (n : NiId) (h : Head) (s : State),
    ((h.opcN = Opc.RD ∧ h.flg.getLsbD 0 = false ∨ h.opcN = Opc.FOP)) ∧ oreqTakes s n.idx h ∧ quietNi (s.ni n.idx) ∧ guardFails s n.idx (oreqPkt s n.idx h) = none ∧ sourceMiss (regionOf s h.arga) (oreqPkt s n.idx h) = false :=
  ⟨nA, hRd, upA, by decide +kernel⟩
theorem witness_RequestLaunched_1_b : ∃ (n : NiId) (h : Head) (s : State),
    ((h.opcN = Opc.RD ∧ h.flg.getLsbD 0 = false ∨ h.opcN = Opc.FOP)) ∧ oreqTakes s n.idx h ∧ quietNi (s.ni n.idx) ∧ guardFails s n.idx (oreqPkt s n.idx h) = none ∧ sourceMiss (regionOf s h.arga) (oreqPkt s n.idx h) = false :=
  ⟨nA, { hRd with opc := 3, cnt := 0, words := [1] }, upA, by decide +kernel⟩
theorem witness_RequestLaunched_2 : ∃ (n : NiId) (h : Head) (s : State),
    h.opcN = Opc.RD ∧ h.flg.getLsbD 0 = true ∧ oreqTakes s n.idx h ∧ quietNi (s.ni n.idx) ∧ guardFails s n.idx (oreqPkt s n.idx h) = none ∧ sourceMiss (regionOf s h.arga) (oreqPkt s n.idx h) = false :=
  ⟨nA, { hRd with flg := 1 }, upA, by decide +kernel⟩
theorem witness_RequestLaunched_3 : ∃ (n : NiId) (h : Head) (s : State),
    isLock h.opcN = true ∧ oreqTakes s n.idx h ∧ quietNi (s.ni n.idx) ∧ guardFails s n.idx (oreqPkt s n.idx h) = none ∧ sourceMiss (regionOf s h.arga) (oreqPkt s n.idx h) = false :=
  ⟨nA, hLk, upA, by decide +kernel⟩
theorem witness_RequestLaunched_4 : ∃ (n : NiId) (h : Head) (s : State),
    h.opcN = Opc.MSG ∧ oreqTakes s n.idx h ∧ quietNi (s.ni n.idx) :=
  ⟨nA, hMsg, upA, by decide +kernel⟩
theorem witness_BarrierStarts_1_a : ∃ (n : NiId) (h : Head) (s : State),
    h.opcN = Opc.BAR ∧ oreqTakes s n.idx h ∧ h.flg.toNat % 4 ≤ 1 :=
  ⟨nA, hBar 0, upA, by decide +kernel⟩
theorem witness_BarrierStarts_1_b : ∃ (n : NiId) (h : Head) (s : State),
    h.opcN = Opc.BAR ∧ oreqTakes s n.idx h ∧ h.flg.toNat % 4 ≤ 1 :=
  ⟨nA, hBar 1, upA, by decide +kernel⟩
theorem witness_BarrierStarts_2 : ∃ (n : NiId) (h : Head) (s : State),
    h.opcN = Opc.BAR ∧ oreqTakes s n.idx h ∧ h.flg.toNat % 4 = 2 :=
  ⟨nA, hBar 2, upA, by decide +kernel⟩
theorem witness_BarrierEnds_1 : ∃ (n : NiId) (b : Bar) (s : State),
    (s.ni n.idx).bar = some b ∧ coresIdle s ∧ barDone s b = true ∧ headersRead s = true :=
  ⟨nA, { scope := 2, tag := 3, sc := 1, marks := [] }, upA.setNi 0 { bar := some { scope := 2, tag := 3, sc := 1, marks := [] } }, by decide +kernel⟩
theorem witness_BarrierEnds_2 : ∃ (n : NiId) (b : Bar) (s : State),
    (s.ni n.idx).bar = some b ∧ coresIdle s ∧ barDone s b = false ∧ eventPasses s (.ni n.idx) ∧ headersRead s = true :=
  ⟨nA, { scope := 1, tag := 3, sc := 1, marks := [1] }, upA.setNi 0 { bar := some { scope := 1, tag := 3, sc := 1, marks := [1] }, outst := [{ id := 1, tag := 4, opc := 1, sc := 0, addr := 0, words := 1 }] }, by decide +kernel⟩
theorem witness_StoreBufferDrains : ∃ (n : NiId) (e : OEntry) (rest : List OEntry) (s : State),
    takeFirst (fun f => !f.left) (s.ni n.idx).oq = some (e, rest) ∧ (∀ f ∈ (s.ni n.idx).oq, isWrite f.pkt = true) ∧ (s.ni n.idx).held = [] ∧ grdHolds s n.idx = false ∧ e.pkt.isStcond = false ∧ guardFails s n.idx e.pkt = none ∧ sourceMiss (regionOf s e.pkt.addr) e.pkt = false ∧ ownWrite n.idx e.pkt.addr = false :=
  ⟨nA, { pkt := pWr }, [], upA.setNi 0 { oq := [{ pkt := pWr }] }, by decide +kernel⟩
theorem witness_ResponseLeavesUnit : ∃ (n : NiId) (h : Head) (q : Inb) (rest : List Inb) (s : State),
    irspReads s n.idx h ∧ findInb (s.ni n.idx) (h.w0.fld 0 23) h.tag.toNat = some (q, rest) :=
  ⟨nA, hRr, { src := 9, tag := 5, opc := 1, sc := 2, id := 7 }, [], upA.setNi 0 { inb := [{ src := 9, tag := 5, opc := 1, sc := 2, id := 7 }] }, by decide +kernel⟩
theorem witness_CellAccepted_1 : ∃ (n : NiId) (h : Head) (k : HeldH) (rest : List HeldH) (s : State),
    h.opcN = Opc.CELL ∧ cpoReads s n.idx h ∧ refusing s n.idx = false ∧ firstHeld (s.ni n.idx) (h.w0.fld 0 23) (oreqPkt s n.idx h).sc = some (k, rest) :=
  ⟨nA, hCell, { dst := 9, sc := 0, handle := 3, slot := none }, [], upA.setNi 0 { handles := [{ dst := 9, sc := 0, handle := 3, slot := none }] }, by decide +kernel⟩
theorem witness_CellAccepted_2 : ∃ (n : NiId) (h : Head) (s : State),
    h.opcN = Opc.CELL ∧ cpoReads s n.idx h ∧ refusing s n.idx = false ∧ firstHeld (s.ni n.idx) (h.w0.fld 0 23) (oreqPkt s n.idx h).sc = none ∧ (s.ni n.idx).rsv = none :=
  ⟨nA, hCell, upA, by decide +kernel⟩
theorem witness_CellAccepted_3 : ∃ (n : NiId) (h : Head) (e : GroupEnt) (s : State),
    h.opcN = Opc.CELLMC ∧ cpoReads s n.idx h ∧ refusing s n.idx = false ∧ regBit s (niReg n.idx Off.NI_MC_CFG) 0 = true ∧ cacheGet (s.ni n.idx) (h.arg.fld 0 14) = some e ∧ e.valid = true ∧ e.mask ≠ 0 ∧ (tilesOf e.mask).foldl (fun a d => a + 2 ^ d) 0 = e.mask ∧ (∀ d ∈ tilesOf e.mask, reachable s (n.idx / 7) d = true ∧ (laneGet (s.ni n.idx) d (h.arg.fld 0 14)).isSome = true) ∧ (∀ d ∈ mcDests (s.ni n.idx) e.mask (h.arg.fld 0 14), claims (s.ni n.idx) d < credit (s.ni n.idx) d) :=
  ⟨nA, hMc, { group := 0, mask := 2, valid := true }, (upA.setReg (niReg 0 Off.NI_MC_CFG) 9).setNi 0 { cache := [(0, some { group := 0, mask := 2, valid := true })], lanes := [(laneKey 1 0, some 2)], credits := [(8, 3)] }, by decide +kernel⟩
theorem witness_MalformedPacket_2 : ∃ (n : NiId) (p : Pkt) (w : CellWait) (s : State),
    firstUnread (s.ni n.idx) .cpo = none ∧ openOf (s.ni n.idx) .cpo = some p ∧ (s.ni n.idx).cell = some w ∧ w.pkt.id = p.id ∧ (∀ e ∈ (s.ni n.idx).stage, e.pkt.id ≠ p.id) ∧ (∀ e ∈ (s.ni n.idx).oq, e.pkt.id ≠ p.id) ∧ (∀ e ∈ (s.ni n.idx).held, e.id ≠ p.id) :=
  ⟨nA, { pWr with opc := 0x21, id := 4 }, { pkt := { pWr with opc := 0x21, id := 4 }, since := 0 }, upA.setNi 0 { openP := [(.cpo, { pWr with opc := 0x21, id := 4 })], cell := some { pkt := { pWr with opc := 0x21, id := 4 }, since := 0 } }, by decide +kernel⟩
theorem witness_MalformedPacket_3 : ∃ (n : NiId) (ch : Chan) (p : Pkt) (s : State),
    openOf (s.ni n.idx) ch = some p ∧ notInjected (s.ni n.idx) p.id = false ∧ inFlight s p = true ∧ ((ch = .irsp ∨ ch = .cpo ∨ ch = .oreq ∧ isAccess p.opc = false)) :=
  ⟨nA, .cpo, pWr, (upA.setNi 0 { openP := [(.cpo, pWr)] }).setRt 0 { inq := [{ pkt := pWr, inp := 16, vc := 0 }] }, by decide +kernel⟩
theorem witness_HeadInjected : ∃ (n : NiId) (ch : Chan) (e : Staged) (rest : List Staged) (k : Cnt) (s : State),
    takeFirst (fun g => decide (g.ch = ch)) (s.ni n.idx).stage = some (e, rest) ∧ refusing s n.idx = false ∧ routerOut s (n.idx / 7) = false ∧ routeHeld s (n.idx / 7) e.pkt = false ∧ packetReachable s (n.idx / 7) e.pkt = true ∧ clsHeld (s.ni n.idx) e.pkt = false ∧ takeSlots (cntOf s (n.idx / 7) (16 + n.idx % 7)) (sc5Rsv s (n.idx / 7)) (vcKey (vnOf e.pkt.opc) 0) e.pkt.flits e.pkt.sc 0 = some k ∧ isPunt s n.idx e.pkt = false ∧ tokensOk s n.idx e.pkt = true ∧ (s.ta (n.idx / 7)).entering = none :=
  ⟨nA, .oreq, { ch := .oreq, pkt := { pRd with dst := 13 } }, [], { vcs := [(0, 1)] }, upA.setNi 0 { stage := [{ ch := .oreq, pkt := { pRd with dst := 13 } }] }, by decide +kernel⟩
theorem witness_UnitResets_1 : ∃ (n : NiId) (s : State),
    (s.ni n.idx).urst = false ∧ (s.ni n.idx).openP = [] ∧ (s.ni n.idx).eject = [] ∧ (s.ni n.idx).handles = [] ∧ (s.ni n.idx).credits = [] ∧ (s.ni n.idx).rsv = none ∧ (∀ e ∈ (s.ni n.idx).stage, e.ch ≠ .cpo) :=
  ⟨nA, (upA.setNi 0 { bar := some { scope := 2, tag := 3, marks := [] }, inb := [{ src := 9, tag := 5, opc := 1, sc := 2, id := 7 }], stage := [{ ch := .oreq, pkt := pWr }], oq := [{ pkt := pWr, left := true }] }), by decide +kernel⟩
theorem witness_UnitResets_2 : ∃ (n : NiId) (s : State),
    (s.ni n.idx).urst = true :=
  ⟨nA, upA.setNi 0 { urst := true, hold := [{ fid := 1, addr := 0x200000000, data := [7], last := true }] }, by decide +kernel⟩
theorem witness_UnitDrains_1 : ∃ (n : NiId) (s : State),
    niEn s n.idx = true ∧ (s.ni n.idx).eject.filter (fun p => isUnitKind p && !p.killed) = [] ∧ awake s (niReg n.idx Off.NI_CTRL) = true :=
  ⟨nA, upA, by decide +kernel⟩
theorem witness_UnitDrains_2 : ∃ (n : NiId) (s : State),
    (s.ni n.idx).draining = true ∧ nothingLeft s n.idx = true ∧ eventPasses s (.ni n.idx) :=
  ⟨nA, upA.setNi 0 { draining := true }, by decide +kernel⟩
theorem witness_UnitDrains_3 : ∃ (n : NiId) (s : State),
    (s.ni n.idx).draining = true ∧ eventPasses s (.ni n.idx) ∧ (s.ni n.idx).openP = [] ∧ (s.ni n.idx).eject = [] ∧ (s.ni n.idx).handles = [] ∧ (s.ni n.idx).credits = [] ∧ (s.ni n.idx).rsv = none ∧ (∀ e ∈ (s.ni n.idx).stage, e.ch ≠ .cpo) :=
  ⟨nA, upA.setNi 0 { draining := true, inb := [{ src := 9, tag := 5, opc := 1, sc := 2, id := 7 }], stage := [{ ch := .oreq, pkt := pWr }] }, by decide +kernel⟩
theorem witness_UnitDrains_4 : ∃ (n : NiId) (s : State),
    niEn s n.idx = false ∧ awake s (niReg n.idx Off.NI_CTRL) = true :=
  ⟨nA, up.setNi 0 { drained := true, free := [⟨1, 2⟩] }, by decide +kernel⟩
theorem witness_UnitReceives_1 : ∃ (n : NiId) (p : Pkt) (rest : List Pkt) (s : State),
    nextEject s n.idx (fun p => isUnitKind p && !forBridge n.idx p) = some (p, rest) ∧ populated s n.idx = true ∧ n.idx ≠ 6 ∧ n.idx ≠ 447 ∧ (s.ni n.idx).urst = false ∧ niEn s n.idx = true :=
  ⟨nA, pRd, [], upA.setNi 0 { eject := [pRd] }, by decide +kernel⟩
theorem witness_UnitReceives_2 : ∃ (n : NiId) (p : Pkt) (rest : List Pkt) (s : State),
    nextEject s n.idx (fun p => isUnitKind p && !forBridge n.idx p) = some (p, rest) ∧ populated s n.idx = false ∧ n.idx ≠ 6 ∧ n.idx ≠ 447 ∧ isAccess p.opc = true :=
  ⟨⟨0, 4⟩, pRd, [], upA.setNi 4 { eject := [pRd] }, by decide +kernel⟩
theorem witness_UnitReceives_3 : ∃ (n : NiId) (p : Pkt) (rest : List Pkt) (off : Nat) (s : State),
    nextEject s n.idx (fun p => isUnitKind p && !forBridge n.idx p) = some (p, rest) ∧ (n.idx = 6 ∨ n.idx = 447) ∧ p.opc = Opc.RD ∧ regionOf s p.addr = .sram off ∧ off + p.cnt ≤ sramWords :=
  ⟨⟨0, 6⟩, { pRd with arg := 0x200004 }, [], 4, upA.setNi 6 { eject := [{ pRd with arg := 0x200004 }] }, by decide +kernel⟩
theorem witness_UnitReceives_4 : ∃ (n : NiId) (p : Pkt) (q : Req) (rest : List Pkt) (s : State),
    nextEject s n.idx (fun p => isResp p.opc && decide (p.tag < 256)) = some (p, rest) ∧ n.idx % 7 ≠ 5 ∧ coresIdle s ∧ (s.ni n.idx).expired = false ∧ (s.ni n.idx).urst = false ∧ findReq (s.ni n.idx) p.tag = some q ∧ (s.ni n.idx).held = [] ∧ (∀ e ∈ (s.ni n.idx).oq, e.left = true ∨ isWrite e.pkt = true) :=
  ⟨nA, { pWr with opc := 0x12 }, { id := 1, tag := 5, opc := 2, sc := 0, addr := 0x100000000, words := 1 }, [], upA.setNi 0 { eject := [{ pWr with opc := 0x12 }], oq := [{ pkt := pWr, left := true }], outst := [{ id := 1, tag := 5, opc := 2, sc := 0, addr := 0x100000000, words := 1 }] }, by decide +kernel⟩
theorem witness_UnitReceives_5 : ∃ (n : NiId) (p : Pkt) (rest : List Pkt) (s : State),
    nextEject s n.idx (fun p => decide (p.opc = Opc.PHOLD)) = some (p, rest) ∧ populated s n.idx = true ∧ (s.ni n.idx).urst = false ∧ niEn s n.idx = true :=
  ⟨nA, { pRd with opc := 0x3C, sc := 7 }, [], upA.setNi 0 { eject := [{ pRd with opc := 0x3C, sc := 7 }] }, by decide +kernel⟩
theorem witness_KillArrives_1 : ∃ (n : NiId) (p : Pkt) (rest : List Pkt) (s : State),
    takeFirst (fun p => p.killed) (s.ni n.idx).eject = some (p, rest) ∧ p.opc ≠ Opc.CELL :=
  ⟨nA, { pWr with killed := true }, [], upA.setNi 0 { eject := [{ pWr with killed := true }] }, by decide +kernel⟩
theorem witness_KillArrives_2 : ∃ (n : NiId) (p : Pkt) (rest : List Pkt) (s : State),
    takeFirst (fun p => p.killed) (s.ni n.idx).eject = none ∧ killedWait (s.ni n.idx) = none ∧ (s.ni n.idx).killPend = p :: rest ∧ isCell p.opc = false ∧ isResp p.opc = false :=
  ⟨nA, pWr, [], upA.setNi 0 { killPend := [pWr] }, by decide +kernel⟩
theorem witness_KillArrives_3 : ∃ (u : Fin 64) (i : Fin 23) (f : Flight) (rest : List Flight) (s : State),
    takeFirst (fun f => decide (f.inp = i.val) && f.pkt.killed) (s.rt u).trail = none ∧ takeFirst (fun f => decide (f.inp = i.val) && f.pkt.killed && decide (f.arrived < f.pkt.flits)) (s.rt u).inq = some (f, rest) ∧ f.arrived = 0 ∧ resyncOf s u.val i.val = none ∧ (cntOf s (upstream u.val i.val).1 (upstream u.val i.val).2).deficit = 0 :=
  ⟨1, 0, { pkt := { pWr with killed := true, len := 1 }, inp := 0, vc := 0 }, [], up.setRt 1 { inq := [{ pkt := { pWr with killed := true, len := 1 }, inp := 0, vc := 0 }] }, by decide +kernel⟩
theorem witness_NiRegistersAct_3 : ∃ (n : NiId) (v : W) (s : State),
    n.idx % 7 = 0 ∧ nodePort ((s.reg (niReg n.idx Off.NI_PHOLD_DST)).fld 0 23) ≠ 7 ∧ awake s (niReg n.idx Off.NI_PHOLD) = true :=
  ⟨nA, 260, upA, by decide +kernel⟩
theorem witness_NiRegistersAct_6 : ∃ (n : NiId) (v : W) (s : State),
    n.idx % 7 = 0 ∧ nodePort ((s.reg (niReg n.idx Off.NI_PHOLD_DST)).fld 0 23) = 7 ∧ awake s (niReg n.idx Off.NI_PHOLD) = true :=
  ⟨nA, 260, upA.setReg (niReg nA.idx Off.NI_PHOLD_DST) 15, by decide +kernel⟩
theorem witness_NiRegistersAct_7 : ∃ (n : NiId) (v : W) (s : State),
    n.idx % 7 ≠ 0 ∧ awake s (niReg n.idx Off.NI_PHOLD) = true :=
  ⟨⟨0, 1⟩, 260, upA, by decide +kernel⟩
theorem witness_NiRegistersAct_2 : ∃ (n : NiId) (v : W) (s : State),
    awake s (niReg n.idx Off.NI_SPRAY_SEED) = true :=
  ⟨nA, 5, upA, by decide +kernel⟩
theorem witness_NiRegistersAct_8_a : ∃ (n : NiId) (v : W) (a : Nat) (s : State) (c : Instr),
    (c = .spraySeedWrite n v ∧ a = niReg n.idx Off.NI_SPRAY_SEED ∨ c = .niEnable n ∧ a = niReg n.idx Off.NI_CTRL) ∧ target s a = none :=
  ⟨⟨1, 2⟩, 7, niReg 9 Off.NI_SPRAY_SEED, up.setReg (taReg 1 Off.PWR_TA_STAT) 3, .spraySeedWrite ⟨1, 2⟩ 7, by decide +kernel⟩
theorem witness_NiRegistersAct_8_b : ∃ (n : NiId) (v : W) (a : Nat) (s : State) (c : Instr),
    (c = .spraySeedWrite n v ∧ a = niReg n.idx Off.NI_SPRAY_SEED ∨ c = .niEnable n ∧ a = niReg n.idx Off.NI_CTRL) ∧ target s a = none :=
  ⟨⟨1, 2⟩, 7, niReg 9 Off.NI_CTRL, up.setReg (taReg 1 Off.PWR_TA_STAT) 3, .niEnable ⟨1, 2⟩, by decide +kernel⟩
theorem witness_RequestsForReservation_1 : ∃ (n : NiId) (p : Pkt) (rest : List Pkt) (r : Run) (rs : List Run) (k : Nat) (s : State),
    nextEject s n.idx (fun p => decide (p.opc = Opc.RSVREQ) && decide (p.tag % 2 = 0)) = some (p, rest) ∧ p.poisoned = false ∧ mayGrant s n.idx = true ∧ (s.ni n.idx).parked = [] ∧ (s.ni n.idx).free = r :: rs ∧ grantSize s n.idx (askedBy p false) = k ∧ 0 < k :=
  ⟨nA, { opc := 0x31, src := 9, sc := 2, cnt := 3, tag := 0 }, [], ⟨4, 8⟩, [], 3, upA.setNi 0 { free := [⟨4, 8⟩], eject := [{ opc := 0x31, src := 9, sc := 2, cnt := 3, tag := 0 }] }, by decide +kernel⟩
theorem witness_RequestsForReservation_2 : ∃ (n : NiId) (p : Pkt) (rest : List Pkt) (s : State),
    nextEject s n.idx (fun p => decide (p.opc = Opc.RSVREQ) && decide (p.tag % 2 = 0)) = some (p, rest) ∧ p.poisoned = false ∧ (s.ni n.idx).free = [] :=
  ⟨nA, { opc := 0x31, src := 9, sc := 2, cnt := 3, tag := 0 }, [], upA.setNi 0 { eject := [{ opc := 0x31, src := 9, sc := 2, cnt := 3, tag := 0 }] }, by decide +kernel⟩
theorem witness_RequestsForReservation_3 : ∃ (n : NiId) (p : Pkt) (rest : List Pkt) (r : Run) (rs : List Run) (k : Nat) (s : State),
    nextEject s n.idx (fun p => decide (p.opc = Opc.RSVREQ) && decide (p.tag % 2 = 1)) = some (p, rest) ∧ p.poisoned = false ∧ mayGrant s n.idx = true ∧ (s.ni n.idx).parked = [] ∧ (s.ni n.idx).free = r :: rs ∧ grantSize s n.idx (askedBy p true) = k ∧ 0 < k :=
  ⟨nA, { opc := 0x31, src := 9, sc := 2, cnt := 3, tag := 1 }, [], ⟨4, 8⟩, [], 3, upA.setNi 0 { free := [⟨4, 8⟩], eject := [{ opc := 0x31, src := 9, sc := 2, cnt := 3, tag := 1 }] }, by decide +kernel⟩
theorem witness_RequestsForReservation_4 : ∃ (n : NiId) (p : Pkt) (rest : List Pkt) (r : Run) (rs : List Run) (s : State),
    nextEject s n.idx (fun p => decide (p.opc = Opc.RSVREQ) && decide (p.tag % 2 = 1)) = some (p, rest) ∧ p.poisoned = false ∧ mayGrant s n.idx = true ∧ (s.ni n.idx).parked = [] ∧ (s.ni n.idx).free = r :: rs ∧ grantSize s n.idx (askedBy p true) = 0 :=
  ⟨nA, { opc := 0x31, src := 9, sc := 2, cnt := 3, tag := 1 }, [], ⟨4, 8⟩, [], upA.setNi 0 { free := [⟨4, 8⟩], standing := [(9, [1, 2, 3, 4, 5, 6, 7, 8])], eject := [{ opc := 0x31, src := 9, sc := 2, cnt := 3, tag := 1 }] }, by decide +kernel⟩
theorem witness_AnswersToReservation_1 : ∃ (n : NiId) (p : Pkt) (rest : List Pkt) (r : RsvOut) (s : State),
    nextEject s n.idx (fun p => decide (p.opc = Opc.RSVGNT) && true) = some (p, rest) ∧ p.poisoned = false ∧ (s.ni n.idx).rsv = some r ∧ r.dst = p.src ∧ unitAway (s.ni n.idx) = false ∧ p.tag % 2 = 0 ∧ r.withdrawn = false ∧ (s.ni n.idx).cell = none :=
  ⟨nA, { opc := 0x32, src := 9, sc := 2, cnt := 2, tag := 0, arg := 5 }, [], { dst := 9, sc := 2, cnt := 2 }, upA.setNi 0 { rsv := some { dst := 9, sc := 2, cnt := 2 }, eject := [{ opc := 0x32, src := 9, sc := 2, cnt := 2, tag := 0, arg := 5 }] }, by decide +kernel⟩
theorem witness_AnswersToReservation_2 : ∃ (n : NiId) (p : Pkt) (rest : List Pkt) (r : RsvOut) (w : CellWait) (k : HeldH) (hs : List HeldH) (s : State),
    nextEject s n.idx (fun p => decide (p.opc = Opc.RSVGNT) && true) = some (p, rest) ∧ p.poisoned = false ∧ (s.ni n.idx).rsv = some r ∧ r.dst = p.src ∧ unitAway (s.ni n.idx) = false ∧ p.tag % 2 = 0 ∧ r.withdrawn = false ∧ (s.ni n.idx).cell = some w ∧ w.pkt.opc = Opc.CELL ∧ takeFirst (fun h => decide (h.dst = w.pkt.dst ∧ h.sc = w.pkt.sc)) ((s.ni n.idx).handles ++ heldOf p) = some (k, hs) :=
  ⟨nA, { opc := 0x32, src := 9, sc := 2, cnt := 2, tag := 0, arg := 5 }, [], { dst := 9, sc := 2, cnt := 2 }, { pkt := { opc := 0x21, dst := 9, sc := 2 }, since := 0 }, { dst := 9, sc := 2, handle := 5, slot := some 0, grant := (5, 2) }, [{ dst := 9, sc := 2, handle := 6, slot := some 1, grant := (5, 2) }], ({ upA with fc := 9 }).setNi 0 { cell := some { pkt := { opc := 0x21, dst := 9, sc := 2 }, since := 0 }, rsv := some { dst := 9, sc := 2, cnt := 2 }, eject := [{ opc := 0x32, src := 9, sc := 2, cnt := 2, tag := 0, arg := 5 }] }, by decide +kernel⟩
theorem witness_AnswersToReservation_3 : ∃ (n : NiId) (p : Pkt) (rest : List Pkt) (r : RsvOut) (s : State),
    nextEject s n.idx (fun p => decide (p.opc = Opc.RSVGNT) && true) = some (p, rest) ∧ p.poisoned = false ∧ (s.ni n.idx).rsv = some r ∧ r.dst = p.src ∧ unitAway (s.ni n.idx) = false ∧ p.tag % 2 = 1 ∧ (s.ni n.idx).cell = none :=
  ⟨nA, { opc := 0x32, src := 9, sc := 2, cnt := 2, tag := 1, arg := 5 }, [], { dst := 9, sc := 2, cnt := 2, standing := true }, (upA.setReg (niReg 0 Off.NI_MC_CFG) 9).setNi 0 { rsv := some { dst := 9, sc := 2, cnt := 2, standing := true }, eject := [{ opc := 0x32, src := 9, sc := 2, cnt := 2, tag := 1, arg := 5 }] }, by decide +kernel⟩
theorem witness_AnswersToReservation_4 : ∃ (n : NiId) (p : Pkt) (rest : List Pkt) (s : State),
    nextEject s n.idx (fun p => decide (p.opc = Opc.RSVGNT) && true) = some (p, rest) ∧ p.poisoned = false ∧ (s.ni n.idx).rsv = none ∧ p.tag % 2 = 0 :=
  ⟨nA, { opc := 0x32, src := 9, sc := 2, cnt := 2, tag := 0, arg := 5 }, [], upA.setNi 0 { eject := [{ opc := 0x32, src := 9, sc := 2, cnt := 2, tag := 0, arg := 5 }] }, by decide +kernel⟩
theorem witness_AnswersToReservation_5 : ∃ (n : NiId) (p : Pkt) (rest : List Pkt) (r : RsvOut) (s : State),
    nextEject s n.idx (fun p => decide (p.opc = Opc.RSVREF) && true) = some (p, rest) ∧ p.poisoned = false ∧ (s.ni n.idx).rsv = some r ∧ r.dst = p.src ∧ (s.ni n.idx).cell = none :=
  ⟨nA, { opc := 0x33, src := 9, sc := 2 }, [], { dst := 9, sc := 2, cnt := 2 }, upA.setNi 0 { rsv := some { dst := 9, sc := 2, cnt := 2 }, eject := [{ opc := 0x33, src := 9, sc := 2 }] }, by decide +kernel⟩
theorem witness_HandlesReturned_1 : ∃ (n : NiId) (p : Pkt) (rest : List Pkt) (s : State),
    nextEject s n.idx (fun p => decide (p.opc = Opc.RSVREL) && decide (p.tag % 2 = 0 ∧ p.cnt ≠ 0)) = some (p, rest) ∧ p.poisoned = false ∧ (s.ni n.idx).parked = [] ∧ p.cnt < 65536 ∧ ((s.ni n.idx).grants.map (fun g => g.handle)).Nodup ∧ ((List.range p.cnt).map (fun i => (p.arg.fld 0 16 + i) % 65536)).all (fun h => (s.ni n.idx).grants.any (fun g => decide (g.src = p.src ∧ g.handle = h))) = true :=
  ⟨nA, { opc := 0x34, src := 9, sc := 2, cnt := 2, tag := 0, arg := 5 }, [], upA.setNi 0 { grants := [{ handle := 5, src := 9, sc := 2 }, { handle := 6, src := 9, sc := 2 }, { handle := 7, src := 9, sc := 2 }], eject := [{ opc := 0x34, src := 9, sc := 2, cnt := 2, tag := 0, arg := 5 }] }, by decide +kernel⟩
theorem witness_HandlesReturned_2 : ∃ (n : NiId) (p : Pkt) (rest : List Pkt) (q : Parked) (ps : List Parked) (s : State),
    nextEject s n.idx (fun p => decide (p.opc = Opc.RSVREL) && decide (p.tag % 2 = 0 ∧ p.cnt = 0)) = some (p, rest) ∧ p.poisoned = false ∧ takeFirst (fun q => decide (q.src = p.src)) (s.ni n.idx).parked = some (q, ps) :=
  ⟨nA, { opc := 0x34, src := 9, sc := 2, cnt := 0, tag := 0, arg := 5 }, [], { src := 9, sc := 2, cnt := 1 }, [], upA.setNi 0 { parked := [{ src := 9, sc := 2, cnt := 1 }], eject := [{ opc := 0x34, src := 9, sc := 2, cnt := 0, tag := 0, arg := 5 }] }, by decide +kernel⟩
theorem witness_HandlesReturned_3 : ∃ (n : NiId) (p : Pkt) (rest : List Pkt) (s : State),
    nextEject s n.idx (fun p => decide (p.opc = Opc.RSVREL) && decide (p.tag % 2 = 1)) = some (p, rest) ∧ p.poisoned = false ∧ (s.ni n.idx).parked = [] ∧ (standingSet (s.ni n.idx) p.src).length = p.cnt :=
  ⟨nA, { opc := 0x34, src := 9, sc := 2, cnt := 2, tag := 1, arg := 5 }, [], upA.setNi 0 { standing := [(9, [5, 6])], eject := [{ opc := 0x34, src := 9, sc := 2, cnt := 2, tag := 1, arg := 5 }] }, by decide +kernel⟩
theorem witness_HandlesReturned_4 : ∃ (n : NiId) (v : W) (s : State),
    (s.ni n.idx).parked = [] ∧ handleCount (s.ni n.idx) + (v.fld 16 4 + 1) ≤ 2048 ∧ (s.ni n.idx).runs.length < 512 ∧ awake s (niReg n.idx Off.NI_RSV_PUSH) = true :=
  ⟨nA, 0x30005, upA, by decide +kernel⟩
theorem witness_HandlesReturned_5 : ∃ (n : NiId) (v : W) (s : State),
    2048 < handleCount (s.ni n.idx) + (v.fld 16 4 + 1) ∧ awake s (niReg n.idx Off.NI_RSV_PUSH) = true :=
  ⟨nA, 0x30005, upA.setNi 0 { free := [⟨0, 2048⟩] }, by decide +kernel⟩
theorem witness_AdmissionTimers_2 : ∃ (n : NiId) (d : NiId) (s : State),
    0 < credit (s.ni n.idx) d.idx :=
  ⟨nA, ⟨1, 1⟩, upA.setNi 0 { credits := [(8, 3)] }, by decide +kernel⟩
theorem witness_AdmissionTimers_3 : ∃ (n : NiId) (d : Nat) (sc : Nat) (rest : List (Nat × Nat)) (s : State),
    (s.ni n.idx).rsv = none ∧ (s.ni n.idx).cell = none ∧ takeFirst (fun q => decide (credit (s.ni n.idx) q.1 < standOf s n.idx)) (s.ni n.idx).refill = some ((d, sc), rest) :=
  ⟨nA, 8, 2, [], (upA.setReg (niReg 0 Off.NI_MC_CFG) 9).setNi 0 { refill := [(8, 2)] }, by decide +kernel⟩
theorem witness_AdmissionTimers_4 : ∃ (n : NiId) (w : CellWait) (r : RsvOut) (s : State),
    (s.ni n.idx).cell = some w ∧ (s.ni n.idx).rsv = some r ∧ r.withdrawn = false ∧ ownReq w r = true :=
  ⟨nA, { pkt := { opc := 0x21, dst := 9, sc := 2 }, since := 0, asked := [0] }, { dst := 9, sc := 2, cnt := 2 }, ({ upA with fc := 9 }).setNi 0 { cell := some { pkt := { opc := 0x21, dst := 9, sc := 2 }, since := 0, asked := [0] }, rsv := some { dst := 9, sc := 2, cnt := 2 } }, by decide +kernel⟩
theorem witness_AdmissionTimers_5 : ∃ (n : NiId) (r : RsvOut) (s : State),
    (s.ni n.idx).rsv = some r ∧ (s.ni n.idx).cell = none :=
  ⟨nA, { dst := 9, sc := 2, cnt := 2 }, upA.setNi 0 { rsv := some { dst := 9, sc := 2, cnt := 2 } }, by decide +kernel⟩
theorem witness_AdmissionTimers_6 : ∃ (n : NiId) (j : Fin 256) (g : Grant) (s : State),
    (s.ni n.idx).grants.find? (fun g => decide (g.slot = some j.val) && g.waiting.isNone) = some g ∧ earlierDone (s.ni n.idx) g.src g.sc g.handle = true ∧ (s.ni n.idx).parked = [] ∧ eventPasses s (.ni n.idx) :=
  ⟨nA, 3, { handle := 5, src := 9, sc := 2, slot := some 3 }, upA.setNi 0 { grants := [{ handle := 5, src := 9, sc := 2, slot := some 3 }] }, by decide +kernel⟩
theorem witness_AdmissionTimers_7 : ∃ (n : NiId) (v : BitVec 16) (g : Grant) (s : State),
    (s.ni n.idx).grants.find? (fun g => decide (g.handle = v.toNat) && g.slot.isNone && g.waiting.isNone) = some g ∧ n.p.val ≤ 3 ∧ (s.ni n.idx).parked = [] :=
  ⟨nA, 5, { handle := 5, src := 9, sc := 2 }, upA.setNi 0 { grants := [{ handle := 5, src := 9, sc := 2 }] }, by decide +kernel⟩
theorem witness_AdmissionTimers_8 : ∃ (n : NiId) (w : CellWait) (s : State),
    (s.ni n.idx).cell = some w ∧ (∀ r, (s.ni n.idx).rsv = some r → r.withdrawn = true ∨ ownReq w r = false) :=
  ⟨nA, { pkt := { opc := 0x21, dst := 9, sc := 2 }, since := 0 }, ({ upA with fc := 9 }).setNi 0 { cell := some { pkt := { opc := 0x21, dst := 9, sc := 2 }, since := 0 }, rsv := some { dst := 9, sc := 2, cnt := 2 } }, by decide +kernel⟩
theorem witness_CellsDelivered_1 : ∃ (n : NiId) (p : Pkt) (rest : List Pkt) (f : Fin 8) (g : Grant) (s : State),
    nextEject s n.idx (fun p => decide (p.opc = Opc.CELL)) = some (p, rest) ∧ findGrant (s.ni n.idx) p.src p.sc p.handle = some g ∧ lateSlot p g = false ∧ g.waiting = none ∧ unitAway (s.ni n.idx) = false ∧ earlierDone (s.ni n.idx) p.src p.sc p.handle = true ∧ (s.ni n.idx).parked = [] ∧ 1 < n.idx % 7 :=
  ⟨⟨0, 2⟩, { id := 7, opc := 0x21, src := 9, sc := 2, arg := 5, cnt := 10, flg := 3 }, [], 0, { handle := 5, src := 9, sc := 2 }, up.setNi 2 { grants := [{ handle := 5, src := 9, sc := 2 }], runs := [[5]], eject := [{ id := 7, opc := 0x21, src := 9, sc := 2, arg := 5, cnt := 10, flg := 3 }] }, by decide +kernel⟩
theorem witness_CellsDelivered_2 : ∃ (n : NiId) (p : Pkt) (rest : List Pkt) (f : Fin 8) (g : Grant) (s : State),
    nextEject s n.idx (fun p => decide (p.opc = Opc.CELL)) = some (p, rest) ∧ findGrant (s.ni n.idx) p.src p.sc p.handle = some g ∧ lateSlot p g = false ∧ g.waiting = none ∧ unitAway (s.ni n.idx) = false ∧ earlierDone (s.ni n.idx) p.src p.sc p.handle = true ∧ (s.ni n.idx).parked = [] ∧ n.idx % 7 ≤ 1 :=
  ⟨nA, { id := 7, opc := 0x21, src := 9, sc := 2, arg := 5, cnt := 10, flg := 3 }, [], 0, { handle := 5, src := 9, sc := 2 }, up.setNi 0 { grants := [{ handle := 5, src := 9, sc := 2 }], runs := [[5]], eject := [{ id := 7, opc := 0x21, src := 9, sc := 2, arg := 5, cnt := 10, flg := 3 }] }, by decide +kernel⟩
theorem witness_CellsDelivered_3 : ∃ (n : NiId) (p : Pkt) (rest : List Pkt) (f : Fin 8) (g : Grant) (s : State),
    nextEject s n.idx (fun p => decide (p.opc = Opc.CELL)) = some (p, rest) ∧ findGrant (s.ni n.idx) p.src p.sc p.handle = some g ∧ lateSlot p g = false ∧ g.waiting = none ∧ unitAway (s.ni n.idx) = false ∧ earlierDone (s.ni n.idx) p.src p.sc p.handle = false :=
  ⟨nA, { id := 7, opc := 0x21, src := 9, sc := 2, arg := 5, cnt := 10, flg := 3 }, [], 0, { handle := 5, src := 9, sc := 2, slot := some 1 }, up.setNi 0 { grants := [{ handle := 4, src := 9, sc := 2, slot := some 0 }, { handle := 5, src := 9, sc := 2, slot := some 1 }], eject := [{ id := 7, opc := 0x21, src := 9, sc := 2, arg := 5, cnt := 10, flg := 3 }] }, by decide +kernel⟩
theorem witness_CellsDelivered_4 : ∃ (n : NiId) (p : Pkt) (g : Grant) (s : State),
    (s.ni n.idx).grants.find? (fun g => g.waiting.any (fun p => !p.killed) && earlierDone (s.ni n.idx) g.src g.sc g.handle && !tileDark s n.t) = some g ∧ g.waiting = some p ∧ unitAway (s.ni n.idx) = false ∧ (s.ni n.idx).parked = [] ∧ 1 < n.idx % 7 :=
  ⟨⟨0, 2⟩, { id := 7, opc := 0x21, src := 9, sc := 2, arg := 5, cnt := 10, flg := 3 }, { handle := 5, src := 9, sc := 2, slot := some 1, waiting := some { id := 7, opc := 0x21, src := 9, sc := 2, arg := 5, cnt := 10, flg := 3 } }, up.setNi 2 { grants := [{ handle := 5, src := 9, sc := 2, slot := some 1, waiting := some { id := 7, opc := 0x21, src := 9, sc := 2, arg := 5, cnt := 10, flg := 3 } }] }, by decide +kernel⟩
theorem witness_CellsDelivered_5 : ∃ (n : NiId) (p : Pkt) (g : Grant) (s : State),
    (s.ni n.idx).grants.find? (fun g => g.waiting.any (fun p => !p.killed) && earlierDone (s.ni n.idx) g.src g.sc g.handle && !tileDark s n.t) = some g ∧ g.waiting = some p ∧ unitAway (s.ni n.idx) = false ∧ (s.ni n.idx).parked = [] ∧ n.idx % 7 ≤ 1 :=
  ⟨nA, { id := 7, opc := 0x21, src := 9, sc := 2, arg := 5, cnt := 10, flg := 3 }, { handle := 5, src := 9, sc := 2, slot := some 1, waiting := some { id := 7, opc := 0x21, src := 9, sc := 2, arg := 5, cnt := 10, flg := 3 } }, up.setNi 0 { grants := [{ handle := 5, src := 9, sc := 2, slot := some 1, waiting := some { id := 7, opc := 0x21, src := 9, sc := 2, arg := 5, cnt := 10, flg := 3 } }] }, by decide +kernel⟩
theorem witness_CellsDelivered_6 : ∃ (n : NiId) (p : Pkt) (rest : List Pkt) (h : Nat) (hs : List Nat) (s : State),
    nextEject s n.idx (fun p => decide (p.opc = Opc.CELLMC)) = some (p, rest) ∧ standingSet (s.ni n.idx) p.src = h :: hs ∧ unitAway (s.ni n.idx) = false :=
  ⟨nA, { id := 7, opc := 0x22, src := 9, sc := 2, arg := 5, cnt := 10, flg := 3, mask := 1 }, [], 5, [6], up.setNi 0 { standing := [(9, [5, 6])], eject := [{ id := 7, opc := 0x22, src := 9, sc := 2, arg := 5, cnt := 10, flg := 3, mask := 1 }] }, by decide +kernel⟩
theorem witness_CellsDelivered_7 : ∃ (n : NiId) (p : Pkt) (rest : List Pkt) (w : CellWait) (d : Nat) (e : GroupEnt) (s : State),
    nextEject s n.idx (fun p => decide (p.opc = Opc.RDRESP ∧ 256 ≤ p.tag)) = some (p, rest) ∧ (s.ni n.idx).cell = some w ∧ w.pkt.opc = Opc.CELLMC ∧ p.tag = tagMask (mcGroup w.pkt) ∧ p.arg = natW St.OK ∧ e = { group := mcGroup w.pkt, mask := (wordAt p.words 0).toNat + (wordAt p.words 1).fld 0 28 * 2 ^ 36, valid := (wordAt p.words 1).bit 35 } ∧ e.valid = true ∧ e.mask ≠ 0 ∧ (tilesOf e.mask).foldl (fun a d => a + 2 ^ d) 0 = e.mask ∧ (∀ d ∈ tilesOf e.mask, reachable s (n.idx / 7) d = true) ∧ (tilesOf e.mask).find? (fun d => (laneGet (s.ni n.idx) d (mcGroup w.pkt)).isNone) = some d :=
  ⟨nA, { opc := 0x11, tag := 581, words := [2, 0x800000000] }, [], { pkt := { opc := 0x22, sc := 2, arg := 5 }, since := 0, fill := true }, 1, { group := 5, mask := 2, valid := true }, upA.setNi 0 { cell := some { pkt := { opc := 0x22, sc := 2, arg := 5 }, since := 0, fill := true }, eject := [{ opc := 0x11, tag := 581, words := [2, 0x800000000] }] }, by decide +kernel⟩
theorem witness_HeadRouted_1 : ∃ (u : Fin 64) (i : Fin 23) (f : Flight) (nx : Nat) (kn : Bool) (sw : Bool) (s : State),
    (s.rt u).inq.find? (needsRoute i.val false) = some f ∧ (route s u.val (hopsOf f) f.pkt).1 = .go nx kn sw :=
  ⟨0, 16, { pkt := { pRd with dst := 13, key := 3 }, inp := 16, vc := 0, arrived := 1 }, 1, false, false, up.setRt 0 { inq := [{ pkt := { pRd with dst := 13, key := 3 }, inp := 16, vc := 0, arrived := 1 }] }, by decide +kernel⟩
theorem witness_HeadRouted_2 : ∃ (u : Fin 64) (i : Fin 23) (f : Flight) (s : State),
    (s.rt u).inq.find? (needsRoute i.val false) = some f ∧ (route s u.val (hopsOf f) f.pkt).1 = .eject :=
  ⟨0, 1, { pkt := { pRd with dst := 0, key := 3 }, inp := 1, vc := 0, arrived := 1 }, up.setRt 0 { inq := [{ pkt := { pRd with dst := 0, key := 3 }, inp := 1, vc := 0, arrived := 1 }] }, by decide +kernel⟩
theorem witness_HeadRouted_3 : ∃ (u : Fin 64) (i : Fin 23) (f : Flight) (s : State),
    (s.rt u).inq.find? (needsRoute i.val false) = some f ∧ (route s u.val (hopsOf f) f.pkt).1 = .unroutable ∧ f.grp = none ∧ resyncOf s u.val f.inp = none ∧ (cntOf s (upstream u.val f.inp).1 (upstream u.val f.inp).2).deficit = 0 ∧ eventPasses s (.rtr u) :=
  ⟨0, 16, { pkt := { pRd with dst := 13, key := 3 }, inp := 16, vc := 0, arrived := 1 }, (up.setReg (rtrReg 0 (Off.RTR_FMAP + 1)) 0x10000).setRt 0 { inq := [{ pkt := { pRd with dst := 13, key := 3 }, inp := 16, vc := 0, arrived := 1 }] }, by decide +kernel⟩
theorem witness_HeadRouted_4 : ∃ (u : Fin 64) (i : Fin 23) (f : Flight) (s : State),
    (s.rt u).inq.find? (fun f => needsRoute i.val true f && decide (f.pkt.flits ≤ f.arrived)) = some f ∧ (fronts [] (s.rt u).inq).contains f = true ∧ (debitBranches s u f (branchesOf s u f)).isSome = true ∧ (branchesOf s u f).any (fun b => b.2.isSome) = true ∧ eventPasses s (.rtr u) :=
  ⟨0, 16, { pkt := { opc := 0x22, dst := 0, src := 8, sc := 2, arg := 0, flg := 3, mask := 2, words := [7], key := 3 }, inp := 16, vc := 0, arrived := 1 }, up.setRt 0 { inq := [{ pkt := { opc := 0x22, dst := 0, src := 8, sc := 2, arg := 0, flg := 3, mask := 2, words := [7], key := 3 }, inp := 16, vc := 0, arrived := 1 }] }, by decide +kernel⟩
theorem witness_HeadRouted_5 : ∃ (u : Fin 64) (i : Fin 23) (f : Flight) (s : State),
    (s.rt u).inq.find? (needsRoute i.val false) = some f ∧ f.grp = none ∧ resyncOf s u.val f.inp = none ∧ (cntOf s (upstream u.val f.inp).1 (upstream u.val f.inp).2).deficit = 0 ∧ eventPasses s (.rtr u) :=
  ⟨0, 16, { pkt := { pRd with dst := 13, key := 3 }, inp := 16, vc := 0, arrived := 1 },
    up.setRt 0 { inq := [{ pkt := { pRd with dst := 13, key := 3 }, inp := 16, vc := 0, arrived := 1 }] }, by decide +kernel⟩
theorem witness_HeadRouted_6 : ∃ (u : Fin 64) (i : Fin 23) (f : Flight) (s : State),
    (s.rt u).inq.find? (needsRoute i.val false) = some f ∧ (route s u.val (hopsOf f) f.pkt).1 = .unroutable :=
  ⟨0, 16, { pkt := { pRd with dst := 13, key := 3 }, inp := 16, vc := 0, arrived := 1 },
    (up.setReg (rtrReg 0 (Off.RTR_FMAP + 1)) 0x10000).setRt 0 { inq := [{ pkt := { pRd with dst := 13, key := 3 }, inp := 16, vc := 0, arrived := 1 }] }, by decide +kernel⟩
theorem witness_HeadRouted_7 : ∃ (u : Fin 64) (i : Fin 23) (f : Flight) (s : State),
    (s.rt u).inq.find? (fun f => needsRoute i.val true f && decide (f.pkt.flits ≤ f.arrived)) = some f ∧ (fronts [] (s.rt u).inq).contains f = true ∧ (branchesOf s u f).all (fun b => b.2.isNone) = true ∧ f.grp = none ∧ resyncOf s u.val f.inp = none ∧ (cntOf s (upstream u.val f.inp).1 (upstream u.val f.inp).2).deficit = 0 ∧ eventPasses s (.rtr u) :=
  ⟨0, 16, { pkt := { opc := 0x22, dst := 0, src := 8, sc := 2, arg := 0, flg := 3, mask := 2, words := [7], key := 3 }, inp := 16, vc := 0, arrived := 1 },
    (up.setReg (rtrReg 0 (Off.RTR_FMAP + 1)) 0x10000).setRt 0 { inq := [{ pkt := { opc := 0x22, dst := 0, src := 8, sc := 2, arg := 0, flg := 3, mask := 2, words := [7], key := 3 }, inp := 16, vc := 0, arrived := 1 }] }, by decide +kernel⟩
theorem witness_PacketStarted_1 : ∃ (u : Fin 64) (o : Fin 23) (f : Flight) (q : List Flight) (s : State),
    q = startable (markReady s u.val) u.val o.val ∧ startsFirst (markReady s u.val) u.val o.val q f = true ∧ o.val < 16 ∧ isLink u o = true :=
  ⟨0, 1, { pkt := { pRd with dst := 13, key := 3 }, inp := 17, vc := 0, arrived := 1, out := some 1, since := some 0 }, [{ pkt := { pRd with dst := 13, key := 3 }, inp := 17, vc := 0, arrived := 1, out := some 1, since := some 0 }], up.setRt 0 { inq := [{ pkt := { pRd with dst := 13, key := 3 }, inp := 17, vc := 0, arrived := 1, out := some 1, since := some 0 }] }, by decide +kernel⟩
theorem witness_PacketStarted_2 : ∃ (u : Fin 64) (o : Fin 23) (f : Flight) (q : List Flight) (s : State),
    q = startable (markReady s u.val) u.val o.val ∧ startsFirst (markReady s u.val) u.val o.val q f = true ∧ 16 ≤ o.val ∧ (decide (o.val = 21) && toTmem s f.pkt) = false ∧ f.pkt.killed = false :=
  ⟨0, 18, { pkt := { pRd with dst := 2, key := 3 }, inp := 17, vc := 0, arrived := 1, out := some 18, since := some 0 }, [{ pkt := { pRd with dst := 2, key := 3 }, inp := 17, vc := 0, arrived := 1, out := some 18, since := some 0 }], up.setRt 0 { inq := [{ pkt := { pRd with dst := 2, key := 3 }, inp := 17, vc := 0, arrived := 1, out := some 18, since := some 0 }] }, by decide +kernel⟩
theorem witness_PacketStarted_3 : ∃ (u : Fin 64) (f : Flight) (q : List Flight) (s : State),
    q = startable (markReady s u.val) u.val 21 ∧ startsFirst (markReady s u.val) u.val 21 q f = true ∧ toTmem s f.pkt = true ∧ f.pkt.killed = false :=
  ⟨0, { pkt := { pRd with dst := 5, key := 3 }, inp := 17, vc := 0, arrived := 1, out := some 21, since := some 0 }, [{ pkt := { pRd with dst := 5, key := 3 }, inp := 17, vc := 0, arrived := 1, out := some 21, since := some 0 }], up.setRt 0 { inq := [{ pkt := { pRd with dst := 5, key := 3 }, inp := 17, vc := 0, arrived := 1, out := some 21, since := some 0 }] }, by decide +kernel⟩
theorem witness_FlitsCross_1 : ∃ (u : Fin 64) (i : Fin 16) (p : Pkt) (s : State),
    flitComes s u i p ∧ newFlit s u i ∧ (s.ta u).entering = none ∧ (s.rt u).trail.find? (fun f => decide (f.pkt.key = p.key)) = none :=
  ⟨0, 1, { pRd with dst := 0, key := 3 }, up.setRt 0 { inq := [{ pkt := { pRd with dst := 0, key := 3 }, inp := 1, vc := 0 }] }, by decide +kernel⟩
theorem witness_FlitsCross_2 : ∃ (u : Fin 64) (i : Fin 16) (q0 : Quarter) (q1 : Quarter) (q2 : Quarter) (q3 : Quarter) (qs : List Quarter) (p : Pkt) (s : State),
    qs = [q0, q1, q2, q3] ∧ qs.any isUe = false ∧ flitComes s u i p ∧ newFlit s u i ∧ (s.ta u).entering = none ∧ (s.rt u).trail.find? (fun f => decide (f.pkt.key = p.key)) = none :=
  ⟨0, 1, .clean, .ce 5, .ce 6, .clean, [.clean, .ce 5, .ce 6, .clean], { pRd with dst := 0, key := 3 }, up.setRt 0 { inq := [{ pkt := { pRd with dst := 0, key := 3 }, inp := 1, vc := 0 }] }, by decide +kernel⟩
theorem witness_FlitsCross_3 : ∃ (u : Fin 64) (i : Fin 16) (q0 : Quarter) (q1 : Quarter) (q2 : Quarter) (q3 : Quarter) (qs : List Quarter) (p : Pkt) (s : State),
    qs = [q0, q1, q2, q3] ∧ qs.any isUe = true ∧ flitComes s u i p ∧ newFlit s u i :=
  ⟨0, 1, .ue, .ce 5, .clean, .ue, [.ue, .ce 5, .clean, .ue], { pRd with dst := 0, key := 3 }, up.setRt 0 { inq := [{ pkt := { pRd with dst := 0, key := 3 }, inp := 1, vc := 0 }] }, by decide +kernel⟩
theorem witness_FlitsCross_4 : ∃ (u : Fin 64) (i : Fin 16) (s : State),
    (linkOf s (across u i) (portTo (across u i) u)).nakFor.isSome = true ∧ (linkOf s (across u i) (portTo (across u i) u)).nakFence = none ∧ (linkOf s u i).replaying = false :=
  ⟨1, 0, up.setRt 0 { links := [(1, { nakFor := some 3 })] }, by decide +kernel⟩
theorem witness_FlitsCross_5 : ∃ (u : Fin 64) (i : Fin 16) (s : State),
    (linkOf s u i).nakFor.isSome = true ∧ (∀ h ∈ (linkOf s u i).nakHalves, h < 2) :=
  ⟨0, 1, (up.setRt 0 { links := [(1, { nakFor := some 3, nakHalves := [1] })] }).setRt 1 { links := [(0, { replaying := true })] }, by decide +kernel⟩
theorem witness_FlitsCross_6 : ∃ (u : Fin 64) (i : Fin 16) (h : Nat) (s : State),
    (linkOf s (across u i) (portTo (across u i) u)).nakFor.isSome = true ∧ (linkOf s (across u i) (portTo (across u i) u)).nakFence = some h ∧ (linkOf s u i).replaying = false :=
  ⟨1, 0, 1, up.setRt 0 { links := [(1, { nakFor := some 3, nakFence := some 1 })] }, by decide +kernel⟩
theorem witness_FlitsCross_7 : ∃ (u : Fin 64) (i : Fin 16) (p : Pkt) (f : Trail) (s : State),
    flitComes s u i p ∧ newFlit s u i ∧ (s.ta u).entering = none ∧ (s.rt u).trail.find? (fun f => decide (f.pkt.key = p.key)) = some f ∧ 1 < f.left ∧ resyncOf s u i = none ∧ (cntOf s (upstream u i).1 (upstream u i).2).deficit = 0 :=
  ⟨0, 1, { pRd with dst := 0, key := 3, len := 3 }, { inp := 1, vc := 0, pkt := { pRd with dst := 0, key := 3, len := 3 }, left := 2, out := some 2 },
    up.setRt 0 { trail := [{ inp := 1, vc := 0, pkt := { pRd with dst := 0, key := 3, len := 3 }, left := 2, out := some 2 }] }, by decide +kernel⟩
theorem witness_FlitsCross_8 : ∃ (u : Fin 64) (i : Fin 16) (p : Pkt) (s : State),
    flitComes s u i p ∧ (linkOf s u i).nakFor.isSome = true ∧ (linkOf s (across u i) (portTo (across u i) u)).replaying = true ∧ (s.ta u).entering = none ∧ (s.rt u).trail.find? (fun f => decide (f.pkt.key = p.key)) = none :=
  ⟨0, 1, { pRd with dst := 0, key := 3 }, (up.setRt 0 { inq := [{ pkt := { pRd with dst := 0, key := 3 }, inp := 1, vc := 0 }], links := [(1, { nakFor := some 3, failRun := 0 })] }).setRt 1
    { links := [(0, { sent := 1, replaying := true })] }, by decide +kernel⟩
theorem witness_FlitsCross_9 : ∃ (u : Fin 64) (i : Fin 16) (h : Nat) (p : Pkt) (s : State),
    flitComes s u i p ∧ (linkOf s u i).nakFor.isSome = true ∧ (linkOf s (across u i) (portTo (across u i) u)).replaying = true ∧ sliceOf s u i 0 = h ∧ (linkOf s u i).failRun + 1 < getFld s (rtrReg u Off.RTR_LNK_CFG) 8 4 :=
  ⟨0, 1, 0, { pRd with dst := 0, key := 3 }, (up.setRt 0 { inq := [{ pkt := { pRd with dst := 0, key := 3 }, inp := 1, vc := 0 }], links := [(1, { nakFor := some 3, failRun := 0 })] }).setRt 1
    { links := [(0, { sent := 1, replaying := true })] }, by decide +kernel⟩
theorem witness_FlitsCross_10 : ∃ (u : Fin 64) (i : Fin 16) (h : Nat) (p : Pkt) (s : State),
    flitComes s u i p ∧ (linkOf s u i).nakFor.isSome = true ∧ (linkOf s (across u i) (portTo (across u i) u)).replaying = true ∧ sliceOf s u i 0 = h ∧ getFld s (rtrReg u Off.RTR_LNK_CFG) 8 4 ≤ (linkOf s u i).failRun + 1 ∧ rxFenced s u i (1 - h) = false ∧ eventPasses s (.rtr u) :=
  ⟨0, 1, 0, { pRd with dst := 0, key := 3 }, (up.setRt 0 { inq := [{ pkt := { pRd with dst := 0, key := 3 }, inp := 1, vc := 0 }], links := [(1, { nakFor := some 3, failRun := 14 })] }).setRt 1
    { links := [(0, { sent := 1, replaying := true })] }, by decide +kernel⟩
theorem witness_FlitsCross_11 : ∃ (u : Fin 64) (i : Fin 16) (p : Pkt) (s : State),
    flitComes s u i p ∧ newFlit s u i ∧ (s.ta u).entering.isSome = true ∧ (s.rt u).trail.find? (fun f => decide (f.pkt.key = p.key)) = none :=
  ⟨0, 1, { pRd with dst := 0, key := 3 }, (up.setRt 0 { inq := [{ pkt := { pRd with dst := 0, key := 3 }, inp := 1, vc := 0 }] }).setTa 0 { entering := some 5 }, by decide +kernel⟩
theorem witness_PipsAndResync_1 : ∃ (u : Fin 64) (o : Fin 23) (p : Pip) (rest : List Pip) (s : State),
    takeFirst (fun p => decide (p.key = o.val)) (s.rt u).pips = some (p, rest) ∧ (cntOf s u o).deficit = 0 ∧ (resyncOf s (if o.val < 16 then across u o else u) (if o.val < 16 then portTo (across u o) u else o)).isNone = true :=
  ⟨0, 1, ⟨1, 4, 0⟩, [], (up.setReg (pwrReg Off.PWR_PROFILE_STAT) 8).setRt 0 { pips := [⟨1, 4, 0⟩], cnts := [(1, setVc {} 4 1)] }, by decide +kernel⟩
theorem witness_PipsAndResync_2 : ∃ (u : Fin 64) (i : Fin 16) (h : Fin 2) (s : State),
    (if h = 0 then (linkOf s u i).parity0 else (linkOf s u i).parity1) + 1 < getFld s (rtrReg u Off.RTR_LNK_CFG) 8 4 ∧ isLink u i = true :=
  ⟨0, 1, 0, up.setRt 0 { pips := [⟨1, 4, 0⟩] }, by decide +kernel⟩
theorem witness_PipsAndResync_3 : ∃ (u : Fin 64) (i : Fin 23) (r : ResyncSt) (s : State),
    resyncOf s u i = some r ∧ r.phase = .req :=
  ⟨0, 1, { port := 1, phase := .req, half := true }, up.setRt 0 { resync := [{ port := 1, phase := .req, half := true }] }, by decide +kernel⟩
theorem witness_PipsAndResync_4 : ∃ (u : Fin 64) (i : Fin 23) (r : ResyncSt) (s : State),
    resyncOf s u i = some r ∧ r.phase = .mark ∧ portQuiet s u i = true :=
  ⟨0, 1, { port := 1, phase := .mark, half := true }, (up.setRt 0 { resync := [{ port := 1, phase := .mark, half := true }] }).setRt 1 { pips := [⟨0, 4, 0⟩] }, by decide +kernel⟩
theorem witness_PipsAndResync_5 : ∃ (u : Fin 64) (i : Fin 23) (r : ResyncSt) (s : State),
    resyncOf s u i = some r ∧ r.phase = .grant :=
  ⟨0, 1, { port := 1, phase := .grant, half := true }, (up.setReg (pwrReg Off.PWR_PROFILE_STAT) 8).setRt 0 { resync := [{ port := 1, phase := .grant, half := true }] }, by decide +kernel⟩
theorem witness_LinksChangeForm_1 : ∃ (u : Fin 64) (i : Fin 16) (h : Fin 2) (s : State),
    (txFenced s (across u i) (portTo (across u i) u) h && rxFenced s u i h) = false ∧ (txFenced s (across u i) (portTo (across u i) u) h || (fenceWanted s (across u i) (portTo (across u i) u) h && storeEmpty (linkOf s (across u i) (portTo (across u i) u)))) = true ∧ rxFenced s u i (1 - h) = false :=
  ⟨0, 1, 1, up.setReg (slcReg 1 1 (Off.LNK_CTRL 0)) 1, by decide +kernel⟩
theorem witness_LinksChangeForm_2 : ∃ (u : Fin 64) (i : Fin 16) (h : Fin 2) (s : State),
    rxFenced s u i h = true ∧ fenceWanted s (across u i) (portTo (across u i) u) h = false ∧ storeEmpty (linkOf s (across u i) (portTo (across u i) u)) = true :=
  ⟨0, 1, 1, (up.setReg (slcReg 1 1 (Off.LNK_STAT 0)) 1).setReg (slcReg 0 1 (Off.LNK_STAT 1)) 2, by decide +kernel⟩
theorem witness_LinksChangeForm_3 : ∃ (u : Fin 64) (i : Fin 16) (s : State),
    isLink u i = true ∧ eventPasses s (.rtr (across u i)) ∧ (s.rt u).inq = [] ∧ (s.rt u).trail = [] ∧ (s.rt (across u i)).inq = [] ∧ (s.rt (across u i)).trail = [] :=
  ⟨0, 1, up, by decide +kernel⟩
theorem witness_LinksChangeForm_4 : ∃ (u : Fin 64) (o : Fin 23) (s : State),
    readyHeads s u o ≠ [] ∧ eventPasses s (.rtr u) :=
  ⟨9, 2, up.setRt 9 { inq := [{ pkt := { pRd with dst := 13, key := 3, sc := 6 }, inp := 16, vc := 0, arrived := 1, out := some 2, since := some 0 }] }, by decide +kernel⟩
theorem witness_TileMemoryReads_1_a : ∃ (u : Fin 64) (r : TReq) (q : List TReq) (s : State),
    (s.tmc u).q = r :: q ∧ noEntryNext q ∧ r.pkt.opc = Opc.RD ∧ (r.pkt.isLdres && viaFabric r) = false ∧ (∀ a ∈ ((List.range r.pkt.cnt).map (fun i => tmemAddr u (offOf r.pkt + i))), isPoison s a = false) :=
  ⟨0, { pkt := pRd, via := .fabric }, [], (up.setWord 0x100000000 7).setTmc 0 { q := [{ pkt := pRd, via := .fabric }] }, by decide +kernel⟩
theorem witness_TileMemoryReads_1_b : ∃ (u : Fin 64) (r : TReq) (q : List TReq) (s : State),
    (s.tmc u).q = r :: q ∧ noEntryNext q ∧ r.pkt.opc = Opc.RD ∧ (r.pkt.isLdres && viaFabric r) = false ∧ (∀ a ∈ ((List.range r.pkt.cnt).map (fun i => tmemAddr u (offOf r.pkt + i))), isPoison s a = false) :=
  ⟨0, { pkt := pRd, via := .mem .hrp }, [], ({ up with hrpQ := [{ id := 1, wr := false, len := 1 }] }).setTmc 0 { q := [{ pkt := pRd, via := .mem .hrp }] }, by decide +kernel⟩
theorem witness_TileMemoryReads_2 : ∃ (u : Fin 64) (r : TReq) (q : List TReq) (s : State),
    (s.tmc u).q = r :: q ∧ noEntryNext q ∧ r.pkt.opc = Opc.RD ∧ (r.pkt.isLdres && viaFabric r) = false ∧ (∀ a ∈ ((List.range r.pkt.cnt).map (fun i => tmemAddr u (offOf r.pkt + i))), isPoison s a = false) ∧ r.pkt.cnt = 1 :=
  ⟨0, { pkt := pRd, via := .fabric }, [], (up.setWord 0x100000000 7).setTmc 0 { q := [{ pkt := pRd, via := .fabric }] }, by decide +kernel⟩
theorem witness_TileMemoryReads_3 : ∃ (u : Fin 64) (r : TReq) (q : List TReq) (s : State),
    (s.tmc u).q = r :: q ∧ noEntryNext q ∧ r.pkt.opc = Opc.RD ∧ (r.pkt.isLdres && viaFabric r) = false ∧ r.pkt.cnt = 1 ∧ isPoison s (tmemAddr u (offOf r.pkt)) = false :=
  ⟨0, { pkt := pRd, via := .fabric }, [], (up.setWord 0x100000000 7).setTmc 0 { q := [{ pkt := pRd, via := .fabric }] }, by decide +kernel⟩
theorem witness_TileMemoryReads_4 : ∃ (u : Fin 64) (r : TReq) (q : List TReq) (s : State),
    (s.tmc u).q = r :: q ∧ noEntryNext q ∧ r.pkt.isLdres = true ∧ r.via = .fabric ∧ (∀ a ∈ ((List.range r.pkt.cnt).map (fun i => tmemAddr u (offOf r.pkt + i))), isPoison s a = false) :=
  ⟨0, { pkt := { pRd with flg := 1 }, via := .fabric }, [], (up.setWord 0x100000000 7).setTmc 0 { q := [{ pkt := { pRd with flg := 1 }, via := .fabric }] }, by decide +kernel⟩
theorem witness_TileMemoryReads_5_a : ∃ (u : Fin 64) (e : MemErr) (r : TReq) (q : List TReq) (j : Nat) (vs : List (Option W)) (s : State),
    (s.tmc u).q = r :: q ∧ noEntryNext q ∧ r.pkt.opc = Opc.RD ∧ (r.pkt.isLdres && viaFabric r) = false ∧ j = (if e = .clean ∨ r.pkt.cnt ≤ 1 then 0 else (Config.freeWord s.freeN).toNat % r.pkt.cnt) ∧ vs = (List.range r.pkt.cnt).map (fun i => if isPoison s (tmemAddr u (offOf r.pkt + i)) = true ∨ e = .ue ∧ i = j then none else some (s.word (tmemAddr u (offOf r.pkt + i)))) :=
  ⟨0, .clean, { pkt := { pRd with cnt := 3, len := 0 }, via := .fabric }, [], 0, [some 0, some 7, none],
    { (up.setWord 0x100000001 7).setTmc 0 { q := [{ pkt := { pRd with cnt := 3, len := 0 }, via := .fabric }] } with poison := [0x100000002] }, by decide +kernel⟩
theorem witness_TileMemoryReads_5_b : ∃ (u : Fin 64) (e : MemErr) (r : TReq) (q : List TReq) (j : Nat) (vs : List (Option W)) (s : State),
    (s.tmc u).q = r :: q ∧ noEntryNext q ∧ r.pkt.opc = Opc.RD ∧ (r.pkt.isLdres && viaFabric r) = false ∧ j = (if e = .clean ∨ r.pkt.cnt ≤ 1 then 0 else (Config.freeWord s.freeN).toNat % r.pkt.cnt) ∧ vs = (List.range r.pkt.cnt).map (fun i => if isPoison s (tmemAddr u (offOf r.pkt + i)) = true ∨ e = .ue ∧ i = j then none else some (s.word (tmemAddr u (offOf r.pkt + i)))) :=
  ⟨0, .ce, { pkt := { pRd with cnt := 1, len := 0 }, via := .mem .hrp }, [], 0, [some 7],
    ({ up.setWord 0x100000000 7 with hrpQ := [{ id := 1, wr := false, len := 1 }] }).setTmc 0 { q := [{ pkt := { pRd with cnt := 1, len := 0 }, via := .mem .hrp }] }, by decide +kernel⟩
theorem witness_TileMemoryReads_6_a : ∃ (u : Fin 64) (e : MemErr) (r : TReq) (q : List TReq) (j : Nat) (vs : List (Option W)) (s : State),
    (s.tmc u).q = r :: q ∧ noEntryNext q ∧ r.pkt.isLdres = true ∧ r.via = .fabric ∧ j = (if e = .clean ∨ r.pkt.cnt ≤ 1 then 0 else (Config.freeWord s.freeN).toNat % r.pkt.cnt) ∧ vs = (List.range r.pkt.cnt).map (fun i => if isPoison s (tmemAddr u (offOf r.pkt + i)) = true ∨ e = .ue ∧ i = j then none else some (s.word (tmemAddr u (offOf r.pkt + i)))) :=
  ⟨0, .ce, { pkt := { pRd with flg := 1 }, via := .fabric }, [], 0, [some 7],
    (up.setWord 0x100000000 7).setTmc 0 { q := [{ pkt := { pRd with flg := 1 }, via := .fabric }] }, by decide +kernel⟩
theorem witness_TileMemoryReads_6_b : ∃ (u : Fin 64) (e : MemErr) (r : TReq) (q : List TReq) (j : Nat) (vs : List (Option W)) (s : State),
    (s.tmc u).q = r :: q ∧ noEntryNext q ∧ r.pkt.isLdres = true ∧ r.via = .fabric ∧ j = (if e = .clean ∨ r.pkt.cnt ≤ 1 then 0 else (Config.freeWord s.freeN).toNat % r.pkt.cnt) ∧ vs = (List.range r.pkt.cnt).map (fun i => if isPoison s (tmemAddr u (offOf r.pkt + i)) = true ∨ e = .ue ∧ i = j then none else some (s.word (tmemAddr u (offOf r.pkt + i)))) :=
  ⟨0, .ue, { pkt := { pRd with flg := 1 }, via := .fabric }, [], 0, [none],
    (up.setWord 0x100000000 7).setTmc 0 { q := [{ pkt := { pRd with flg := 1 }, via := .fabric }] }, by decide +kernel⟩
theorem witness_TileMemoryReads_5_c : ∃ (u : Fin 64) (e : MemErr) (r : TReq) (q : List TReq) (j : Nat) (vs : List (Option W)) (s : State),
    (s.tmc u).q = r :: q ∧ noEntryNext q ∧ r.pkt.opc = Opc.RD ∧ (r.pkt.isLdres && viaFabric r) = false ∧ j = (if e = .clean ∨ r.pkt.cnt ≤ 1 then 0 else (Config.freeWord s.freeN).toNat % r.pkt.cnt) ∧ vs = (List.range r.pkt.cnt).map (fun i => if isPoison s (tmemAddr u (offOf r.pkt + i)) = true ∨ e = .ue ∧ i = j then none else some (s.word (tmemAddr u (offOf r.pkt + i)))) :=
  ⟨0, .ue, { pkt := { pRd with cnt := 1, len := 0 }, via := .mem .hrp }, [], 0, [none],
    ({ up.setWord 0x100000000 7 with hrpQ := [{ id := 1, wr := false, len := 1 }] }).setTmc 0 { q := [{ pkt := { pRd with cnt := 1, len := 0 }, via := .mem .hrp }] }, by decide +kernel⟩
theorem witness_TileMemoryWrites_1 : ∃ (u : Fin 64) (r : TReq) (q : List TReq) (s : State),
    (s.tmc u).q = r :: q ∧ noEntryNext q ∧ r.pkt.opc = Opc.WR ∧ r.pkt.isStcond = false :=
  ⟨0, { pkt := pWr, via := .fabric }, [], up.setTmc 0 { q := [{ pkt := pWr, via := .fabric }], resv := [(0, 0x100000000), (9, 0x100000000), (9, 0x100000010)] }, by decide +kernel⟩
theorem witness_TileMemoryWrites_2 : ∃ (u : Fin 64) (r : TReq) (q : List TReq) (s : State),
    (s.tmc u).q = r :: q ∧ noEntryNext q ∧ r.pkt.isStcond = true ∧ r.via = .fabric ∧ (r.pkt.src, ((tmemAddr u (offOf r.pkt)) / 16 * 16)) ∈ (s.tmc u).resv ∧ r.pkt.cnt = 1 :=
  ⟨0, { pkt := { pWr with flg := 1 }, via := .fabric }, [], up.setTmc 0 { q := [{ pkt := { pWr with flg := 1 }, via := .fabric }], resv := [(0, 0x100000000), (9, 0x100000000), (9, 0x100000010)] }, by decide +kernel⟩
theorem witness_TileMemoryWrites_3 : ∃ (u : Fin 64) (r : TReq) (q : List TReq) (s : State),
    (s.tmc u).q = r :: q ∧ noEntryNext q ∧ r.pkt.isStcond = true ∧ (r.pkt.src, ((tmemAddr u (offOf r.pkt)) / 16 * 16)) ∉ (s.tmc u).resv ∧ r.via = .fabric :=
  ⟨0, { pkt := { pWr with flg := 1 }, via := .fabric }, [], up.setTmc 0 { q := [{ pkt := { pWr with flg := 1 }, via := .fabric }], resv := [(0, 0x100000010)] }, by decide +kernel⟩
theorem witness_TileMemoryWrites_4 : ∃ (u : Fin 64) (r : TReq) (q : List TReq) (s : State),
    (s.tmc u).q = r :: q ∧ noEntryNext q ∧ r.pkt.isStcond = true ∧ r.via ≠ .fabric :=
  ⟨0, { pkt := { pWr with flg := 1 }, via := .mem (.core 0) }, [], up.setTmc 0 { q := [{ pkt := { pWr with flg := 1 }, via := .mem (.core 0) }], resv := [(0, 0x100000000)] }, by decide +kernel⟩
theorem witness_TileMemoryWrites_5 : ∃ (u : Fin 64) (r : TReq) (e : TReq) (q : List TReq) (s : State),
    (s.tmc u).q = r :: e :: q ∧ r.pkt.opc = Opc.WR ∧ r.pkt.isStcond = false ∧ e.via = .entry ∧ noEntryNext q :=
  ⟨0, { pkt := pWr }, { pkt := { pWr with arg := 0x100000005, words := [9] }, via := .entry }, [], up.setTmc 0 { q := [{ pkt := pWr }, { pkt := { pWr with arg := 0x100000005, words := [9] }, via := .entry }] }, by decide +kernel⟩
theorem witness_TileMemoryWrites_1_c : ∃ (u : Fin 64) (r : TReq) (q : List TReq) (s : State),
    (s.tmc u).q = r :: q ∧ noEntryNext q ∧ r.pkt.opc = Opc.WR ∧ r.pkt.isStcond = false :=
  ⟨0, { pkt := pWr, via := .mem (.core 0) }, [], up.setTmc 0 { q := [{ pkt := pWr, via := .mem (.core 0) }], resv := [(0, 0x100000000)] }, by decide +kernel⟩
theorem witness_FarOperationsOnWords_1_a : ∃ (u : Fin 64) (r : TReq) (q : List TReq) (s : State),
    (s.tmc u).q = r :: q ∧ noEntryNext q ∧ r.pkt.opc = Opc.FOP ∧ fopSub r.pkt.cnt = 0 ∧ isPoison s (tmemAddr u (offOf r.pkt + (s.tmc u).fopDone)) = false :=
  ⟨0, { pkt := { pWr with opc := 3, cnt := 32, flg := 0, words := [3, 4] }, via := .fabric }, [], ((up.setWord 0x100000001 12).setWord 0x100000000 9).setTmc 0 { q := [{ pkt := { pWr with opc := 3, cnt := 32, flg := 0, words := [3, 4] }, via := .fabric }], fopDone := 1, fopOld := [5], resv := [(0, 0x100000000), (9, 0x100000000)] }, by decide +kernel⟩
theorem witness_FarOperationsOnWords_1_b : ∃ (u : Fin 64) (r : TReq) (q : List TReq) (s : State),
    (s.tmc u).q = r :: q ∧ noEntryNext q ∧ r.pkt.opc = Opc.FOP ∧ fopSub r.pkt.cnt = 0 ∧ isPoison s (tmemAddr u (offOf r.pkt + (s.tmc u).fopDone)) = false :=
  ⟨0, { pkt := { pWr with opc := 3, cnt := 64, flg := 1, words := [3, 4] }, via := .fabric }, [], ((up.setWord 0x100000001 12).setWord 0x100000000 9).setTmc 0 { q := [{ pkt := { pWr with opc := 3, cnt := 64, flg := 1, words := [3, 4] }, via := .fabric }] }, by decide +kernel⟩
theorem witness_FarOperationsOnWords_2_a : ∃ (u : Fin 64) (r : TReq) (q : List TReq) (s : State),
    (s.tmc u).q = r :: q ∧ noEntryNext q ∧ r.pkt.opc = Opc.FOP ∧ fopSub r.pkt.cnt = 2 ∧ isPoison s (tmemAddr u (offOf r.pkt + (s.tmc u).fopDone)) = false :=
  ⟨0, { pkt := { pWr with opc := 3, cnt := 34, flg := 0, words := [3, 4] }, via := .fabric }, [], ((up.setWord 0x100000001 12).setWord 0x100000000 9).setTmc 0 { q := [{ pkt := { pWr with opc := 3, cnt := 34, flg := 0, words := [3, 4] }, via := .fabric }], fopDone := 1, fopOld := [5], resv := [(0, 0x100000000), (9, 0x100000000)] }, by decide +kernel⟩
theorem witness_FarOperationsOnWords_2_b : ∃ (u : Fin 64) (r : TReq) (q : List TReq) (s : State),
    (s.tmc u).q = r :: q ∧ noEntryNext q ∧ r.pkt.opc = Opc.FOP ∧ fopSub r.pkt.cnt = 2 ∧ isPoison s (tmemAddr u (offOf r.pkt + (s.tmc u).fopDone)) = false :=
  ⟨0, { pkt := { pWr with opc := 3, cnt := 66, flg := 1, words := [3, 4] }, via := .fabric }, [], ((up.setWord 0x100000001 12).setWord 0x100000000 9).setTmc 0 { q := [{ pkt := { pWr with opc := 3, cnt := 66, flg := 1, words := [3, 4] }, via := .fabric }] }, by decide +kernel⟩
theorem witness_FarOperationsOnWords_3_a : ∃ (u : Fin 64) (r : TReq) (q : List TReq) (s : State),
    (s.tmc u).q = r :: q ∧ noEntryNext q ∧ r.pkt.opc = Opc.FOP ∧ fopSub r.pkt.cnt = 4 ∧ isPoison s (tmemAddr u (offOf r.pkt + (s.tmc u).fopDone)) = false :=
  ⟨0, { pkt := { pWr with opc := 3, cnt := 36, flg := 0, words := [30, 4] }, via := .fabric }, [], ((up.setWord 0x100000001 12).setWord 0x100000000 9).setTmc 0 { q := [{ pkt := { pWr with opc := 3, cnt := 36, flg := 0, words := [30, 4] }, via := .fabric }], fopDone := 1, fopOld := [5], resv := [(0, 0x100000000), (9, 0x100000000)] }, by decide +kernel⟩
theorem witness_FarOperationsOnWords_3_b : ∃ (u : Fin 64) (r : TReq) (q : List TReq) (s : State),
    (s.tmc u).q = r :: q ∧ noEntryNext q ∧ r.pkt.opc = Opc.FOP ∧ fopSub r.pkt.cnt = 4 ∧ isPoison s (tmemAddr u (offOf r.pkt + (s.tmc u).fopDone)) = false :=
  ⟨0, { pkt := { pWr with opc := 3, cnt := 68, flg := 1, words := [30, 4] }, via := .fabric }, [], ((up.setWord 0x100000001 12).setWord 0x100000000 9).setTmc 0 { q := [{ pkt := { pWr with opc := 3, cnt := 68, flg := 1, words := [30, 4] }, via := .fabric }] }, by decide +kernel⟩
theorem witness_FarOperationsOnWords_4_a : ∃ (u : Fin 64) (r : TReq) (q : List TReq) (s : State),
    (s.tmc u).q = r :: q ∧ noEntryNext q ∧ r.pkt.opc = Opc.FOP ∧ fopSub r.pkt.cnt = 5 ∧ isPoison s (tmemAddr u (offOf r.pkt + (s.tmc u).fopDone)) = false :=
  ⟨0, { pkt := { pWr with opc := 3, cnt := 37, flg := 0, words := [30, 4] }, via := .fabric }, [], ((up.setWord 0x100000001 12).setWord 0x100000000 9).setTmc 0 { q := [{ pkt := { pWr with opc := 3, cnt := 37, flg := 0, words := [30, 4] }, via := .fabric }], fopDone := 1, fopOld := [5], resv := [(0, 0x100000000), (9, 0x100000000)] }, by decide +kernel⟩
theorem witness_FarOperationsOnWords_4_b : ∃ (u : Fin 64) (r : TReq) (q : List TReq) (s : State),
    (s.tmc u).q = r :: q ∧ noEntryNext q ∧ r.pkt.opc = Opc.FOP ∧ fopSub r.pkt.cnt = 5 ∧ isPoison s (tmemAddr u (offOf r.pkt + (s.tmc u).fopDone)) = false :=
  ⟨0, { pkt := { pWr with opc := 3, cnt := 69, flg := 1, words := [30, 4] }, via := .fabric }, [], ((up.setWord 0x100000001 12).setWord 0x100000000 9).setTmc 0 { q := [{ pkt := { pWr with opc := 3, cnt := 69, flg := 1, words := [30, 4] }, via := .fabric }] }, by decide +kernel⟩
theorem witness_FarOperationsOnWords_5_a : ∃ (u : Fin 64) (r : TReq) (q : List TReq) (s : State),
    (s.tmc u).q = r :: q ∧ noEntryNext q ∧ r.pkt.opc = Opc.FOP ∧ fopSub r.pkt.cnt = 6 ∧ isPoison s (tmemAddr u (offOf r.pkt + (s.tmc u).fopDone)) = false :=
  ⟨0, { pkt := { pWr with opc := 3, cnt := 38, flg := 0, words := [30, 4] }, via := .fabric }, [], ((up.setWord 0x100000001 12).setWord 0x100000000 9).setTmc 0 { q := [{ pkt := { pWr with opc := 3, cnt := 38, flg := 0, words := [30, 4] }, via := .fabric }], fopDone := 1, fopOld := [5], resv := [(0, 0x100000000), (9, 0x100000000)] }, by decide +kernel⟩
theorem witness_FarOperationsOnWords_5_b : ∃ (u : Fin 64) (r : TReq) (q : List TReq) (s : State),
    (s.tmc u).q = r :: q ∧ noEntryNext q ∧ r.pkt.opc = Opc.FOP ∧ fopSub r.pkt.cnt = 6 ∧ isPoison s (tmemAddr u (offOf r.pkt + (s.tmc u).fopDone)) = false :=
  ⟨0, { pkt := { pWr with opc := 3, cnt := 70, flg := 1, words := [30, 4] }, via := .fabric }, [], ((up.setWord 0x100000001 12).setWord 0x100000000 9).setTmc 0 { q := [{ pkt := { pWr with opc := 3, cnt := 70, flg := 1, words := [30, 4] }, via := .fabric }] }, by decide +kernel⟩
theorem witness_FarOperationsOnWords_6_a : ∃ (u : Fin 64) (r : TReq) (q : List TReq) (s : State),
    (s.tmc u).q = r :: q ∧ noEntryNext q ∧ r.pkt.opc = Opc.FOP ∧ fopSub r.pkt.cnt = 7 ∧ isPoison s (tmemAddr u (offOf r.pkt + (s.tmc u).fopDone)) = false :=
  ⟨0, { pkt := { pWr with opc := 3, cnt := 39, flg := 0, words := [30, 4] }, via := .fabric }, [], ((up.setWord 0x100000001 12).setWord 0x100000000 9).setTmc 0 { q := [{ pkt := { pWr with opc := 3, cnt := 39, flg := 0, words := [30, 4] }, via := .fabric }], fopDone := 1, fopOld := [5], resv := [(0, 0x100000000), (9, 0x100000000)] }, by decide +kernel⟩
theorem witness_FarOperationsOnWords_6_b : ∃ (u : Fin 64) (r : TReq) (q : List TReq) (s : State),
    (s.tmc u).q = r :: q ∧ noEntryNext q ∧ r.pkt.opc = Opc.FOP ∧ fopSub r.pkt.cnt = 7 ∧ isPoison s (tmemAddr u (offOf r.pkt + (s.tmc u).fopDone)) = false :=
  ⟨0, { pkt := { pWr with opc := 3, cnt := 71, flg := 1, words := [30, 4] }, via := .fabric }, [], ((up.setWord 0x100000001 12).setWord 0x100000000 9).setTmc 0 { q := [{ pkt := { pWr with opc := 3, cnt := 71, flg := 1, words := [30, 4] }, via := .fabric }] }, by decide +kernel⟩
theorem witness_FarOperationsOnWords_7_a : ∃ (u : Fin 64) (r : TReq) (q : List TReq) (s : State),
    (s.tmc u).q = r :: q ∧ noEntryNext q ∧ r.pkt.opc = Opc.FOP ∧ fopSub r.pkt.cnt = 3 ∧ isPoison s (tmemAddr u (offOf r.pkt + (s.tmc u).fopDone)) = false :=
  ⟨0, { pkt := { pWr with opc := 3, cnt := 35, flg := 0, words := [9, 4, 12, 6, 7, 8] }, via := .fabric }, [], ((up.setWord 0x100000001 12).setWord 0x100000000 9).setTmc 0 { q := [{ pkt := { pWr with opc := 3, cnt := 35, flg := 0, words := [9, 4, 12, 6, 7, 8] }, via := .fabric }], fopDone := 1, fopOld := [5], resv := [(0, 0x100000000), (9, 0x100000000)] }, by decide +kernel⟩
theorem witness_FarOperationsOnWords_7_b : ∃ (u : Fin 64) (r : TReq) (q : List TReq) (s : State),
    (s.tmc u).q = r :: q ∧ noEntryNext q ∧ r.pkt.opc = Opc.FOP ∧ fopSub r.pkt.cnt = 3 ∧ isPoison s (tmemAddr u (offOf r.pkt + (s.tmc u).fopDone)) = false :=
  ⟨0, { pkt := { pWr with opc := 3, cnt := 67, flg := 1, words := [9, 4, 12, 6, 7, 8] }, via := .fabric }, [], ((up.setWord 0x100000001 12).setWord 0x100000000 9).setTmc 0 { q := [{ pkt := { pWr with opc := 3, cnt := 67, flg := 1, words := [9, 4, 12, 6, 7, 8] }, via := .fabric }] }, by decide +kernel⟩
theorem witness_FarOperationsOnPairsAndPoison_1_a : ∃ (u : Fin 64) (r : TReq) (q : List TReq) (s : State),
    (s.tmc u).q = r :: q ∧ noEntryNext q ∧ r.pkt.opc = Opc.FOP ∧ fopSub r.pkt.cnt = 1 ∧ isPoison s (tmemAddr u (offOf r.pkt + 2 * (s.tmc u).fopDone)) = false ∧ isPoison s ((tmemAddr u (offOf r.pkt + 2 * (s.tmc u).fopDone)) + 1) = false :=
  ⟨0, { pkt := { pWr with opc := 3, cnt := 1, flg := 0, words := [1, 2] }, via := .fabric }, [], ((up.setWord 0x100000000 0xFFFFFFFFF).setWord 0x100000001 12).setTmc 0 { q := [{ pkt := { pWr with opc := 3, cnt := 1, flg := 0, words := [1, 2] }, via := .fabric }] }, by decide +kernel⟩
theorem witness_FarOperationsOnPairsAndPoison_1_b : ∃ (u : Fin 64) (r : TReq) (q : List TReq) (s : State),
    (s.tmc u).q = r :: q ∧ noEntryNext q ∧ r.pkt.opc = Opc.FOP ∧ fopSub r.pkt.cnt = 1 ∧ isPoison s (tmemAddr u (offOf r.pkt + 2 * (s.tmc u).fopDone)) = false ∧ isPoison s ((tmemAddr u (offOf r.pkt + 2 * (s.tmc u).fopDone)) + 1) = false :=
  ⟨0, { pkt := { pWr with opc := 3, cnt := 33, flg := 0, words := [1, 2, 3, 4] }, via := .fabric }, [], ((up.setWord 0x100000000 0xFFFFFFFFF).setWord 0x100000001 12).setTmc 0 { q := [{ pkt := { pWr with opc := 3, cnt := 33, flg := 0, words := [1, 2, 3, 4] }, via := .fabric }] }, by decide +kernel⟩
theorem witness_FarOperationsOnPairsAndPoison_2 : ∃ (u : Fin 64) (sub : Nat) (e : MemErr) (r : TReq) (q : List TReq) (a : Nat) (s : State),
    (s.tmc u).q = r :: q ∧ noEntryNext q ∧ r.pkt.opc = Opc.FOP ∧ fopSub r.pkt.cnt = sub ∧ a = tmemAddr u (offOf r.pkt + (s.tmc u).fopDone) ∧ (isPoison s a = true ∨ e = .ue) :=
  ⟨0, 0, .clean, { pkt := { pWr with opc := 3, cnt := 32, flg := 0, words := [1, 2, 3, 4] }, via := .fabric }, [], 0x100000001, ({ up with poison := [0x100000001] }).setTmc 0 { q := [{ pkt := { pWr with opc := 3, cnt := 32, flg := 0, words := [1, 2, 3, 4] }, via := .fabric }], fopDone := 1, fopOld := [5] }, by decide +kernel⟩
theorem witness_FarOperationsOnPairsAndPoison_3 : ∃ (u : Fin 64) (e : MemErr) (r : TReq) (q : List TReq) (a : Nat) (j : Nat) (vs : List (Option W)) (s : State),
    (s.tmc u).q = r :: q ∧ noEntryNext q ∧ r.pkt.opc = Opc.FOP ∧ fopSub r.pkt.cnt = 1 ∧ a = tmemAddr u (offOf r.pkt + 2 * (s.tmc u).fopDone) ∧ j = (if e = .clean then 0 else (Config.freeWord s.freeN).toNat % 2) ∧ vs = [0, 1].map (fun i => if isPoison s (a + i) = true ∨ e = .ue ∧ i = j then none else some (s.word (a + i))) ∧ none ∈ vs :=
  ⟨0, .clean, { pkt := { pWr with opc := 3, cnt := 1, flg := 0, words := [1, 2] }, via := .fabric }, [], 0x100000000, 0, [some 0, none], ({ up with poison := [0x100000001] }).setTmc 0 { q := [{ pkt := { pWr with opc := 3, cnt := 1, flg := 0, words := [1, 2] }, via := .fabric }] }, by decide +kernel⟩
theorem witness_FarOperationsOnPairsAndPoison_2_b : ∃ (u : Fin 64) (sub : Nat) (e : MemErr) (r : TReq) (q : List TReq) (a : Nat) (s : State),
    (s.tmc u).q = r :: q ∧ noEntryNext q ∧ r.pkt.opc = Opc.FOP ∧ fopSub r.pkt.cnt = sub ∧ a = tmemAddr u (offOf r.pkt + (s.tmc u).fopDone) ∧ (isPoison s a = true ∨ e = .ue) :=
  ⟨0, 2, .ue, { pkt := { pWr with opc := 3, cnt := 2, flg := 0, words := [1] }, via := .fabric }, [], 0x100000000, up.setTmc 0 { q := [{ pkt := { pWr with opc := 3, cnt := 2, flg := 0, words := [1] }, via := .fabric }] }, by decide +kernel⟩
theorem witness_LocksAcquired_1_a : ∃ (u : Fin 64) (r : TReq) (q : List TReq) (s : State),
    (s.tmc u).q = r :: q ∧ noEntryNext q ∧ r.pkt.opc = Opc.LKACQ ∧ isPoison s (tmemAddr u (offOf r.pkt)) = false ∧ isPoison s ((tmemAddr u (offOf r.pkt)) + 1) = false ∧ lkHeld (s.word (tmemAddr u (offOf r.pkt))) = false :=
  ⟨0, { pkt := { pWr with opc := Opc.LKACQ, cnt := 0, words := [W.at 0 16 50 ||| W.at 16 8 1] }, via := .fabric }, [], ((((up.setWord 0x100000000 (lkWord 9 1 false false)).setWord 0x100000001 (leaseWord 5 40)).setReg (epochReg 0 0) 1).setReg (epochReg 0 9) 1).setTmc 0 { q := [{ pkt := { pWr with opc := Opc.LKACQ, cnt := 0, words := [W.at 0 16 50 ||| W.at 16 8 1] }, via := .fabric }], resv := [(9, 0x100000000)] }, by decide +kernel⟩
theorem witness_LocksAcquired_1_b : ∃ (u : Fin 64) (r : TReq) (q : List TReq) (s : State),
    (s.tmc u).q = r :: q ∧ noEntryNext q ∧ r.pkt.opc = Opc.LKACQ ∧ isPoison s (tmemAddr u (offOf r.pkt)) = false ∧ isPoison s ((tmemAddr u (offOf r.pkt)) + 1) = false ∧ lkHeld (s.word (tmemAddr u (offOf r.pkt))) = false :=
  ⟨0, { pkt := { pWr with opc := Opc.LKACQ, cnt := 0, words := [W.at 0 16 50 ||| W.at 16 8 1] }, via := .mem (.core 1) }, [], ((((up.setWord 0x100000000 (lkWord 9 1 false false)).setWord 0x100000001 (leaseWord 5 40)).setReg (epochReg 0 0) 1).setReg (epochReg 0 9) 1).setTmc 0 { q := [{ pkt := { pWr with opc := Opc.LKACQ, cnt := 0, words := [W.at 0 16 50 ||| W.at 16 8 1] }, via := .mem (.core 1) }] }, by decide +kernel⟩
theorem witness_LocksAcquired_2_a : ∃ (u : Fin 64) (r : TReq) (q : List TReq) (s : State),
    (s.tmc u).q = r :: q ∧ noEntryNext q ∧ r.pkt.opc = Opc.LKACQ ∧ isPoison s (tmemAddr u (offOf r.pkt)) = false ∧ isPoison s ((tmemAddr u (offOf r.pkt)) + 1) = false ∧ (ownLive (takeEpoch s u r.pkt.src ((wordAt r.pkt.words 0).fld 16 8)) u r.pkt (s.word (tmemAddr u (offOf r.pkt))) (s.word ((tmemAddr u (offOf r.pkt)) + 1))) = true :=
  ⟨0, { pkt := { pWr with opc := Opc.LKACQ, cnt := 0, words := [W.at 0 16 50 ||| W.at 16 8 1] }, via := .fabric }, [], ((((up.setWord 0x100000000 (lkWord 0 1 true false)).setWord 0x100000001 (leaseWord 5 40)).setReg (epochReg 0 0) 1).setReg (epochReg 0 9) 1).setTmc 0 { q := [{ pkt := { pWr with opc := Opc.LKACQ, cnt := 0, words := [W.at 0 16 50 ||| W.at 16 8 1] }, via := .fabric }], resv := [(9, 0x100000000)] }, by decide +kernel⟩
theorem witness_LocksAcquired_2_b : ∃ (u : Fin 64) (r : TReq) (q : List TReq) (s : State),
    (s.tmc u).q = r :: q ∧ noEntryNext q ∧ r.pkt.opc = Opc.LKACQ ∧ isPoison s (tmemAddr u (offOf r.pkt)) = false ∧ isPoison s ((tmemAddr u (offOf r.pkt)) + 1) = false ∧ (ownLive (takeEpoch s u r.pkt.src ((wordAt r.pkt.words 0).fld 16 8)) u r.pkt (s.word (tmemAddr u (offOf r.pkt))) (s.word ((tmemAddr u (offOf r.pkt)) + 1))) = true :=
  ⟨0, { pkt := { pWr with opc := Opc.LKACQ, cnt := 0, words := [W.at 0 16 50 ||| W.at 16 8 1] }, via := .fabric }, [], (((up.setWord 0x100000000 (lkWord 0 1 true false)).setWord 0x100000001 (leaseWord 5 40))).setTmc 0 { q := [{ pkt := { pWr with opc := Opc.LKACQ, cnt := 0, words := [W.at 0 16 50 ||| W.at 16 8 1] }, via := .fabric }], resv := [(9, 0x100000000)] }, by decide +kernel⟩
theorem witness_LocksAcquired_3 : ∃ (u : Fin 64) (r : TReq) (q : List TReq) (s : State),
    (s.tmc u).q = r :: q ∧ noEntryNext q ∧ r.pkt.opc = Opc.LKACQ ∧ isPoison s (tmemAddr u (offOf r.pkt)) = false ∧ isPoison s ((tmemAddr u (offOf r.pkt)) + 1) = false ∧ (lockLive (takeEpoch s u r.pkt.src ((wordAt r.pkt.words 0).fld 16 8)) u (s.word (tmemAddr u (offOf r.pkt))) (s.word ((tmemAddr u (offOf r.pkt)) + 1))) = true ∧ (ownLive (takeEpoch s u r.pkt.src ((wordAt r.pkt.words 0).fld 16 8)) u r.pkt (s.word (tmemAddr u (offOf r.pkt))) (s.word ((tmemAddr u (offOf r.pkt)) + 1))) = false :=
  ⟨0, { pkt := { pWr with opc := Opc.LKACQ, cnt := 0, words := [W.at 0 16 50 ||| W.at 16 8 1] }, via := .fabric }, [], ((((up.setWord 0x100000000 (lkWord 9 1 true false)).setWord 0x100000001 (leaseWord 5 40)).setReg (epochReg 0 0) 1).setReg (epochReg 0 9) 1).setTmc 0 { q := [{ pkt := { pWr with opc := Opc.LKACQ, cnt := 0, words := [W.at 0 16 50 ||| W.at 16 8 1] }, via := .fabric }], resv := [(9, 0x100000000)] }, by decide +kernel⟩
theorem witness_LocksAcquired_4 : ∃ (u : Fin 64) (r : TReq) (q : List TReq) (s : State),
    (s.tmc u).q = r :: q ∧ noEntryNext q ∧ r.pkt.opc = Opc.LKACQ ∧ isPoison s (tmemAddr u (offOf r.pkt)) = false ∧ isPoison s ((tmemAddr u (offOf r.pkt)) + 1) = false ∧ lkHeld (s.word (tmemAddr u (offOf r.pkt))) = true ∧ (lockLive (takeEpoch s u r.pkt.src ((wordAt r.pkt.words 0).fld 16 8)) u (s.word (tmemAddr u (offOf r.pkt))) (s.word ((tmemAddr u (offOf r.pkt)) + 1))) = false :=
  ⟨0, { pkt := { pWr with opc := Opc.LKACQ, cnt := 0, words := [W.at 0 16 50 ||| W.at 16 8 1] }, via := .fabric }, [], ((((up.setWord 0x100000000 (lkWord 9 0 true false)).setWord 0x100000001 (leaseWord 5 40)).setReg (epochReg 0 0) 1).setReg (epochReg 0 9) 1).setTmc 0 { q := [{ pkt := { pWr with opc := Opc.LKACQ, cnt := 0, words := [W.at 0 16 50 ||| W.at 16 8 1] }, via := .fabric }], resv := [(9, 0x100000000)] }, by decide +kernel⟩
theorem witness_LocksRenewedAndReleased_1 : ∃ (u : Fin 64) (r : TReq) (q : List TReq) (s : State),
    (s.tmc u).q = r :: q ∧ noEntryNext q ∧ r.pkt.opc = Opc.LKRNW ∧ isPoison s (tmemAddr u (offOf r.pkt)) = false ∧ isPoison s ((tmemAddr u (offOf r.pkt)) + 1) = false ∧ (ownLive (takeEpoch s u r.pkt.src ((wordAt r.pkt.words 0).fld 16 8)) u r.pkt (s.word (tmemAddr u (offOf r.pkt))) (s.word ((tmemAddr u (offOf r.pkt)) + 1))) = true :=
  ⟨0, { pkt := { pWr with opc := Opc.LKRNW, cnt := 0, words := [W.at 0 16 50 ||| W.at 16 8 1] }, via := .fabric }, [], ((((up.setWord 0x100000000 (lkWord 0 1 true false)).setWord 0x100000001 (leaseWord 5 40)).setReg (epochReg 0 0) 1).setReg (epochReg 0 9) 1).setTmc 0 { q := [{ pkt := { pWr with opc := Opc.LKRNW, cnt := 0, words := [W.at 0 16 50 ||| W.at 16 8 1] }, via := .fabric }], resv := [(9, 0x100000000)] }, by decide +kernel⟩
theorem witness_LocksRenewedAndReleased_2 : ∃ (u : Fin 64) (r : TReq) (q : List TReq) (s : State),
    (s.tmc u).q = r :: q ∧ noEntryNext q ∧ r.pkt.opc = Opc.LKRNW ∧ isPoison s (tmemAddr u (offOf r.pkt)) = false ∧ isPoison s ((tmemAddr u (offOf r.pkt)) + 1) = false ∧ (ownLive (takeEpoch s u r.pkt.src ((wordAt r.pkt.words 0).fld 16 8)) u r.pkt (s.word (tmemAddr u (offOf r.pkt))) (s.word ((tmemAddr u (offOf r.pkt)) + 1))) = false :=
  ⟨0, { pkt := { pWr with opc := Opc.LKRNW, cnt := 0, words := [W.at 0 16 50 ||| W.at 16 8 1] }, via := .fabric }, [], ((((up.setWord 0x100000000 (lkWord 9 1 true false)).setWord 0x100000001 (leaseWord 5 40)).setReg (epochReg 0 0) 1).setReg (epochReg 0 9) 1).setTmc 0 { q := [{ pkt := { pWr with opc := Opc.LKRNW, cnt := 0, words := [W.at 0 16 50 ||| W.at 16 8 1] }, via := .fabric }], resv := [(9, 0x100000000)] }, by decide +kernel⟩
theorem witness_LocksRenewedAndReleased_3 : ∃ (u : Fin 64) (r : TReq) (q : List TReq) (s : State),
    (s.tmc u).q = r :: q ∧ noEntryNext q ∧ r.pkt.opc = Opc.LKREL ∧ isPoison s (tmemAddr u (offOf r.pkt)) = false ∧ isPoison s ((tmemAddr u (offOf r.pkt)) + 1) = false ∧ (ownLive (takeEpoch s u r.pkt.src ((wordAt r.pkt.words 0).fld 16 8)) u r.pkt (s.word (tmemAddr u (offOf r.pkt))) (s.word ((tmemAddr u (offOf r.pkt)) + 1))) = true :=
  ⟨0, { pkt := { pWr with opc := Opc.LKREL, cnt := 0, words := [W.at 0 16 50 ||| W.at 16 8 1] }, via := .fabric }, [], ((((up.setWord 0x100000000 (lkWord 0 1 true false)).setWord 0x100000001 (leaseWord 5 40)).setReg (epochReg 0 0) 1).setReg (epochReg 0 9) 1).setTmc 0 { q := [{ pkt := { pWr with opc := Opc.LKREL, cnt := 0, words := [W.at 0 16 50 ||| W.at 16 8 1] }, via := .fabric }], resv := [(9, 0x100000000)] }, by decide +kernel⟩
theorem witness_LocksRenewedAndReleased_4 : ∃ (u : Fin 64) (r : TReq) (q : List TReq) (s : State),
    (s.tmc u).q = r :: q ∧ noEntryNext q ∧ r.pkt.opc = Opc.LKREL ∧ isPoison s (tmemAddr u (offOf r.pkt)) = false ∧ isPoison s ((tmemAddr u (offOf r.pkt)) + 1) = false ∧ (ownLive (takeEpoch s u r.pkt.src ((wordAt r.pkt.words 0).fld 16 8)) u r.pkt (s.word (tmemAddr u (offOf r.pkt))) (s.word ((tmemAddr u (offOf r.pkt)) + 1))) = false :=
  ⟨0, { pkt := { pWr with opc := Opc.LKREL, cnt := 0, words := [W.at 0 16 50 ||| W.at 16 8 1] }, via := .fabric }, [], ((((up.setWord 0x100000000 (lkWord 9 1 true false)).setWord 0x100000001 (leaseWord 5 40)).setReg (epochReg 0 0) 1).setReg (epochReg 0 9) 1).setTmc 0 { q := [{ pkt := { pWr with opc := Opc.LKREL, cnt := 0, words := [W.at 0 16 50 ||| W.at 16 8 1] }, via := .fabric }], resv := [(9, 0x100000000)] }, by decide +kernel⟩
theorem witness_LocksRenewedAndReleased_5 : ∃ (u : Fin 64) (r : TReq) (q : List TReq) (s : State),
    (s.tmc u).q = r :: q ∧ noEntryNext q ∧ r.pkt.opc = Opc.LKACQ ∧ isPoison s (tmemAddr u (offOf r.pkt)) = true :=
  ⟨0, { pkt := { pWr with opc := Opc.LKACQ, cnt := 0, words := [W.at 0 16 50 ||| W.at 16 8 1] }, via := .fabric }, [], ({ up with poison := [0x100000000] }).setTmc 0 { q := [{ pkt := { pWr with opc := Opc.LKACQ, cnt := 0, words := [W.at 0 16 50 ||| W.at 16 8 1] }, via := .fabric }] }, by decide +kernel⟩
theorem witness_LocksRenewedAndReleased_6_a : ∃ (u : Fin 64) (op : Nat) (e : MemErr) (r : TReq) (q : List TReq) (a : Nat) (j : Nat) (vs : List (Option W)) (s : State) (c : Instr),
    (c = .tmemLkacq u e ∧ op = Opc.LKACQ ∨ c = .tmemLkrnw u e ∧ op = Opc.LKRNW ∨ c = .tmemLkrel u e ∧ op = Opc.LKREL) ∧ (s.tmc u).q = r :: q ∧ noEntryNext q ∧ r.pkt.opc = op ∧ a = tmemAddr u (offOf r.pkt) ∧ j = (if e = .clean then 0 else (Config.freeWord s.freeN).toNat % 2) ∧ vs = [0, 1].map (fun i => if isPoison s (a + i) = true ∨ e = .ue ∧ i = j then none else some (s.word (a + i))) ∧ none ∈ vs :=
  ⟨0, Opc.LKRNW, .clean, { pkt := { pWr with opc := Opc.LKRNW, cnt := 0, words := [W.at 0 16 50 ||| W.at 16 8 1] }, via := .fabric }, [], 0x100000000, 0, [some 0, none], ({ up with poison := [0x100000001] }).setTmc 0 { q := [{ pkt := { pWr with opc := Opc.LKRNW, cnt := 0, words := [W.at 0 16 50 ||| W.at 16 8 1] }, via := .fabric }] }, .tmemLkrnw 0 .clean, by decide +kernel⟩
theorem witness_LocksRenewedAndReleased_6_b : ∃ (u : Fin 64) (op : Nat) (e : MemErr) (r : TReq) (q : List TReq) (a : Nat) (j : Nat) (vs : List (Option W)) (s : State) (c : Instr),
    (c = .tmemLkacq u e ∧ op = Opc.LKACQ ∨ c = .tmemLkrnw u e ∧ op = Opc.LKRNW ∨ c = .tmemLkrel u e ∧ op = Opc.LKREL) ∧ (s.tmc u).q = r :: q ∧ noEntryNext q ∧ r.pkt.opc = op ∧ a = tmemAddr u (offOf r.pkt) ∧ j = (if e = .clean then 0 else (Config.freeWord s.freeN).toNat % 2) ∧ vs = [0, 1].map (fun i => if isPoison s (a + i) = true ∨ e = .ue ∧ i = j then none else some (s.word (a + i))) ∧ none ∈ vs :=
  ⟨0, Opc.LKREL, .clean, { pkt := { pWr with opc := Opc.LKREL, cnt := 0, words := [W.at 0 16 50 ||| W.at 16 8 1] }, via := .fabric }, [], 0x100000000, 0, [none, some 0], ({ up with poison := [0x100000000] }).setTmc 0 { q := [{ pkt := { pWr with opc := Opc.LKREL, cnt := 0, words := [W.at 0 16 50 ||| W.at 16 8 1] }, via := .fabric }] }, .tmemLkrel 0 .clean, by decide +kernel⟩
theorem witness_ScrubAndMigrations_1 : ∃ (u : Fin 64) (s : State),
    regBit s (tmemReg u Off.TMEM_ECC_CFG) 24 = true ∧ tileState s u ≠ 2 ∧ tileState s u ≠ 3 ∧ (getFld s (tmemReg u Off.TMEM_SCRUB_STAT) 0 17) + 1 < 122880 ∧ scrubGood s u (getFld s (tmemReg u Off.TMEM_SCRUB_STAT) 0 17) = true :=
  ⟨0, up.setReg (tmemReg 0 Off.TMEM_ECC_CFG) (W.at 24 1 1), by decide +kernel⟩
theorem witness_ScrubAndMigrations_2 : ∃ (u : Fin 64) (off : Nat) (s : State),
    regBit s (tmemReg u Off.TMEM_ECC_CFG) 24 = true ∧ tileState s u ≠ 2 ∧ tileState s u ≠ 3 ∧ (getFld s (tmemReg u Off.TMEM_SCRUB_STAT) 0 17) + 1 < 122880 ∧ scrubTarget s u (getFld s (tmemReg u Off.TMEM_SCRUB_STAT) 0 17) = .word off ∧ isPoison s (tmemAddr u off) = false :=
  ⟨0, 0, up.setReg (tmemReg 0 Off.TMEM_ECC_CFG) (W.at 24 1 1), by decide +kernel⟩
theorem witness_ScrubAndMigrations_3 : ∃ (u : Fin 64) (s : State),
    regBit s (tmemReg u Off.TMEM_ECC_CFG) 24 = true ∧ tileState s u ≠ 2 ∧ tileState s u ≠ 3 ∧ (getFld s (tmemReg u Off.TMEM_SCRUB_STAT) 0 17) + 1 = 122880 ∧ scrubGood s u (getFld s (tmemReg u Off.TMEM_SCRUB_STAT) 0 17) = true :=
  ⟨0, (up.setReg (tmemReg 0 Off.TMEM_ECC_CFG) (W.at 24 1 1)).setReg (tmemReg 0 Off.TMEM_SCRUB_STAT) 122879, by decide +kernel⟩
theorem witness_ScrubAndMigrations_4 : ∃ (u : Fin 64) (k : Fin 64) (b : Fin 6) (w : Fin 128) (s : State),
    spareFree s u k = true ∧ (s.tmc u).rowDue.contains (b.val, w.val) = true ∧ (s.tmc u).mig = none ∧ (s.tmc u).session = false :=
  ⟨0, 3, 2, 9, up.setTmc 0 { rowDue := [(2, 9)] }, by decide +kernel⟩
theorem witness_ScrubAndMigrations_5 : ∃ (u : Fin 64) (k : Fin 64) (b : Fin 6) (w : Fin 128) (s : State),
    spareFree s u k = true ∧ (s.tmc u).rowDue.contains (b.val, w.val) = true ∧ ((s.tmc u).mig.isSome = true ∨ (s.tmc u).session = true) :=
  ⟨0, 3, 2, 9, up.setTmc 0 { rowDue := [(2, 9)], mig := some { bank := true, b := 1 } }, by decide +kernel⟩
theorem witness_ScrubAndMigrations_6 : ∃ (u : Fin 64) (m : Mig) (s : State),
    (s.tmc u).mig = some m ∧ m.bank = false ∧ (s.tmc u).migWait = [] ∧ spareUsed (setBit s (tmemReg u (Off.TMEM_SPARE m.spare)) 10 true) u ≠ 64 ∧ m.spare < 64 :=
  ⟨0, { bank := false, b := 1, spare := 3 }, (up.setTmc 0 { mig := some { bank := false, b := 1, spare := 3 } }).setReg (tmemReg 0 (Off.TMEM_SPARE 3)) 1, by decide +kernel⟩
theorem witness_ScrubAndMigrations_7 : ∃ (u : Fin 64) (b : Fin 6) (s : State),
    getFld s (tmemReg u Off.TMEM_BANK_MAP) 0 3 = 6 ∧ (s.tmc u).mig = none :=
  ⟨0, 2, up, by decide +kernel⟩
theorem witness_ScrubAndMigrations_8 : ∃ (u : Fin 64) (m : Mig) (s : State),
    (s.tmc u).mig = some m ∧ m.bank = true ∧ m.back = false ∧ m.b < 6 ∧ (s.tmc u).migWait = [] :=
  ⟨0, { bank := true, b := 1 }, (up.setTmc 0 { mig := some { bank := true, b := 1 } }).setReg (tmemReg 0 (Off.TMEM_SPARE 3)) (W.at 0 3 1 ||| W.at 10 1 1), by decide +kernel⟩
theorem witness_ScrubAndMigrations_9 : ∃ (u : Fin 64) (m : Mig) (s : State),
    (s.tmc u).mig = some m ∧ m.bank = true ∧ m.back = true ∧ ((s.tmc u).leftOut.map (fun w => w.fld 11 6)).Nodup ∧ (s.tmc u).migWait = [] :=
  ⟨0, { bank := true, b := 1, back := true }, (up.setTmc 0 { mig := some { bank := true, b := 1, back := true } }).setReg (tmemReg 0 Off.TMEM_BANK_MAP) 1, by decide +kernel⟩
theorem witness_ScrubAndMigrations_5_b : ∃ (u : Fin 64) (k : Fin 64) (b : Fin 6) (w : Fin 128) (s : State),
    spareFree s u k = true ∧ (s.tmc u).rowDue.contains (b.val, w.val) = true ∧ ((s.tmc u).mig.isSome = true ∨ (s.tmc u).session = true) :=
  ⟨0, 3, 2, 9, up.setTmc 0 { rowDue := [(2, 9)], session := true }, by decide +kernel⟩
theorem witness_ScrubAndMigrations_9_b : ∃ (u : Fin 64) (m : Mig) (s : State),
    (s.tmc u).mig = some m ∧ m.bank = true ∧ m.back = true ∧ ((s.tmc u).leftOut.map (fun w => w.fld 11 6)).Nodup ∧ (s.tmc u).migWait = [] :=
  ⟨0, { bank := true, b := 1, back := true }, (up.setReg (tmemReg 0 (Off.TMEM_SPARE 5)) (W.at 0 3 1 ||| W.at 10 1 1)).setTmc 0 { mig := some { bank := true, b := 1, back := true }, leftOut := [W.at 0 3 1 ||| W.at 3 7 9 ||| W.at 10 1 1 ||| W.at 11 6 7], session := true }, by decide +kernel⟩
theorem witness_PortsReadAndWrite_1 : ∃ (a : W) (b : Block) (o : Nat) (r : Row) (s : State),
    s.inReset = false ∧ s.hrpQ = [] ∧ target s a.toNat = some (b, o, r) ∧ r.acc ≠ .rc ∧ wakeFor s b = s ∧ statSlot b o = none ∧ 0xF00000000 ≤ a.toNat ∧ coresIdle s :=
  ⟨natW (mtxReg Off.MTX_BAR_TO), .mtx, Off.MTX_BAR_TO, ((regAt (mtxReg Off.MTX_BAR_TO)).map (fun x => x.2.2)).getD { off := 0, acc := .ro }, up, by decide +kernel⟩
theorem witness_PortsReadAndWrite_2 : ∃ (a : W) (b : Block) (o : Nat) (r : Row) (s : State),
    s.inReset = false ∧ s.dbgQ = [] ∧ target s a.toNat = some (b, o, r) ∧ regBit s (dbgReg Off.DBG_PEEK) 0 = true ∧ wakeFor s b = s ∧ 0xF00000000 ≤ a.toNat ∧ coresIdle s :=
  ⟨natW (mtxReg Off.MTX_RST_CUT_CNT), .mtx, Off.MTX_RST_CUT_CNT, ((regAt (mtxReg Off.MTX_RST_CUT_CNT)).map (fun x => x.2.2)).getD { off := 0, acc := .ro }, (up.setReg (dbgReg Off.DBG_PEEK) 1), by decide +kernel⟩
theorem witness_PortsReadAndWrite_3 : ∃ (a : W) (b : Block) (o : Nat) (r : Row) (s : State),
    s.inReset = false ∧ s.hrpQ = [] ∧ target s a.toNat = some (b, o, r) ∧ r.acc = .rc ∧ wakeFor s b = s ∧ statSlot b o = none ∧ 0xF00000000 ≤ a.toNat ∧ coresIdle s :=
  ⟨natW (mtxReg Off.MTX_RST_CUT_CNT), .mtx, Off.MTX_RST_CUT_CNT, ((regAt (mtxReg Off.MTX_RST_CUT_CNT)).map (fun x => x.2.2)).getD { off := 0, acc := .ro }, (up.setReg (mtxReg Off.MTX_RST_CUT_CNT) 3), by decide +kernel⟩
theorem witness_PortsReadAndWrite_4 : ∃ (c : Fin 2) (a : W) (b : Block) (o : Nat) (r : Row) (s : State),
    target s a.toNat = some (b, o, r) ∧ r.acc = .rc ∧ matrixTakes s (coreNode s c) = true ∧ coreGoes s c a.toNat 1 ∧ accessFails s (448 + c) a.toNat 1 true false (corePriv s c) = none ∧ wakeFor s b = s ∧ statSlot b o = none ∧ 0xF00000000 ≤ a.toNat ∧ coresIdle s :=
  ⟨1, natW (mtxReg Off.MTX_RST_CUT_CNT), .mtx, Off.MTX_RST_CUT_CNT, ((regAt (mtxReg Off.MTX_RST_CUT_CNT)).map (fun x => x.2.2)).getD { off := 0, acc := .ro }, up, by decide +kernel⟩
theorem witness_PortsReadAndWrite_5 : ∃ (v : W) (a : W) (b : Block) (o : Nat) (r : Row) (s : State),
    s.inReset = false ∧ s.hrpQ = [] ∧ target s a.toNat = some (b, o, r) ∧ fstate s ≠ 2 ∧ (b = .evl ∨ b = .bst) ∧ (r.acc = .rw ∨ r.acc = .fw) ∧ 0xF00000000 ≤ a.toNat ∧ coresIdle s :=
  ⟨7, natW (evlReg Off.EVL_MSI_ADDR), .evl, Off.EVL_MSI_ADDR, ((regAt (evlReg Off.EVL_MSI_ADDR)).map (fun x => x.2.2)).getD { off := 0, acc := .ro }, up, by decide +kernel⟩
theorem witness_PortsReadAndWrite_6 : ∃ (v : W) (a : W) (off : Nat) (s : State),
    s.inReset = false ∧ s.hrpQ = [] ∧ fstate s ≠ 2 ∧ regionOf s a.toNat = .sram off ∧ coresIdle s :=
  ⟨7, 0x200010, 0x10, up, by decide +kernel⟩
theorem witness_PortsReadAndWrite_7 : ∃ (a : W) (off : Nat) (s : State),
    s.inReset = false ∧ s.dbgQ = [] ∧ fstate s ≠ 2 ∧ regionOf s a.toNat = .sram off ∧ coresIdle s :=
  ⟨0x200010, 0x10, (up.setWord 0x200010 4), by decide +kernel⟩
theorem witness_PortsReadAndWrite_8 : ∃ (wr : Bool) (a : W) (d : W) (u : Fin 64) (off : Nat) (s : State),
    s.inReset = false ∧ s.hrpQ.length < 4 ∧ fstate s ≠ 2 ∧ regionOf s a.toNat = .tmem u off ∧ tileDark s u = false ∧ (s.tmc u).q.length < 16 ∧ coresIdle s :=
  ⟨true, 0x100000003, 7, 0, 3, up, by decide +kernel⟩
theorem witness_PortsReadAndWrite_9 : ∃ (a : W) (s : State),
    s.inReset = false ∧ s.dbgQ = [] ∧ 0xF00000000 ≤ a.toNat ∧ target s a.toNat = none ∧ coresIdle s :=
  ⟨0xFFFFFFFFF, up, by decide +kernel⟩
theorem witness_PortsReadAndWrite_10 : ∃ (a : W) (off : Nat) (len : Fin 16) (s : State),
    s.inReset = false ∧ s.hrpQ = [] ∧ fstate s ≠ 2 ∧ (∀ i ≤ len.val, regionOf s (a.toNat + i) = .sram (off + i)) ∧ coresIdle s :=
  ⟨0x200010, 0x10, 1, (up.setWord 0x200010 4).setWord 0x200011 5, by decide +kernel⟩
theorem witness_PortsReadAndWrite_11 : ∃ (a : W) (off : Nat) (len : Fin 16) (vs : List W) (s : State),
    s.inReset = false ∧ s.hrpQ = [] ∧ fstate s ≠ 2 ∧ (∀ i ≤ len.val, regionOf s (a.toNat + i) = .sram (off + i)) ∧ vs.length = len.val + 1 ∧ coresIdle s :=
  ⟨0x200010, 0x10, 1, [7, 8], up, by decide +kernel⟩
theorem witness_PortsReadAndWrite_12 : ∃ (a : W) (b : Block) (o : Nat) (r : Row) (s : State),
    s.inReset = false ∧ s.hrpQ = [] ∧ target s a.toNat = some (b, o, r) ∧ target s (a.toNat + 1) = none ∧ r.acc ≠ .rc ∧ wakeFor s b = s ∧ statSlot b o = none ∧ 0xF00000000 ≤ a.toNat ∧ coresIdle s :=
  ⟨natW (evlReg (Off.EVL_UINT_HI 3)), .evl, Off.EVL_UINT_HI 3, ((regAt (evlReg (Off.EVL_UINT_HI 3))).map (fun x => x.2.2)).getD { off := 0, acc := .ro }, up, by decide +kernel⟩
theorem witness_PortsReadAndWrite_13 : ∃ (a : W) (b : Block) (o : Nat) (r : Row) (s : State),
    s.inReset = false ∧ s.dbgQ = [] ∧ target s a.toNat = some (b, o, r) ∧ target s (a.toNat + 1) = none ∧ r.acc ≠ .rc ∧ wakeFor s b = s ∧ statSlot b o = none ∧ 0xF00000000 ≤ a.toNat ∧ coresIdle s :=
  ⟨natW (evlReg (Off.EVL_UINT_HI 3)), .evl, Off.EVL_UINT_HI 3, ((regAt (evlReg (Off.EVL_UINT_HI 3))).map (fun x => x.2.2)).getD { off := 0, acc := .ro }, up, by decide +kernel⟩
theorem witness_PortsReadAndWrite_14 : ∃ (v : W) (w : W) (a : W) (b : Block) (o : Nat) (r : Row) (d : Block) (p : Nat) (q : Row) (s : State),
    s.inReset = false ∧ s.hrpQ = [] ∧ target s a.toNat = some (b, o, r) ∧ target s (a.toNat + 1) = some (d, p, q) ∧ fstate s ≠ 2 ∧ (b = .evl ∨ b = .bst) ∧ (d = .evl ∨ d = .bst) ∧ (r.acc = .rw ∨ r.acc = .fw) ∧ (q.acc = .rw ∨ q.acc = .fw) ∧ 0xF00000000 ≤ a.toNat ∧ coresIdle s :=
  ⟨7, 9, natW (evlReg Off.EVL_MSI_ADDR), .evl, Off.EVL_MSI_ADDR, ((regAt (evlReg Off.EVL_MSI_ADDR)).map (fun x => x.2.2)).getD { off := 0, acc := .ro }, .evl, Off.EVL_MSI_DATA, ((regAt (evlReg Off.EVL_MSI_DATA)).map (fun x => x.2.2)).getD { off := 0, acc := .ro }, up, by decide +kernel⟩
theorem witness_PortsReadAndWrite_15 : ∃ (wr : Bool) (a : W) (s : State),
    s.inReset = false ∧ s.hrpQ = [] ∧ 0xF00000000 ≤ a.toNat ∧ target s a.toNat = none ∧ coresIdle s :=
  ⟨true, 0xFFFFFFFFF, up, by decide +kernel⟩
theorem witness_PortsReadAndWrite_15_b : ∃ (wr : Bool) (a : W) (s : State),
    s.inReset = false ∧ s.hrpQ = [] ∧ 0xF00000000 ≤ a.toNat ∧ target s a.toNat = none ∧ coresIdle s :=
  ⟨false, 0xFFFFFFFFF, up, by decide +kernel⟩
theorem witness_PortsReadAndWrite_16 : ∃ (a : W) (s : State),
    s.inReset = false ∧ s.dbgQ = [] ∧ 0xF00000000 ≤ a.toNat ∧ target s a.toNat = none ∧ coresIdle s :=
  ⟨0xFFFFFFFFF, up, by decide +kernel⟩
theorem witness_PortsReadAndWrite_17 : ∃ (c : Fin 2) (v : W) (n : BitVec 23) (a : W) (w : Nat) (cause : Nat) (x : Nat) (b : Block) (o : Nat) (r : Row) (s : State),
    n.toNat = coreNode s c ∧ matrixTakes s n.toNat = true ∧ coreGoes s c a.toNat 1 ∧ coresIdle s ∧ target s a.toNat = some (b, o, r) ∧ (b = .evl ∨ b = .bst) ∧ accessFails s (448 + c) a.toNat 1 false true (corePriv s c) = some (w, cause, x) :=
  ⟨1, 7, 510, natW (evlReg Off.EVL_MSI_ADDR), evlReg Off.EVL_MSI_ADDR, 2, 0, .evl, Off.EVL_MSI_ADDR, ((regAt (evlReg Off.EVL_MSI_ADDR)).map (fun x => x.2.2)).getD { off := 0, acc := .ro }, (((up.setReg (guardReg 449 Off.GRD_CTRL) 1).setReg (guardReg 449 (Off.GRD_START 0)) (natW (evlReg Off.EVL_MSI_ADDR))).setReg (guardReg 449 (Off.GRD_END 0)) (natW (evlReg Off.EVL_MSI_ADDR))).setReg (guardReg 449 (Off.GRD_PERM 0)) 5, by decide +kernel⟩
theorem witness_PortsReadAndWrite_18 : ∃ (c : Fin 2) (v : W) (n : BitVec 23) (a : W) (s : State),
    n.toNat = coreNode s c ∧ matrixTakes s n.toNat = true ∧ coresIdle s ∧ grdUpd s (448 + c) = true ∧ ownGuardWrite s c a.toNat 1 = false :=
  ⟨1, 7, 510, natW (evlReg Off.EVL_MSI_ADDR), up.setReg (guardReg 449 Off.GRD_CTRL) 3, by decide +kernel⟩
theorem witness_BridgeAndRounds_1 : ∃ (port : Fin 2) (p : Pkt) (rest : List Pkt) (s : State),
    s.posted.length < 16 ∧ nextEject s (bridgePort port) (fun p => isBridge p) = some (p, rest) ∧ p.opc = Opc.WR ∧ p.flag 0 = false :=
  ⟨0, { pWr with arg := natW (evlReg Off.EVL_MSI_ADDR) }, [], up.setNi 5 { eject := [{ pWr with arg := natW (evlReg Off.EVL_MSI_ADDR) }] }, by decide +kernel⟩
theorem witness_BridgeAndRounds_2 : ∃ (port : Fin 2) (p : Pkt) (rest : List Pkt) (s : State),
    s.posted.length < 16 ∧ nextEject s (bridgePort port) (fun p => isBridge p) = some (p, rest) ∧ p.isStcond = true ∧ (target s p.addr).isSome = true :=
  ⟨0, { pWr with flg := 1, arg := natW (evlReg Off.EVL_MSI_ADDR) }, [], up.setNi 5 { eject := [{ pWr with flg := 1, arg := natW (evlReg Off.EVL_MSI_ADDR) }] }, by decide +kernel⟩
theorem witness_BridgeAndRounds_3 : ∃ (port : Fin 2) (p : Pkt) (rest : List Pkt) (b : Block) (o : Nat) (r : Row) (s : State),
    s.posted = [] ∧ nextEject s (bridgePort port) (fun p => isBridge p) = some (p, rest) ∧ p.opc = Opc.RD ∧ p.cnt = 1 ∧ s.heldWrites = [] ∧ target s p.addr = some (b, o, r) ∧ r.acc ≠ .rc ∧ wakeFor s b = s ∧ statSlot b o = none :=
  ⟨0, { pRd with arg := natW (mtxReg Off.MTX_BAR_TO) }, [], .mtx, Off.MTX_BAR_TO, ((regAt (mtxReg Off.MTX_BAR_TO)).map (fun x => x.2.2)).getD { off := 0, acc := .ro }, up.setNi 5 { eject := [{ pRd with arg := natW (mtxReg Off.MTX_BAR_TO) }] }, by decide +kernel⟩
theorem witness_BridgeAndRounds_4 : ∃ (port : Fin 2) (e : Posted) (q : List Posted) (b : Block) (o : Nat) (r : Row) (s : State),
    s.posted = e :: q ∧ (s.ni (bridgePort port)).eject = [] ∧ target s e.pkt.addr = some (b, o, r) ∧ fstate s ≠ 2 ∧ coresIdle s ∧ e.pkt.cnt = 1 ∧ (b = .evl ∨ b = .bst) ∧ (r.acc = .rw ∨ r.acc = .fw) :=
  ⟨0, { pkt := { pWr with arg := natW (evlReg Off.EVL_MSI_ADDR) }, port := 5 }, [], .evl, Off.EVL_MSI_ADDR, ((regAt (evlReg Off.EVL_MSI_ADDR)).map (fun x => x.2.2)).getD { off := 0, acc := .ro }, { up with posted := [{ pkt := { pWr with arg := natW (evlReg Off.EVL_MSI_ADDR) }, port := 5 }] }, by decide +kernel⟩
theorem witness_BridgeAndRounds_5 : ∃ (v : W) (w : W) (n : BitVec 23) (m : BitVec 23) (l : List (BitVec 23 × W)) (a : W) (b : Block) (o : Nat) (r : Row) (s : State),
    target s a.toNat = some (b, o, r) ∧ fstate s ≠ 2 ∧ coresIdle s ∧ (b = .evl ∨ b = .bst) ∧ (r.acc = .rw ∨ r.acc = .fw) ∧ inRound s a.toNat (n, v) = true ∧ inRound s a.toNat (m, w) = true ∧ n < m ∧ (l = [(n, v), (m, w)] ∨ l = [(m, w), (n, v)]) :=
  ⟨7, 8, 3, 9, [(9, 8), (3, 7)], natW (evlReg Off.EVL_MSI_ADDR), .evl, Off.EVL_MSI_ADDR, ((regAt (evlReg Off.EVL_MSI_ADDR)).map (fun x => x.2.2)).getD { off := 0, acc := .ro }, up, by decide +kernel⟩
theorem witness_BridgeAndRounds_6 : ∃ (v : W) (n : BitVec 23) (a : W) (b : Block) (o : Nat) (r : Row) (s : State),
    target s a.toNat = some (b, o, r) ∧ fstate s ≠ 2 ∧ coresIdle s ∧ (b = .evl ∨ b = .bst) ∧ (r.acc = .rw ∨ r.acc = .fw) ∧ inRound s a.toNat (n, v) = true :=
  ⟨7, 3, natW (evlReg Off.EVL_MSI_ADDR), .evl, Off.EVL_MSI_ADDR, ((regAt (evlReg Off.EVL_MSI_ADDR)).map (fun x => x.2.2)).getD { off := 0, acc := .ro }, up, by decide +kernel⟩
theorem witness_BridgeAndRounds_7 : ∃ (node : BitVec 23) (x : W) (y : W) (e : W) (v : W) (s : State),
    matrixTakes s node.toNat = true ∧ coreOfNode s node.toNat = none ∧ portOfNode s node.toNat = none ∧ fstate s ≠ 2 ∧ s.evq.length < 16 :=
  ⟨0, 1, 2, 3, 4, up, by decide +kernel⟩
theorem witness_BridgeAndRounds_5_b : ∃ (v : W) (w : W) (n : BitVec 23) (m : BitVec 23) (l : List (BitVec 23 × W)) (a : W) (b : Block) (o : Nat) (r : Row) (s : State),
    target s a.toNat = some (b, o, r) ∧ fstate s ≠ 2 ∧ coresIdle s ∧ (b = .evl ∨ b = .bst) ∧ (r.acc = .rw ∨ r.acc = .fw) ∧ inRound s a.toNat (n, v) = true ∧ inRound s a.toNat (m, w) = true ∧ n < m ∧ (l = [(n, v), (m, w)] ∨ l = [(m, w), (n, v)]) :=
  ⟨7, 8, 6, 511, [(511, 8), (6, 7)], natW (evlReg Off.EVL_MSI_ADDR), .evl, Off.EVL_MSI_ADDR, ((regAt (evlReg Off.EVL_MSI_ADDR)).map (fun x => x.2.2)).getD { off := 0, acc := .ro }, up, by decide +kernel⟩
theorem witness_BridgeAndRounds_5_c : ∃ (v : W) (w : W) (n : BitVec 23) (m : BitVec 23) (l : List (BitVec 23 × W)) (a : W) (b : Block) (o : Nat) (r : Row) (s : State),
    target s a.toNat = some (b, o, r) ∧ fstate s ≠ 2 ∧ coresIdle s ∧ (b = .evl ∨ b = .bst) ∧ (r.acc = .rw ∨ r.acc = .fw) ∧ inRound s a.toNat (n, v) = true ∧ inRound s a.toNat (m, w) = true ∧ n < m ∧ (l = [(n, v), (m, w)] ∨ l = [(m, w), (n, v)]) :=
  ⟨7, 8, 62, 510, [(510, 8), (62, 7)], natW (evlReg Off.EVL_MSI_ADDR), .evl, Off.EVL_MSI_ADDR, ((regAt (evlReg Off.EVL_MSI_ADDR)).map (fun x => x.2.2)).getD { off := 0, acc := .ro }, up, by decide +kernel⟩
theorem witness_BridgeAndRounds_5_d : ∃ (v : W) (w : W) (n : BitVec 23) (m : BitVec 23) (l : List (BitVec 23 × W)) (a : W) (b : Block) (o : Nat) (r : Row) (s : State),
    target s a.toNat = some (b, o, r) ∧ fstate s ≠ 2 ∧ coresIdle s ∧ (b = .evl ∨ b = .bst) ∧ (r.acc = .rw ∨ r.acc = .fw) ∧ inRound s a.toNat (n, v) = true ∧ inRound s a.toNat (m, w) = true ∧ n < m ∧ (l = [(n, v), (m, w)] ∨ l = [(m, w), (n, v)]) :=
  ⟨7, 8, 9, 62, [(62, 8), (9, 7)], natW (evlReg Off.EVL_MSI_ADDR), .evl, Off.EVL_MSI_ADDR, ((regAt (evlReg Off.EVL_MSI_ADDR)).map (fun x => x.2.2)).getD { off := 0, acc := .ro }, up, by decide +kernel⟩
theorem witness_BridgeAndRounds_5_e : ∃ (v : W) (w : W) (n : BitVec 23) (m : BitVec 23) (l : List (BitVec 23 × W)) (a : W) (b : Block) (o : Nat) (r : Row) (s : State),
    target s a.toNat = some (b, o, r) ∧ fstate s ≠ 2 ∧ coresIdle s ∧ (b = .evl ∨ b = .bst) ∧ (r.acc = .rw ∨ r.acc = .fw) ∧ inRound s a.toNat (n, v) = true ∧ inRound s a.toNat (m, w) = true ∧ n < m ∧ (l = [(n, v), (m, w)] ∨ l = [(m, w), (n, v)]) :=
  ⟨7, 8, 62, 511, [(511, 8), (62, 7)], natW (evlReg Off.EVL_MSI_ADDR), .evl, Off.EVL_MSI_ADDR, ((regAt (evlReg Off.EVL_MSI_ADDR)).map (fun x => x.2.2)).getD { off := 0, acc := .ro }, up, by decide +kernel⟩
theorem witness_BridgeAndRounds_6_b : ∃ (v : W) (n : BitVec 23) (a : W) (b : Block) (o : Nat) (r : Row) (s : State),
    target s a.toNat = some (b, o, r) ∧ fstate s ≠ 2 ∧ coresIdle s ∧ (b = .evl ∨ b = .bst) ∧ (r.acc = .rw ∨ r.acc = .fw) ∧ inRound s a.toNat (n, v) = true :=
  ⟨7, 6, natW (evlReg Off.EVL_MSI_ADDR), .evl, Off.EVL_MSI_ADDR, ((regAt (evlReg Off.EVL_MSI_ADDR)).map (fun x => x.2.2)).getD { off := 0, acc := .ro }, up, by decide +kernel⟩
theorem witness_BridgeAndRounds_6_c : ∃ (v : W) (n : BitVec 23) (a : W) (b : Block) (o : Nat) (r : Row) (s : State),
    target s a.toNat = some (b, o, r) ∧ fstate s ≠ 2 ∧ coresIdle s ∧ (b = .evl ∨ b = .bst) ∧ (r.acc = .rw ∨ r.acc = .fw) ∧ inRound s a.toNat (n, v) = true :=
  ⟨7, 511, natW (evlReg Off.EVL_MSI_ADDR), .evl, Off.EVL_MSI_ADDR, ((regAt (evlReg Off.EVL_MSI_ADDR)).map (fun x => x.2.2)).getD { off := 0, acc := .ro }, up, by decide +kernel⟩
theorem witness_BridgeAndRounds_6_d : ∃ (v : W) (n : BitVec 23) (a : W) (b : Block) (o : Nat) (r : Row) (s : State),
    target s a.toNat = some (b, o, r) ∧ fstate s ≠ 2 ∧ coresIdle s ∧ (b = .evl ∨ b = .bst) ∧ (r.acc = .rw ∨ r.acc = .fw) ∧ inRound s a.toNat (n, v) = true :=
  ⟨7, 62, natW (evlReg Off.EVL_MSI_ADDR), .evl, Off.EVL_MSI_ADDR, ((regAt (evlReg Off.EVL_MSI_ADDR)).map (fun x => x.2.2)).getD { off := 0, acc := .ro }, up, by decide +kernel⟩
theorem witness_BridgeAndRounds_6_e : ∃ (v : W) (n : BitVec 23) (a : W) (b : Block) (o : Nat) (r : Row) (s : State),
    target s a.toNat = some (b, o, r) ∧ fstate s ≠ 2 ∧ coresIdle s ∧ (b = .evl ∨ b = .bst) ∧ (r.acc = .rw ∨ r.acc = .fw) ∧ inRound s a.toNat (n, v) = true :=
  ⟨7, 510, natW (evlReg Off.EVL_MSI_ADDR), .evl, Off.EVL_MSI_ADDR, ((regAt (evlReg Off.EVL_MSI_ADDR)).map (fun x => x.2.2)).getD { off := 0, acc := .ro }, up, by decide +kernel⟩
theorem witness_BridgeAndRounds_8_a : ∃ (c : Fin 2) (node : BitVec 23) (x : W) (y : W) (e : W) (v : W) (s : State),
    node.toNat = coreNode s c ∧ matrixTakes s (coreNode s c) = true ∧ coreGoes s c (evlReg (Off.EVL_POST 0)) 4 ∧ accessFails s (448 + c) (evlReg (Off.EVL_POST 0)) 4 false true (corePriv s c) = none ∧ fstate s ≠ 2 ∧ s.evq.length < 16 :=
  ⟨0, 6, 1, 2, 3, 4, up, by decide +kernel⟩
theorem witness_BridgeAndRounds_8_b : ∃ (c : Fin 2) (node : BitVec 23) (x : W) (y : W) (e : W) (v : W) (s : State),
    node.toNat = coreNode s c ∧ matrixTakes s (coreNode s c) = true ∧ coreGoes s c (evlReg (Off.EVL_POST 0)) 4 ∧ accessFails s (448 + c) (evlReg (Off.EVL_POST 0)) 4 false true (corePriv s c) = none ∧ fstate s ≠ 2 ∧ s.evq.length < 16 :=
  ⟨1, 510, 1, 2, 3, 4, up, by decide +kernel⟩
theorem witness_BridgeAndRounds_9_a : ∃ (m : Master) (node : BitVec 23) (x : W) (y : W) (e : W) (v : W) (s : State),
    portOfNode s node.toNat = some m ∧ s.inReset = false ∧ s.hrpQ = [] ∧ s.dbgQ = [] ∧ fstate s ≠ 2 ∧ s.evq.length < 16 :=
  ⟨.hrp, 511, 1, 2, 3, 4, up, by decide +kernel⟩
theorem witness_BridgeAndRounds_9_b : ∃ (m : Master) (node : BitVec 23) (x : W) (y : W) (e : W) (v : W) (s : State),
    portOfNode s node.toNat = some m ∧ s.inReset = false ∧ s.hrpQ = [] ∧ s.dbgQ = [] ∧ fstate s ≠ 2 ∧ s.evq.length < 16 :=
  ⟨.dbg, 62, 1, 2, 3, 4, up, by decide +kernel⟩
theorem witness_BridgeAndRounds_10 : ∃ (port : Fin 2) (p : Pkt) (rest : List Pkt) (s : State),
    s.posted.length < 16 ∧ nextEject s (bridgePort port) (fun p => isBridge p) = some (p, rest) ∧ p.isStcond = true ∧ target s p.addr = none :=
  ⟨0, { pWr with flg := 1, arg := natW (mtxReg 0xFFF) }, [], up.setNi 5 { eject := [{ pWr with flg := 1, arg := natW (mtxReg 0xFFF) }] }, by decide +kernel⟩
theorem witness_BridgeAndRounds_11 : ∃ (port : Fin 2) (p : Pkt) (rest : List Pkt) (e : Posted) (f : Posted) (q : List Posted) (b : Block) (o : Nat) (r : Row) (s : State),
    s.posted = e :: f :: q ∧ nextEject s (bridgePort port) (fun p => isBridge p) = some (p, rest) ∧ p.opc = Opc.RD ∧ target s e.pkt.addr = some (b, o, r) ∧ fstate s ≠ 2 ∧ coresIdle s ∧ e.pkt.cnt = 1 ∧ (b = .evl ∨ b = .bst) ∧ (r.acc = .rw ∨ r.acc = .fw) :=
  ⟨0, { pRd with arg := natW (evlReg Off.EVL_MSI_ADDR) }, [], { pkt := { pWr with arg := natW (evlReg Off.EVL_MSI_ADDR) }, port := 5 }, { pkt := { pWr with arg := natW (evlReg Off.EVL_MSI_ADDR) }, port := 5 }, [], .evl, Off.EVL_MSI_ADDR, ((regAt (evlReg Off.EVL_MSI_ADDR)).map (fun x => x.2.2)).getD { off := 0, acc := .ro }, { ((up.setNi 5 { eject := [{ pRd with arg := natW (evlReg Off.EVL_MSI_ADDR) }] })) with posted := [{ pkt := { pWr with arg := natW (evlReg Off.EVL_MSI_ADDR) }, port := 5 }, { pkt := { pWr with arg := natW (evlReg Off.EVL_MSI_ADDR) }, port := 5 }] }, by decide +kernel⟩
theorem witness_BridgeAndRounds_12 : ∃ (port : Fin 2) (p : Pkt) (rest : List Pkt) (e : Posted) (b : Block) (o : Nat) (r : Row) (s : State),
    s.posted = [e] ∧ nextEject s (bridgePort port) (fun p => isBridge p) = some (p, rest) ∧ p.opc = Opc.RD ∧ p.cnt = 1 ∧ p.addr = e.pkt.addr ∧ s.heldWrites = [] ∧ target s e.pkt.addr = some (b, o, r) ∧ fstate s ≠ 2 ∧ coresIdle s ∧ e.pkt.cnt = 1 ∧ (b = .evl ∨ b = .bst) ∧ (r.acc = .rw ∨ r.acc = .fw) :=
  ⟨0, { pRd with arg := natW (evlReg Off.EVL_MSI_ADDR) }, [], { pkt := { pWr with arg := natW (evlReg Off.EVL_MSI_ADDR) }, port := 5 }, .evl, Off.EVL_MSI_ADDR, ((regAt (evlReg Off.EVL_MSI_ADDR)).map (fun x => x.2.2)).getD { off := 0, acc := .ro }, { ((up.setNi 5 { eject := [{ pRd with arg := natW (evlReg Off.EVL_MSI_ADDR) }] })) with posted := [{ pkt := { pWr with arg := natW (evlReg Off.EVL_MSI_ADDR) }, port := 5 }] }, by decide +kernel⟩
theorem witness_BridgeAndRounds_13 : ∃ (port : Fin 2) (p : Pkt) (rest : List Pkt) (e : Posted) (q : List Posted) (b : Block) (o : Nat) (r : Row) (s : State),
    s.posted = e :: q ∧ s.posted.length = 16 ∧ nextEject s (bridgePort port) (fun p => isBridge p) = some (p, rest) ∧ p.opc = Opc.WR ∧ p.flag 0 = false ∧ target s e.pkt.addr = some (b, o, r) ∧ fstate s ≠ 2 ∧ coresIdle s ∧ e.pkt.cnt = 1 ∧ (b = .evl ∨ b = .bst) ∧ (r.acc = .rw ∨ r.acc = .fw) :=
  ⟨0, { pWr with arg := natW (evlReg Off.EVL_MSI_ADDR) }, [], { pkt := { pWr with arg := natW (evlReg Off.EVL_MSI_ADDR) }, port := 5 }, List.replicate 15 { pkt := { pWr with arg := natW (evlReg Off.EVL_MSI_ADDR) }, port := 5 }, .evl, Off.EVL_MSI_ADDR, ((regAt (evlReg Off.EVL_MSI_ADDR)).map (fun x => x.2.2)).getD { off := 0, acc := .ro }, { ((up.setNi 5 { eject := [{ pWr with arg := natW (evlReg Off.EVL_MSI_ADDR) }] })) with posted := List.replicate 16 { pkt := { pWr with arg := natW (evlReg Off.EVL_MSI_ADDR) }, port := 5 } }, by decide +kernel⟩
theorem witness_BridgeAndRounds_14 : ∃ (port : Fin 2) (p : Pkt) (rest : List Pkt) (e : Posted) (q : List Posted) (s : State),
    s.posted = e :: q ∧ nextEject s (bridgePort port) (fun p => isBridge p) = some (p, rest) ∧ (s.posted.length = 16 ∨ p.opc = Opc.RD) ∧ braceKeeps s e.pkt.addr e.pkt.cnt = true ∧ coresIdle s :=
  ⟨0, { pRd with arg := natW (evlReg Off.EVL_MSI_ADDR) }, [], { pkt := { pWr with arg := natW (tkReg Off.TK_FADJ) }, port := 5 }, [], { ((up.setNi 5 { eject := [{ pRd with arg := natW (evlReg Off.EVL_MSI_ADDR) }] }).setReg (pwrReg Off.PWR_STAT) 4) with posted := [{ pkt := { pWr with arg := natW (tkReg Off.TK_FADJ) }, port := 5 }] }, by decide +kernel⟩
theorem witness_BridgeAndRounds_14_b : ∃ (port : Fin 2) (p : Pkt) (rest : List Pkt) (e : Posted) (q : List Posted) (s : State),
    s.posted = e :: q ∧ nextEject s (bridgePort port) (fun p => isBridge p) = some (p, rest) ∧ (s.posted.length = 16 ∨ p.opc = Opc.RD) ∧ braceKeeps s e.pkt.addr e.pkt.cnt = true ∧ coresIdle s :=
  ⟨0, { pWr with arg := natW (evlReg Off.EVL_MSI_ADDR) }, [], { pkt := { pWr with arg := natW (tkReg Off.TK_FADJ) }, port := 5 }, List.replicate 15 { pkt := { pWr with arg := natW (evlReg Off.EVL_MSI_ADDR) }, port := 5 }, { ((up.setNi 5 { eject := [{ pWr with arg := natW (evlReg Off.EVL_MSI_ADDR) }] }).setReg (pwrReg Off.PWR_STAT) 4) with posted := { pkt := { pWr with arg := natW (tkReg Off.TK_FADJ) }, port := 5 } :: List.replicate 15 { pkt := { pWr with arg := natW (evlReg Off.EVL_MSI_ADDR) }, port := 5 } }, by decide +kernel⟩
theorem witness_HostWritesThatAct_1 : ∃ (v : W) (s : State),
    fstate s ≠ 2 :=
  ⟨1, up, by decide +kernel⟩
theorem witness_HostWritesThatAct_2 : ∃ (v : W) (s : State),
    fstate s ≠ 2 :=
  ⟨9, up, by decide +kernel⟩
theorem witness_HostWritesThatAct_3_a : ∃ (v : W) (s : State),
    fstate s ≠ 2 :=
  ⟨9, up, by decide +kernel⟩
theorem witness_HostWritesThatAct_3_b : ∃ (v : W) (s : State),
    fstate s ≠ 2 :=
  ⟨14, up, by decide +kernel⟩
theorem witness_HostWritesThatAct_4 : ∃ (c : Fin 2) (s : State),
    fstate s ≠ 2 :=
  ⟨1, up, by decide +kernel⟩
theorem witness_HostWritesThatAct_5 : ∃ (c : Fin 2) (s : State),
    fstate s ≠ 2 ∧ ((s.core c).rstHold) = false :=
  ⟨1, up, by decide +kernel⟩
theorem witness_HostWritesThatAct_6 : ∃ (c : Fin 2) (s : State),
    fstate s ≠ 2 ∧ ((s.core c).rstHold) = true ∧ haltAsked s c = false ∧ (s.core c).halted = false :=
  ⟨0, up.setCore 0 { rstHold := true }, by decide +kernel⟩
theorem witness_HostWritesThatAct_7 : ∃ (s : State),
    fstate s ≠ 2 ∧ regBit s (opcReg Off.OPC_CTRL) 0 = false ∧ haltAsked s 1 = false ∧ (s.core 1).halted = false :=
  ⟨up, by decide +kernel⟩
theorem witness_HostWritesThatAct_8_a : ∃ (c : Fin 2) (sel : Bool) (s : State),
    fstate s ≠ 2 :=
  ⟨1, true, up, by decide +kernel⟩
theorem witness_HostWritesThatAct_8_b : ∃ (c : Fin 2) (sel : Bool) (s : State),
    fstate s ≠ 2 :=
  ⟨1, true, up.setReg (opcReg (Off.OPC_CLK 1)) 4, by decide +kernel⟩
theorem witness_HostWritesThatAct_8_c : ∃ (c : Fin 2) (sel : Bool) (s : State),
    fstate s ≠ 2 :=
  ⟨0, false, up.setReg (opcReg (Off.OPC_CLK 0)) 7, by decide +kernel⟩
theorem witness_Resets_1 : ∃ (n : NiId) (rest : List HeldReset) (s : State),
    takeFirst (fun q => decide (q = .ni n.idx)) s.rstReq = some (.ni n.idx, rest) ∧ niLate s n.idx = false ∧ n.idx % 7 ≠ 5 ∧ (n.idx ≠ niOf 56 6 ∨ extEn s = false) :=
  ⟨nA, [], ({ upA with rstReq := [.ni 0] }).setNi 0 { eject := [pRd], outst := [reqOf pRd] }, by decide +kernel⟩
theorem witness_Resets_2 : ∃ (n : NiId) (rest : List HeldReset) (s : State),
    takeFirst (fun q => decide (q = .ni n.idx)) s.rstReq = some (.ni n.idx, rest) ∧ n.idx % 7 ≠ 5 ∧ (s.ni n.idx) = {} ∧ (n.idx ≠ niOf 56 6 ∨ extEn s = false) :=
  ⟨nA, [], { upA with rstReq := [.ni 0] }, by decide +kernel⟩
theorem witness_Resets_3_a : ∃ (c : Fin 2) (s : State),
    (s.core c).rstReq = true ∧ (s.ni (if c.val = 0 then 6 else 447)) = {} ∧ haltAsked s c = false :=
  ⟨0, up.setCore 0 { rstReq := true, halted := true }, by decide +kernel⟩
theorem witness_Resets_3_b : ∃ (c : Fin 2) (s : State),
    (s.core c).rstReq = true ∧ (s.ni (if c.val = 0 then 6 else 447)) = {} ∧ haltAsked s c = false :=
  ⟨0, (up.setReg (mtxReg Off.MTX_REMAP) 1).setCore 0 { rstReq := true, wq := [{ wr := true, addr := bstReg Off.BST_CFG, words := [5] }] }, by decide +kernel⟩
theorem witness_Resets_4 : ∃ (u : Fin 64) (w : Nat) (rest : List HeldReset) (s : State),
    takeFirst (fun q => decide (q = .tile u.val)) s.rstReq = some (.tile u.val, rest) ∧ tileLate s u = false ∧ taVtrans s u = false ∧ tileDark s u = false ∧ refillFrom s u = some w :=
  ⟨9, 10, [], ({ up with rstReq := [.tile 9] }).setTmc 9 { q := [{ pkt := pRd, via := .fabric }], resv := [(1, 2)] }, by decide +kernel⟩
theorem witness_Resets_6 : ∃ (s : State),
    s.inReset = true ∧ s.scanReq = false :=
  ⟨{ up with inReset := true, aonLost := true, ft := 5 }, by decide +kernel⟩
theorem witness_Resets_10 : ∃ (s : State),
    s.inReset = true ∧ s.scanReq = true :=
  ⟨{ up with inReset := true, scanReq := true }, by decide +kernel⟩
theorem witness_Resets_11 : ∃ (n : NiId) (rest : List HeldReset) (s : State),
    takeFirst (fun q => decide (q = .ni n.idx)) s.rstReq = some (.ni n.idx, rest) ∧ niLate s n.idx = false ∧ n.idx = niOf 56 6 ∧ extEn s = true :=
  ⟨⟨56, 6⟩, [], { (up.setReg (extReg Off.EXT_CTRL) 1) with rstReq := [.ni (niOf 56 6)] }, by decide +kernel⟩
theorem witness_GuardsWritten_2_a : ∃ (g : GuardId) (s : State),
    overlapPair s (guardNum g) = none ∧ (s.ni (if (guardNum g) < 448 then (guardNum g) else if (guardNum g) = 448 then 6 else 447)).held = [] ∧ (s.ni (if (guardNum g) < 448 then (guardNum g) else if (guardNum g) = 448 then 6 else 447)).oq = [] ∧ awake s (guardReg (guardNum g) Off.GRD_CTRL) = true ∧ coresIdle s ∧ headersRead s = true :=
  ⟨.ni nA, up, by decide +kernel⟩
theorem witness_GuardsWritten_2_b : ∃ (g : GuardId) (s : State),
    overlapPair s (guardNum g) = none ∧ (s.ni (if (guardNum g) < 448 then (guardNum g) else if (guardNum g) = 448 then 6 else 447)).held = [] ∧ (s.ni (if (guardNum g) < 448 then (guardNum g) else if (guardNum g) = 448 then 6 else 447)).oq = [] ∧ awake s (guardReg (guardNum g) Off.GRD_CTRL) = true ∧ coresIdle s ∧ headersRead s = true :=
  ⟨.core 1, up, by decide +kernel⟩
theorem witness_GuardsWritten_3 : ∃ (g : GuardId) (a : Nat) (b : Nat) (s : State),
    overlapPair s (guardNum g) = some (a, b) ∧ (s.ni (if (guardNum g) < 448 then (guardNum g) else if (guardNum g) = 448 then 6 else 447)).held = [] ∧ (s.ni (if (guardNum g) < 448 then (guardNum g) else if (guardNum g) = 448 then 6 else 447)).oq = [] ∧ awake s (guardReg (guardNum g) Off.GRD_CTRL) = true ∧ coresIdle s ∧ eventPasses s (.ni (guardNi (guardNum g))) ∧ headersRead s = true :=
  ⟨.core 0, 1, 3, (up.setReg (guardReg 448 (Off.GRD_PERM 1)) 7).setReg (guardReg 448 (Off.GRD_PERM 3)) 7, by decide +kernel⟩
theorem witness_GuardsWritten_4 : ∃ (g : GuardId) (s : State),
    (s.ni (if (guardNum g) < 448 then (guardNum g) else if (guardNum g) = 448 then 6 else 447)).held = [] ∧ (s.ni (if (guardNum g) < 448 then (guardNum g) else if (guardNum g) = 448 then 6 else 447)).oq = [] ∧ awake s (guardReg (guardNum g) Off.GRD_CTRL) = true ∧ coresIdle s ∧ headersRead s = true :=
  ⟨.ni nA, up.setReg (guardReg 0 Off.GRD_CTRL) 1, by decide +kernel⟩
theorem witness_GuardsWritten_5_a : ∃ (g : GuardId) (k : Fin 16) (f : RegionWord) (v : W) (s : State),
    grdEn s (guardNum g) = false ∧ awake s (guardReg (guardNum g) (regionOff k f)) = true :=
  ⟨.ni nA, 2, .perm, 0xFF, up, by decide +kernel⟩
theorem witness_GuardsWritten_5_b : ∃ (g : GuardId) (k : Fin 16) (f : RegionWord) (v : W) (s : State),
    grdEn s (guardNum g) = false ∧ awake s (guardReg (guardNum g) (regionOff k f)) = true :=
  ⟨.core 0, 2, .perm, 0xFF, up, by decide +kernel⟩
theorem witness_GuardsWritten_5_c : ∃ (g : GuardId) (k : Fin 16) (f : RegionWord) (v : W) (s : State),
    grdEn s (guardNum g) = false ∧ awake s (guardReg (guardNum g) (regionOff k f)) = true :=
  ⟨.core 0, 2, .stop, 0xFF, up, by decide +kernel⟩
theorem witness_GuardsWritten_6 : ∃ (g : GuardId) (k : Fin 16) (f : RegionWord) (v : W) (s : State),
    grdEn s (guardNum g) = true ∧ awake s (guardReg (guardNum g) (regionOff k f)) = true ∧ eventPasses s (.ni (guardNi (guardNum g))) :=
  ⟨.ni nA, 2, .perm, 0xFF, up.setReg (guardReg 0 Off.GRD_CTRL) 1, by decide +kernel⟩
theorem witness_GuardsWritten_7 : ∃ (n : NiId) (s : State),
    grdUpd s n.idx = true ∧ overlapPair s n.idx = none ∧ (s.ni n.idx).held = [] ∧ (s.ni n.idx).oq = [] ∧ regBit s (guardReg n.idx Off.GRD_ERR_MASK) 4 = false ∧ eventPasses s (.ni n.idx) :=
  ⟨nA, up.setReg (guardReg 0 Off.GRD_CTRL) 3, by decide +kernel⟩
theorem witness_GuardsWritten_8_a : ∃ (g : GuardId) (k : Fin 16) (f : RegionWord) (v : W) (a : Nat) (s : State) (c : Instr),
    (c = .grdUpdateHold g ∧ a = guardReg (guardNum g) Off.GRD_CTRL ∨ c = .grdEnable g ∧ a = guardReg (guardNum g) Off.GRD_CTRL ∨ c = .grdDisable g ∧ a = guardReg (guardNum g) Off.GRD_CTRL ∨ c = .grdRegionWrite g k f v ∧ a = guardReg (guardNum g) (regionOff k f)) ∧ target s a = none :=
  ⟨.ni ⟨1, 2⟩, 3, .perm, 7, guardReg 9 Off.GRD_CTRL, up.setReg (taReg 1 Off.PWR_TA_STAT) 3, .grdUpdateHold (.ni ⟨1, 2⟩), by decide +kernel⟩
theorem witness_GuardsWritten_8_b : ∃ (g : GuardId) (k : Fin 16) (f : RegionWord) (v : W) (a : Nat) (s : State) (c : Instr),
    (c = .grdUpdateHold g ∧ a = guardReg (guardNum g) Off.GRD_CTRL ∨ c = .grdEnable g ∧ a = guardReg (guardNum g) Off.GRD_CTRL ∨ c = .grdDisable g ∧ a = guardReg (guardNum g) Off.GRD_CTRL ∨ c = .grdRegionWrite g k f v ∧ a = guardReg (guardNum g) (regionOff k f)) ∧ target s a = none :=
  ⟨.ni ⟨1, 2⟩, 3, .perm, 7, guardReg 9 Off.GRD_CTRL, up.setReg (taReg 1 Off.PWR_TA_STAT) 3, .grdEnable (.ni ⟨1, 2⟩), by decide +kernel⟩
theorem witness_GuardsWritten_8_c : ∃ (g : GuardId) (k : Fin 16) (f : RegionWord) (v : W) (a : Nat) (s : State) (c : Instr),
    (c = .grdUpdateHold g ∧ a = guardReg (guardNum g) Off.GRD_CTRL ∨ c = .grdEnable g ∧ a = guardReg (guardNum g) Off.GRD_CTRL ∨ c = .grdDisable g ∧ a = guardReg (guardNum g) Off.GRD_CTRL ∨ c = .grdRegionWrite g k f v ∧ a = guardReg (guardNum g) (regionOff k f)) ∧ target s a = none :=
  ⟨.ni ⟨1, 2⟩, 3, .perm, 7, guardReg 9 Off.GRD_CTRL, up.setReg (taReg 1 Off.PWR_TA_STAT) 3, .grdDisable (.ni ⟨1, 2⟩), by decide +kernel⟩
theorem witness_GuardsWritten_8_d : ∃ (g : GuardId) (k : Fin 16) (f : RegionWord) (v : W) (a : Nat) (s : State) (c : Instr),
    (c = .grdUpdateHold g ∧ a = guardReg (guardNum g) Off.GRD_CTRL ∨ c = .grdEnable g ∧ a = guardReg (guardNum g) Off.GRD_CTRL ∨ c = .grdDisable g ∧ a = guardReg (guardNum g) Off.GRD_CTRL ∨ c = .grdRegionWrite g k f v ∧ a = guardReg (guardNum g) (regionOff k f)) ∧ target s a = none :=
  ⟨.ni ⟨1, 2⟩, 3, .perm, 7, guardReg 9 (Off.GRD_PERM 3), up.setReg (taReg 1 Off.PWR_TA_STAT) 3, .grdRegionWrite (.ni ⟨1, 2⟩) 3 .perm 7, by decide +kernel⟩
theorem witness_FabricTimeRuns_1 : ∃ (s : State),
    holdover s = false ∧ s.profDue = [] :=
  ⟨up, by decide +kernel⟩
theorem witness_FabricTimeRuns_2 : ∃ (s : State),
    holdover s = true :=
  ⟨up.setReg (tkReg Off.TK_STAT) 16, by decide +kernel⟩
theorem witness_FabricTimeRuns_3 : ∃ (s : State),
    tkDrives s = true :=
  ⟨up.setReg (tkReg Off.TK_FADJ) 0xFFFFFF00, by decide +kernel⟩
theorem witness_FabricTimeRuns_4 : ∃ (u : Fin 64) (r0 : BitVec 16) (r1 : BitVec 16) (x : BitVec 12) (s : State),
    (tkDrives s = true ∨ s.tkNone = true ∧ holdover s = false) ∧ s.calN < 63 :=
  ⟨5, 3, 4, 6, up, by decide +kernel⟩
theorem witness_FabricTimeRuns_5 : ∃ (u : Fin 64) (r0 : BitVec 16) (r1 : BitVec 16) (x : BitVec 12) (s : State),
    (tkDrives s = true ∨ s.tkNone = true ∧ holdover s = false) ∧ 63 ≤ s.calN :=
  ⟨5, 3, 4, 6, { up with calN := 63, calMax := 9 }, by decide +kernel⟩
theorem witness_FabricTimeRuns_7 : ∃ (v : W) (s : State),
    s.tkNone = false ∧ fstate s ≠ 2 ∧ braced s = false :=
  ⟨0xFFFFFFFFF, up, by decide +kernel⟩
theorem witness_FabricTimeRuns_8 : ∃ (d : Int) (e : Nat) (rest : List (Int × Nat)) (s : State),
    takeFirst (fun x => decide (x.2 ≤ s.fc / 8)) s.steps = some ((d, e), rest) ∧ (s.launches.map (fun l => l.fid)).Nodup ∧ (∀ l ∈ s.launches, l.edge.all (fun x => decide (x ≤ s.fc / 8)) = true) :=
  ⟨9, 0, [], { up with steps := [(9, 0)], launches := [{ fid := 1, lt := 5, lt0 := 5, aseq := 0 }] }, by decide +kernel⟩
theorem witness_FabricTimeRuns_10 : ∃ (sub : Fin 16) (s : State),
    regBit s (tkReg Off.TK_CTRL) 0 = true ∧ regBit s (tkReg Off.TK_CTRL) 2 = false ∧ s.tkNone = false ∧ holdover s = false ∧ s.reg (tkReg Off.TK_PPS_COMP) = 0 :=
  ⟨3, { up with ft := 999999999999 }.setReg (tkReg Off.TK_CTRL) 1, by decide +kernel⟩
theorem witness_FabricTimeRuns_11 : ∃ (sub : Fin 16) (s : State),
    regBit s (tkReg Off.TK_CTRL) 0 = true ∧ regBit s (tkReg Off.TK_CTRL) 2 = true ∧ s.tkNone = false ∧ holdover s = false :=
  ⟨3, up.setReg (tkReg Off.TK_CTRL) 5, by decide +kernel⟩
theorem witness_FabricTimeRuns_12 : ∃ (u : Nat) (rest : List Nat) (s : State),
    holdover s = false ∧ s.profDue = u :: rest ∧ taVtrans s u = false :=
  ⟨5, [9], { up with profDue := [5, 9] }, by decide +kernel⟩
theorem witness_FabricTimeRuns_13_a : ∃ (d : Int) (e : Nat) (x : Nat) (m : Nat) (l : Launch) (rest : List (Int × Nat)) (s : State),
    takeFirst (fun x => decide (x.2 ≤ s.fc / 8)) s.steps = some ((d, e), rest) ∧ s.launches = [l] ∧ l.edge = some x ∧ s.fc / 8 < x ∧ s.braces = [] ∧ m = (if ftNow s < l.lt ∧ l.lt ≤ ((s.ft : Int) + d * 2 ^ 24).toNat % (2 ^ 36 * ftSec * 2 ^ 24) / 2 ^ 24 then max l.minEdge (s.fc / 8 + 128) else if x ≤ edgeOf s l.lt then l.minEdge else if d < 0 then max l.minEdge (x + ceilDiv (d.natAbs * 2 ^ 24) (incNow s)) else if l.lt ≤ ftNow s then max l.minEdge x else l.minEdge) :=
  ⟨9, 0, 3, 128, { fid := 1, lt := 5, lt0 := 5, aseq := 0, edge := some 3 }, [], { up with ft := 0, steps := [(9, 0)], launches := [{ fid := 1, lt := 5, lt0 := 5, aseq := 0, edge := some 3 }] }, by decide +kernel⟩
theorem witness_FabricTimeRuns_13_b : ∃ (d : Int) (e : Nat) (x : Nat) (m : Nat) (l : Launch) (rest : List (Int × Nat)) (s : State),
    takeFirst (fun x => decide (x.2 ≤ s.fc / 8)) s.steps = some ((d, e), rest) ∧ s.launches = [l] ∧ l.edge = some x ∧ s.fc / 8 < x ∧ s.braces = [] ∧ m = (if ftNow s < l.lt ∧ l.lt ≤ ((s.ft : Int) + d * 2 ^ 24).toNat % (2 ^ 36 * ftSec * 2 ^ 24) / 2 ^ 24 then max l.minEdge (s.fc / 8 + 128) else if x ≤ edgeOf s l.lt then l.minEdge else if d < 0 then max l.minEdge (x + ceilDiv (d.natAbs * 2 ^ 24) (incNow s)) else if l.lt ≤ ftNow s then max l.minEdge x else l.minEdge) :=
  ⟨9, 0, 3, 0, { fid := 1, lt := 500, lt0 := 500, aseq := 0, edge := some 3 }, [], { up with ft := 0, steps := [(9, 0)], launches := [{ fid := 1, lt := 500, lt0 := 500, aseq := 0, edge := some 3 }] }, by decide +kernel⟩
theorem witness_FabricTimeRuns_13_c : ∃ (d : Int) (e : Nat) (x : Nat) (m : Nat) (l : Launch) (rest : List (Int × Nat)) (s : State),
    takeFirst (fun x => decide (x.2 ≤ s.fc / 8)) s.steps = some ((d, e), rest) ∧ s.launches = [l] ∧ l.edge = some x ∧ s.fc / 8 < x ∧ s.braces = [] ∧ m = (if ftNow s < l.lt ∧ l.lt ≤ ((s.ft : Int) + d * 2 ^ 24).toNat % (2 ^ 36 * ftSec * 2 ^ 24) / 2 ^ 24 then max l.minEdge (s.fc / 8 + 128) else if x ≤ edgeOf s l.lt then l.minEdge else if d < 0 then max l.minEdge (x + ceilDiv (d.natAbs * 2 ^ 24) (incNow s)) else if l.lt ≤ ftNow s then max l.minEdge x else l.minEdge) :=
  ⟨9, 0, 300, 0, { fid := 1, lt := 500, lt0 := 500, aseq := 0, edge := some 300 }, [], { up with ft := 0, steps := [(9, 0)], launches := [{ fid := 1, lt := 500, lt0 := 500, aseq := 0, edge := some 300 }] }, by decide +kernel⟩
theorem witness_FabricTimeRuns_13_d : ∃ (d : Int) (e : Nat) (x : Nat) (m : Nat) (l : Launch) (rest : List (Int × Nat)) (s : State),
    takeFirst (fun x => decide (x.2 ≤ s.fc / 8)) s.steps = some ((d, e), rest) ∧ s.launches = [l] ∧ l.edge = some x ∧ s.fc / 8 < x ∧ s.braces = [] ∧ m = (if ftNow s < l.lt ∧ l.lt ≤ ((s.ft : Int) + d * 2 ^ 24).toNat % (2 ^ 36 * ftSec * 2 ^ 24) / 2 ^ 24 then max l.minEdge (s.fc / 8 + 128) else if x ≤ edgeOf s l.lt then l.minEdge else if d < 0 then max l.minEdge (x + ceilDiv (d.natAbs * 2 ^ 24) (incNow s)) else if l.lt ≤ ftNow s then max l.minEdge x else l.minEdge) :=
  ⟨-9, 0, 300, 301, { fid := 1, lt := 50, lt0 := 50, aseq := 0, edge := some 300 }, [], { up with ft := 2 ^ 30, steps := [(-9, 0)], launches := [{ fid := 1, lt := 50, lt0 := 50, aseq := 0, edge := some 300 }] }, by decide +kernel⟩
theorem witness_FabricTimeRuns_13_e : ∃ (d : Int) (e : Nat) (x : Nat) (m : Nat) (l : Launch) (rest : List (Int × Nat)) (s : State),
    takeFirst (fun x => decide (x.2 ≤ s.fc / 8)) s.steps = some ((d, e), rest) ∧ s.launches = [l] ∧ l.edge = some x ∧ s.fc / 8 < x ∧ s.braces = [] ∧ m = (if ftNow s < l.lt ∧ l.lt ≤ ((s.ft : Int) + d * 2 ^ 24).toNat % (2 ^ 36 * ftSec * 2 ^ 24) / 2 ^ 24 then max l.minEdge (s.fc / 8 + 128) else if x ≤ edgeOf s l.lt then l.minEdge else if d < 0 then max l.minEdge (x + ceilDiv (d.natAbs * 2 ^ 24) (incNow s)) else if l.lt ≤ ftNow s then max l.minEdge x else l.minEdge) :=
  ⟨9, 0, 300, 300, { fid := 1, lt := 50, lt0 := 50, aseq := 0, edge := some 300 }, [], { up with ft := 2 ^ 30, steps := [(9, 0)], launches := [{ fid := 1, lt := 50, lt0 := 50, aseq := 0, edge := some 300 }] }, by decide +kernel⟩
theorem witness_TimeKeepersSwitch_1 : ∃ (s : State),
    stbyOk s = true ∧ s.tkNone = false ∧ switching s = false ∧ fstate s ≠ 2 ∧ braced s = false :=
  ⟨up.setReg (tkReg Off.TK_STAT) 2, by decide +kernel⟩
theorem witness_TimeKeepersSwitch_2 : ∃ (s : State),
    (stbyOk s = false ∨ s.tkNone = true) ∧ s.evq.length < 16 ∧ fstate s ≠ 2 ∧ braced s = false :=
  ⟨up, by decide +kernel⟩
theorem witness_TimeKeepersSwitch_3 : ∃ (s : State),
    s.tkDead.testBit (1 - activeTk s) = false ∧ s.tkNone = false ∧ switching s = false :=
  ⟨up.setReg (tkReg Off.TK_STAT) 2, by decide +kernel⟩
theorem witness_TimeKeepersSwitch_4 : ∃ (s : State),
    switching s = true ∧ s.tkUnasked = false ∧ s.evq.length < 16 :=
  ⟨up.setReg (tkReg Off.TK_STAT) 6, by decide +kernel⟩
theorem witness_TimeKeepersSwitch_5 : ∃ (s : State),
    switching s = true ∧ s.tkUnasked = true ∧ s.launches = [] ∧ Sparse.get (fun _ => none) s.tkBack (activeTk s) = none :=
  ⟨{ up with tkUnasked := true }.setReg (tkReg Off.TK_STAT) 7, by decide +kernel⟩
theorem witness_TimeKeepersSwitch_6 : ∃ (u : Fin 64) (s : State),
    switching s = false ∧ holdover s = false ∧ (s.ta u).tkLost = false ∧ (∀ k < 8, slotArmed s k = false) ∧ s.tkNone = false ∧ s.evq.length < 16 :=
  ⟨5, up.setReg (tkReg Off.TK_STAT) 2, by decide +kernel⟩
theorem witness_TimeKeepersSwitch_7 : ∃ (k : Fin 2) (s : State),
    s.tkDead.testBit k.val = false ∧ holdover s = false ∧ switching s = false ∧ s.tkNone = false ∧ k.val ≠ activeTk s ∧ stbyOk s = false ∧ s.calDue = 0 :=
  ⟨1, up, by decide +kernel⟩
theorem witness_TimeKeepersSwitch_8 : ∃ (k : Fin 2) (s : State),
    s.tkDead.testBit k.val = false ∧ holdover s = false ∧ switching s = false ∧ s.tkNone = true ∧ s.calDue = 0 :=
  ⟨1, { up with tkNone := true }, by decide +kernel⟩
theorem witness_TimeKeepersSwitch_9 : ∃ (s : State),
    regBit s (tkReg Off.TK_ALARM_CTRL) 0 = true ∧ alarmFt s ≤ ftNow s ∧ s.onCell = false ∧ ((fstate s ≠ 2 ∨ regBit s (pwrReg Off.PWR_WAKE_CFG) 0 = false)) :=
  ⟨up.setReg (tkReg Off.TK_ALARM_CTRL) 1, by decide +kernel⟩
theorem witness_TimeKeepersSwitch_10 : ∃ (s : State),
    regBit s (tkReg Off.TK_ALARM_CTRL) 0 = true ∧ alarmFt s ≤ ftNow s ∧ s.onCell = false ∧ fstate s = 2 ∧ regBit s (pwrReg Off.PWR_WAKE_CFG) 0 = true :=
  ⟨((up.setReg (tkReg Off.TK_ALARM_CTRL) 1).setReg (pwrReg Off.PWR_STAT) 2).setReg (pwrReg Off.PWR_WAKE_CFG) 1, by decide +kernel⟩
theorem witness_TimeKeepersSwitch_11 : ∃ (u : Fin 64) (k : Fin 8) (s : State),
    switching s = false ∧ holdover s = false ∧ (s.ta u).tkLost = false ∧ s.tkNone = false ∧ slotArmed s k = true ∧ (∀ j < 8, j ≠ k.val → slotArmed s j = false) :=
  ⟨5, 2, { ((up.setReg (tkReg Off.TK_STAT) 2).setReg (slotReg 2 Off.FNF_STAT) 0x25).setSlot 2 { ents := [{ addr := 0x100000005, data := [7], ni := 5 }] } with launches := [{ fid := 2, lt := 1000, lt0 := 1000, aseq := 7, nis := [5] }] }, by decide +kernel⟩
theorem witness_FanfareCommands_1 : ∃ (k : Fin 8) (es : List FEnt) (s : State),
    slotState s k = 0 ∧ regBit s (fnfReg Off.FNF_CTRL) 0 = true ∧ (checkPass s (getFld s (slotReg k Off.FNF_LEN) 0 13) 0 (s.reg (slotReg k Off.FNF_LIST)).toNat []).1.toOption = some es ∧ listAwake s (s.reg (slotReg k Off.FNF_LIST)).toNat (getFld s (slotReg k Off.FNF_LEN) 0 13) = true ∧ es.length ≤ 64 ∧ s.stageQ = [] ∧ s.route = none ∧ (∀ e ∈ es, placesHeld s e.ni = 0) ∧ fstate s ≠ 2 :=
  ⟨2, [{ addr := 0x100000005, data := [7], ni := 5, at_ := some 0x200000 }], ((((up.setReg (fnfReg Off.FNF_CTRL) 1).setReg (slotReg 2 Off.FNF_LEN) 1).setReg (slotReg 2 Off.FNF_LIST) 0x200000).setWord 0x200000 0x100000005).setWord 0x200002 7, by decide +kernel⟩
theorem witness_FanfareCommands_2 : ∃ (k : Fin 8) (es : List FEnt) (s : State),
    slotState s k = 0 ∧ regBit s (fnfReg Off.FNF_CTRL) 0 = true ∧ (checkPass s (getFld s (slotReg k Off.FNF_LEN) 0 13) 0 (s.reg (slotReg k Off.FNF_LIST)).toNat []).1.toOption = some es ∧ listAwake s (s.reg (slotReg k Off.FNF_LIST)).toNat (getFld s (slotReg k Off.FNF_LEN) 0 13) = true ∧ es.length ≤ 64 ∧ s.stageQ = [] ∧ s.route = none ∧ (∀ e ∈ es, placesHeld s e.ni = 0) ∧ fstate s ≠ 2 :=
  ⟨2, [{ addr := 0x100000005, data := [7], ni := 5, at_ := some 0x200000 }], ((((up.setReg (fnfReg Off.FNF_CTRL) 1).setReg (slotReg 2 Off.FNF_LEN) 1).setReg (slotReg 2 Off.FNF_LIST) 0x200000).setWord 0x200000 0x100000005).setWord 0x200002 7, by decide +kernel⟩
theorem witness_FanfareCommands_3 : ∃ (k : Fin 8) (l : Launch) (s : State),
    slotState s k = 5 ∧ findLaunch s (slotFid s k) = some l ∧ l.edge = none ∧ fstate s ≠ 2 :=
  ⟨2, { fid := 2, lt := 1000, lt0 := 1000, aseq := 7, nis := [5] }, { ((up.setReg (slotReg 2 Off.FNF_STAT) 0x25).setSlot 2 {}) with launches := [{ fid := 2, lt := 1000, lt0 := 1000, aseq := 7, nis := [5] }] }, by decide +kernel⟩
theorem witness_FanfareCommands_4 : ∃ (k : Fin 8) (l : Launch) (s : State),
    slotState s k = 5 ∧ findLaunch s (slotFid s k) = some l ∧ l.edge.isSome = true ∧ fstate s ≠ 2 :=
  ⟨2, { fid := 2, lt := 1000, lt0 := 1000, aseq := 7, edge := some 9 }, { ((up.setReg (slotReg 2 Off.FNF_STAT) 0x25).setSlot 2 {}) with launches := [{ fid := 2, lt := 1000, lt0 := 1000, aseq := 7, edge := some 9 }] }, by decide +kernel⟩
theorem witness_FanfareCommands_5 : ∃ (k : Fin 8) (s : State),
    (slotState s k = 1 ∨ slotState s k = 3) ∧ s.stageQ.filter (fun j => decide (j ≠ k.val)) = [] ∧ fstate s ≠ 2 :=
  ⟨2, ({ up with stageQ := [2] }.setReg (slotReg 2 Off.FNF_STAT) 0x21).setSlot 2 { ents := [{ addr := 0x100000005, data := [7], ni := 5 }] }, by decide +kernel⟩
theorem witness_FanfareCommands_6 : ∃ (k : Fin 8) (s : State),
    slotState s k = 4 ∧ fstate s ≠ 2 :=
  ⟨2, up.setReg (slotReg 2 Off.FNF_STAT) 0x24, by decide +kernel⟩
theorem witness_FanfareCommands_7 : ∃ (b : Block) (o : Nat) (r : Row) (k : Fin 8) (s : State),
    s.inReset = false ∧ s.hrpQ = [] ∧ target s (slotReg k Off.FNF_STAT) = some (b, o, r) ∧ slotState s k = 8 ∧ coresIdle s :=
  ⟨.fnf, ((regAt (slotReg 2 Off.FNF_STAT)).map (fun x => x.2.1)).getD 0, ((regAt (slotReg 2 Off.FNF_STAT)).map (fun x => x.2.2)).getD { off := 0, acc := .ro }, 2, up.setReg (slotReg 2 Off.FNF_STAT) 0x28, by decide +kernel⟩
theorem witness_FanfareCommands_8 : ∃ (b : Block) (o : Nat) (r : Row) (k : Fin 8) (s : State),
    s.inReset = false ∧ s.dbgQ = [] ∧ target s (slotReg k Off.FNF_STAT) = some (b, o, r) ∧ slotState s k = 8 ∧ coresIdle s :=
  ⟨.fnf, ((regAt (slotReg 2 Off.FNF_STAT)).map (fun x => x.2.1)).getD 0, ((regAt (slotReg 2 Off.FNF_STAT)).map (fun x => x.2.2)).getD { off := 0, acc := .ro }, 2, up.setReg (slotReg 2 Off.FNF_STAT) 0x28, by decide +kernel⟩
theorem witness_FanfareCommands_9 : ∃ (c : Fin 2) (b : Block) (o : Nat) (r : Row) (k : Fin 8) (s : State),
    target s (slotReg k Off.FNF_STAT) = some (b, o, r) ∧ slotState s k = 8 ∧ matrixTakes s (coreNode s c) = true ∧ coreGoes s c (slotReg k Off.FNF_STAT) 1 ∧ accessFails s (448 + c) (slotReg k Off.FNF_STAT) 1 true false (corePriv s c) = none ∧ coresIdle s :=
  ⟨1, .fnf, ((regAt (slotReg 2 Off.FNF_STAT)).map (fun x => x.2.1)).getD 0, ((regAt (slotReg 2 Off.FNF_STAT)).map (fun x => x.2.2)).getD { off := 0, acc := .ro }, 2, up.setReg (slotReg 2 Off.FNF_STAT) 0x28, by decide +kernel⟩
theorem witness_StagingAndArming_1 : ∃ (n : NiId) (p : Pkt) (rest : List Pkt) (s : State),
    nextEject s n.idx (fun p => decide (p.opc = Opc.FSTAGE)) = some (p, rest) ∧ p.poisoned = false ∧ isWindow s p.addr = false :=
  ⟨⟨0, 5⟩, { opc := Opc.FSTAGE, src := 6, cnt := 1, tag := 0x22, flg := 2, arg := 0x100000005, words := [7], sc := 6 }, [], up.setNi 5 { eject := [{ opc := Opc.FSTAGE, src := 6, cnt := 1, tag := 0x22, flg := 2, arg := 0x100000005, words := [7], sc := 6 }] }, by decide +kernel⟩
theorem witness_StagingAndArming_2 : ∃ (n : NiId) (p : Pkt) (rest : List Pkt) (e : HoldEnt) (s : State),
    nextEject s n.idx (fun p => decide (p.opc = Opc.FSTAGE)) = some (p, rest) ∧ p.poisoned = false ∧ isWindow s p.addr = true ∧ (s.ni n.idx).urst = false ∧ e = { fid := p.tag, addr := p.addr, data := p.words.take p.cnt, last := p.flag 1, delivered := true, src := p.src } :=
  ⟨nA, { opc := Opc.FSTAGE, src := 6, cnt := 1, tag := 0x22, flg := 2, arg := 0x200000005, words := [7], sc := 6 }, [], { fid := 0x22, addr := 0x200000005, data := [7], last := true, delivered := true, src := 6 }, up.setNi 0 { eject := [{ opc := Opc.FSTAGE, src := 6, cnt := 1, tag := 0x22, flg := 2, arg := 0x200000005, words := [7], sc := 6 }] }, by decide +kernel⟩
theorem witness_StagingAndArming_3 : ∃ (n : NiId) (f : BitVec 8) (e : HoldEnt) (s : State),
    ((s.ni n.idx).hold.filter (fun e => decide (e.fid = f.toNat))).find? (fun e => e.last && !e.sent) = some e ∧ ((∀ g ∈ (s.ni n.idx).hold, g.fid = f.toNat → g.delivered = true)) :=
  ⟨⟨0, 5⟩, 0x22, { fid := 0x22, addr := 0x100000005, data := [7], last := true, delivered := true, src := 6 }, up.setNi 5 { hold := [{ fid := 0x22, addr := 0x100000005, data := [7], last := true, delivered := true, src := 6 }] }, by decide +kernel⟩
theorem witness_StagingAndArming_4_a : ∃ (n : NiId) (late : Bool) (b : Strobe) (q : List Strobe) (s : State),
    (s.ni n.idx).strobes = b :: q ∧ tileDark s (n.idx / 7) = false :=
  ⟨nA, true, ⟨true, 4⟩, [], up.setNi 0 { strobes := [⟨true, 4⟩] }, by decide +kernel⟩
theorem witness_StagingAndArming_4_b : ∃ (n : NiId) (late : Bool) (b : Strobe) (q : List Strobe) (s : State),
    (s.ni n.idx).strobes = b :: q ∧ tileDark s (n.idx / 7) = false :=
  ⟨nA, false, ⟨true, 4⟩, [], up.setNi 0 { strobes := [⟨true, 4⟩] }, by decide +kernel⟩
theorem witness_StagingAndArming_5 : ∃ (c : Fin 2) (p : Pkt) (rest : List Pkt) (w : Nat × Nat) (s : State),
    nextEject s (coordPort c) (fun p => decide (p.opc = Opc.FSTGD)) = some (p, rest) ∧ slotFid s (p.tag % 8) = p.tag ∧ slotState s (p.tag % 8) = 1 ∧ (s.slot (p.tag % 8)).want = [w] ∧ w.1 = nodeNi p.src ∧ w.2 = p.cnt ∧ (s.slot (p.tag % 8)).todo = [] ∧ (s.slot (p.tag % 8)).stageOnly = false ∧ getFld s (slotReg (p.tag % 8) Off.FNF_XCNT) 0 15 = 0 ∧ coordNi s = (coordPort c) ∧ s.tkNone = false :=
  ⟨0, { opc := Opc.FSTGD, src := 5, cnt := 1, tag := 0x22, sc := 6 }, [], (5, 1), ((up.setReg (slotReg 2 Off.FNF_STAT) 0x221).setSlot 2 { ents := [{ addr := 0x100000005, data := [7], ni := 5 }], want := [(5, 1)] }).setNi 6 { eject := [{ opc := Opc.FSTGD, src := 5, cnt := 1, tag := 0x22, sc := 6 }] }, by decide +kernel⟩
theorem witness_StagingAndArming_6 : ∃ (c : Fin 2) (p : Pkt) (rest : List Pkt) (w : Nat × Nat) (s : State),
    nextEject s (coordPort c) (fun p => decide (p.opc = Opc.FSTGD)) = some (p, rest) ∧ slotFid s (p.tag % 8) = p.tag ∧ slotState s (p.tag % 8) = 1 ∧ (s.slot (p.tag % 8)).want = [w] ∧ w.1 = nodeNi p.src ∧ w.2 = p.cnt ∧ (s.slot (p.tag % 8)).todo = [] ∧ (s.slot (p.tag % 8)).stageOnly = true :=
  ⟨0, { opc := Opc.FSTGD, src := 5, cnt := 1, tag := 0x22, sc := 6 }, [], (5, 1), (((up.setReg (slotReg 2 Off.FNF_STAT) 0x221).setSlot 2 { ents := [{ addr := 0x100000005, data := [7], ni := 5 }], want := [(5, 1)] }).setSlot 2 { stageOnly := true, want := [(5, 1)] }).setNi 6 { eject := [{ opc := Opc.FSTGD, src := 5, cnt := 1, tag := 0x22, sc := 6 }] }, by decide +kernel⟩
theorem witness_StagingAndArming_7 : ∃ (c : Fin 2) (p : Pkt) (rest : List Pkt) (s : State),
    s.tkNone = false ∧ nextEject s (keeperPort c) (fun p => decide (p.opc = Opc.FARM)) = some (p, rest) ∧ slotFid s (p.tag % 8) = p.tag ∧ slotState s (p.tag % 8) = 4 ∧ findLaunch s p.tag = none ∧ ftNow s + 128000 ≤ ftOfWords p.arg (wordAt p.words 0) :=
  ⟨0, { opc := Opc.FARM, src := 6, tag := 0x22, arg := 5, words := [3], sc := 6 }, [], ((up.setReg (slotReg 2 Off.FNF_STAT) 0x224).setSlot 2 { ents := [{ addr := 0x100000005, data := [7], ni := 5 }] }).setNi 5 { eject := [{ opc := Opc.FARM, src := 6, tag := 0x22, arg := 5, words := [3], sc := 6 }] }, by decide +kernel⟩
theorem witness_StagingAndArming_8 : ∃ (u : Fin 64) (f : BitVec 8) (l : Launch) (s : State),
    findLaunch s f.toNat = some l ∧ (u.val ∈ l.nis.map (fun n => n / 7)) ∧ tileState s u = 2 :=
  ⟨0, 2, { fid := 2, lt := 1000, lt0 := 1000, aseq := 7, nis := [5] }, { up with launches := [{ fid := 2, lt := 1000, lt0 := 1000, aseq := 7, nis := [5] }] }.setReg (taReg 0 Off.PWR_TA_STAT) 2, by decide +kernel⟩
theorem witness_StagingAndArming_9 : ∃ (k : Fin 8) (w : Nat × Nat) (q : List (Nat × Nat)) (s : State),
    (s.slot k).want = w :: q ∧ slotState s k = 1 ∧ s.stageQ.filter (fun j => decide (j ≠ k.val)) = [] :=
  ⟨2, (5, 1), [], ((up.setReg (slotReg 2 Off.FNF_STAT) 0x221).setSlot 2 { ents := [{ addr := 0x100000005, data := [7], ni := 5 }], want := [(5, 1)] }), by decide +kernel⟩
theorem witness_StagingAndArming_10 : ∃ (f : BitVec 8) (n : NiId) (rest : List (Nat × Nat)) (s : State),
    takeFirst (fun p => decide (p = (f.toNat, n.idx))) s.losts = some ((f.toNat, n.idx), rest) ∧ slotFid s (f.toNat % 8) = f.toNat ∧ slotState s (f.toNat % 8) = 4 ∧ lastMoments s f.toNat = false ∧ (s.slot (f.toNat % 8)).part = false ∧ (s.slot (f.toNat % 8)).cross = false :=
  ⟨0x22, ⟨0, 5⟩, [], { ((up.setReg (slotReg 2 Off.FNF_STAT) 0x224).setSlot 2 { ents := [{ addr := 0x100000005, data := [7], ni := 5 }] }) with losts := [(0x22, 5)] }, by decide +kernel⟩
theorem witness_LaunchesRunAndEnd_1 : ∃ (f : BitVec 8) (l : Launch) (s : State),
    findLaunch s f.toNat = some l ∧ mayIssue s l = true ∧ missingAt s l = none ∧ braceHolds s (launchEdgeOf s l 64) = false :=
  ⟨0x22, { fid := 0x22, lt := 0, lt0 := 0, aseq := 7, nis := [5] }, ({ ((up.setReg (slotReg 2 Off.FNF_STAT) 0x224).setSlot 2 { ents := [{ addr := 0x100000005, data := [7], ni := 5 }] }) with launches := [{ fid := 0x22, lt := 0, lt0 := 0, aseq := 7, nis := [5] }] }).setNi 5 { hold := [{ fid := 0x22, addr := 0x100000005, data := [7], last := true, delivered := true, src := 6 }] }, by decide +kernel⟩
theorem witness_LaunchesRunAndEnd_2 : ∃ (e : Nat) (x : FEnt) (v : W) (u : Nat) (off : Nat) (f : BitVec 8) (l : Launch) (s : State),
    findLaunch s f.toNat = some l ∧ sameEdge s l e = [l] ∧ l.edge = some e ∧ e ≤ s.fc / 8 ∧ l.per = 0 ∧ (s.slot (l.fid % 8)).cross = false ∧ (s.slot (l.fid % 8)).part = false ∧ (s.slot (l.fid % 8)).ticket = none ∧ (s.slot (l.fid % 8)).ents = [x] ∧ x.data = [v] ∧ regionOf s x.addr = .tmem u off ∧ (s.tmc u).q = [] ∧ stillHeld s l.fid x = true ∧ l.nis = [x.ni] ∧ x.ni % 7 = 5 ∧ ftAt s e * 2 ^ 24 < l.lt * 2 ^ 24 + incNow s ∧ coresIdle s :=
  ⟨0, { addr := 0x100000005, data := [7], ni := 5 }, 7, 0, 5, 0x22, { fid := 0x22, lt := 0, lt0 := 0, aseq := 7, nis := [5], edge := some 0 }, ({ ((up.setReg (slotReg 2 Off.FNF_STAT) 0x224).setSlot 2 { ents := [{ addr := 0x100000005, data := [7], ni := 5 }] }) with launches := [{ fid := 0x22, lt := 0, lt0 := 0, aseq := 7, nis := [5], edge := some 0 }] }).setNi 5 { hold := [{ fid := 0x22, addr := 0x100000005, data := [7], last := true, delivered := true, src := 6 }] }, by decide +kernel⟩
theorem witness_LaunchesRunAndEnd_3 : ∃ (f : BitVec 8) (rest : List Nat) (s : State),
    takeFirst (fun g => decide (g = f.toNat)) s.aborts = some (f.toNat, rest) :=
  ⟨0x22, [], ({ up with aborts := [0x22] }).setNi 5 { hold := [{ fid := 0x22, addr := 0x100000005, data := [7], last := true, delivered := true, src := 6 }] }, by decide +kernel⟩
theorem witness_LaunchesRunAndEnd_4 : ∃ (n : NiId) (p : Pkt) (rest : List Pkt) (s : State),
    nextEject s n.idx (fun p => decide (p.opc = Opc.FABRT)) = some (p, rest) ∧ (∀ e ∈ s.launches, e.fid ≠ p.tag) :=
  ⟨⟨0, 5⟩, { opc := Opc.FABRT, src := 6, tag := 0x22, sc := 6 }, [], up.setNi 5 { hold := [{ fid := 0x22, addr := 0x100000005, data := [7], last := true, delivered := true, src := 6 }], eject := [{ opc := Opc.FABRT, src := 6, tag := 0x22, sc := 6 }] }, by decide +kernel⟩
theorem witness_LaunchesRunAndEnd_5 : ∃ (k : Fin 8) (s : State),
    slotState s k = 6 ∧ s.stageQ = [] :=
  ⟨2, (up.setReg (slotReg 2 Off.FNF_STAT) 0x226).setSlot 2 { ents := [{ addr := 0x100000005, data := [7], ni := 5 }] }, by decide +kernel⟩
theorem witness_LaunchesRunAndEnd_6 : ∃ (k : Fin 8) (s : State),
    slotState s k = 7 ∧ s.stageQ = [] :=
  ⟨2, (up.setReg (slotReg 2 Off.FNF_STAT) 0x227).setSlot 2 { ents := [{ addr := 0x100000005, data := [7], ni := 5 }] }, by decide +kernel⟩
theorem witness_LaunchesRunAndEnd_7 : ∃ (u : Fin 64) (d : Fin 601) (s : State),
    (s.ta u).busyDue = true :=
  ⟨0, 30, ({ (up.setSlot 2 { ents := [{ addr := rtrReg 0 Off.RTR_CTRL, data := [7], ni := 5 }] }) with launches := [{ fid := 0x22, lt := 0, lt0 := 0, aseq := 7, nis := [5], edge := some 0 }] }).setTa 0 { busyDue := true }, by decide +kernel⟩
theorem witness_LaunchesRunAndEnd_8 : ∃ (n : Nat) (rest : List HeldReset) (s : State),
    takeFirst (fun r => !heldLate s r) s.heldResets = some (.ni n, rest) ∧ n < 448 ∧ n % 7 ≠ 5 ∧ s.ni n = {} ∧ (n ≠ niOf 56 6 ∨ extEn s = false) :=
  ⟨0, [], { upA with heldResets := [.ni 0] }, by decide +kernel⟩
theorem witness_LaunchesRunAndEnd_9 : ∃ (u : Fin 64) (xs : List (Nat × W)) (e : Nat) (f : BitVec 8) (l : Launch) (s : State),
    findLaunch s f.toNat = some l ∧ sameEdge s l e = [l] ∧ l.edge = some e ∧ e ≤ s.fc / 8 ∧ ftAt s e * 2 ^ 24 < l.lt * 2 ^ 24 + incNow s ∧ coresIdle s ∧ l.per = 0 ∧ (s.slot (l.fid % 8)).cross = false ∧ (s.slot (l.fid % 8)).part = false ∧ (s.slot (l.fid % 8)).ticket = none ∧ l.nis = [7 * u.val + 5] ∧ (s.slot (l.fid % 8)).ents.map (fun x => (x.addr, x.data, x.ni)) = xs.map (fun p => (0x100000000 + u.val * 0x20000 + p.1, [p.2], 7 * u.val + 5)) ∧ (∀ p ∈ xs, regionOf s (0x100000000 + u.val * 0x20000 + p.1) = .tmem u p.1) ∧ (∀ x ∈ (s.slot (l.fid % 8)).ents, stillHeld s l.fid x = true) ∧ (s.tmc u).q = [] :=
  ⟨0, [(5, 7), (6, 8), (5, 9)], 0, 0x22, { fid := 0x22, lt := 0, lt0 := 0, aseq := 7, nis := [5], edge := some 0 }, ({ (((up.setReg (slotReg 2 Off.FNF_STAT) 0x224)).setSlot 2 { ents := [{ addr := 0x100000005, data := [7], ni := 5 }, { addr := 0x100000006, data := [8], ni := 5 }, { addr := 0x100000005, data := [9], ni := 5 }] }) with launches := [{ fid := 0x22, lt := 0, lt0 := 0, aseq := 7, nis := [5], edge := some 0 }] }).setNi 5 { hold := [{ fid := 0x22, addr := 0x100000005, data := [7], last := true, delivered := true, src := 6 }, { fid := 0x22, addr := 0x100000006, data := [8], last := true, delivered := true, src := 6 }, { fid := 0x22, addr := 0x100000005, data := [9], last := true, delivered := true, src := 6 }] }, by decide +kernel⟩
theorem witness_LaunchesRunAndEnd_10 : ∃ (n : NiId) (x : FEnt) (v : W) (o : Nat) (r : Row) (e : Nat) (f : BitVec 8) (l : Launch) (s : State),
    findLaunch s f.toNat = some l ∧ sameEdge s l e = [l] ∧ l.edge = some e ∧ e ≤ s.fc / 8 ∧ ftAt s e * 2 ^ 24 < l.lt * 2 ^ 24 + incNow s ∧ coresIdle s ∧ l.per = 0 ∧ (s.slot (l.fid % 8)).cross = false ∧ (s.slot (l.fid % 8)).part = false ∧ (s.slot (l.fid % 8)).ticket = none ∧ l.nis = [n.idx] ∧ (s.slot (l.fid % 8)).ents = [x] ∧ x.ni = n.idx ∧ x.data = [v] ∧ stillHeld s l.fid x = true ∧ target s x.addr = some (.ni n.t n.p, o, r) ∧ awake s x.addr = true ∧ 0xF00000000 ≤ x.addr ∧ (r.acc = .rw ∨ r.acc = .fw) ∧ o ∉ loadRegs ++ [Off.NI_CTRL, Off.NI_SPRAY_SEED, Off.NI_TB_SC7, Off.NI_TB_SC6, Off.NI_TB_SC5, Off.NI_PUNT_TB, Off.NI_UINT_MASK] ∧ n.idx % 7 ≠ 5 ∧ populated s n.idx = true ∧ (s.ni n.idx).strobes.length < 8 :=
  ⟨nA, { addr := niReg 0 Off.NI_PHOLD_DST, data := [9], ni := 0 }, 9, Off.NI_PHOLD_DST, ((regAt (niReg 0 Off.NI_PHOLD_DST)).map (fun x => x.2.2)).getD { off := 0, acc := .ro }, 0, 0x22, { fid := 0x22, lt := 0, lt0 := 0, aseq := 7, nis := [0], edge := some 0 }, ({ (((upA.setReg (slotReg 2 Off.FNF_STAT) 0x224)).setSlot 2 { ents := [{ addr := niReg 0 Off.NI_PHOLD_DST, data := [9], ni := 0 }] }) with launches := [{ fid := 0x22, lt := 0, lt0 := 0, aseq := 7, nis := [0], edge := some 0 }] }).setNi 0 { hold := [{ fid := 0x22, addr := niReg 0 Off.NI_PHOLD_DST, data := [9], last := true, delivered := true, src := 6 }] }, by decide +kernel⟩
theorem witness_LaunchesRunAndEnd_11 : ∃ (n : NiId) (x : FEnt) (e : Nat) (f : BitVec 8) (l : Launch) (s : State),
    findLaunch s f.toNat = some l ∧ sameEdge s l e = [l] ∧ l.edge = some e ∧ e ≤ s.fc / 8 ∧ ftAt s e * 2 ^ 24 < l.lt * 2 ^ 24 + incNow s ∧ coresIdle s ∧ l.per = 0 ∧ (s.slot (l.fid % 8)).cross = false ∧ (s.slot (l.fid % 8)).part = false ∧ (s.slot (l.fid % 8)).ticket = none ∧ l.nis = [n.idx] ∧ (s.slot (l.fid % 8)).ents = [x] ∧ isWindow s x.addr = true ∧ (s.ni n.idx).hold.any (fun h => decide (h.fid = l.fid)) = true ∧ n.idx % 7 ≠ 5 ∧ populated s n.idx = true ∧ (s.ni n.idx).strobes.length < 8 :=
  ⟨nA, { addr := 0x200000010, data := [9], ni := 0 }, 0, 0x22, { fid := 0x22, lt := 0, lt0 := 0, aseq := 7, nis := [0], edge := some 0 }, ({ (((upA.setReg (slotReg 2 Off.FNF_STAT) 0x224)).setSlot 2 { ents := [{ addr := 0x200000010, data := [9], ni := 0 }] }) with launches := [{ fid := 0x22, lt := 0, lt0 := 0, aseq := 7, nis := [0], edge := some 0 }] }).setNi 0 { hold := [{ fid := 0x22, addr := 0x200000010, data := [9], last := true, delivered := true, src := 6 }] }, by decide +kernel⟩
theorem witness_LaunchesRunAndEnd_12 : ∃ (u : Fin 64) (off : Nat) (x : FEnt) (y : FEnt) (v : W) (w : W) (e : Nat) (f : BitVec 8) (g : Launch) (l : Launch) (s : State),
    (s.launches = [g, l] ∨ s.launches = [l, g]) ∧ l.fid = f.toNat ∧ l.fid % 8 ≠ g.fid % 8 ∧ g.edge = some e ∧ l.edge = some e ∧ aseqLt g.aseq l.aseq = true ∧ e ≤ s.fc / 8 ∧ ftAt s e * 2 ^ 24 < l.lt * 2 ^ 24 + incNow s ∧ coresIdle s ∧ l.per = 0 ∧ g.per = 0 ∧ (s.slot (l.fid % 8)).cross = false ∧ (s.slot (l.fid % 8)).part = false ∧ (s.slot (l.fid % 8)).ticket = none ∧ (s.slot (g.fid % 8)).cross = false ∧ (s.slot (g.fid % 8)).part = false ∧ (s.slot (g.fid % 8)).ticket = none ∧ (s.slot (g.fid % 8)).ents = [x] ∧ (s.slot (l.fid % 8)).ents = [y] ∧ x.data = [v] ∧ y.data = [w] ∧ x.addr = y.addr ∧ regionOf s x.addr = .tmem u off ∧ x.ni = 7 * u.val + 5 ∧ y.ni = 7 * u.val + 5 ∧ l.nis = [7 * u.val + 5] ∧ g.nis = [7 * u.val + 5] ∧ stillHeld s g.fid x = true ∧ stillHeld s l.fid y = true ∧ (s.tmc u).q = [] :=
  ⟨0, 5, { addr := 0x100000005, data := [7], ni := 5 }, { addr := 0x100000005, data := [8], ni := 5 }, 7, 8, 0, 0x22, { fid := 0x21, lt := 0, lt0 := 0, aseq := 65535, nis := [5], edge := some 0 }, { fid := 0x22, lt := 0, lt0 := 0, aseq := 3, nis := [5], edge := some 0 }, ({ ((((up.setReg (slotReg 2 Off.FNF_STAT) 0x224).setReg (slotReg 1 Off.FNF_STAT) 0x214).setSlot 1 { ents := [{ addr := 0x100000005, data := [7], ni := 5 }] }).setSlot 2 { ents := [{ addr := 0x100000005, data := [8], ni := 5 }] }) with launches := [{ fid := 0x22, lt := 0, lt0 := 0, aseq := 3, nis := [5], edge := some 0 }, { fid := 0x21, lt := 0, lt0 := 0, aseq := 65535, nis := [5], edge := some 0 }] }).setNi 5 { hold := [{ fid := 0x21, addr := 0x100000005, data := [7], last := true, delivered := true, src := 6 }, { fid := 0x22, addr := 0x100000005, data := [8], last := true, delivered := true, src := 6 }] }, by decide +kernel⟩
theorem witness_LaunchesRunAndEnd_13 : ∃ (u : Fin 64) (i : Nat) (j : Nat) (x : FEnt) (y : FEnt) (v : W) (w : W) (m : Nat) (e : Nat) (f : BitVec 8) (l : Launch) (s : State),
    findLaunch s f.toNat = some l ∧ sameEdge s l e = [l] ∧ l.edge = some e ∧ e ≤ s.fc / 8 ∧ ftAt s e * 2 ^ 24 < l.lt * 2 ^ 24 + incNow s ∧ coresIdle s ∧ 0 < l.per ∧ l.nis = [7 * u.val + 5] ∧ (s.slot (l.fid % 8)).ents = [x, y] ∧ x.data = [v] ∧ y.data = [w] ∧ x.ni = 7 * u.val + 5 ∧ y.ni = 7 * u.val + 5 ∧ regionOf s x.addr = .tmem u i ∧ regionOf s y.addr = .tmem u j ∧ i ≠ j ∧ stillHeld s l.fid x = true ∧ stillHeld s l.fid y = true ∧ (s.tmc u).q = [] ∧ getFld s (slotReg (l.fid % 8) Off.FNF_LEN) 13 13 = m ∧ m ≤ 1 ∧ s.evq.length < 15 :=
  ⟨0, 5, 6, { addr := 0x100000005, data := [7], ni := 5 }, { addr := 0x100000006, data := [8], ni := 5 }, 7, 8, 0, 0, 0x22, { fid := 0x22, lt := 200000, lt0 := 0, aseq := 7, nis := [5], edge := some 0, per := 64000, n := 2, lastAt := 100000 }, ({ (((up.setReg (slotReg 2 Off.FNF_STAT) 0x224).setReg (slotReg 2 Off.FNF_LEN) (W.at 13 13 0)).setSlot 2 { ents := [{ addr := 0x100000005, data := [7], ni := 5 }, { addr := 0x100000006, data := [8], ni := 5 }], stopReq := false }) with launches := [{ fid := 0x22, lt := 200000, lt0 := 0, aseq := 7, nis := [5], edge := some 0, per := 64000, n := 2, lastAt := 100000 }] }).setNi 5 { hold := [{ fid := 0x22, addr := 0x100000005, data := [7], last := true, delivered := true, src := 6 }, { fid := 0x22, addr := 0x100000006, data := [8], last := true, delivered := true, src := 6 }] }, by decide +kernel⟩
theorem witness_LaunchesRunAndEnd_13_b : ∃ (u : Fin 64) (i : Nat) (j : Nat) (x : FEnt) (y : FEnt) (v : W) (w : W) (m : Nat) (e : Nat) (f : BitVec 8) (l : Launch) (s : State),
    findLaunch s f.toNat = some l ∧ sameEdge s l e = [l] ∧ l.edge = some e ∧ e ≤ s.fc / 8 ∧ ftAt s e * 2 ^ 24 < l.lt * 2 ^ 24 + incNow s ∧ coresIdle s ∧ 0 < l.per ∧ l.nis = [7 * u.val + 5] ∧ (s.slot (l.fid % 8)).ents = [x, y] ∧ x.data = [v] ∧ y.data = [w] ∧ x.ni = 7 * u.val + 5 ∧ y.ni = 7 * u.val + 5 ∧ regionOf s x.addr = .tmem u i ∧ regionOf s y.addr = .tmem u j ∧ i ≠ j ∧ stillHeld s l.fid x = true ∧ stillHeld s l.fid y = true ∧ (s.tmc u).q = [] ∧ getFld s (slotReg (l.fid % 8) Off.FNF_LEN) 13 13 = m ∧ m ≤ 1 ∧ s.evq.length < 15 :=
  ⟨0, 5, 6, { addr := 0x100000005, data := [7], ni := 5 }, { addr := 0x100000006, data := [8], ni := 5 }, 7, 8, 1, 0, 0x22, { fid := 0x22, lt := 200000, lt0 := 0, aseq := 7, nis := [5], edge := some 0, per := 64000, n := 1, lastAt := 100000 }, ({ (((up.setReg (slotReg 2 Off.FNF_STAT) 0x224).setReg (slotReg 2 Off.FNF_LEN) (W.at 13 13 1)).setSlot 2 { ents := [{ addr := 0x100000005, data := [7], ni := 5 }, { addr := 0x100000006, data := [8], ni := 5 }], stopReq := true }) with launches := [{ fid := 0x22, lt := 200000, lt0 := 0, aseq := 7, nis := [5], edge := some 0, per := 64000, n := 1, lastAt := 100000 }] }).setNi 5 { hold := [{ fid := 0x22, addr := 0x100000005, data := [7], last := true, delivered := true, src := 6 }, { fid := 0x22, addr := 0x100000006, data := [8], last := true, delivered := true, src := 6 }] }, by decide +kernel⟩
theorem witness_LaunchesRunAndEnd_13_c : ∃ (u : Fin 64) (i : Nat) (j : Nat) (x : FEnt) (y : FEnt) (v : W) (w : W) (m : Nat) (e : Nat) (f : BitVec 8) (l : Launch) (s : State),
    findLaunch s f.toNat = some l ∧ sameEdge s l e = [l] ∧ l.edge = some e ∧ e ≤ s.fc / 8 ∧ ftAt s e * 2 ^ 24 < l.lt * 2 ^ 24 + incNow s ∧ coresIdle s ∧ 0 < l.per ∧ l.nis = [7 * u.val + 5] ∧ (s.slot (l.fid % 8)).ents = [x, y] ∧ x.data = [v] ∧ y.data = [w] ∧ x.ni = 7 * u.val + 5 ∧ y.ni = 7 * u.val + 5 ∧ regionOf s x.addr = .tmem u i ∧ regionOf s y.addr = .tmem u j ∧ i ≠ j ∧ stillHeld s l.fid x = true ∧ stillHeld s l.fid y = true ∧ (s.tmc u).q = [] ∧ getFld s (slotReg (l.fid % 8) Off.FNF_LEN) 13 13 = m ∧ m ≤ 1 ∧ s.evq.length < 15 :=
  ⟨0, 5, 6, { addr := 0x100000005, data := [7], ni := 5 }, { addr := 0x100000006, data := [8], ni := 5 }, 7, 8, 1, 0, 0x22, { fid := 0x22, lt := 200000, lt0 := 0, aseq := 7, nis := [5], edge := some 0, per := 64000, n := 1, lastAt := 100000 }, ({ (((up.setReg (slotReg 2 Off.FNF_STAT) 0x224).setReg (slotReg 2 Off.FNF_LEN) (W.at 13 13 1)).setSlot 2 { ents := [{ addr := 0x100000005, data := [7], ni := 5 }, { addr := 0x100000006, data := [8], ni := 5 }], stopReq := false }) with launches := [{ fid := 0x22, lt := 200000, lt0 := 0, aseq := 7, nis := [5], edge := some 0, per := 64000, n := 1, lastAt := 100000 }] }).setNi 5 { hold := [{ fid := 0x22, addr := 0x100000005, data := [7], last := true, delivered := true, src := 6 }, { fid := 0x22, addr := 0x100000006, data := [8], last := true, delivered := true, src := 6 }] }, by decide +kernel⟩
theorem witness_LaunchesRunAndEnd_14 : ∃ (x : FEnt) (v : W) (u : Nat) (off : Nat) (e : Nat) (f : BitVec 8) (l : Launch) (s : State),
    findLaunch s f.toNat = some l ∧ sameEdge s l e = [l] ∧ l.edge = some e ∧ e ≤ s.fc / 8 ∧ ftAt s e * 2 ^ 24 < l.lt * 2 ^ 24 + incNow s ∧ coresIdle s ∧ l.per = 0 ∧ (s.slot (l.fid % 8)).cross = false ∧ (s.slot (l.fid % 8)).part = true ∧ (s.slot (l.fid % 8)).ticket = none ∧ (s.slot (l.fid % 8)).ents = [x] ∧ x.data = [v] ∧ regionOf s x.addr = .tmem u off ∧ (s.tmc u).q = [] ∧ stillHeld s l.fid x = true ∧ l.nis = [x.ni] ∧ x.ni % 7 = 5 :=
  ⟨{ addr := 0x100000005, data := [7], ni := 5 }, 7, 0, 5, 0, 0x22, { fid := 0x22, lt := 0, lt0 := 0, aseq := 7, nis := [5], edge := some 0 }, ({ (((up.setReg (slotReg 2 Off.FNF_STAT) 0x224)).setSlot 2 { ents := [{ addr := 0x100000005, data := [7], ni := 5 }], part := true, coord := 3 }) with launches := [{ fid := 0x22, lt := 0, lt0 := 0, aseq := 7, nis := [5], edge := some 0 }] }).setNi 5 { hold := [{ fid := 0x22, addr := 0x100000005, data := [7], last := true, delivered := true, src := 6 }] }, by decide +kernel⟩
theorem witness_LaunchesRunAndEnd_15 : ∃ (x : FEnt) (v : W) (u : Nat) (off : Nat) (k : Ticket) (e : Nat) (f : BitVec 8) (l : Launch) (s : State),
    findLaunch s f.toNat = some l ∧ sameEdge s l e = [l] ∧ l.edge = some e ∧ e ≤ s.fc / 8 ∧ ftAt s e * 2 ^ 24 < l.lt * 2 ^ 24 + incNow s ∧ coresIdle s ∧ l.per = 0 ∧ (s.slot (l.fid % 8)).cross = false ∧ (s.slot (l.fid % 8)).part = false ∧ (s.slot (l.fid % 8)).ticket = some k.num ∧ s.tickets = [k] ∧ k.num < 65536 ∧ k.land = none ∧ k.ents = [(x.addr, [v])] ∧ isGroupWord x.addr = false ∧ s.route = none ∧ s.fwLater = [] ∧ fwAlive s = true ∧ (s.slot (l.fid % 8)).ents = [x] ∧ x.data = [v] ∧ regionOf s x.addr = .tmem u off ∧ (s.tmc u).q = [] ∧ stillHeld s l.fid x = true ∧ l.nis = [x.ni] ∧ x.ni % 7 = 5 :=
  ⟨{ addr := 0x100000005, data := [7], ni := 5 }, 7, 0, 5, { num := 4, ents := [(0x100000005, [7])], check := true }, 0, 0x22, { fid := 0x22, lt := 0, lt0 := 0, aseq := 7, nis := [5], edge := some 0 }, ({ (((fw0.setReg (slotReg 2 Off.FNF_STAT) 0x224)).setSlot 2 { ents := [{ addr := 0x100000005, data := [7], ni := 5 }], ticket := some 4 }) with launches := [{ fid := 0x22, lt := 0, lt0 := 0, aseq := 7, nis := [5], edge := some 0 }], tickets := [{ num := 4, ents := [(0x100000005, [7])], check := true }] }).setNi 5 { hold := [{ fid := 0x22, addr := 0x100000005, data := [7], last := true, delivered := true, src := 6 }] }, by decide +kernel⟩
theorem witness_CrossInstanceFanfares_1 : ∃ (m : XMsg) (rest : List (Nat × XMsg)) (k : Fin 8) (s : State),
    takeFirst (fun e => decide (e.1 = 1)) s.xin = some ((1, m), rest) ∧ (m.gfid.toNat, 1, m.src.val) ∉ s.xseen ∧ alreadyIn s m = false ∧ stagedSlot s m.gfid.toNat = some k.val ∧ ftNow s + 1280000 ≤ (ftOfWords m.ltH m.ltL) ∧ s.tkNone = false :=
  ⟨{ src := 9, gfid := 77, coord := 3, ltH := 1 }, [], 2, { (up.setReg (slotReg 2 Off.FNF_STAT) 0x223).setReg (slotReg 2 Off.FNF_GFID) 77 with xin := [(1, { src := 9, gfid := 77, coord := 3, ltH := 1 })] }, by decide +kernel⟩
theorem witness_CrossInstanceFanfares_2 : ∃ (m : XMsg) (rest : List (Nat × XMsg)) (s : State),
    takeFirst (fun e => decide (e.1 = 1)) s.xin = some ((1, m), rest) ∧ (m.gfid.toNat, 1, m.src.val) ∉ s.xseen ∧ alreadyIn s m = false ∧ (stagedSlot s m.gfid.toNat = none ∨ s.tkNone = true) :=
  ⟨{ src := 9, gfid := 77, coord := 3, ltH := 1 }, [], { up with xin := [(1, { src := 9, gfid := 77, coord := 3, ltH := 1 })] }, by decide +kernel⟩
theorem witness_CrossInstanceFanfares_3 : ∃ (m : XMsg) (rest : List (Nat × XMsg)) (c : XCo) (ps : List Part) (s : State),
    takeFirst (fun e => decide (e.1 = 2)) s.xin = some ((2, m), rest) ∧ (m.gfid.toNat, 2, m.src.val) ∉ s.xseen ∧ s.xco = [c] ∧ c.gfid = m.gfid.toNat ∧ ps = c.parts.map (fun p => if p.inst = m.src.val then (if m.status.val = 0 then { p with ok := true } else if m.status.val = 3 then { p with already := true, outcome := 5 } else { p with outcome := 4 }) else p) ∧ ps.all (fun p => p.ok || p.already) = true ∧ c.conf = false ∧ c.failed = false ∧ ftNow s + 1280000 ≤ c.lt :=
  ⟨{ src := 9, gfid := 77, coord := 3 }, [], { slot := 2, gfid := 77, lt := 99999999, parts := [{ inst := 8, already := true, outcome := 5 }, { inst := 9 }, { inst := 7, ok := true }] }, [{ inst := 8, already := true, outcome := 5 }, { inst := 9, ok := true }, { inst := 7, ok := true }], { up with xco := [{ slot := 2, gfid := 77, lt := 99999999, parts := [{ inst := 8, already := true, outcome := 5 }, { inst := 9 }, { inst := 7, ok := true }] }], xin := [(2, { src := 9, gfid := 77, coord := 3 })] }, by decide +kernel⟩
theorem witness_CrossInstanceFanfares_4 : ∃ (m : XMsg) (rest : List (Nat × XMsg)) (k : Nat) (s : State),
    takeFirst (fun e => decide (e.1 = 3)) s.xin = some ((3, m), rest) ∧ (m.gfid.toNat, 3, m.src.val) ∉ s.xseen ∧ partSlot s m.gfid.toNat = some k :=
  ⟨{ src := 9, gfid := 77, coord := 3 }, [], 2, { ((up.setReg (slotReg 2 Off.FNF_STAT) 0x224).setReg (slotReg 2 Off.FNF_GFID) 77).setSlot 2 { part := true, coord := 3, confirmed := false } with xin := [(3, { src := 9, gfid := 77, coord := 3 })] }, by decide +kernel⟩
theorem witness_CrossInstanceFanfares_5 : ∃ (m : XMsg) (rest : List (Nat × XMsg)) (k : Nat) (s : State),
    takeFirst (fun e => decide (e.1 = 4)) s.xin = some ((4, m), rest) ∧ (m.gfid.toNat, 4, m.src.val) ∉ s.xseen ∧ fidSlot (slotFid s k) = k ∧ partSlot s m.gfid.toNat = some k ∧ slotState s k = 4 ∧ lastMoments s (slotFid s k) = false ∧ s.stageQ = [] :=
  ⟨{ src := 9, gfid := 77, coord := 3 }, [], 2, { ((up.setReg (slotReg 2 Off.FNF_STAT) 0x224).setReg (slotReg 2 Off.FNF_GFID) 77).setSlot 2 { part := true, coord := 3, confirmed := false } with xin := [(4, { src := 9, gfid := 77, coord := 3 })] }, by decide +kernel⟩
theorem witness_CrossInstanceFanfares_6 : ∃ (k : Fin 8) (c : XCo) (s : State),
    s.xco = [c] ∧ c.slot = k.val ∧ c.conf = false ∧ c.failed = false ∧ c.lt ≤ ftNow s + 1280000 ∧ slotState s k = 4 ∧ (s.slot k).cross = true ∧ (s.slot k).part = false ∧ s.stageQ = [] ∧ fidSlot (slotFid s k) = k :=
  ⟨2, { slot := 2, gfid := 77, lt := 9, parts := [{ inst := 9 }] }, { ((up.setReg (slotReg 2 Off.FNF_STAT) 0x224).setReg (slotReg 2 Off.FNF_GFID) 77).setSlot 2 { cross := true, coord := 3, confirmed := false } with xco := [{ slot := 2, gfid := 77, lt := 9, parts := [{ inst := 9 }] }] }, by decide +kernel⟩
theorem witness_CrossInstanceFanfares_7 : ∃ (k : Fin 8) (s : State),
    fidSlot (slotFid s k) = k ∧ (s.slot k).part = true ∧ (s.slot k).confirmed = false ∧ slotState s k = 4 ∧ slotLt s k ≤ ftNow s + 640000 ∧ s.stageQ = [] :=
  ⟨2, ((up.setReg (slotReg 2 Off.FNF_STAT) 0x224).setReg (slotReg 2 Off.FNF_GFID) 77).setSlot 2 { part := true, coord := 3, confirmed := false }, by decide +kernel⟩
theorem witness_CrossInstanceFanfares_8 : ∃ (k : Fin 8) (r : XRep) (rest : List XRep) (s : State),
    takeFirst (fun r => decide (r.slot = k.val ∧ r.lt + 64000 ≤ ftNow s)) s.xrep = some (r, rest) ∧ r.outcome < 16 :=
  ⟨2, { slot := 2, gfid := 77, coord := 3, lt := 0, outcome := 1, applyFt := 5 }, [], { up with ft := 999999999999 * 100, xrep := [{ slot := 2, gfid := 77, coord := 3, lt := 0, outcome := 1, applyFt := 5 }] }, by decide +kernel⟩
theorem witness_CrossInstanceFanfares_9 : ∃ (m : XMsg) (rest : List (Nat × XMsg)) (s : State),
    takeFirst (fun e => decide (e.1 = 5)) s.xin = some ((5, m), rest) ∧ (m.gfid.toNat, 5, m.src.val) ∉ s.xseen :=
  ⟨{ src := 9, gfid := 77, coord := 3 }, [], { { up with xco := [{ slot := 2, gfid := 77, lt := 9, parts := [{ inst := 9 }] }] } with xin := [(5, { src := 9, gfid := 77, coord := 3 })] }, by decide +kernel⟩
theorem witness_CrossInstanceFanfares_10 : ∃ (k : Fin 8) (c : XCo) (rest : List XCo) (s : State),
    takeFirst (fun c => decide (c.slot = k.val ∧ c.lt + us (getFld s (extReg Off.EXT_XREPORT_TO) 0 16) ≤ ftNow s)) s.xco = some (c, rest) ∧ 0x200000 ≤ (s.reg (extReg Off.EXT_XRPT_ADDR)).toNat ∧ (s.reg (extReg Off.EXT_XRPT_ADDR)).toNat + 8 + c.parts.length ≤ 0x200000 + sramWords ∧ s.evq.length < 16 :=
  ⟨2, { slot := 2, gfid := 77, lt := 9, parts := [{ inst := 9, outcome := 1 }] }, [], { up with ft := 2 ^ 24 * 2 ^ 40, xco := [{ slot := 2, gfid := 77, lt := 9, parts := [{ inst := 9, outcome := 1 }] }] }.setReg (extReg Off.EXT_XRPT_ADDR) 0x200010, by decide +kernel⟩
theorem witness_CrossInstanceFanfares_11 : ∃ (d : Nat) (y : Nat) (m : XMsg) (rest : List (Nat × Nat × XMsg)) (s : State),
    nextEject s bridgeNi (forBridge bridgeNi) = none ∧ s.xout = (d, y, m) :: rest ∧ cpoOpen s bridgeNi = false :=
  ⟨9, 1, { src := 9, gfid := 77, coord := 3 }, [], ({ up with xout := [(9, 1, { src := 9, gfid := 77, coord := 3 })] }).setNi bridgeNi
    { cell := some { pkt := {}, since := 0 } }, by decide +kernel⟩
theorem witness_CrossInstanceFanfares_12 : ∃ (p : Pkt) (rest : List Pkt) (s : State),
    nextEject s bridgeNi (forBridge bridgeNi) = some (p, rest) ∧ nodeInst p.mask ≠ inst s ∧ extEn s = true ∧ cpoOpen s bridgeNi = false :=
  ⟨{ opc := Opc.MSG, mask := 1024 }, [], (up.setReg (extReg Off.EXT_CTRL) 1).setNi bridgeNi
    { eject := [{ opc := Opc.MSG, mask := 1024 }], cell := some { pkt := {}, since := 0 } }, by decide +kernel⟩
theorem witness_CrossInstanceFanfares_13 : ∃ (f : ExtFrame) (y : Fin 6) (m : XMsg) (s : State),
    s.inReset = false ∧ s.postRun = false ∧ frameOk s f = true ∧ frameOld s f = false ∧ (extEn s = true → (List.range 16).all (fun h => handleListed (s.ni bridgeNi) h) = true) ∧ f.ctl = some (y, m) :=
  ⟨{ daPfx := 0, daInst := 0, ver := 1, kind := 1, flits := 0, src := 9, dst := 0, seq := 3, msgSrc := 0, head := { opc := 0 }, ctl := some (1, { src := 9, gfid := 77, coord := 3 }) }, 1, { src := 9, gfid := 77, coord := 3 }, up, by decide +kernel⟩
theorem witness_CrossInstanceFanfares_14 : ∃ (h : Head) (rest : List Head) (s : State),
    nextEject s bridgeNi (forBridge bridgeNi) = none ∧ s.xout = [] ∧ s.xcells = h :: rest ∧ cpoOpen s bridgeNi = true ∧ h.opcN = Opc.CELL ∧ isOrphan h = false ∧ headOk s .cpo h = true ∧ refusing s bridgeNi = false ∧ firstHeld (s.ni bridgeNi) (h.w0.fld 0 23) (oreqPkt s bridgeNi h).sc = none ∧ (s.ni bridgeNi).rsv = none :=
  ⟨{ opc := 0x21, cnt := 10, tag := 5, w0 := 9, flg := 3, words := [7] }, [], { (up.setReg (niReg bridgeNi Off.NI_CTRL) 5) with xcells := [{ opc := 0x21, cnt := 10, tag := 5, w0 := 9, flg := 3, words := [7] }] }, by decide +kernel⟩
theorem witness_CrossInstanceFanfares_15 : ∃ (f : ExtFrame) (s : State),
    s.inReset = false ∧ s.postRun = false ∧ frameOk s f = true ∧ frameOld s f = false ∧ f.ctl = none ∧ extEn s = true ∧ (List.range 16).all (fun h => handleListed (s.ni bridgeNi) h) = true ∧ f.head.w0.fld 0 3 ≠ 7 :=
  ⟨{ daPfx := 0, daInst := 0, ver := 1, kind := 0, flits := 1, src := 9, dst := 0, seq := 3, msgSrc := 0x1208, head := { opc := 0x3D, cnt := 1, tag := 5, w0 := 9, ft := 3, words := [7] } },
    (up.setReg (extReg Off.EXT_CTRL) 1).setNi bridgeNi { free := [⟨0, 16⟩] }, by decide +kernel⟩
theorem witness_CrossInstanceFanfares_16 : ∃ (f : ExtFrame) (s : State),
    s.inReset = false ∧ s.postRun = false ∧ frameOk s f = true ∧ frameOld s f = false ∧ f.ctl = none ∧ extEn s = false :=
  ⟨{ daPfx := 0, daInst := 0, ver := 1, kind := 0, flits := 1, src := 9, dst := 0, seq := 3, msgSrc := 0x1208, head := { opc := 0x3D, cnt := 1, tag := 5, w0 := 9, ft := 3, words := [7] } }, up, by decide +kernel⟩
theorem witness_CrossInstanceFanfares_17 : ∃ (m : XMsg) (rest : List (Nat × XMsg)) (c : XCo) (ps : List Part) (s : State),
    takeFirst (fun e => decide (e.1 = 2)) s.xin = some ((2, m), rest) ∧ (m.gfid.toNat, 2, m.src.val) ∉ s.xseen ∧ s.xco = [c] ∧ c.gfid = m.gfid.toNat ∧ ps = c.parts.map (fun p => if p.inst = m.src.val then (if m.status.val = 0 then { p with ok := true } else if m.status.val = 3 then { p with already := true, outcome := 5 } else { p with outcome := 4 }) else p) ∧ (ps.all (fun p => p.ok || p.already) = false ∨ c.failed = true) :=
  ⟨{ src := 9, gfid := 77, coord := 3 }, [], { slot := 2, gfid := 77, lt := 99999999, parts := [{ inst := 9 }, { inst := 8 }] }, [{ inst := 9, ok := true }, { inst := 8 }], { up with xco := [{ slot := 2, gfid := 77, lt := 99999999, parts := [{ inst := 9 }, { inst := 8 }] }], xin := [(2, { src := 9, gfid := 77, coord := 3 })] }, by decide +kernel⟩
theorem witness_CrossInstanceFanfares_17_b : ∃ (m : XMsg) (rest : List (Nat × XMsg)) (c : XCo) (ps : List Part) (s : State),
    takeFirst (fun e => decide (e.1 = 2)) s.xin = some ((2, m), rest) ∧ (m.gfid.toNat, 2, m.src.val) ∉ s.xseen ∧ s.xco = [c] ∧ c.gfid = m.gfid.toNat ∧ ps = c.parts.map (fun p => if p.inst = m.src.val then (if m.status.val = 0 then { p with ok := true } else if m.status.val = 3 then { p with already := true, outcome := 5 } else { p with outcome := 4 }) else p) ∧ (ps.all (fun p => p.ok || p.already) = false ∨ c.failed = true) :=
  ⟨{ src := 9, gfid := 77, coord := 3, status := 2 }, [], { slot := 2, gfid := 77, lt := 99999999, parts := [{ inst := 9 }] }, [{ inst := 9, outcome := 4 }], { up with xco := [{ slot := 2, gfid := 77, lt := 99999999, parts := [{ inst := 9 }] }], xin := [(2, { src := 9, gfid := 77, coord := 3, status := 2 })] }, by decide +kernel⟩
theorem witness_CrossInstanceFanfares_18 : ∃ (m : XMsg) (rest : List (Nat × XMsg)) (k : Nat) (s : State),
    takeFirst (fun e => decide (e.1 = 1)) s.xin = some ((1, m), rest) ∧ (m.gfid.toNat, 1, m.src.val) ∉ s.xseen ∧ alreadyIn s m = false ∧ stagedSlot s m.gfid.toNat = some k ∧ s.tkNone = false ∧ ftOfWords m.ltH m.ltL < ftNow s + 1280000 :=
  ⟨{ src := 9, gfid := 77, coord := 3 }, [], 2, { (up.setReg (slotReg 2 Off.FNF_STAT) 0x223).setReg (slotReg 2 Off.FNF_GFID) 77 with xin := [(1, { src := 9, gfid := 77, coord := 3 })] }, by decide +kernel⟩
theorem witness_CrossInstanceFanfares_19 : ∃ (m : XMsg) (rest : List (Nat × XMsg)) (s : State),
    takeFirst (fun e => decide (e.1 = 1)) s.xin = some ((1, m), rest) ∧ (m.gfid.toNat, 1, m.src.val) ∉ s.xseen ∧ ((m.mode.val = 1 ∧ histApplied s m.recov.toNat = true) ∨ (m.mode.val = 2 ∧ histApplied s m.recov.toNat = false)) :=
  ⟨{ src := 9, gfid := 77, coord := 3, mode := 2, recov := 5 }, [], { up with xin := [(1, { src := 9, gfid := 77, coord := 3, mode := 2, recov := 5 })] }, by decide +kernel⟩
theorem witness_CrossInstanceFanfares_20 : ∃ (c : Fin 2) (p : Pkt) (rest : List Pkt) (w : Nat × Nat) (ids : List Nat) (lt : Nat) (s : State),
    nextEject s (coordPort c) (fun p => decide (p.opc = Opc.FSTGD)) = some (p, rest) ∧ slotFid s (p.tag % 8) = p.tag ∧ slotState s (p.tag % 8) = 1 ∧ (s.slot (p.tag % 8)).want = [w] ∧ w.1 = nodeNi p.src ∧ w.2 = p.cnt ∧ (s.slot (p.tag % 8)).todo = [] ∧ (s.slot (p.tag % 8)).stageOnly = false ∧ (s.slot (p.tag % 8)).ticket = none ∧ getFld s (slotReg (p.tag % 8) Off.FNF_XCNT) 0 15 = ids.length ∧ ids ≠ [] ∧ (∀ i < ids.length, regionOf s ((s.reg (slotReg (p.tag % 8) Off.FNF_XLIST)).toNat + i) = .sram ((s.reg (slotReg (p.tag % 8) Off.FNF_XLIST)).toNat + i - 0x200000)) ∧ (List.range ids.length).map (fun i => (s.word ((s.reg (slotReg (p.tag % 8) Off.FNF_XLIST)).toNat + i)).fld 0 14) = ids ∧ coordNi s = (coordPort c) ∧ s.tkNone = false ∧ lt = max (slotLt s (p.tag % 8)) (ftNow s + 3200000) :=
  ⟨0, { opc := Opc.FSTGD, src := 5, cnt := 1, tag := 0x22, sc := 6 }, [], (5, 1), [9, 8], 3200000, ((((((up.setReg (slotReg 2 Off.FNF_STAT) 0x221).setReg (slotReg 2 Off.FNF_XCNT) 2).setReg (slotReg 2 Off.FNF_XLIST) 0x200100).setWord 0x200100 9).setWord 0x200101 8).setSlot 2 { ents := [{ addr := 0x100000005, data := [7], ni := 5 }], want := [(5, 1)] }).setNi 6 { eject := [{ opc := Opc.FSTGD, src := 5, cnt := 1, tag := 0x22, sc := 6 }] }, by decide +kernel⟩
theorem witness_Brace_1 : ∃ (s : State),
    braced s = false :=
  ⟨{ up with launches := [{ fid := 0x22, lt := 0, lt0 := 0, aseq := 7, nis := [5], edge := some 70 }] }, by decide +kernel⟩
theorem witness_Brace_2 : ∃ (b : Nat) (r : Option Nat) (rest : List (Nat × Option Nat)) (s : State),
    s.braces = (b, r) :: rest ∧ b ≤ s.fc / 8 ∧ s.braceOn = false :=
  ⟨0, none, [], { up with braces := [(0, none)] }, by decide +kernel⟩
theorem witness_Brace_3 : ∃ (s : State),
    braced s = true ∧ s.heldWrites = [] ∧ s.posted = [] ∧ coresIdle s ∧ (s.agents.all (fun e => e.2.waitReq.isEmpty && e.2.vtDue.isNone)) = true ∧ s.evq.length < 16 :=
  ⟨{ up with warn := true, ft := 2 ^ 50 }.setReg (pwrReg Off.PWR_STAT) 12, by decide +kernel⟩
theorem witness_Brace_4 : ∃ (b : Nat) (e : Nat) (rest : List (Nat × Option Nat)) (s : State),
    s.braces = (b, some e) :: rest ∧ e ≤ s.fc / 8 ∧ (s.launches.map (fun l => l.fid)).Nodup ∧ (s.agents.all (fun e => e.2.busyTo.isNone && ((e.2.applyTc.map (clashes (s.fc / 8))).getD false == false))) = true ∧ (s.launches.all (fun l => l.held || ((l.edge.map (clashes (s.fc / 8))).getD false == false))) = true :=
  ⟨0, 0, [], { up with braces := [(0, some 0)], braceOn := true, launches := [{ fid := 1, lt := 5, lt0 := 5, aseq := 0, held := true }] }, by decide +kernel⟩
theorem witness_Brace_1_b : ∃ (s : State),
    braced s = false :=
  ⟨{ up with braces := [(0, some 60)], warn := true, launches := [{ fid := 0x22, lt := 0, lt0 := 0, aseq := 7, nis := [5], edge := some 60 }] }, by decide +kernel⟩
theorem witness_Brace_4_b : ∃ (b : Nat) (e : Nat) (rest : List (Nat × Option Nat)) (s : State),
    s.braces = (b, some e) :: rest ∧ e ≤ s.fc / 8 ∧ (s.launches.map (fun l => l.fid)).Nodup ∧ (s.agents.all (fun e => e.2.busyTo.isNone && ((e.2.applyTc.map (clashes (s.fc / 8))).getD false == false))) = true ∧ (s.launches.all (fun l => l.held || ((l.edge.map (clashes (s.fc / 8))).getD false == false))) = true :=
  ⟨0, 0, [(64, none)], { up with braces := [(0, some 0), (64, none)], braceOn := true, launches := [{ fid := 1, lt := 5, lt0 := 5, aseq := 0, held := true }] }, by decide +kernel⟩
theorem witness_CommandsThatRead_1 : ∃ (r : Running) (s : State),
    runsCmd s 0x2 r ∧ readable s ([opcReg Off.OPC_FW_STAT, idReg Off.KNL_ID, opcReg Off.OPC_IMG_BANK, mbxReg Off.MBX_SESS_STAT, opcReg Off.OPC_SCAN_STAT]) = true :=
  ⟨rn 0x2 [], fw 0x2 [], by decide +kernel⟩
theorem witness_CommandsThatRead_2 : ∃ (r : Running) (s : State),
    runsCmd s 0x3 r ∧ readable s ([rtrReg 0 Off.RTR_MAP_EPOCH, opcReg Off.OPC_SC5_BOUND, opcReg Off.OPC_PHOLD_BOUND]) = true :=
  ⟨rn 0x3 [], fw 0x3 [], by decide +kernel⟩
theorem witness_CommandsThatRead_3 : ∃ (r : Running) (s : State),
    runsCmd s 0x105 r ∧ readable s ([rtrReg (tileOf (argN r.args 1)) Off.RTR_STAT, rtrReg (mapRouter s) (Off.RTR_FMAP + (tileOf (argN r.args 1))), rtrReg (tileOf (argN r.args 1)) Off.RTR_LOCAL_FENCE, rtrReg (tileOf (argN r.args 1)) Off.RTR_MAP_EPOCH]) = true :=
  ⟨rn 0x105 [99], fw 0x105 [99], by decide +kernel⟩
theorem witness_CommandsThatRead_4 : ∃ (r : Running) (s : State),
    runsCmd s 0x204 r ∧ (([groupMaskAddr 0 (groupArg r.args), groupMaskAddr 0 (groupArg r.args) + 1] ++ (List.range 64).map (fun u => laneAddr u (groupArg r.args))).all (fun a => !isPoison s a && decide (tileState s ((a - tmemAddr 0 0) / 0x20000) ≠ 3))) = true :=
  ⟨rn 0x204 [5], fw 0x204 [5], by decide +kernel⟩
theorem witness_CommandsThatRead_5 : ∃ (n : Nat) (r : Running) (s : State),
    runsCmd s 0x307 r ∧ nodeArg s (argN r.args 1) = some n ∧ readable s ((([Off.NI_TB_SC7, Off.NI_TB_SC6, Off.NI_TB_SC5, Off.NI_DEST_SC7_LO, Off.NI_DEST_SC7_LO + 1, Off.NI_DEST_SC7_LO + 2, Off.NI_DEST_SC7_LO + 3, Off.NI_DEST_SC7_LO + 4, Off.NI_DEST_SC7_LO + 5, Off.NI_ADM_TO, Off.NI_RSV_CFG, Off.NI_RSV_STAT, Off.NI_TB_LEVEL]).map (niReg n))) = true :=
  ⟨3, rn 0x307 [3], fw 0x307 [3], by decide +kernel⟩
theorem witness_CommandsThatRead_6 : ∃ (g : Nat) (r : Running) (s : State),
    runsCmd s 0x403 r ∧ guardArg s (argN r.args 1) = some g ∧ readable s ((([Off.GRD_CTRL, Off.GRD_STAT, Off.GRD_ERR] ++ (List.range 16).flatMap (fun k => [Off.GRD_START k, Off.GRD_END k, Off.GRD_PERM k])).map (guardReg g))) = true :=
  ⟨3, rn 0x403 [3], fw 0x403 [3], by decide +kernel⟩
theorem witness_CommandsThatRead_7 : ∃ (r : Running) (s : State),
    runsCmd s 0x503 r ∧ readable s ([tkReg Off.TK_ALARM_H, tkReg Off.TK_ALARM_L, tkReg Off.TK_ALARM_CTRL, tkReg Off.TK_ALARM_STAT]) = true :=
  ⟨rn 0x503 [], fw 0x503 [], by decide +kernel⟩
theorem witness_CommandsThatRead_8 : ∃ (r : Running) (s : State),
    runsCmd s 0x606 r ∧ readable s (([Off.FNF_STAT, Off.FNF_LAUNCH, Off.FNF_LATE, Off.FNF_BAD, Off.FNF_LT_H, Off.FNF_LT_L].map (slotReg (min 7 (argN r.args 1).toNat)))) = true :=
  ⟨rn 0x606 [9], fw 0x606 [9], by decide +kernel⟩
theorem witness_CommandsThatRead_9 : ∃ (r : Running) (s : State),
    runsCmd s 0x704 r ∧ readable s ([taReg (tileOf (argN r.args 1)) Off.PWR_TA_STAT, taReg (tileOf (argN r.args 1)) Off.PWR_REFUSE_CNT, taReg (tileOf (argN r.args 1)) Off.PWR_LAST_REFUSER, taReg (tileOf (argN r.args 1)) Off.PWR_TILE_CLAIM]) = true :=
  ⟨rn 0x704 [9], fw 0x704 [9], by decide +kernel⟩
theorem witness_CommandsThatRead_10 : ∃ (r : Running) (s : State),
    runsCmd s 0x803 r ∧ ¬((tileOf (argN r.args 1)) = 63 ∧ (argN r.args 2).fld 0 3 = 7) ∧ readable s ((([0, 1, 3, 4, 5].map (recReg (tileOf (argN r.args 1)) ((argN r.args 2).fld 0 3))))) = true :=
  ⟨rn 0x803 [9, 1], fw 0x803 [9, 1], by decide +kernel⟩
theorem witness_CommandsThatRead_11 : ∃ (r : Running) (s : State),
    runsCmd s 0x803 r ∧ (tileOf (argN r.args 1)) = 63 ∧ (argN r.args 2).fld 0 3 = 7 :=
  ⟨rn 0x803 [63, 7], fw 0x803 [63, 7], by decide +kernel⟩
theorem witness_CommandsThatRead_12 : ∃ (r : Running) (s : State),
    runsCmd s 0x903 r ∧ readable s ([opcReg Off.OPC_FW_STAT, opcReg Off.OPC_IMG_STAT, opcReg Off.OPC_IMG_BANK, opcReg Off.OPC_KEY_STAT]) = true :=
  ⟨rn 0x903 [], fw 0x903 [], by decide +kernel⟩
theorem witness_CommandsThatRead_13 : ∃ (r : Running) (s : State),
    runsCmd s 0xA01 r ∧ (((List.range (clampArg 1 15 (argN r.args 2))).flatMap (fun j => (List.range 4).map (fun k => tmemAddr (63 * (argN r.args 3).fld 0 1) 0 + ringOff ((clampArg 0 4095 (argN r.args 1) + j) % 4096) + k))).all (fun a => !isPoison s a && decide (tileState s ((a - tmemAddr 0 0) / 0x20000) ≠ 3))) = true :=
  ⟨rn 0xA01 [4095, 2, 1], fw 0xA01 [4095, 2, 1], by decide +kernel⟩
theorem witness_CommandsThatRead_14 : ∃ (n : Nat) (r : Running) (s : State),
    runsCmd s 0xA02 r ∧ (argN r.args 2) = 0 ∧ nodeArg s (argN r.args 1) = some n ∧ readable s ((niCounters.map (niReg n))) = true :=
  ⟨3, rn 0xA02 [3, 0], fw 0xA02 [3, 0], by decide +kernel⟩
theorem witness_CommandsThatRead_15 : ∃ (r : Running) (s : State),
    runsCmd s 0xA02 r ∧ (argN r.args 2) = 1 ∧ readable s ((rtrCounters.map (rtrReg (tileOf (argN r.args 1))))) = true :=
  ⟨rn 0xA02 [3, 1], fw 0xA02 [3, 1], by decide +kernel⟩
theorem witness_CommandsThatRead_16 : ∃ (r : Running) (s : State),
    runsCmd s 0xA02 r ∧ 2 ≤ (argN r.args 2).toNat ∧ readable s ((tmemCounters.map (tmemReg (tileOf (argN r.args 1))))) = true :=
  ⟨rn 0xA02 [3, 7], fw 0xA02 [3, 7], by decide +kernel⟩
theorem witness_CommandsThatWriteFields_1 : ∃ (ns : List Nat) (r : Running) (s : State),
    runsCmd s 0x206 r ∧ nodesArg s (argN r.args 1) unitPort = some ns ∧ (ns.all (fun n => decide (n < 448) && decide (tileState s (n / 7) ≠ 3) && !tileDark s (n / 7))) = true :=
  ⟨[3], rn 0x206 [3, 0x30004, 1, 2, 3, 4], fw 0x206 [3, 0x30004, 1, 2, 3, 4], by decide +kernel⟩
theorem witness_CommandsThatWriteFields_2 : ∃ (ns : List Nat) (r : Running) (s : State),
    runsCmd s 0x301 r ∧ nodesArg s (argN r.args 1) unitPort = some ns ∧ (ns.all (fun n => decide (n < 448) && decide (tileState s (n / 7) ≠ 3) && !tileDark s (n / 7))) = true :=
  ⟨[3], rn 0x301 [3, 9, 0, 5000], fw 0x301 [3, 9, 0, 5000], by decide +kernel⟩
theorem witness_CommandsThatWriteFields_3 : ∃ (ns : List Nat) (r : Running) (s : State),
    runsCmd s 0x302 r ∧ nodesArg s (argN r.args 1) unitPort = some ns ∧ (ns.all (fun n => decide (n < 448) && decide (tileState s (n / 7) ≠ 3) && !tileDark s (n / 7))) = true ∧ classArg (argN r.args 2) ≠ 5 :=
  ⟨[3], rn 0x302 [3, 6, 9, 5000], fw 0x302 [3, 6, 9, 5000], by decide +kernel⟩
theorem witness_CommandsThatWriteFields_4 : ∃ (ns : List Nat) (r : Running) (s : State),
    runsCmd s 0x304 r ∧ nodesArg s (argN r.args 1) unitPort = some ns ∧ (ns.all (fun n => decide (n < 448) && decide (tileState s (n / 7) ≠ 3) && !tileDark s (n / 7))) = true :=
  ⟨[3], rn 0x304 [3, 6, 9], fw 0x304 [3, 6, 9], by decide +kernel⟩
theorem witness_CommandsThatWriteFields_5 : ∃ (ns : List Nat) (r : Running) (s : State),
    runsCmd s 0x305 r ∧ nodesArg s (argN r.args 1) unitPort = some ns ∧ (ns.all (fun n => decide (n < 448) && decide (tileState s (n / 7) ≠ 3) && !tileDark s (n / 7))) = true :=
  ⟨[3], rn 0x305 [3, 9], fw 0x305 [3, 9], by decide +kernel⟩
theorem witness_CommandsThatWriteFields_6 : ∃ (ns : List Nat) (r : Running) (s : State),
    runsCmd s 0x306 r ∧ nodesArg s (argN r.args 1) (fun p => decide (p ≤ 1)) = some ns ∧ (ns.all (fun n => decide (n < 448) && decide (tileState s (n / 7) ≠ 3) && !tileDark s (n / 7))) = true :=
  ⟨[1], rn 0x306 [1, 0x123456], fw 0x306 [1, 0x123456], by decide +kernel⟩
theorem witness_CommandsThatWriteFields_7 : ∃ (r : Running) (s : State),
    runsCmd s 0x801 r :=
  ⟨rn 0x801 [5, 95, 0], fw 0x801 [5, 95, 0], by decide +kernel⟩
theorem witness_CommandsThatWriteFields_8 : ∃ (r : Running) (s : State),
    runsCmd s 0x502 r ∧ braced s = false :=
  ⟨rn 0x502 [5, 95, 1], (fw 0x502 [5, 95, 1]).setReg (tkReg Off.TK_ALARM_STAT) 1, by decide +kernel⟩
theorem witness_CommandsThatWriteFields_9 : ∃ (g : Nat) (r : Running) (s : State),
    runsCmd s 0x401 r ∧ guardArg s (argN r.args 1) = some g ∧ tileState s (guardTile g) ≠ 3 ∧ tileDark s (guardTile g) = false ∧ overlapPair (pokes s (fwNode s) ((guardReg g Off.GRD_CTRL, 2) :: fldWords s (regionFlds r.args g))) g = none ∧ (s.ni (if g < 448 then g else if g = 448 then 6 else 447)).held = [] ∧ (s.ni (if g < 448 then g else if g = 448 then 6 else 447)).oq = [] ∧ (g < 448 ∨ (s.core (g - 448)).wq = []) :=
  ⟨3, rn 0x401 [3, 1, 0x100000000, 0x10000000F, 3], fw 0x401 [3, 1, 0x100000000, 0x10000000F, 3], by decide +kernel⟩
theorem witness_CommandsThatWriteFields_10 : ∃ (g : Nat) (r : Running) (s : State),
    runsCmd s 0x402 r ∧ guardArg s (argN r.args 1) = some g ∧ tileState s (guardTile g) ≠ 3 ∧ tileDark s (guardTile g) = false ∧ (s.ni (if g < 448 then g else if g = 448 then 6 else 447)).held = [] ∧ (s.ni (if g < 448 then g else if g = 448 then 6 else 447)).oq = [] ∧ (g < 448 ∨ (s.core (g - 448)).wq = []) :=
  ⟨3, rn 0x402 [3], (fw 0x402 [3]).setReg (guardReg 3 Off.GRD_CTRL) 1, by decide +kernel⟩
theorem witness_CommandsThatWriteFields_11 : ∃ (p : Nat) (m : Nat) (r : Running) (s : State),
    runsCmd s 0x201 r ∧ s.tickets.length + b2n s.fenceTicket.isSome < 32 ∧ p = (if (argN r.args 1).fld 0 2 = 3 then 1 else (argN r.args 1).fld 0 2) ∧ ((List.range 64).all (fun u => m.testBit u == (decide (p = 1) && (declaring s).any (fun n => decide (row (n / 7) = row u) || (destOf s n 5).testBit u)))) = true ∧ m < 2 ^ 64 :=
  ⟨0, 0, rn 0x201 [0, 5, 6], fw 0x201 [0, 5, 6], by decide +kernel⟩
theorem witness_CommandsThatWriteFields_12 : ∃ (x : Fin 64) (q : Nat) (r : Running) (s : State),
    runsCmd s 0x205 r ∧ s.tickets.length + b2n s.fenceTicket.isSome < 32 ∧ x.val = min 63 (argN r.args 1).toNat ∧ q = (((List.range 64).map (fun u => popCount (if u = x.val then (argN r.args 2).fld 16 8 else (comingReg s (missReg u)).fld 16 8))).foldl (· + ·) 0) :=
  ⟨4, 1, rn 0x205 [4, 0x10203, 5, 6], fw 0x205 [4, 0x10203, 5, 6], by decide +kernel⟩
theorem witness_CommandsThatWriteFields_13 : ∃ (r : Running) (s : State),
    runsCmd s 0x303 r ∧ s.tickets.length + b2n s.fenceTicket.isSome < 32 :=
  ⟨rn 0x303 [4, 0x10203, 5, 6], fw 0x303 [4, 0x10203, 5, 6], by decide +kernel⟩
theorem witness_CommandsThatWriteFields_14 : ∃ (r : Running) (s : State),
    runsCmd s 0x202 r ∧ s.tickets.length + b2n s.fenceTicket.isSome < 32 :=
  ⟨rn 0x202 [4, 3, 0, 1], fw 0x202 [4, 3, 0, 1], by decide +kernel⟩
theorem witness_CommandsThatWriteFields_15 : ∃ (r : Running) (s : State),
    runsCmd s 0x203 r ∧ s.tickets.length + b2n s.fenceTicket.isSome < 32 :=
  ⟨rn 0x203 [4, 3, 0, 1], fw 0x203 [4, 3, 0, 1], by decide +kernel⟩
theorem witness_CommandsThatWriteFields_16 : ∃ (r : Running) (s : State),
    runsCmd s 0x501 r ∧ stbyOk s = true ∧ switching s = false ∧ s.tkNone = false ∧ s.evq.length < 16 :=
  ⟨rn 0x501 [], (fw 0x501 []).setReg (tkReg Off.TK_STAT) 2, by decide +kernel⟩
theorem witness_CommandsThatWriteFields_11_b : ∃ (p : Nat) (m : Nat) (r : Running) (s : State),
    runsCmd s 0x201 r ∧ s.tickets.length + b2n s.fenceTicket.isSome < 32 ∧ p = (if (argN r.args 1).fld 0 2 = 3 then 1 else (argN r.args 1).fld 0 2) ∧ ((List.range 64).all (fun u => m.testBit u == (decide (p = 1) && (declaring s).any (fun n => decide (row (n / 7) = row u) || (destOf s n 5).testBit u)))) = true ∧ m < 2 ^ 64 :=
  ⟨1, 2 ^ 64 - 1, rn 0x201 [3, 5, 6], fw 0x201 [3, 5, 6], by decide +kernel⟩
theorem witness_CommandsThatWriteFields_12_b : ∃ (x : Fin 64) (q : Nat) (r : Running) (s : State),
    runsCmd s 0x205 r ∧ s.tickets.length + b2n s.fenceTicket.isSome < 32 ∧ x.val = min 63 (argN r.args 1).toNat ∧ q = (((List.range 64).map (fun u => popCount (if u = x.val then (argN r.args 2).fld 16 8 else (comingReg s (missReg u)).fld 16 8))).foldl (· + ·) 0) :=
  ⟨40, 129, rn 0x205 [40, 0x1FF00, 5, 6], forEach (fun x st => st.setReg (missReg x) 0xFF0100) (List.range 16) (fw 0x205 [40, 0x1FF00, 5, 6]), by decide +kernel⟩
theorem witness_Mailboxes_1 : ∃ (n : Fin 64) (c : Bool) (s : State),
    (mbxState s n = 0 ∨ mbxState s n = 3) ∧ outNow s (63 * b2n c) = false ∧ mayReadHdr s = true ∧ guardPasses s (activeCore s) = true ∧ isPoison s (mbxArea (b2n c) n) = false ∧ fstate s ≠ 2 :=
  ⟨3, true, { up with fc := 99 }, by decide +kernel⟩
theorem witness_Mailboxes_2 : ∃ (n : Fin 64) (c : Bool) (s : State),
    (mbxState s n = 1 ∨ mbxState s n = 2 ∨ outNow s (63 * b2n c) = true) ∧ fstate s ≠ 2 :=
  ⟨35, false, up.setReg (mbxReg (Off.MBX_STAT 35)) 2, by decide +kernel⟩
theorem witness_Mailboxes_3 : (match exec (.mbxDb [(3, true)]) up with | .next t => mbxState t 3 | _ => 0) = 1 := by decide +kernel
theorem witness_Mailboxes_4 : ∃ (s : State),
    s.session = none :=
  ⟨up, by decide +kernel⟩
theorem witness_Mailboxes_5 : ∃ (x : Session) (s : State),
    s.session = some x :=
  ⟨{ stamp := 5 }, { up with session := some { stamp := 5 } }, by decide +kernel⟩
theorem witness_Mailboxes_6 : ∃ (n : Nat) (s : State),
    waitingReset s = some n ∧ handingOver s = false ∧ fwAlive s = true ∧ s.session = none :=
  ⟨3, qd 1 0 0, by decide +kernel⟩
theorem witness_Mailboxes_7 : ∃ (n : Nat) (x : Session) (s : State),
    waitingReset s = some n ∧ handingOver s = false ∧ fwAlive s = true ∧ s.session = some x :=
  ⟨3, { stamp := 5 }, { qd 1 0 0 with session := some { stamp := 5 } }, by decide +kernel⟩
theorem witness_Mailboxes_8 : ∃ (x : Session) (s : State),
    s.session = some x ∧ s.running = none ∧ handingOver s = false ∧ fwAlive s = true ∧ ([5, 8, 9, 10, 11].all (fun j => !regBit s (evlReg (Off.EVL_IRQ_ROUTE j)) 4)) = true ∧ x.cmds = [] ∧ guardPasses s (activeCore s) = true :=
  ⟨{ stamp := 5 }, { (((qd 2 0 0).setWord (mbxArea 0 3 + 1) 5).setWord (respArea 1 9) 5).setReg (mbxReg (Off.MBX_STAT 7)) 1 |>.setReg (mbxReg (Off.MBX_STAMP 7)) 8 with session := some { stamp := 5 } }, by decide +kernel⟩
theorem witness_Mailboxes_9 : ∃ (n : Fin 64) (x : Session) (h : W) (s : State),
    s.session = some x ∧ s.running = none ∧ handingOver s = false ∧ fwAlive s = true ∧ ([5, 8, 9, 10, 11].all (fun j => !regBit s (evlReg (Off.EVL_IRQ_ROUTE j)) 4)) = true ∧ x.cmds = [n.val] ∧ headerOf s n = some h ∧ n.val ∈ ((queuedBoxes s).filter (fun n => stampLe (mbxStamp s n) x.stamp)) :=
  ⟨3, { stamp := 5, cmds := [3] }, W.at 24 12 1 ||| 1, { (qd 1 0 1).setReg (mbxReg (Off.MBX_STAT 7)) 1 with session := some { stamp := 5, cmds := [3] } }, by decide +kernel⟩
theorem witness_Mailboxes_10 : inLoader (qd 2 0 0) = false ∧ nextBox (qd 2 0 0) = some 3 := by decide +kernel
theorem witness_Mailboxes_11 : ∃ (n : Fin 64) (h : W) (s : State),
    nextBox s = some n.val ∧ headerOf s n = some h ∧ fwAlive s = true ∧ s.running = none ∧ s.session = none ∧ waitingReset s = none ∧ handingOver s = false ∧ s.imgReady = none ∧ ((List.range (hdrLen h)).all (fun i => !isPoison s (mbxArea (mbxCopy s n) n + 1 + i))) = true :=
  ⟨3, W.at 24 12 0x101 ||| W.at 8 8 2, (qd 0x101 2 0).setWord (mbxArea 0 3 + 2) 77, by decide +kernel⟩
theorem witness_Mailboxes_12_a : ∃ (r : Running) (code : Nat) (data : List W) (s : State),
    s.running = some r ∧ fwAlive s = true ∧ r.done = true ∧ writesHeld s = false ∧ s.session = none ∧ waitingReset s = none ∧ opcReg Off.OPC_SUPER_CNT ∉ r.later ∧ opcReg Off.OPC_CFG_EPOCH ∉ r.later ∧ (r.stop.isSome = true → code = 4 ∧ data = [4, 0]) ∧ (r.stop = none → code = r.code ∧ data = r.data ++ r.later.map s.reg) ∧ s.retain = none ∧ r.mbx < 64 ∧ r.copy < 2 ∧ ([5, 8, 9, 10, 11].all (fun j => !regBit s (evlReg (Off.EVL_IRQ_ROUTE j)) 4)) = true :=
  ⟨{ rn 0x801 [5] with code := 4, data := [4, 0], changed := true, done := true, hdr := W.at 24 12 0x801 ||| 1 }, 4, [4, 0], (fin { rn 0x801 [5] with code := 4, data := [4, 0], changed := true, done := true, hdr := W.at 24 12 0x801 ||| 1 }), by decide +kernel⟩
theorem witness_Mailboxes_12_b : ∃ (r : Running) (code : Nat) (data : List W) (s : State),
    s.running = some r ∧ fwAlive s = true ∧ r.done = true ∧ writesHeld s = false ∧ s.session = none ∧ waitingReset s = none ∧ opcReg Off.OPC_SUPER_CNT ∉ r.later ∧ opcReg Off.OPC_CFG_EPOCH ∉ r.later ∧ (r.stop.isSome = true → code = 4 ∧ data = [4, 0]) ∧ (r.stop = none → code = r.code ∧ data = r.data ++ r.later.map s.reg) ∧ s.retain = none ∧ r.mbx < 64 ∧ r.copy < 2 ∧ ([5, 8, 9, 10, 11].all (fun j => !regBit s (evlReg (Off.EVL_IRQ_ROUTE j)) 4)) = true :=
  ⟨{ rn 0x801 [100, 5] with changed := true, done := true }, 0, [], { (fin { rn 0x801 [100, 5] with changed := true }).setWord (mbxArea 0 9 + 1) 105 |>.setReg (mbxReg (Off.MBX_STAT 9)) 1 with hdrs := [(9, W.at 24 12 0x801 ||| W.at 8 8 2)] }, by decide +kernel⟩
theorem witness_Mailboxes_13 : ∃ (r : Running) (s : State),
    s.running = some r ∧ fwAlive s = true ∧ r.done = true ∧ writesHeld s = false ∧ (s.session.isSome = true ∨ (waitingReset s).isSome = true) ∧ s.retain = none :=
  ⟨{ rn 0x801 [5] with changed := true, done := true }, { fin { rn 0x801 [5] with changed := true } with session := some { stamp := 5 } }, by decide +kernel⟩
theorem witness_Mailboxes_14 : ∃ (r : Running) (s : State),
    s.running = some r ∧ fwAlive s = true ∧ r.done = false ∧ fwMode s = 3 ∧ inLoader s = false ∧ knownOp (hdrOpcode r.hdr) = false :=
  ⟨rn 0x1FF [], fw 0x1FF [], by decide +kernel⟩
theorem witness_Mailboxes_15 : ∃ (r : Running) (s : State),
    s.running = some r ∧ fwAlive s = true ∧ r.done = false ∧ fwMode s ≠ 3 ∧ opServed s (hdrOpcode r.hdr) = false ∧ knownOp (hdrOpcode r.hdr) = true :=
  ⟨rn 0x101 [], (fw 0x101 []).setReg (opcReg Off.OPC_FW_STAT) (W.at 24 2 2), by decide +kernel⟩
theorem witness_Mailboxes_12_c : ∃ (r : Running) (code : Nat) (data : List W) (s : State),
    s.running = some r ∧ fwAlive s = true ∧ r.done = true ∧ writesHeld s = false ∧ s.session = none ∧ waitingReset s = none ∧ opcReg Off.OPC_SUPER_CNT ∉ r.later ∧ opcReg Off.OPC_CFG_EPOCH ∉ r.later ∧ (r.stop.isSome = true → code = 4 ∧ data = [4, 0]) ∧ (r.stop = none → code = r.code ∧ data = r.data ++ r.later.map s.reg) ∧ s.retain = none ∧ r.mbx < 64 ∧ r.copy < 2 ∧ ([5, 8, 9, 10, 11].all (fun j => !regBit s (evlReg (Off.EVL_IRQ_ROUTE j)) 4)) = true :=
  ⟨{ rn 0x801 [5] with stop := some 7, done := true }, 4, [4, 0], { setBit (fin { rn 0x801 [5] with stop := some 7 }) (opcReg Off.OPC_FW_STAT) 27 true |>.setCore 1 { run := true } with imgReady := some 1 }, by decide +kernel⟩
theorem witness_Mailboxes_16 : ∃ (b : Nat) (s : State),
    s.imgCheck = some b ∧ inLoader s = false ∧ stbyActs s = true ∧ s.running = none ∧ s.session = none ∧ waitingReset s = none :=
  ⟨1, { setBit fw0 (opcReg Off.OPC_FW_STAT) 27 true |>.setCore 1 { run := true } with imgCheck := some 1 }, by decide +kernel⟩
theorem witness_Mailboxes_17 : ∃ (s : State),
    handingOver s = true :=
  ⟨setBit (qd 2 0 0) (mbxReg Off.MBX_AVAIL) 1 true, by decide +kernel⟩
theorem witness_OpconCores_1 : ∃ (c : Fin 2) (s : State),
    coreActs s c = true ∧ s.inReset = false ∧ guardPasses s c = true :=
  ⟨0, fw0, by decide +kernel⟩
theorem witness_OpconCores_2 : ∃ (c : Fin 2) (cause : BitVec 8) (addr : W) (s : State),
    coreActs s c = true ∧ cause ≠ 0 ∧ s.evq.length < 16 ∧ activeCore s = c :=
  ⟨0, 5, 0x12345678, fw0, by decide +kernel⟩
theorem witness_OpconCores_3 : ∃ (c : Fin 2) (cause : BitVec 8) (addr : W) (s : State),
    coreActs s c = true ∧ cause ≠ 0 ∧ s.evq.length < 16 ∧ activeCore s ≠ c ∧ failsAgain s c = false :=
  ⟨1, 5, 0x12345678, (fw0.setReg (opcReg Off.OPC_FW_STAT) (W.at 24 2 3 ||| W.at 27 1 1)).setCore 1 { run := true }, by decide +kernel⟩
theorem witness_OpconCores_4 : ∃ (c : Fin 2) (cause : BitVec 8) (addr : W) (s : State),
    coreActs s c = true ∧ cause ≠ 0 ∧ s.evq.length < 15 ∧ activeCore s ≠ c ∧ failsAgain s c = true :=
  ⟨1, 5, 0x12345678, (fw0.setReg (opcReg Off.OPC_FW_STAT) (W.at 24 2 3 ||| W.at 27 1 1)).setCore 1 { run := true, backFt := some 0 }, by decide +kernel⟩
theorem witness_OpconCores_5 : ∃ (s : State),
    stbyActs s = true ∧ guardPasses s (standby s) = true ∧ (s.core (activeCore s)).halted = false ∧ 2 ≤ fwMode s ∧ s.inReset = false ∧ failCause s ≠ 0 ∧ fwMisses s (fnfReg Off.FNF_CTRL) = false ∧ s.evq.length < 16 ∧ failsAgain s (activeCore s) = false ∧ regBit s (opcReg Off.OPC_IMG_BANK) 1 = false ∧ coresIdle s :=
  ⟨(((fw 0x101 []).setReg (opcReg Off.OPC_FW_STAT) (W.at 24 2 3 ||| W.at 27 1 1)).setCore 1 { run := true }).setCore 0 { run := false, dead := 2 }, by decide +kernel⟩
theorem witness_OpconCores_6 : ∃ (s : State),
    stbyActs s = true ∧ guardPasses s (standby s) = true ∧ (s.core (activeCore s)).halted = false ∧ 2 ≤ fwMode s ∧ s.inReset = false ∧ failCause s ≠ 0 ∧ fwMisses s (fnfReg Off.FNF_CTRL) = false ∧ s.evq.length < 15 ∧ failsAgain s (activeCore s) = true ∧ regBit s (opcReg Off.OPC_IMG_BANK) 1 = false ∧ coresIdle s :=
  ⟨(((fw 0x101 []).setReg (opcReg Off.OPC_FW_STAT) (W.at 24 2 3 ||| W.at 27 1 1)).setCore 1 { run := true }).setCore 0 { run := false, dead := 2, backFt := some 0 }, by decide +kernel⟩
theorem witness_OpconCores_7 : ∃ (s : State),
    stbyActs s = true ∧ guardPasses s (standby s) = true ∧ (s.core (activeCore s)).halted = false ∧ 2 ≤ fwMode s ∧ s.inReset = false ∧ failCause s ≠ 0 ∧ fwMisses s (fnfReg Off.FNF_CTRL) = false ∧ s.evq.length < 15 ∧ failsAgain s (activeCore s) = false ∧ regBit s (opcReg Off.OPC_IMG_BANK) 1 = true ∧ coresIdle s :=
  ⟨((((fw 0x101 []).setReg (opcReg Off.OPC_FW_STAT) (W.at 24 2 3 ||| W.at 27 1 1)).setCore 1 { run := true }).setCore 0 { run := false, dead := 2 }).setReg (opcReg Off.OPC_IMG_BANK) 3, by decide +kernel⟩
theorem witness_OpconCores_8 : ∃ (s : State),
    s.inReset = false ∧ s.scanOn = false ∧ regBit s (bstReg Off.BST_POST_STAT) 0 = true ∧ fwMode s = 0 ∧ (s.core 0).rstReq = false ∧ (s.core 0).rstHold = false ∧ haltAsked s 0 = false ∧ (s.core 0).halted = false :=
  ⟨(up.setReg (bstReg Off.BST_POST_STAT) 1).setWord (mbxArea 0 5) 8, by decide +kernel⟩
theorem witness_OpconCores_9 : ∃ (b : Nat) (r : Running) (s : State),
    s.imgCheck = some b ∧ inLoader s = true ∧ fwAlive s = true ∧ guardPasses s (activeCore s) = true ∧ s.running = some r ∧ s.braceReset = false ∧ regBit s (tkReg Off.TK_ALARM_STAT) 1 = false ∧ s.evq.length < 16 ∧ braced s = false ∧ fwMisses s (mtxReg Off.MTX_REMAP) = false :=
  ⟨0, rn 0x901 [], { (up.setReg (opcReg Off.OPC_FW_STAT) (W.at 24 2 1)).setCore 0 { run := true } with running := some (rn 0x901 []), imgCheck := some 0 }, by decide +kernel⟩
theorem witness_OpconCores_10 : ∃ (b : Nat) (s : State),
    s.imgCheck = some b ∧ inLoader s = false ∧ stbyActs s = true ∧ s.evq.length < 16 :=
  ⟨1, { (fw0.setReg (opcReg Off.OPC_FW_STAT) (W.at 24 2 3 ||| W.at 27 1 1)).setCore 1 { run := true } with imgCheck := some 1 }, by decide +kernel⟩
theorem witness_OpconCores_11 : ∃ (b : Nat) (s : State),
    s.imgReady = some b ∧ fwAlive s = true ∧ guardPasses s (activeCore s) = true ∧ handingOver s = true ∧ stbyActs s = true ∧ s.evq.length < 16 ∧ fwMisses s (fnfReg Off.FNF_CTRL) = false ∧ coresIdle s :=
  ⟨1, { ((fw0.setReg (mbxReg Off.MBX_AVAIL) 2).setReg (opcReg Off.OPC_FW_STAT) (W.at 24 2 3 ||| W.at 27 1 1)).setCore 1
    { run := true } with imgReady := some 1 }, by decide +kernel⟩
theorem witness_OpconCores_12 : ∃ (s : State),
    s.inReset = false ∧ s.scanOn = false ∧ bootSel s = true ∧ 2 ≤ fwMode s ∧ coreActs s (standby s) = true ∧ stbyCore s = false :=
  ⟨fw0.setCore 1 { run := true, dead := 2 }, by decide +kernel⟩
theorem witness_FirmwareJobs_1 : ∃ (k : Nat) (tk : Ticket) (es : List FEnt) (s : State),
    fwAlive s = true ∧ guardPasses s (activeCore s) = true ∧ regBit s (fnfReg Off.FNF_CTRL) 0 = true ∧ freeSlot67 s = some k ∧ checkEnts s 0 [] es = none ∧ s.stageQ = [] ∧ (∀ e ∈ es, placesHeld s e.ni = 0) ∧ s.route = none ∧ settled s = true ∧ (∀ q, s.tickets.head? = some q → q.land = none) ∧ (s.tickets.find? waitsGo) = some tk ∧ tk.route = false ∧ fanEnts s tk.ents = es ∧ es ≠ [] ∧ max tk.lt (armedLt s) < 2 ^ 36 * ftSec :=
  ⟨6, { num := 1, ents := [(0x100000005, [7])], lt := 64000 }, [{ addr := 0x100000005, data := [7], ni := 5 }], { (fw0.setReg (fnfReg Off.FNF_CTRL) 1) with tickets := [{ num := 1, ents := [(0x100000005, [7])], lt := 64000 }] }, by decide +kernel⟩
/-- Firmware in normal mode while every tile but the first two is off. -/
def fwFew : State :=
  { fw0 with regs := (List.range 62).map (fun t => (taReg (t + 2) Off.PWR_TA_STAT, 3)) ++
      (fw0.setReg (fnfReg Off.FNF_CTRL) 1).regs }
def rcA : RouteCh := { ticket := 1, newMap := [], aff := 1, phase := .hold }
def rcB : RouteCh := { ticket := 3, newMap := [], aff := 1, phase := .scan2, fwd := fwdCounts fwFew }
theorem witness_FirmwareJobs_2 : ∃ (k : Nat) (tk : Ticket) (es : List FEnt) (s : State),
    fwAlive s = true ∧ guardPasses s (activeCore s) = true ∧ regBit s (fnfReg Off.FNF_CTRL) 0 = true ∧ freeSlot67 s = some k ∧ checkEnts s 0 [] es = none ∧ s.stageQ = [] ∧ (∀ e ∈ es, placesHeld s e.ni = 0) ∧ s.route = none ∧ settled s = true ∧ (∀ q, s.tickets.head? = some q → q.land = none) ∧ (s.tickets.find? waitsGo) = some tk ∧ tk.route = true ∧ nisToDrain s tk = [] ∧ fanEnts s ((List.range 64).flatMap (fun u => wordEnts (holdWrites s ({ ticket := tk.num, newMap := tk.map, aff := tk.aff, phase := .hold } : RouteCh) u))) = es ∧ max tk.lt (armedLt s) < 2 ^ 36 * ftSec :=
  ⟨6, { num := 1, lt := 64000, route := true, map := [], aff := 1 },
    fanEnts fwFew ((List.range 64).flatMap (fun u => wordEnts (holdWrites fwFew rcA u))),
    { fwFew with tickets := [{ num := 1, lt := 64000, route := true, map := [], aff := 1 }] }, by decide +kernel⟩
theorem witness_FirmwareJobs_3 : ∃ (k : Nat) (tk : Ticket) (s : State),
    fwAlive s = true ∧ guardPasses s (activeCore s) = true ∧ regBit s (fnfReg Off.FNF_CTRL) 0 = true ∧ freeSlot67 s = some k ∧ s.route = none ∧ settled s = true ∧ (∀ q, s.tickets.head? = some q → q.land = none) ∧ (s.tickets.find? waitsGo) = some tk ∧ tk.route = true ∧ nisToDrain s tk ≠ [] :=
  ⟨6, { num := 1, route := true, map := [0, 2 ^ 16] }, { ((fw0.setReg (fnfReg Off.FNF_CTRL) 1)).setReg (niReg 7 Off.NI_CTRL) 1 with tickets := [{ num := 1, route := true, map := [0, 2 ^ 16] }], pendMap := [(1, 2 ^ 16)] }, by decide +kernel⟩
theorem witness_FirmwareJobs_4 : ∃ (k : Fin 8) (num : Nat) (s : State),
    fwAlive s = true ∧ guardPasses s (activeCore s) = true ∧ (s.slot k).ticket = some num ∧ (slotState s k = 7 ∨ slotState s k = 0) ∧ s.evq.length < 16 ∧ (s.route.any (fun q => decide (q.ticket = num))) = false :=
  ⟨6, 4, { ((fw0.setReg (fnfReg Off.FNF_CTRL) 1).setReg (slotReg 6 Off.FNF_STAT) (W.at 0 4 7 ||| W.at 29 5 8)).setSlot 6 { ticket := some 4 } with tickets := [{ num := 3, slot := some 6 }, { num := 4 }], route := some { ticket := 3, newMap := [], aff := 1, phase := .scan1 } }, by decide +kernel⟩
theorem witness_FirmwareJobs_5 : ∃ (k : Fin 8) (num : Nat) (s : State),
    fwAlive s = true ∧ guardPasses s (activeCore s) = true ∧ (s.slot k).ticket = some num ∧ (slotState s k = 7 ∨ slotState s k = 0) ∧ s.evq.length < 16 ∧ (s.route.any (fun q => decide (q.ticket = num))) = true :=
  ⟨6, 3, { (((fw0.setReg (rtrReg 9 Off.RTR_CTRL) 6).setReg (fnfReg Off.FNF_CTRL) 1).setReg (slotReg 6 Off.FNF_STAT) (W.at 0 4 7 ||| W.at 29 5 8)).setSlot 6 { ticket := some 3 } with tickets := [{ num := 3, slot := some 6 }, { num := 4 }], route := some { ticket := 3, newMap := [], aff := 1, phase := .scan1 } }, by decide +kernel⟩
theorem witness_FirmwareJobs_6 : ∃ (s : State),
    fwAlive s = true ∧ guardPasses s (activeCore s) = true ∧ s.jobs = [] ∧ s.route = none ∧ (s.tickets.any (fun q => q.route)) = false ∧ s.tickets.length < 32 ∧ routeNeeded s = true :=
  ⟨{ fw0 with pendMap := [(9, 1)], fenceTicket := some 5, tickets := [{ num := 6 }] }, by decide +kernel⟩
theorem witness_FirmwareJobs_7 : ∃ (u : Fin 64) (i : Fin 16) (m : Nat) (s : State),
    fwAlive s = true ∧ guardPasses s (activeCore s) = true ∧ s.jobs = [{ kind := .linkFence, t := u, a := i, b := m }] ∧ instLink s u i = true ∧ isLink u i = true ∧ s.route.isSome = true ∧ tileDark s u = false ∧ tileDark s (across u i) = false :=
  ⟨9, 3, 3, { (fw0.setReg (rtrReg 63 (Off.RTR_FMAP + 9)) 8).setReg (rtrReg 0 (Off.RTR_FMAP + 9)) 8 with jobs := [{ kind := .linkFence, t := 9, a := 3, b := 3 }], route := some { ticket := 3, newMap := [], aff := 1, phase := .scan1 } }, by decide +kernel⟩
theorem witness_FirmwareJobs_8_a : ∃ (r : RouteCh) (s : State),
    fwAlive s = true ∧ s.route = some r ∧ ((r.phase = .scan1 ∨ r.phase = .scan2 ∧ (allEmpty s = false ∨ fwdCounts s ≠ r.fwd))) :=
  ⟨{ ticket := 3, newMap := [], aff := 1, phase := .scan1, fwd := fwdCounts fw0 }, { fw0 with route := some { ticket := 3, newMap := [], aff := 1, phase := .scan1, fwd := fwdCounts fw0 } }, by decide +kernel⟩
theorem witness_FirmwareJobs_8_b : ∃ (r : RouteCh) (s : State),
    fwAlive s = true ∧ s.route = some r ∧ ((r.phase = .scan1 ∨ r.phase = .scan2 ∧ (allEmpty s = false ∨ fwdCounts s ≠ r.fwd))) :=
  ⟨{ ticket := 3, newMap := [], aff := 1, phase := .scan2, fwd := fwdCounts fw0 }, { fw0.setReg (rtrReg 3 Off.RTR_OLD_FWD) 7 with route := some { ticket := 3, newMap := [], aff := 1, phase := .scan2, fwd := fwdCounts fw0 } }, by decide +kernel⟩
theorem witness_FirmwareJobs_9 : ∃ (k : Nat) (r : RouteCh) (es : List FEnt) (s : State),
    fwAlive s = true ∧ guardPasses s (activeCore s) = true ∧ regBit s (fnfReg Off.FNF_CTRL) 0 = true ∧ freeSlot67 s = some k ∧ checkEnts s 0 [] es = none ∧ s.stageQ = [] ∧ (∀ e ∈ es, placesHeld s e.ni = 0) ∧ s.route = some r ∧ r.phase = .scan2 ∧ allEmpty s = true ∧ fwdCounts s = r.fwd ∧ fanEnts s ((List.range 64).flatMap (mapEnts s r)) = es ∧ armedLt s < 2 ^ 36 * ftSec :=
  ⟨6, rcB, fanEnts fwFew ((List.range 64).flatMap (mapEnts fwFew rcB)), { fwFew with route := some rcB }, by decide +kernel⟩
theorem witness_FirmwareJobs_10 : ∃ (s : State),
    fwAlive s = true ∧ 2 ≤ fwMode s ∧ handingOver s = false ∧ ((∀ b ∈ scanAddrs s, (scanSkips s (runningAddrs s) b = true ∨ s.reg b = shadowOf s b))) :=
  ⟨fw0.setReg (rtrReg 9 Off.RTR_CTRL) 2 |>.setReg (rtrReg 9 Off.RTR_CTRL) (resetValue (rtrReg 9 Off.RTR_CTRL)), by decide +kernel⟩
theorem witness_FirmwareJobs_11 : ∃ (a : Nat) (s : State),
    fwAlive s = true ∧ 2 ≤ fwMode s ∧ handingOver s = false ∧ a ∈ scanAddrs s ∧ scanSkips s (runningAddrs s) a = false ∧ s.reg a ≠ shadowOf s a ∧ ((∀ b ∈ scanAddrs s, b ≠ a → (scanSkips s (runningAddrs s) b = true ∨ s.reg b = shadowOf s b))) ∧ s.evq.length < 16 :=
  ⟨rtrReg 9 Off.RTR_CTRL, fw0.setReg (rtrReg 9 Off.RTR_CTRL) 3, by decide +kernel⟩
theorem witness_FirmwareJobs_12 : ∃ (s : State),
    fwAlive s = true ∧ guardPasses s (activeCore s) = true ∧ 2 ≤ fwMode s ∧ s.checkDue = true ∧ s.evq.length < 16 :=
  ⟨{ fw0 with checkDue := true, fuses := 0, fusesSensed := 0 }, by decide +kernel⟩
/-- A replay escalation at half 1 of link 3 of router 9 asks for a lane repair. -/
def fwRep : State := { fw0 with repairDue := [(9, 3, 1)] }
theorem witness_FirmwareJobs_13 : ∃ (u : Fin 64) (v : Fin 2) (i : Fin 16) (s : State),
    fwAlive s = true ∧ guardPasses s (activeCore s) = true ∧ isLink u i = true ∧ s.repairDue.contains (u.val, i.val, v.val) = true ∧ sliceIn s u v = true ∧ sliceIn s (across u i) v = true ∧ (s.ta u).turn = none ∧ (s.ta (across u i)).turn = none ∧ tileDark s u = false ∧ tileDark s (across u i) = false ∧ fenceWanted s u i (1 - v) = false ∧ txFenced s u i v = true :=
  ⟨9, 1, 3, ((fwRep.setReg (slcReg 9 1 (Off.LNK_CTRL 3)) 1).setReg (slcReg 9 1 (Off.LNK_STAT 3)) 1), by decide +kernel⟩
theorem witness_FirmwareJobs_14 : ∃ (u : Fin 64) (v : Fin 2) (i : Fin 16) (w : Fin 312) (j : Nat) (s : State),
    fwAlive s = true ∧ guardPasses s (activeCore s) = true ∧ isLink u i = true ∧ s.repairDue.contains (u.val, i.val, v.val) = true ∧ sliceIn s u v = true ∧ sliceIn s (across u i) v = true ∧ (s.ta u).turn = none ∧ (s.ta (across u i)).turn = none ∧ tileDark s u = false ∧ tileDark s (across u i) = false ∧ fenceWanted s u i (1 - v) = false ∧ txFenced s u i v = true ∧ (unusedSpares s ({ t := u, i := i, sl := v } : Half)).head? = some j :=
  ⟨9, 1, 3, 5, 0, ((fwRep.setReg (slcReg 9 1 (Off.LNK_CTRL 3)) 1).setReg (slcReg 9 1 (Off.LNK_STAT 3)) 1), by decide +kernel⟩
theorem witness_FirmwareJobs_15 : ∃ (u : Fin 64) (v : Fin 2) (i : Fin 16) (w : Fin 312) (rest : List (List (Fin 312))) (s : State),
    fwAlive s = true ∧ guardPasses s (activeCore s) = true ∧ isLink u i = true ∧ s.repairDue.contains (u.val, i.val, v.val) = true ∧ sliceIn s u v = true ∧ sliceIn s (across u i) v = true ∧ (s.ta u).turn = none ∧ (s.ta (across u i)).turn = none ∧ tileDark s u = false ∧ tileDark s (across u i) = false ∧ fenceWanted s u i (1 - v) = false ∧ txFenced s u i v = true ∧ unusedSpares s ({ t := u, i := i, sl := v } : Half) = [] ∧ s.evq.length < 16 :=
  ⟨9, 1, 3, 5, [], (List.range 12).foldl (fun st j => st.setReg (slcReg 9 1 (Off.LNK_TX_REMAP 3 j)) 0x200) ((fwRep.setReg (slcReg 9 1 (Off.LNK_CTRL 3)) 1).setReg (slcReg 9 1 (Off.LNK_STAT 3)) 1), by decide +kernel⟩
theorem witness_FirmwareJobs_16 : ∃ (u : Fin 64) (v : Fin 2) (i : Fin 16) (bad : List (List (Fin 312))) (s : State),
    fwAlive s = true ∧ guardPasses s (activeCore s) = true ∧ isLink u i = true ∧ s.repairDue.contains (u.val, i.val, v.val) = true ∧ sliceIn s u v = true ∧ sliceIn s (across u i) v = true ∧ (s.ta u).turn = none ∧ (s.ta (across u i)).turn = none ∧ tileDark s u = false ∧ tileDark s (across u i) = false ∧ fenceWanted s u i (1 - v) = false ∧ txFenced s u i v = false :=
  ⟨9, 1, 3, [], fwRep, by decide +kernel⟩
theorem witness_FirmwareJobs_17 : ∃ (u : Fin 64) (v : Fin 2) (i : Fin 16) (bad : List (List (Fin 312))) (s : State),
    fwAlive s = true ∧ guardPasses s (activeCore s) = true ∧ isLink u i = true ∧ s.repairDue.contains (u.val, i.val, v.val) = true ∧ sliceIn s u v = true ∧ sliceIn s (across u i) v = true ∧ (s.ta u).turn = none ∧ (s.ta (across u i)).turn = none ∧ tileDark s u = false ∧ tileDark s (across u i) = false ∧ fenceWanted s u i (1 - v) = true ∧ instLink s u i = false :=
  ⟨9, 1, 3, [], fwRep.setReg (slcReg 9 0 (Off.LNK_CTRL 3)) 1, by decide +kernel⟩
theorem witness_FirmwareJobs_18 : ∃ (q : Ticket) (a : Nat) (v : W) (n : Nat) (lt : Nat) (s : State),
    fwAlive s = true ∧ s.tickets = [q] ∧ q.land = some lt ∧ lt ≤ ftNow s ∧ q.ents = [(a, [v])] ∧ q.num < 65536 ∧ stagingNi s a = some n ∧ tileState s (n / 7) = 3 ∧ shadowed a = true ∧ isGroupWord a = false :=
  ⟨{ num := 5, ents := [(rtrReg 9 Off.RTR_CTRL, [3])], land := some 4, check := true }, rtrReg 9 Off.RTR_CTRL, 3, 68, 4,
    { setFld fw0 (taReg 9 Off.PWR_TA_STAT) 0 3 3 with ft := 2 ^ 50, tickets := [{ num := 5, ents := [(rtrReg 9 Off.RTR_CTRL, [3])], land := some 4, check := true }] }, by decide +kernel⟩
theorem witness_FirmwareJobs_19 : ∃ (tk : Ticket) (s : State),
    fwAlive s = true ∧ regBit s (fnfReg Off.FNF_CTRL) 0 = true ∧ (freeSlot67 s).isSome = true ∧ s.route = none ∧ settled s = true ∧ (∀ q, s.tickets.head? = some q → q.land = none) ∧ (s.tickets.find? waitsGo) = some tk ∧ tk.route = false ∧ fanEnts s tk.ents = [] ∧ ftNow s < max tk.lt (armedLt s) :=
  ⟨{ num := 5, ents := [(rtrReg 9 Off.RTR_CTRL, [3])], lt := 64000 },
    { setFld (fw0.setReg (fnfReg Off.FNF_CTRL) 1) (taReg 9 Off.PWR_TA_STAT) 0 3 3 with tickets := [{ num := 5, ents := [(rtrReg 9 Off.RTR_CTRL, [3])], lt := 64000 }] }, by decide +kernel⟩
theorem witness_TopologyAndFanfareCommands_1 : ∃ (r : Running) (s : State),
    runsCmd s 0x101 r ∧ queueFull s = false ∧ s.jobs = [] ∧ (argN r.args 2).bit 1 = true ∧ sliceState s (tileOf (argN r.args 1)) ((argN r.args 2).fld 0 1) = 0 ∧ (sliceState s (tileOf (argN r.args 1)) (1 - ((argN r.args 2).fld 0 1)) = 0) ∧ (s.ta (tileOf (argN r.args 1))).turn = none ∧ tileState s (tileOf (argN r.args 1)) ≠ 3 ∧ tileState s (tileOf (argN r.args 1)) ≠ 2 ∧ tileState s (tileOf (argN r.args 1)) ≠ 4 ∧ tileDark s (tileOf (argN r.args 1)) = false ∧ instHalf s (tileOf (argN r.args 1)) = false ∧ ((argN r.args 2).bit 2 = true ∨ isolatedBy (addJob (noteClamps s (tileClamps (argN r.args 1))) { kind := .fence, t := (tileOf (argN r.args 1)), a := ((argN r.args 2).fld 0 1) }) (wantedMap (addJob (noteClamps s (tileClamps (argN r.args 1))) { kind := .fence, t := (tileOf (argN r.args 1)), a := ((argN r.args 2).fld 0 1) })) = 0) :=
  ⟨rn 0x101 [9, 7], (fw 0x101 [9, 7]), by decide +kernel⟩
theorem witness_TopologyAndFanfareCommands_1_b : ∃ (r : Running) (s : State),
    runsCmd s 0x101 r ∧ queueFull s = false ∧ s.jobs = [] ∧ (argN r.args 2).bit 1 = true ∧ sliceState s (tileOf (argN r.args 1)) ((argN r.args 2).fld 0 1) = 0 ∧ (sliceState s (tileOf (argN r.args 1)) (1 - ((argN r.args 2).fld 0 1)) = 0) ∧ (s.ta (tileOf (argN r.args 1))).turn = none ∧ tileState s (tileOf (argN r.args 1)) ≠ 3 ∧ tileState s (tileOf (argN r.args 1)) ≠ 2 ∧ tileState s (tileOf (argN r.args 1)) ≠ 4 ∧ tileDark s (tileOf (argN r.args 1)) = false ∧ instHalf s (tileOf (argN r.args 1)) = false ∧ ((argN r.args 2).bit 2 = true ∨ isolatedBy (addJob (noteClamps s (tileClamps (argN r.args 1))) { kind := .fence, t := (tileOf (argN r.args 1)), a := ((argN r.args 2).fld 0 1) }) (wantedMap (addJob (noteClamps s (tileClamps (argN r.args 1))) { kind := .fence, t := (tileOf (argN r.args 1)), a := ((argN r.args 2).fld 0 1) })) = 0) :=
  ⟨rn 0x101 [9, 3], { fw 0x101 [9, 3] with pendMap := (List.range 64).map (fun v => (v, if v ∈ [9, 10] then 0 else 65536)) }, by decide +kernel⟩
theorem witness_TopologyAndFanfareCommands_2 : ∃ (r : Running) (s : State),
    runsCmd s 0x101 r ∧ queueFull s = false ∧ s.jobs = [] ∧ (argN r.args 2).bit 1 = false ∧ sliceState s (tileOf (argN r.args 1)) ((argN r.args 2).fld 0 1) = 2 ∧ tileState s (tileOf (argN r.args 1)) ≠ 3 ∧ tileState s (tileOf (argN r.args 1)) ≠ 2 ∧ tileState s (tileOf (argN r.args 1)) ≠ 4 ∧ tileDark s (tileOf (argN r.args 1)) = false :=
  ⟨rn 0x101 [9, 0], (fw 0x101 [9, 0]).setReg (slcReg 9 0 Off.SLC_STAT) 2, by decide +kernel⟩
theorem witness_TopologyAndFanfareCommands_3 : ∃ (r : Running) (s : State),
    runsCmd s 0x101 r ∧ (argN r.args 2).bit 1 = true ∧ (s.ta (tileOf (argN r.args 1))).turn.map (fun q => q.unit) = some (1 - ((argN r.args 2).fld 0 1)) ∧ queueFull s = false :=
  ⟨rn 0x101 [9, 2], (fw 0x101 [9, 2]).setTa 9 { turn := some { unit := 1, part := 0, phase := .testing } }, by decide +kernel⟩
theorem witness_TopologyAndFanfareCommands_4 : ∃ (r : Running) (s : State),
    runsCmd s 0x102 r ∧ queueFull s = false ∧ s.jobs = [] ∧ isLink (tileOf (argN r.args 1)) ((argN r.args 2).fld 0 4) = true ∧ tileDark s (tileOf (argN r.args 1)) = false ∧ tileDark s (across (tileOf (argN r.args 1)) ((argN r.args 2).fld 0 4)) = false ∧ (argN r.args 3).bit 2 = true ∧ ((linkHalfArg (argN r.args 3)).testBit 0 || halfDown s (tileOf (argN r.args 1)) ((argN r.args 2).fld 0 4) 0) = true ∧ ((linkHalfArg (argN r.args 3)).testBit 1 || halfDown s (tileOf (argN r.args 1)) ((argN r.args 2).fld 0 4) 1) = true ∧ (pendBits s (tileOf (argN r.args 1))).testBit ((argN r.args 2).fld 0 4) = false ∧ instLink s (tileOf (argN r.args 1)) ((argN r.args 2).fld 0 4) = false ∧ ((argN r.args 3).bit 3 = true ∨ isolatedBy (cutLink (noteClamps s (tileClamps (argN r.args 1) + b2n (decide ((argN r.args 3).fld 0 2 = 0)))) (tileOf (argN r.args 1)) ((argN r.args 2).fld 0 4) (linkHalfArg (argN r.args 3))) (wantedMap (cutLink (noteClamps s (tileClamps (argN r.args 1) + b2n (decide ((argN r.args 3).fld 0 2 = 0)))) (tileOf (argN r.args 1)) ((argN r.args 2).fld 0 4) (linkHalfArg (argN r.args 3)))) = 0) :=
  ⟨rn 0x102 [9, 3, 15], (fw 0x102 [9, 3, 15]), by decide +kernel⟩
theorem witness_TopologyAndFanfareCommands_4_b : ∃ (r : Running) (s : State),
    runsCmd s 0x102 r ∧ queueFull s = false ∧ s.jobs = [] ∧ isLink (tileOf (argN r.args 1)) ((argN r.args 2).fld 0 4) = true ∧ tileDark s (tileOf (argN r.args 1)) = false ∧ tileDark s (across (tileOf (argN r.args 1)) ((argN r.args 2).fld 0 4)) = false ∧ (argN r.args 3).bit 2 = true ∧ ((linkHalfArg (argN r.args 3)).testBit 0 || halfDown s (tileOf (argN r.args 1)) ((argN r.args 2).fld 0 4) 0) = true ∧ ((linkHalfArg (argN r.args 3)).testBit 1 || halfDown s (tileOf (argN r.args 1)) ((argN r.args 2).fld 0 4) 1) = true ∧ (pendBits s (tileOf (argN r.args 1))).testBit ((argN r.args 2).fld 0 4) = false ∧ instLink s (tileOf (argN r.args 1)) ((argN r.args 2).fld 0 4) = false ∧ ((argN r.args 3).bit 3 = true ∨ isolatedBy (cutLink (noteClamps s (tileClamps (argN r.args 1) + b2n (decide ((argN r.args 3).fld 0 2 = 0)))) (tileOf (argN r.args 1)) ((argN r.args 2).fld 0 4) (linkHalfArg (argN r.args 3))) (wantedMap (cutLink (noteClamps s (tileClamps (argN r.args 1) + b2n (decide ((argN r.args 3).fld 0 2 = 0)))) (tileOf (argN r.args 1)) ((argN r.args 2).fld 0 4) (linkHalfArg (argN r.args 3)))) = 0) :=
  ⟨rn 0x102 [9, 3, 7], { fw 0x102 [9, 3, 7] with pendMap := (List.range 64).map (fun v => (v, if v ∈ [9, 10] then 0 else 65536)) }, by decide +kernel⟩
theorem witness_TopologyAndFanfareCommands_5 : ∃ (r : Running) (s : State),
    runsCmd s 0x102 r ∧ queueFull s = false ∧ s.jobs = [] ∧ isLink (tileOf (argN r.args 1)) ((argN r.args 2).fld 0 4) = true ∧ tileDark s (tileOf (argN r.args 1)) = false ∧ tileDark s (across (tileOf (argN r.args 1)) ((argN r.args 2).fld 0 4)) = false ∧ (argN r.args 3).bit 2 = true ∧ (((linkHalfArg (argN r.args 3)).testBit 0 || halfDown s (tileOf (argN r.args 1)) ((argN r.args 2).fld 0 4) 0) && ((linkHalfArg (argN r.args 3)).testBit 1 || halfDown s (tileOf (argN r.args 1)) ((argN r.args 2).fld 0 4) 1)) = false :=
  ⟨rn 0x102 [9, 3, 4], (fw 0x102 [9, 3, 4]), by decide +kernel⟩
theorem witness_TopologyAndFanfareCommands_6 : ∃ (r : Running) (s : State),
    runsCmd s 0x102 r ∧ queueFull s = false ∧ s.jobs = [] ∧ isLink (tileOf (argN r.args 1)) ((argN r.args 2).fld 0 4) = true ∧ tileDark s (tileOf (argN r.args 1)) = false ∧ tileDark s (across (tileOf (argN r.args 1)) ((argN r.args 2).fld 0 4)) = false ∧ (argN r.args 3).bit 2 = false ∧ ((linkHalves (tileOf (argN r.args 1)) ((argN r.args 2).fld 0 4) (linkHalfArg (argN r.args 3))).any (fun e => regBit s (slcReg e.1 e.2.2 (Off.LNK_CTRL e.2.1)) 0)) = true :=
  ⟨rn 0x102 [9, 3, 3], (fw 0x102 [9, 3, 3]).setReg (slcReg 9 1 (Off.LNK_CTRL 3)) 1, by decide +kernel⟩
theorem witness_TopologyAndFanfareCommands_7 : ∃ (r : Running) (s : State),
    runsCmd s 0x103 r ∧ queueFull s = false ∧ s.jobs = [] ∧ (argN r.args 2).bit 0 = true ∧ (pendBits s (tileOf (argN r.args 1))).testBit 16 = false ∧ keepsKeeper s (tileOf (argN r.args 1)) = false ∧ tileState s (tileOf (argN r.args 1)) ≠ 3 ∧ outNow s (tileOf (argN r.args 1)) = false ∧ ((argN r.args 2).bit 1 = true ∨ isolatedBy (takeOut (noteClamps s (tileClamps (argN r.args 1))) (tileOf (argN r.args 1)) false) (wantedMap (takeOut (noteClamps s (tileClamps (argN r.args 1))) (tileOf (argN r.args 1)) false)) = 0) :=
  ⟨rn 0x103 [9, 3], (fw 0x103 [9, 3]), by decide +kernel⟩
theorem witness_TopologyAndFanfareCommands_7_b : ∃ (r : Running) (s : State),
    runsCmd s 0x103 r ∧ queueFull s = false ∧ s.jobs = [] ∧ (argN r.args 2).bit 0 = true ∧ (pendBits s (tileOf (argN r.args 1))).testBit 16 = false ∧ keepsKeeper s (tileOf (argN r.args 1)) = false ∧ tileState s (tileOf (argN r.args 1)) ≠ 3 ∧ outNow s (tileOf (argN r.args 1)) = false ∧ ((argN r.args 2).bit 1 = true ∨ isolatedBy (takeOut (noteClamps s (tileClamps (argN r.args 1))) (tileOf (argN r.args 1)) false) (wantedMap (takeOut (noteClamps s (tileClamps (argN r.args 1))) (tileOf (argN r.args 1)) false)) = 0) :=
  ⟨rn 0x103 [9, 1], { fw 0x103 [9, 1] with pendMap := (List.range 64).map (fun v => (v, if v ∈ [9, 10] then 0 else 65536)) }, by decide +kernel⟩
theorem witness_TopologyAndFanfareCommands_8 : ∃ (r : Running) (s : State),
    runsCmd s 0x103 r ∧ queueFull s = false ∧ s.jobs = [] ∧ (argN r.args 2).bit 0 = false ∧ isOutNow s (tileOf (argN r.args 1)) = true ∧ tileDark s (tileOf (argN r.args 1)) = false ∧ sliceState s (tileOf (argN r.args 1)) 0 = 2 ∧ sliceState s (tileOf (argN r.args 1)) 1 = 2 ∧ ((argN r.args 2).bit 1 = true ∨ isolatedBy (backAgain (noteClamps s (tileClamps (argN r.args 1))) (tileOf (argN r.args 1))) (wantedMap (backAgain (noteClamps s (tileClamps (argN r.args 1))) (tileOf (argN r.args 1)))) = 0) :=
  ⟨rn 0x103 [9, 2], { ((fw 0x103 [9, 2]).setReg (slcReg 9 0 Off.SLC_STAT) 2).setReg (slcReg 9 1 Off.SLC_STAT) 2 with pendMap := [(9, 2 ^ 16)] }, by decide +kernel⟩
theorem witness_TopologyAndFanfareCommands_8_b : ∃ (r : Running) (s : State),
    runsCmd s 0x103 r ∧ queueFull s = false ∧ s.jobs = [] ∧ (argN r.args 2).bit 0 = false ∧ isOutNow s (tileOf (argN r.args 1)) = true ∧ tileDark s (tileOf (argN r.args 1)) = false ∧ sliceState s (tileOf (argN r.args 1)) 0 = 2 ∧ sliceState s (tileOf (argN r.args 1)) 1 = 2 ∧ ((argN r.args 2).bit 1 = true ∨ isolatedBy (backAgain (noteClamps s (tileClamps (argN r.args 1))) (tileOf (argN r.args 1))) (wantedMap (backAgain (noteClamps s (tileClamps (argN r.args 1))) (tileOf (argN r.args 1)))) = 0) :=
  ⟨rn 0x103 [9, 0], { ((fw 0x103 [9, 0]).setReg (slcReg 9 0 Off.SLC_STAT) 2).setReg (slcReg 9 1 Off.SLC_STAT) 2 with pendMap := (List.range 64).map (fun v => (v, if v ∈ [10] then 0 else 65536)) }, by decide +kernel⟩
theorem witness_TopologyAndFanfareCommands_9 : ∃ (n : Nat) (r : Running) (s : State),
    runsCmd s 0x104 r ∧ nodeArg s (argN r.args 1) = some n ∧ tileDark s (n / 7) = false ∧ (argN r.args 2).bit 0 = true ∧ niEn s n = false ∧ (s.ni n).draining = false :=
  ⟨3, rn 0x104 [3, 41], fw 0x104 [3, 41], by decide +kernel⟩
theorem witness_TopologyAndFanfareCommands_10 : ∃ (es : List FEnt) (r : Running) (s : State),
    runsCmd s 0x601 r ∧ slotState s (slotArg (argN r.args 1)) = 0 ∧ regBit s (fnfReg Off.FNF_CTRL) 0 = true ∧ 1 ≤ (argN r.args 3).toNat ∧ (argN r.args 3).toNat ≤ 4096 ∧ (checkPass s (argN r.args 3).toNat 0 (argN r.args 2).toNat []).1.toOption = some es ∧ listAwake s (argN r.args 2).toNat (argN r.args 3).toNat = true ∧ s.stageQ = [] ∧ s.route = none ∧ (∀ e ∈ es, placesHeld s e.ni = 0) :=
  ⟨[{ addr := 0x100000005, data := [7], ni := 5, at_ := some 0x200000 }], rn 0x601 [2, 0x200000, 1, 5, 6, 7], ((((fw 0x601 [2, 0x200000, 1, 5, 6, 7]).setReg (fnfReg Off.FNF_CTRL) 1).setWord 0x200000 0x100000005).setWord 0x200002 7), by decide +kernel⟩
theorem witness_TopologyAndFanfareCommands_11 : ∃ (es : List FEnt) (r : Running) (s : State),
    runsCmd s 0x602 r ∧ slotState s (slotArg (argN r.args 1)) = 0 ∧ regBit s (fnfReg Off.FNF_CTRL) 0 = true ∧ 1 ≤ (argN r.args 3).toNat ∧ (argN r.args 3).toNat ≤ 4096 ∧ (checkPass s (argN r.args 3).toNat 0 (argN r.args 2).toNat []).1.toOption = some es ∧ listAwake s (argN r.args 2).toNat (argN r.args 3).toNat = true ∧ s.stageQ = [] ∧ s.route = none ∧ (∀ e ∈ es, placesHeld s e.ni = 0) :=
  ⟨[{ addr := 0x100000005, data := [7], ni := 5, at_ := some 0x200000 }], rn 0x602 [2, 0x200000, 1, 5, 6, 7], ((((fw 0x602 [2, 0x200000, 1, 5, 6, 7]).setReg (fnfReg Off.FNF_CTRL) 1).setWord 0x200000 0x100000005).setWord 0x200002 7), by decide +kernel⟩
theorem witness_TopologyAndFanfareCommands_12 : ∃ (es : List FEnt) (r : Running) (s : State),
    runsCmd s 0x603 r ∧ slotState s (slotArg (argN r.args 1)) = 0 ∧ regBit s (fnfReg Off.FNF_CTRL) 0 = true ∧ 1 ≤ (argN r.args 3).toNat ∧ (argN r.args 3).toNat ≤ 4096 ∧ (checkPass s (argN r.args 3).toNat 0 (argN r.args 2).toNat []).1.toOption = some es ∧ listAwake s (argN r.args 2).toNat (argN r.args 3).toNat = true ∧ s.stageQ = [] ∧ s.route = none ∧ (∀ e ∈ es, placesHeld s e.ni = 0) :=
  ⟨[{ addr := 0x100000005, data := [7], ni := 5, at_ := some 0x200000 }], rn 0x603 [2, 0x200000, 1, 5, 6, 7, 0x200100, 2, 9], ((((fw 0x603 [2, 0x200000, 1, 5, 6, 7, 0x200100, 2, 9]).setReg (fnfReg Off.FNF_CTRL) 1).setWord 0x200000 0x100000005).setWord 0x200002 7), by decide +kernel⟩
theorem witness_TopologyAndFanfareCommands_13 : ∃ (r : Running) (s : State),
    runsCmd s 0x601 r ∧ ((slotState s (slotArg (argN r.args 1)) ≠ 0 ∨ regBit s (fnfReg Off.FNF_CTRL) 0 = false)) :=
  ⟨rn 0x601 [2, 0x200000], (fw 0x601 [2, 0x200000]).setReg (fnfReg Off.FNF_CTRL) 0, by decide +kernel⟩
theorem witness_TopologyAndFanfareCommands_14 : ∃ (l : Launch) (r : Running) (s : State),
    runsCmd s 0x604 r ∧ slotState s (slotArg (argN r.args 1)) = 5 ∧ findLaunch s (slotFid s (slotArg (argN r.args 1))) = some l ∧ l.edge = none :=
  ⟨{ fid := 2, lt := 1000, lt0 := 1000, aseq := 7, nis := [5] }, rn 0x604 [2], { (fw 0x604 [2]).setReg (slotReg 2 Off.FNF_STAT) 0x25 with launches := [{ fid := 2, lt := 1000, lt0 := 1000, aseq := 7, nis := [5] }] }, by decide +kernel⟩
theorem witness_TopologyAndFanfareCommands_15 : ∃ (r : Running) (s : State),
    runsCmd s 0x604 r ∧ slotState s (slotArg (argN r.args 1)) ≠ 5 :=
  ⟨rn 0x604 [2], (fw 0x604 [2]), by decide +kernel⟩
theorem witness_TopologyAndFanfareCommands_16 : ∃ (r : Running) (s : State),
    runsCmd s 0x605 r ∧ r.begun = false ∧ ((slotState s (slotArg (argN r.args 1)) = 1 ∨ slotState s (slotArg (argN r.args 1)) = 3)) ∧ s.stageQ.filter (fun j => decide (j ≠ (slotArg (argN r.args 1)))) = [] :=
  ⟨rn 0x605 [2], ({ fw 0x605 [2] with stageQ := [2] }.setReg (slotReg 2 Off.FNF_STAT) 0x21).setSlot 2 { ents := [{ addr := 0x100000005, data := [7], ni := 5 }] }, by decide +kernel⟩
theorem witness_TopologyAndFanfareCommands_17 : ∃ (l : Launch) (r : Running) (s : State),
    runsCmd s 0x605 r ∧ r.begun = false ∧ slotState s (slotArg (argN r.args 1)) = 4 ∧ findLaunch s (slotFid s (slotArg (argN r.args 1))) = some l ∧ ftNow s + 64 * 500 < l.lt :=
  ⟨{ fid := 2, lt := 100000000, lt0 := 100000000, aseq := 7, nis := [5] }, rn 0x605 [2], { (fw 0x605 [2]).setReg (slotReg 2 Off.FNF_STAT) 0x24 with launches := [{ fid := 2, lt := 100000000, lt0 := 100000000, aseq := 7, nis := [5] }] }, by decide +kernel⟩
theorem witness_TopologyAndFanfareCommands_18 : ∃ (r : Running) (s : State),
    runsCmd s 0x605 r ∧ r.begun = true ∧ slotState s (slotArg (argN r.args 1)) ≠ 4 :=
  ⟨{ rn 0x605 [2] with begun := true }, { fw0.setReg (slotReg 2 Off.FNF_STAT) 0x27 with running := some { rn 0x605 [2] with begun := true } }, by decide +kernel⟩
theorem witness_TopologyAndFanfareCommands_19 : ∃ (r : Running) (s : State),
    runsCmd s 0x101 r ∧ queueFull s = false ∧ (argN r.args 2).bit 1 = true ∧ (argN r.args 2).bit 2 = false ∧ sliceState s (tileOf (argN r.args 1)) ((argN r.args 2).fld 0 1) = 0 ∧ fenceJobFor s (tileOf (argN r.args 1)) ((argN r.args 2).fld 0 1) = false ∧ (s.ta (tileOf (argN r.args 1))).turn = none ∧ (sliceState s (tileOf (argN r.args 1)) (1 - ((argN r.args 2).fld 0 1)) = 2 ∨ sliceState s (tileOf (argN r.args 1)) (1 - ((argN r.args 2).fld 0 1)) = 4) :=
  ⟨rn 0x101 [9, 2], (fw 0x101 [9, 2]).setReg (slcReg 9 1 Off.SLC_STAT) 2, by decide +kernel⟩
theorem witness_TopologyAndFanfareCommands_20 : ∃ (r : Running) (s : State),
    runsCmd s 0x101 r ∧ queueFull s = false ∧ s.jobs = [] ∧ (argN r.args 2).bit 1 = true ∧ (argN r.args 2).bit 2 = false ∧ sliceState s (tileOf (argN r.args 1)) ((argN r.args 2).fld 0 1) = 0 ∧ sliceState s (tileOf (argN r.args 1)) (1 - ((argN r.args 2).fld 0 1)) = 0 ∧ (s.ta (tileOf (argN r.args 1))).turn = none ∧ isolatedBy (addJob (noteClamps s (tileClamps (argN r.args 1))) { kind := .fence, t := (tileOf (argN r.args 1)), a := ((argN r.args 2).fld 0 1) }) (wantedMap (addJob (noteClamps s (tileClamps (argN r.args 1))) { kind := .fence, t := (tileOf (argN r.args 1)), a := ((argN r.args 2).fld 0 1) })) ≠ 0 :=
  ⟨rn 0x101 [9, 2], { fw 0x101 [9, 2] with pendMap := (List.range 64).map (fun v => (v, if v ∈ [9, 27] then 0 else 65536)) }, by decide +kernel⟩
theorem witness_TopologyAndFanfareCommands_21 : ∃ (r : Running) (s : State),
    runsCmd s 0x102 r ∧ queueFull s = false ∧ isLink (tileOf (argN r.args 1)) ((argN r.args 2).fld 0 4) = true ∧ (argN r.args 3).bit 2 = true ∧ (argN r.args 3).bit 3 = false ∧ ((linkHalfArg (argN r.args 3)).testBit 0 || halfDown s (tileOf (argN r.args 1)) ((argN r.args 2).fld 0 4) 0) = true ∧ ((linkHalfArg (argN r.args 3)).testBit 1 || halfDown s (tileOf (argN r.args 1)) ((argN r.args 2).fld 0 4) 1) = true ∧ (pendBits s (tileOf (argN r.args 1))).testBit ((argN r.args 2).fld 0 4) = false ∧ isolatedBy (cutLink (noteClamps s (tileClamps (argN r.args 1) + b2n (decide ((argN r.args 3).fld 0 2 = 0)))) (tileOf (argN r.args 1)) ((argN r.args 2).fld 0 4) (linkHalfArg (argN r.args 3))) (wantedMap (cutLink (noteClamps s (tileClamps (argN r.args 1) + b2n (decide ((argN r.args 3).fld 0 2 = 0)))) (tileOf (argN r.args 1)) ((argN r.args 2).fld 0 4) (linkHalfArg (argN r.args 3)))) ≠ 0 :=
  ⟨rn 0x102 [9, 2, 7], { fw 0x102 [9, 2, 7] with pendMap := (List.range 64).map (fun v => (v, if v ∈ [9, 10] then 0 else 65536)) }, by decide +kernel⟩
theorem witness_TopologyAndFanfareCommands_22 : ∃ (r : Running) (s : State),
    runsCmd s 0x103 r ∧ queueFull s = false ∧ (argN r.args 2).bit 0 = true ∧ (argN r.args 2).bit 1 = false ∧ (pendBits s (tileOf (argN r.args 1))).testBit 16 = false ∧ keepsKeeper s (tileOf (argN r.args 1)) = false ∧ isolatedBy (takeOut (noteClamps s (tileClamps (argN r.args 1))) (tileOf (argN r.args 1)) false) (wantedMap (takeOut (noteClamps s (tileClamps (argN r.args 1))) (tileOf (argN r.args 1)) false)) ≠ 0 :=
  ⟨rn 0x103 [10, 1], { fw 0x103 [10, 1] with pendMap := (List.range 64).map (fun v => (v, if v ∈ [9, 10, 18] then 0 else 65536)) }, by decide +kernel⟩
theorem witness_TopologyAndFanfareCommands_23 : ∃ (r : Running) (s : State),
    runsCmd s 0x103 r ∧ queueFull s = false ∧ (argN r.args 2).bit 0 = true ∧ (pendBits s (tileOf (argN r.args 1))).testBit 16 = false ∧ ((tileOf (argN r.args 1)) = 0 ∨ (tileOf (argN r.args 1)) = 63) ∧ (tileOf (argN r.args 1)) = 63 * activeTk s ∧ regBit s (tkReg Off.TK_STAT) 1 = false :=
  ⟨rn 0x103 [0, 1], fw 0x103 [0, 1], by decide +kernel⟩
theorem witness_TopologyAndFanfareCommands_24 : ∃ (r : Running) (s : State),
    runsCmd s 0x103 r ∧ queueFull s = false ∧ (argN r.args 2).bit 0 = false ∧ (argN r.args 2).bit 1 = false ∧ isOutNow s (tileOf (argN r.args 1)) = true ∧ jobAt s (tileOf (argN r.args 1)) (fun k => decide (k = .restore)) = false ∧ isolatedBy (backAgain (noteClamps s (tileClamps (argN r.args 1))) (tileOf (argN r.args 1))) (wantedMap (backAgain (noteClamps s (tileClamps (argN r.args 1))) (tileOf (argN r.args 1)))) ≠ 0 :=
  ⟨rn 0x103 [9, 0], { ((fw 0x103 [9, 0]).setReg (slcReg 9 0 Off.SLC_STAT) 2).setReg (slcReg 9 1 Off.SLC_STAT) 2 with pendMap := (List.range 64).map (fun v => (v, if v ∈ [27] then 0 else 65536)) }, by decide +kernel⟩
theorem witness_TopologyAndFanfareCommands_25 : ∃ (r : Running) (c : Instr) (s : State),
    (runsCmd s 0x101 r ∧ (c = .fenceSlice) ∨ runsCmd s 0x102 r ∧ c = .fenceLink ∧ isLink (tileOf (argN r.args 1)) ((argN r.args 2).fld 0 4) = true ∨ runsCmd s 0x103 r ∧ c = .tileService) ∧ queueFull s = true :=
  ⟨rn 0x102 [9, 2, 7], .fenceLink, { fw 0x102 [9, 2, 7] with tickets := List.replicate 32 { num := 1 } }, by decide +kernel⟩
theorem witness_TopologyAndFanfareCommands_26 : ∃ (n : Nat) (r : Running) (s : State),
    runsCmd s 0x104 r ∧ nodeArg s (argN r.args 1) = some n ∧ tileDark s (n / 7) = false ∧ (argN r.args 2).bit 0 = false ∧ niEn s n = true ∧ (s.ni n).eject.filter (fun p => isUnitKind p && !p.killed) = [] :=
  ⟨3, rn 0x104 [3, 40], (fw 0x104 [3, 40]).setReg (niReg 3 Off.NI_CTRL) 1, by decide +kernel⟩
theorem witness_PowerTestAndUpdateCommands_1_a : ∃ (u : Nat) (v : Nat) (r : Running) (s : State),
    runsCmd s 0x701 r ∧ tileOf (argN r.args 1) = u ∧ stateArg (argN r.args 2) = v ∧ (v = 1 ∨ v = 3 ∨ v = 0 ∧ taGear s u = false) ∧ tileState s u = 0 ∧ taVtrans s u = false ∧ (s.ta u).nar = none ∧ (s.ta u).entering = none ∧ (s.ta u).slimDue = none ∧ (pendBits s u).testBit 16 = false :=
  ⟨9, 0, rn 0x701 [natW 9, 0], fw 0x701 [natW 9, 0], by decide +kernel⟩
theorem witness_PowerTestAndUpdateCommands_1_b : ∃ (u : Nat) (v : Nat) (r : Running) (s : State),
    runsCmd s 0x701 r ∧ tileOf (argN r.args 1) = u ∧ stateArg (argN r.args 2) = v ∧ (v = 1 ∨ v = 3 ∨ v = 0 ∧ taGear s u = false) ∧ tileState s u = 0 ∧ taVtrans s u = false ∧ (s.ta u).nar = none ∧ (s.ta u).entering = none ∧ (s.ta u).slimDue = none ∧ (pendBits s u).testBit 16 = false :=
  ⟨9, 1, rn 0x701 [natW 9, 1], fw 0x701 [natW 9, 1], by decide +kernel⟩
theorem witness_PowerTestAndUpdateCommands_1_c : ∃ (u : Nat) (v : Nat) (r : Running) (s : State),
    runsCmd s 0x701 r ∧ tileOf (argN r.args 1) = u ∧ stateArg (argN r.args 2) = v ∧ (v = 1 ∨ v = 3 ∨ v = 0 ∧ taGear s u = false) ∧ tileState s u = 0 ∧ taVtrans s u = false ∧ (s.ta u).nar = none ∧ (s.ta u).entering = none ∧ (s.ta u).slimDue = none ∧ (pendBits s u).testBit 16 = false :=
  ⟨9, 3, rn 0x701 [natW 9, 3], fw 0x701 [natW 9, 3], by decide +kernel⟩
theorem witness_PowerTestAndUpdateCommands_2 : ∃ (u : Nat) (r : Running) (s : State),
    runsCmd s 0x701 r ∧ tileOf (argN r.args 1) = u ∧ stateArg (argN r.args 2) = 2 ∧ tileState s u = 0 ∧ taVtrans s u = false ∧ sliceIn s u 0 = true ∧ sliceIn s u 1 = true ∧ refuser s u .slim false = none ∧ r.begun = false ∧ sc5Tile s u = false ∧ s.jobs = [] ∧ instHalf s u = false :=
  ⟨9, rn 0x701 [natW 9, 2], ((fw 0x701 [natW 9, 2]).setReg (pwrReg Off.PWR_SC5_TILES_LO) 0).setReg (pwrReg Off.PWR_SC5_TILES_HI) 0, by decide +kernel⟩
theorem witness_PowerTestAndUpdateCommands_3_a : ∃ (u : Nat) (v : Nat) (k : Nat) (w : Nat) (r : Running) (s : State),
    runsCmd s 0x701 r ∧ tileOf (argN r.args 1) = u ∧ stateArg (argN r.args 2) = v ∧ (v = 2 ∧ w = 2 ∧ sliceIn s u 0 = true ∧ sliceIn s u 1 = true ∧ ((s.ta u).turn.isSome || (s.ta u).nar.isNone && (s.ta u).wide.isNone) = true ∧ refuser s u .slim false = some k ∨ v = 4 ∧ w = 4 ∧ queueFull s = false ∧ offRefuser s u = some k) ∧ tileState s u ≠ 3 ∧ taVtrans s u = false :=
  ⟨9, 2, 3, 2, rn 0x701 [natW 9, 2], (fw 0x701 [natW 9, 2]).setReg (taReg 9 Off.PWR_TILE_CLAIM) (W.at 0 23 5 ||| W.at 23 1 1), by decide +kernel⟩
theorem witness_PowerTestAndUpdateCommands_3_b : ∃ (u : Nat) (v : Nat) (k : Nat) (w : Nat) (r : Running) (s : State),
    runsCmd s 0x701 r ∧ tileOf (argN r.args 1) = u ∧ stateArg (argN r.args 2) = v ∧ (v = 2 ∧ w = 2 ∧ sliceIn s u 0 = true ∧ sliceIn s u 1 = true ∧ ((s.ta u).turn.isSome || (s.ta u).nar.isNone && (s.ta u).wide.isNone) = true ∧ refuser s u .slim false = some k ∨ v = 4 ∧ w = 4 ∧ queueFull s = false ∧ offRefuser s u = some k) ∧ tileState s u ≠ 3 ∧ taVtrans s u = false :=
  ⟨9, 4, 3, 4, rn 0x701 [natW 9, 7], (fw 0x701 [natW 9, 7]).setReg (taReg 9 Off.PWR_TILE_CLAIM) (W.at 0 23 5 ||| W.at 23 1 1), by decide +kernel⟩
theorem witness_PowerTestAndUpdateCommands_4_a : ∃ (u : Nat) (r : Running) (s : State),
    runsCmd s 0x701 r ∧ tileOf (argN r.args 1) = u ∧ stateArg (argN r.args 2) = 4 ∧ taVtrans s u = false ∧ ((queueFull s = true ∨ tileState s u = 3 ∧ s.jobs = [])) :=
  ⟨9, rn 0x701 [natW 9, 4], setFld (fw 0x701 [natW 9, 4]) (taReg 9 Off.PWR_TA_STAT) 0 3 3, by decide +kernel⟩
theorem witness_PowerTestAndUpdateCommands_4_b : ∃ (u : Nat) (r : Running) (s : State),
    runsCmd s 0x701 r ∧ tileOf (argN r.args 1) = u ∧ stateArg (argN r.args 2) = 4 ∧ taVtrans s u = false ∧ ((queueFull s = true ∨ tileState s u = 3 ∧ s.jobs = [])) :=
  ⟨9, rn 0x701 [natW 9, 4], { fw 0x701 [natW 9, 4] with tickets := List.replicate 32 { num := 1 } }, by decide +kernel⟩
theorem witness_PowerTestAndUpdateCommands_5 : ∃ (u : Nat) (r : Running) (s : State),
    runsCmd s 0x701 r ∧ tileOf (argN r.args 1) = u ∧ stateArg (argN r.args 2) = 4 ∧ tileState s u = 0 ∧ taVtrans s u = false ∧ queueFull s = false ∧ offRefuser s u = none ∧ s.jobs = [] ∧ outNow s u = false ∧ isolatedBy (takeOut (noteClamps s (tileClamps (argN r.args 1) + clamped 0 4 (argN r.args 2))) u true) (wantedMap (takeOut (noteClamps s (tileClamps (argN r.args 1) + clamped 0 4 (argN r.args 2))) u true)) = 0 :=
  ⟨9, rn 0x701 [natW 9, 4], { (fw 0x701 [natW 9, 4]) with pendMap := (List.range 64).map (fun v => (v, 65536)) }, by decide +kernel⟩
theorem witness_PowerTestAndUpdateCommands_6_a : ∃ (op : Nat) (r : Running) (s : State) (c : Instr),
    (op = 0x701 ∧ c = .pwrTileSet ∨ op = 0x702 ∧ c = .tileClaim) ∧ runsCmd s op r ∧ taVtrans s (tileOf (argN r.args 1)) = true :=
  ⟨0x701, rn 0x701 [natW 9, 4], setFld (fw 0x701 [natW 9, 4]) (taReg 9 Off.PWR_TA_STAT) 4 1 1, .pwrTileSet, by decide +kernel⟩
theorem witness_PowerTestAndUpdateCommands_6_b : ∃ (op : Nat) (r : Running) (s : State) (c : Instr),
    (op = 0x701 ∧ c = .pwrTileSet ∨ op = 0x702 ∧ c = .tileClaim) ∧ runsCmd s op r ∧ taVtrans s (tileOf (argN r.args 1)) = true :=
  ⟨0x702, rn 0x702 [natW 9, 4], setFld (fw 0x702 [natW 9, 4]) (taReg 9 Off.PWR_TA_STAT) 4 1 1, .tileClaim, by decide +kernel⟩
theorem witness_PowerTestAndUpdateCommands_7_a : ∃ (u : Nat) (owner : Nat) (valid : Bool) (r : Running) (s : State),
    runsCmd s 0x702 r ∧ tileOf (argN r.args 1) = u ∧ (argN r.args 2).fld 0 23 = owner ∧ (argN r.args 2).bit 23 = valid ∧ (valid = true ∧ taClaimed s u = false ∧ taGear s u = false ∨ valid = false ∧ taClaimed s u = true ∧ getFld s (taReg u Off.PWR_TILE_CLAIM) 0 23 = owner) ∧ tileState s u = 0 ∧ taVtrans s u = false ∧ (s.ta u).nar = none ∧ (s.ta u).entering = none ∧ (s.ta u).slimDue = none :=
  ⟨9, 5, true, rn 0x702 [natW 9, W.at 0 23 5 ||| W.at 23 1 1], fw 0x702 [natW 9, W.at 0 23 5 ||| W.at 23 1 1], by decide +kernel⟩
theorem witness_PowerTestAndUpdateCommands_7_b : ∃ (u : Nat) (owner : Nat) (valid : Bool) (r : Running) (s : State),
    runsCmd s 0x702 r ∧ tileOf (argN r.args 1) = u ∧ (argN r.args 2).fld 0 23 = owner ∧ (argN r.args 2).bit 23 = valid ∧ (valid = true ∧ taClaimed s u = false ∧ taGear s u = false ∨ valid = false ∧ taClaimed s u = true ∧ getFld s (taReg u Off.PWR_TILE_CLAIM) 0 23 = owner) ∧ tileState s u = 0 ∧ taVtrans s u = false ∧ (s.ta u).nar = none ∧ (s.ta u).entering = none ∧ (s.ta u).slimDue = none :=
  ⟨9, 5, false, rn 0x702 [natW 9, 5], (fw 0x702 [natW 9, 5]).setReg (taReg 9 Off.PWR_TILE_CLAIM) (W.at 0 23 5 ||| W.at 23 1 1), by decide +kernel⟩
theorem witness_PowerTestAndUpdateCommands_8_a : ∃ (u : Nat) (code : Nat) (r : Running) (s : State),
    runsCmd s 0x702 r ∧ tileOf (argN r.args 1) = u ∧ ((code = 0x13 ∧ (argN r.args 2).bit 23 = true ∧ taClaimed s u = true ∧ getFld s (taReg u Off.PWR_TILE_CLAIM) 0 23 ≠ (argN r.args 2).fld 0 23 ∨ code = 0x11 ∧ (argN r.args 2).bit 23 = false ∧ (taClaimed s u = false ∨ getFld s (taReg u Off.PWR_TILE_CLAIM) 0 23 ≠ (argN r.args 2).fld 0 23))) ∧ tileState s u ≠ 3 ∧ taVtrans s u = false :=
  ⟨9, 0x13, rn 0x702 [natW 9, W.at 0 23 5 ||| W.at 23 1 1], (fw 0x702 [natW 9, W.at 0 23 5 ||| W.at 23 1 1]).setReg (taReg 9 Off.PWR_TILE_CLAIM) (W.at 0 23 6 ||| W.at 23 1 1), by decide +kernel⟩
theorem witness_PowerTestAndUpdateCommands_8_b : ∃ (u : Nat) (code : Nat) (r : Running) (s : State),
    runsCmd s 0x702 r ∧ tileOf (argN r.args 1) = u ∧ ((code = 0x13 ∧ (argN r.args 2).bit 23 = true ∧ taClaimed s u = true ∧ getFld s (taReg u Off.PWR_TILE_CLAIM) 0 23 ≠ (argN r.args 2).fld 0 23 ∨ code = 0x11 ∧ (argN r.args 2).bit 23 = false ∧ (taClaimed s u = false ∨ getFld s (taReg u Off.PWR_TILE_CLAIM) 0 23 ≠ (argN r.args 2).fld 0 23))) ∧ tileState s u ≠ 3 ∧ taVtrans s u = false :=
  ⟨9, 0x11, rn 0x702 [natW 9, 5], fw 0x702 [natW 9, 5], by decide +kernel⟩
theorem witness_PowerTestAndUpdateCommands_8_c : ∃ (u : Nat) (code : Nat) (r : Running) (s : State),
    runsCmd s 0x702 r ∧ tileOf (argN r.args 1) = u ∧ ((code = 0x13 ∧ (argN r.args 2).bit 23 = true ∧ taClaimed s u = true ∧ getFld s (taReg u Off.PWR_TILE_CLAIM) 0 23 ≠ (argN r.args 2).fld 0 23 ∨ code = 0x11 ∧ (argN r.args 2).bit 23 = false ∧ (taClaimed s u = false ∨ getFld s (taReg u Off.PWR_TILE_CLAIM) 0 23 ≠ (argN r.args 2).fld 0 23))) ∧ tileState s u ≠ 3 ∧ taVtrans s u = false :=
  ⟨9, 0x11, rn 0x702 [natW 9, 5], (fw 0x702 [natW 9, 5]).setReg (taReg 9 Off.PWR_TILE_CLAIM) (W.at 0 23 6 ||| W.at 23 1 1), by decide +kernel⟩
theorem witness_PowerTestAndUpdateCommands_9 : ∃ (r : Running) (s : State),
    runsCmd s 0x703 r ∧ retainRefuser s = none :=
  ⟨rn 0x703 [2], { forEach (fun n st => (st.setNi n { drained := true }).setReg (niReg n Off.NI_CTRL) 0) [55, 398] (fw 0x703 [2]) with fusesSensed := 0 }, by decide +kernel⟩
theorem witness_PowerTestAndUpdateCommands_10_a : ∃ (u : Nat) (k : Nat) (r : Running) (s : State),
    runsCmd s 0x703 r ∧ u < 64 ∧ tileState s u ≠ 3 ∧ refuser s u .off true = some k ∧ ((∀ v < u, tileState s v = 3 ∨ refuser s v .off true = none)) :=
  ⟨9, 3, rn 0x703 [2], { forEach (fun n st => (st.setNi n { drained := true }).setReg (niReg n Off.NI_CTRL) 0) [55, 398] ((fw 0x703 [2]).setReg (taReg 9 Off.PWR_TILE_CLAIM) (W.at 0 23 5 ||| W.at 23 1 1)) with fusesSensed := 0 }, by decide +kernel⟩
theorem witness_PowerTestAndUpdateCommands_10_b : ∃ (u : Nat) (k : Nat) (r : Running) (s : State),
    runsCmd s 0x703 r ∧ u < 64 ∧ tileState s u ≠ 3 ∧ refuser s u .off true = some k ∧ ((∀ v < u, tileState s v = 3 ∨ refuser s v .off true = none)) :=
  ⟨0, 2, rn 0x703 [2], fw 0x703 [2], by decide +kernel⟩
theorem witness_PowerTestAndUpdateCommands_11_a : ∃ (u : Nat) (r : Running) (s : State),
    runsCmd s 0x802 r ∧ tileOf (argN r.args 1) = u :=
  ⟨9, rn 0x802 [natW 9, 9], fw 0x802 [natW 9, 9], by decide +kernel⟩
theorem witness_PowerTestAndUpdateCommands_11_b : ∃ (u : Nat) (r : Running) (s : State),
    runsCmd s 0x802 r ∧ tileOf (argN r.args 1) = u :=
  ⟨9, rn 0x802 [natW 9, 3], (fw 0x802 [natW 9, 3]).setTa 9 { turn := some { unit := 1, part := 3, phase := .testing } }, by decide +kernel⟩
theorem witness_PowerTestAndUpdateCommands_12_a : ∃ (b : Nat) (r : Running) (s : State),
    runsCmd s 0x901 r ∧ (argN r.args 1).fld 0 1 = b ∧ bootSel s = false ∧ (r.begun && s.imgCheck.isSome) = false :=
  ⟨0, rn 0x901 [0], ((fw 0x901 [0]).setReg (mtxReg Off.MTX_REMAP) 0).setReg (opcReg Off.OPC_FW_STAT) (W.at 24 2 1), by decide +kernel⟩
theorem witness_PowerTestAndUpdateCommands_12_b : ∃ (b : Nat) (r : Running) (s : State),
    runsCmd s 0x901 r ∧ (argN r.args 1).fld 0 1 = b ∧ bootSel s = false ∧ (r.begun && s.imgCheck.isSome) = false :=
  ⟨1, rn 0x901 [1], ((fw 0x901 [1]).setReg (mtxReg Off.MTX_REMAP) 0).setReg (opcReg Off.OPC_FW_STAT) (W.at 24 2 1), by decide +kernel⟩
theorem witness_PowerTestAndUpdateCommands_13_a : ∃ (b : Nat) (why : Nat) (r : Running) (s : State),
    runsCmd s 0x901 r ∧ (argN r.args 1).fld 0 1 = b ∧ bootSel s = true ∧ ((why = 6 ∧ b = activeBank s ∨ why = 2 ∧ b ≠ activeBank s ∧ (s.imgCheck ≠ none ∨ s.imgReady ≠ none ∨ pendingImg s = true) ∨ why = 5 ∧ b ≠ activeBank s ∧ s.imgCheck = none ∧ s.imgReady = none ∧ pendingImg s = false ∧ stbyCore s = false)) :=
  ⟨0, 6, rn 0x901 [0], fw 0x901 [0], by decide +kernel⟩
theorem witness_PowerTestAndUpdateCommands_13_b : ∃ (b : Nat) (why : Nat) (r : Running) (s : State),
    runsCmd s 0x901 r ∧ (argN r.args 1).fld 0 1 = b ∧ bootSel s = true ∧ ((why = 6 ∧ b = activeBank s ∨ why = 2 ∧ b ≠ activeBank s ∧ (s.imgCheck ≠ none ∨ s.imgReady ≠ none ∨ pendingImg s = true) ∨ why = 5 ∧ b ≠ activeBank s ∧ s.imgCheck = none ∧ s.imgReady = none ∧ pendingImg s = false ∧ stbyCore s = false)) :=
  ⟨1, 2, rn 0x901 [1], { fw 0x901 [1] with imgCheck := some 1 }, by decide +kernel⟩
theorem witness_PowerTestAndUpdateCommands_13_c : ∃ (b : Nat) (why : Nat) (r : Running) (s : State),
    runsCmd s 0x901 r ∧ (argN r.args 1).fld 0 1 = b ∧ bootSel s = true ∧ ((why = 6 ∧ b = activeBank s ∨ why = 2 ∧ b ≠ activeBank s ∧ (s.imgCheck ≠ none ∨ s.imgReady ≠ none ∨ pendingImg s = true) ∨ why = 5 ∧ b ≠ activeBank s ∧ s.imgCheck = none ∧ s.imgReady = none ∧ pendingImg s = false ∧ stbyCore s = false)) :=
  ⟨1, 5, rn 0x901 [1], fw 0x901 [1], by decide +kernel⟩
theorem witness_PowerTestAndUpdateCommands_14_a : ∃ (b : Nat) (r : Running) (s : State),
    runsCmd s 0x901 r ∧ (argN r.args 1).fld 0 1 = b ∧ bootSel s = true ∧ b ≠ activeBank s ∧ s.imgCheck = none ∧ s.imgReady = none ∧ pendingImg s = false ∧ stbyCore s = true ∧ s.evq.length < 16 :=
  ⟨1, rn 0x901 [1], setFld (fw 0x901 [1]) (opcReg Off.OPC_FW_STAT) 27 1 1, by decide +kernel⟩
theorem witness_PowerTestAndUpdateCommands_14_b : ∃ (b : Nat) (r : Running) (s : State),
    runsCmd s 0x901 r ∧ (argN r.args 1).fld 0 1 = b ∧ bootSel s = true ∧ b ≠ activeBank s ∧ s.imgCheck = none ∧ s.imgReady = none ∧ pendingImg s = false ∧ stbyCore s = true ∧ s.evq.length < 16 :=
  ⟨1, rn 0x901 [1], setFld (((((fw 0x901 [1]).setWord (sramAddr 0x12100) 0x04F504331).setWord (sramAddr 0x12101) 3).setWord (sramAddr 0x12102) 5).setWord (sramAddr 0x12104) 1) (opcReg Off.OPC_FW_STAT) 27 1 1, by decide +kernel⟩
theorem witness_PowerTestAndUpdateCommands_15 : ∃ (r : Running) (s : State),
    runsCmd s 0x902 r ∧ regBit s (opcReg Off.OPC_IMG_BANK) 1 = true :=
  ⟨rn 0x902 [], (fw 0x902 []).setReg (opcReg Off.OPC_IMG_BANK) 3, by decide +kernel⟩
theorem witness_PowerTestAndUpdateCommands_16 : ∃ (r : Running) (s : State),
    runsCmd s 0x902 r ∧ regBit s (opcReg Off.OPC_IMG_BANK) 1 = false :=
  ⟨rn 0x902 [], fw 0x902 [], by decide +kernel⟩
theorem witness_TargetsClaimsAndProfile_1_a : ∃ (u : Fin 64) (v : W) (s : State) (c : Instr),
    (c = .targetRun u ∧ v = 0 ∨ c = .targetLowGear u ∧ v = 1 ∨ c = .targetSlim u 0 ∧ v = 2 ∨ c = .targetSlim u 1 ∧ v = 10 ∨ c = .targetDoze u ∧ v = 3 ∨ c = .targetOff u ∧ v = 4) ∧ fstate s ≠ 2 ∧ (taVtrans s u = true ∨ (v = 4 ∨ tileState s u = 3) ∧ braced s = true) :=
  ⟨9, 0, setFld up (taReg 9 Off.PWR_TA_STAT) 4 1 1, .targetRun 9, by decide +kernel⟩
theorem witness_TargetsClaimsAndProfile_1_b : ∃ (u : Fin 64) (v : W) (s : State) (c : Instr),
    (c = .targetRun u ∧ v = 0 ∨ c = .targetLowGear u ∧ v = 1 ∨ c = .targetSlim u 0 ∧ v = 2 ∨ c = .targetSlim u 1 ∧ v = 10 ∨ c = .targetDoze u ∧ v = 3 ∨ c = .targetOff u ∧ v = 4) ∧ fstate s ≠ 2 ∧ (taVtrans s u = true ∨ (v = 4 ∨ tileState s u = 3) ∧ braced s = true) :=
  ⟨9, 1, setFld up (taReg 9 Off.PWR_TA_STAT) 4 1 1, .targetLowGear 9, by decide +kernel⟩
theorem witness_TargetsClaimsAndProfile_1_c : ∃ (u : Fin 64) (v : W) (s : State) (c : Instr),
    (c = .targetRun u ∧ v = 0 ∨ c = .targetLowGear u ∧ v = 1 ∨ c = .targetSlim u 0 ∧ v = 2 ∨ c = .targetSlim u 1 ∧ v = 10 ∨ c = .targetDoze u ∧ v = 3 ∨ c = .targetOff u ∧ v = 4) ∧ fstate s ≠ 2 ∧ (taVtrans s u = true ∨ (v = 4 ∨ tileState s u = 3) ∧ braced s = true) :=
  ⟨9, 2, setFld up (taReg 9 Off.PWR_TA_STAT) 4 1 1, .targetSlim 9 0, by decide +kernel⟩
theorem witness_TargetsClaimsAndProfile_1_d : ∃ (u : Fin 64) (v : W) (s : State) (c : Instr),
    (c = .targetRun u ∧ v = 0 ∨ c = .targetLowGear u ∧ v = 1 ∨ c = .targetSlim u 0 ∧ v = 2 ∨ c = .targetSlim u 1 ∧ v = 10 ∨ c = .targetDoze u ∧ v = 3 ∨ c = .targetOff u ∧ v = 4) ∧ fstate s ≠ 2 ∧ (taVtrans s u = true ∨ (v = 4 ∨ tileState s u = 3) ∧ braced s = true) :=
  ⟨9, 10, setFld up (taReg 9 Off.PWR_TA_STAT) 4 1 1, .targetSlim 9 1, by decide +kernel⟩
theorem witness_TargetsClaimsAndProfile_1_e : ∃ (u : Fin 64) (v : W) (s : State) (c : Instr),
    (c = .targetRun u ∧ v = 0 ∨ c = .targetLowGear u ∧ v = 1 ∨ c = .targetSlim u 0 ∧ v = 2 ∨ c = .targetSlim u 1 ∧ v = 10 ∨ c = .targetDoze u ∧ v = 3 ∨ c = .targetOff u ∧ v = 4) ∧ fstate s ≠ 2 ∧ (taVtrans s u = true ∨ (v = 4 ∨ tileState s u = 3) ∧ braced s = true) :=
  ⟨9, 3, setFld up (taReg 9 Off.PWR_TA_STAT) 4 1 1, .targetDoze 9, by decide +kernel⟩
theorem witness_TargetsClaimsAndProfile_1_f : ∃ (u : Fin 64) (v : W) (s : State) (c : Instr),
    (c = .targetRun u ∧ v = 0 ∨ c = .targetLowGear u ∧ v = 1 ∨ c = .targetSlim u 0 ∧ v = 2 ∨ c = .targetSlim u 1 ∧ v = 10 ∨ c = .targetDoze u ∧ v = 3 ∨ c = .targetOff u ∧ v = 4) ∧ fstate s ≠ 2 ∧ (taVtrans s u = true ∨ (v = 4 ∨ tileState s u = 3) ∧ braced s = true) :=
  ⟨9, 4, setFld up (taReg 9 Off.PWR_TA_STAT) 4 1 1, .targetOff 9, by decide +kernel⟩
theorem witness_TargetsClaimsAndProfile_1_g : ∃ (u : Fin 64) (v : W) (s : State) (c : Instr),
    (c = .targetRun u ∧ v = 0 ∨ c = .targetLowGear u ∧ v = 1 ∨ c = .targetSlim u 0 ∧ v = 2 ∨ c = .targetSlim u 1 ∧ v = 10 ∨ c = .targetDoze u ∧ v = 3 ∨ c = .targetOff u ∧ v = 4) ∧ fstate s ≠ 2 ∧ (taVtrans s u = true ∨ (v = 4 ∨ tileState s u = 3) ∧ braced s = true) :=
  ⟨9, 4, setFld up (pwrReg Off.PWR_STAT) 2 1 1, .targetOff 9, by decide +kernel⟩
theorem witness_TargetsClaimsAndProfile_1_h : ∃ (u : Fin 64) (v : W) (s : State) (c : Instr),
    (c = .targetRun u ∧ v = 0 ∨ c = .targetLowGear u ∧ v = 1 ∨ c = .targetSlim u 0 ∧ v = 2 ∨ c = .targetSlim u 1 ∧ v = 10 ∨ c = .targetDoze u ∧ v = 3 ∨ c = .targetOff u ∧ v = 4) ∧ fstate s ≠ 2 ∧ (taVtrans s u = true ∨ (v = 4 ∨ tileState s u = 3) ∧ braced s = true) :=
  ⟨9, 10, setFld (setFld up (taReg 9 Off.PWR_TA_STAT) 0 3 3) (taReg 9 Off.PWR_TA_STAT) 4 1 1, .targetSlim 9 1, by decide +kernel⟩
theorem witness_TargetsClaimsAndProfile_2_a : ∃ (u : Fin 64) (v : W) (s : State) (c : Instr),
    (c = .targetRun u ∧ v = 0 ∨ c = .targetLowGear u ∧ v = 1 ∨ c = .targetSlim u 0 ∧ v = 2 ∨ c = .targetSlim u 1 ∧ v = 10 ∨ c = .targetDoze u ∧ v = 3) ∧ fstate s ≠ 2 ∧ taVtrans s u = false ∧ braced s = false ∧ tileState s u = 3 :=
  ⟨9, 0, setFld up (taReg 9 Off.PWR_TA_STAT) 0 3 3, .targetRun 9, by decide +kernel⟩
theorem witness_TargetsClaimsAndProfile_2_b : ∃ (u : Fin 64) (v : W) (s : State) (c : Instr),
    (c = .targetRun u ∧ v = 0 ∨ c = .targetLowGear u ∧ v = 1 ∨ c = .targetSlim u 0 ∧ v = 2 ∨ c = .targetSlim u 1 ∧ v = 10 ∨ c = .targetDoze u ∧ v = 3) ∧ fstate s ≠ 2 ∧ taVtrans s u = false ∧ braced s = false ∧ tileState s u = 3 :=
  ⟨9, 1, setFld up (taReg 9 Off.PWR_TA_STAT) 0 3 3, .targetLowGear 9, by decide +kernel⟩
theorem witness_TargetsClaimsAndProfile_2_c : ∃ (u : Fin 64) (v : W) (s : State) (c : Instr),
    (c = .targetRun u ∧ v = 0 ∨ c = .targetLowGear u ∧ v = 1 ∨ c = .targetSlim u 0 ∧ v = 2 ∨ c = .targetSlim u 1 ∧ v = 10 ∨ c = .targetDoze u ∧ v = 3) ∧ fstate s ≠ 2 ∧ taVtrans s u = false ∧ braced s = false ∧ tileState s u = 3 :=
  ⟨9, 2, setFld up (taReg 9 Off.PWR_TA_STAT) 0 3 3, .targetSlim 9 0, by decide +kernel⟩
theorem witness_TargetsClaimsAndProfile_2_d : ∃ (u : Fin 64) (v : W) (s : State) (c : Instr),
    (c = .targetRun u ∧ v = 0 ∨ c = .targetLowGear u ∧ v = 1 ∨ c = .targetSlim u 0 ∧ v = 2 ∨ c = .targetSlim u 1 ∧ v = 10 ∨ c = .targetDoze u ∧ v = 3) ∧ fstate s ≠ 2 ∧ taVtrans s u = false ∧ braced s = false ∧ tileState s u = 3 :=
  ⟨9, 10, setFld up (taReg 9 Off.PWR_TA_STAT) 0 3 3, .targetSlim 9 1, by decide +kernel⟩
theorem witness_TargetsClaimsAndProfile_2_e : ∃ (u : Fin 64) (v : W) (s : State) (c : Instr),
    (c = .targetRun u ∧ v = 0 ∨ c = .targetLowGear u ∧ v = 1 ∨ c = .targetSlim u 0 ∧ v = 2 ∨ c = .targetSlim u 1 ∧ v = 10 ∨ c = .targetDoze u ∧ v = 3) ∧ fstate s ≠ 2 ∧ taVtrans s u = false ∧ braced s = false ∧ tileState s u = 3 :=
  ⟨9, 3, setFld up (taReg 9 Off.PWR_TA_STAT) 0 3 3, .targetDoze 9, by decide +kernel⟩
theorem witness_TargetsClaimsAndProfile_3_a : ∃ (u : Fin 64) (s : State),
    fstate s ≠ 2 ∧ taVtrans s u = false ∧ braced s = false ∧ tileState s u ≠ 2 ∧ tileState s u ≠ 3 ∧ (s.ta u).nar = none ∧ (s.ta u).entering = none :=
  ⟨9, up, by decide +kernel⟩
theorem witness_TargetsClaimsAndProfile_3_b : ∃ (u : Fin 64) (s : State),
    fstate s ≠ 2 ∧ taVtrans s u = false ∧ braced s = false ∧ tileState s u ≠ 2 ∧ tileState s u ≠ 3 ∧ (s.ta u).nar = none ∧ (s.ta u).entering = none :=
  ⟨9, setFld (setFld up (taReg 9 Off.PWR_TA_STAT) 0 3 1) (taReg 9 Off.PWR_TA_STAT) 3 1 1, by decide +kernel⟩
theorem witness_TargetsClaimsAndProfile_3_c : ∃ (u : Fin 64) (s : State),
    fstate s ≠ 2 ∧ taVtrans s u = false ∧ braced s = false ∧ tileState s u ≠ 2 ∧ tileState s u ≠ 3 ∧ (s.ta u).nar = none ∧ (s.ta u).entering = none :=
  ⟨9, setFld (setFld up (taReg 9 Off.PWR_TA_STAT) 0 3 5) (taReg 9 Off.PWR_TA_STAT) 3 1 1, by decide +kernel⟩
theorem witness_TargetsClaimsAndProfile_4_a : ∃ (u : Fin 64) (v : W) (s : State) (c : Instr),
    (c = .targetRun u ∧ v = 0 ∨ c = .targetLowGear u ∧ v = 1 ∨ c = .targetSlim u 0 ∧ v = 2 ∨ c = .targetSlim u 1 ∧ v = 10) ∧ fstate s ≠ 2 ∧ taVtrans s u = false ∧ tileState s u = 2 ∧ taGear s u = false ∧ (s.ta u).nar = none :=
  ⟨9, 0, setFld up (taReg 9 Off.PWR_TA_STAT) 0 3 2, .targetRun 9, by decide +kernel⟩
theorem witness_TargetsClaimsAndProfile_4_b : ∃ (u : Fin 64) (v : W) (s : State) (c : Instr),
    (c = .targetRun u ∧ v = 0 ∨ c = .targetLowGear u ∧ v = 1 ∨ c = .targetSlim u 0 ∧ v = 2 ∨ c = .targetSlim u 1 ∧ v = 10) ∧ fstate s ≠ 2 ∧ taVtrans s u = false ∧ tileState s u = 2 ∧ taGear s u = false ∧ (s.ta u).nar = none :=
  ⟨9, 1, setFld up (taReg 9 Off.PWR_TA_STAT) 0 3 2, .targetLowGear 9, by decide +kernel⟩
theorem witness_TargetsClaimsAndProfile_4_c : ∃ (u : Fin 64) (v : W) (s : State) (c : Instr),
    (c = .targetRun u ∧ v = 0 ∨ c = .targetLowGear u ∧ v = 1 ∨ c = .targetSlim u 0 ∧ v = 2 ∨ c = .targetSlim u 1 ∧ v = 10) ∧ fstate s ≠ 2 ∧ taVtrans s u = false ∧ tileState s u = 2 ∧ taGear s u = false ∧ (s.ta u).nar = none :=
  ⟨9, 2, setFld up (taReg 9 Off.PWR_TA_STAT) 0 3 2, .targetSlim 9 0, by decide +kernel⟩
theorem witness_TargetsClaimsAndProfile_4_d : ∃ (u : Fin 64) (v : W) (s : State) (c : Instr),
    (c = .targetRun u ∧ v = 0 ∨ c = .targetLowGear u ∧ v = 1 ∨ c = .targetSlim u 0 ∧ v = 2 ∨ c = .targetSlim u 1 ∧ v = 10) ∧ fstate s ≠ 2 ∧ taVtrans s u = false ∧ tileState s u = 2 ∧ taGear s u = false ∧ (s.ta u).nar = none :=
  ⟨9, 10, setFld up (taReg 9 Off.PWR_TA_STAT) 0 3 2, .targetSlim 9 1, by decide +kernel⟩
theorem witness_TargetsClaimsAndProfile_5_a : ∃ (u : Fin 64) (v : W) (s : State) (c : Instr),
    (c = .targetLowGear u ∧ v = 1 ∨ c = .targetDoze u ∧ v = 3) ∧ fstate s ≠ 2 ∧ taVtrans s u = false ∧ tileState s u ≠ 2 ∧ tileState s u ≠ 3 ∧ (s.ta u).nar = none ∧ (s.ta u).entering = none :=
  ⟨9, 1, up, .targetLowGear 9, by decide +kernel⟩
theorem witness_TargetsClaimsAndProfile_5_b : ∃ (u : Fin 64) (v : W) (s : State) (c : Instr),
    (c = .targetLowGear u ∧ v = 1 ∨ c = .targetDoze u ∧ v = 3) ∧ fstate s ≠ 2 ∧ taVtrans s u = false ∧ tileState s u ≠ 2 ∧ tileState s u ≠ 3 ∧ (s.ta u).nar = none ∧ (s.ta u).entering = none :=
  ⟨9, 3, setFld up (taReg 9 Off.PWR_TA_STAT) 0 3 1, .targetDoze 9, by decide +kernel⟩
theorem witness_TargetsClaimsAndProfile_6_a : ∃ (u : Fin 64) (sl : Fin 2) (s : State),
    fstate s ≠ 2 ∧ taVtrans s u = false ∧ tileState s u ≠ 2 ∧ tileState s u ≠ 3 ∧ sliceIn s u 0 = true ∧ sliceIn s u 1 = true ∧ (s.ta u).nar = none ∧ (s.ta u).wide = none ∧ refuser s u .slim false = none ∧ (s.ta u).entering = none :=
  ⟨9, 1, up, by decide +kernel⟩
theorem witness_TargetsClaimsAndProfile_6_b : ∃ (u : Fin 64) (sl : Fin 2) (s : State),
    fstate s ≠ 2 ∧ taVtrans s u = false ∧ tileState s u ≠ 2 ∧ tileState s u ≠ 3 ∧ sliceIn s u 0 = true ∧ sliceIn s u 1 = true ∧ (s.ta u).nar = none ∧ (s.ta u).wide = none ∧ refuser s u .slim false = none ∧ (s.ta u).entering = none :=
  ⟨9, 0, up, by decide +kernel⟩
theorem witness_TargetsClaimsAndProfile_7_a : ∃ (u : Fin 64) (sl : Fin 2) (s : State),
    fstate s ≠ 2 ∧ taVtrans s u = false ∧ tileState s u ≠ 2 ∧ tileState s u ≠ 3 ∧ (s.ta u).turn = none ∧ (sliceIn s u 0 = false ∨ sliceIn s u 1 = false ∨ (s.ta u).nar.isSome = true ∨ (s.ta u).wide.isSome = true) ∧ (s.ta u).entering = none :=
  ⟨9, 1, setFld up (slcReg 9 1 Off.SLC_STAT) 0 3 3, by decide +kernel⟩
theorem witness_TargetsClaimsAndProfile_7_b : ∃ (u : Fin 64) (sl : Fin 2) (s : State),
    fstate s ≠ 2 ∧ taVtrans s u = false ∧ tileState s u ≠ 2 ∧ tileState s u ≠ 3 ∧ (s.ta u).turn = none ∧ (sliceIn s u 0 = false ∨ sliceIn s u 1 = false ∨ (s.ta u).nar.isSome = true ∨ (s.ta u).wide.isSome = true) ∧ (s.ta u).entering = none :=
  ⟨9, 0, setFld up (slcReg 9 0 Off.SLC_STAT) 0 3 2, by decide +kernel⟩
theorem witness_TargetsClaimsAndProfile_8_a : ∃ (u : Fin 64) (k : Nat) (w : Nat) (s : State) (c : Instr),
    ((∃ sl, c = .targetSlim u sl) ∧ w = 2 ∧ tileState s u ≠ 2 ∧ (s.ta u).entering = none ∧ ((s.ta u).turn.isSome || (sliceIn s u 0 && sliceIn s u 1 && (s.ta u).nar.isNone && (s.ta u).wide.isNone)) = true ∧ refuser s u .slim false = some k ∨ c = .targetOff u ∧ w = 4 ∧ braced s = false ∧ refuser s u .off false = some k) ∧ fstate s ≠ 2 ∧ taVtrans s u = false ∧ tileState s u ≠ 3 :=
  ⟨9, 3, 2, up.setReg (taReg 9 Off.PWR_TILE_CLAIM) (W.at 0 23 5 ||| W.at 23 1 1), .targetSlim 9 1, by decide +kernel⟩
theorem witness_TargetsClaimsAndProfile_8_b : ∃ (u : Fin 64) (k : Nat) (w : Nat) (s : State) (c : Instr),
    ((∃ sl, c = .targetSlim u sl) ∧ w = 2 ∧ tileState s u ≠ 2 ∧ (s.ta u).entering = none ∧ ((s.ta u).turn.isSome || (sliceIn s u 0 && sliceIn s u 1 && (s.ta u).nar.isNone && (s.ta u).wide.isNone)) = true ∧ refuser s u .slim false = some k ∨ c = .targetOff u ∧ w = 4 ∧ braced s = false ∧ refuser s u .off false = some k) ∧ fstate s ≠ 2 ∧ taVtrans s u = false ∧ tileState s u ≠ 3 :=
  ⟨9, 1, 4, up, .targetOff 9, by decide +kernel⟩
theorem witness_TargetsClaimsAndProfile_9 : ∃ (u : Fin 64) (s : State),
    fstate s ≠ 2 ∧ taVtrans s u = false ∧ braced s = false ∧ tileState s u ≠ 3 ∧ refuser s u .off false = none :=
  ⟨9, setFld (forEach (fun p st => st.setNi (niOf 9 p) { drained := true }) (List.range 7) up) (rtrReg 9 (Off.RTR_FMAP + 9)) 16 1 1, by decide +kernel⟩
theorem witness_TargetsClaimsAndProfile_10_a : ∃ (u : Fin 64) (owner : BitVec 23) (v : W) (s : State) (c : Instr),
    (c = .pwrClaim u owner ∧ v = (W.at 0 23 owner.toNat ||| W.at 23 1 1) ∨ c = .pwrRelease u owner ∧ v = W.at 0 23 owner.toNat) ∧ fstate s ≠ 2 ∧ (taVtrans s u = true ∨ tileState s u = 3 ∧ braced s = true) :=
  ⟨9, 5, W.at 0 23 5 ||| W.at 23 1 1, setFld up (taReg 9 Off.PWR_TA_STAT) 4 1 1, .pwrClaim 9 5, by decide +kernel⟩
theorem witness_TargetsClaimsAndProfile_10_b : ∃ (u : Fin 64) (owner : BitVec 23) (v : W) (s : State) (c : Instr),
    (c = .pwrClaim u owner ∧ v = (W.at 0 23 owner.toNat ||| W.at 23 1 1) ∨ c = .pwrRelease u owner ∧ v = W.at 0 23 owner.toNat) ∧ fstate s ≠ 2 ∧ (taVtrans s u = true ∨ tileState s u = 3 ∧ braced s = true) :=
  ⟨9, 5, W.at 0 23 5, setFld up (taReg 9 Off.PWR_TA_STAT) 4 1 1, .pwrRelease 9 5, by decide +kernel⟩
theorem witness_TargetsClaimsAndProfile_11_a : ∃ (u : Fin 64) (owner : BitVec 23) (s : State),
    fstate s ≠ 2 ∧ taVtrans s u = false ∧ taClaimed s u = false ∧ tileState s u ≠ 2 ∧ tileState s u ≠ 3 ∧ (s.ta u).nar = none ∧ (s.ta u).entering = none ∧ taGear s u = false :=
  ⟨9, 5, up, by decide +kernel⟩
theorem witness_TargetsClaimsAndProfile_11_b : ∃ (u : Fin 64) (owner : BitVec 23) (s : State),
    fstate s ≠ 2 ∧ taVtrans s u = false ∧ taClaimed s u = false ∧ tileState s u ≠ 2 ∧ tileState s u ≠ 3 ∧ (s.ta u).nar = none ∧ (s.ta u).entering = none ∧ taGear s u = false :=
  ⟨9, 5, setFld up (taReg 9 Off.PWR_TA_STAT) 0 3 1, by decide +kernel⟩
theorem witness_TargetsClaimsAndProfile_12_a : ∃ (u : Fin 64) (owner : BitVec 23) (s : State),
    fstate s ≠ 2 ∧ taVtrans s u = false ∧ (tileState s u = 3 → braced s = false) ∧ (taClaimed s u = true ∨ tileState s u = 3) :=
  ⟨9, 5, up.setReg (taReg 9 Off.PWR_TILE_CLAIM) (W.at 0 23 6 ||| W.at 23 1 1), by decide +kernel⟩
theorem witness_TargetsClaimsAndProfile_12_b : ∃ (u : Fin 64) (owner : BitVec 23) (s : State),
    fstate s ≠ 2 ∧ taVtrans s u = false ∧ (tileState s u = 3 → braced s = false) ∧ (taClaimed s u = true ∨ tileState s u = 3) :=
  ⟨9, 6, up.setReg (taReg 9 Off.PWR_TILE_CLAIM) (W.at 0 23 6 ||| W.at 23 1 1), by decide +kernel⟩
theorem witness_TargetsClaimsAndProfile_12_c : ∃ (u : Fin 64) (owner : BitVec 23) (s : State),
    fstate s ≠ 2 ∧ taVtrans s u = false ∧ (tileState s u = 3 → braced s = false) ∧ (taClaimed s u = true ∨ tileState s u = 3) :=
  ⟨9, 5, setFld up (taReg 9 Off.PWR_TA_STAT) 0 3 3, by decide +kernel⟩
theorem witness_TargetsClaimsAndProfile_12_d : ∃ (u : Fin 64) (owner : BitVec 23) (s : State),
    fstate s ≠ 2 ∧ taVtrans s u = false ∧ (tileState s u = 3 → braced s = false) ∧ (taClaimed s u = true ∨ tileState s u = 3) :=
  ⟨9, 5, setFld (up.setReg (taReg 9 Off.PWR_TILE_CLAIM) (W.at 0 23 7 ||| W.at 23 1 1)) (taReg 9 Off.PWR_TA_STAT) 0 3 3, by decide +kernel⟩
theorem witness_TargetsClaimsAndProfile_13_a : ∃ (u : Fin 64) (owner : BitVec 23) (s : State),
    fstate s ≠ 2 ∧ taVtrans s u = false ∧ (tileState s u = 3 → braced s = false) :=
  ⟨9, 5, up.setReg (taReg 9 Off.PWR_TILE_CLAIM) (W.at 0 23 6 ||| W.at 23 1 1), by decide +kernel⟩
theorem witness_TargetsClaimsAndProfile_13_b : ∃ (u : Fin 64) (owner : BitVec 23) (s : State),
    fstate s ≠ 2 ∧ taVtrans s u = false ∧ (tileState s u = 3 → braced s = false) :=
  ⟨9, 6, up.setReg (taReg 9 Off.PWR_TILE_CLAIM) (W.at 0 23 6 ||| W.at 23 1 1), by decide +kernel⟩
theorem witness_TargetsClaimsAndProfile_13_c : ∃ (u : Fin 64) (owner : BitVec 23) (s : State),
    fstate s ≠ 2 ∧ taVtrans s u = false ∧ (tileState s u = 3 → braced s = false) :=
  ⟨9, 5, up, by decide +kernel⟩
theorem witness_TargetsClaimsAndProfile_13_d : ∃ (u : Fin 64) (owner : BitVec 23) (s : State),
    fstate s ≠ 2 ∧ taVtrans s u = false ∧ (tileState s u = 3 → braced s = false) :=
  ⟨9, 5, setFld (up.setReg (taReg 9 Off.PWR_TILE_CLAIM) (W.at 0 23 5 ||| W.at 23 1 1)) (taReg 9 Off.PWR_TA_STAT) 0 3 3, by decide +kernel⟩
theorem witness_TargetsClaimsAndProfile_14_a : ∃ (v : W) (s : State),
    braced s = false :=
  ⟨0, up, by decide +kernel⟩
theorem witness_TargetsClaimsAndProfile_14_b : ∃ (v : W) (s : State),
    braced s = false :=
  ⟨3, up, by decide +kernel⟩
theorem witness_TargetsClaimsAndProfile_14_c : ∃ (v : W) (s : State),
    braced s = false :=
  ⟨2, setFld up (taReg 9 Off.PWR_TA_STAT) 4 1 1, by decide +kernel⟩
theorem witness_TargetsClaimsAndProfile_15 : ∃ (v : W) (s : State),
    braced s = true :=
  ⟨2, setFld up (pwrReg Off.PWR_STAT) 2 1 1, by decide +kernel⟩
theorem witness_TargetsClaimsAndProfile_16 : ∃ (u : Fin 64) (owner : BitVec 23) (s : State),
    fstate s ≠ 2 ∧ taVtrans s u = false ∧ taClaimed s u = false ∧ tileState s u = 2 ∧ taGear s u = false ∧ (s.ta u).nar = none ∧ (s.ta u).slimDue = none :=
  ⟨9, 4, setFld up (taReg 9 Off.PWR_TA_STAT) 0 3 2, by decide +kernel⟩
theorem witness_TargetsClaimsAndProfile_17 : ∃ (u : Fin 64) (owner : BitVec 23) (s : State),
    fstate s ≠ 2 ∧ taVtrans s u = false ∧ taClaimed s u = false ∧ braced s = false ∧ tileState s u ≠ 2 ∧ tileState s u ≠ 3 ∧ (s.ta u).nar = none ∧ (s.ta u).entering = none ∧ taGear s u = true :=
  ⟨9, 4, setFld up (taReg 9 Off.PWR_TA_STAT) 3 1 1, by decide +kernel⟩
theorem witness_TargetsClaimsAndProfile_18 : ∃ (u : Fin 64) (owner : BitVec 23) (y : Bool) (s : State),
    fstate s ≠ 2 ∧ taVtrans s u = false ∧ tileState s u = 0 ∧ taGear s u = false ∧ (s.ta u).nar = none ∧ (s.ta u).entering.isSome = true :=
  ⟨9, 4, true, up.setTa 9 { entering := some 5 }, by decide +kernel⟩
theorem witness_LoadGearsAndDoze_1_a : ∃ (u : Fin 64) (rl : Fin 101) (ml : Fin 101) (s : State),
    tileDark s u = false ∧ ((autoReg s u).fld 7 7 ≤ rl.val → taGear s u = false) :=
  ⟨9, 10, 5, up, by decide +kernel⟩
theorem witness_LoadGearsAndDoze_1_b : ∃ (u : Fin 64) (rl : Fin 101) (ml : Fin 101) (s : State),
    tileDark s u = false ∧ ((autoReg s u).fld 7 7 ≤ rl.val → taGear s u = false) :=
  ⟨9, 100, 100, up, by decide +kernel⟩
theorem witness_LoadGearsAndDoze_2 : ∃ (u : Fin 64) (rl : Fin 101) (ml : Fin 101) (s : State),
    tileDark s u = false ∧ (autoReg s u).fld 7 7 ≤ rl.val ∧ taGear s u = true ∧ taVtrans s u = false ∧ braced s = false :=
  ⟨9, 100, 5, setFld up (taReg 9 Off.PWR_TA_STAT) 3 1 1, by decide +kernel⟩
theorem witness_LoadGearsAndDoze_3_a : ∃ (u : Fin 64) (s : State),
    1 ≤ taTarget s u ∧ taTarget s u ≤ 3 ∧ tileDark s u = false ∧ taGear s u = false ∧ taVtrans s u = false ∧ (s.ta u).entering = none ∧ 10 * (autoReg s u).fld 14 10 ≤ (s.ta u).gearRun ∧ refuser s u .gear false = none :=
  ⟨9, (((up.setReg (pwrReg Off.PWR_SC5_TILES_LO) 0).setReg (pwrReg Off.PWR_SC5_TILES_HI) 0).setReg (taReg 9 Off.PWR_TA_REQ) 1).setTa 9 { gearRun := 10230 }, by decide +kernel⟩
theorem witness_LoadGearsAndDoze_3_b : ∃ (u : Fin 64) (s : State),
    1 ≤ taTarget s u ∧ taTarget s u ≤ 3 ∧ tileDark s u = false ∧ taGear s u = false ∧ taVtrans s u = false ∧ (s.ta u).entering = none ∧ 10 * (autoReg s u).fld 14 10 ≤ (s.ta u).gearRun ∧ refuser s u .gear false = none :=
  ⟨9, ((setFld ((up.setReg (pwrReg Off.PWR_SC5_TILES_LO) 0).setReg (pwrReg Off.PWR_SC5_TILES_HI) 0) (pwrReg Off.PWR_STAT) 2 1 1).setReg (taReg 9 Off.PWR_TA_REQ) 1).setTa 9 { gearRun := 10230 }, by decide +kernel⟩
theorem witness_LoadGearsAndDoze_4 : ∃ (u : Fin 64) (k : Nat) (s : State),
    1 ≤ taTarget s u ∧ taTarget s u ≤ 3 ∧ tileDark s u = false ∧ taGear s u = false ∧ taVtrans s u = false ∧ (s.ta u).entering = none ∧ 10 * (autoReg s u).fld 14 10 ≤ (s.ta u).gearRun ∧ refuser s u .gear false = some k :=
  ⟨9, 3, ((up.setReg (taReg 9 Off.PWR_TILE_CLAIM) (W.at 0 23 4 ||| W.at 23 1 1)).setReg (taReg 9 Off.PWR_TA_REQ) 1).setTa 9 { gearRun := 10230 }, by decide +kernel⟩
theorem witness_LoadGearsAndDoze_5_a : ∃ (u : Fin 64) (back : Bool) (s : State),
    taVtrans s u = true ∧ (s.ta u).waitReq = [] ∧ (s.ta u).vtDue = none ∧ (s.ta u).ctrlDue = none ∧ (∀ p ∈ (s.ta u).heldInt, p.1 / 7 = u.val) ∧ (∀ k < 12, regBit s (evlReg (Off.EVL_IRQ_ROUTE k)) 4 = false) ∧ back = (sc5Tile s u && !(s.ta u).vtUp) :=
  ⟨9, false, (setFld (forEach (fun k st => setFld st (evlReg (Off.EVL_IRQ_ROUTE k)) 4 1 0) (List.range 12) ((up.setReg (pwrReg Off.PWR_SC5_TILES_LO) 0).setReg (pwrReg Off.PWR_SC5_TILES_HI) 0)) (taReg 9 Off.PWR_TA_STAT) 4 1 1), by decide +kernel⟩
theorem witness_LoadGearsAndDoze_5_b : ∃ (u : Fin 64) (back : Bool) (s : State),
    taVtrans s u = true ∧ (s.ta u).waitReq = [] ∧ (s.ta u).vtDue = none ∧ (s.ta u).ctrlDue = none ∧ (∀ p ∈ (s.ta u).heldInt, p.1 / 7 = u.val) ∧ (∀ k < 12, regBit s (evlReg (Off.EVL_IRQ_ROUTE k)) 4 = false) ∧ back = (sc5Tile s u && !(s.ta u).vtUp) :=
  ⟨9, false, (setFld (forEach (fun k st => setFld st (evlReg (Off.EVL_IRQ_ROUTE k)) 4 1 0) (List.range 12) ((up.setReg (pwrReg Off.PWR_SC5_TILES_LO) 0).setReg (pwrReg Off.PWR_SC5_TILES_HI) 0)) (taReg 9 Off.PWR_TA_STAT) 4 1 1).setTa 9 { vtUp := true, heldInt := [(65, 5), (65, 4)] }, by decide +kernel⟩
theorem witness_LoadGearsAndDoze_6 : ∃ (u : Fin 64) (v : W) (q : WaitReq) (s : State),
    (q = .claim v ∧ v.bit 23 = true ∧ taClaimed s u = false ∨ q = .target v ∧ v.fld 0 3 = 0) ∧ taVtrans s u = true ∧ tileState s u = 0 ∧ (s.ta u).waitReq = [q] ∧ (s.ta u).vtUp = false ∧ (s.ta u).vtDue = none ∧ (s.ta u).ctrlDue = none ∧ (s.ta u).heldInt = [] ∧ (s.ta u).entering = none ∧ (s.ta u).nar = none ∧ braced s = false :=
  ⟨9, W.at 0 23 4 ||| W.at 23 1 1, .claim (W.at 0 23 4 ||| W.at 23 1 1), (setFld up (taReg 9 Off.PWR_TA_STAT) 4 1 1).setTa 9 { waitReq := [.claim (W.at 0 23 4 ||| W.at 23 1 1)] }, by decide +kernel⟩
theorem witness_LoadGearsAndDoze_7 : ∃ (u : Fin 64) (x : Nat) (s : State),
    (s.ta u).entering = some x ∧ x + 21 ≤ s.fc :=
  ⟨9, 5, { up with fc := 30 }.setTa 9 { entering := some 5 }, by decide +kernel⟩
theorem witness_LoadGearsAndDoze_8 : ∃ (u : Fin 64) (k : Nat) (s : State),
    taTarget s u = 3 ∧ tileState s u = 0 ∧ taVtrans s u = false ∧ (s.ta u).nar = none ∧ (s.ta u).wide = none ∧ (s.ta u).entering = none ∧ dozeDue s u = true ∧ refuser s u .doze false = some k :=
  ⟨9, 3, { (up.setReg (taReg 9 Off.PWR_TILE_CLAIM) (W.at 0 23 4 ||| W.at 23 1 1)).setReg (taReg 9 Off.PWR_TA_REQ) 3 with fc := 3000000 }, by decide +kernel⟩
theorem witness_LoadGearsAndDoze_9 : ∃ (u : Fin 64) (i : Fin 16) (s : State),
    tileState s u = 2 ∧ (s.ta u).entering = none ∧ linkWf u i = true ∧ flagUp s u i = true :=
  ⟨9, (if 9 % 8 = 1 then 3 else 1), setFld (up.setRt (across 9 (if 9 % 8 = 1 then 3 else 1)) { inq := [{ pkt := { pRd with dst := 13, key := 3 }, inp := 16, vc := 0, arrived := 1, out := some (portTo (across 9 (if 9 % 8 = 1 then 3 else 1)) 9) }] }) (taReg 9 Off.PWR_TA_STAT) 0 3 2, by decide +kernel⟩
theorem witness_LoadGearsAndDoze_10_a : ∃ (u : Fin 64) (lines : BitVec 21) (n : Nat) (runs : List Nat) (cause : Option Nat) (s : State),
    tileState s u = 2 ∧ n = ((List.range 21).filter (fun j => lines.getLsbD j)).length ∧ runs = (List.range 21).map (fun j => if lines.getLsbD j = true then (s.ta u).pic.getD j 0 + 1 else 0) ∧ ((cause = some 2 ∧ flagBits s u ≠ 0 ∨ cause = some 0 ∧ flagBits s u = 0 ∧ getFld s (pwrReg Off.PWR_PIC_CFG) 10 5 ≤ n ∨ cause = some 1 ∧ flagBits s u = 0 ∧ n < getFld s (pwrReg Off.PWR_PIC_CFG) 10 5 ∧ (∃ k ∈ runs, getFld s (pwrReg Off.PWR_PIC_CFG) 15 8 ≤ k) ∨ cause = none ∧ flagBits s u = 0 ∧ n < getFld s (pwrReg Off.PWR_PIC_CFG) 10 5 ∧ (∀ k ∈ runs, k < getFld s (pwrReg Off.PWR_PIC_CFG) 15 8))) :=
  ⟨9, 3, ((List.range 21).filter (fun j => (3 : BitVec 21).getLsbD j)).length, (List.range 21).map (fun j => if (3 : BitVec 21).getLsbD j = true then ((setFld (setFld up (pwrReg Off.PWR_PIC_CFG) 10 5 20) (taReg 9 Off.PWR_TA_STAT) 0 3 2 : State).ta 9).pic.getD j 0 + 1 else 0), none, setFld (setFld up (pwrReg Off.PWR_PIC_CFG) 10 5 20) (taReg 9 Off.PWR_TA_STAT) 0 3 2, by decide +kernel⟩
theorem witness_LoadGearsAndDoze_10_b : ∃ (u : Fin 64) (lines : BitVec 21) (n : Nat) (runs : List Nat) (cause : Option Nat) (s : State),
    tileState s u = 2 ∧ n = ((List.range 21).filter (fun j => lines.getLsbD j)).length ∧ runs = (List.range 21).map (fun j => if lines.getLsbD j = true then (s.ta u).pic.getD j 0 + 1 else 0) ∧ ((cause = some 2 ∧ flagBits s u ≠ 0 ∨ cause = some 0 ∧ flagBits s u = 0 ∧ getFld s (pwrReg Off.PWR_PIC_CFG) 10 5 ≤ n ∨ cause = some 1 ∧ flagBits s u = 0 ∧ n < getFld s (pwrReg Off.PWR_PIC_CFG) 10 5 ∧ (∃ k ∈ runs, getFld s (pwrReg Off.PWR_PIC_CFG) 15 8 ≤ k) ∨ cause = none ∧ flagBits s u = 0 ∧ n < getFld s (pwrReg Off.PWR_PIC_CFG) 10 5 ∧ (∀ k ∈ runs, k < getFld s (pwrReg Off.PWR_PIC_CFG) 15 8))) :=
  ⟨9, 2097151, ((List.range 21).filter (fun j => (2097151 : BitVec 21).getLsbD j)).length, (List.range 21).map (fun j => if (2097151 : BitVec 21).getLsbD j = true then ((setFld up (taReg 9 Off.PWR_TA_STAT) 0 3 2 : State).ta 9).pic.getD j 0 + 1 else 0), some 0, setFld up (taReg 9 Off.PWR_TA_STAT) 0 3 2, by decide +kernel⟩
theorem witness_LoadGearsAndDoze_10_c : ∃ (u : Fin 64) (lines : BitVec 21) (n : Nat) (runs : List Nat) (cause : Option Nat) (s : State),
    tileState s u = 2 ∧ n = ((List.range 21).filter (fun j => lines.getLsbD j)).length ∧ runs = (List.range 21).map (fun j => if lines.getLsbD j = true then (s.ta u).pic.getD j 0 + 1 else 0) ∧ ((cause = some 2 ∧ flagBits s u ≠ 0 ∨ cause = some 0 ∧ flagBits s u = 0 ∧ getFld s (pwrReg Off.PWR_PIC_CFG) 10 5 ≤ n ∨ cause = some 1 ∧ flagBits s u = 0 ∧ n < getFld s (pwrReg Off.PWR_PIC_CFG) 10 5 ∧ (∃ k ∈ runs, getFld s (pwrReg Off.PWR_PIC_CFG) 15 8 ≤ k) ∨ cause = none ∧ flagBits s u = 0 ∧ n < getFld s (pwrReg Off.PWR_PIC_CFG) 10 5 ∧ (∀ k ∈ runs, k < getFld s (pwrReg Off.PWR_PIC_CFG) 15 8))) :=
  ⟨9, 1, ((List.range 21).filter (fun j => (1 : BitVec 21).getLsbD j)).length, (List.range 21).map (fun j => if (1 : BitVec 21).getLsbD j = true then (((setFld (setFld up (pwrReg Off.PWR_PIC_CFG) 10 5 20) (taReg 9 Off.PWR_TA_STAT) 0 3 2).setTa 9 { pic := [255] } : State).ta 9).pic.getD j 0 + 1 else 0), some 1, (setFld (setFld up (pwrReg Off.PWR_PIC_CFG) 10 5 20) (taReg 9 Off.PWR_TA_STAT) 0 3 2).setTa 9 { pic := [255] }, by decide +kernel⟩
theorem witness_LoadGearsAndDoze_10_d : ∃ (u : Fin 64) (lines : BitVec 21) (n : Nat) (runs : List Nat) (cause : Option Nat) (s : State),
    tileState s u = 2 ∧ n = ((List.range 21).filter (fun j => lines.getLsbD j)).length ∧ runs = (List.range 21).map (fun j => if lines.getLsbD j = true then (s.ta u).pic.getD j 0 + 1 else 0) ∧ ((cause = some 2 ∧ flagBits s u ≠ 0 ∨ cause = some 0 ∧ flagBits s u = 0 ∧ getFld s (pwrReg Off.PWR_PIC_CFG) 10 5 ≤ n ∨ cause = some 1 ∧ flagBits s u = 0 ∧ n < getFld s (pwrReg Off.PWR_PIC_CFG) 10 5 ∧ (∃ k ∈ runs, getFld s (pwrReg Off.PWR_PIC_CFG) 15 8 ≤ k) ∨ cause = none ∧ flagBits s u = 0 ∧ n < getFld s (pwrReg Off.PWR_PIC_CFG) 10 5 ∧ (∀ k ∈ runs, k < getFld s (pwrReg Off.PWR_PIC_CFG) 15 8))) :=
  ⟨9, 1, ((List.range 21).filter (fun j => (1 : BitVec 21).getLsbD j)).length, (List.range 21).map (fun j => if (1 : BitVec 21).getLsbD j = true then ((setFld (up.setRt (across 9 (if 9 % 8 = 1 then 3 else 1)) { inq := [{ pkt := { pRd with dst := 13, key := 3 }, inp := 16, vc := 0, arrived := 1, out := some (portTo (across 9 (if 9 % 8 = 1 then 3 else 1)) 9) }] }) (taReg 9 Off.PWR_TA_STAT) 0 3 2 : State).ta 9).pic.getD j 0 + 1 else 0), some 2, setFld (up.setRt (across 9 (if 9 % 8 = 1 then 3 else 1)) { inq := [{ pkt := { pRd with dst := 13, key := 3 }, inp := 16, vc := 0, arrived := 1, out := some (portTo (across 9 (if 9 % 8 = 1 then 3 else 1)) 9) }] }) (taReg 9 Off.PWR_TA_STAT) 0 3 2, by decide +kernel⟩
theorem witness_LoadGearsAndDoze_11_a : ∃ (u : Fin 64) (s : State),
    tileState s u = 5 ∧ (taTarget s u = 1 ∨ taTarget s u = 3 ∨ taTarget s u = 0 ∧ taGear s u = false ∧ taVtrans s u = false) ∧ (∀ p ∈ (neighbours u).zip (List.range 14), ∀ h < 2, (rxFenced s u (portTo u p.1) h = true ∨ (Config.freeWord s.freeN).bit (2 * p.2 + h) = false) ∧ (rxFenced s p.1 (portTo p.1 u) h = true ∨ (Config.freeWord (s.freeN + 1)).bit (2 * p.2 + h) = false)) ∧ (∀ n ∈ unitNis u, (s.ni n).barack = none ∧ ((s.ni n).urst = true ∨ (s.ni n).hold = [])) :=
  ⟨9, ((neighbours 9).foldl (fun st v => [0, 1].foldl (fun x h => (x.setReg (slcReg 9 h (Off.LNK_STAT (portTo 9 v))) 3).setReg (slcReg v h (Off.LNK_STAT (portTo v 9))) 3) st) ((setFld up (taReg 9 Off.PWR_TA_STAT) 0 3 5).setReg (taReg 9 Off.PWR_TA_REQ) 1)), by decide +kernel⟩
theorem witness_LoadGearsAndDoze_11_b : ∃ (u : Fin 64) (s : State),
    tileState s u = 5 ∧ (taTarget s u = 1 ∨ taTarget s u = 3 ∨ taTarget s u = 0 ∧ taGear s u = false ∧ taVtrans s u = false) ∧ (∀ p ∈ (neighbours u).zip (List.range 14), ∀ h < 2, (rxFenced s u (portTo u p.1) h = true ∨ (Config.freeWord s.freeN).bit (2 * p.2 + h) = false) ∧ (rxFenced s p.1 (portTo p.1 u) h = true ∨ (Config.freeWord (s.freeN + 1)).bit (2 * p.2 + h) = false)) ∧ (∀ n ∈ unitNis u, (s.ni n).barack = none ∧ ((s.ni n).urst = true ∨ (s.ni n).hold = [])) :=
  ⟨9, ((neighbours 9).foldl (fun st v => [0, 1].foldl (fun x h => (x.setReg (slcReg 9 h (Off.LNK_STAT (portTo 9 v))) 3).setReg (slcReg v h (Off.LNK_STAT (portTo v 9))) 3) st) ((setFld up (taReg 9 Off.PWR_TA_STAT) 0 3 5).setReg (taReg 9 Off.PWR_TA_REQ) 0)), by decide +kernel⟩
theorem witness_LoadGearsAndDoze_11_c : ∃ (u : Fin 64) (s : State),
    tileState s u = 5 ∧ (taTarget s u = 1 ∨ taTarget s u = 3 ∨ taTarget s u = 0 ∧ taGear s u = false ∧ taVtrans s u = false) ∧ (∀ p ∈ (neighbours u).zip (List.range 14), ∀ h < 2, (rxFenced s u (portTo u p.1) h = true ∨ (Config.freeWord s.freeN).bit (2 * p.2 + h) = false) ∧ (rxFenced s p.1 (portTo p.1 u) h = true ∨ (Config.freeWord (s.freeN + 1)).bit (2 * p.2 + h) = false)) ∧ (∀ n ∈ unitNis u, (s.ni n).barack = none ∧ ((s.ni n).urst = true ∨ (s.ni n).hold = [])) :=
  ⟨9, ((neighbours 9).foldl (fun st v => [0, 1].foldl (fun x h => (x.setReg (slcReg 9 h (Off.LNK_STAT (portTo 9 v))) 3).setReg (slcReg v h (Off.LNK_STAT (portTo v 9))) 3) st) ((setFld up (taReg 9 Off.PWR_TA_STAT) 0 3 5).setReg (taReg 9 Off.PWR_TA_REQ) 3)), by decide +kernel⟩
theorem witness_LoadGearsAndDoze_13 : ∃ (n : NiId) (lines : BitVec 4) (s : State),
    taVtrans s n.t = true :=
  ⟨⟨9,2⟩, 5, setFld up (taReg 9 Off.PWR_TA_STAT) 4 1 1, by decide +kernel⟩
theorem witness_LoadGearsAndDoze_14_a : ∃ (n : NiId) (lines : BitVec 4) (s : State),
    taVtrans s n.t = false ∧ ((∀ k < 12, regBit s (evlReg (Off.EVL_IRQ_ROUTE k)) 4 = false)) :=
  ⟨⟨9,2⟩, 5, forEach (fun k st => setFld st (evlReg (Off.EVL_IRQ_ROUTE k)) 4 1 0) (List.range 12) up, by decide +kernel⟩
theorem witness_LoadGearsAndDoze_14_b : ∃ (n : NiId) (lines : BitVec 4) (s : State),
    taVtrans s n.t = false ∧ ((∀ k < 12, regBit s (evlReg (Off.EVL_IRQ_ROUTE k)) 4 = false)) :=
  ⟨⟨9,2⟩, 0, (forEach (fun k st => setFld st (evlReg (Off.EVL_IRQ_ROUTE k)) 4 1 0) (List.range 12) up).setReg (niReg (7*9+3) Off.NI_UINT) 2, by decide +kernel⟩
theorem witness_LoadGearsAndDoze_5_c : ∃ (u : Fin 64) (back : Bool) (s : State),
    taVtrans s u = true ∧ (s.ta u).waitReq = [] ∧ (s.ta u).vtDue = none ∧ (s.ta u).ctrlDue = none ∧ (∀ p ∈ (s.ta u).heldInt, p.1 / 7 = u.val) ∧ (∀ k < 12, regBit s (evlReg (Off.EVL_IRQ_ROUTE k)) 4 = false) ∧ back = (sc5Tile s u && !(s.ta u).vtUp) :=
  ⟨9, true, (setFld (forEach (fun k st => setFld st (evlReg (Off.EVL_IRQ_ROUTE k)) 4 1 0) (List.range 12) ((up.setReg (pwrReg Off.PWR_SC5_TILES_LO) 0xffffffff).setReg (pwrReg Off.PWR_SC5_TILES_HI) 0)) (taReg 9 Off.PWR_TA_STAT) 4 1 1).setTa 9 { heldInt := [(65, 5)] }, by decide +kernel⟩
theorem witness_LoadGearsAndDoze_6_b : ∃ (u : Fin 64) (v : W) (q : WaitReq) (s : State),
    (q = .claim v ∧ v.bit 23 = true ∧ taClaimed s u = false ∨ q = .target v ∧ v.fld 0 3 = 0) ∧ taVtrans s u = true ∧ tileState s u = 0 ∧ (s.ta u).waitReq = [q] ∧ (s.ta u).vtUp = false ∧ (s.ta u).vtDue = none ∧ (s.ta u).ctrlDue = none ∧ (s.ta u).heldInt = [] ∧ (s.ta u).entering = none ∧ (s.ta u).nar = none ∧ braced s = false :=
  ⟨9, 8, .target 8, (setFld up (taReg 9 Off.PWR_TA_STAT) 4 1 1).setTa 9 { waitReq := [.target 8] }, by decide +kernel⟩
theorem witness_LoadGearsAndDoze_12 : ∃ (u : Fin 64) (s : State),
    tileState s u = 5 ∧ (taTarget s u = 1 ∨ taTarget s u = 3) :=
  ⟨9, (setFld up (taReg 9 Off.PWR_TA_STAT) 0 3 5).setReg (taReg 9 Off.PWR_TA_REQ) 1, by decide +kernel⟩
theorem witness_LoadGearsAndDoze_15 : ∃ (u : Fin 64) (s : State),
    taTarget s u = 3 ∧ tileState s u = 0 ∧ taVtrans s u = false ∧ (s.ta u).nar = none ∧ (s.ta u).wide = none ∧ (s.ta u).entering = none ∧ (s.ta u).outFc + 2400 * (autoReg s u).fld 24 10 ≤ s.fc ∧ (∀ x, (s.ta u).dozeFc = some x → x + 2400 * (autoReg s u).fld 24 10 ≤ s.fc) ∧ refuser s u .doze false = none :=
  ⟨9, { ((up.setReg (pwrReg Off.PWR_SC5_TILES_LO) 0).setReg (pwrReg Off.PWR_SC5_TILES_HI) 0).setReg (taReg 9 Off.PWR_TA_REQ) 3 with fc := 3000000 }, by decide +kernel⟩
theorem witness_LoadGearsAndDoze_16 : ∃ (u : Fin 64) (i : Fin 16) (s : State),
    tileState s u ≠ 2 ∧ (s.ta u).entering.isSome = true ∧ linkWf u i = true ∧ flagUp s u i = true :=
  ⟨9, (if 9 % 8 = 1 then 3 else 1), (up.setRt (across 9 (if 9 % 8 = 1 then 3 else 1)) { inq := [{ pkt := { pRd with dst := 13, key := 3 }, inp := 16, vc := 0, arrived := 1, out := some (portTo (across 9 (if 9 % 8 = 1 then 3 else 1)) 9) }] }).setTa 9 { entering := some 5 }, by decide +kernel⟩
theorem witness_LoadGearsAndDoze_17 : ∃ (n : NiId) (h : Head) (ch : Chan) (s : State),
    (s.ta n.t).entering.isSome = true ∧ chanHeld (s.ni n.idx) ch = true :=
  ⟨⟨9, 2⟩, hWr, .oreq, (up.setNi 65 { stage := [{ ch := .oreq, pkt := pWr, waits := true }] }).setTa 9 { entering := some 5 }, by decide +kernel⟩
theorem witness_RetentionAndSelfTest_1_a : ∃ (s : State),
    fstate s = 1 ∧ braced s = false ∧ (∀ u < 64, taVtrans s u = false) :=
  ⟨setFld up (pwrReg Off.PWR_STAT) 0 2 1, by decide +kernel⟩
theorem witness_RetentionAndSelfTest_1_b : ∃ (s : State),
    fstate s = 1 ∧ braced s = false ∧ (∀ u < 64, taVtrans s u = false) :=
  ⟨setFld (setFld up (taReg 9 Off.PWR_TA_STAT) 0 3 3) (pwrReg Off.PWR_STAT) 0 2 1, by decide +kernel⟩
theorem witness_RetentionAndSelfTest_2 : ∃ (s : State),
    fstate s = 2 ∧ regBit s (pwrReg Off.PWR_WAKE_CFG) 1 = true ∧ s.onCell = false :=
  ⟨setFld (setFld up (pwrReg Off.PWR_STAT) 0 2 2) (pwrReg Off.PWR_WAKE_CFG) 1 1 1, by decide +kernel⟩
theorem witness_RetentionAndSelfTest_3_a : ∃ (s : State),
    (fstate s ≠ 2 ∨ regBit s (pwrReg Off.PWR_WAKE_CFG) 1 = false ∨ s.onCell = true) :=
  ⟨up, by decide +kernel⟩
theorem witness_RetentionAndSelfTest_3_b : ∃ (s : State),
    (fstate s ≠ 2 ∨ regBit s (pwrReg Off.PWR_WAKE_CFG) 1 = false ∨ s.onCell = true) :=
  ⟨{ setFld (setFld up (pwrReg Off.PWR_STAT) 0 2 2) (pwrReg Off.PWR_WAKE_CFG) 1 1 1 with onCell := true }, by decide +kernel⟩
theorem witness_RetentionAndSelfTest_4_a : ∃ (s : State),
    fstate s = 3 ∧ (∀ e ∈ s.shadows, shadowed e.1 = true) ∧ (s.shadows.map (·.1)).Nodup :=
  ⟨setFld up (pwrReg Off.PWR_STAT) 0 2 3, by decide +kernel⟩
theorem witness_RetentionAndSelfTest_4_b : ∃ (s : State),
    fstate s = 3 ∧ (∀ e ∈ s.shadows, shadowed e.1 = true) ∧ (s.shadows.map (·.1)).Nodup :=
  ⟨(setFld up (pwrReg Off.PWR_STAT) 0 2 3).setReg (retReg (tileRet 9)) 4, by decide +kernel⟩
theorem witness_RetentionAndSelfTest_5_a : ∃ (bad : List (Fin 64 × Fin 2)) (s : State),
    fstate s = 3 ∧ bad.Nodup ∧ bad ≠ [] ∧ bad.length < 16 ∧ (∀ e ∈ s.shadows, shadowed e.1 = true) ∧ (s.shadows.map (·.1)).Nodup :=
  ⟨[(9, 1), (12, 0), (12, 1)], setFld up (pwrReg Off.PWR_STAT) 0 2 3, by decide +kernel⟩
theorem witness_RetentionAndSelfTest_5_b : ∃ (bad : List (Fin 64 × Fin 2)) (s : State),
    fstate s = 3 ∧ bad.Nodup ∧ bad ≠ [] ∧ bad.length < 16 ∧ (∀ e ∈ s.shadows, shadowed e.1 = true) ∧ (s.shadows.map (·.1)).Nodup :=
  ⟨[(9, 1), (12, 0)], ((setFld up (pwrReg Off.PWR_STAT) 0 2 3).setReg (retReg (tileRet 9)) 2).setReg (retReg (tileRet 20)) 4, by decide +kernel⟩
theorem witness_RetentionAndSelfTest_6 : ∃ (mr : List W) (sigs : List (Fin 64 × Fin 2 × Fin 12 × W)) (rows : List (Fin 64 × Fin 6 × Fin 128)) (h : Bool) (tm : Bool) (sr : Bool) (d : BitVec 16) (s : State),
    s.inReset = false ∧ s.scanOn = false ∧ s.postRun = true ∧ s.postRes = none :=
  ⟨[1], [(3,1,2,7),(3,1,4,0)], [(1,2,3)], true, false, false, 9, { up.setWord 0x100000000 7 with postRun := true }, by decide +kernel⟩
theorem witness_RetentionAndSelfTest_7 : ∃ (r : PostRes) (s : State),
    s.postRes = some r ∧ s.inReset = false ∧ s.scanOn = false ∧ r.memRes = Config.goldenPostMem ∧ r.bad = [] ∧ r.rows = [] ∧ r.hold = false ∧ r.tmem = false ∧ r.sram = false ∧ s.evq.length < 16 :=
  ⟨{ memRes := Config.goldenPostMem, bad := [], rows := [], hold := false, tmem := false, sram := false, dur := 7 }, { up with postRun := true, postRes := some { memRes := Config.goldenPostMem, bad := [], rows := [], hold := false, tmem := false, sram := false, dur := 7 } }, ⟨rfl, by decide +kernel, by decide +kernel, rfl, by decide +kernel, by decide +kernel, by decide +kernel, by decide +kernel⟩⟩
theorem witness_RetentionAndSelfTest_8 : ∃ (r : PostRes) (u : Nat) (sl : Nat) (p : Nat) (s : State),
    s.postRes = some r ∧ s.inReset = false ∧ s.scanOn = false ∧ (r.memRes = Config.goldenPostMem ∨ r.bad.any (fun b => decide (8 ≤ b.2.2.1)) = true) ∧ r.rows = [] ∧ r.hold = false ∧ r.tmem = false ∧ r.sram = false ∧ fuse s Fuse.STRICT_POST = false ∧ badSlices r = [(u, sl)] ∧ firstBad r = some (u, sl, p) ∧ s.evq.length < 16 :=
  ⟨{ memRes := Config.goldenPostMem, bad := [(9, 1, 3, 9), (9, 1, 5, 9)], rows := [], hold := false, tmem := false, sram := false, dur := 7 }, 9, 1, 3, { up with postRun := true, postRes := some { memRes := Config.goldenPostMem, bad := [(9, 1, 3, 9), (9, 1, 5, 9)], rows := [], hold := false, tmem := false, sram := false, dur := 7 } }, ⟨rfl, by decide +kernel, by decide +kernel, .inl rfl, by decide +kernel, by decide +kernel, by decide +kernel, by decide +kernel, by decide +kernel, by decide +kernel⟩⟩
theorem witness_RetentionAndSelfTest_8_b : ∃ (r : PostRes) (u : Nat) (sl : Nat) (p : Nat) (s : State),
    s.postRes = some r ∧ s.inReset = false ∧ s.scanOn = false ∧ (r.memRes = Config.goldenPostMem ∨ r.bad.any (fun b => decide (8 ≤ b.2.2.1)) = true) ∧ r.rows = [] ∧ r.hold = false ∧ r.tmem = false ∧ r.sram = false ∧ fuse s Fuse.STRICT_POST = false ∧ badSlices r = [(u, sl)] ∧ firstBad r = some (u, sl, p) ∧ s.evq.length < 16 :=
  ⟨{ memRes := [1], bad := [(9, 1, 9, 9)], rows := [], hold := false, tmem := false, sram := false, dur := 7 }, 9, 1, 9, { up with postRun := true, postRes := some { memRes := [1], bad := [(9, 1, 9, 9)], rows := [], hold := false, tmem := false, sram := false, dur := 7 } }, ⟨rfl, by decide +kernel, by decide +kernel, .inr (by decide +kernel), by decide +kernel, by decide +kernel, by decide +kernel, by decide +kernel, by decide +kernel, by decide +kernel, by decide +kernel⟩⟩
theorem witness_RetentionAndSelfTest_9_a : ∃ (r : PostRes) (c : Nat) (s : State),
    s.postRes = some r ∧ s.inReset = false ∧ s.scanOn = false ∧ (r.memRes = Config.goldenPostMem ∨ r.bad.any (fun b => decide (8 ≤ b.2.2.1)) = true ∨ r.hold = true ∨ r.tmem = true ∨ r.sram = true) ∧ r.rows = [] ∧ (c = 2 ∧ 2 ≤ (badSlices r).length ∧ r.hold = false ∧ r.tmem = false ∧ r.sram = false ∨ c = 3 ∧ r.bad = [] ∧ r.hold = true ∧ r.tmem = false ∧ r.sram = false ∨ c = 4 ∧ r.bad = [] ∧ r.hold = false ∧ r.tmem = true ∧ r.sram = false ∨ c = 5 ∧ r.bad = [] ∧ r.hold = false ∧ r.tmem = false ∧ r.sram = true ∨ c = 6 ∧ (badSlices r).length = 1 ∧ fuse s Fuse.STRICT_POST = true ∧ r.hold = false ∧ r.tmem = false ∧ r.sram = false) ∧ s.evq.length < 16 :=
  ⟨{ memRes := Config.goldenPostMem, bad := [(9, 1, 3, 9), (12, 1, 5, 9)], rows := [], hold := false, tmem := false, sram := false, dur := 7 }, 2, { up with postRun := true, postRes := some { memRes := Config.goldenPostMem, bad := [(9, 1, 3, 9), (12, 1, 5, 9)], rows := [], hold := false, tmem := false, sram := false, dur := 7 } }, ⟨rfl, by decide +kernel, by decide +kernel, .inl rfl, by decide +kernel, by decide +kernel, by decide +kernel⟩⟩
theorem witness_RetentionAndSelfTest_9_b : ∃ (r : PostRes) (c : Nat) (s : State),
    s.postRes = some r ∧ s.inReset = false ∧ s.scanOn = false ∧ (r.memRes = Config.goldenPostMem ∨ r.bad.any (fun b => decide (8 ≤ b.2.2.1)) = true ∨ r.hold = true ∨ r.tmem = true ∨ r.sram = true) ∧ r.rows = [] ∧ (c = 2 ∧ 2 ≤ (badSlices r).length ∧ r.hold = false ∧ r.tmem = false ∧ r.sram = false ∨ c = 3 ∧ r.bad = [] ∧ r.hold = true ∧ r.tmem = false ∧ r.sram = false ∨ c = 4 ∧ r.bad = [] ∧ r.hold = false ∧ r.tmem = true ∧ r.sram = false ∨ c = 5 ∧ r.bad = [] ∧ r.hold = false ∧ r.tmem = false ∧ r.sram = true ∨ c = 6 ∧ (badSlices r).length = 1 ∧ fuse s Fuse.STRICT_POST = true ∧ r.hold = false ∧ r.tmem = false ∧ r.sram = false) ∧ s.evq.length < 16 :=
  ⟨{ memRes := Config.goldenPostMem, bad := [], rows := [], hold := true, tmem := false, sram := false, dur := 7 }, 3, { up with postRun := true, postRes := some { memRes := Config.goldenPostMem, bad := [], rows := [], hold := true, tmem := false, sram := false, dur := 7 } }, ⟨rfl, by decide +kernel, by decide +kernel, .inl rfl, by decide +kernel, by decide +kernel, by decide +kernel⟩⟩
theorem witness_RetentionAndSelfTest_9_c : ∃ (r : PostRes) (c : Nat) (s : State),
    s.postRes = some r ∧ s.inReset = false ∧ s.scanOn = false ∧ (r.memRes = Config.goldenPostMem ∨ r.bad.any (fun b => decide (8 ≤ b.2.2.1)) = true ∨ r.hold = true ∨ r.tmem = true ∨ r.sram = true) ∧ r.rows = [] ∧ (c = 2 ∧ 2 ≤ (badSlices r).length ∧ r.hold = false ∧ r.tmem = false ∧ r.sram = false ∨ c = 3 ∧ r.bad = [] ∧ r.hold = true ∧ r.tmem = false ∧ r.sram = false ∨ c = 4 ∧ r.bad = [] ∧ r.hold = false ∧ r.tmem = true ∧ r.sram = false ∨ c = 5 ∧ r.bad = [] ∧ r.hold = false ∧ r.tmem = false ∧ r.sram = true ∨ c = 6 ∧ (badSlices r).length = 1 ∧ fuse s Fuse.STRICT_POST = true ∧ r.hold = false ∧ r.tmem = false ∧ r.sram = false) ∧ s.evq.length < 16 :=
  ⟨{ memRes := Config.goldenPostMem, bad := [], rows := [], hold := false, tmem := true, sram := false, dur := 7 }, 4, { up with postRun := true, postRes := some { memRes := Config.goldenPostMem, bad := [], rows := [], hold := false, tmem := true, sram := false, dur := 7 } }, ⟨rfl, by decide +kernel, by decide +kernel, .inl rfl, by decide +kernel, by decide +kernel, by decide +kernel⟩⟩
theorem witness_RetentionAndSelfTest_9_d : ∃ (r : PostRes) (c : Nat) (s : State),
    s.postRes = some r ∧ s.inReset = false ∧ s.scanOn = false ∧ (r.memRes = Config.goldenPostMem ∨ r.bad.any (fun b => decide (8 ≤ b.2.2.1)) = true ∨ r.hold = true ∨ r.tmem = true ∨ r.sram = true) ∧ r.rows = [] ∧ (c = 2 ∧ 2 ≤ (badSlices r).length ∧ r.hold = false ∧ r.tmem = false ∧ r.sram = false ∨ c = 3 ∧ r.bad = [] ∧ r.hold = true ∧ r.tmem = false ∧ r.sram = false ∨ c = 4 ∧ r.bad = [] ∧ r.hold = false ∧ r.tmem = true ∧ r.sram = false ∨ c = 5 ∧ r.bad = [] ∧ r.hold = false ∧ r.tmem = false ∧ r.sram = true ∨ c = 6 ∧ (badSlices r).length = 1 ∧ fuse s Fuse.STRICT_POST = true ∧ r.hold = false ∧ r.tmem = false ∧ r.sram = false) ∧ s.evq.length < 16 :=
  ⟨{ memRes := Config.goldenPostMem, bad := [], rows := [], hold := false, tmem := false, sram := true, dur := 7 }, 5, { up with postRun := true, postRes := some { memRes := Config.goldenPostMem, bad := [], rows := [], hold := false, tmem := false, sram := true, dur := 7 } }, ⟨rfl, by decide +kernel, by decide +kernel, .inl rfl, by decide +kernel, by decide +kernel, by decide +kernel⟩⟩
theorem witness_RetentionAndSelfTest_9_f : ∃ (r : PostRes) (c : Nat) (s : State),
    s.postRes = some r ∧ s.inReset = false ∧ s.scanOn = false ∧ (r.memRes = Config.goldenPostMem ∨ r.bad.any (fun b => decide (8 ≤ b.2.2.1)) = true ∨ r.hold = true ∨ r.tmem = true ∨ r.sram = true) ∧ r.rows = [] ∧ (c = 2 ∧ 2 ≤ (badSlices r).length ∧ r.hold = false ∧ r.tmem = false ∧ r.sram = false ∨ c = 3 ∧ r.bad = [] ∧ r.hold = true ∧ r.tmem = false ∧ r.sram = false ∨ c = 4 ∧ r.bad = [] ∧ r.hold = false ∧ r.tmem = true ∧ r.sram = false ∨ c = 5 ∧ r.bad = [] ∧ r.hold = false ∧ r.tmem = false ∧ r.sram = true ∨ c = 6 ∧ (badSlices r).length = 1 ∧ fuse s Fuse.STRICT_POST = true ∧ r.hold = false ∧ r.tmem = false ∧ r.sram = false) ∧ s.evq.length < 16 :=
  ⟨{ memRes := [1], bad := [], rows := [], hold := false, tmem := false, sram := true, dur := 7 }, 5, { up with postRun := true, postRes := some { memRes := [1], bad := [], rows := [], hold := false, tmem := false, sram := true, dur := 7 } }, ⟨rfl, by decide +kernel, by decide +kernel, .inr (by decide +kernel), by decide +kernel, by decide +kernel, by decide +kernel⟩⟩
theorem witness_RetentionAndSelfTest_9_e : ∃ (r : PostRes) (c : Nat) (s : State),
    s.postRes = some r ∧ s.inReset = false ∧ s.scanOn = false ∧ (r.memRes = Config.goldenPostMem ∨ r.bad.any (fun b => decide (8 ≤ b.2.2.1)) = true ∨ r.hold = true ∨ r.tmem = true ∨ r.sram = true) ∧ r.rows = [] ∧ (c = 2 ∧ 2 ≤ (badSlices r).length ∧ r.hold = false ∧ r.tmem = false ∧ r.sram = false ∨ c = 3 ∧ r.bad = [] ∧ r.hold = true ∧ r.tmem = false ∧ r.sram = false ∨ c = 4 ∧ r.bad = [] ∧ r.hold = false ∧ r.tmem = true ∧ r.sram = false ∨ c = 5 ∧ r.bad = [] ∧ r.hold = false ∧ r.tmem = false ∧ r.sram = true ∨ c = 6 ∧ (badSlices r).length = 1 ∧ fuse s Fuse.STRICT_POST = true ∧ r.hold = false ∧ r.tmem = false ∧ r.sram = false) ∧ s.evq.length < 16 :=
  ⟨{ memRes := Config.goldenPostMem, bad := [(9, 1, 3, 9), (9, 1, 5, 9)], rows := [], hold := false, tmem := false, sram := false, dur := 7 }, 6, { ({ up with fusesSensed := up.fusesSensed ||| 2 ^ Fuse.STRICT_POST }) with postRun := true, postRes := some { memRes := Config.goldenPostMem, bad := [(9, 1, 3, 9), (9, 1, 5, 9)], rows := [], hold := false, tmem := false, sram := false, dur := 7 } }, ⟨rfl, by decide +kernel, by decide +kernel, .inl rfl, by decide +kernel, by decide +kernel, by decide +kernel⟩⟩
theorem witness_TurnsAndRepair_1 : ∃ (u : Fin 64) (v : W) (s : State),
    v.bit 0 = true ∧ taVtrans s u = true ∧ fstate s ≠ 2 ∧ tileState s u ≠ 3 :=
  ⟨9, 1, setFld up (taReg 9 Off.PWR_TA_STAT) 4 1 1, by decide +kernel⟩
theorem witness_TurnsAndRepair_2_a : ∃ (u : Fin 64) (v : W) (s : State),
    v.bit 0 = true ∧ taVtrans s u = false ∧ v.fld 1 3 < 2 ∧ mayTurnSlice s u (v.fld 4 4) = true ∧ fstate s ≠ 2 ∧ tileState s u ≠ 3 :=
  ⟨9, (1 ||| W.at 1 3 1 ||| W.at 4 4 3), up.setReg (taReg 9 Off.BST_TA_LOAD) (W.at 14 1 1), by decide +kernel⟩
theorem witness_TurnsAndRepair_2_b : ∃ (u : Fin 64) (v : W) (s : State),
    v.bit 0 = true ∧ taVtrans s u = false ∧ v.fld 1 3 < 2 ∧ mayTurnSlice s u (v.fld 4 4) = true ∧ fstate s ≠ 2 ∧ tileState s u ≠ 3 :=
  ⟨9, (1 ||| W.at 1 3 0 ||| W.at 4 4 11), up.setReg (taReg 9 Off.BST_TA_LOAD) (W.at 14 1 1), by decide +kernel⟩
theorem witness_TurnsAndRepair_3 : ∃ (u : Fin 64) (v : W) (s : State),
    v.bit 0 = true ∧ taVtrans s u = false ∧ 2 ≤ v.fld 1 3 ∧ mayTurnBank s u (v.fld 1 3 - 2) (v.fld 4 4) = true ∧ fstate s ≠ 2 ∧ tileState s u ≠ 3 :=
  ⟨9, (1 ||| W.at 1 3 4 ||| W.at 4 4 3), setFld (up.setReg (taReg 9 Off.BST_TA_LOAD) (W.at 15 1 1)) (tmemReg 9 Off.TMEM_BANK_MAP) 0 4 2, by decide +kernel⟩
theorem witness_TurnsAndRepair_4_a : ∃ (u : Fin 64) (v : W) (s : State),
    v.bit 0 = true ∧ taVtrans s u = false ∧ (v.fld 1 3 < 2 ∧ mayTurnSlice s u (v.fld 4 4) = false ∨ 2 ≤ v.fld 1 3 ∧ mayTurnBank s u (v.fld 1 3 - 2) (v.fld 4 4) = false) ∧ fstate s ≠ 2 ∧ tileState s u ≠ 3 :=
  ⟨9, (1 ||| W.at 1 3 1 ||| W.at 4 4 3), up, by decide +kernel⟩
theorem witness_TurnsAndRepair_4_b : ∃ (u : Fin 64) (v : W) (s : State),
    v.bit 0 = true ∧ taVtrans s u = false ∧ (v.fld 1 3 < 2 ∧ mayTurnSlice s u (v.fld 4 4) = false ∨ 2 ≤ v.fld 1 3 ∧ mayTurnBank s u (v.fld 1 3 - 2) (v.fld 4 4) = false) ∧ fstate s ≠ 2 ∧ tileState s u ≠ 3 :=
  ⟨9, (1 ||| W.at 1 3 4 ||| W.at 4 4 3), up, by decide +kernel⟩
theorem witness_TurnsAndRepair_5 : ∃ (u : Fin 64) (x : Nar) (s : State),
    (s.ta u).nar = some x ∧ narrowReady s u = false ∧ x.why = .repair ∧ x.slow = false ∧ s.evq.length < 16 :=
  ⟨9, { sl := 1, why := .repair, since := 0 }, (up.setTa 9 { nar := some { sl := 1, why := .repair, since := 0 } }).setRt 9 { resync := [{ port := (inputPorts 9).head?.getD 0, half := true }] }, by decide +kernel⟩
theorem witness_TurnsAndRepair_6 : ∃ (u : Fin 64) (x : Nar) (s : State),
    (s.ta u).nar = some x ∧ narrowReady s u = false ∧ x.why = .slim ∧ x.sl < 2 :=
  ⟨9, { sl := 1, why := .slim, since := 0 }, (up.setTa 9 { nar := some { sl := 1, why := .slim, since := 0 } }).setRt 9 { resync := [{ port := (inputPorts 9).head?.getD 0, half := true }] }, by decide +kernel⟩
theorem witness_TurnsAndRepair_7 : ∃ (u : Fin 64) (x : Nar) (y : Turn) (s : State),
    (s.ta u).nar = some x ∧ narrowReady s u = false ∧ x.why = .turn ∧ x.sl < 2 ∧ (s.ta u).turn = some y ∧ y.unit < 8 :=
  ⟨9, { sl := 1, why := .turn, since := 0 }, { unit := 1, part := 3, phase := .narrowing }, (up.setTa 9 { nar := some { sl := 1, why := .turn, since := 0 }, turn := some { unit := 1, part := 3, phase := .narrowing } }).setRt 9 { resync := [{ port := (inputPorts 9).head?.getD 0, half := true }] }, by decide +kernel⟩
theorem witness_TurnsAndRepair_8_a : ∃ (u : Fin 64) (y : Turn) (m : W) (code : Nat) (s : State) (c : Instr),
    (c = .partDone u m ∧ m = goldenOf y.unit y.part ∧ code = 1 ∨ c = .turnAbandon u ∧ m = Config.freeWord s.freeN ∧ code = 3) ∧ (s.ta u).turn = some y ∧ y.phase = .testing ∧ y.unit < 2 :=
  ⟨9, { unit := 1, part := 3, phase := .testing }, goldenOf 1 3, 1, up.setTa 9 { turn := some { unit := 1, part := 3, phase := .testing } }, .partDone 9 (goldenOf 1 3), ⟨Or.inl ⟨rfl, rfl, rfl⟩, by decide +kernel, by decide +kernel, by decide +kernel⟩⟩
theorem witness_TurnsAndRepair_8_b : ∃ (u : Fin 64) (y : Turn) (m : W) (code : Nat) (s : State) (c : Instr),
    (c = .partDone u m ∧ m = goldenOf y.unit y.part ∧ code = 1 ∨ c = .turnAbandon u ∧ m = Config.freeWord s.freeN ∧ code = 3) ∧ (s.ta u).turn = some y ∧ y.phase = .testing ∧ y.unit < 2 :=
  ⟨9, { unit := 0, part := 3, phase := .testing }, Config.freeWord (up.setTa 9 { turn := some { unit := 0, part := 3, phase := .testing } } : State).freeN, 3, up.setTa 9 { turn := some { unit := 0, part := 3, phase := .testing } }, .turnAbandon 9, ⟨Or.inr ⟨rfl, rfl, rfl⟩, by decide +kernel, by decide +kernel, by decide +kernel⟩⟩
theorem witness_TurnsAndRepair_9_a : ∃ (u : Fin 64) (y : Turn) (m : W) (code : Nat) (s : State) (c : Instr),
    (c = .partDone u m ∧ m = goldenOf y.unit y.part ∧ code = 1 ∨ c = .turnAbandon u ∧ m = Config.freeWord s.freeN ∧ code = 3) ∧ (s.ta u).turn = some y ∧ y.phase = .testing ∧ 2 ≤ y.unit ∧ y.unit < 8 ∧ y.part < 12 :=
  ⟨9, { unit := 4, part := 3, phase := .testing }, goldenOf 4 3, 1, up.setTa 9 { turn := some { unit := 4, part := 3, phase := .testing } }, .partDone 9 (goldenOf 4 3), ⟨Or.inl ⟨rfl, rfl, rfl⟩, by decide +kernel, by decide +kernel, by decide +kernel, by decide +kernel, by decide +kernel⟩⟩
theorem witness_TurnsAndRepair_9_b : ∃ (u : Fin 64) (y : Turn) (m : W) (code : Nat) (s : State) (c : Instr),
    (c = .partDone u m ∧ m = goldenOf y.unit y.part ∧ code = 1 ∨ c = .turnAbandon u ∧ m = Config.freeWord s.freeN ∧ code = 3) ∧ (s.ta u).turn = some y ∧ y.phase = .testing ∧ 2 ≤ y.unit ∧ y.unit < 8 ∧ y.part < 12 :=
  ⟨9, { unit := 5, part := 2, phase := .testing }, Config.freeWord (up.setTa 9 { turn := some { unit := 5, part := 2, phase := .testing } } : State).freeN, 3, up.setTa 9 { turn := some { unit := 5, part := 2, phase := .testing } }, .turnAbandon 9, ⟨Or.inr ⟨rfl, rfl, rfl⟩, by decide +kernel, by decide +kernel, by decide +kernel, by decide +kernel, by decide +kernel⟩⟩
theorem witness_TurnsAndRepair_10_a : ∃ (u : Fin 64) (y : Turn) (m : W) (s : State),
    (s.ta u).turn = some y ∧ y.phase = .testing ∧ y.unit < 8 ∧ m ≠ goldenOf y.unit y.part ∧ s.evq.length < 16 ∧ (2 ≤ y.unit → (s.tmc u).migWait = []) :=
  ⟨9, { unit := 4, part := 3, phase := .testing }, goldenOf 4 3 + 1, up.setTa 9 { turn := some { unit := 4, part := 3, phase := .testing } }, ⟨by decide +kernel, by decide +kernel, by decide +kernel, by simp [goldenOf], by decide +kernel⟩⟩
theorem witness_TurnsAndRepair_10_b : ∃ (u : Fin 64) (y : Turn) (m : W) (s : State),
    (s.ta u).turn = some y ∧ y.phase = .testing ∧ y.unit < 8 ∧ m ≠ goldenOf y.unit y.part ∧ s.evq.length < 16 ∧ (2 ≤ y.unit → (s.tmc u).migWait = []) :=
  ⟨9, { unit := 1, part := 11, phase := .testing }, goldenOf 1 11 + 1, up.setTa 9 { turn := some { unit := 1, part := 11, phase := .testing } }, ⟨by decide +kernel, by decide +kernel, by decide +kernel, by simp [goldenOf], by decide +kernel⟩⟩
theorem witness_TurnsAndRepair_11_a : ∃ (u : Fin 64) (sl : Nat) (s : State),
    (s.ta u).wide = some sl ∧ sl < 2 ∧ widenHeld s u = false ∧ tileDark s u = false ∧ (∀ y, (s.ta u).turn = some y → y.phase ≠ .closing) :=
  ⟨9, 1, (setFld up (slcReg 9 1 Off.SLC_STAT) 0 3 4).setTa 9 { wide := some 1 }, by decide +kernel⟩
theorem witness_TurnsAndRepair_11_b : ∃ (u : Fin 64) (sl : Nat) (s : State),
    (s.ta u).wide = some sl ∧ sl < 2 ∧ widenHeld s u = false ∧ tileDark s u = false ∧ (∀ y, (s.ta u).turn = some y → y.phase ≠ .closing) :=
  ⟨9, 0, (setFld (setFld up (slcReg 9 0 Off.SLC_STAT) 0 3 3) (taReg 9 Off.PWR_TA_STAT) 0 3 1).setTa 9 { wide := some 0 }, by decide +kernel⟩
theorem witness_TurnsAndRepair_12 : ∃ (u : Fin 64) (sl : Nat) (y : Turn) (s : State),
    (s.ta u).wide = some sl ∧ sl < 2 ∧ widenHeld s u = false ∧ tileDark s u = false ∧ (s.ta u).turn = some y ∧ y.phase = .closing ∧ y.unit < 8 ∧ y.part < 12 :=
  ⟨9, 1, { unit := 1, part := 3, phase := .closing }, (setFld up (slcReg 9 1 Off.SLC_STAT) 0 3 1).setTa 9 { turn := some { unit := 1, part := 3, phase := .closing }, wide := some 1 }, by decide +kernel⟩
theorem witness_TurnsAndRepair_13 : ∃ (u : Fin 64) (sl : Fin 2) (ms : List W) (s : State),
    sliceState s u sl = 4 ∧ (s.ta u).wide ≠ some sl.val ∧ (s.ta u).wideQ.contains sl.val = false ∧ (∀ i < 12, wordAt ms i = Config.goldenTurn i) :=
  ⟨9, 1, (List.range 12).map Config.goldenTurn, setFld up (slcReg 9 1 Off.SLC_STAT) 0 3 4, ⟨by decide +kernel, by decide +kernel, by decide +kernel, fun i h => by simp [wordAt, h]⟩⟩
theorem witness_TurnsAndRepair_14 : ∃ (u : Fin 64) (sl : Fin 2) (ms : List W) (s : State),
    sliceState s u sl = 4 ∧ (s.ta u).wide ≠ some sl.val ∧ (s.ta u).wideQ.contains sl.val = false ∧ (∃ i < 12, wordAt ms i ≠ Config.goldenTurn i) ∧ s.evq.length < 16 :=
  ⟨9, 1, [Config.goldenTurn 0 + 1], setFld up (slcReg 9 1 Off.SLC_STAT) 0 3 4, ⟨by decide +kernel, by decide +kernel, by decide +kernel, ⟨0, by decide, by simp [wordAt]⟩, by decide +kernel⟩⟩
theorem witness_TurnsAndRepair_15 : ∃ (u : Fin 64) (sl : Fin 2) (s : State),
    tileDark s u = false ∧ sliceIn s u sl = false ∧ eventPasses s (.rtr u) :=
  ⟨9, 1, setFld up (slcReg 9 1 Off.SLC_STAT) 0 3 3, by decide +kernel⟩
theorem witness_TurnsAndRepair_16_a : ∃ (u : Fin 64) (sl : Fin 2) (s : State),
    tileDark s u = false ∧ sliceIn s u sl = true ∧ sliceIn s u (1 - sl.val) = true ∧ (s.rt u).inq = [] ∧ (s.rt u).trail = [] ∧ (∀ v ∈ neighbours u, (s.rt v).trail = []) ∧ (s.ta u).turn = none ∧ eventPasses s (.rtr u) :=
  ⟨9, 1, up, by decide +kernel⟩
theorem witness_TurnsAndRepair_16_b : ∃ (u : Fin 64) (sl : Fin 2) (s : State),
    tileDark s u = false ∧ sliceIn s u sl = true ∧ sliceIn s u (1 - sl.val) = true ∧ (s.rt u).inq = [] ∧ (s.rt u).trail = [] ∧ (∀ v ∈ neighbours u, (s.rt v).trail = []) ∧ (s.ta u).turn = none ∧ eventPasses s (.rtr u) :=
  ⟨9, 0, up, by decide +kernel⟩
theorem witness_TurnsAndRepair_17_a : ∃ (u : Fin 64) (sl : Fin 2) (s : State),
    tileDark s u = false ∧ sliceIn s u sl = true ∧ sliceIn s u (1 - sl.val) = false ∧ (s.rt u).inq = [] ∧ (s.rt u).trail = [] ∧ (s.ta u).turn = none ∧ eventPasses s (.rtr u) ∧ (s.ta u).entering = none :=
  ⟨9, 1, setFld up (slcReg 9 0 Off.SLC_STAT) 0 3 3, by decide +kernel⟩
theorem witness_TurnsAndRepair_17_b : ∃ (u : Fin 64) (sl : Fin 2) (s : State),
    tileDark s u = false ∧ sliceIn s u sl = true ∧ sliceIn s u (1 - sl.val) = false ∧ (s.rt u).inq = [] ∧ (s.rt u).trail = [] ∧ (s.ta u).turn = none ∧ eventPasses s (.rtr u) ∧ (s.ta u).entering = none :=
  ⟨9, 0, setFld up (slcReg 9 1 Off.SLC_STAT) 0 3 2, by decide +kernel⟩
theorem witness_TurnsAndRepair_18 : ∃ (u : Fin 64) (v : Fin 8) (s : State),
    fwNormal s = true ∧ isStale s u v = true ∧ tileState s u ≠ 2 ∧ s.evq.length < 16 :=
  ⟨9, 3, { fw0 with ft := 2 ^ 80 }, by decide +kernel⟩
theorem witness_TurnsAndRepair_19 : ∃ (u : Fin 64) (sl : Fin 2) (s : State),
    fwNormal s = true ∧ s.jobs = [] ∧ ((∀ v < 64, sessionOver s v = false)) ∧ s.placed = [(u.val, sl.val)] ∧ eligible s u sl = true ∧ taGear s u = false ∧ instHalf s u = false ∧ ((∀ x ∈ unitsFrom true 0, (unitDone s x.1 x.2 = true ∨ regBit s (taReg x.1 Off.BST_TA_LOAD) 15 = false))) ∧ ((∃ x ∈ unitsFrom true 0, unitDone s x.1 x.2 = false)) :=
  ⟨9, 1, { fw0.setReg (taReg 9 Off.BST_TA_LOAD) (W.at 14 1 1) with placed := [(9, 1)] }, by decide +kernel⟩
theorem witness_TrainingScanAndRecords_1_a : ∃ (u : Fin 64) (sl : Fin 2) (i : Fin 16) (s : State),
    isLink u i = true ∧ fstate s ≠ 2 ∧ tileDark s u = false ∧ guardPasses s (activeCore s) = true ∧ coresIdle s :=
  ⟨9, 1, (if 9 % 8 = 1 then 3 else 1), up, by decide +kernel⟩
theorem witness_TrainingScanAndRecords_1_b : ∃ (u : Fin 64) (sl : Fin 2) (i : Fin 16) (s : State),
    isLink u i = true ∧ fstate s ≠ 2 ∧ tileDark s u = false ∧ guardPasses s (activeCore s) = true ∧ coresIdle s :=
  ⟨9, 0, (if 9 % 8 = 1 then 3 else 1), up.setReg (slcReg 9 0 (Off.LNK_CTRL (if 9 % 8 = 1 then 3 else 1))) 1, by decide +kernel⟩
theorem witness_TrainingScanAndRecords_2_a : ∃ (u : Fin 64) (sl : Fin 2) (i : Fin 16) (bad : Option (Fin 312)) (s : State),
    isLink u i = true ∧ regBit s (slcReg (across u i) sl (Off.LNK_STAT (portTo (across u i) u))) 2 = true :=
  ⟨9, 1, (if 9 % 8 = 1 then 3 else 1), none, up.setReg (slcReg (across 9 (if 9 % 8 = 1 then 3 else 1)) 1 (Off.LNK_STAT (portTo (across 9 (if 9 % 8 = 1 then 3 else 1)) 9))) 15, by decide +kernel⟩
theorem witness_TrainingScanAndRecords_2_b : ∃ (u : Fin 64) (sl : Fin 2) (i : Fin 16) (bad : Option (Fin 312)) (s : State),
    isLink u i = true ∧ regBit s (slcReg (across u i) sl (Off.LNK_STAT (portTo (across u i) u))) 2 = true :=
  ⟨9, 1, (if 9 % 8 = 1 then 3 else 1), some 5, up.setReg (slcReg (across 9 (if 9 % 8 = 1 then 3 else 1)) 1 (Off.LNK_STAT (portTo (across 9 (if 9 % 8 = 1 then 3 else 1)) 9))) 4, by decide +kernel⟩
theorem witness_TrainingScanAndRecords_3_a : ∃ (s : State),
    inFabRst s = false ∧ s.scanOn = false ∧ s.scanReq = false ∧ regBit s (bstReg Off.BST_ZERO_STAT) 0 = false :=
  ⟨fw0.setTa 9 { turn := some { unit := 1, part := 3, phase := .testing } }, by decide +kernel⟩
theorem witness_TrainingScanAndRecords_3_b : ∃ (s : State),
    inFabRst s = false ∧ s.scanOn = false ∧ s.scanReq = false ∧ regBit s (bstReg Off.BST_ZERO_STAT) 0 = false :=
  ⟨fw0.setTa 9 { nar := some { sl := 1, why := .slim, since := 3 }, wide := some 1 }, by decide +kernel⟩
theorem witness_TrainingScanAndRecords_4 : ∃ (s : State),
    s.scanOn = true ∧ regBit s (bstReg Off.BST_ZERO_STAT) 0 = true ∧ (s.scanReq = false ∨ s.scanFell = false) :=
  ⟨{ ((fw0.setReg (bstReg Off.BST_ZERO_STAT) 1).setWord (mbxArea 0 5) 7).setNi 8 { hold := [{ fid := 1, addr := 0x200000000, data := [7], last := true }] } with scanOn := true, scanReq := true }, by decide +kernel⟩
theorem witness_TrainingScanAndRecords_5_a : ∃ (c : Fin 2) (s : State),
    (s.core c).run = true ∧ (s.core c).halted = false :=
  ⟨0, fw0, by decide +kernel⟩
theorem witness_TrainingScanAndRecords_5_b : ∃ (c : Fin 2) (s : State),
    (s.core c).run = true ∧ (s.core c).halted = false :=
  ⟨0, fw0.setReg (dbgReg Off.DBG_FREEZE_LEASE) 1, by decide +kernel⟩
theorem witness_TrainingScanAndRecords_6_a : ∃ (c : Fin 2) (s : State),
    (s.core c).halted = true ∧ regBit s (dbgReg Off.DBG_HALT) c = false ∧ frozen s 0 (coreNode s c) = false :=
  ⟨0, (fw0.setCore 0 { run := true, halted := true, haltUsec := 5 }).setReg (niReg 6 Off.NI_RES_STAT) 17, by decide +kernel⟩
theorem witness_TrainingScanAndRecords_6_b : ∃ (c : Fin 2) (s : State),
    (s.core c).halted = true ∧ regBit s (dbgReg Off.DBG_HALT) c = false ∧ frozen s 0 (coreNode s c) = false :=
  ⟨0, ((fw0.setCore 0 { run := true, halted := true, haltUsec := 5 }).setReg (niReg 6 Off.NI_RES_STAT) 17).setReg (dbgReg Off.DBG_FREEZE_LEASE) 1, by decide +kernel⟩
theorem witness_TrainingScanAndRecords_7_a : ∃ (c : Fin 2) (s : State),
    (s.core c).halted = true ∧ regBit s (dbgReg Off.DBG_HALT) c = false ∧ frozen s 0 (coreNode s c) = true ∧ s.inv :=
  ⟨0, { forEach (fun t st => setBit st (epochReg t (coreNode st 0)) 8 true) (List.range 64) ((((fw0.setCore 0 { run := true, halted := true, haltUsec := 5 }).setWord (tmemAddr 9 4) (lkWord (coreNode up 0) 0 true false)).setWord (tmemAddr 9 5) (W.at 0 20 7 ||| W.at 20 16 9))) with ft := 2 ^ 60 }, ⟨by decide +kernel, by decide +kernel, by decide +kernel, by unfold State.inv; decide +kernel⟩⟩
theorem witness_TrainingScanAndRecords_7_b : ∃ (c : Fin 2) (s : State),
    (s.core c).halted = true ∧ regBit s (dbgReg Off.DBG_HALT) c = false ∧ frozen s 0 (coreNode s c) = true ∧ s.inv :=
  ⟨0, { setBit (((((fw0.setCore 0 { run := true, halted := true, haltUsec := 5 }).setWord (tmemAddr 0 4) (lkWord (coreNode up 0) 0 true false)).setWord (tmemAddr 0 5) (W.at 0 20 7 ||| W.at 20 16 9))).setReg (niReg 6 Off.NI_RES_STAT) 17) (epochReg 0 (coreNode up 0)) 8 true with ft := 2 ^ 60 }, ⟨by decide +kernel, by decide +kernel, by decide +kernel, by unfold State.inv; decide +kernel⟩⟩
theorem witness_TrainingScanAndRecords_8 : ∃ (e : Ev) (q : List Ev) (i : Nat) (s : State),
    s.inReset = false ∧ fstate s ≠ 2 ∧ s.evLost = 0 ∧ s.evq = e :: q ∧ copyUp s 0 = true ∧ copyUp s 1 = true ∧ e.cont = none ∧ e.sev < 4 ∧ e.code ≠ EvC.PAD.code ∧ e.code ≠ EvC.FLOOD.code ∧ regBit s (evlReg (Off.EVL_IRQ_ROUTE e.sev)) 4 = false ∧ ringPos s = i :=
  ⟨{ ftH := 1, ftL := 2, node := 3, code := 7, sev := 1, arg := 9 }, [], 4095, { (up.setReg (evlReg Off.EVL_WR_POS) 4095).setReg (evlReg (Off.EVL_IRQ_ROUTE 1)) 0 with evq := [{ ftH := 1, ftL := 2, node := 3, code := 7, sev := 1, arg := 9 }] }, by decide +kernel⟩
theorem witness_TrainingScanAndRecords_9 : ∃ (e : Ev) (q : List Ev) (i : Nat) (v0 : W) (v1 : W) (v2 : W) (v3 : W) (s : State),
    s.inReset = false ∧ fstate s ≠ 2 ∧ s.evLost = 0 ∧ s.evq = e :: q ∧ copyUp s 0 = true ∧ copyUp s 1 = true ∧ e.cont = some [v0, v1, v2, v3] ∧ e.sev < 4 ∧ e.code ≠ EvC.PAD.code ∧ e.code ≠ EvC.FLOOD.code ∧ regBit s (evlReg (Off.EVL_IRQ_ROUTE e.sev)) 4 = false ∧ ringPos s = 2 * i :=
  ⟨{ ftH := 1, ftL := 2, node := 3, code := 7, sev := 1, arg := 9, cont := some [5, 6, 7, 8] }, [], 2047, 5, 6, 7, 8, { (up.setReg (evlReg Off.EVL_WR_POS) 4094).setReg (evlReg (Off.EVL_IRQ_ROUTE 1)) 0 with evq := [{ ftH := 1, ftL := 2, node := 3, code := 7, sev := 1, arg := 9, cont := some [5, 6, 7, 8] }] }, by decide +kernel⟩
theorem witness_TrainingScanAndRecords_10 : ∃ (e : Ev) (q : List Ev) (s : State),
    s.inReset = false ∧ fstate s ≠ 2 ∧ s.evq = e :: q ∧ copyUp s 0 = false ∧ copyUp s 1 = false :=
  ⟨{ ftH := 1, ftL := 2, node := 3, code := 7, sev := 1, arg := 9 }, [], { setFld (setFld up (taReg 0 Off.PWR_TA_STAT) 0 3 3) (taReg 63 Off.PWR_TA_STAT) 0 3 3 with evq := [{ ftH := 1, ftL := 2, node := 3, code := 7, sev := 1, arg := 9 }] }, by decide +kernel⟩
theorem witness_TrainingScanAndRecords_11 : ∃ (c : Fin 2) (i : Nat) (s : State),
    mirrorStat s c = 2 ∧ getFld s (evlReg (Off.EVL_MIRROR c)) 2 12 = i ∧ getFld s (evlReg (Off.EVL_MIRROR c)) 14 12 = i ∧ regBit s (evlReg (Off.EVL_MIRROR c)) 26 = false ∧ copyUp s 0 = true ∧ copyUp s 1 = true ∧ c.val ∉ s.mirrorNone :=
  ⟨1, 5, (up.setReg (evlReg (Off.EVL_MIRROR 1)) (W.at 0 2 2 ||| W.at 2 12 5 ||| W.at 14 12 5)).setWord (tmemAddr 0 (0xB000 + 20)) 7, by decide +kernel⟩
theorem witness_TrainingScanAndRecords_12_a : ∃ (a : BitVec 11) (vpp : Bool) (refused : Bool) (s : State),
    s.onCell = false ∧ s.fuseEnd ≤ s.fc ∧ a.toNat < 1120 ∧ (refused = true ↔ vpp = false ∨ 775 ≤ a.toNat ∧ a.toNat ≤ 799 ∨ a.toNat < 384 ∧ s.fuses.testBit (Fuse.ENR 0) = true ∨ 384 ≤ a.toNat ∧ a.toNat < 768 ∧ s.fuses.testBit (Fuse.ENR 1) = true ∨ 800 ≤ a.toNat ∧ s.fuses.testBit Fuse.POP_LOCK = true) :=
  ⟨3, true, false, up, by decide +kernel⟩
theorem witness_TrainingScanAndRecords_12_b : ∃ (a : BitVec 11) (vpp : Bool) (refused : Bool) (s : State),
    s.onCell = false ∧ s.fuseEnd ≤ s.fc ∧ a.toNat < 1120 ∧ (refused = true ↔ vpp = false ∨ 775 ≤ a.toNat ∧ a.toNat ≤ 799 ∨ a.toNat < 384 ∧ s.fuses.testBit (Fuse.ENR 0) = true ∨ 384 ≤ a.toNat ∧ a.toNat < 768 ∧ s.fuses.testBit (Fuse.ENR 1) = true ∨ 800 ≤ a.toNat ∧ s.fuses.testBit Fuse.POP_LOCK = true) :=
  ⟨780, true, true, up, by decide +kernel⟩
theorem witness_TrainingScanAndRecords_12_c : ∃ (a : BitVec 11) (vpp : Bool) (refused : Bool) (s : State),
    s.onCell = false ∧ s.fuseEnd ≤ s.fc ∧ a.toNat < 1120 ∧ (refused = true ↔ vpp = false ∨ 775 ≤ a.toNat ∧ a.toNat ≤ 799 ∨ a.toNat < 384 ∧ s.fuses.testBit (Fuse.ENR 0) = true ∨ 384 ≤ a.toNat ∧ a.toNat < 768 ∧ s.fuses.testBit (Fuse.ENR 1) = true ∨ 800 ≤ a.toNat ∧ s.fuses.testBit Fuse.POP_LOCK = true) :=
  ⟨3, false, true, up, by decide +kernel⟩
theorem witness_TrainingScanAndRecords_13_a : ∃ (a : BitVec 11) (vpp : Bool) (s : State),
    s.onCell = false ∧ s.fuseEnd ≤ s.fc ∧ 1120 ≤ a.toNat :=
  ⟨1200, true, up, by decide +kernel⟩
theorem witness_TrainingScanAndRecords_13_b : ∃ (a : BitVec 11) (vpp : Bool) (s : State),
    s.onCell = false ∧ s.fuseEnd ≤ s.fc ∧ 1120 ≤ a.toNat :=
  ⟨1200, false, up, by decide +kernel⟩
theorem witness_TrainingScanAndRecords_14 : ∃ (c : Fin 2) (s : State),
    mirrorStat s c = 1 ∧ copyUp s c = true ∧ s.evq.length < 16 :=
  ⟨1, up.setReg (evlReg (Off.EVL_MIRROR 1)) (W.at 0 2 1 ||| W.at 2 12 5 ||| W.at 14 12 5), by decide +kernel⟩
theorem witness_TrainingScanAndRecords_15_a : ∃ (s : State),
    (s.scanReq = true ∨ s.inReset = true ∨ regBit s (bstReg Off.BST_ZERO_STAT) 0 = true) :=
  ⟨{ up with scanReq := true, scanOn := true }, by decide +kernel⟩
theorem witness_TrainingScanAndRecords_15_b : ∃ (s : State),
    (s.scanReq = true ∨ s.inReset = true ∨ regBit s (bstReg Off.BST_ZERO_STAT) 0 = true) :=
  ⟨{ up with inReset := true }, by decide +kernel⟩
theorem witness_TrainingScanAndRecords_15_c : ∃ (s : State),
    (s.scanReq = true ∨ s.inReset = true ∨ regBit s (bstReg Off.BST_ZERO_STAT) 0 = true) :=
  ⟨{ (up.setReg (bstReg Off.BST_ZERO_STAT) 1) with scanOn := true, scanFell := true }, by decide +kernel⟩
theorem witness_TrainingScanAndRecords_16 : ∃ (a : BitVec 11) (vpp : Bool) (s : State),
    s.onCell = false ∧ s.fc < s.fuseEnd :=
  ⟨3, true, { up with fuseEnd := 9 }, by decide +kernel⟩
theorem witness_TrainingScanAndRecords_17 : ∃ (e : Ev) (q : List Ev) (i : Nat) (v0 : W) (v1 : W) (v2 : W) (v3 : W) (s : State),
    s.inReset = false ∧ fstate s ≠ 2 ∧ s.evLost = 0 ∧ s.evq = e :: q ∧ copyUp s 0 = true ∧ copyUp s 1 = true ∧ e.cont = some [v0, v1, v2, v3] ∧ e.sev < 4 ∧ e.code ≠ EvC.PAD.code ∧ e.code ≠ EvC.FLOOD.code ∧ regBit s (evlReg (Off.EVL_IRQ_ROUTE e.sev)) 4 = false ∧ ringPos s = 2 * i + 1 :=
  ⟨{ ftH := 1, ftL := 2, node := 3, code := 7, sev := 1, arg := 9, cont := some [5, 6, 7, 8] }, [], 2047, 5, 6, 7, 8, { (up.setReg (evlReg Off.EVL_WR_POS) 4095).setReg (evlReg (Off.EVL_IRQ_ROUTE 1)) 0 with evq := [{ ftH := 1, ftL := 2, node := 3, code := 7, sev := 1, arg := 9, cont := some [5, 6, 7, 8] }] }, by decide +kernel⟩
theorem witness_TrainingScanAndRecords_18 : ∃ (i : Nat) (s : State),
    s.inReset = false ∧ fstate s ≠ 2 ∧ 0 < s.evLost ∧ copyUp s 0 = true ∧ copyUp s 1 = true ∧ regBit s (evlReg (Off.EVL_IRQ_ROUTE 2)) 4 = false ∧ regBit s (evlReg (Off.EVL_IRQ_ROUTE 4)) 4 = false ∧ ringPos s = 2 * i :=
  ⟨2047, { (up.setReg (evlReg Off.EVL_WR_POS) 4094) with evLost := 3, evLostFirst := 7, evLostLast := 8, evq := [{ ftH := 1, ftL := 2, node := 3, code := 7, sev := 1, arg := 9 }] }, by decide +kernel⟩
theorem witness_TrainingScanAndRecords_19 : ∃ (i : Nat) (s : State),
    s.inReset = false ∧ fstate s ≠ 2 ∧ 0 < s.evLost ∧ copyUp s 0 = true ∧ copyUp s 1 = true ∧ regBit s (evlReg (Off.EVL_IRQ_ROUTE 2)) 4 = false ∧ regBit s (evlReg (Off.EVL_IRQ_ROUTE 4)) 4 = false ∧ ringPos s = 2 * i + 1 :=
  ⟨2047, { (up.setReg (evlReg Off.EVL_WR_POS) 4095) with evLost := 3, evLostFirst := 7, evLostLast := 8, evq := [{ ftH := 1, ftL := 2, node := 3, code := 7, sev := 1, arg := 9 }] }, by decide +kernel⟩
theorem witness_TrainingScanAndRecords_20_a : ∃ (c : Fin 2) (e : Ev) (q : List Ev) (i : Nat) (s : State),
    s.inReset = false ∧ fstate s ≠ 2 ∧ s.evLost = 0 ∧ s.evq = e :: q ∧ copyUp s c = true ∧ copyUp s (1 - c.val) = false ∧ mirrorStat s (1 - c.val) = 1 ∧ e.cont = none ∧ e.sev < 4 ∧ e.code ≠ EvC.PAD.code ∧ e.code ≠ EvC.FLOOD.code ∧ regBit s (evlReg (Off.EVL_IRQ_ROUTE e.sev)) 4 = false ∧ ringPos s = i :=
  ⟨1, { ftH := 1, ftL := 2, node := 3, code := 7, sev := 1, arg := 9 }, [], 0, { (setFld (up.setReg (evlReg (Off.EVL_MIRROR 0)) (W.at 0 2 1 ||| W.at 2 12 0 ||| W.at 14 12 4095)) (taReg 0 Off.PWR_TA_STAT) 0 3 3).setReg (evlReg (Off.EVL_IRQ_ROUTE 1)) 0 with evq := [{ ftH := 1, ftL := 2, node := 3, code := 7, sev := 1, arg := 9 }] }, by decide +kernel⟩
theorem witness_TrainingScanAndRecords_20_b : ∃ (c : Fin 2) (e : Ev) (q : List Ev) (i : Nat) (s : State),
    s.inReset = false ∧ fstate s ≠ 2 ∧ s.evLost = 0 ∧ s.evq = e :: q ∧ copyUp s c = true ∧ copyUp s (1 - c.val) = false ∧ mirrorStat s (1 - c.val) = 1 ∧ e.cont = none ∧ e.sev < 4 ∧ e.code ≠ EvC.PAD.code ∧ e.code ≠ EvC.FLOOD.code ∧ regBit s (evlReg (Off.EVL_IRQ_ROUTE e.sev)) 4 = false ∧ ringPos s = i :=
  ⟨0, { ftH := 1, ftL := 2, node := 3, code := 7, sev := 1, arg := 9 }, [], 4095, { ((setFld (up.setReg (evlReg (Off.EVL_MIRROR 1)) 1) (taReg 63 Off.PWR_TA_STAT) 0 3 3).setReg (evlReg (Off.EVL_IRQ_ROUTE 1)) 0).setReg (evlReg Off.EVL_WR_POS) 4095 with evq := [{ ftH := 1, ftL := 2, node := 3, code := 7, sev := 1, arg := 9 }], mirrorNone := [1] }, by decide +kernel⟩
theorem witness_TrainingScanAndRecords_21 : ∃ (c : Fin 2) (s : State),
    mirrorStat s c = 2 ∧ c.val ∈ s.mirrorNone ∧ regBit s (evlReg (Off.EVL_MIRROR c)) 26 = false ∧ copyUp s 0 = true ∧ copyUp s 1 = true :=
  ⟨1, { up.setReg (evlReg (Off.EVL_MIRROR 1)) 2 with mirrorNone := [1] }, by decide +kernel⟩
theorem witness_TrainingScanAndRecords_22_a : ∃ (s : State),
    s.inReset = false ∧ (s.scanOn = true ∨ s.postRun = true) ∧ s.scanReq = false ∧ regBit s (bstReg Off.BST_ZERO_STAT) 0 = false :=
  ⟨{ (up.setReg (bstReg Off.BST_ZERO_STAT) 2) with scanOn := true, safe := true }, by decide +kernel⟩
theorem witness_TrainingScanAndRecords_22_b : ∃ (s : State),
    s.inReset = false ∧ (s.scanOn = true ∨ s.postRun = true) ∧ s.scanReq = false ∧ regBit s (bstReg Off.BST_ZERO_STAT) 0 = false :=
  ⟨{ (up.setTa 9 { turn := some { unit := 1, part := 3, phase := .testing } }) with postRun := true }, by decide +kernel⟩
theorem witness_TrainingScanAndRecords_23 : ∃ (s : State),
    s.scanOn = true ∧ regBit s (bstReg Off.BST_ZERO_STAT) 0 = true ∧ s.scanReq = true ∧ s.scanFell = true :=
  ⟨{ ((fw0.setReg (bstReg Off.BST_ZERO_STAT) 9).setWord (mbxArea 0 5) 7).setNi 8 { hold := [{ fid := 1, addr := 0x200000000, data := [7], last := true }] } with scanOn := true, scanReq := true, scanFell := true }, by decide +kernel⟩
theorem witness_StepRunsCommand_1 : ∃ (c : Instr) (rest : List Instr) (s : State),
    s.pending = c :: rest :=
  ⟨.tokenRefill nA, [], { upA with pending := [.tokenRefill nA] }, rfl⟩
theorem witness_StepRunsCommand_2 : ∃ (s : State),
    s.pending = [] :=
  ⟨upA, rfl⟩
theorem witness_InvariantKept : ∃ (s : State),
    s.inv :=
  ⟨{ upA with pending := [.tokenRefill nA], evq := [mkEv 5 3 EvC.HOTSPOT []] }, by unfold State.inv; decide +kernel⟩
theorem witness_ClassClamped_1_a : ∃ (n : NiId) (h : Head) (sc : Nat) (s : State) (c : Instr),
    (c = .rd n h ∨ c = .ldres n h ∨ c = .fop n h ∨ c = .lkacq n h ∨ c = .lkrnw n h ∨ c = .lkrel n h) ∧ (h.opcN = Opc.RD ∨ h.opcN = Opc.FOP ∨ isLock h.opcN = true) ∧ sc = (if 6 ≤ h.sc.toNat then (if regBit s (niReg n.idx Off.NI_CTRL) 1 = true then h.sc.toNat else 4) else if h.sc.toNat = 5 then (if profile s n.t = 1 then 5 else 4) else h.sc.toNat) ∧ oreqTakes s n.idx h ∧ quietNi (s.ni n.idx) ∧ guardFails s n.idx (oreqPkt s n.idx h) = none ∧ sourceMiss (regionOf s h.arga) (oreqPkt s n.idx h) = false :=
  ⟨nA, { hRd with sc := 7 }, 4, upA, .rd (nA) ({ hRd with sc := 7 }), by decide +kernel⟩
theorem witness_ClassClamped_1_b : ∃ (n : NiId) (h : Head) (sc : Nat) (s : State) (c : Instr),
    (c = .rd n h ∨ c = .ldres n h ∨ c = .fop n h ∨ c = .lkacq n h ∨ c = .lkrnw n h ∨ c = .lkrel n h) ∧ (h.opcN = Opc.RD ∨ h.opcN = Opc.FOP ∨ isLock h.opcN = true) ∧ sc = (if 6 ≤ h.sc.toNat then (if regBit s (niReg n.idx Off.NI_CTRL) 1 = true then h.sc.toNat else 4) else if h.sc.toNat = 5 then (if profile s n.t = 1 then 5 else 4) else h.sc.toNat) ∧ oreqTakes s n.idx h ∧ quietNi (s.ni n.idx) ∧ guardFails s n.idx (oreqPkt s n.idx h) = none ∧ sourceMiss (regionOf s h.arga) (oreqPkt s n.idx h) = false :=
  ⟨nA, { hRd with sc := 7 }, 7, setFld upA (niReg 0 Off.NI_CTRL) 1 1 1, .rd (nA) ({ hRd with sc := 7 }), by decide +kernel⟩
theorem witness_ClassClamped_1_c : ∃ (n : NiId) (h : Head) (sc : Nat) (s : State) (c : Instr),
    (c = .rd n h ∨ c = .ldres n h ∨ c = .fop n h ∨ c = .lkacq n h ∨ c = .lkrnw n h ∨ c = .lkrel n h) ∧ (h.opcN = Opc.RD ∨ h.opcN = Opc.FOP ∨ isLock h.opcN = true) ∧ sc = (if 6 ≤ h.sc.toNat then (if regBit s (niReg n.idx Off.NI_CTRL) 1 = true then h.sc.toNat else 4) else if h.sc.toNat = 5 then (if profile s n.t = 1 then 5 else 4) else h.sc.toNat) ∧ oreqTakes s n.idx h ∧ quietNi (s.ni n.idx) ∧ guardFails s n.idx (oreqPkt s n.idx h) = none ∧ sourceMiss (regionOf s h.arga) (oreqPkt s n.idx h) = false :=
  ⟨nA, { { hRd with flg := 1 } with sc := 5 }, 5, upA, .ldres (nA) ({ { hRd with flg := 1 } with sc := 5 }), by decide +kernel⟩
theorem witness_ClassClamped_1_d : ∃ (n : NiId) (h : Head) (sc : Nat) (s : State) (c : Instr),
    (c = .rd n h ∨ c = .ldres n h ∨ c = .fop n h ∨ c = .lkacq n h ∨ c = .lkrnw n h ∨ c = .lkrel n h) ∧ (h.opcN = Opc.RD ∨ h.opcN = Opc.FOP ∨ isLock h.opcN = true) ∧ sc = (if 6 ≤ h.sc.toNat then (if regBit s (niReg n.idx Off.NI_CTRL) 1 = true then h.sc.toNat else 4) else if h.sc.toNat = 5 then (if profile s n.t = 1 then 5 else 4) else h.sc.toNat) ∧ oreqTakes s n.idx h ∧ quietNi (s.ni n.idx) ∧ guardFails s n.idx (oreqPkt s n.idx h) = none ∧ sourceMiss (regionOf s h.arga) (oreqPkt s n.idx h) = false :=
  ⟨nA, { { hRd with opc := 3, cnt := 0, words := [1] } with sc := 5 }, 5, upA, .fop (nA) ({ { hRd with opc := 3, cnt := 0, words := [1] } with sc := 5 }), by decide +kernel⟩
theorem witness_ClassClamped_1_e : ∃ (n : NiId) (h : Head) (sc : Nat) (s : State) (c : Instr),
    (c = .rd n h ∨ c = .ldres n h ∨ c = .fop n h ∨ c = .lkacq n h ∨ c = .lkrnw n h ∨ c = .lkrel n h) ∧ (h.opcN = Opc.RD ∨ h.opcN = Opc.FOP ∨ isLock h.opcN = true) ∧ sc = (if 6 ≤ h.sc.toNat then (if regBit s (niReg n.idx Off.NI_CTRL) 1 = true then h.sc.toNat else 4) else if h.sc.toNat = 5 then (if profile s n.t = 1 then 5 else 4) else h.sc.toNat) ∧ oreqTakes s n.idx h ∧ quietNi (s.ni n.idx) ∧ guardFails s n.idx (oreqPkt s n.idx h) = none ∧ sourceMiss (regionOf s h.arga) (oreqPkt s n.idx h) = false :=
  ⟨nA, { { hRd with opc := 3, cnt := 0, words := [1] } with sc := 5 }, 4, upA.setTa 0 { prof := 0 }, .fop (nA) ({ { hRd with opc := 3, cnt := 0, words := [1] } with sc := 5 }), by decide +kernel⟩
theorem witness_ClassClamped_1_f : ∃ (n : NiId) (h : Head) (sc : Nat) (s : State) (c : Instr),
    (c = .rd n h ∨ c = .ldres n h ∨ c = .fop n h ∨ c = .lkacq n h ∨ c = .lkrnw n h ∨ c = .lkrel n h) ∧ (h.opcN = Opc.RD ∨ h.opcN = Opc.FOP ∨ isLock h.opcN = true) ∧ sc = (if 6 ≤ h.sc.toNat then (if regBit s (niReg n.idx Off.NI_CTRL) 1 = true then h.sc.toNat else 4) else if h.sc.toNat = 5 then (if profile s n.t = 1 then 5 else 4) else h.sc.toNat) ∧ oreqTakes s n.idx h ∧ quietNi (s.ni n.idx) ∧ guardFails s n.idx (oreqPkt s n.idx h) = none ∧ sourceMiss (regionOf s h.arga) (oreqPkt s n.idx h) = false :=
  ⟨nA, { { hLk with opc := 6 } with sc := 5 }, 4, upA.setTa 0 { prof := 0 }, .lkrel (nA) ({ { hLk with opc := 6 } with sc := 5 }), by decide +kernel⟩
theorem witness_ClassClamped_2_a : ∃ (n : NiId) (h : Head) (sc : Nat) (s : State) (c : Instr),
    (c = .wr n h ∨ c = .stcond n h) ∧ h.opcN = Opc.WR ∧ sc = (if 6 ≤ h.sc.toNat then (if regBit s (niReg n.idx Off.NI_CTRL) 1 = true then h.sc.toNat else 4) else if h.sc.toNat = 5 then (if profile s n.t = 1 then 5 else 4) else h.sc.toNat) ∧ oreqTakes s n.idx h ∧ (s.ni n.idx).held = [] ∧ ((∀ e ∈ (s.ni n.idx).oq, isWrite e.pkt = true)) :=
  ⟨nA, { hWr with sc := 7 }, 4, upA, .wr (nA) ({ hWr with sc := 7 }), by decide +kernel⟩
theorem witness_ClassClamped_2_b : ∃ (n : NiId) (h : Head) (sc : Nat) (s : State) (c : Instr),
    (c = .wr n h ∨ c = .stcond n h) ∧ h.opcN = Opc.WR ∧ sc = (if 6 ≤ h.sc.toNat then (if regBit s (niReg n.idx Off.NI_CTRL) 1 = true then h.sc.toNat else 4) else if h.sc.toNat = 5 then (if profile s n.t = 1 then 5 else 4) else h.sc.toNat) ∧ oreqTakes s n.idx h ∧ (s.ni n.idx).held = [] ∧ ((∀ e ∈ (s.ni n.idx).oq, isWrite e.pkt = true)) :=
  ⟨nA, { hWr with sc := 7 }, 4, upA, .stcond (nA) ({ hWr with sc := 7 }), by decide +kernel⟩
theorem witness_ClassClamped_2_c : ∃ (n : NiId) (h : Head) (sc : Nat) (s : State) (c : Instr),
    (c = .wr n h ∨ c = .stcond n h) ∧ h.opcN = Opc.WR ∧ sc = (if 6 ≤ h.sc.toNat then (if regBit s (niReg n.idx Off.NI_CTRL) 1 = true then h.sc.toNat else 4) else if h.sc.toNat = 5 then (if profile s n.t = 1 then 5 else 4) else h.sc.toNat) ∧ oreqTakes s n.idx h ∧ (s.ni n.idx).held = [] ∧ ((∀ e ∈ (s.ni n.idx).oq, isWrite e.pkt = true)) :=
  ⟨nA, { hWr with sc := 5 }, 5, upA, .wr (nA) ({ hWr with sc := 5 }), by decide +kernel⟩
theorem witness_ClassClamped_3_a : ∃ (n : NiId) (h : Head) (sc : Nat) (s : State),
    h.opcN = Opc.MSG ∧ sc = (if 6 ≤ h.sc.toNat then (if regBit s (niReg n.idx Off.NI_CTRL) 1 = true then h.sc.toNat else 4) else if h.sc.toNat = 5 then (if profile s n.t = 1 then 5 else 4) else h.sc.toNat) ∧ oreqTakes s n.idx h ∧ quietNi (s.ni n.idx) :=
  ⟨nA, { hMsg with sc := 7 }, 4, upA, by decide +kernel⟩
theorem witness_ClassClamped_3_b : ∃ (n : NiId) (h : Head) (sc : Nat) (s : State),
    h.opcN = Opc.MSG ∧ sc = (if 6 ≤ h.sc.toNat then (if regBit s (niReg n.idx Off.NI_CTRL) 1 = true then h.sc.toNat else 4) else if h.sc.toNat = 5 then (if profile s n.t = 1 then 5 else 4) else h.sc.toNat) ∧ oreqTakes s n.idx h ∧ quietNi (s.ni n.idx) :=
  ⟨nA, { hMsg with sc := 5 }, 5, upA, by decide +kernel⟩
theorem witness_ClassClamped_3_c : ∃ (n : NiId) (h : Head) (sc : Nat) (s : State),
    h.opcN = Opc.MSG ∧ sc = (if 6 ≤ h.sc.toNat then (if regBit s (niReg n.idx Off.NI_CTRL) 1 = true then h.sc.toNat else 4) else if h.sc.toNat = 5 then (if profile s n.t = 1 then 5 else 4) else h.sc.toNat) ∧ oreqTakes s n.idx h ∧ quietNi (s.ni n.idx) :=
  ⟨nA, { hMsg with sc := 3 }, 3, upA, by decide +kernel⟩
theorem witness_ClassClamped_4_a : ∃ (n : NiId) (h : Head) (sc : Nat) (s : State) (c : Instr),
    (c = .barAgent n h ∧ h.flg.toNat % 4 = 0 ∨ c = .barTile n h ∧ h.flg.toNat % 4 = 1 ∨ c = .barSys n h ∧ h.flg.toNat % 4 = 2) ∧ h.opcN = Opc.BAR ∧ sc = (if 6 ≤ h.sc.toNat then (if regBit s (niReg n.idx Off.NI_CTRL) 1 = true then h.sc.toNat else 4) else if h.sc.toNat = 5 then (if profile s n.t = 1 then 5 else 4) else h.sc.toNat) ∧ oreqTakes s n.idx h :=
  ⟨nA, { hBar 0 with sc := 6 }, 4, upA, .barAgent (nA) ({ hBar 0 with sc := 6 }), by decide +kernel⟩
theorem witness_ClassClamped_4_b : ∃ (n : NiId) (h : Head) (sc : Nat) (s : State) (c : Instr),
    (c = .barAgent n h ∧ h.flg.toNat % 4 = 0 ∨ c = .barTile n h ∧ h.flg.toNat % 4 = 1 ∨ c = .barSys n h ∧ h.flg.toNat % 4 = 2) ∧ h.opcN = Opc.BAR ∧ sc = (if 6 ≤ h.sc.toNat then (if regBit s (niReg n.idx Off.NI_CTRL) 1 = true then h.sc.toNat else 4) else if h.sc.toNat = 5 then (if profile s n.t = 1 then 5 else 4) else h.sc.toNat) ∧ oreqTakes s n.idx h :=
  ⟨nA, { hBar 1 with sc := 6 }, 4, upA, .barTile (nA) ({ hBar 1 with sc := 6 }), by decide +kernel⟩
theorem witness_ClassClamped_4_c : ∃ (n : NiId) (h : Head) (sc : Nat) (s : State) (c : Instr),
    (c = .barAgent n h ∧ h.flg.toNat % 4 = 0 ∨ c = .barTile n h ∧ h.flg.toNat % 4 = 1 ∨ c = .barSys n h ∧ h.flg.toNat % 4 = 2) ∧ h.opcN = Opc.BAR ∧ sc = (if 6 ≤ h.sc.toNat then (if regBit s (niReg n.idx Off.NI_CTRL) 1 = true then h.sc.toNat else 4) else if h.sc.toNat = 5 then (if profile s n.t = 1 then 5 else 4) else h.sc.toNat) ∧ oreqTakes s n.idx h :=
  ⟨nA, { hBar 2 with sc := 6 }, 4, upA, .barSys (nA) ({ hBar 2 with sc := 6 }), by decide +kernel⟩
theorem witness_ClassClamped_5_a : ∃ (n : NiId) (h : Head) (sc : Nat) (k : HeldH) (rest : List HeldH) (s : State),
    h.opcN = Opc.CELL ∧ sc = (if 6 ≤ h.sc.toNat then (if regBit s (niReg n.idx Off.NI_CTRL) 1 = true then h.sc.toNat else 4) else if h.sc.toNat = 5 then (if profile s n.t = 1 then 5 else 4) else h.sc.toNat) ∧ cpoReads s n.idx h ∧ refusing s n.idx = false ∧ firstHeld (s.ni n.idx) (h.w0.fld 0 23) sc = some (k, rest) :=
  ⟨nA, { hCell with sc := 7 }, 4, { dst := 9, sc := 4, handle := 3, slot := none }, [], upA.setNi 0 { handles := [{ dst := 9, sc := 4, handle := 3, slot := none }] }, by decide +kernel⟩
theorem witness_ClassClamped_5_b : ∃ (n : NiId) (h : Head) (sc : Nat) (k : HeldH) (rest : List HeldH) (s : State),
    h.opcN = Opc.CELL ∧ sc = (if 6 ≤ h.sc.toNat then (if regBit s (niReg n.idx Off.NI_CTRL) 1 = true then h.sc.toNat else 4) else if h.sc.toNat = 5 then (if profile s n.t = 1 then 5 else 4) else h.sc.toNat) ∧ cpoReads s n.idx h ∧ refusing s n.idx = false ∧ firstHeld (s.ni n.idx) (h.w0.fld 0 23) sc = some (k, rest) :=
  ⟨nA, { hCell with sc := 4 }, 4, { dst := 9, sc := 4, handle := 3, slot := none }, [], upA.setNi 0 { handles := [{ dst := 9, sc := 4, handle := 3, slot := none }] }, by decide +kernel⟩
theorem witness_ClassClamped_6_a : ∃ (n : NiId) (h : Head) (sc : Nat) (e : GroupEnt) (s : State),
    h.opcN = Opc.CELLMC ∧ sc = (if 6 ≤ h.sc.toNat then (if regBit s (niReg n.idx Off.NI_CTRL) 1 = true then h.sc.toNat else 4) else if h.sc.toNat = 5 then (if profile s n.t = 1 then 5 else 4) else h.sc.toNat) ∧ cpoReads s n.idx h ∧ refusing s n.idx = false ∧ regBit s (niReg n.idx Off.NI_MC_CFG) 0 = true ∧ cacheGet (s.ni n.idx) (h.arg.fld 0 14) = some e ∧ e.valid = true ∧ e.mask ≠ 0 ∧ (tilesOf e.mask).foldl (fun a d => a + 2 ^ d) 0 = e.mask ∧ (∀ d ∈ tilesOf e.mask, reachable s (n.idx / 7) d = true ∧ (laneGet (s.ni n.idx) d (h.arg.fld 0 14)).isSome = true) ∧ (∀ d ∈ mcDests (s.ni n.idx) e.mask (h.arg.fld 0 14), credit (s.ni n.idx) d ≠ 0) :=
  ⟨nA, { hMc with sc := 7 }, 4, { group := 0, mask := 2, valid := true }, (upA.setReg (niReg 0 Off.NI_MC_CFG) 9).setNi 0 { cache := [(0, some { group := 0, mask := 2, valid := true })], lanes := [(laneKey 1 0, some 2)], credits := [(8, 3)] }, by decide +kernel⟩
theorem witness_ClassClamped_6_b : ∃ (n : NiId) (h : Head) (sc : Nat) (e : GroupEnt) (s : State),
    h.opcN = Opc.CELLMC ∧ sc = (if 6 ≤ h.sc.toNat then (if regBit s (niReg n.idx Off.NI_CTRL) 1 = true then h.sc.toNat else 4) else if h.sc.toNat = 5 then (if profile s n.t = 1 then 5 else 4) else h.sc.toNat) ∧ cpoReads s n.idx h ∧ refusing s n.idx = false ∧ regBit s (niReg n.idx Off.NI_MC_CFG) 0 = true ∧ cacheGet (s.ni n.idx) (h.arg.fld 0 14) = some e ∧ e.valid = true ∧ e.mask ≠ 0 ∧ (tilesOf e.mask).foldl (fun a d => a + 2 ^ d) 0 = e.mask ∧ (∀ d ∈ tilesOf e.mask, reachable s (n.idx / 7) d = true ∧ (laneGet (s.ni n.idx) d (h.arg.fld 0 14)).isSome = true) ∧ (∀ d ∈ mcDests (s.ni n.idx) e.mask (h.arg.fld 0 14), credit (s.ni n.idx) d ≠ 0) :=
  ⟨nA, { hMc with sc := 5 }, 5, { group := 0, mask := 2, valid := true }, (upA.setReg (niReg 0 Off.NI_MC_CFG) 9).setNi 0 { cache := [(0, some { group := 0, mask := 2, valid := true })], lanes := [(laneKey 1 0, some 2)], credits := [(8, 3)] }, by decide +kernel⟩
theorem witness_ClassClamped_6_c : ∃ (n : NiId) (h : Head) (sc : Nat) (e : GroupEnt) (s : State),
    h.opcN = Opc.CELLMC ∧ sc = (if 6 ≤ h.sc.toNat then (if regBit s (niReg n.idx Off.NI_CTRL) 1 = true then h.sc.toNat else 4) else if h.sc.toNat = 5 then (if profile s n.t = 1 then 5 else 4) else h.sc.toNat) ∧ cpoReads s n.idx h ∧ refusing s n.idx = false ∧ regBit s (niReg n.idx Off.NI_MC_CFG) 0 = true ∧ cacheGet (s.ni n.idx) (h.arg.fld 0 14) = some e ∧ e.valid = true ∧ e.mask ≠ 0 ∧ (tilesOf e.mask).foldl (fun a d => a + 2 ^ d) 0 = e.mask ∧ (∀ d ∈ tilesOf e.mask, reachable s (n.idx / 7) d = true ∧ (laneGet (s.ni n.idx) d (h.arg.fld 0 14)).isSome = true) ∧ (∀ d ∈ mcDests (s.ni n.idx) e.mask (h.arg.fld 0 14), credit (s.ni n.idx) d ≠ 0) :=
  ⟨nA, { hMc with sc := 4 }, 4, { group := 0, mask := 2, valid := true }, (upA.setReg (niReg 0 Off.NI_MC_CFG) 9).setNi 0 { cache := [(0, some { group := 0, mask := 2, valid := true })], lanes := [(laneKey 1 0, some 2)], credits := [(8, 3)] }, by decide +kernel⟩
theorem witness_ClassClamped_7 : ∃ (n : NiId) (h : Head) (q : Inb) (rest : List Inb) (s : State) (c : Instr),
    (c = .rdresp n h ∨ c = .wrack n h ∨ c = .fopresp n h ∨ c = .lkresp n h) ∧ (s.ni n.idx).urst = false ∧ unitClosed s n.idx = false ∧ headOk s .irsp h = true ∧ findInb (s.ni n.idx) (h.w0.fld 0 23) h.tag.toNat = some (q, rest) :=
  ⟨nA, hRr, { src := 9, tag := 5, opc := 1, sc := 2, id := 7 }, [], upA.setNi 0 { inb := [{ src := 9, tag := 5, opc := 1, sc := 2, id := 7 }] }, .rdresp (nA) (hRr), by decide +kernel⟩
theorem witness_ClassClamped_8 : ∃ (n : NiId) (b : Bar) (s : State),
    (s.ni n.idx).bar = some b ∧ barDone s b = true :=
  ⟨nA, { scope := 2, tag := 3, sc := 1, marks := [] }, upA.setNi 0 { bar := some { scope := 2, tag := 3, sc := 1, marks := [] } }, by decide +kernel⟩
theorem witness_ClassClamped_9_a : ∃ (n : NiId) (h : Head) (sc : Nat) (s : State),
    h.opcN = Opc.CELL ∧ sc = (if 6 ≤ h.sc.toNat then (if regBit s (niReg n.idx Off.NI_CTRL) 1 = true then h.sc.toNat else 4) else if h.sc.toNat = 5 then (if profile s n.t = 1 then 5 else 4) else h.sc.toNat) ∧ cpoReads s n.idx h ∧ refusing s n.idx = false ∧ firstHeld (s.ni n.idx) (h.w0.fld 0 23) sc = none ∧ (s.ni n.idx).rsv = none :=
  ⟨nA, { hCell with sc := 7 }, 4, upA, by decide +kernel⟩
theorem witness_ClassClamped_9_b : ∃ (n : NiId) (h : Head) (sc : Nat) (s : State),
    h.opcN = Opc.CELL ∧ sc = (if 6 ≤ h.sc.toNat then (if regBit s (niReg n.idx Off.NI_CTRL) 1 = true then h.sc.toNat else 4) else if h.sc.toNat = 5 then (if profile s n.t = 1 then 5 else 4) else h.sc.toNat) ∧ cpoReads s n.idx h ∧ refusing s n.idx = false ∧ firstHeld (s.ni n.idx) (h.w0.fld 0 23) sc = none ∧ (s.ni n.idx).rsv = none :=
  ⟨nA, { hCell with sc := 5 }, 5, upA, by decide +kernel⟩
theorem witness_ClassClamped_9_c : ∃ (n : NiId) (h : Head) (sc : Nat) (s : State),
    h.opcN = Opc.CELL ∧ sc = (if 6 ≤ h.sc.toNat then (if regBit s (niReg n.idx Off.NI_CTRL) 1 = true then h.sc.toNat else 4) else if h.sc.toNat = 5 then (if profile s n.t = 1 then 5 else 4) else h.sc.toNat) ∧ cpoReads s n.idx h ∧ refusing s n.idx = false ∧ firstHeld (s.ni n.idx) (h.w0.fld 0 23) sc = none ∧ (s.ni n.idx).rsv = none :=
  ⟨nA, { hCell with sc := 3 }, 3, upA, by decide +kernel⟩
theorem witness_ClassClamped_10 : ∃ (u : Fin 64) (r : TReq) (q : List TReq) (s : State),
    (s.tmc u).q = r :: q ∧ r.via = .fabric ∧ r.pkt.opc = Opc.RD ∧ r.pkt.isLdres = false ∧ ((∀ i < r.pkt.cnt, isPoison s (tmemAddr u (offOf r.pkt + i)) = false)) :=
  ⟨9, { pkt := { pRd with sc := 3 }, via := .fabric }, [], up.setTmc 9 { q := [{ pkt := { pRd with sc := 3 }, via := .fabric }] }, by decide +kernel⟩
theorem witness_ClassClamped_11 : ∃ (n : NiId) (p : Pkt) (rest : List Pkt) (s : State),
    nextEject s n.idx (fun p => isUnitKind p && !forBridge n.idx p) = some (p, rest) ∧ populated s n.idx = false ∧ n.idx ≠ 6 ∧ n.idx ≠ 447 ∧ isAccess p.opc = true :=
  ⟨⟨0, 4⟩, { pRd with sc := 2 }, [], up.setNi 4 { eject := [{ pRd with sc := 2 }] }, by decide +kernel⟩
theorem witness_HotspotLogged_2_a : ∃ (u : Fin 64) (o : Fin 23) (s : State),
    readyHeads s u o ≠ [] ∧ (∀ x, (s.rt u).hotFc = some x → x + 2400000000 ≤ s.fc) ∧ eventPasses s (.rtr u) :=
  ⟨9, 2, up.setRt 9 { inq := [{ pkt := { pRd with dst := 13, key := 3, sc := 6 }, inp := 16, vc := 0, arrived := 1, out := some 2, since := some 0 }] }, by decide +kernel⟩
theorem witness_HotspotLogged_2_b : ∃ (u : Fin 64) (o : Fin 23) (s : State),
    readyHeads s u o ≠ [] ∧ (∀ x, (s.rt u).hotFc = some x → x + 2400000000 ≤ s.fc) ∧ eventPasses s (.rtr u) :=
  ⟨9, 2, { up.setRt 9 { inq := [{ pkt := { pRd with dst := 13, key := 3, sc := 6 }, inp := 16, vc := 0, arrived := 1, out := some 2, since := some 0 }], hotFc := some 7 } with fc := 2400000007 }, by decide +kernel⟩
theorem witness_HotspotLogged_3 : ∃ (u : Fin 64) (o : Fin 23) (x : Nat) (s : State),
    readyHeads s u o ≠ [] ∧ (s.rt u).hotFc = some x ∧ s.fc < x + 2400000000 :=
  ⟨9, 2, 7, { up.setRt 9 { inq := [{ pkt := { pRd with dst := 13, key := 3, sc := 6 }, inp := 16, vc := 0, arrived := 1, out := some 2, since := some 0 }], hotFc := some 7 } with fc := 2400000006 }, by decide +kernel⟩
theorem witness_HotspotLogged_4 : ∃ (u : Fin 64) (o : Fin 23) (p : Fin 23) (d : Nat) (s : State),
    d < 2400000000 ∧ eventPasses s (.rtr u) ∧ s.evq.length < 15 ∧ readyHeads s u o ≠ [] ∧ readyHeads s u p ≠ [] :=
  ⟨9, 2, 5, 5, up.setRt 9 { inq := [{ pkt := { pRd with dst := 13, key := 3, sc := 6 }, inp := 16, vc := 0, arrived := 1, out := some 2, since := some 0 }, { pkt := { pRd with dst := 13, key := 4 }, inp := 17, vc := 0, arrived := 1, out := some 5 }] }, by decide +kernel⟩
theorem witness_HotspotLogged_1 : ∃ (u : Fin 64) (o : Fin 23) (s : State),
    readyHeads s u o ≠ [] :=
  ⟨9, 2, up.setRt 9 { inq := [{ pkt := { pRd with dst := 13, key := 3, sc := 6 }, inp := 16, vc := 0, arrived := 1, out := some 2, since := some 0 }] }, by decide +kernel⟩

end Sys2Proof.Tests
end

/-! Proofs of the family of 00_scope: bits of a word, frames of the named updates, decode misses, and the two statements
(O14 and O32). -/

namespace Sys2Proof.W

variable {w : W} {lo len lo' len' v i : Nat}

/-! ### Bits of a word (R8) -/

theorem testBit_fld : (w.fld lo len).testBit i = (decide (i < len) && w.getLsbD (lo + i)) := by
  simp [fld, Nat.testBit_mod_two_pow, Nat.testBit_shiftRight, BitVec.testBit_toNat]

theorem fld_lt : w.fld lo len < 2 ^ len := Nat.mod_lt _ (Nat.two_pow_pos len)

theorem getLsbD_at : (W.at lo len v).getLsbD i =
    (decide (i < 36) && decide (lo ≤ i) && decide (i - lo < len) && v.testBit (i - lo)) := by
  simp only [W.at, BitVec.getLsbD_ofNat, Nat.testBit_shiftLeft, Nat.testBit_mod_two_pow, ge_iff_le, Bool.and_assoc]

/-- A bit of a word after a field of it has been replaced. -/
theorem getLsbD_put : (w.put lo len v).getLsbD i =
    if lo ≤ i ∧ i - lo < len then decide (i < 36) && v.testBit (i - lo) else w.getLsbD i := by
  by_cases hi : i < 36
  · by_cases h1 : lo ≤ i <;> by_cases h2 : i - lo < len <;>
      simp only [put, BitVec.getLsbD_or, BitVec.getLsbD_and, BitVec.getLsbD_not, getLsbD_at, Nat.testBit_two_pow_sub_one] <;>
      simp [hi, h1, h2]
  · simp [BitVec.getLsbD_of_ge _ _ (Nat.le_of_not_lt hi), hi]

/-- A field that has been replaced by a value that it can hold reads as that value. -/
theorem fld_put_same (hlen : lo + len ≤ 36) (hv : v < 2 ^ len) : (w.put lo len v).fld lo len = v := by
  refine Nat.eq_of_testBit_eq fun i => ?_
  by_cases hi : i < len
  · have : lo + i < 36 := by omega
    simp only [testBit_fld, getLsbD_put]
    simp [hi, this]
  · have : v < 2 ^ i := Nat.lt_of_lt_of_le hv (Nat.pow_le_pow_right (by decide) (Nat.le_of_not_lt hi))
    simp [testBit_fld, hi, Nat.testBit_lt_two_pow this]

/-- A field apart from the one that is replaced reads as before. -/
theorem fld_put_apart (h : lo' + len' ≤ lo ∨ lo + len ≤ lo') : (w.put lo len v).fld lo' len' = w.fld lo' len' := by
  refine Nat.eq_of_testBit_eq fun i => ?_
  by_cases hi : i < len'
  · have : ¬ (lo ≤ lo' + i ∧ lo' + i - lo < len) := by omega
    simp [testBit_fld, getLsbD_put, this]
  · simp [testBit_fld, hi]

theorem at_zero : W.at lo len 0 = 0 := by simp [W.at]

end Sys2Proof.W

namespace Sys2Proof.Machine

variable {s t u : State} {ps : List Piece} {l : List Nat} {a n : Nat} {v : W}

/-! ### Frames: what the named updates leave as it was -/

theorem changesOnly_refl : changesOnly ps s s := by
  intro p _
  cases p <;> simp [pieceKept]

theorem pieceKept_trans {p : Piece} (h : pieceKept s t p) (k : pieceKept t u p) : pieceKept s u p := by
  cases p <;> simp_all [pieceKept]

theorem changesOnly_trans (h : changesOnly ps s t) (k : changesOnly ps t u) : changesOnly ps s u :=
  fun p hp => pieceKept_trans (h p hp) (k p hp)

theorem changesOnly_setReg (h : .regs ∈ ps) : changesOnly ps s (s.setReg a v) := by
  intro p hp
  cases p with
  | regs => exact absurd h hp
  | mem => exact fun _ => ⟨rfl, rfl⟩
  | _ => simp [pieceKept]

theorem changesOnly_setNi {x : Ni} (h : .nis ∈ ps) : changesOnly ps s (s.setNi n x) := by
  intro p hp
  cases p with
  | nis => exact absurd h hp
  | mem => exact fun _ => ⟨rfl, rfl⟩
  | _ => simp [pieceKept]

theorem regsBut_trans (h : regsBut l s t) (k : regsBut l t u) : regsBut l s u :=
  fun a ha => (k a ha).trans (h a ha)

theorem regsBut_setReg (h : a ∈ l) : regsBut l s (s.setReg a v) :=
  fun _ hb => State.setReg_ne (fun e => hb (e ▸ h))

theorem nisBut_setNi {x : Ni} : nisBut n s (s.setNi n x) := fun _ h => State.setNi_ne h

end Sys2Proof.Machine

namespace Sys2Proof.Machine

variable {s : State} {a n m o o' node g sc sc' : Nat} {v : W} {wr : Bool} {wh : Where} {f : State → State}

/-! ### Register addresses and fields -/

@[simp] theorem niReg_inj : niReg n o = niReg n o' ↔ o = o' := by simp [niReg]
@[simp] theorem mtxReg_inj : mtxReg o = mtxReg o' ↔ o = o' := by simp [mtxReg, globalReg]

/-- A field of a register that is set to a value that it can hold. -/
theorem getFld_setFld_same {lo len x : Nat} (hlen : lo + len ≤ 36) (hx : x < 2 ^ len) :
    getFld (setFld s a lo len x) a lo len = x := by
  simp [getFld, setFld, W.fld_put_same hlen hx]

/-- A field of the same register apart from the one that is set. -/
theorem getFld_setFld_apart {lo len x lo' len' : Nat} (h : lo' + len' ≤ lo ∨ lo + len ≤ lo') :
    getFld (setFld s a lo len x) a lo' len' = getFld s a lo' len' := by
  simp [getFld, setFld, W.fld_put_apart h]

/-! ### Decode misses (R132) -/

/-- What a decode miss records besides the count, where it is the first. -/
theorem missNoted_decodeMiss : missNoted s (decodeMiss s node wr wh a) node wr wh a := by
  by_cases h : s.reg (mtxReg Off.MTX_DECODE_MISS) = 0
  · simp (disch := decide) [missNoted, decodeMiss, incSat, h, State.setReg_ne]
  · simp only [missNoted, decodeMiss, incSat, if_neg h]
    simp (disch := decide) [State.setReg_ne]

theorem regsBut_decodeMiss :
    regsBut [mtxReg Off.MTX_DECODE_MISS, mtxReg Off.MTX_DECODE_FIRST, mtxReg Off.MTX_DECODE_ADDR] s
      (decodeMiss s node wr wh a) := by
  unfold decodeMiss incSat
  refine regsBut_trans ?_ (regsBut_setReg (by simp))
  split
  · exact regsBut_trans (regsBut_setReg (by simp)) (regsBut_setReg (by simp))
  · exact fun _ _ => rfl

theorem decodeMiss_eq_regs : decodeMiss s node wr wh a = { s with regs := (decodeMiss s node wr wh a).regs } := by
  unfold decodeMiss incSat
  split <;> rfl

theorem changesOnly_decodeMiss : changesOnly [.regs] s (decodeMiss s node wr wh a) := by
  unfold decodeMiss incSat
  refine changesOnly_trans ?_ (changesOnly_setReg (by simp))
  split
  · exact changesOnly_trans (changesOnly_setReg (by simp)) (changesOnly_setReg (by simp))
  · exact changesOnly_refl

/-! ### Writes that the table names (R382) -/

/-- A write of an awake register has its effect on the state as it is. -/
theorem reached_of_awake (h : awake s a = true) : reached s a f = f s := by
  cases ht : target s a with
  | none => simp [awake, ht] at h
  | some x =>
    obtain ⟨b, o, r⟩ := x
    simp only [awake, ht] at h
    simp only [reached, ht, wakeFor]
    split
    · next hb => simp_all
    · rfl

theorem reached_of_miss (h : target s a = none) : reached s a f = decodeMiss s (hrpNode s) true .matrix a := by
  simp [reached, h]

/-! ### The group cache (R113, R125) -/

theorem ni_mcInvOp : ((mcInvOp s n v).ni n) =
    { (s.ni n) with
      cache := if (cacheGet (s.ni n) (v.fld 0 14)).isSome then Sparse.del (s.ni n).cache (v.fld 0 14 % 256)
        else (s.ni n).cache,
      lanes := (s.ni n).lanes.filter (fun e => decide (e.1 % 4096 ≠ v.fld 0 14 / 4)) } := by
  simp [mcInvOp, modNi]

/-- Where the place of group g in the cache is emptied, only the groups of that place are gone. -/
theorem cacheGet_eq_of_del {x y : Ni} (hy : y.cache = Sparse.del x.cache (g % 256)) :
    cacheGet y m = if m % 256 = g % 256 then none else cacheGet x m := by
  unfold cacheGet
  rw [hy]
  by_cases h : m % 256 = g % 256
  · simp [h, Sparse.get_del_same]
  · simp [h, Sparse.get_del_ne h]

/-- Two groups of one place are not both in the cache. -/
theorem cacheGet_none_of_other {x : Ni} (hg : (cacheGet x g).isSome = true) (hp : m % 256 = g % 256) (hm : m ≠ g) :
    cacheGet x m = none := by
  cases e : Sparse.get (fun _ => none) x.cache (g % 256) with
  | none => simp [cacheGet, e] at hg
  | some y =>
    have hy : y.group = g := by simpa [cacheGet, e] using hg
    simp [cacheGet, hp, e, hy, Ne.symm hm]

theorem cacheGet_congr {x y : Ni} (h : y.cache = x.cache) : cacheGet y g = cacheGet x g := by
  unfold cacheGet
  rw [h]

theorem cacheGet_mcInvOp_same : cacheGet ((mcInvOp s n v).ni n) (v.fld 0 14) = none := by
  cases h : (cacheGet (s.ni n) (v.fld 0 14)).isSome with
  | true => simp [cacheGet_eq_of_del (x := s.ni n) (g := v.fld 0 14), ni_mcInvOp, h]
  | false =>
    rw [cacheGet_congr (x := s.ni n) (by simp [ni_mcInvOp, h])]
    exact Option.not_isSome_iff_eq_none.1 (by simp [h])

theorem cacheGet_mcInvOp_ne (hm : m ≠ v.fld 0 14) : cacheGet ((mcInvOp s n v).ni n) m = cacheGet (s.ni n) m := by
  cases h : (cacheGet (s.ni n) (v.fld 0 14)).isSome with
  | true =>
    rw [cacheGet_eq_of_del (x := s.ni n) (g := v.fld 0 14) (by simp [ni_mcInvOp, h])]
    split
    · next hp => exact (cacheGet_none_of_other h hp hm).symm
    · rfl
  | false => exact cacheGet_congr (by simp [ni_mcInvOp, h])

/-! ### Token buckets (R88, R125) -/

theorem regsBut_refillOne : regsBut [niReg n Off.NI_TB_LEVEL] s (refillOne s n sc) := regsBut_setReg (by simp)
theorem changesOnly_refillOne : changesOnly [.regs] s (refillOne s n sc) := changesOnly_setReg (by simp)

/-- A refill leaves the rates and depths of the strict classes. -/
theorem reg_bucket_refillOne (h : 5 ≤ sc') :
    (refillOne s n sc).reg (niReg n (Off.NI_TB_SC7 + (7 - sc'))) = s.reg (niReg n (Off.NI_TB_SC7 + (7 - sc'))) :=
  regsBut_refillOne _ (by simp [Off.NI_TB_SC7, Off.NI_TB_LEVEL]; omega)

theorem tokens_refillOne_same : tokens (refillOne s n sc) n sc =
    min (tokens s n sc + (s.reg (niReg n (Off.NI_TB_SC7 + (7 - sc)))).fld 0 11)
      ((s.reg (niReg n (Off.NI_TB_SC7 + (7 - sc)))).fld 12 11) := by
  refine getFld_setFld_same ?_ (Nat.lt_of_le_of_lt (Nat.min_le_right _ _) W.fld_lt)
  unfold tbLo
  split <;> [skip; split] <;> omega

/-- The refill of one strict class leaves the levels of the others. -/
theorem tokens_refillOne_apart (h : tbLo sc' + 11 ≤ tbLo sc ∨ tbLo sc + 11 ≤ tbLo sc') :
    tokens (refillOne s n sc) n sc' = tokens s n sc' :=
  getFld_setFld_apart h

/-! ### PHOLD (R122) -/

theorem sendPhold_of_named (hp : n % 7 = 0) (hd : nodePort ((s.reg (niReg n Off.NI_PHOLD_DST)).fld 0 23) ≠ 7) :
    sendPhold s n v = incWrap (ownSend s n ((s.reg (niReg n Off.NI_PHOLD_DST)).fld 0 23) Opc.PHOLD 7 0 0 (b2n (v.bit 8)) 0
      [W.at 0 8 (v.fld 0 8)]) (niReg n Off.NI_PHOLD_CNT) := by
  simp [sendPhold, getFld, hp, hd]

theorem sendPhold_of_unnamed (hp : n % 7 = 0) (hd : nodePort ((s.reg (niReg n Off.NI_PHOLD_DST)).fld 0 23) = 7) :
    sendPhold s n v = decodeMiss s (nodeOf s n) true .source 0 := by
  simp [sendPhold, getFld, hp, hd]

/-- Settles O14: each write goes on at an awake register as its operation does, or is a decode miss; the refill of one
bucket leaves the other two and every rate and depth. -/
theorem niRegistersAct : Obligations.NiRegistersAct := by
  unfold Obligations.NiRegistersAct
  refine ⟨fun n v s aw => ?groupDropped, fun n v s aw => ?seedRestarted, fun n v s hp hd aw => ?pholdSent,
    fun n s => ?bucketsFilled, fun n s => ?puntFilled, fun n v s hp hd aw => ?pholdMissed, fun n v s hp aw => ?noPhold,
    fun n v a s c hc ht => ?writeMissed⟩
  case groupDropped =>
    refine ⟨mcInvOp s n.idx v, congrArg ok (reached_of_awake aw), ?_, cacheGet_mcInvOp_same, fun g => cacheGet_mcInvOp_ne,
      changesOnly_setNi (by simp), nisBut_setNi⟩
    simp [ni_mcInvOp]
  case seedRestarted =>
    refine ⟨seedOp s n.idx v, congrArg ok (reached_of_awake aw), ?_, ?_, ?_, ?_, ?_⟩
    · simp [seedOp, modNi]
    · simp [seedOp, modNi]
    · exact regsBut_setReg (by simp)
    · exact changesOnly_trans (changesOnly_setReg (by simp)) (changesOnly_setNi (by simp))
    · exact nisBut_setNi
  case pholdSent =>
    refine ⟨_, congrArg ok ((reached_of_awake aw).trans (sendPhold_of_named hp hd)), ?_, ?_, ?_, ?_, ?_⟩
    · simp [incWrap, ownSend, modNi, flitsForWords]
    · simp [incWrap, ownSend, modNi]
    · exact regsBut_setReg (by simp)
    · exact changesOnly_trans (changesOnly_setNi (by simp)) (changesOnly_setReg (by simp))
    · exact nisBut_setNi
  case bucketsFilled =>
    refine ⟨_, rfl, ?_, ?_, ?_, regsBut_trans (regsBut_trans regsBut_refillOne regsBut_refillOne) regsBut_refillOne,
      changesOnly_trans (changesOnly_trans changesOnly_refillOne changesOnly_refillOne) changesOnly_refillOne⟩
    all_goals
      simp (disch := decide) only [tokens_refillOne_apart, tokens_refillOne_same, reg_bucket_refillOne] <;> rfl
  case puntFilled =>
    exact ⟨_, rfl, getFld_setFld_same (by decide) (Nat.lt_of_le_of_lt (Nat.min_le_right _ _) W.fld_lt),
      regsBut_setReg (by simp), changesOnly_setReg (by simp)⟩
  case pholdMissed =>
    obtain ⟨count, first, -⟩ :=
      missNoted_decodeMiss (s := s) (node := nodeOf s n.idx) (wr := true) (wh := .source) (a := 0)
    refine ⟨_, congrArg ok ((reached_of_awake aw).trans (sendPhold_of_unnamed hp hd)), count, ?_, regsBut_decodeMiss,
      decodeMiss_eq_regs⟩
    simpa [Where.code, W.at_zero, b2n] using first
  case noPhold =>
    exact ⟨s, congrArg ok ((reached_of_awake aw).trans (by simp [sendPhold, hp])), rfl⟩
  case writeMissed =>
    rcases hc with ⟨rfl, rfl⟩ | ⟨rfl, rfl⟩ <;>
      exact ⟨_, congrArg ok (reached_of_miss ht), missNoted_decodeMiss, regsBut_decodeMiss, changesOnly_decodeMiss⟩

/-! ### Requests at the register ports (R136, R361, R362) -/

theorem exec_hrpRequest {wr : Bool} {a : W} {len : Fin 16} {data : List W} :
    exec (.hrpRequest wr a len data) s = .next (coreSettle (portRequest s .hrp wr a.toNat len.val data)) := rfl

/-- An access to a controller whose queue is full is not taken at a register port. -/
theorem portRequest_of_full {m : Master} {wr : Bool} {len : Nat} {data : List W} (h : queueRoom s a = false) :
    portRequest s m wr a len data = s := by
  simp [portRequest, h]

theorem coreSettle_of_idle (h : coresIdle s) : coreSettle s = s := by
  simp [coreSettle, h.1, h.2, coreDrain]

theorem hrpRequest_of_full {wr : Bool} {a : W} {len : Fin 16} {data : List W} (h : queueRoom s a.toNat = false)
    (idle : coresIdle s) : exec (.hrpRequest wr a len data) s = .next s := by
  rw [exec_hrpRequest, portRequest_of_full h, coreSettle_of_idle idle]

/-- R136: sixteen responses of the controller of tile 0 wait to be read for injection, each with its entry of the request
queue; no request is left to serve. -/
def unreadResponses : State :=
  forEach (fun _ s => stageTmem s (niOf 0 5) { opc := Opc.RDRESP, cnt := 1, words := [0] }) (List.range 16)
    { State.reset with postRun := false }

theorem queueRoom_unreadResponses : queueRoom unreadResponses (0x100000003 : W).toNat = false := by decide +kernel

/-- Refutes O32: a request queue with no request left to serve is full while sixteen responses hold its entries (R136), so
the host register port does not take a read of that tile memory, which the clause on tile memory says waits at the
controller. -/
theorem not_portsReadAndWrite : ¬ Obligations.PortsReadAndWrite := by
  unfold Obligations.PortsReadAndWrite
  rintro ⟨-, -, -, -, -, -, -, tileMemory, -⟩
  obtain ⟨t, ht, hq, -⟩ := tileMemory false 0x100000003 0 0 3 unreadResponses (by decide +kernel) (by decide +kernel)
    (by decide +kernel) (by decide +kernel) (by decide +kernel) (by decide +kernel) (by decide +kernel)
  rw [hrpRequest_of_full queueRoom_unreadResponses (by decide +kernel)] at ht
  cases ht
  simpa using congrArg (fun x => x.q.length) hq

end Sys2Proof.Machine

namespace Sys2Proof.Machine

/-! ### A resynchronisation that starts anew while its port is stopped (R10, R257) -/

/-- R257: router 0 has sent the mark on its link to router 1, which has still to grant the new layout. -/
def markSentTo1 : State := State.reset.setRt 1 { resync := [{ port := 0, phase := .mark }] }

/-- Refutes O23: the upstream side of a port that has sent its mark stays stopped until it loads a grant (R257), so the
resynchronisation that a parity failure starts anew there carries that stop, which the clause on parity leaves out. -/
theorem not_pipsAndResync : ¬ Obligations.PipsAndResync := by
  unfold Obligations.PipsAndResync
  rintro ⟨-, parity, -⟩
  obtain ⟨t, ht, -, -, anew, -⟩ := parity 0 1 0 markSentTo1 (by decide +kernel) (by decide +kernel)
  have runs : exec (.returnParityFail 0 1 0) markSentTo1 = .next (parityFail markSentTo1 0 1 0) := rfl
  have stopped : (resyncOf (parityFail markSentTo1 0 1 0) 1 0).map ResyncSt.stopped = some true := by decide +kernel
  cases runs.symm.trans ht
  exact absurd (stopped.symm.trans (congrArg (Option.map ResyncSt.stopped) anew)) (by decide)

/-! ### A backward phase step and a launch that stood late (R189) -/

/-- A launch whose time is past and which waits for edge 10; its LAUNCH has not been issued. -/
def lateLaunch : Launch := { fid := 0, lt := 0, lt0 := 0, aseq := 0, minEdge := 10 }
/-- A phase step of one unit back is at its edge, and that launch waits. -/
def backwardStep : State := { State.reset with ft := 2 ^ 40, steps := [(-1, 0)], launches := [lateLaunch] }

/-- Refutes O37: a launch that stood late moves by the size of a backward step (R189), also where its LAUNCH has not been
issued; the clause on a step with any launches moves none but those that the step passes. -/
theorem not_fabricTimeRuns : ¬ Obligations.FabricTimeRuns := by
  unfold Obligations.FabricTimeRuns
  rintro ⟨-, -, -, -, -, -, -, step, -⟩
  obtain ⟨t, ht, -, unmoved, -⟩ :=
    step (-1) 0 [] backwardStep (by decide +kernel) (by decide +kernel) (by decide +kernel)
  have runs : exec .stepEdge backwardStep = .next (stepNow backwardStep (-1) []) := rfl
  have moved : (stepNow backwardStep (-1) []).launches.map Launch.minEdge = [11] := by decide +kernel
  cases runs.symm.trans ht
  exact absurd (moved.symm.trans (congrArg (List.map Launch.minEdge) unmoved)) (by decide +kernel)

/-! ### Commands of firmware -/

/-- A running command that is alive, served and not yet done has its effect. -/
theorem fwCmd_of_running {op : Nat} {f : State → Running → State} {s : State} {r : Running} (hr : s.running = some r)
    (alive : fwAlive s = true) (hop : hdrOpcode r.hdr = op) (hd : r.done = false) (served : opServed s op = true) :
    fwCmd op f s = .next (f s r) := by
  simp [fwCmd, hr, alive, hop, hd, served, when_]

/-- Firmware in normal mode on core 0. -/
def normalFirmware : State :=
  (({ State.reset with postRun := false }.setReg (mtxReg Off.MTX_REMAP) 1).setReg (opcReg Off.OPC_FW_STAT)
    (W.at 24 2 3)).setCore 0 { run := true }

/-! ### A guard switched off while a header is unread (R175, R222) -/

/-- GRD_OFF of guard 0, from mailbox 5. -/
def guardOffCmd : Running := { mbx := 5, copy := 0, hdr := W.at 24 12 0x402, args := [0] }
/-- Firmware runs that command; mailbox 3 is queued with a header that firmware has not read and whose word is poisoned. -/
def poisonedHeader : State :=
  { normalFirmware.setReg (mbxReg (Off.MBX_STAT 3)) 1 with poison := [mbxArea 0 3], running := some guardOffCmd }

/-- Refutes O45: a write of a guard lets firmware read the headers that are still unread (R222), and a poisoned one takes
a free word; the clause on GRD_OFF says that registers and firmware's own state are all that changes. -/
theorem not_commandsThatWriteFields : ¬ Obligations.CommandsThatWriteFields := by
  unfold Obligations.CommandsThatWriteFields
  rintro ⟨-, -, -, -, -, -, -, -, -, guardOff, -⟩
  obtain ⟨t, ht, -, -, -, only⟩ := guardOff 0 guardOffCmd poisonedHeader (by decide +kernel) (by decide +kernel)
    (by decide +kernel) (by decide +kernel) (by decide +kernel) (by decide +kernel) (by decide +kernel)
  have runs : exec .grdOff poisonedHeader = .next (grdOff poisonedHeader guardOffCmd) :=
    fwCmd_of_running (op := 0x402) (s := poisonedHeader) (r := guardOffCmd) (by decide +kernel) (by decide +kernel)
      (by decide +kernel) (by decide +kernel) (by decide +kernel)
  have drawn : (grdOff poisonedHeader guardOffCmd).freeN = 1 := by decide +kernel
  have same : grdOff poisonedHeader guardOffCmd = t := Host.Outcome.next.inj (runs.symm.trans ht)
  obtain ⟨-, kept⟩ : pieceKept poisonedHeader t .ids := only .ids (by simp)
  rw [← same, drawn] at kept
  exact absurd kept (by decide +kernel)

/-! ### TARGET Slim at a tile that is waking (R297, R299) -/

/-- Tile 9 is in WAKING. -/
def wakingTile : State := { State.reset with postRun := false }.setReg (taReg 9 Off.PWR_TA_STAT) 5

/-- Refutes O51: TARGET Slim starts no narrowing at a tile that is still waking, which the clause on a narrowing does not
leave out. -/
theorem not_targetsClaimsAndProfile : ¬ Obligations.TargetsClaimsAndProfile := by
  unfold Obligations.TargetsClaimsAndProfile
  rintro ⟨-, -, -, -, -, slim, -⟩
  obtain ⟨t, ht, -, agent, -⟩ := slim 9 0 wakingTile (by decide +kernel) (by decide +kernel) (by decide +kernel)
    (by decide +kernel) (by decide +kernel) (by decide +kernel) (by decide +kernel) (by decide +kernel)
    (by decide +kernel) (by decide +kernel)
  have runs : exec (.targetSlim 9 0) wakingTile =
    .next (poke wakingTile (hrpNode wakingTile) (taReg 9 Off.PWR_TA_REQ) (natW 2)) := rfl
  have noNarrowing : ((poke wakingTile (hrpNode wakingTile) (taReg 9 Off.PWR_TA_REQ) (natW 2)).ta 9).nar.isSome = false := by
    decide +kernel
  cases runs.symm.trans ht
  exact absurd (noNarrowing.symm.trans (congrArg (fun x => x.nar.isSome) agent)) (by decide)

/-! ### A tick of the turn scheduler inside its interval (R282) -/

/-- BIST_TURN has named slice 1 of tile 9; the last tick was 50 fc ago, and the interval is longer. -/
def tickNotDue : State :=
  { normalFirmware.setReg (taReg 9 Off.BST_TA_LOAD) (W.at 14 1 1) with
    placed := [(9, 1)], fc := 100, turnFc := some 50 }

theorem turnTick_of_notDue {s : State} (h : tickDue s = false) : exec .turnTick s = .next s := by
  simp [exec, execTurnTick, h, when_]

/-- Refutes O54: the scheduler ticks at most once in an interval (R282), and the clause on a tick does not ask that the
interval be over. -/
theorem not_turnsAndRepair : ¬ Obligations.TurnsAndRepair := by
  unfold Obligations.TurnsAndRepair
  rintro ⟨-, -, -, -, -, -, -, -, -, -, -, -, -, -, -, -, -, -, tick⟩
  obtain ⟨t, ht, started, -⟩ := tick 9 1 tickNotDue (by decide +kernel) (by decide +kernel) (by decide +kernel)
    (by decide +kernel) (by decide +kernel) (by decide +kernel) (by decide +kernel) (by decide +kernel)
    (by decide +kernel)
  cases (turnTick_of_notDue (s := tickNotDue) (by decide +kernel)).symm.trans ht
  cases started

end Sys2Proof.Machine

/-! Flits of a link (O22): what an update may touch, the parts of a router, the check bits of a flit, its way into the
buffer, NAK and the fence at REPLAY_LIM. -/

namespace Sys2Proof.W

variable {w : W} {lo len v : Nat}

/-- A field that has been replaced reads as the part of the value that it can hold. -/
theorem fld_put_mod (hlen : lo + len ≤ 36) : (w.put lo len v).fld lo len = v % 2 ^ len := by
  refine Nat.eq_of_testBit_eq fun i => ?_
  by_cases hi : i < len
  · have : lo + i < 36 := by omega
    simp only [testBit_fld, getLsbD_put, Nat.testBit_mod_two_pow]
    simp [hi, this]
  · simp [testBit_fld, Nat.testBit_mod_two_pow, hi]

/-- A field that is replaced by what it holds. -/
theorem put_fld_self (h : w.fld lo len = v) : w.put lo len v = w := by
  refine BitVec.eq_of_getLsbD_eq fun i hi => ?_
  rw [getLsbD_put, ← h]
  split
  · next hp =>
    obtain ⟨h1, h2⟩ := hp
    simp [testBit_fld, h2, hi, Nat.add_sub_cancel' h1]
  · rfl

end Sys2Proof.W

namespace Sys2Proof.Machine

section
variable {s t r : State} {ps : List Piece} {rs as ls : List Nat} {a u v i j k h o n c run : Nat} {w : W} {p : Pkt}
  {qs : List Quarter} {halves : List Nat} {l : LinkSt}

/-! ### What an update may touch -/

/-- From `s` to `t` only the pieces `ps` change, of the routers only `rs`, of the tile agents only `as`, of the registers
only `ls`. -/
structure Within (ps : List Piece) (rs as ls : List Nat) (s t : State) : Prop where
  pieces : changesOnly ps s t
  routers : routersBut rs s t
  agents : ∀ v, v ∉ as → t.ta v = s.ta v
  regs : regsBut ls s t

theorem Within.refl : Within ps rs as ls s s :=
  ⟨changesOnly_refl, fun _ _ => rfl, fun _ _ => rfl, fun _ _ => rfl⟩

theorem Within.trans (h : Within ps rs as ls s t) (k : Within ps rs as ls t r) : Within ps rs as ls s r :=
  ⟨changesOnly_trans h.pieces k.pieces, fun v hv => (k.routers v hv).trans (h.routers v hv),
    fun v hv => (k.agents v hv).trans (h.agents v hv), regsBut_trans h.regs k.regs⟩

theorem Within.mono {ps' : List Piece} {rs' as' ls' : List Nat} (h : Within ps rs as ls s t) (hp : ps ⊆ ps') (hr : rs ⊆ rs')
    (ha : as ⊆ as') (hl : ls ⊆ ls') : Within ps' rs' as' ls' s t :=
  ⟨fun p hn => h.pieces p (fun e => hn (hp e)), fun v hn => h.routers v (fun e => hn (hr e)),
    fun v hn => h.agents v (fun e => hn (ha e)), fun a hn => h.regs a (fun e => hn (hl e))⟩

theorem Within.setReg (hp : .regs ∈ ps) (hl : a ∈ ls) : Within ps rs as ls s (s.setReg a w) :=
  ⟨changesOnly_setReg hp, fun _ _ => State.setReg_rt, fun _ _ => State.setReg_ta, regsBut_setReg hl⟩

theorem Within.setRt {x : Router} (hp : .routers ∈ ps) (hr : u ∈ rs) : Within ps rs as ls s (s.setRt u x) := by
  refine ⟨fun p hn => ?_, fun v hv => State.setRt_ne (fun e => hv (e ▸ hr)), fun _ _ => State.setRt_ta,
    fun _ _ => State.setRt_reg⟩
  cases p with
  | routers => exact absurd hp hn
  | mem => exact fun _ => ⟨rfl, rfl⟩
  | _ => simp [pieceKept]

theorem Within.setTa {x : Agent} (hp : .agents ∈ ps) (ha : u ∈ as) : Within ps rs as ls s (s.setTa u x) := by
  refine ⟨fun p hn => ?_, fun _ _ => State.setTa_rt, fun v hv => State.setTa_ne (fun e => hv (e ▸ ha)),
    fun _ _ => State.setTa_reg⟩
  cases p with
  | agents => exact absurd hp hn
  | mem => exact fun _ => ⟨rfl, rfl⟩
  | _ => simp [pieceKept]

theorem Within.forEach {α : Type} {f : α → State → State} {l : List α}
    (hf : ∀ x ∈ l, ∀ s, Within ps rs as ls s (f x s)) : Within ps rs as ls s (forEach f l s) := by
  induction l generalizing s with
  | nil => exact Within.refl
  | cons x l ih =>
    exact (hf x (by simp) s).trans (ih fun y hy => hf y (List.mem_cons_of_mem x hy))

/-! ### Events that pass or are lost -/

/-- A state with other events in the writer's queue and other counts of lost ones. -/
theorem Within.ofLog {q : List Ev} {n x y : Nat} (hp : .log ∈ ps) :
    Within ps rs as ls s { s with evq := q, evLost := n, evLostFirst := x, evLostLast := y } := by
  refine ⟨fun p hn => ?_, fun _ _ => rfl, fun _ _ => rfl, fun _ _ => rfl⟩
  cases p with
  | log => exact absurd hp hn
  | mem => exact fun _ => ⟨rfl, rfl⟩
  | regs | nis | routers | tmcs | agents | slots | cores => exact fun _ => rfl
  | _ => simp [pieceKept]

/-- A state with other repairs due. -/
theorem Within.ofRepairDue {q : List (Nat × Nat × Nat)} (hp : .firmware ∈ ps) :
    Within ps rs as ls s { s with repairDue := q } := by
  refine ⟨fun p hn => ?_, fun _ _ => rfl, fun _ _ => rfl, fun _ _ => rfl⟩
  cases p with
  | firmware => exact absurd hp hn
  | mem => exact fun _ => ⟨rfl, rfl⟩
  | regs | nis | routers | tmcs | agents | slots | cores => exact fun _ => rfl
  | _ => simp [pieceKept]

theorem Within.pushEv {e : Ev} (hp : .log ∈ ps) : Within ps rs as ls s (pushEv s e) := by
  unfold Machine.pushEv
  split
  · exact Within.ofLog hp
  · exact Within.ofLog hp

/-- The registers of the crossing from router t into its tile agent (R321). -/
def crossingRegs (t : Nat) : List Nat := [taReg t Off.CDC_TA_LOST, taReg t Off.CDC_TA_STAT]

/-- An event of a router changes the log, or the registers of its crossing. -/
theorem Within.logRouter {c : EvCode} {data : List W} (hc : rtrEvent c.code = true) (hp : .log ∈ ps) (hr : .regs ∈ ps)
    (hl : crossingRegs u ⊆ ls) : Within ps rs as ls s (logTile s u c data) := by
  simp only [logTile, hc, if_true, logCross]
  split
  · exact Within.pushEv hp
  · simp only [loseCrossing, overrun]
    have regs : Within ps rs as ls s
        (setBit (incFldSat s (taReg u Off.CDC_TA_LOST) 0 18) (taReg u Off.CDC_TA_STAT) 0 true) :=
      (Within.setReg hr (hl (by simp [crossingRegs]))).trans (Within.setReg hr (hl (by simp [crossingRegs])))
    split
    · exact regs
    · exact regs.trans (Within.pushEv hp)

/-- An event of a router that passes its crossing and finds room. -/
theorem logTile_of_passes {c : EvCode} {data : List W} (hc : rtrEvent c.code = true) (h : eventPasses s (.rtr u)) :
    logTile s u c data = { s with evq := s.evq ++ [mkEv (ftNow s) (nodeTP s u 5) c data] } := by
  obtain ⟨held, room⟩ := h
  simp [logTile, hc, logCross, held, logAt, pushEv, room, ftTile, Xing.node]

theorem Within.repairAsk (hp : .firmware ∈ ps) : Within ps rs as ls s (repairAsk s u i h) := by
  unfold Machine.repairAsk
  split
  · exact Within.refl
  · exact Within.ofRepairDue hp

/-! ### Links and routers: what reads what -/

theorem isLink_across_ne (hu : u < 64) (hi : i < 16) (h : isLink u i = true) : across u i ≠ u := by
  obtain ⟨hc, hr⟩ : i ≠ u % 8 ∧ i ≠ 8 + u / 8 := of_decide_eq_true h
  simp only [across, col, row]
  split <;> omega

theorem linkOf_congr (h : t.rt u = s.rt u) : linkOf t u k = linkOf s u k := by
  unfold linkOf
  rw [h]

@[simp] theorem linkOf_setReg : linkOf (s.setReg a w) u k = linkOf s u k := rfl
@[simp] theorem linkOf_setLink_same {l : LinkSt} : linkOf (setLink s u k l) u k = l := by
  simp [linkOf, setLink, modRt, Sparse.get_set_same]
theorem linkOf_setLink_router {l : LinkSt} (hv : v ≠ u) : linkOf (setLink s u k l) v j = linkOf s v j :=
  linkOf_congr (State.setRt_ne hv)

@[simp] theorem setLink_reg {l : LinkSt} : (setLink s u k l).reg a = s.reg a := rfl
@[simp] theorem setLink_ta {l : LinkSt} : (setLink s u k l).ta v = s.ta v := rfl
@[simp] theorem setLink_fc {l : LinkSt} : (setLink s u k l).fc = s.fc := rfl

theorem Within.setLink {l : LinkSt} (hp : .routers ∈ ps) (hr : u ∈ rs) : Within ps rs as ls s (setLink s u k l) :=
  Within.setRt hp hr

/-! ### Parts of a router -/

/-- A part of the routers that an update of one router leaves. -/
theorem part_modRt {α : Type} {f : Router → Router} (g : Router → α) (hg : ∀ x, g (f x) = g x) :
    g ((modRt s u f).rt v) = g (s.rt v) := by
  by_cases hv : v = u
  · subst hv
    simp [modRt, hg]
  · simp [modRt, State.setRt_ne hv]

theorem linkOf_of_links (h : (t.rt u).links = (s.rt u).links) : linkOf t u k = linkOf s u k := by
  unfold linkOf
  rw [h]

theorem part_setLink {α : Type} {l : LinkSt} (g : Router → α) (hg : ∀ x m, g { x with links := m } = g x) :
    g ((setLink s u k l).rt v) = g (s.rt v) := part_modRt g fun x => hg x _

/-! ### Registers of the links -/

/-- Registers of the slices of one tile at offsets less than a slice apart are different. -/
theorem slcReg_ne_of_offset {o o' : Nat} (h1 : o ≠ o') (h2 : o < o' + 0x1000) (h3 : o' < o + 0x1000) :
    slcReg u h o ≠ slcReg u j o' := by
  unfold slcReg
  omega

@[simp] theorem slcReg_slice_inj : slcReg u h o = slcReg u j o ↔ h = j := by
  unfold slcReg
  omega

/-- A register of a link at a slice is none of the tile agent. -/
theorem slcReg_ne_taReg {o' : Nat} (hh : h < 2) (ho : o < 0x1000) : slcReg u h o ≠ taReg u o' := by
  unfold slcReg taReg
  omega

/-! ### Runs of replay failures (R335) -/

/-- The run of a half is zero from now on. -/
theorem clearFail_cases : (clearFail s u i h = s ∧ getFld s (slcReg u h (Off.LNK_RFAIL i)) 0 4 = 0) ∨
    clearFail s u i h = s.setReg (slcReg u h (Off.LNK_RFAIL i)) ((s.reg (slcReg u h (Off.LNK_RFAIL i))).put 0 4 0) := by
  by_cases hz : getFld s (slcReg u h (Off.LNK_RFAIL i)) 0 4 = 0
  · exact .inl ⟨by simp [clearFail, hz], hz⟩
  · exact .inr (by simp [clearFail, hz, setFld])

theorem Within.clearFail (hp : .regs ∈ ps) (hl : slcReg u h (Off.LNK_RFAIL i) ∈ ls) :
    Within ps rs as ls s (clearFail s u i h) := by
  rcases clearFail_cases (s := s) (u := u) (i := i) (h := h) with ⟨e, -⟩ | e
  · rw [e]
    exact Within.refl
  · rw [e]
    exact Within.setReg hp hl

@[simp] theorem clearFail_fc : (clearFail s u i h).fc = s.fc := by
  rcases clearFail_cases (s := s) (u := u) (i := i) (h := h) with ⟨e, -⟩ | e
  · rw [e]
  · rw [e, State.setReg_fc]

@[simp] theorem clearFail_rt : (clearFail s u i h).rt v = s.rt v := by
  rcases clearFail_cases (s := s) (u := u) (i := i) (h := h) with ⟨e, -⟩ | e
  · rw [e]
  · rw [e, State.setReg_rt]

/-- The run is zero, also where it was. -/
theorem reg_clearFail_same : (clearFail s u i h).reg (slcReg u h (Off.LNK_RFAIL i)) =
    (s.reg (slcReg u h (Off.LNK_RFAIL i))).put 0 4 0 := by
  rcases clearFail_cases (s := s) (u := u) (i := i) (h := h) with ⟨e, hz⟩ | e
  · rw [e, W.put_fld_self hz]
  · simp [e]

/-! ### A flit that is accepted (R10, R332) -/

/-- The sender counts a new flit; one of a replay it has counted. -/
def countSent (s : State) (t i : Nat) : State :=
  if (linkOf s t i).nakFor.isSome then s
  else setLink s (across t i) (portTo (across t i) t)
    { linkOf s (across t i) (portTo (across t i) t) with
      sent := ((linkOf s (across t i) (portTo (across t i) t)).sent + 1) % 32 }

/-- The corrected quarters of a flit count at their slices. -/
def noteQuarters (s : State) (t i : Nat) (qs : List Quarter) : State :=
  forEach (fun e st => quarterCe st t i e.2 e.1) (qs.zip [0, 1, 2, 3]) s

/-- The receiver's runs of replay failures end at both halves. -/
def endFailRuns (s : State) (t i : Nat) : State := clearFail (clearFail s t i 0) t i 1

/-- The receiver has accepted `n` flits, and NAK is over. -/
def countAccepted (s : State) (t i n : Nat) : State :=
  setLink s t i { linkOf s t i with accepted := n, nakFor := none, nakHalves := [], nakFence := none, failRun := 0 }

/-- The replay ends at the sender. -/
def endReplay (s : State) (t i : Nat) : State :=
  setLink s (across t i) (portTo (across t i) t)
    { linkOf s (across t i) (portTo (across t i) t) with replaying := false }

/-- What an accepted flit leaves at both ends of the link. -/
def passLink (s : State) (t i n : Nat) : State := endReplay (countAccepted (endFailRuns s t i) t i n) t i

/-- The flit is accepted: the tile stirs, and the packet has one flit more. -/
def acceptFlit (s : State) (t i n : Nat) (p : Pkt) : State :=
  markReady (deliverFlit (stirTile (noteOut (passLink s t i n) (across t i)) t 1) t i p) t

/-- The halves on which a quarter of a flit is uncorrectable, once for each such quarter. -/
def ueSlices (s : State) (t i : Nat) (qs : List Quarter) : List Nat :=
  ((qs.zip [0, 1, 2, 3]).filter (fun e => isUe e.1)).map (fun e => sliceOf s t i e.2)

theorem isEmpty_ueSlices {qs : List Quarter} (hl : qs.length ≤ 4) : (ueSlices s u i qs).isEmpty = !qs.any isUe := by
  have fst_zip : (qs.zip [0, 1, 2, 3]).map Prod.fst = qs := List.map_fst_zip hl
  rw [ueSlices, List.isEmpty_map]
  conv_rhs => rw [← fst_zip, List.any_map]
  rw [Bool.eq_iff_iff]
  simp [List.filter_eq_nil_iff]

/-- A flit may cross: it is new and the sender has room, or it is the replay that NAK has started. -/
def flitGoes (s : State) (t i : Nat) : Prop :=
  newFlit s t i ∨ ((linkOf s t i).nakFor.isSome = true ∧
    (linkOf s (across t i) (portTo (across t i) t)).replaying = true)

/-- What holds a flit back is absent where one comes and goes. -/
theorem flit_not_held (hc : flitComes s u i p) (hg : flitGoes s u i) :
    (!([0, 1].all (fun h => txFenced s (across u i) (portTo (across u i) u) h == rxFenced s u i h)) ||
      !(!(rxFenced s u i 0 && rxFenced s u i 1)) ||
      ((linkOf s u i).nakFor.isSome && !(linkOf s (across u i) (portTo (across u i) u)).replaying) ||
      ((linkOf s u i).nakFor.isNone && (decide (16 ≤ storeLevel (linkOf s (across u i) (portTo (across u i) u))) ||
        formDue s (across u i) (portTo (across u i) u)))) = false := by
  obtain ⟨-, form, open_, -⟩ := hc
  rw [form, open_]
  rcases hg with ⟨hnak, room, due⟩ | ⟨hnak, hrep⟩
  · simp [hnak, room, due]
  · obtain ⟨key, hkey⟩ := Option.isSome_iff_exists.1 hnak
    simp [hkey, hrep]

theorem arriveFlit_of_good {qs : List Quarter} (hl : qs.length ≤ 4) (hc : flitComes s u i p) (hg : flitGoes s u i)
    (hq : qs.any isUe = false) :
    arriveFlit s u i qs =
      acceptFlit (noteQuarters (countSent s u i) u i qs) u i (((linkOf s u i).accepted + 1) % 32) p := by
  have none_ : (ueSlices s u i qs).isEmpty = true := by simp [isEmpty_ueSlices hl, hq]
  unfold arriveFlit
  simp only [hc.1]
  rw [flit_not_held hc hg, if_neg Bool.false_ne_true]
  exact if_pos none_

theorem arriveFlit_of_ue {qs : List Quarter} (hl : qs.length ≤ 4) (hc : flitComes s u i p) (hg : flitGoes s u i)
    (hq : qs.any isUe = true) :
    arriveFlit s u i qs = rejectFlit (noteQuarters (countSent s u i) u i qs) u i p (ueHalves s u i qs) := by
  have some_ : ¬ (ueSlices s u i qs).isEmpty = true := by simp [isEmpty_ueSlices hl, hq]
  unfold arriveFlit
  simp only [hc.1]
  rw [flit_not_held hc hg, if_neg Bool.false_ne_true]
  exact if_neg some_

/-! ### The sender's count -/

theorem Within.countSent (hp : .routers ∈ ps) (hr : across u i ∈ rs) : Within ps rs as ls s (countSent s u i) := by
  unfold Machine.countSent
  split
  · exact Within.refl
  · exact Within.setLink hp hr

theorem countSent_of_new (hn : (linkOf s u i).nakFor = none) :
    linkOf (countSent s u i) (across u i) (portTo (across u i) u) =
      { linkOf s (across u i) (portTo (across u i) u) with
        sent := ((linkOf s (across u i) (portTo (across u i) u)).sent + 1) % 32 } := by
  simp [countSent, hn]

theorem countSent_of_replay (hn : (linkOf s u i).nakFor.isSome = true) : countSent s u i = s := if_pos hn

theorem countSent_receiver (hne : across u i ≠ u) : (countSent s u i).rt u = s.rt u :=
  (Within.countSent (ps := [.routers]) (rs := [across u i]) (as := []) (ls := []) (by simp) (by simp)).routers u
    (by simpa using hne.symm)

/-! ### Corrected quarters (R333) -/

/-- The registers that a corrected quarter of incoming link i of router u may write. -/
def wireRegs (u i : Nat) : List Nat :=
  [slcReg u 0 (Off.LNK_CE_CNT i), slcReg u 1 (Off.LNK_CE_CNT i), slcReg u 0 (Off.LNK_CE_TRK i),
    slcReg u 1 (Off.LNK_CE_TRK i)] ++ crossingRegs u

theorem sliceOf_lt {q : Nat} (hq : q < 4) : sliceOf s u i q < 2 := by
  unfold sliceOf
  split
  · decide
  · split
    · decide
    · omega

/-- A register of the link at offset o, which none of a corrected quarter's is. -/
theorem not_mem_wireRegs (hh : h < 2) (ho : o < 0x1000) (hi : i < 16) (hc : o ≠ Off.LNK_CE_CNT i)
    (ht : o ≠ Off.LNK_CE_TRK i) :
    slcReg u h o ∉ wireRegs u i := by
  simp only [wireRegs, crossingRegs, slcReg, taReg, Off.LNK_CE_CNT, Off.LNK_CE_TRK, Off.CDC_TA_LOST, Off.CDC_TA_STAT,
    List.mem_append, List.mem_cons, List.not_mem_nil, or_false] at *
  omega

theorem Within.noteWire {x : Nat} (hh : h < 2) (hp : [.regs, .log, .firmware] ⊆ ps) (hl : wireRegs u i ⊆ ls) :
    Within ps rs as ls s (noteWire s u i h x) := by
  obtain ⟨hregs, hlog, hfw⟩ : .regs ∈ ps ∧ .log ∈ ps ∧ .firmware ∈ ps := by simpa using hp
  have count : slcReg u h (Off.LNK_CE_CNT i) ∈ ls := hl (by simp [wireRegs]; omega)
  have track : slcReg u h (Off.LNK_CE_TRK i) ∈ ls := hl (by simp [wireRegs]; omega)
  have marks {w : W} : Within ps rs as ls s
      ((incWrap s (slcReg u h (Off.LNK_CE_CNT i))).setReg (slcReg u h (Off.LNK_CE_TRK i)) w) :=
    (Within.setReg hregs count).trans (Within.setReg hregs track)
  unfold Machine.noteWire
  dsimp only
  split
  · exact marks.trans ((Within.logRouter rfl hlog hregs fun _ hx => hl (List.mem_append_right _ hx)).trans
      (Within.repairAsk hfw))
  · exact marks

theorem not_mem_crossingRegs (hh : h < 2) (ho : o < 0x1000) : slcReg u h o ∉ crossingRegs u := by
  simp [crossingRegs, slcReg_ne_taReg hh ho]

@[simp] theorem repairAsk_reg : (repairAsk s u i h).reg a = s.reg a := by
  unfold repairAsk
  split <;> rfl

theorem reg_logRouter {c : EvCode} {data : List W} (hc : rtrEvent c.code = true) (ha : a ∉ crossingRegs u) :
    (logTile s u c data).reg a = s.reg a :=
  (Within.logRouter (ps := [.log, .regs]) (rs := []) (as := []) hc (by simp) (by simp) (List.Subset.refl _)).regs a ha

/-- A corrected wire counts once, at its slice. -/
theorem reg_noteWire_count {x sl : Nat} (hh : h < 2) (hi : i < 16) :
    (noteWire s u i sl x).reg (slcReg u h (Off.LNK_CE_CNT i)) =
      s.reg (slcReg u h (Off.LNK_CE_CNT i)) + if sl = h then 1 else 0 := by
  have marks {w : W} : ((incWrap s (slcReg u sl (Off.LNK_CE_CNT i))).setReg (slcReg u sl (Off.LNK_CE_TRK i)) w).reg
      (slcReg u h (Off.LNK_CE_CNT i)) = s.reg (slcReg u h (Off.LNK_CE_CNT i)) + if sl = h then 1 else 0 := by
    rw [State.setReg_ne (slcReg_ne_of_offset (by simp [Off.LNK_CE_CNT, Off.LNK_CE_TRK])
      (by simp [Off.LNK_CE_CNT, Off.LNK_CE_TRK]; omega) (by simp [Off.LNK_CE_CNT, Off.LNK_CE_TRK]; omega))]
    unfold incWrap
    split
    · next hs => simp [hs]
    · next hs => simp [State.setReg_ne (mt slcReg_slice_inj.1 (Ne.symm hs))]
  unfold noteWire
  dsimp only
  split
  · rw [repairAsk_reg, reg_logRouter rfl (not_mem_crossingRegs hh (by simp [Off.LNK_CE_CNT]; omega))]
    exact marks
  · exact marks

theorem Within.quarterCe {q : Quarter} (hk : k < 4) (hp : [.regs, .log, .firmware] ⊆ ps) (hl : wireRegs u i ⊆ ls) :
    Within ps rs as ls s (quarterCe s u i k q) := by
  cases q with
  | ce x => exact Within.noteWire (sliceOf_lt hk) hp hl
  | _ => exact Within.refl

/-- The slice of a quarter depends on the halves in use. -/
theorem sliceOf_congr (h : ∀ h < 2, rxFenced t u i h = rxFenced s u i h) : sliceOf t u i k = sliceOf s u i k := by
  simp [sliceOf, h 0 (by decide), h 1 (by decide)]

theorem rxFenced_quarterCe {q : Quarter} (hk : k < 4) (hi : i < 16) (hh : h < 2) :
    rxFenced (quarterCe s u i k q) u i h = rxFenced s u i h :=
  congrArg (fun w => W.bit w 1) ((Within.quarterCe (ps := [.regs, .log, .firmware]) (rs := []) (as := []) hk
    (List.Subset.refl _) (List.Subset.refl _)).regs _ (not_mem_wireRegs hh (by simp [Off.LNK_STAT]; omega) hi
      (by simp [Off.LNK_STAT, Off.LNK_CE_CNT]) (by simp [Off.LNK_STAT, Off.LNK_CE_TRK])))

/-- The quarter has been corrected, at half h. -/
def correctedAt (s : State) (u i h : Nat) (e : Quarter × Nat) : Bool :=
  !isUe e.1 && decide (e.1 ≠ .clean) && decide (sliceOf s u i e.2 = h)

theorem reg_quarterCe_count {e : Quarter × Nat} (hh : h < 2) (hi : i < 16) :
    (quarterCe s u i e.2 e.1).reg (slcReg u h (Off.LNK_CE_CNT i)) =
      s.reg (slcReg u h (Off.LNK_CE_CNT i)) + if correctedAt s u i h e then 1 else 0 := by
  obtain ⟨q, k⟩ := e
  cases q with
  | ce x => simp [quarterCe, correctedAt, isUe, reg_noteWire_count hh hi]
  | clean => simp [quarterCe, correctedAt]
  | ue => simp [quarterCe, correctedAt, isUe]

theorem reg_quarters_count {l : List (Quarter × Nat)} (hl : ∀ e ∈ l, e.2 < 4) (hh : h < 2) (hi : i < 16) :
    (forEach (fun e st => quarterCe st u i e.2 e.1) l s).reg (slcReg u h (Off.LNK_CE_CNT i)) =
      s.reg (slcReg u h (Off.LNK_CE_CNT i)) + BitVec.ofNat 36 (l.filter (correctedAt s u i h)).length := by
  induction l generalizing s with
  | nil => simp [forEach]
  | cons e l ih =>
    have he : e.2 < 4 := hl e (by simp)
    have slices : correctedAt (quarterCe s u i e.2 e.1) u i h = correctedAt s u i h :=
      funext fun x => by rw [correctedAt, sliceOf_congr fun j hj => rxFenced_quarterCe he hi hj, correctedAt]
    rw [forEach, ih fun x hx => hl x (List.mem_cons_of_mem e hx), slices, reg_quarterCe_count hh hi, List.filter_cons]
    split
    · rw [List.length_cons, Nat.add_comm, BitVec.ofNat_add, BitVec.add_assoc]
      rfl
    · simp

theorem quarters_lt {qs : List Quarter} : ∀ e ∈ qs.zip [0, 1, 2, 3], e.2 < 4 := by
  intro e he
  have := (List.of_mem_zip he).2
  simp at this
  omega

theorem Within.noteQuarters {qs : List Quarter} (hp : [.regs, .log, .firmware] ⊆ ps) (hl : wireRegs u i ⊆ ls) :
    Within ps rs as ls s (noteQuarters s u i qs) :=
  Within.forEach fun e he _ => Within.quarterCe (quarters_lt e he) hp hl

theorem reg_noteQuarters_count {qs : List Quarter} (hh : h < 2) (hi : i < 16) :
    (noteQuarters s u i qs).reg (slcReg u h (Off.LNK_CE_CNT i)) =
      s.reg (slcReg u h (Off.LNK_CE_CNT i)) + BitVec.ofNat 36 (ceQuarters s u i h qs) :=
  reg_quarters_count quarters_lt hh hi

theorem noteQuarters_clean : noteQuarters s u i [.clean, .clean, .clean, .clean] = s := rfl
theorem noteQuarters_ue : noteQuarters s u i [.ue, .clean, .clean, .clean] = s := rfl

/-! ### The end of runs and of a replay -/

@[simp] theorem linkOf_clearFail : linkOf (clearFail s u i h) v k = linkOf s v k := linkOf_congr clearFail_rt

/-- The registers that hold the runs of replay failures of a link. -/
def failRegs (u i : Nat) : List Nat := [slcReg u 0 (Off.LNK_RFAIL i), slcReg u 1 (Off.LNK_RFAIL i)]

theorem Within.passLink (hp : [.routers, .regs] ⊆ ps) (hr : [u, across u i] ⊆ rs) (hl : failRegs u i ⊆ ls) :
    Within ps rs as ls s (passLink s u i n) := by
  obtain ⟨hrt, hregs⟩ : .routers ∈ ps ∧ .regs ∈ ps := by simpa using hp
  obtain ⟨here, there⟩ : u ∈ rs ∧ across u i ∈ rs := by simpa using hr
  obtain ⟨h0, h1⟩ : slcReg u 0 (Off.LNK_RFAIL i) ∈ ls ∧ slcReg u 1 (Off.LNK_RFAIL i) ∈ ls := by simpa [failRegs] using hl
  have runs : Within ps rs as ls s (endFailRuns s u i) :=
    (Within.clearFail hregs h0).trans (Within.clearFail hregs h1)
  exact (runs.trans (Within.setLink hrt here)).trans (Within.setLink hrt there)

theorem passLink_receiver (hne : across u i ≠ u) : linkOf (passLink s u i n) u i =
    { linkOf s u i with accepted := n, nakFor := none, nakHalves := [], nakFence := none, failRun := 0 } := by
  simp [passLink, endReplay, countAccepted, endFailRuns, linkOf_setLink_router hne.symm]

theorem passLink_sender (hne : across u i ≠ u) : linkOf (passLink s u i n) (across u i) (portTo (across u i) u) =
    { linkOf s (across u i) (portTo (across u i) u) with replaying := false } := by
  simp [passLink, endReplay, countAccepted, endFailRuns, linkOf_setLink_router hne]

/-- A part of the routers beside the links is as it was. -/
theorem part_passLink {α : Type} (g : Router → α) (hg : ∀ x l, g { x with links := l } = g x) :
    g ((passLink s u i n).rt v) = g (s.rt v) := by
  rw [passLink, endReplay, part_setLink g hg, countAccepted, part_setLink g hg, endFailRuns, clearFail_rt, clearFail_rt]

theorem passLink_fc : (passLink s u i n).fc = s.fc := by
  simp [passLink, endReplay, countAccepted, endFailRuns]

theorem reg_passLink_fail (hh : h < 2) : (passLink s u i n).reg (slcReg u h (Off.LNK_RFAIL i)) =
    (s.reg (slcReg u h (Off.LNK_RFAIL i))).put 0 4 0 := by
  have kept {t : State} {h j : Nat} (hj : j ≠ h) :
      (clearFail t u i h).reg (slcReg u j (Off.LNK_RFAIL i)) = t.reg (slcReg u j (Off.LNK_RFAIL i)) :=
    (Within.clearFail (ps := [.regs]) (rs := []) (as := []) (ls := [slcReg u h (Off.LNK_RFAIL i)]) (by simp)
      (by simp)).regs _ (by simpa using hj)
  simp only [passLink, endReplay, countAccepted, endFailRuns, setLink_reg]
  obtain rfl | rfl : h = 0 ∨ h = 1 := by omega
  · rw [kept (by decide), reg_clearFail_same]
  · rw [reg_clearFail_same, kept (by decide)]

/-! ### A tile on its way to Doze stirs (R298) -/

theorem stirTile_of_idle (he : (s.ta u).entering = none) : stirTile s u c = s := by
  simp [stirTile, he]

/-- A part of the routers beside the resynchronisations is as it was when ports ask for new ones. -/
theorem part_resyncAll {α : Type} {half : Bool} (g : Router → α) (hg : ∀ x q, g { x with resync := q } = g x) :
    g ((resyncAll s u half).rt v) = g (s.rt v) := by
  unfold resyncAll
  generalize inputPorts u = l
  induction l generalizing s with
  | nil => rw [forEach]
  | cons x l ih =>
    rw [forEach, ih]
    exact part_modRt g fun _ => hg _ _

/-- An abandoned entry to Doze is counted and recorded. -/
theorem recordRefusal_of_doze {b : Bool} : recordRefusal s u 1 3 b =
    (incWrap (incWrap s (taReg u Off.PWR_REFUSE_CNT)) (taReg u (Off.PWR_REFUSE_BY 1))).setReg
      (taReg u Off.PWR_LAST_REFUSER) (W.at 0 4 1 ||| W.at 4 3 3 ||| W.at 7 1 (b2n b)) :=
 by
  simp [recordRefusal]

theorem recordRefusal_rt {b : Bool} : (recordRefusal s u 1 3 b).rt v = s.rt v := by
  rw [recordRefusal_of_doze, State.setReg_rt, incWrap, State.setReg_rt, incWrap, State.setReg_rt]

theorem part_stirTile {α : Type} (g : Router → α) (hg : ∀ x q, g { x with resync := q } = g x) :
    g ((stirTile s u 1).rt v) = g (s.rt v) := by
  cases he : (s.ta u).entering with
  | none => rw [stirTile_of_idle he]
  | some e =>
    simp only [stirTile, endEntering, he, Option.isSome_some, if_true, recordRefusal_rt]
    rw [part_resyncAll g hg, modTa, State.setTa_rt]

theorem Within.resyncAll {half : Bool} (hp : .routers ∈ ps) (hr : u ∈ rs) :
    Within ps rs as ls s (resyncAll s u half) :=
  Within.forEach fun _ _ _ => Within.setRt hp hr

/-- The registers that record a refusal by the router (R311). -/
def stirRegs (u : Nat) : List Nat :=
  [taReg u Off.PWR_REFUSE_CNT, taReg u (Off.PWR_REFUSE_BY 1), taReg u Off.PWR_LAST_REFUSER]

theorem Within.stirTile (hp : [.routers, .agents, .regs] ⊆ ps) (hr : u ∈ rs) (ha : u ∈ as) (hl : stirRegs u ⊆ ls) :
    Within ps rs as ls s (stirTile s u 1) := by
  obtain ⟨hrt, hta, hregs⟩ : .routers ∈ ps ∧ .agents ∈ ps ∧ .regs ∈ ps := by simpa using hp
  obtain ⟨cnt, by1, last⟩ : taReg u Off.PWR_REFUSE_CNT ∈ ls ∧ taReg u (Off.PWR_REFUSE_BY 1) ∈ ls ∧
    taReg u Off.PWR_LAST_REFUSER ∈ ls := by simpa [stirRegs] using hl
  cases he : (s.ta u).entering with
  | none => rw [stirTile_of_idle he]; exact Within.refl
  | some e =>
    simp only [Machine.stirTile, endEntering, he, Option.isSome_some, if_true, recordRefusal_of_doze]
    exact ((((Within.setTa hta ha).trans (Within.resyncAll hrt hr)).trans (Within.setReg hregs cnt)).trans
      (Within.setReg hregs by1)).trans (Within.setReg hregs last)

/-! ### A flit enters the buffer, or passes on -/

/-- A part of the routers beside the buffers is as it was. -/
theorem part_markReady {α : Type} (g : Router → α) (hg : ∀ x q, g { x with inq := q } = g x) :
    g ((markReady s u).rt v) = g (s.rt v) := part_modRt g fun _ => hg _ _

theorem Within.markReady (hp : .routers ∈ ps) (hr : u ∈ rs) : Within ps rs as ls s (markReady s u) :=
  Within.setRt hp hr

/-- Of the packets in a buffer, which they are and how much of each has come. -/
def heldFlits (x : Router) : List (Nat × Nat) := x.inq.map fun f => (f.pkt.key, f.arrived)

theorem heldFlits_markReady : heldFlits ((markReady s u).rt v) = heldFlits (s.rt v) := by
  refine part_modRt heldFlits fun x => ?_
  simp only [heldFlits, List.map_map]
  refine List.map_congr_left fun f _ => ?_
  simp only [Function.comp]
  split <;> rfl

theorem deliverFlit_of_fresh (ht : (s.rt u).trail.find? (fun f => decide (f.pkt.key = p.key)) = none) :
    deliverFlit s u i p = modRt s u (fun x => { x with inq := x.inq.map (fun f =>
      if f.pkt.key = p.key then { f with arrived := f.arrived + 1 } else f) }) := by
  simp only [deliverFlit, ht]

theorem heldFlits_deliverFlit (ht : (s.rt u).trail.find? (fun f => decide (f.pkt.key = p.key)) = none) :
    heldFlits ((deliverFlit s u i p).rt u) = (s.rt u).inq.map (fun f =>
      (f.pkt.key, if f.pkt.key = p.key then f.arrived + 1 else f.arrived)) := by
  rw [deliverFlit_of_fresh ht]
  simp only [modRt, State.setRt_same, heldFlits, List.map_map]
  refine List.map_congr_left fun f _ => ?_
  simp only [Function.comp]
  split <;> rfl

/-- A packet that passes on behind its head has one flit fewer to come. -/
def passBehind (s : State) (t : Nat) (p : Pkt) : State :=
  modRt s t (fun x => { x with trail := x.trail.map (fun g =>
    if g.pkt.key = p.key then { g with left := g.left - 1 } else g) })

/-- A pip goes back to the upstream side of an incoming link. -/
def pushPip (s : State) (t i k : Nat) : State :=
  modRt s (upstream t i).1 (fun x => { x with pips := x.pips ++ [⟨(upstream t i).2, k, 0⟩] })

theorem passBehind_resync : ((passBehind s u p).rt v).resync = (s.rt v).resync := part_modRt Router.resync fun _ => rfl
theorem passBehind_cnts : ((passBehind s u p).rt v).cnts = (s.rt v).cnts := part_modRt Router.cnts fun _ => rfl

theorem resyncOf_passBehind : resyncOf (passBehind s u p) v i = resyncOf s v i := by
  rw [resyncOf, passBehind_resync, resyncOf]

theorem cntOf_passBehind : cntOf (passBehind s u p) v k = cntOf s v k := by
  rw [cntOf, passBehind_cnts, cntOf]

/-- A flit behind the head of a packet that passes on, not its last, frees its slot at once: with no resynchronisation
under way and no deficit to pay, its pip goes back. -/
theorem deliverFlit_of_trail {f : Trail} (ht : (s.rt u).trail.find? (fun f => decide (f.pkt.key = p.key)) = some f)
    (hleft : 1 < f.left) (hr : resyncOf s u i = none) (hd : (cntOf s (upstream u i).1 (upstream u i).2).deficit = 0) :
    deliverFlit s u i p = pushPip (passBehind s u p) u i (pktKey p f.vc) := by
  have resync : resyncOf (passBehind s u p) u i = none := resyncOf_passBehind.trans hr
  have nothing : pays (cntOf (passBehind s u p) (upstream u i).1 (upstream u i).2) (pktKey p f.vc) = false := by
    simp [pays, cntOf_passBehind, hd]
  have returned : returnPip (passBehind s u p) u i (pktKey p f.vc) 0 = pushPip (passBehind s u p) u i (pktKey p f.vc) := by
    simp only [returnPip, resync, nothing, Bool.false_eq_true, if_false]
    rfl
  simp only [deliverFlit, ht, Nat.not_le.2 hleft, decide_false, Bool.false_eq_true, if_false]
  exact returned

theorem trail_pushPip : ((pushPip s u i k).rt v).trail = (s.rt v).trail := part_modRt Router.trail fun _ => rfl

theorem pips_pushPip : ((pushPip s u i k).rt (upstream u i).1).pips =
    (s.rt (upstream u i).1).pips ++ [⟨(upstream u i).2, k, 0⟩] := by
  simp [pushPip, modRt]

/-! ### Where the flit goes -/

/-- The flit goes into the buffer, or passes on as one of the middle of its packet, whose slot is free at once: no
resynchronisation of the port is under way, and no deficit has to be paid. -/
def flitPlaced (s : State) (t i : Nat) (p : Pkt) : Prop :=
  (s.rt t).trail.find? (fun f => decide (f.pkt.key = p.key)) = none ∨
  ∃ f, (s.rt t).trail.find? (fun f => decide (f.pkt.key = p.key)) = some f ∧ 1 < f.left ∧ resyncOf s t i = none ∧
    (cntOf s (upstream t i).1 (upstream t i).2).deficit = 0

theorem linkOf_deliverFlit (hf : flitPlaced s u i p) : linkOf (deliverFlit s u i p) v k = linkOf s v k := by
  refine linkOf_of_links ?_
  rcases hf with ht | ⟨f, ht, hleft, hr, hd⟩
  · rw [deliverFlit_of_fresh ht]
    exact part_modRt Router.links fun _ => rfl
  · have behind : ((passBehind s u p).rt v).links = (s.rt v).links := part_modRt Router.links fun _ => rfl
    rw [deliverFlit_of_trail ht hleft hr hd, ← behind]
    exact part_modRt Router.links fun _ => rfl

theorem Within.deliverFlit (hf : flitPlaced s u i p) (hp : .routers ∈ ps) (hr : [u, (upstream u i).1] ⊆ rs) :
    Within ps rs as ls s (deliverFlit s u i p) := by
  obtain ⟨here, there⟩ : u ∈ rs ∧ (upstream u i).1 ∈ rs := by simpa using hr
  rcases hf with ht | ⟨f, ht, hleft, hr, hd⟩
  · rw [deliverFlit_of_fresh ht]
    exact Within.setRt hp here
  · rw [deliverFlit_of_trail ht hleft hr hd]
    exact (Within.setRt (s := s) hp here).trans (Within.setRt hp there)

theorem upstream_of_link (hi : i < 16) : upstream u i = (across u i, portTo (across u i) u) := if_pos hi

/-! ### A flit that is accepted, as a whole -/

/-- The state in which an accepted flit goes on. -/
def beforeBuffer (s : State) (t i n : Nat) : State := stirTile (noteOut (passLink s t i n) (across t i)) t 1

theorem acceptFlit_eq : acceptFlit s u i n p = markReady (deliverFlit (beforeBuffer s u i n) u i p) u := rfl

theorem Within.noteOut (hp : .agents ∈ ps) (ha : v ∈ as) : Within ps rs as ls s (noteOut s v) := Within.setTa hp ha

theorem noteOut_rt : (noteOut s u).rt v = s.rt v := State.setTa_rt

/-- A part of the routers beside links and resynchronisations is as it was. -/
theorem part_beforeBuffer {α : Type} (g : Router → α) (hl : ∀ x l, g { x with links := l } = g x)
    (hr : ∀ x q, g { x with resync := q } = g x) : g ((beforeBuffer s u i n).rt v) = g (s.rt v) := by
  rw [beforeBuffer, part_stirTile g hr, noteOut_rt, part_passLink g hl]

theorem trail_beforeBuffer : ((beforeBuffer s u i n).rt v).trail = (s.rt v).trail :=
  part_beforeBuffer Router.trail (fun _ _ => rfl) (fun _ _ => rfl)

theorem inq_beforeBuffer : ((beforeBuffer s u i n).rt v).inq = (s.rt v).inq :=
  part_beforeBuffer Router.inq (fun _ _ => rfl) (fun _ _ => rfl)

/-- Where no entry to Doze ends, the resynchronisations are as they were too. -/
theorem beforeBuffer_of_idle (hne : across u i ≠ u) (he : (s.ta u).entering = none) :
    beforeBuffer s u i n = noteOut (passLink s u i n) (across u i) := by
  refine stirTile_of_idle ?_
  have kept : (passLink s u i n).ta u = s.ta u :=
    (Within.passLink (ps := [.routers, .regs]) (as := []) (List.Subset.refl _) (List.Subset.refl _)
      (List.Subset.refl _)).agents u (by simp)
  rw [noteOut, modTa, State.setTa_ne hne.symm, kept, he]

/-- A new packet is one still when its flit goes on. -/
theorem flitPlaced_of_fresh (ht : (s.rt u).trail.find? (fun f => decide (f.pkt.key = p.key)) = none) :
    flitPlaced (beforeBuffer s u i n) u i p :=
  .inl (by rw [trail_beforeBuffer, ht])

theorem resyncOf_beforeBuffer (hne : across u i ≠ u) (he : (s.ta u).entering = none) :
    resyncOf (beforeBuffer s u i n) v k = resyncOf s v k := by
  rw [beforeBuffer_of_idle hne he, resyncOf, noteOut_rt, part_passLink Router.resync fun _ _ => rfl, resyncOf]

theorem cntOf_beforeBuffer : cntOf (beforeBuffer s u i n) v k = cntOf s v k := by
  rw [cntOf, part_beforeBuffer Router.cnts (fun _ _ => rfl) (fun _ _ => rfl), cntOf]

theorem linkOf_acceptFlit (hf : flitPlaced (beforeBuffer s u i n) u i p) :
    linkOf (acceptFlit s u i n p) v k = linkOf (passLink s u i n) v k := by
  have marked : linkOf (acceptFlit s u i n p) v k = linkOf (deliverFlit (beforeBuffer s u i n) u i p) v k :=
    linkOf_of_links (part_markReady Router.links fun _ _ => rfl)
  have stirred : linkOf (beforeBuffer s u i n) v k = linkOf (passLink s u i n) v k := by
    refine linkOf_of_links ?_
    rw [beforeBuffer, part_stirTile Router.links fun _ _ => rfl, noteOut_rt]
  rw [marked, linkOf_deliverFlit hf, stirred]

/-- The part of an accepted flit's effect that stands in the buffers. -/
theorem Within.buffered (hi : i < 16) (hf : flitPlaced (beforeBuffer s u i n) u i p) :
    Within [.routers] [u, across u i] [] [] (beforeBuffer s u i n) (acceptFlit s u i n p) :=
  (Within.deliverFlit hf (by simp) (by simp [upstream_of_link hi])).trans (Within.markReady (by simp) (by simp))

theorem heldFlits_acceptFlit (ht : (s.rt u).trail.find? (fun f => decide (f.pkt.key = p.key)) = none) :
    heldFlits ((acceptFlit s u i n p).rt u) = (s.rt u).inq.map (fun f =>
      (f.pkt.key, if f.pkt.key = p.key then f.arrived + 1 else f.arrived)) := by
  have fresh : ((beforeBuffer s u i n).rt u).trail.find? (fun f => decide (f.pkt.key = p.key)) = none := by
    rw [trail_beforeBuffer, ht]
  rw [← inq_beforeBuffer (s := s) (u := u) (i := i) (n := n), acceptFlit_eq, heldFlits_markReady,
    heldFlits_deliverFlit fresh]

/-- The runs of both halves have ended. -/
theorem reg_acceptFlit_fail (hi : i < 16) (hh : h < 2) (hf : flitPlaced (beforeBuffer s u i n) u i p) :
    (acceptFlit s u i n p).reg (slcReg u h (Off.LNK_RFAIL i)) = (s.reg (slcReg u h (Off.LNK_RFAIL i))).put 0 4 0 := by
  have stirred : (beforeBuffer s u i n).reg (slcReg u h (Off.LNK_RFAIL i)) =
      (noteOut (passLink s u i n) (across u i)).reg (slcReg u h (Off.LNK_RFAIL i)) :=
    (Within.stirTile (ps := [.routers, .agents, .regs]) (rs := [u]) (as := [u]) (List.Subset.refl _) (by simp) (by simp)
      (List.Subset.refl _)).regs _ (by
        have far (o' : Nat) := slcReg_ne_taReg (u := u) (o' := o') hh (show Off.LNK_RFAIL i < 0x1000 by
          simp [Off.LNK_RFAIL]; omega)
        simp [stirRegs, far])
  rw [(Within.buffered hi hf).regs _ (by simp), stirred, noteOut, modTa, State.setTa_reg, reg_passLink_fail hh]

/-- The sending tile notes that its router sent a flit (R298). -/
theorem ta_acceptFlit_sender (hi : i < 16) (hne : across u i ≠ u) (hf : flitPlaced (beforeBuffer s u i n) u i p) :
    (acceptFlit s u i n p).ta (across u i) = { s.ta (across u i) with outFc := s.fc } := by
  have stirred : (beforeBuffer s u i n).ta (across u i) = (noteOut (passLink s u i n) (across u i)).ta (across u i) :=
    (Within.stirTile (ps := [.routers, .agents, .regs]) (rs := [u]) (as := [u]) (List.Subset.refl _) (by simp) (by simp)
      (List.Subset.refl _)).agents _ (by simpa using hne)
  have kept : (passLink s u i n).ta (across u i) = s.ta (across u i) :=
    (Within.passLink (ps := [.routers, .regs]) (as := []) (List.Subset.refl _) (List.Subset.refl _)
      (List.Subset.refl _)).agents _ (by simp)
  rw [(Within.buffered hi hf).agents _ (by simp), stirred, noteOut, modTa, State.setTa_same, kept, passLink_fc]

/-- What a flit may touch that comes to a tile in no entry to Doze. -/
theorem Within.acceptFlit_idle (hi : i < 16) (hne : across u i ≠ u) (he : (s.ta u).entering = none)
    (hf : flitPlaced (beforeBuffer s u i n) u i p) :
    Within [.routers, .agents, .regs] [u, across u i] [across u i] (failRegs u i) s (acceptFlit s u i n p) := by
  have before : Within [.routers, .agents, .regs] [u, across u i] [across u i] (failRegs u i) s (beforeBuffer s u i n) := by
    rw [beforeBuffer_of_idle hne he]
    exact (Within.passLink (by simp) (List.Subset.refl _) (List.Subset.refl _)).trans (Within.noteOut (by simp) (by simp))
  exact before.trans ((Within.buffered hi hf).mono (by simp) (List.Subset.refl _) (by simp) (by simp))

theorem Within.fc (h : Within ps rs as ls s t) (hp : .time ∉ ps) : t.fc = s.fc := (h.pieces .time hp).1

/-! ### The state in which the receiver has looked at the check bits -/

/-- The sender has counted the flit, and the quarters that the receiver has corrected have counted. -/
def checked (s : State) (t i : Nat) (qs : List Quarter) : State := noteQuarters (countSent s t i) t i qs

theorem Within.ofChecked (hp : [.routers, .regs, .log, .firmware] ⊆ ps) (hr : across u i ∈ rs) (hl : wireRegs u i ⊆ ls) :
    Within ps rs as ls s (checked s u i qs) :=
  (Within.countSent (hp (by simp)) hr).trans (Within.noteQuarters (fun x hx => hp (by simp_all)) hl)

theorem checked_rt : (checked s u i qs).rt v = (countSent s u i).rt v :=
  (Within.noteQuarters (ps := [.regs, .log, .firmware]) (rs := []) (as := []) (List.Subset.refl _)
    (List.Subset.refl _)).routers v (by simp)

theorem checked_rt_here (hne : across u i ≠ u) : (checked s u i qs).rt u = s.rt u :=
  checked_rt.trans (countSent_receiver hne)

theorem checked_ta : (checked s u i qs).ta v = s.ta v :=
  (Within.ofChecked (ps := [.routers, .regs, .log, .firmware]) (rs := [across u i]) (as := []) (List.Subset.refl _) (by simp)
    (List.Subset.refl _)).agents v (by simp)

theorem checked_fc : (checked s u i qs).fc = s.fc :=
  (Within.ofChecked (ps := [.routers, .regs, .log, .firmware]) (rs := [across u i]) (as := []) (List.Subset.refl _) (by simp)
    (List.Subset.refl _)).fc (by simp)

/-- A part of the routers beside the links is as it was. -/
theorem part_checked {α : Type} (g : Router → α) (hg : ∀ x l, g { x with links := l } = g x) :
    g ((checked s u i qs).rt v) = g (s.rt v) := by
  rw [checked_rt, countSent]
  split
  · rfl
  · rw [part_setLink g hg]

theorem reg_checked_count (hh : h < 2) (hi : i < 16) : (checked s u i qs).reg (slcReg u h (Off.LNK_CE_CNT i)) =
    s.reg (slcReg u h (Off.LNK_CE_CNT i)) + BitVec.ofNat 36 (ceQuarters s u i h qs) := by
  have regs : (countSent s u i).regs = s.regs := by
    unfold countSent
    split
    · rfl
    · rfl
  have same (a : Nat) : (countSent s u i).reg a = s.reg a := congrArg (fun m => Sparse.get resetValue m a) regs
  have slices (q : Nat) : sliceOf (countSent s u i) u i q = sliceOf s u i q :=
    sliceOf_congr fun j _ => congrArg (fun w => W.bit w 1) (same _)
  rw [checked, reg_noteQuarters_count hh hi, same, ceQuarters, ceQuarters]
  simp only [slices]

/-! ### What an accepted flit leaves -/

theorem accepted_receiver (hne : across u i ≠ u) (hf : flitPlaced (beforeBuffer (checked s u i qs) u i n) u i p) :
    linkOf (acceptFlit (checked s u i qs) u i n p) u i =
      { linkOf s u i with accepted := n, nakFor := none, nakHalves := [], nakFence := none, failRun := 0 } := by
  rw [linkOf_acceptFlit hf, passLink_receiver hne, linkOf_congr (checked_rt_here hne)]

/-- The replay ends at the sender, whose count is the one that the flit found. -/
theorem accepted_sender (hne : across u i ≠ u) (hf : flitPlaced (beforeBuffer (checked s u i qs) u i n) u i p) :
    linkOf (acceptFlit (checked s u i qs) u i n p) (across u i) (portTo (across u i) u) =
      { linkOf (countSent s u i) (across u i) (portTo (across u i) u) with replaying := false } := by
  rw [linkOf_acceptFlit hf, passLink_sender hne, linkOf_congr checked_rt]

theorem accepted_held (hne : across u i ≠ u) (ht : (s.rt u).trail.find? (fun f => decide (f.pkt.key = p.key)) = none) :
    ((acceptFlit (checked s u i qs) u i n p).rt u).inq.map (fun f => (f.pkt.key, f.arrived)) =
      (s.rt u).inq.map (fun f => (f.pkt.key, if f.pkt.key = p.key then f.arrived + 1 else f.arrived)) := by
  rw [← heldFlits, heldFlits_acceptFlit, checked_rt_here hne]
  rw [checked_rt_here hne, ht]

theorem accepted_placed (hne : across u i ≠ u)
    (ht : (s.rt u).trail.find? (fun f => decide (f.pkt.key = p.key)) = none) :
    flitPlaced (beforeBuffer (checked s u i qs) u i n) u i p :=
  flitPlaced_of_fresh (by rw [checked_rt_here hne, ht])

theorem accepted_ta_sender (hi : i < 16) (hne : across u i ≠ u)
    (hf : flitPlaced (beforeBuffer (checked s u i qs) u i n) u i p) :
    (acceptFlit (checked s u i qs) u i n p).ta (across u i) = { s.ta (across u i) with outFc := s.fc } := by
  rw [ta_acceptFlit_sender hi hne hf, checked_ta, checked_fc]

/-- What a flit with clean quarters may touch. -/
theorem Within.accepted_clean (hi : i < 16) (hne : across u i ≠ u) (he : (s.ta u).entering = none)
    (hf : flitPlaced (beforeBuffer (checked s u i [.clean, .clean, .clean, .clean]) u i n) u i p) :
    Within [.routers, .agents, .regs] [u, across u i] [across u i] (failRegs u i) s
      (acceptFlit (checked s u i [.clean, .clean, .clean, .clean]) u i n p) := by
  have counted : Within [.routers, .agents, .regs] [u, across u i] [across u i] (failRegs u i) s
      (checked s u i [.clean, .clean, .clean, .clean]) := Within.countSent (by simp) (by simp)
  exact counted.trans (Within.acceptFlit_idle hi hne (by rw [checked_ta, he]) hf)

/-- What a flit with clean and corrected quarters may touch. -/
theorem Within.accepted (hi : i < 16) (hne : across u i ≠ u) (he : (s.ta u).entering = none)
    (hf : flitPlaced (beforeBuffer (checked s u i qs) u i n) u i p) :
    Within [.routers, .agents, .regs, .log, .firmware] [u, across u i] [across u i] (wireRegs u i ++ failRegs u i) s
      (acceptFlit (checked s u i qs) u i n p) :=
  (Within.ofChecked (by simp) (by simp) (List.subset_append_left _ _)).trans
    ((Within.acceptFlit_idle hi hne (by rw [checked_ta, he]) hf).mono (by simp) (List.Subset.refl _) (List.Subset.refl _)
      (List.subset_append_right _ _))

theorem reg_accepted_count (hi : i < 16) (hne : across u i ≠ u) (he : (s.ta u).entering = none) (hh : h < 2)
    (hf : flitPlaced (beforeBuffer (checked s u i qs) u i n) u i p) :
    (acceptFlit (checked s u i qs) u i n p).reg (slcReg u h (Off.LNK_CE_CNT i)) =
      s.reg (slcReg u h (Off.LNK_CE_CNT i)) + BitVec.ofNat 36 (ceQuarters s u i h qs) := by
  have apart (j : Nat) : slcReg u h (Off.LNK_CE_CNT i) ≠ slcReg u j (Off.LNK_RFAIL i) :=
    slcReg_ne_of_offset (by simp [Off.LNK_CE_CNT, Off.LNK_RFAIL]) (by simp [Off.LNK_CE_CNT, Off.LNK_RFAIL]; omega)
      (by simp [Off.LNK_CE_CNT, Off.LNK_RFAIL]; omega)
  rw [(Within.acceptFlit_idle hi hne (by rw [checked_ta, he]) hf).regs _ (by simp [failRegs, apart]),
    reg_checked_count hh hi]

/-! ### A flit of a packet that is discarded or passes on -/

/-- With no resynchronisation under way and no deficit to pay, a flit in the middle of its packet is placed. -/
theorem accepted_placed_behind {f : Trail} (hne : across u i ≠ u) (he : (s.ta u).entering = none)
    (ht : (s.rt u).trail.find? (fun f => decide (f.pkt.key = p.key)) = some f)
    (hr : resyncOf s u i = none) (hd : (cntOf s (upstream u i).1 (upstream u i).2).deficit = 0) :
    (((beforeBuffer (checked s u i qs) u i n).rt u).trail.find? (fun f => decide (f.pkt.key = p.key)) = some f ∧
      resyncOf (beforeBuffer (checked s u i qs) u i n) u i = none ∧
      (cntOf (beforeBuffer (checked s u i qs) u i n) (upstream u i).1 (upstream u i).2).deficit = 0) := by
  refine ⟨?_, ?_, ?_⟩
  · rw [trail_beforeBuffer, checked_rt_here hne, ht]
  · rw [resyncOf_beforeBuffer hne (by rw [checked_ta, he]), resyncOf, checked_rt_here hne, ← resyncOf, hr]
  · rw [cntOf_beforeBuffer, cntOf, part_checked Router.cnts fun _ _ => rfl, ← cntOf, hd]

theorem heldFlits_pushPip : heldFlits ((pushPip s u i k).rt v) = heldFlits (s.rt v) := part_modRt heldFlits fun _ => rfl
theorem heldFlits_passBehind : heldFlits ((passBehind s u p).rt v) = heldFlits (s.rt v) := part_modRt heldFlits fun _ => rfl
theorem passBehind_pips : ((passBehind s u p).rt v).pips = (s.rt v).pips := part_modRt Router.pips fun _ => rfl
theorem passBehind_trail : ((passBehind s u p).rt u).trail =
    (s.rt u).trail.map (fun g => if g.pkt.key = p.key then { g with left := g.left - 1 } else g) := by
  rw [passBehind, modRt, State.setRt_same]

section
variable {f : Trail}
  (ht : ((beforeBuffer (checked s u i qs) u i n).rt u).trail.find? (fun f => decide (f.pkt.key = p.key)) = some f)
  (hleft : 1 < f.left) (hr : resyncOf (beforeBuffer (checked s u i qs) u i n) u i = none)
  (hd : (cntOf (beforeBuffer (checked s u i qs) u i n) (upstream u i).1 (upstream u i).2).deficit = 0)
include ht hleft hr hd

theorem behind_trail (hne : across u i ≠ u) : ((acceptFlit (checked s u i qs) u i n p).rt u).trail =
    (s.rt u).trail.map (fun g => if g.pkt.key = p.key then { g with left := g.left - 1 } else g) := by
  rw [acceptFlit_eq, part_markReady Router.trail fun _ _ => rfl, deliverFlit_of_trail ht hleft hr hd, trail_pushPip,
    passBehind_trail, trail_beforeBuffer, checked_rt_here hne]

theorem behind_pips : ((acceptFlit (checked s u i qs) u i n p).rt (upstream u i).1).pips =
    (s.rt (upstream u i).1).pips ++ [⟨(upstream u i).2, pktKey p f.vc, 0⟩] := by
  rw [acceptFlit_eq, part_markReady Router.pips fun _ _ => rfl, deliverFlit_of_trail ht hleft hr hd, pips_pushPip,
    passBehind_pips, part_beforeBuffer Router.pips (fun _ _ => rfl) (fun _ _ => rfl),
    part_checked Router.pips fun _ _ => rfl]

theorem behind_held (hne : across u i ≠ u) :
    ((acceptFlit (checked s u i qs) u i n p).rt u).inq.map (fun f => (f.pkt.key, f.arrived)) =
      (s.rt u).inq.map (fun f => (f.pkt.key, f.arrived)) := by
  rw [← heldFlits, ← heldFlits, acceptFlit_eq, heldFlits_markReady, deliverFlit_of_trail ht hleft hr hd,
    heldFlits_pushPip, heldFlits_passBehind,
    part_beforeBuffer heldFlits (fun _ _ => rfl) (fun _ _ => rfl), checked_rt_here hne]
end

/-! ### A flit that ends an entry to Doze (R298) -/

theorem incWrap_ne (h : a ≠ o) : (incWrap s o).reg a = s.reg a := State.setReg_ne h
theorem incWrap_same : (incWrap s a).reg a = s.reg a + 1 := State.setReg_same

/-- The entry is over, its ports ask for their full layout again. -/
theorem endEntering_of_entering (he : (s.ta u).entering.isSome = true) : endEntering s u =
    resyncAll (modTa s u (fun a => { a with entering := none })) u (routerHalf s u) := if_pos he

theorem stirTile_of_entering (he : (s.ta u).entering.isSome = true) : stirTile s u 1 =
    (incWrap (incWrap (endEntering s u) (taReg u Off.PWR_REFUSE_CNT)) (taReg u (Off.PWR_REFUSE_BY 1))).setReg
      (taReg u Off.PWR_LAST_REFUSER) (W.at 0 4 1 ||| W.at 4 3 3 ||| W.at 7 1 1) := by
  rw [stirTile, if_pos he, recordRefusal_of_doze]
  rfl

theorem endEntering_reg (he : (s.ta u).entering.isSome = true) : (endEntering s u).reg a = s.reg a := by
  rw [endEntering_of_entering he, (Within.resyncAll (ps := [.routers]) (rs := [u]) (as := []) (ls := []) (by simp)
    (by simp)).regs a (by simp), modTa, State.setTa_reg]

theorem endEntering_entering (he : (s.ta u).entering.isSome = true) : ((endEntering s u).ta u).entering = none := by
  rw [endEntering_of_entering he, (Within.resyncAll (ps := [.routers]) (rs := [u]) (as := []) (ls := []) (by simp)
    (by simp)).agents u (by simp), modTa, State.setTa_same]

section
variable (he : (s.ta u).entering.isSome = true)
include he

theorem stirTile_entering : ((stirTile s u 1).ta u).entering = none := by
  rw [stirTile_of_entering he, State.setReg_ta, incWrap, State.setReg_ta, incWrap, State.setReg_ta,
    endEntering_entering he]

theorem stirTile_refuseCnt :
    (stirTile s u 1).reg (taReg u Off.PWR_REFUSE_CNT) = s.reg (taReg u Off.PWR_REFUSE_CNT) + 1 := by
  rw [stirTile_of_entering he, State.setReg_ne (by simp [taReg, Off.PWR_REFUSE_CNT, Off.PWR_LAST_REFUSER]),
    incWrap_ne (by simp [taReg, Off.PWR_REFUSE_CNT, Off.PWR_REFUSE_BY]), incWrap_same, endEntering_reg he]

theorem stirTile_refuseBy :
    (stirTile s u 1).reg (taReg u (Off.PWR_REFUSE_BY 1)) = s.reg (taReg u (Off.PWR_REFUSE_BY 1)) + 1 := by
  rw [stirTile_of_entering he, State.setReg_ne (by simp [taReg, Off.PWR_REFUSE_BY, Off.PWR_LAST_REFUSER]), incWrap_same,
    incWrap_ne (by simp [taReg, Off.PWR_REFUSE_CNT, Off.PWR_REFUSE_BY]), endEntering_reg he]

theorem stirTile_lastRefuser : (stirTile s u 1).reg (taReg u Off.PWR_LAST_REFUSER) =
    W.at 0 4 1 ||| W.at 4 3 3 ||| W.at 7 1 1 := by
  rw [stirTile_of_entering he, State.setReg_same]
end

/-- The tile agents' registers are as they were when the tile stirs. -/
theorem reg_beforeStir (hi : i < 16) :
    (noteOut (passLink (checked s u i [.clean, .clean, .clean, .clean]) u i n) (across u i)).reg (taReg u o) =
      s.reg (taReg u o) := by
  have far (h : Nat) (hh : h < 2) : taReg u o ≠ slcReg u h (Off.LNK_RFAIL i) :=
    (slcReg_ne_taReg hh (by simp [Off.LNK_RFAIL]; omega)).symm
  have counted : Within [.routers, .regs] [u, across u i] [] (failRegs u i) s
      (checked s u i [.clean, .clean, .clean, .clean]) := Within.countSent (by simp) (by simp)
  rw [noteOut, modTa, State.setTa_reg]
  exact (counted.trans (Within.passLink (List.Subset.refl _) (List.Subset.refl _) (List.Subset.refl _))).regs _
    (by simp [failRegs, far])

theorem ta_beforeStir (hne : across u i ≠ u) :
    (noteOut (passLink (checked s u i qs) u i n) (across u i)).ta u = s.ta u := by
  rw [noteOut, modTa, State.setTa_ne hne.symm, (Within.passLink (ps := [.routers, .regs]) (as := [])
    (List.Subset.refl _) (List.Subset.refl _) (List.Subset.refl _)).agents u (by simp), checked_ta]

section
variable (hi : i < 16) (hne : across u i ≠ u) (he : (s.ta u).entering.isSome = true)
  (hf : flitPlaced (beforeBuffer (checked s u i [.clean, .clean, .clean, .clean]) u i n) u i p)
include hi hne he hf

theorem stirred_entering :
    ((acceptFlit (checked s u i [.clean, .clean, .clean, .clean]) u i n p).ta u).entering = none := by
  rw [(Within.buffered hi hf).agents u (by simp), beforeBuffer, stirTile_entering (by rw [ta_beforeStir hne, he])]

theorem stirred_refuseCnt :
    (acceptFlit (checked s u i [.clean, .clean, .clean, .clean]) u i n p).reg (taReg u Off.PWR_REFUSE_CNT) =
      s.reg (taReg u Off.PWR_REFUSE_CNT) + 1 := by
  rw [(Within.buffered hi hf).regs _ (by simp), beforeBuffer, stirTile_refuseCnt (by rw [ta_beforeStir hne, he]),
    reg_beforeStir hi]

theorem stirred_refuseBy :
    (acceptFlit (checked s u i [.clean, .clean, .clean, .clean]) u i n p).reg (taReg u (Off.PWR_REFUSE_BY 1)) =
      s.reg (taReg u (Off.PWR_REFUSE_BY 1)) + 1 := by
  rw [(Within.buffered hi hf).regs _ (by simp), beforeBuffer, stirTile_refuseBy (by rw [ta_beforeStir hne, he]),
    reg_beforeStir hi]

theorem stirred_lastRefuser :
    (acceptFlit (checked s u i [.clean, .clean, .clean, .clean]) u i n p).reg (taReg u Off.PWR_LAST_REFUSER) =
      W.at 0 4 1 ||| W.at 4 3 3 ||| W.at 7 1 1 := by
  rw [(Within.buffered hi hf).regs _ (by simp), beforeBuffer, stirTile_lastRefuser (by rw [ta_beforeStir hne, he])]
end

theorem Within.ofBeforeBuffer (hp : [.routers, .agents, .regs] ⊆ ps) (hr : [u, across u i] ⊆ rs)
    (ha : [u, across u i] ⊆ as) (hl : failRegs u i ++ stirRegs u ⊆ ls) : Within ps rs as ls s (beforeBuffer s u i n) := by
  obtain ⟨hrt, hta, hregs⟩ : .routers ∈ ps ∧ .agents ∈ ps ∧ .regs ∈ ps := by simpa using hp
  obtain ⟨here, there⟩ : u ∈ as ∧ across u i ∈ as := by simpa using ha
  exact ((Within.passLink (by simp [hrt, hregs]) hr (fun _ hx => hl (List.mem_append_left _ hx))).trans
    (Within.noteOut hta there)).trans (Within.stirTile hp (hr (by simp)) here fun _ hx => hl (List.mem_append_right _ hx))

/-- What a flit with clean quarters may touch that may end an entry to Doze. -/
theorem Within.accepted_stirred (hi : i < 16)
    (hf : flitPlaced (beforeBuffer (checked s u i [.clean, .clean, .clean, .clean]) u i n) u i p) :
    Within [.routers, .agents, .regs] [u, across u i] [u, across u i] (failRegs u i ++ stirRegs u) s
      (acceptFlit (checked s u i [.clean, .clean, .clean, .clean]) u i n p) := by
  have counted : Within [.routers, .agents, .regs] [u, across u i] [u, across u i] (failRegs u i ++ stirRegs u) s
      (checked s u i [.clean, .clean, .clean, .clean]) := Within.countSent (by simp) (by simp)
  have stirred := counted.trans (Within.ofBeforeBuffer (n := n) (by simp) (List.Subset.refl _) (List.Subset.refl _)
    (List.Subset.refl _))
  exact stirred.trans ((Within.buffered hi hf).mono (by simp) (List.Subset.refl _) (by simp) (by simp))

/-- A list without its duplicates has each of its elements once. -/
theorem nodup_eraseDups : ∀ l : List Nat, l.eraseDups.Nodup
  | [] => List.nodup_nil
  | x :: l => by
    rw [List.eraseDups_cons, List.nodup_cons]
    exact ⟨by simp, nodup_eraseDups _⟩
  termination_by l => l.length
  decreasing_by exact Nat.lt_succ_of_le (List.length_filter_le _ _)

/-! ### The sending of NAK (R10, R334) -/

/-- NAK counts at each half. -/
def countNaks (s : State) (t i : Nat) (halves : List Nat) : State :=
  forEach (fun h st => incWrap st (slcReg t h (Off.LNK_NAK_CNT i))) halves s

def nakRegs (u i : Nat) : List Nat := [slcReg u 0 (Off.LNK_NAK_CNT i), slcReg u 1 (Off.LNK_NAK_CNT i)]

theorem slcReg_mem_pair (hh : h < 2) : slcReg u h o ∈ [slcReg u 0 o, slcReg u 1 o] := by
  simp
  omega

theorem nakReg_mem (hv : ∀ h ∈ halves, h < 2) : ∀ h ∈ halves, slcReg u h (Off.LNK_NAK_CNT i) ∈ nakRegs u i :=
  fun h hh => slcReg_mem_pair (hv h hh)

theorem Within.countNaks (hp : .regs ∈ ps) (hl : ∀ h ∈ halves, slcReg u h (Off.LNK_NAK_CNT i) ∈ ls) :
    Within ps rs as ls s (countNaks s u i halves) :=
  Within.forEach fun h hh _ => Within.setReg hp (hl h hh)

theorem countNaks_rt : (countNaks s u i halves).rt v = s.rt v := by
  unfold countNaks
  induction halves generalizing s with
  | nil => rw [forEach]
  | cons x l ih => rw [forEach, ih, incWrap, State.setReg_rt]

theorem reg_countNaks : (countNaks s u i halves).reg (slcReg u h (Off.LNK_NAK_CNT i)) =
    s.reg (slcReg u h (Off.LNK_NAK_CNT i)) + BitVec.ofNat 36 (halves.count h) := by
  unfold countNaks
  induction halves generalizing s with
  | nil => simp [forEach]
  | cons x l ih =>
    rw [forEach, ih, List.count_cons]
    by_cases hx : x = h
    · subst hx
      rw [incWrap_same, beq_self_eq_true, if_pos rfl, Nat.add_comm, BitVec.ofNat_add, BitVec.add_assoc]
      rfl
    · rw [incWrap_ne (mt slcReg_slice_inj.1 (Ne.symm hx)), if_neg (by simpa using hx), Nat.add_zero]

/-- The receiver asks for a flit of packet `p` again, with `run` failures of its replay behind it. -/
def askAgain (s : State) (t i : Nat) (p : Pkt) (halves : List Nat) (run : Nat) : State :=
  endReplay (setLink (countNaks s t i halves) t i
    { linkOf s t i with nakFor := some p.key, nakHalves := halves, failRun := run }) t i

theorem Within.askAgain (hp : [.routers, .regs] ⊆ ps) (hr : [u, across u i] ⊆ rs)
    (hl : ∀ h ∈ halves, slcReg u h (Off.LNK_NAK_CNT i) ∈ ls) : Within ps rs as ls s (askAgain s u i p halves run) := by
  obtain ⟨hrt, hregs⟩ : .routers ∈ ps ∧ .regs ∈ ps := by simpa using hp
  obtain ⟨here, there⟩ : u ∈ rs ∧ across u i ∈ rs := by simpa using hr
  exact ((Within.countNaks hregs hl).trans (Within.setLink hrt here)).trans (Within.setLink hrt there)

theorem askAgain_receiver (hne : across u i ≠ u) : linkOf (askAgain s u i p halves run) u i =
    { linkOf s u i with nakFor := some p.key, nakHalves := halves, failRun := run } := by
  rw [askAgain, endReplay, linkOf_setLink_router hne.symm, linkOf_setLink_same]

theorem askAgain_sender (hne : across u i ≠ u) :
    linkOf (askAgain s u i p halves run) (across u i) (portTo (across u i) u) =
      { linkOf s (across u i) (portTo (across u i) u) with replaying := false } := by
  rw [askAgain, endReplay, linkOf_setLink_same, linkOf_setLink_router hne, linkOf_congr countNaks_rt]

/-- A part of the routers beside the links is as it was. -/
theorem part_askAgain {α : Type} (g : Router → α) (hg : ∀ x l, g { x with links := l } = g x) :
    g ((askAgain s u i p halves run).rt v) = g (s.rt v) := by
  rw [askAgain, endReplay, part_setLink g hg, part_setLink g hg, countNaks_rt]

theorem reg_askAgain_count : (askAgain s u i p halves run).reg (slcReg u h (Off.LNK_NAK_CNT i)) =
    s.reg (slcReg u h (Off.LNK_NAK_CNT i)) + BitVec.ofNat 36 (halves.count h) := by
  rw [askAgain, endReplay, setLink_reg, setLink_reg, reg_countNaks]

/-! ### A flit that is discarded (R334, R335) -/

theorem rejectFlit_of_first (hn : (linkOf s u i).nakFor = none) :
    rejectFlit s u i p halves = askAgain s u i p halves 0 := by
  simp only [rejectFlit, hn, Option.isSome_none, Bool.false_eq_true, if_false]
  rfl

/-- A replay that fails counts at each half. -/
theorem rejectFlit_of_again (hn : (linkOf s u i).nakFor.isSome = true)
    (hlim : (linkOf s u i).failRun + 1 < getFld s (rtrReg u Off.RTR_LNK_CFG) 8 4) :
    rejectFlit s u i p halves =
      forEach (fun h st => countFail st u i h) halves (askAgain s u i p halves ((linkOf s u i).failRun + 1)) := by
  simp only [rejectFlit, hn, if_true, Nat.not_le.2 hlim, if_false]
  rfl

/-- At REPLAY_LIM the half is fenced. -/
theorem rejectFlit_of_limit (hn : (linkOf s u i).nakFor.isSome = true)
    (hlim : getFld s (rtrReg u Off.RTR_LNK_CFG) 8 4 ≤ (linkOf s u i).failRun + 1) :
    rejectFlit s u i p halves =
      escalate (forEach (fun h st => countFail st u i h) halves
        (askAgain s u i p halves ((linkOf s u i).failRun + 1))) u i (if 1 ∈ halves then 1 else 0) := by
  simp only [rejectFlit, hn, if_true, hlim]
  rfl

theorem ueHalves_lt : ∀ h ∈ ueHalves s u i qs, h < 2 := by
  intro h hh
  obtain ⟨e, he, rfl⟩ := List.mem_map.1 (List.mem_eraseDups.1 hh)
  exact sliceOf_lt (quarters_lt e (List.mem_filter.1 he).1)

theorem count_ueHalves : (ueHalves s u i qs).count h = if h ∈ ueHalves s u i qs then 1 else 0 := by
  split
  · next hm => exact List.count_eq_one_of_mem (nodup_eraseDups _) hm
  · next hm => exact List.count_eq_zero.2 hm

theorem ueHalves_first : ueHalves s u i [.ue, .clean, .clean, .clean] = [sliceOf s u i 0] := rfl

/-! ### Replays that fail -/

theorem Within.countFail (hp : .regs ∈ ps) (hl : slcReg u h (Off.LNK_RFAIL i) ∈ ls) :
    Within ps rs as ls s (countFail s u i h) :=
  (Within.setReg hp hl).trans (Within.setReg hp hl)

theorem countFail_rt : (countFail s u i h).rt v = s.rt v := by
  rw [countFail, incFld, setFld, State.setReg_rt, setFld, State.setReg_rt]

theorem getFld_setFld_mod {lo len x : Nat} (hlen : lo + len ≤ 36) : getFld (setFld s a lo len x) a lo len = x % 2 ^ len := by
  rw [getFld, setFld, State.setReg_same, W.fld_put_mod hlen]

/-- The run counts to 15 and stays there. -/
theorem countFail_run : getFld (countFail s u i h) (slcReg u h (Off.LNK_RFAIL i)) 0 4 =
    min (getFld s (slcReg u h (Off.LNK_RFAIL i)) 0 4 + 1) 15 := by
  rw [countFail, incFld, getFld_setFld_apart (by decide), getFld_setFld_same (by decide)]
  exact Nat.lt_of_le_of_lt (Nat.min_le_right _ _) (by decide)

/-- The failures count and wrap. -/
theorem countFail_total : getFld (countFail s u i h) (slcReg u h (Off.LNK_RFAIL i)) 4 32 =
    (getFld s (slcReg u h (Off.LNK_RFAIL i)) 4 32 + 1) % 2 ^ 32 := by
  rw [countFail, incFld, getFld_setFld_mod (by decide), getFld_setFld_apart (by decide)]

/-! ### A half that is fenced (R335) -/

/-- The receiver puts half h out of use, the tile is to announce it, and a repair is due at the sender. -/
def fenceReceiver (s : State) (t i h : Nat) : State :=
  repairAsk (busyAt (setRx s t i h true) t) (across t i) (portTo (across t i) t) h

/-- The fence stands at the link, for the next NAK to bring it to the sender. -/
def noteFence (s : State) (t i h : Nat) : State :=
  setLink (fenceReceiver s t i h) t i { linkOf (fenceReceiver s t i h) t i with nakFence := some h, failRun := 0 }

theorem escalate_of_open (ho : rxFenced s u i (1 - h) = false) :
    escalate s u i h = logTile (noteFence s u i h) u EvC.LINK_HALF_FENCED [natW i, natW h] := by
  simp only [escalate, ho, Bool.false_eq_true, if_false]
  rfl

theorem repairAsk_ta : (repairAsk s u i h).ta v = s.ta v :=
  (Within.repairAsk (ps := [.firmware]) (rs := []) (as := []) (ls := []) (by simp)).agents v (by simp)

theorem fenceReceiver_rt : (fenceReceiver s u i h).rt v = s.rt v := by
  rw [fenceReceiver, (Within.repairAsk (ps := [.firmware]) (rs := []) (as := []) (ls := []) (by simp)).routers v (by simp),
    busyAt, modTa, State.setTa_rt, setRx, setBit, setFld, State.setReg_rt]

theorem Within.fenceReceiver (hp : [.regs, .agents, .firmware] ⊆ ps) (ha : u ∈ as)
    (hl : slcReg u h (Off.LNK_STAT i) ∈ ls) : Within ps rs as ls s (fenceReceiver s u i h) := by
  obtain ⟨hregs, hta, hfw⟩ : .regs ∈ ps ∧ .agents ∈ ps ∧ .firmware ∈ ps := by simpa using hp
  exact ((Within.setReg hregs hl).trans (Within.setTa hta ha)).trans (Within.repairAsk hfw)

theorem Within.noteFence (hp : [.routers, .regs, .agents, .firmware] ⊆ ps) (hr : u ∈ rs) (ha : u ∈ as)
    (hl : slcReg u h (Off.LNK_STAT i) ∈ ls) : Within ps rs as ls s (noteFence s u i h) :=
  (Within.fenceReceiver (fun _ hx => hp (List.mem_cons_of_mem _ hx)) ha hl).trans (Within.setLink (hp (by simp)) hr)

theorem noteFence_receiver : linkOf (noteFence s u i h) u i = { linkOf s u i with nakFence := some h, failRun := 0 } := by
  rw [noteFence, linkOf_setLink_same, linkOf_congr fenceReceiver_rt]

theorem linkOf_noteFence (hv : v ≠ u) : linkOf (noteFence s u i h) v k = linkOf s v k := by
  rw [noteFence, linkOf_setLink_router hv, linkOf_congr fenceReceiver_rt]

theorem part_noteFence {α : Type} (g : Router → α) (hg : ∀ x l, g { x with links := l } = g x) :
    g ((noteFence s u i h).rt v) = g (s.rt v) := by
  rw [noteFence, part_setLink g hg, fenceReceiver_rt]

theorem noteFence_ta : (noteFence s u i h).ta u = { s.ta u with busyDue := true } := by
  rw [noteFence, setLink_ta, fenceReceiver, repairAsk_ta, busyAt, modTa, State.setTa_same, setRx, setBit, setFld,
    State.setReg_ta]

theorem noteFence_stat : (noteFence s u i h).reg (slcReg u h (Off.LNK_STAT i)) =
    (s.reg (slcReg u h (Off.LNK_STAT i))).put 1 1 1 := by
  rw [noteFence, setLink_reg, fenceReceiver, repairAsk_reg, busyAt, modTa, State.setTa_reg, setRx, setBit, setFld,
    State.setReg_same]
  rfl

/-! ### Events after changes elsewhere -/

/-- An event passes as before where neither the log nor INST changes. -/
theorem eventPasses_congr (hq : t.evq = s.evq) (hi : inst t = inst s) (h : eventPasses s (.rtr u)) :
    eventPasses t (.rtr u) := by
  obtain ⟨held, room⟩ := h
  refine ⟨?_, by rw [hq]; exact room⟩
  have node : (Xing.rtr u).node t = (Xing.rtr u).node s := by rw [Xing.node, nodeTP, hi, Xing.node, nodeTP]
  have same : crossHeld t (.rtr u) = crossHeld s (.rtr u) := by rw [crossHeld, crossHeld, hq, node]
  rw [same]
  exact held

theorem Within.evq (h : Within ps rs as ls s t) (hp : .log ∉ ps) : t.evq = s.evq := (h.pieces .log hp).1
theorem Within.ftNow (h : Within ps rs as ls s t) (hp : .time ∉ ps) : ftNow t = ftNow s :=
  congrArg (fun x => x / ftFrac) (h.pieces .time hp).2.1
theorem Within.inst (h : Within ps rs as ls s t) (hl : extReg Off.EXT_INST ∉ ls) : inst t = inst s :=
  congrArg (fun w => W.fld w 0 14) (h.regs _ hl)

/-- EXT_INST is no register of a slice. -/
theorem extReg_ne_slcReg (hh : h < 2) (ho : o < 0x1000) : extReg Off.EXT_INST ≠ slcReg u h o := by
  unfold extReg globalReg slcReg tileBase Off.EXT_INST
  omega

/-! ### NAK at the sender (R10) -/

theorem Within.intactWord (hp : .routers ∈ ps) (hr : u ∈ rs) : Within ps rs as ls s (intactWord s u i) := by
  unfold Machine.intactWord
  split
  · split
    · exact Within.refl
    · exact Within.setLink hp hr
  · exact Within.refl

theorem no_parity_runs (h0 : l.parity0 = 0) (h1 : l.parity1 = 0) : { l with parity0 := 0, parity1 := 0 } = l := by
  cases l
  simp_all

/-- A word that comes back intact ends the runs of parity failures of its link. -/
theorem linkOf_intactWord (hi : i < 16) :
    linkOf (intactWord s u i) u i = { linkOf s u i with parity0 := 0, parity1 := 0 } := by
  rw [intactWord, if_pos hi]
  split
  · next hz => rw [no_parity_runs hz.1 hz.2]
  · rw [linkOf_setLink_same]

/-- A field of the links' states that an update of one link leaves. -/
theorem field_setLink {α : Type} (g : LinkSt → α) (hg : g l = g (linkOf s u i)) :
    g (linkOf (setLink s u i l) v k) = g (linkOf s v k) := by
  by_cases hv : v = u
  · subst hv
    by_cases hk : k = i
    · subst hk
      rw [linkOf_setLink_same, hg]
    · rw [linkOf, setLink, modRt, State.setRt_same, Sparse.get_set_ne hk, linkOf]
  · rw [linkOf_setLink_router hv]

/-- Only the runs of parity failures change with it. -/
theorem field_intactWord {α : Type} (g : LinkSt → α) (hg : ∀ l : LinkSt, g { l with parity0 := 0, parity1 := 0 } = g l) :
    g (linkOf (intactWord s u i) v k) = g (linkOf s v k) := by
  unfold intactWord
  split
  · split
    · rfl
    · exact field_setLink g (hg _)
  · rfl

/-- The sender rewinds; a fence that the receiver has asked for is noted. -/
def rewind (s : State) (t i : Nat) : State :=
  setLink (intactWord s t i) t i { linkOf (intactWord s t i) t i with
    replaying := true
    esc := (linkOf (intactWord s t i) (across t i) (portTo (across t i) t)).nakFence.orElse
      (fun _ => (linkOf (intactWord s t i) t i).esc) }

section
variable {t : Fin 64} {i : Fin 16}
  (hn : (linkOf s (across t i) (portTo (across t i) t)).nakFor.isSome = true) (hr : (linkOf s t i).replaying = false)
include hn hr

/-- NAK finds the sender in no replay. -/
theorem nak_taken : ((linkOf (intactWord s t i) (across t i) (portTo (across t i) t)).nakFor.isSome &&
    !(linkOf (intactWord s t i) t i).replaying) = true := by
  rw [field_intactWord LinkSt.nakFor fun _ => rfl, field_intactWord LinkSt.replaying fun _ => rfl, hn, hr]
  rfl

theorem exec_nak_rewinds (hf : (linkOf s (across t i) (portTo (across t i) t)).nakFence = none) :
    exec (.nak t i) s = .next (rewind s t i) := by
  have fence : (linkOf (intactWord s t i) (across t i) (portTo (across t i) t)).nakFence = none :=
    (field_intactWord LinkSt.nakFence fun _ => rfl).trans hf
  change execNak t i s = _
  simp only [execNak, nak_taken hn hr, if_true, fence]
  rw [rewind, fence]
  rfl

theorem exec_nak_fences (hf : (linkOf s (across t i) (portTo (across t i) t)).nakFence = some h) :
    exec (.nak t i) s = .next (setTx (rewind s t i) t i h true) := by
  have fence : (linkOf (intactWord s t i) (across t i) (portTo (across t i) t)).nakFence = some h :=
    (field_intactWord LinkSt.nakFence fun _ => rfl).trans hf
  change execNak t i s = _
  simp only [execNak, nak_taken hn hr, if_true, fence]
  rw [rewind, fence]
  rfl
end

theorem Within.rewind (hp : .routers ∈ ps) (hr : u ∈ rs) : Within ps rs as ls s (rewind s u i) :=
  (Within.intactWord hp hr).trans (Within.setLink hp hr)

theorem linkOf_rewind (hi : i < 16) : linkOf (rewind s u i) u i = { linkOf s u i with
    replaying := true, parity0 := 0, parity1 := 0,
    esc := (linkOf s (across u i) (portTo (across u i) u)).nakFence.orElse (fun _ => (linkOf s u i).esc) } := by
  rw [rewind, linkOf_setLink_same, field_intactWord LinkSt.nakFence fun _ => rfl, linkOf_intactWord hi]

/-! ### NAK sent again (R10) -/

theorem exec_nakRetry {t : Fin 64} {i : Fin 16} (hn : (linkOf s t i).nakFor.isSome = true) :
    exec (.nakRetry t i) s = .next (endReplay (countNaks s t i (linkOf s t i).nakHalves) t i) := by
  obtain ⟨key, hkey⟩ := Option.isSome_iff_exists.1 hn
  change execNakRetry t i s = _
  simp only [execNakRetry, hkey, Option.isNone_some, Bool.false_eq_true, if_false]
  rfl

/-! ### A flit at the receiver (R332) -/

theorem exec_linkFlit {t : Fin 64} {i : Fin 16} {q0 q1 q2 q3 : Quarter} :
    exec (.linkFlit t i q0 q1 q2 q3) s = .next (arriveFlit s t i [q0, q1, q2, q3]) := rfl

end

section
variable {s : State} {ps : List Piece} {rs as ls : List Nat} {a v k h n run : Nat} {p : Pkt} {qs : List Quarter}
  {u : Fin 64} {i : Fin 16}

/-! ### The flit of a link, by cases -/

theorem flitComes_across (hc : flitComes s u i p) : across u i ≠ u := isLink_across_ne u.isLt i.isLt hc.2.2.2

theorem exec_linkFlit_good {q0 q1 q2 q3 : Quarter} (hc : flitComes s u i p) (hg : flitGoes s u i)
    (hq : [q0, q1, q2, q3].any isUe = false) : exec (.linkFlit u i q0 q1 q2 q3) s =
      .next (acceptFlit (checked s u i [q0, q1, q2, q3]) u i (((linkOf s u i).accepted + 1) % 32) p) := by
  rw [exec_linkFlit, arriveFlit_of_good (by simp) hc hg hq, checked]

theorem exec_linkFlit_bad {q0 q1 q2 q3 : Quarter} (hc : flitComes s u i p) (hg : flitGoes s u i)
    (hq : [q0, q1, q2, q3].any isUe = true) : exec (.linkFlit u i q0 q1 q2 q3) s =
      .next (rejectFlit (checked s u i [q0, q1, q2, q3]) u i p (ueHalves s u i [q0, q1, q2, q3])) := by
  rw [exec_linkFlit, arriveFlit_of_ue (by simp) hc hg hq, checked]

/-- A flit of a replay, with one quarter in fault. -/
theorem exec_linkFlit_fails (hc : flitComes s u i p) (hn : (linkOf s u i).nakFor.isSome = true)
    (hr : (linkOf s (across u i) (portTo (across u i) u)).replaying = true) :
    exec (.linkFlit u i .ue .clean .clean .clean) s = .next (rejectFlit s u i p [sliceOf s u i 0]) := by
  rw [exec_linkFlit_bad hc (.inr ⟨hn, hr⟩) rfl, ueHalves_first, checked, noteQuarters_ue, countSent_of_replay hn]

theorem accepted_sender_of_new (hne : across u i ≠ u) (hnew : newFlit s u i)
    (hf : flitPlaced (beforeBuffer (checked s u i qs) u i n) u i p) :
    linkOf (acceptFlit (checked s u i qs) u i n p) (across u i) (portTo (across u i) u) =
      { linkOf s (across u i) (portTo (across u i) u) with
        sent := ((linkOf s (across u i) (portTo (across u i) u)).sent + 1) % 32, replaying := false } := by
  rw [accepted_sender hne hf, countSent_of_new hnew.1]

theorem reg_accepted_fail (hh : h < 2)
    (hf : flitPlaced (beforeBuffer (checked s u i [.clean, .clean, .clean, .clean]) u i n) u i p) :
    (acceptFlit (checked s u i [.clean, .clean, .clean, .clean]) u i n p).reg (slcReg u h (Off.LNK_RFAIL i)) =
      (s.reg (slcReg u h (Off.LNK_RFAIL i))).put 0 4 0 := by
  rw [reg_acceptFlit_fail i.isLt hh hf, checked, noteQuarters_clean, (Within.countSent (ps := [.routers])
    (rs := [across u i]) (as := []) (ls := []) (by simp) (by simp)).regs _ (by simp)]

/-! ### A new flit that is discarded -/

theorem discarded_eq (hne : across u i ≠ u) (hnew : newFlit s u i) :
    rejectFlit (checked s u i qs) u i p (ueHalves s u i qs) = askAgain (checked s u i qs) u i p (ueHalves s u i qs) 0 :=
  rejectFlit_of_first (by rw [linkOf_congr (checked_rt_here hne), hnew.1])

theorem discarded_receiver (hne : across u i ≠ u) :
    linkOf (askAgain (checked s u i qs) u i p (ueHalves s u i qs) 0) u i =
      { linkOf s u i with nakFor := some p.key, nakHalves := ueHalves s u i qs, failRun := 0 } := by
  rw [askAgain_receiver hne, linkOf_congr (checked_rt_here hne)]

theorem discarded_sender (hne : across u i ≠ u) (hnew : newFlit s u i) :
    linkOf (askAgain (checked s u i qs) u i p (ueHalves s u i qs) 0) (across u i) (portTo (across u i) u) =
      { linkOf s (across u i) (portTo (across u i) u) with
        sent := ((linkOf s (across u i) (portTo (across u i) u)).sent + 1) % 32, replaying := false } := by
  rw [askAgain_sender hne, linkOf_congr checked_rt, countSent_of_new hnew.1]

theorem part_discarded {α : Type} (hne : across u i ≠ u) (g : Router → α) (hg : ∀ x l, g { x with links := l } = g x) :
    g ((askAgain (checked s u i qs) u i p (ueHalves s u i qs) 0).rt u) = g (s.rt u) := by
  rw [part_askAgain g hg, checked_rt_here hne]

theorem reg_discarded_naks (hh : h < 2) : (askAgain (checked s u i qs) u i p (ueHalves s u i qs) 0).reg
    (slcReg u h (Off.LNK_NAK_CNT i)) = s.reg (slcReg u h (Off.LNK_NAK_CNT i)) +
      (if h ∈ ueHalves s u i qs then 1 else 0) := by
  have hi := i.isLt
  have kept : (checked s u i qs).reg (slcReg u h (Off.LNK_NAK_CNT i)) = s.reg (slcReg u h (Off.LNK_NAK_CNT i)) :=
    (Within.ofChecked (ps := [.routers, .regs, .log, .firmware]) (rs := [across u i]) (as := []) (List.Subset.refl _)
      (by simp) (List.Subset.refl _)).regs _ (not_mem_wireRegs hh (by simp [Off.LNK_NAK_CNT]; omega) hi
        (by simp [Off.LNK_NAK_CNT, Off.LNK_CE_CNT]) (by simp [Off.LNK_NAK_CNT, Off.LNK_CE_TRK]))
  rw [reg_askAgain_count, kept, count_ueHalves]
  split <;> rfl

theorem reg_discarded_count (hh : h < 2) : (askAgain (checked s u i qs) u i p (ueHalves s u i qs) 0).reg
    (slcReg u h (Off.LNK_CE_CNT i)) = s.reg (slcReg u h (Off.LNK_CE_CNT i)) +
      BitVec.ofNat 36 (ceQuarters s u i h qs) := by
  have apart (j : Nat) : slcReg u h (Off.LNK_CE_CNT i) ≠ slcReg u j (Off.LNK_NAK_CNT i) :=
    slcReg_ne_of_offset (by simp [Off.LNK_CE_CNT, Off.LNK_NAK_CNT]) (by simp [Off.LNK_CE_CNT, Off.LNK_NAK_CNT]; omega)
      (by simp [Off.LNK_CE_CNT, Off.LNK_NAK_CNT]; omega)
  rw [(Within.askAgain (ps := [.routers, .regs]) (as := []) (List.Subset.refl _) (List.Subset.refl _)
    (nakReg_mem ueHalves_lt)).regs _ (by simp [nakRegs, apart]), reg_checked_count hh i.isLt]

theorem within_discarded : Within [.routers, .regs, .log, .firmware] [u.val, across u i] [] (wireRegs u i ++ nakRegs u i) s
    (askAgain (checked s u i qs) u i p (ueHalves s u i qs) 0) :=
  (Within.ofChecked (List.Subset.refl _) (by simp) (List.subset_append_left _ _)).trans
    (Within.askAgain (by simp) (List.Subset.refl _) fun h hh => List.mem_append_right _ (nakReg_mem ueHalves_lt h hh))

/-! ### A replay that fails (R335) -/

/-- The state after a replay with its first quarter in fault has failed at half h. -/
def replayFailed (s : State) (t i h : Nat) (p : Pkt) : State :=
  countFail (askAgain s t i p [h] ((linkOf s t i).failRun + 1)) t i h

theorem within_replayFailed : Within [.routers, .regs] [u.val, across u i] []
    [slcReg u h (Off.LNK_NAK_CNT i), slcReg u h (Off.LNK_RFAIL i)] s (replayFailed s u i h p) :=
  (Within.askAgain (List.Subset.refl _) (List.Subset.refl _) (by simp)).trans (Within.countFail (by simp) (by simp))

theorem replayFailed_receiver (hne : across u i ≠ u) : linkOf (replayFailed s u i h p) u i =
    { linkOf s u i with nakFor := some p.key, nakHalves := [h], failRun := (linkOf s u i).failRun + 1 } := by
  rw [replayFailed, linkOf_congr countFail_rt, askAgain_receiver hne]

theorem replayFailed_sender (hne : across u i ≠ u) :
    linkOf (replayFailed s u i h p) (across u i) (portTo (across u i) u) =
      { linkOf s (across u i) (portTo (across u i) u) with replaying := false } := by
  rw [replayFailed, linkOf_congr countFail_rt, askAgain_sender hne]

theorem part_replayFailed {α : Type} (g : Router → α) (hg : ∀ x l, g { x with links := l } = g x) :
    g ((replayFailed s u i h p).rt v) = g (s.rt v) := by
  rw [replayFailed, countFail_rt, part_askAgain g hg]

theorem nakCnt_ne_rfail : slcReg u h (Off.LNK_NAK_CNT i) ≠ slcReg u k (Off.LNK_RFAIL i) :=
  slcReg_ne_of_offset (by simp [Off.LNK_NAK_CNT, Off.LNK_RFAIL]) (by simp [Off.LNK_NAK_CNT, Off.LNK_RFAIL]; omega)
    (by simp [Off.LNK_NAK_CNT, Off.LNK_RFAIL]; omega)

theorem reg_replayFailed_nak : (replayFailed s u i h p).reg (slcReg u h (Off.LNK_NAK_CNT i)) =
    s.reg (slcReg u h (Off.LNK_NAK_CNT i)) + 1 := by
  rw [replayFailed, (Within.countFail (ps := [.regs]) (rs := []) (as := []) (ls := [slcReg u h (Off.LNK_RFAIL i)]) (by simp)
    (by simp)).regs _ (by simpa using nakCnt_ne_rfail), reg_askAgain_count, List.count_singleton_self]
  rfl

theorem getFld_askAgain_fail {lo len : Nat} :
    getFld (askAgain s u i p [h] run) (slcReg u h (Off.LNK_RFAIL i)) lo len =
      getFld s (slcReg u h (Off.LNK_RFAIL i)) lo len :=
  congrArg (fun w => W.fld w lo len) ((Within.askAgain (ps := [.routers, .regs]) (rs := [u.val, across u i]) (as := [])
    (ls := [slcReg u h (Off.LNK_NAK_CNT i)]) (List.Subset.refl _) (List.Subset.refl _) (by simp)).regs _
      (by simpa using nakCnt_ne_rfail.symm))

theorem exec_linkFlit_failsAgain (hc : flitComes s u i p) (hn : (linkOf s u i).nakFor.isSome = true)
    (hr : (linkOf s (across u i) (portTo (across u i) u)).replaying = true) (hs : sliceOf s u i 0 = h)
    (hlim : (linkOf s u i).failRun + 1 < getFld s (rtrReg u Off.RTR_LNK_CFG) 8 4) :
    exec (.linkFlit u i .ue .clean .clean .clean) s = .next (replayFailed s u i h p) := by
  rw [exec_linkFlit_fails hc hn hr, hs, rejectFlit_of_again hn hlim]
  rfl

/-! ### A replay that fails for the last time -/

theorem nakCnt_ne_stat : slcReg u h (Off.LNK_NAK_CNT i) ≠ slcReg u k (Off.LNK_STAT i) :=
  slcReg_ne_of_offset (by simp [Off.LNK_NAK_CNT, Off.LNK_STAT]) (by simp [Off.LNK_NAK_CNT, Off.LNK_STAT]; omega)
    (by simp [Off.LNK_NAK_CNT, Off.LNK_STAT]; omega)

theorem stat_not_mem : slcReg u k (Off.LNK_STAT i) ∉
    [slcReg u h (Off.LNK_NAK_CNT i), slcReg u h (Off.LNK_RFAIL i)] := by
  have fail : slcReg u k (Off.LNK_STAT i) ≠ slcReg u h (Off.LNK_RFAIL i) :=
    slcReg_ne_of_offset (by simp [Off.LNK_STAT, Off.LNK_RFAIL]) (by simp [Off.LNK_STAT, Off.LNK_RFAIL]; omega)
      (by simp [Off.LNK_STAT, Off.LNK_RFAIL]; omega)
  simp [nakCnt_ne_stat.symm, fail]

/-- The registers that the last failure writes. -/
def fenceRegs (u i h : Nat) : List Nat :=
  [slcReg u h (Off.LNK_STAT i), slcReg u h (Off.LNK_NAK_CNT i), slcReg u h (Off.LNK_RFAIL i)]

theorem within_noteFence : Within [.routers, .regs, .firmware, .agents] [u.val, across u i] [u.val] (fenceRegs u i h) s
    (noteFence (replayFailed s u i h p) u i h) :=
  (within_replayFailed.mono (by simp) (List.Subset.refl _) (by simp) (by simp [fenceRegs])).trans
    (Within.noteFence (by simp) (by simp) (by simp) (by simp [fenceRegs]))

theorem inst_not_mem (hh : h < 2) : extReg Off.EXT_INST ∉ fenceRegs u i h := by
  have hi := i.isLt
  have far (o : Nat) (ho : o < 0x1000) := extReg_ne_slcReg (u := u.val) hh ho
  simp [fenceRegs, far (Off.LNK_STAT i) (by simp [Off.LNK_STAT]; omega),
    far (Off.LNK_NAK_CNT i) (by simp [Off.LNK_NAK_CNT]; omega), far (Off.LNK_RFAIL i) (by simp [Off.LNK_RFAIL]; omega)]

section
variable {q : List Ev}

theorem linkOf_evq : linkOf { s with evq := q } v k = linkOf s v k := rfl
theorem rt_evq : ({ s with evq := q } : State).rt v = s.rt v := rfl
theorem reg_evq : ({ s with evq := q } : State).reg a = s.reg a := rfl
theorem Within.ofEvq (hp : .log ∈ ps) : Within ps rs as ls s { s with evq := q } :=
  Within.ofLog (n := s.evLost) (x := s.evLostFirst) (y := s.evLostLast) hp
theorem ta_evq : ({ s with evq := q } : State).ta v = s.ta v := rfl
end

/-- The event of a half fenced at the receiver. -/
def fenceEvent (s : State) (u i h : Nat) : Ev :=
  mkEv (ftNow s) (nodeTP s u 5) EvC.LINK_HALF_FENCED [natW i, natW h]

theorem exec_linkFlit_failsLast (hc : flitComes s u i p) (hn : (linkOf s u i).nakFor.isSome = true)
    (hr : (linkOf s (across u i) (portTo (across u i) u)).replaying = true) (hs : sliceOf s u i 0 = h)
    (hlim : getFld s (rtrReg u Off.RTR_LNK_CFG) 8 4 ≤ (linkOf s u i).failRun + 1)
    (ho : rxFenced s u i (1 - h) = false) (hev : eventPasses s (.rtr u)) :
    exec (.linkFlit u i .ue .clean .clean .clean) s = .next { noteFence (replayFailed s u i h p) u i h with
      evq := s.evq ++ [fenceEvent s u i h] } := by
  have hh : h < 2 := hs ▸ sliceOf_lt (by decide)
  have within := within_noteFence (s := s) (u := u) (i := i) (h := h) (p := p)
  have half : (if 1 ∈ [h] then 1 else 0) = h := by
    obtain rfl | rfl : h = 0 ∨ h = 1 := by omega
    · rfl
    · rfl
  have open_ : rxFenced (replayFailed s u i h p) u i (1 - h) = false :=
    (congrArg (fun w => W.bit w 1) (within_replayFailed.regs _ stat_not_mem)).trans ho
  have same : inst (noteFence (replayFailed s u i h p) u i h) = inst s := within.inst (inst_not_mem hh)
  have failed : forEach (fun h st => countFail st u i h) [h] (askAgain s u i p [h] ((linkOf s u i).failRun + 1)) =
    replayFailed s u i h p := rfl
  rw [exec_linkFlit_fails hc hn hr, hs, rejectFlit_of_limit hn hlim, half, failed, escalate_of_open open_,
    logTile_of_passes rfl (eventPasses_congr (within.evq (by simp)) same hev), within.evq (by simp),
    within.ftNow (by simp), fenceEvent, nodeTP, same, nodeTP]

end

/-- Settles O22: the flit is accepted or discarded by its check bits; each case follows from what the acceptance, the NAK
and the fence leave of the links, the buffers and the registers. -/
theorem flitsCross : Obligations.FlitsCross := by
  unfold Obligations.FlitsCross
  refine ⟨fun u i p s hc hnew he ht => ?clean, fun u i q0 q1 q2 q3 qs p s hqs hq hc hnew he ht => ?corrected,
    fun u i q0 q1 q2 q3 qs p s hqs hq hc hnew => ?discarded, fun u i s hn hf hr => ?rewinds,
    fun u i s hn hv => ?sentAgain, fun u i h s hn hf hr => ?fencesSender,
    fun u i p f s hc hnew he ht hleft hr hd => ?passesOn, fun u i p s hc hn hr he ht => ?replayed,
    fun u i h p s hc hn hr hs hlim => ?replayFails, fun u i h p s hc hn hr hs hlim ho hev => ?limit,
    fun u i p s hc hnew he ht => ?stirs⟩
  case clean =>
    have hne := flitComes_across hc
    have placed := accepted_placed (qs := [.clean, .clean, .clean, .clean]) (n := ((linkOf s u i).accepted + 1) % 32) hne ht
    have within := Within.accepted_clean i.isLt hne he placed
    refine ⟨_, exec_linkFlit_good hc (.inl hnew) rfl, ?_⟩
    exact ⟨accepted_receiver hne placed, accepted_sender_of_new hne hnew placed,
      accepted_held hne ht, fun h hh => reg_accepted_fail hh placed, within.regs, within.pieces,
      accepted_ta_sender i.isLt hne placed, fun v hv => within.agents v (by simpa using hv), within.routers⟩
  case corrected =>
    subst hqs
    have hne := flitComes_across hc
    have placed := accepted_placed (qs := [q0, q1, q2, q3]) (n := ((linkOf s u i).accepted + 1) % 32) hne ht
    have within := Within.accepted i.isLt hne he placed
    refine ⟨_, exec_linkFlit_good hc (.inl hnew) hq, ?_⟩
    exact ⟨accepted_receiver hne placed, accepted_sender_of_new hne hnew placed,
      accepted_held hne ht, fun h hh => reg_accepted_count i.isLt hne he hh placed, within.pieces,
      accepted_ta_sender i.isLt hne placed, fun v hv => within.agents v (by simpa using hv), within.routers⟩
  case passesOn =>
    have hne := flitComes_across hc
    obtain ⟨ht', hr', hd'⟩ := accepted_placed_behind (qs := [.clean, .clean, .clean, .clean])
      (n := ((linkOf s u i).accepted + 1) % 32) hne he ht hr hd
    have placed : flitPlaced _ _ _ _ := .inr ⟨f, ht', hleft, hr', hd'⟩
    have within := Within.accepted_clean i.isLt hne he placed
    refine ⟨_, exec_linkFlit_good hc (.inl hnew) rfl, ?_⟩
    exact ⟨accepted_receiver hne placed, accepted_sender_of_new hne hnew placed,
      behind_trail ht' hleft hr' hd' hne, behind_held ht' hleft hr' hd' hne, behind_pips ht' hleft hr' hd', within.regs,
      within.pieces, accepted_ta_sender i.isLt hne placed, fun v hv => within.agents v (by simpa using hv), within.routers⟩
  case replayed =>
    have hne := flitComes_across hc
    have placed := accepted_placed (qs := [.clean, .clean, .clean, .clean]) (n := ((linkOf s u i).accepted + 1) % 32) hne ht
    have within := Within.accepted_clean i.isLt hne he placed
    have sender := accepted_sender hne placed
    rw [countSent_of_replay hn] at sender
    refine ⟨_, exec_linkFlit_good hc (.inr ⟨hn, hr⟩) rfl, ?_⟩
    exact ⟨accepted_receiver hne placed, sender, accepted_held hne ht,
      within.regs, within.pieces, accepted_ta_sender i.isLt hne placed, fun v hv => within.agents v (by simpa using hv),
      within.routers⟩
  case stirs =>
    have hne := flitComes_across hc
    have placed := accepted_placed (qs := [.clean, .clean, .clean, .clean]) (n := ((linkOf s u i).accepted + 1) % 32) hne ht
    have within := Within.accepted_stirred i.isLt placed
    refine ⟨_, exec_linkFlit_good hc (.inl hnew) rfl, ?_⟩
    exact ⟨accepted_held hne ht, stirred_entering i.isLt hne he placed, accepted_ta_sender i.isLt hne placed,
      stirred_refuseCnt i.isLt hne he placed, stirred_refuseBy i.isLt hne he placed,
      stirred_lastRefuser i.isLt hne he placed, within.regs, within.pieces, within.routers⟩
  case discarded =>
    subst hqs
    have hne := flitComes_across hc
    refine ⟨_, (exec_linkFlit_bad hc (.inl hnew) hq).trans (congrArg _ (discarded_eq hne hnew)), ?_⟩
    exact ⟨discarded_receiver hne, discarded_sender hne hnew, part_discarded hne Router.inq fun _ _ => rfl,
      part_discarded hne Router.trail fun _ _ => rfl, fun h hh => reg_discarded_naks hh,
      fun h hh => reg_discarded_count hh,
      within_discarded.pieces, within_discarded.routers⟩
  case rewinds =>
    have within := Within.rewind (ps := [.routers]) (rs := [u.val]) (as := []) (ls := []) (s := s) (u := u) (i := i)
      (by simp) (by simp)
    refine ⟨_, exec_nak_rewinds hn hr hf, ?_, within.pieces, within.routers⟩
    rw [linkOf_rewind i.isLt, hf]
    rfl
  case fencesSender =>
    have rewound := Within.rewind (ps := [.routers, .regs]) (rs := [u.val]) (as := []) (s := s) (u := u) (i := i)
      (ls := [slcReg u h (Off.LNK_STAT i)]) (by simp) (by simp)
    have within := rewound.trans (Within.setReg (a := slcReg u h (Off.LNK_STAT i))
      (w := ((rewind s u i).reg (slcReg u h (Off.LNK_STAT i))).put 0 1 1)
      (by simp) (by simp))
    refine ⟨_, exec_nak_fences hn hr hf, ?_, ?_, within.regs, within.pieces, within.routers⟩
    · rw [setTx, setBit, setFld, linkOf_setReg, linkOf_rewind i.isLt, hf]
      rfl
    · rw [setTx, setBit, setFld, State.setReg_same, (Within.rewind (ps := [.routers]) (rs := [u.val]) (as := [])
        (ls := []) (by simp) (by simp)).regs _ (by simp)]
      rfl
  case sentAgain =>
    have within : Within [.routers, .regs] [across u i] [] (nakRegs u i) s
        (endReplay (countNaks s u i (linkOf s u i).nakHalves) u i) :=
      (Within.countNaks (by simp) (nakReg_mem hv)).trans (Within.setLink (by simp) (by simp))
    refine ⟨_, exec_nakRetry hn, ?_, fun h hh => ?_, within.regs, within.pieces, within.routers⟩
    · rw [endReplay, linkOf_setLink_same, linkOf_congr countNaks_rt]
    · rw [endReplay, setLink_reg, reg_countNaks]
  case replayFails =>
    have hne := flitComes_across hc
    refine ⟨_, exec_linkFlit_failsAgain hc hn hr hs hlim, ?_⟩
    exact ⟨replayFailed_receiver hne, replayFailed_sender hne, part_replayFailed Router.inq fun _ _ => rfl,
      part_replayFailed Router.trail fun _ _ => rfl, reg_replayFailed_nak, countFail_run.trans (by rw [getFld_askAgain_fail]),
      countFail_total.trans (by rw [getFld_askAgain_fail]), within_replayFailed.regs, within_replayFailed.pieces,
      within_replayFailed.routers⟩
  case limit =>
    have hne := flitComes_across hc
    have hh : h < 2 := hs ▸ sliceOf_lt (by decide)
    have failed := within_replayFailed (s := s) (u := u) (i := i) (h := h) (p := p)
    have noted := within_noteFence (s := s) (u := u) (i := i) (h := h) (p := p)
    have within : Within [.routers, .regs, .log, .firmware, .agents] [u.val, across u i] [u.val] (fenceRegs u i h) s _ :=
      (noted.mono (by simp) (List.Subset.refl _) (List.Subset.refl _) (List.Subset.refl _)).trans
        (Within.ofEvq (q := s.evq ++ [fenceEvent s u i h]) (by simp))
    refine ⟨_, exec_linkFlit_failsLast hc hn hr hs hlim ho hev, ?_⟩
    refine ⟨?receiver, ?sender, ?inq, ?trail, ?stat, ?nak, ?agent, rfl, within.regs, within.pieces,
      fun v hv => within.agents v (by simpa using hv), within.routers⟩
    case receiver => rw [linkOf_evq, noteFence_receiver, replayFailed_receiver hne]
    case sender => rw [linkOf_evq, linkOf_noteFence hne, replayFailed_sender hne]
    case inq =>
      rw [rt_evq, part_noteFence Router.inq fun _ _ => rfl, part_replayFailed Router.inq fun _ _ => rfl]
    case trail =>
      rw [rt_evq, part_noteFence Router.trail fun _ _ => rfl, part_replayFailed Router.trail fun _ _ => rfl]
    case stat => rw [reg_evq, noteFence_stat, failed.regs _ stat_not_mem]
    case nak =>
      have fenced := Within.noteFence (ps := [.routers, .regs, .agents, .firmware]) (rs := [u.val]) (as := [u.val])
        (s := replayFailed s u i h p) (ls := [slcReg u h (Off.LNK_STAT i)]) (List.Subset.refl _) (by simp) (by simp)
        (List.mem_singleton.2 rfl)
      rw [reg_evq, fenced.regs _ (by simpa using nakCnt_ne_stat), reg_replayFailed_nak]
    case agent => rw [ta_evq, noteFence_ta, failed.agents _ (by simp)]

end Sys2Proof.Machine

/-! Proofs of the family of 02_attach_interface: writes that leave the store buffer (O5) and responses of the unit (O6) as the
statements have them, and for the other statements a state that each leaves out. -/

namespace Sys2Proof.Machine

section
variable {s t : State} {n a f : Nat} {c : Instr} {P : State → Prop} {p : Pkt} {h : Head} {q : Inb} {rest : List Inb}

/-! ### Commands that complete -/

/-- What a command leaves is what its meaning gives. -/
theorem Completes.of_next (done : Completes c s P) (runs : exec c s = .next t) : P t := by
  obtain ⟨u, hu, hP⟩ := done
  cases runs.symm.trans hu
  exact hP

/-! ### The store buffer (R45) -/

/-- R133: a plain write that misses nothing goes to the region of its address: the boot ROM takes none, so that the boot
window shows the SRAM. -/
theorem launchRegion_of_plainWrite (hw : isWrite p = true) (hs : p.isStcond = false)
    (hm : sourceMiss (regionOf s a) p = false) : launchRegion s a = regionOf s a := by
  have hopc : p.opc = Opc.WR := of_decide_eq_true hw
  have plain : p.flag 0 = false := by simpa [Pkt.isStcond, hopc] using hs
  by_cases low : a < 0x100000
  · cases boot : bootSel s with
    | true => simp [launchRegion, regionOf, low, boot]
    | false =>
      have rom : regionOf s a = romAt a := by simp [regionOf, low, boot]
      have missed : sourceMiss (romAt a) p = true := by
        unfold romAt
        split
        · simp [sourceMiss, romWriteMiss, hopc, plain]
        · simp [sourceMiss, regionAns]
      rw [rom, missed] at hm
      cases hm
  · simp [launchRegion, low]

theorem takeFirst_mem {α : Type} {k : α → Bool} {l rest : List α} {e : α} (h : takeFirst k l = some (e, rest)) :
    e ∈ l := by
  induction l generalizing rest with
  | nil => cases h
  | cons y ys ih =>
    simp only [takeFirst] at h
    split at h
    · cases h
      exact List.mem_cons_self
    · split at h
      · cases h
      · next hy =>
        cases h
        exact List.mem_cons_of_mem _ (ih hy)

/-- Where only writes have still to leave, nothing follows them (R45). -/
theorem releaseOq_of_writes (hw : ∀ e ∈ (s.ni n).oq, isWrite e.pkt = true) : releaseOq s n f = s := by
  cases f with
  | zero => rfl
  | succ f =>
    cases h : takeFirst (fun e => !e.left) (s.ni n).oq with
    | none => simp only [releaseOq, h]
    | some e => simp only [releaseOq, h, hw _ (takeFirst_mem h), if_true]

/-- With no read held and nothing but writes in the queue, looking at them again changes nothing. -/
theorem settle_of_writes (hh : (s.ni n).held = []) (hw : ∀ e ∈ (s.ni n).oq, isWrite e.pkt = true) :
    settle s n = s ∨ settle s n = s.setNi n (s.ni n) := by
  unfold settle
  split
  · exact .inl rfl
  · refine .inr ?_
    have none_held : modNi s n (fun x => { x with held := [] }) = s.setNi n (s.ni n) :=
      congrArg (s.setNi n) (by rw [← hh])
    simp only [hh, forEach, none_held]
    exact releaseOq_of_writes (by simpa using hw)

theorem ni_settle_of_writes (hh : (s.ni n).held = []) (hw : ∀ e ∈ (s.ni n).oq, isWrite e.pkt = true) :
    (settle s n).ni n = s.ni n := by
  rcases settle_of_writes hh hw with e | e <;> simp [e]

theorem nisBut_settle_of_writes (hh : (s.ni n).held = []) (hw : ∀ e ∈ (s.ni n).oq, isWrite e.pkt = true) :
    nisBut n s (settle s n) := by
  rcases settle_of_writes hh hw with e | e <;> rw [e]
  · exact fun _ _ => rfl
  · exact nisBut_setNi

theorem changesOnly_settle_of_writes (hh : (s.ni n).held = []) (hw : ∀ e ∈ (s.ni n).oq, isWrite e.pkt = true) :
    changesOnly [.nis] s (settle s n) := by
  rcases settle_of_writes hh hw with e | e <;> rw [e]
  · exact changesOnly_refl
  · exact changesOnly_setNi (by simp)

/-- R45: the write leaves for the target of its address and stays in the buffer, marked. -/
def sendWrite (s : State) (n : Nat) (p : Pkt) : State :=
  stageOreq (modNi s n (fun x => { x with oq := x.oq.map (fun f => if f.pkt.id = p.id then { f with left := true } else f) }))
    n { p with dst := targetOf s n (regionOf s p.addr) }

theorem ni_sendWrite : (sendWrite s n p).ni n = { s.ni n with
    oq := (s.ni n).oq.map (fun f => if f.pkt.id = p.id then { f with left := true } else f),
    stage := (s.ni n).stage ++ [{ ch := .oreq, pkt := { p with dst := targetOf s n (regionOf s p.addr) } }] } := by
  simp [sendWrite, stageOreq, modNi]

theorem nisBut_sendWrite : nisBut n s (sendWrite s n p) :=
  fun _ hm => (State.setNi_ne hm).trans (State.setNi_ne hm)

theorem changesOnly_sendWrite : changesOnly [.nis] s (sendWrite s n p) :=
  changesOnly_trans (changesOnly_setNi (by simp)) (changesOnly_setNi (by simp))

/-- The packets in the buffer are those that were there. -/
theorem writes_sendWrite (hw : ∀ e ∈ (s.ni n).oq, isWrite e.pkt = true) :
    ∀ e ∈ ((sendWrite s n p).ni n).oq, isWrite e.pkt = true := by
  rw [ni_sendWrite]
  intro g hg
  obtain ⟨e, he, rfl⟩ := List.mem_map.1 hg
  split
  · exact hw e he
  · exact hw e he

/-- R45, R129: a write that passes the guard, misses nothing, is no STCOND and not for the NI itself leaves the buffer. -/
theorem drainOne_of_passes {e : OEntry} {rest : List OEntry}
    (ht : takeFirst (fun f => !f.left) (s.ni n).oq = some (e, rest)) (hw : isWrite e.pkt = true)
    (hg : grdHolds s n = false) (hs : e.pkt.isStcond = false) (hf : guardFails s n e.pkt = none)
    (hm : sourceMiss (regionOf s e.pkt.addr) e.pkt = false) (ho : ownWrite n e.pkt.addr = false) :
    drainOne s n = settle (sendWrite s n e.pkt) n := by
  have lets : takeFirst (fun f => !f.left && holdLets s n f.pkt) (s.ni n).oq = some (e, rest) := by
    simpa [holdLets, hg] using ht
  have region := launchRegion_of_plainWrite hw hs hm
  simp only [drainOne, lets, hw, hf, region, hm, hs, ho, Bool.not_true, Bool.false_eq_true, Bool.false_and, if_false]
  rfl

/-- Settles O5: the write leaves as `drainOne_of_passes` says, and the writes that stay let nothing follow them. -/
theorem storeBufferDrains : Obligations.StoreBufferDrains := by
  unfold Obligations.StoreBufferDrains
  intro n e rest s ht hw hh hg hs hf hm ho
  have runs : exec (.storeBufferDrain n) s = .next (settle (sendWrite s n.idx e.pkt) n.idx) :=
    congrArg ok (drainOne_of_passes ht (hw e (takeFirst_mem ht)) hg hs hf hm ho)
  have held : ((sendWrite s n.idx e.pkt).ni n.idx).held = [] := by rw [ni_sendWrite]; exact hh
  have writes := writes_sendWrite (p := e.pkt) hw
  refine ⟨_, runs, ?_, ?_, ?_⟩
  · exact (ni_settle_of_writes held writes).trans ni_sendWrite
  · exact changesOnly_trans changesOnly_sendWrite (changesOnly_settle_of_writes held writes)
  · exact fun m hm => (nisBut_settle_of_writes held writes m hm).trans (nisBut_sendWrite m hm)

/-! ### Responses of the unit (R37, R41) -/

/-- R40: a head that passes the checks is the first flit of a packet. -/
theorem isOrphan_of_headOk {ch : Chan} (hk : headOk s ch h = true) : isOrphan h = false := by
  have form : (if h.lenN = 0 then h.ft = 3 else h.ft = 0) := by
    simp only [headOk, headFormOk, Bool.and_eq_true] at hk
    obtain ⟨⟨⟨⟨⟨⟨-, form⟩, -⟩, -⟩, -⟩, -⟩, -⟩ := hk
    split at form <;> simp_all
  unfold isOrphan
  split at form <;> simp [form]

theorem acceptIrsp_of_reads (hr : irspReads s n h) : acceptIrsp s n h = readIrsp s n h := by
  obtain ⟨awake, opened, room, whole, good⟩ := hr
  simp [acceptIrsp, stirTile_of_idle awake, opened, room, whole, isOrphan_of_headOk good]

/-- R41: a response that the unit owes travels with the class of its request, which it frees. -/
theorem readIrsp_of_owed (good : headOk s .irsp h = true)
    (owed : findInb (s.ni n) (h.w0.fld 0 23) h.tag.toNat = some (q, rest)) :
    readIrsp s n h = modNi (noteOpen s n .irsp (tailLate h) (headPkt q.id (nodeOf s n) q.sc h)) n (fun y =>
      { y with inb := rest, stage := y.stage ++ [{ ch := .irsp, pkt := headPkt q.id (nodeOf s n) q.sc h }] }) := by
  simp [readIrsp, good, owed]

/-- Settles O6: the response is read at once and takes number and class from the request that it answers. -/
theorem responseLeavesUnit : Obligations.ResponseLeavesUnit := by
  unfold Obligations.ResponseLeavesUnit
  intro n h q rest s c hc hr owed
  have runs : exec c s = .next (acceptIrsp s n.idx h) := by
    rcases hc with rfl | rfl | rfl | rfl <;> rfl
  obtain ⟨-, -, -, -, good⟩ := id hr
  rw [acceptIrsp_of_reads hr, readIrsp_of_owed good owed] at runs
  refine ⟨_, runs, ?_, ?_, ?_⟩
  · simp only [modNi, noteOpen, State.setNi_same]
  · exact changesOnly_trans (changesOnly_setNi (by simp)) (changesOnly_setNi (by simp))
  · exact fun m hm => (State.setNi_ne hm).trans (State.setNi_ne hm)

end

end Sys2Proof.Machine

namespace Sys2Proof.Machine

/-! ### An Opcon core's guard refuses what its NI's guard passes (R165, R171) -/

/-- The block after power-on self-test. -/
def poweredUp : State := { State.reset with postRun := false }

/-- R166: NI(0, 6) is enabled; the guard of Opcon core 0 is on, and its one region, a line of the memory of tile 0, may only be
read. -/
def readOnlyForCore : State :=
  ((((poweredUp.setReg (niReg 6 Off.NI_CTRL) 1).setReg (guardReg 448 Off.GRD_CTRL) 1).setReg
    (guardReg 448 (Off.GRD_START 0)) 0x100000000).setReg (guardReg 448 (Off.GRD_END 0)) 0x10000000F).setReg
    (guardReg 448 (Off.GRD_PERM 0)) 5

def coreWriteHead : Head := { opc := 0x02, cnt := 1, tag := 5, arg := 0x100000000, words := [7] }
def coreFopHead : Head := { opc := 0x03, cnt := 0, tag := 5, arg := 0x100000000, words := [1] }

/-- Refutes O1: a write of the core behind NI(0, 6) that the core's guard refuses is answered at once (R171) and enters no
store buffer; the statement does not leave it out. -/
theorem not_writeBuffered : ¬ Obligations.WriteBuffered := by
  unfold Obligations.WriteBuffered
  intro buffered
  have after := (buffered ⟨0, 6⟩ coreWriteHead readOnlyForCore _ (.inl rfl) (by decide +kernel) (by decide +kernel)
    (by decide +kernel) (by decide +kernel)).of_next (t := acceptOreq readOnlyForCore 6 coreWriteHead) rfl
  have refused : ((acceptOreq readOnlyForCore 6 coreWriteHead).ni 6).oq = [] := by decide +kernel
  simpa using refused.symm.trans (congrArg Ni.oq after.1)

/-- Refutes O2: a far operation of the core behind NI(0, 6) passes the guard of the NI, but the core's own guard refuses it
(R171), and nothing leaves. -/
theorem not_requestLaunched : ¬ Obligations.RequestLaunched := by
  unfold Obligations.RequestLaunched
  rintro ⟨launched, -⟩
  have after := (launched ⟨0, 6⟩ coreFopHead readOnlyForCore _ (.inr rfl) (by decide +kernel) (by decide +kernel)
    (by decide +kernel) (by decide +kernel) (by decide +kernel)).of_next
      (t := acceptOreq readOnlyForCore 6 coreFopHead) rfl
  have refused : ((acceptOreq readOnlyForCore 6 coreFopHead).ni 6).stage = [] := by decide +kernel
  simpa using refused.symm.trans (congrArg Ni.stage after.1)

/-! ### The grant of a handle goes with the cell (R100) -/

/-- NI(0, 0) is enabled and holds handle 3 of a grant of one, for node 9 at SC0. -/
def handleOfGrant : State :=
  (poweredUp.setReg (niReg 0 Off.NI_CTRL) 1).setNi 0 { handles := [{ dst := 9, sc := 0, handle := 3, grant := (3, 1) }] }
def lastCellHead : Head := { opc := 0x21, cnt := 10, tag := 5, w0 := 9, flg := 3, words := [7] }

/-- Refutes O7: the cell that leaves keeps the grant that its handle came from, so that the handle can go back to it (R100);
the clause on a held handle says that it leaves with none. -/
theorem not_cellAccepted : ¬ Obligations.CellAccepted := by
  unfold Obligations.CellAccepted
  rintro ⟨held, -⟩
  have after := (held ⟨0, 0⟩ lastCellHead { dst := 9, sc := 0, handle := 3, grant := (3, 1) } [] handleOfGrant
    (by decide +kernel) (by decide +kernel) (by decide +kernel) (by decide +kernel)).of_next
      (t := acceptCell handleOfGrant 0 lastCellHead) rfl
  have kept : ((acceptCell handleOfGrant 0 lastCellHead).ni 0).stage.map Staged.grant = [(3, 1)] := by decide +kernel
  have none_ := kept.symm.trans (congrArg (fun x => x.stage.map Staged.grant) after.1)
  exact absurd none_ (by decide +kernel)

/-! ### A response that is killed counts as aborted (R49, R50) -/

def lateResponse : Pkt := { opc := Opc.RDRESP, len := 1, cnt := 16 }
/-- NI(0, 0) has begun to inject a response whose tail does not come. -/
def responseUnfinished : State :=
  (poweredUp.setNi 0 { openP := [(.irsp, lateResponse)] }).setRt 0 { inq := [{ pkt := lateResponse, inp := 16, vc := 0 }] }

theorem pktTo_of_open {n : NiId} {ch : Chan} {p : Pkt} {s : State} (ho : openOf (s.ni n.idx) ch = some p)
    (hi : notInjected (s.ni n.idx) p.id = false) (hf : inFlight s p = true) :
    exec (.pktTo n ch) s = .next (killOpen (raiseErr s n.idx ErrB.PKT_TO p.opc p.tag (chanCode ch)) n.idx ch p St.ABORTED) := by
  simp [exec, execPktTo, ho, hi, hf, when_]

/-- Refutes O8: a response that is ended with KILL is replaced by one without data and counts in NI_ABORT_CNT, which the clause
on NI_PKT_TO does not name. -/
theorem not_malformedPacket : ¬ Obligations.MalformedPacket := by
  unfold Obligations.MalformedPacket
  rintro ⟨-, -, timeout⟩
  have opened : openOf (responseUnfinished.ni 0) .irsp = some lateResponse := by decide +kernel
  have injected : notInjected (responseUnfinished.ni 0) lateResponse.id = false := by decide +kernel
  have inNet : inFlight responseUnfinished lateResponse = true := by decide +kernel
  obtain ⟨-, -, -, -, -, -, -, regs, -⟩ :=
    (timeout ⟨0, 0⟩ .irsp lateResponse responseUnfinished opened injected inNet (.inl rfl)).of_next
      (pktTo_of_open (n := ⟨0, 0⟩) opened injected inNet)
  exact absurd (regs (niReg 0 Off.NI_ABORT_CNT) (by decide +kernel)) (by decide +kernel)

/-! ### A local input port that is stopped (R257) -/

def readOfTile0 : Pkt := { opc := Opc.RD, cnt := 1, dst := 1, arg := 0x200000000 }
/-- A read waits at NI(0, 0), whose input port of the router has had the mark of a resynchronisation and no grant yet. -/
def portIsStopped : State :=
  (poweredUp.setNi 0 { stage := [{ ch := .oreq, pkt := readOfTile0 }] }).setRt 0 { resync := [{ port := 16, phase := .mark }] }

theorem niInject_of_allRead {n : NiId} {ch : Chan} {s : State} (h : firstUnread (s.ni n.idx) ch = none) :
    exec (.niInject n ch) s = .next (injectOne s n.idx ch) := by
  simp only [exec, execNiInject, h]
  split <;> simp_all [ok]

/-- Refutes O9: no packet starts on a port between the mark of a resynchronisation and its grant (R257), and the statement does
not ask that the local input port be open. -/
theorem not_headInjected : ¬ Obligations.HeadInjected := by
  unfold Obligations.HeadInjected
  intro injected
  have after := (injected ⟨0, 0⟩ .oreq { ch := .oreq, pkt := readOfTile0 } [] { vcs := [(0, 1)] } portIsStopped
    (by decide +kernel) (by decide +kernel) (by decide +kernel) (by decide +kernel) (by decide +kernel) (by decide +kernel)
    (by decide +kernel) (by decide +kernel) (by decide +kernel) (by decide +kernel)).of_next
      (niInject_of_allRead (n := ⟨0, 0⟩) (by decide +kernel))
  have waits : ((injectOne portIsStopped 0 .oreq).ni 0).stage.length = 1 := by decide +kernel
  exact absurd (waits.symm.trans (congrArg List.length after.1)) (by decide)

/-! ### An event that finds its crossing full (R195, R321) -/

/-- The unit of NI(0, 0) has been given an entry of fanfare 1, which launches now; 15 events of the NI wait for the log. -/
def crossingIsFull : State :=
  { poweredUp.setNi 0 { hold := [{ fid := 1, addr := 0x200000000, data := [7], last := true, delivered := true }] } with
    launches := [{ fid := 1, lt := 0, lt0 := 0, aseq := 0 }],
    evq := List.replicate 15 (mkEv 0 0 EvC.NI_ERROR []) }

/-- Refutes O10: the loss that a reset of the unit logs (R195) is counted in CDC_LOST_EVT where the crossing of the NI is full
(R321), a register that the clause on the reset does not name. -/
theorem not_unitResets : ¬ Obligations.UnitResets := by
  unfold Obligations.UnitResets
  rintro ⟨reset, -⟩
  obtain ⟨-, -, -, -, -, -, -, -, -, -, -, -, -, -, regs, -⟩ :=
    (reset ⟨0, 0⟩ crossingIsFull (by decide +kernel) (by decide +kernel) (by decide +kernel) (by decide +kernel)
      (by decide +kernel) (by decide +kernel) (by decide +kernel)).of_next (t := unitResetOp crossingIsFull 0) rfl
  exact absurd (regs (niReg 0 Off.CDC_LOST_EVT) (by decide +kernel)) (by decide +kernel)

/-! ### The bridge publishes its handles as EN rises (R376) -/

/-- The extension bridge is enabled, its NI is not. -/
def bridgeClosed : State := (poweredUp.setReg (niReg 398 Off.NI_CTRL) 0).setReg (extReg Off.EXT_CTRL) 1

theorem niEnable_of_closed {n : NiId} {s : State} (closed : niEn s n.idx = false)
    (aw : awake s (niReg n.idx Off.NI_CTRL) = true) :
    exec (.niEnable n) s = .next (writeNiCtrl s n.idx ((s.reg (niReg n.idx Off.NI_CTRL)).put 0 1 1)) := by
  simp [exec, execNiEnable, reached_of_awake aw, closed, ok]

/-- Refutes O11: as EN of NI(56, 6) rises the bridge publishes its 16 handles again (R376), and the clause on the rise says that
the free list is empty. -/
theorem not_unitDrains : ¬ Obligations.UnitDrains := by
  unfold Obligations.UnitDrains
  rintro ⟨-, -, -, enabled⟩
  have closed : niEn bridgeClosed 398 = false := by decide +kernel
  have aw : awake bridgeClosed (niReg 398 Off.NI_CTRL) = true := by decide +kernel
  have after := (enabled ⟨56, 6⟩ bridgeClosed closed aw).of_next (niEnable_of_closed (n := ⟨56, 6⟩) closed aw)
  exact absurd (congrArg (fun x => x.free.length) after.1) (by decide +kernel)

/-! ### A class beyond the eight of R41 -/

/-- A response whose class is 97: no head can carry it, but the field of a packet in the model can. -/
def responseOfClass97 : Pkt := { opc := Opc.RDRESP, sc := 97 }
def answersClass97 : State :=
  poweredUp.setNi 0
    { eject := [responseOfClass97], outst := [{ id := 0, tag := 0, opc := Opc.RD, sc := 0, addr := 0, words := 0 }] }

/-- Refutes O12: the statement leaves the class of a packet open, and the flit counter of class 97 would be the register of the
reservation record, which the clause on a response says to be as it was and to have counted a flit. -/
theorem not_unitReceives : ¬ Obligations.UnitReceives := by
  unfold Obligations.UnitReceives
  rintro ⟨-, -, -, response, -⟩
  obtain ⟨t, -, -, counted, kept, -⟩ := response ⟨0, 0⟩ responseOfClass97
    { id := 0, tag := 0, opc := Opc.RD, sc := 0, addr := 0, words := 0 } [] answersClass97 (by decide +kernel)
    (by decide +kernel) (by decide +kernel) (by decide +kernel) (by decide +kernel) (by decide +kernel) (by decide +kernel)
    (by decide +kernel)
  exact absurd (kept.symm.trans counted) (by decide +kernel)

/-! ### A killed copy of a CELLMC (R51, R97) -/

/-- A killed copy of a CELLMC stands in the eject FIFO of NI(0, 0). -/
def killedCopy : State := poweredUp.setNi 0 { eject := [{ opc := Opc.CELLMC, killed := true }] }

theorem kill_of_eject {n : NiId} {p : Pkt} {rest : List Pkt} {s : State}
    (h : takeFirst (fun p => p.killed) (s.ni n.idx).eject = some (p, rest)) :
    exec (.kill n) s = .next (discardKilled (modNi s n.idx (fun x => { x with eject := rest })) n.idx p) := by
  simp [exec, execKill, h, ok]

/-- Refutes O13: with a killed copy of a CELLMC the standing handle that it took goes back, or NI_MC_NOCRED_CNT counts (R116);
the clause on a packet of which nothing has been presented leaves out only cells of one destination. -/
theorem not_killArrives : ¬ Obligations.KillArrives := by
  unfold Obligations.KillArrives
  rintro ⟨discarded, -⟩
  have first : takeFirst (fun p => p.killed) (killedCopy.ni 0).eject = some ({ opc := Opc.CELLMC, killed := true }, []) := by
    decide +kernel
  obtain ⟨-, -, -, regs, -⟩ := (discarded ⟨0, 0⟩ _ [] killedCopy first (by decide +kernel)).of_next
    (kill_of_eject (n := ⟨0, 0⟩) first)
  exact absurd (regs (niReg 0 Off.NI_MC_NOCRED_CNT) (by decide +kernel)) (by decide +kernel)

/-! ### A far operation of an Opcon core that asks for no old values (R44, R142) -/

/-- A far operation of core 0 with NORET, of the kind and count that `cnt` names. -/
def coreFarOp (cnt : Nat) : TReq :=
  { pkt := { opc := Opc.FOP, cnt := cnt, flg := 1, words := [1, 0] }, via := .mem (.core 0) }
def coreFarOpWaits (cnt : Nat) : State := poweredUp.setTmc 0 { q := [coreFarOp cnt] }

theorem add36_of_head {u : Fin 64} {e : MemErr} {r : TReq} {q : List TReq} {s : State} (hq : (s.tmc u).q = r :: q)
    (hk : isFop 0 r = true) : exec (.add36 u e) s = .next (fopWord s u r e) := by
  simp [exec, execAdd36, hq, hk, when_]

theorem add72_of_head {u : Fin 64} {e : MemErr} {r : TReq} {q : List TReq} {s : State} (hq : (s.tmc u).q = r :: q)
    (hk : isFop 1 r = true) : exec (.add72 u e) s = .next (fopDouble s u r e) := by
  simp [exec, execAdd72, hq, hk, when_]

/-- Refutes O27: an answer without data reaches an Opcon core as an acknowledgement, which the core keeps; the clause on
ADD36 does not name the cores among what changes. -/
theorem not_farOperationsOnWords : ¬ Obligations.FarOperationsOnWords := by
  unfold Obligations.FarOperationsOnWords
  rintro ⟨add, -⟩
  have waits : ((coreFarOpWaits 0).tmc 0).q = [coreFarOp 0] := by decide +kernel
  obtain ⟨-, -, -, -, -, -, -, -, -, -, -, -, -, -, -, only⟩ :=
    (add 0 (coreFarOp 0) [] (coreFarOpWaits 0) waits (by decide +kernel) (by decide +kernel) (by decide +kernel)
      (by decide +kernel)).of_next (add36_of_head waits (by decide +kernel))
  have cores : pieceKept (coreFarOpWaits 0) (fopWord (coreFarOpWaits 0) 0 (coreFarOp 0) .clean) .cores := only .cores (by simp)
  exact absurd (cores 0) (by decide +kernel)

/-- Refutes O28: as with O27, the acknowledgement of an ADD72 with NORET stays with the core that asked for it. -/
theorem not_farOperationsOnPairsAndPoison : ¬ Obligations.FarOperationsOnPairsAndPoison := by
  unfold Obligations.FarOperationsOnPairsAndPoison
  rintro ⟨add, -⟩
  have waits : ((coreFarOpWaits 1).tmc 0).q = [coreFarOp 1] := by decide +kernel
  obtain ⟨-, -, -, -, -, -, -, -, -, -, -, -, only⟩ :=
    (add 0 (coreFarOp 1) [] (coreFarOpWaits 1) waits (by decide +kernel) (by decide +kernel) (by decide +kernel)
      (by decide +kernel) (by decide +kernel)).of_next (add72_of_head waits (by decide +kernel))
  have cores : pieceKept (coreFarOpWaits 1) (fopDouble (coreFarOpWaits 1) 0 (coreFarOp 1) .clean) .cores := only .cores (by simp)
  exact absurd (cores 0) (by decide +kernel)

/-! ### Entries that have not been sent when a slot aborts (R196) -/

def firstEntry : FEnt := { addr := 0x100000000, data := [7], ni := 5 }
def secondEntry : FEnt := { addr := 0x100020000, data := [7], ni := 12, last := true }
/-- Slot 0 stages two entries; the first has been sent, and its FSTGD has not come. -/
def oneEntryUnsent : State :=
  (poweredUp.setReg (slotReg 0 Off.FNF_STAT) 1).setSlot 0
    { ents := [firstEntry, secondEntry], todo := [secondEntry], want := [(5, 1)] }

theorem stgTo_of_staging {k : Fin 8} {w : Nat × Nat} {q : List (Nat × Nat)} {s : State} (hs : slotState s k = SS.STAGING)
    (hw : (s.slot k).want = w :: q) :
    exec (.stgTo k) s = .next (abortStaged s k Rsn.STG_TO (entryIdx (s.slot k) w.1) (some (nodeOf s w.1))) := by
  simp [exec, execStgTo, hs, hw, when_]

/-- Refutes O40: an entry that has not been sent holds no place in a slot that has aborted, and the clause on the staging
timeout says that the slot keeps its entries. -/
theorem not_stagingAndArming : ¬ Obligations.StagingAndArming := by
  unfold Obligations.StagingAndArming
  rintro ⟨-, -, -, -, -, -, -, -, timeout, -⟩
  have wants : (oneEntryUnsent.slot 0).want = [(5, 1)] := by decide +kernel
  have staging : slotState oneEntryUnsent 0 = 1 := by decide +kernel
  obtain ⟨-, -, -, slot, -⟩ := (timeout 0 (5, 1) [] oneEntryUnsent wants staging (by decide +kernel)).of_next
    (stgTo_of_staging staging wants)
  exact absurd (congrArg (fun x => x.ents.length) slot) (by decide +kernel)

/-! ### A barrier that ends in a dark tile (R302) -/

/-- Tile 0 is in Doze, and the accesses that the barrier of NI(0, 0) has marked are performed. -/
def barrierInDoze : State :=
  (poweredUp.setReg (taReg 0 Off.PWR_TA_STAT) 2).setNi 0 { bar := some { scope := 0, tag := 3, marks := [] } }

/-- Refutes O59: BARACK waits until a dark tile wakes (R302), and the clause on the end of a barrier says that it is presented at
once. -/
theorem not_classClamped : ¬ Obligations.ClassClamped := by
  unfold Obligations.ClassClamped
  rintro ⟨-, -, -, -, -, -, -, barack, -⟩
  obtain ⟨e, presented, -⟩ :=
    (barack ⟨0, 0⟩ { scope := 0, tag := 3, marks := [] } barrierInDoze (by decide +kernel) (by decide +kernel)).of_next
      (t := readHeaders (coreSettle (barrierOp barrierInDoze 0))) rfl
  have none_ : ((readHeaders (coreSettle (barrierOp barrierInDoze 0))).ni 0).out.length = 0 := by decide +kernel
  exact absurd (none_.symm.trans (congrArg List.length presented)) (by simp)

/-! ### TILE_RST of the tile of core 0 while the loader runs (R217, R323, R324) -/

/-- A TILE_RST of tile 0 is due, the boot window is the boot ROM, and the loader has a command under way. -/
def loaderRuns : State :=
  { poweredUp with rstReq := [.tile 0], running := some { mbx := 3, copy := 0, hdr := 0, args := [] } }

theorem tileRst_of_asked {u : Fin 64} {rest : List HeldReset} {s : State}
    (h : takeFirst (fun q => decide (q = .tile u.val)) s.rstReq = some (.tile u.val, rest)) (hv : taVtrans s u = false) :
    exec (.tileRst u) s = .next (tileRstOr { s with rstReq := rest } u) := by
  simp [exec, execTileRst, dropReset, h, hv, when_]

theorem running_tileRst : (tileRstOr { loaderRuns with rstReq := [] } 0).running = none := by decide +kernel

/-- Refutes O35: TILE_RST of tile 0 resets core 0 (R323), and with the boot ROM at the boot window the loader starts again and
what it ran is gone (R324); the clause on TILE_RST says that the running command stays. -/
theorem not_resets : ¬ Obligations.Resets := by
  unfold Obligations.Resets
  rintro ⟨-, -, -, tile, -⟩
  have asked : takeFirst (fun q => decide (q = .tile (0 : Fin 64).val)) loaderRuns.rstReq =
      some (.tile (0 : Fin 64).val, []) := by decide +kernel
  have atRest : taVtrans loaderRuns 0 = false := by decide +kernel
  obtain ⟨-, -, -, -, -, -, -, -, -, -, -, -, running, -⟩ :=
    (tile 0 1 [] loaderRuns asked (by decide +kernel) atRest (by decide +kernel) (by decide +kernel)).of_next
      (tileRst_of_asked asked atRest)
  cases running_tileRst.symm.trans running

end Sys2Proof.Machine

/-! Proofs of the family of 03_routing_and_deadlock: the statements that a state of the model contradicts (O15, O18 to O21 and
O48), then links that change form (O24): bits of registers, halves, a lost link, a saturated window. -/

namespace Sys2Proof.Machine

/-! ### The bridge grants to its one source (R203, R376) -/

def requestOfNode8 : Pkt := { opc := Opc.RSVREQ, src := 8, cnt := 1 }
/-- An enabled NI(56, 6) with one free handle has a request of node 8 in its eject FIFO; EXT_PC names another node. -/
def bridgeAsked : State :=
  (poweredUp.setReg (niReg 398 Off.NI_CTRL) 1).setNi 398 { eject := [requestOfNode8], free := [⟨0, 1⟩] }

theorem rsvreq_of_take {n : NiId} {p : Pkt} {s s1 : State}
    (h : takeRsv s n.idx Opc.RSVREQ (fun p => decide (p.tag % 2 = 0)) = some (p, s1)) (hp : p.poisoned = false) :
    exec (.rsvreq n) s = .next (reqArrives s1 n.idx (askedBy p false)) := by
  simp [exec, execRsvreq, h, hp, ok]

/-- Refutes O15: at NI(56, 6) only the cluster EXT_PC is granted handles (R203, R376), and the first clause says that a
request of any source is. -/
theorem not_requestsForReservation : ¬ Obligations.RequestsForReservation := by
  unfold Obligations.RequestsForReservation
  rintro ⟨granted, -⟩
  have after := (granted ⟨56, 6⟩ requestOfNode8 [] ⟨0, 1⟩ [] 1 bridgeAsked (by decide +kernel) (by decide +kernel)
    (by decide +kernel) (by decide +kernel) (by decide +kernel) (by decide +kernel) (by decide)).of_next
      (rsvreq_of_take (n := ⟨56, 6⟩) rfl rfl)
  exact absurd (congrArg (fun x => x.stage.length) after.1) (by decide +kernel)

/-! ### A credit given back is not refilled (R117) -/

/-- NI(0, 0) holds a credit of the attach point 8, which waits to be refilled. -/
def creditIdle : State := poweredUp.setNi 0 { credits := [(8, 1)], refill := [(8, 0)] }

theorem mcLinger_of_unclaimed {n d : NiId} {s : State} (hc : 0 < credit (s.ni n.idx) d.idx)
    (hd : claims (s.ni n.idx) d.idx = 0) :
    exec (.mcLinger n d) s = .next (sendStandRel (modNi s n.idx (fun x => forgetCredit x d.idx)) n.idx (nodeOf s d.idx) 0
      (credit (s.ni n.idx) d.idx)) := by
  simp [exec, execMcLinger, hc, hd, when_]

/-- Refutes O18: with a credit that goes back its refills are given up (R117), and the clause on an idle credit keeps
them. -/
theorem not_admissionTimers : ¬ Obligations.AdmissionTimers := by
  unfold Obligations.AdmissionTimers
  rintro ⟨-, lingers, -⟩
  have after := (lingers ⟨0, 0⟩ ⟨1, 1⟩ creditIdle (by decide +kernel)).of_next
    (mcLinger_of_unclaimed (n := ⟨0, 0⟩) (d := ⟨1, 1⟩) (by decide +kernel) (by decide +kernel))
  exact absurd (congrArg (fun x => x.refill.length) after.1) (by decide +kernel)

/-! ### A cell of a class beyond the eight of R41 -/

/-- A cell that opens a frame at class 28, and the handle that it comes under. -/
def cellOfClass28 : Pkt := { id := 7, opc := Opc.CELL, src := 9, sc := 28, arg := 5, cnt := 10, flg := 3 }
def grantOfClass28 : Grant := { handle := 5, src := 9, sc := 28 }
def cellOfClass28Comes : State :=
  poweredUp.setNi 0 { grants := [grantOfClass28], runs := [[5]], eject := [cellOfClass28] }

/-- Refutes O19: the statement leaves the class of a packet open, and the flit counter of class 28 would be
NI_LATE_LOST_CNT, which the clause on a p0 or p1 says to have counted the flits of the cell and to be as it was. -/
theorem not_cellsDelivered : ¬ Obligations.CellsDelivered := by
  unfold Obligations.CellsDelivered
  rintro ⟨-, delivered, -⟩
  obtain ⟨t, -, -, counted, tracked, -⟩ := delivered ⟨0, 0⟩ cellOfClass28 [] 0 grantOfClass28 cellOfClass28Comes
    (by decide +kernel) (by decide +kernel) (by decide +kernel) (by decide +kernel) (by decide +kernel) (by decide +kernel)
    (by decide +kernel) (by decide +kernel)
  obtain ⟨-, kept, -⟩ := tracked.1 (by decide +kernel)
  exact absurd (kept.symm.trans counted) (by decide +kernel)

/-! ### A copy for an attach point that is absent (R111) -/

/-- A CELLMC has come whole to tile 1, the last of its mask, and the table of the tile sends its group to p6, which that
tile does not have. -/
def copyForAbsent : State :=
  (poweredUp.setWord (laneAddr 1 0) 0x40).setRt 1
    { inq := [{ pkt := { opc := Opc.CELLMC, src := 8, mask := 2, words := [7], key := 3 }, inp := 16, vc := 0, arrived := 1 }] }

theorem exec_replicate (u : Fin 64) (i : Fin 23) (s : State) :
    exec (.replicate u i) s =
      .next ((firstSome (replicateOne s u) (wholeMcs s u i)).elim s (fun s1 => markReady s1 u)) := by
  simp only [exec, execReplicate]
  cases firstSome (replicateOne s u) (wholeMcs s u i) <;> rfl

/-- Refutes O20: a copy for an attach point that is absent delivers nothing (R111), so that no branch takes the place of the
cell; the clause on replication places one for each lane. -/
theorem not_headRouted : ¬ Obligations.HeadRouted := by
  unfold Obligations.HeadRouted
  rintro ⟨-, -, -, replicated, -⟩
  obtain ⟨placed, -⟩ := (replicated 1 16 _ copyForAbsent rfl (by decide +kernel) (by decide +kernel) (by decide +kernel)
    (by decide +kernel)).of_next (exec_replicate 1 16 copyForAbsent)
  exact absurd (congrArg List.length placed) (by decide +kernel)

/-! ### The last deficit of a narrowing (R257, R258) -/

/-- A reservation request that has come whole from NI(0, 1) and is ready for NI(0, 0). -/
def lastDebtor : Flight :=
  { pkt := { opc := Opc.RSVREQ, sc := 7, key := 1 }, inp := 17, vc := 0, arrived := 1, out := some 16, since := some 0 }
/-- Router 0 narrows; the one deficit left is that of input port 17, and the request there frees the slot that pays it. -/
def lastDeficit : State :=
  (poweredUp.setRt 0 { inq := [lastDebtor], cnts := [(17, { vcs := [(pktKey lastDebtor.pkt 0, 2)], deficit := 1 })] }).setTa 0
    { nar := some { sl := 1, why := .repair, since := 0 } }

theorem pickNext_of_sc7 {s : State} {u o : Nat} {f : Flight}
    (h : oldest ((startable s u o).filter (fun f => decide (f.pkt.sc = 7))) = some f) : pickNext s u o = some (f, s) := by
  simp [pickNext, h]

theorem startNext_of_pick {s s1 : State} {u : Fin 64} {o : Fin 23} {f : Flight}
    (picked : pickNext (markReady s u) u o = some (f, s1)) (ho : ¬ o.val < 16) :
    exec (.startNext u o 0) s =
      .next (markReady (startLocal (bufUe s1 u f.pkt 0).1 u (o.val - 16) f (bufUe s1 u f.pkt 0).2) u) := by
  simp [exec, execStartNext, picked, ho, ok]

/-- Refutes O21: the packet that starts frees its slots, and the one that pays the last deficit ends a narrowing (R258), with
SLC_STAT of the slice; no clause names that register. -/
theorem not_packetStarted : ¬ Obligations.PacketStarted := by
  unfold Obligations.PacketStarted
  rintro ⟨-, local_, -⟩
  have first : oldest ((startable (markReady lastDeficit 0) 0 16).filter (fun f => decide (f.pkt.sc = 7))) = some lastDebtor := by
    decide +kernel
  obtain ⟨-, -, -, -, -, -, regs, -⟩ := (local_ 0 16 lastDebtor _ lastDeficit rfl (by decide +kernel) (by decide)
    (by decide +kernel) (by decide)).of_next (startNext_of_pick (pickNext_of_sc7 first) (by decide))
  exact absurd (regs (slcReg 0 1 Off.SLC_STAT) (by decide +kernel)) (by decide +kernel)

/-! ### Firmware takes note of what has launched before it looks for a route change (R243, R270) -/

/-- While firmware could not act, a change launched whose ticket is gone; router 0 holds a local fence. -/
def launchUnnoted : State :=
  { normalFirmware.setReg (rtrReg 0 Off.RTR_LOCAL_FENCE) 2 with fwLater := [{ num := 5, carried := [], lt := 0, miss := [] }] }

theorem takeNote_of_no_ticket {s : State} (x : Noted) (ht : s.tickets = []) (hr : s.route = none) : takeNote x s = s := by
  simp [takeNote, landAll, landDue, ht, hr]

theorem catchUp_of_no_ticket {s : State} {x : Noted} (hl : s.fwLater = [x]) (ht : s.tickets = []) (hr : s.route = none) :
    catchUp s = { s with fwLater := [] } := by
  rw [catchUp, hl]
  exact takeNote_of_no_ticket (s := { s with fwLater := [] }) x ht hr

theorem runJobs_of_no_job {s : State} (h : s.jobs = []) : runJobs s = s := by
  cases s
  subst h
  rfl

theorem routeChange_of_caught {s t : State} (alive : fwAlive s = true) (caught : runJobs (catchUp s) = t)
    (ht : t.tickets = []) (hr : t.route = none) (needed : routeNeeded t = true) :
    exec .routeChange s = .next (queueRoute t) := by
  simp [exec, execRouteChange, alive, caught, ht, hr, needed, ok]

theorem routeNeeded_of_localSet {s : State} (h : localSet s = true) : routeNeeded s = true := by
  simp [routeNeeded, h]

/-- Refutes O48: firmware first takes note of the changes that launched while it could not act (R243, R270), and the clause
on a route change says that these notes stay. -/
theorem not_firmwareJobs : ¬ Obligations.FirmwareJobs := by
  unfold Obligations.FirmwareJobs
  rintro ⟨-, -, -, -, -, queued, -⟩
  have needed : routeNeeded launchUnnoted = true := routeNeeded_of_localSet (by decide +kernel)
  have caught : runJobs (catchUp launchUnnoted) = { launchUnnoted with fwLater := [] } := by
    rw [catchUp_of_no_ticket rfl rfl rfl, runJobs_of_no_job rfl]
  obtain ⟨-, kept⟩ := (queued launchUnnoted (by decide +kernel) (by decide +kernel) rfl rfl rfl (by decide) needed).of_next
    (routeChange_of_caught (by decide +kernel) caught rfl rfl (routeNeeded_of_localSet (by decide +kernel)))
  exact absurd (congrArg (fun t => t.fwLater.length) kept) Nat.zero_ne_one

end Sys2Proof.Machine

namespace Sys2Proof.Machine

section
variable {s t : State} {ps : List Piece} {rs as ls : List Nat} {a b u v i k h o : Nat} {x : Bool}

/-! ### Bits of a register -/

/-- A bit that has the value already keeps it where a bit, the same or another, is given that value. -/
theorem regBit_setBit_of_eq (hb : regBit s a b = x) : regBit (setBit s k i x) a b = x := by
  by_cases ha : a = k
  · subst ha
    rw [regBit, setBit, setFld, State.setReg_same, W.bit, W.getLsbD_put]
    split
    next here =>
      have first : b - i = 0 := by omega
      rw [first]
      cases x with
      | false => simp [b2n]
      | true => simp [b2n, BitVec.lt_of_getLsbD hb]
    next => exact hb
  · rw [regBit, setBit, setFld, State.setReg_ne ha]
    exact hb

theorem regBit_setBit_same (hb : b < 36) : regBit (setBit s a b x) a b = x := by
  rw [regBit, setBit, setFld, State.setReg_same, W.bit, W.getLsbD_put]
  cases x <;> simp [hb, b2n]

theorem regBit_congr (hr : t.regs = s.regs) : regBit t a b = regBit s a b := by
  rw [regBit, State.reg, hr, regBit, State.reg]

theorem regs_setBit_congr (hr : t.regs = s.regs) : (setBit t a b x).regs = (setBit s a b x).regs := by
  simp only [setBit, setFld, State.setReg, State.reg, hr]

theorem rt_setBit : (setBit s a b x).rt v = s.rt v := State.setReg_rt

theorem within_setBit (hp : .regs ∈ ps) (hl : a ∈ ls) : Within ps rs as ls s (setBit s a b x) := Within.setReg hp hl

/-- Bits of registers are set. -/
def setBits (l : List (Nat × Nat)) (s : State) : State := forEach (fun e st => setBit st e.1 e.2 true) l s

theorem regBit_setBits_of_set {l : List (Nat × Nat)} (hb : regBit s a b = true) : regBit (setBits l s) a b = true := by
  induction l generalizing s with
  | nil => exact hb
  | cons e l ih => exact ih (regBit_setBit_of_eq hb)

theorem regBit_setBits_of_mem {l : List (Nat × Nat)} (hm : (a, b) ∈ l) (hb : b < 36) : regBit (setBits l s) a b = true := by
  induction l generalizing s with
  | nil => cases hm
  | cons e l ih =>
    obtain rfl | hm := List.mem_cons.1 hm
    · change regBit (setBits l (setBit s a b true)) a b = true
      exact regBit_setBits_of_set (regBit_setBit_same hb)
    · exact ih hm

/-! ### Halves put out of use and back (R261) -/

/-- Both ends of half h of outgoing link k of router v, which is link i into router u, are fenced or not. -/
def setEnds (s : State) (v k u i h : Nat) (x : Bool) : State := setRx (setTx s v k h x) u i h x

theorem txFenced_setEnds : txFenced (setEnds s v k u i h x) v k h = x :=
  regBit_setBit_of_eq (regBit_setBit_same (by decide))
theorem rxFenced_setEnds : rxFenced (setEnds s v k u i h x) u i h = x := regBit_setBit_same (by decide)

theorem within_setEnds : Within [.regs] [] [] [slcReg v h (Off.LNK_STAT k), slcReg u h (Off.LNK_STAT i)] s
    (setEnds s v k u i h x) :=
  (within_setBit (by simp) (by simp)).trans (within_setBit (by simp) (by simp))

/-! ### Routers with nothing in their buffers -/

/-- Router u holds no packet and awaits no rest of one. -/
def buffersEmpty (s : State) (u : Nat) : Prop := (s.rt u).inq = [] ∧ (s.rt u).trail = []

theorem buffersEmpty_congr (hr : t.rt v = s.rt v) (hs : buffersEmpty s v) : buffersEmpty t v := by
  rw [buffersEmpty, hr]
  exact hs

theorem buffersEmpty_fenceLocal (hs : buffersEmpty s v) : buffersEmpty (fenceLocal s u o) v := by
  obtain ⟨inq, trail⟩ := hs
  by_cases hv : v = u
  · subst hv
    rw [buffersEmpty, fenceLocal, reroute, modRt, State.setRt_same, rt_setBit, inq, trail]
    exact ⟨rfl, rfl⟩
  · refine buffersEmpty_congr (s := s) ?_ ⟨inq, trail⟩
    rw [fenceLocal, reroute, modRt, State.setRt_ne hv, rt_setBit]

theorem caughtAt_of_empty (hs : buffersEmpty s u) : caughtAt s u k = (s, {}) := by
  obtain ⟨inq, trail⟩ := hs
  simp [caughtAt, inq, trail, forEach]

theorem caughtFrom_loss_of_empty (hs : buffersEmpty s u) : (caughtFrom s u i).2 = {} := by
  simp [caughtFrom, hs.2]

/-! ### A lost link (R68, R335) -/

/-- Link i of router u is fenced at both of its routers. -/
def linkFencedOff (s : State) (u i : Nat) : State :=
  fenceLocal (fenceLocal s u i) (across u i) (portTo (across u i) u)

/-- The halves of outgoing link i of router u are out of use at both ends. -/
def halvesOut (s : State) (u i : Nat) : State :=
  setTx (setTx (setRx (setRx s (across u i) (portTo (across u i) u) 0 true) (across u i) (portTo (across u i) u) 1 true)
    u i 0 true) u i 1 true

/-- Link i of router u is fenced off, its halves are out of use, and BUSY is due; LINK_LOST is still to be logged. -/
def linkGivenUp (s : State) (u i : Nat) : State := busyAt (halvesOut (linkFencedOff s u i) u i) (across u i)

/-- The bits that a lost link sets. -/
def lostBits (u i : Nat) : List (Nat × Nat) :=
  [(rtrReg u Off.RTR_LOCAL_FENCE, i), (rtrReg (across u i) Off.RTR_LOCAL_FENCE, portTo (across u i) u),
   (slcReg (across u i) 0 (Off.LNK_STAT (portTo (across u i) u)), 1),
   (slcReg (across u i) 1 (Off.LNK_STAT (portTo (across u i) u)), 1),
   (slcReg u 0 (Off.LNK_STAT i), 0), (slcReg u 1 (Off.LNK_STAT i), 0)]

theorem regs_fenceLocal : (fenceLocal s u o).regs = (setBit s (rtrReg u Off.RTR_LOCAL_FENCE) o true).regs := rfl

theorem regs_linkGivenUp : (linkGivenUp s u i).regs = (setBits (lostBits u i) s).regs := by
  have fences : (linkFencedOff s u i).regs = (setBit (setBit s (rtrReg u Off.RTR_LOCAL_FENCE) i true)
      (rtrReg (across u i) Off.RTR_LOCAL_FENCE) (portTo (across u i) u) true).regs :=
    regs_fenceLocal.trans (regs_setBit_congr regs_fenceLocal)
  simp only [linkGivenUp, busyAt, modTa, State.setTa_regs, halvesOut, setTx, setRx, lostBits, setBits, forEach]
  exact regs_setBit_congr (regs_setBit_congr (regs_setBit_congr (regs_setBit_congr fences)))

/-- The registers that a lost link touches. -/
def lostRegs (u i : Nat) : List Nat := [rtrReg u Off.RTR_LOCAL_FENCE, rtrReg (across u i) Off.RTR_LOCAL_FENCE,
  slcReg u 0 (Off.LNK_STAT i), slcReg u 1 (Off.LNK_STAT i), slcReg (across u i) 0 (Off.LNK_STAT (portTo (across u i) u)),
  slcReg (across u i) 1 (Off.LNK_STAT (portTo (across u i) u))]

theorem within_fenceLocal (hp : [.routers, .regs] ⊆ ps) (hr : u ∈ rs) (hl : rtrReg u Off.RTR_LOCAL_FENCE ∈ ls) :
    Within ps rs as ls s (fenceLocal s u o) :=
  (within_setBit (hp (by simp)) hl).trans (Within.setRt (hp (by simp)) hr)

theorem within_halvesOut (hp : .regs ∈ ps) : Within ps rs as (lostRegs u i) s (halvesOut s u i) :=
  (((within_setBit hp (by simp [lostRegs])).trans (within_setBit hp (by simp [lostRegs]))).trans
    (within_setBit hp (by simp [lostRegs]))).trans (within_setBit hp (by simp [lostRegs]))

theorem within_linkOut (hp : [.routers, .regs] ⊆ ps) (hr : [u, across u i] ⊆ rs) :
    Within ps rs as (lostRegs u i) s (halvesOut (linkFencedOff s u i) u i) :=
  ((within_fenceLocal hp (hr (by simp)) (by simp [lostRegs])).trans
    (within_fenceLocal hp (hr (by simp)) (by simp [lostRegs]))).trans (within_halvesOut (hp (by simp)))

theorem within_linkGivenUp : Within [.routers, .regs, .agents] [u, across u i] [across u i] (lostRegs u i) s
    (linkGivenUp s u i) :=
  (within_linkOut (by simp) (by simp)).trans (Within.setTa (by simp) (by simp))

theorem buffersEmpty_linkGivenUp (hs : buffersEmpty s v) : buffersEmpty (linkGivenUp s u i) v := by
  refine buffersEmpty_congr (s := linkFencedOff s u i) ?_ (buffersEmpty_fenceLocal (buffersEmpty_fenceLocal hs))
  rw [linkGivenUp, busyAt, modTa, State.setTa_rt]
  exact (within_halvesOut (ps := [.regs]) (rs := []) (as := []) (by simp)).routers v (by simp)

theorem ta_linkGivenUp : (linkGivenUp s u i).ta (across u i) = { s.ta (across u i) with busyDue := true } := by
  rw [linkGivenUp, busyAt, modTa, State.setTa_same,
    (within_linkOut (as := []) (List.Subset.refl _) (List.Subset.refl _)).agents _ (by simp)]

/-- EXT_INST is no register of a router. -/
theorem extReg_ne_rtrReg (hu : u < 64) (ho : o < 0x1000) : extReg Off.EXT_INST ≠ rtrReg u o := by
  unfold extReg globalReg rtrReg tileBase Off.EXT_INST
  omega

theorem across_lt (hu : u < 64) (hi : i < 16) : across u i < 64 := by
  unfold across row col
  split <;> omega

theorem portTo_lt (hv : v < 64) : portTo u v < 16 := by
  unfold portTo row col
  split <;> omega

theorem inst_not_mem_lostRegs (hu : u < 64) (hi : i < 16) : extReg Off.EXT_INST ∉ lostRegs u i := by
  have far {v h j : Nat} (hh : h < 2) (hj : j < 16) : extReg Off.EXT_INST ≠ slcReg v h (Off.LNK_STAT j) :=
    extReg_ne_slcReg hh (by unfold Off.LNK_STAT; omega)
  simp only [lostRegs, List.mem_cons, List.not_mem_nil, or_false, not_or]
  exact ⟨extReg_ne_rtrReg hu (by decide), extReg_ne_rtrReg (across_lt hu hi) (by decide), far (by decide) hi,
    far (by decide) hi, far (by decide) (portTo_lt hu), far (by decide) (portTo_lt hu)⟩

/-- LINK_LOST of a link into router r. -/
def lostEvent (s : State) (r : Nat) : Ev := mkEv (ftNow s) (nodeTP s r 5) EvC.LINK_LOST []

/-- The link has been given up, and LINK_LOST is logged. -/
def linkLogged (s : State) (u i : Nat) : State := { linkGivenUp s u i with evq := s.evq ++ [lostEvent s (across u i)] }

/-- The routers have looked at what they hold since; no packet was caught. -/
def linkNoted (s : State) (u i : Nat) : State :=
  markReady (markReady (caughtFrom (linkLogged s u i) u i).1 u) (across u i)

theorem logTile_linkGivenUp (hu : u < 64) (hi : i < 16) (passes : eventPasses s (.rtr (across u i))) :
    logTile (linkGivenUp s u i) (across u i) EvC.LINK_LOST [] = linkLogged s u i := by
  have within := within_linkGivenUp (s := s) (u := u) (i := i)
  have same : inst (linkGivenUp s u i) = inst s := within.inst (inst_not_mem_lostRegs hu hi)
  rw [logTile_of_passes rfl (eventPasses_congr (within.evq (by simp)) same passes), within.evq (by simp),
    within.ftNow (by simp), linkLogged, lostEvent, nodeTP, same, nodeTP]

theorem buffersEmpty_linkLogged (hs : buffersEmpty s v) : buffersEmpty (linkLogged s u i) v :=
  buffersEmpty_congr rt_evq (buffersEmpty_linkGivenUp hs)

theorem loseLink_of_empty (hu : u < 64) (hi : i < 16) (passes : eventPasses s (.rtr (across u i))) (hs : buffersEmpty s u)
    (hr : buffersEmpty s (across u i)) : loseLink s u i = linkNoted s u i := by
  have logged := logTile_linkGivenUp hu hi passes
  simp only [linkGivenUp, halvesOut, linkFencedOff] at logged
  simp only [loseLink, logged, caughtAt_of_empty (buffersEmpty_linkLogged hr),
    caughtFrom_loss_of_empty (buffersEmpty_linkLogged hs), noteLoss, if_true, linkNoted]

/-- What the routers do after the event stays in their buffers. -/
theorem within_afterEvent : Within [.routers] [u, across u i] [] [] (linkLogged s u i) (linkNoted s u i) :=
  ((Within.setRt (by simp) (by simp)).trans (Within.markReady (by simp) (by simp))).trans
    (Within.markReady (by simp) (by simp))

theorem within_linkNoted : Within [.routers, .regs, .log, .agents] [u, across u i] [across u i] (lostRegs u i) s
    (linkNoted s u i) :=
  ((within_linkGivenUp.mono (by simp) (List.Subset.refl _) (List.Subset.refl _) (List.Subset.refl _)).trans
    (Within.ofEvq (by simp))).trans (within_afterEvent.mono (by simp) (List.Subset.refl _) (by simp) (by simp))

theorem regBit_linkNoted (hm : (a, b) ∈ lostBits u i) (hb : b < 36) : regBit (linkNoted s u i) a b = true := by
  rw [regBit, within_afterEvent.regs a (by simp), linkLogged, reg_evq]
  exact (regBit_congr regs_linkGivenUp).trans (regBit_setBits_of_mem hm hb)

theorem fenced_linkNoted (hu : u < 64) (hi : i < 16) : localFence (linkNoted s u i) u i = true ∧
    localFence (linkNoted s u i) (across u i) (portTo (across u i) u) = true :=
  ⟨regBit_linkNoted (by simp [lostBits]) (by omega),
    regBit_linkNoted (by simp [lostBits]) (Nat.lt_trans (portTo_lt hu) (by decide))⟩

theorem txFenced_linkNoted : txFenced (linkNoted s u i) u i 0 = true ∧ txFenced (linkNoted s u i) u i 1 = true :=
  ⟨regBit_linkNoted (by simp [lostBits]) (by decide), regBit_linkNoted (by simp [lostBits]) (by decide)⟩

theorem rxFenced_linkNoted : rxFenced (linkNoted s u i) (across u i) (portTo (across u i) u) 0 = true ∧
    rxFenced (linkNoted s u i) (across u i) (portTo (across u i) u) 1 = true :=
  ⟨regBit_linkNoted (by simp [lostBits]) (by decide), regBit_linkNoted (by simp [lostBits]) (by decide)⟩

theorem evq_linkNoted : (linkNoted s u i).evq = s.evq ++ [lostEvent s (across u i)] := within_afterEvent.evq (by simp)

theorem ta_linkNoted : (linkNoted s u i).ta (across u i) = { s.ta (across u i) with busyDue := true } := by
  rw [within_afterEvent.agents _ (by simp), linkLogged, ta_evq, ta_linkGivenUp]

/-! ### A saturated window (R91) -/

/-- The window is counted, and RTR_HOTSPOT_INFO names the output and the classes that wait. -/
def windowCounted (s : State) (u o : Nat) : State :=
  (incSat s (rtrReg u Off.RTR_HOTSPOT_CNT)).setReg (rtrReg u Off.RTR_HOTSPOT_INFO)
    (W.at 0 5 o ||| W.at 5 8 (waitingClasses s u o))

/-- The registers of a saturated window. -/
def hotRegs (u : Nat) : List Nat := [rtrReg u Off.RTR_HOTSPOT_CNT, rtrReg u Off.RTR_HOTSPOT_INFO]

theorem within_windowCounted (hp : .regs ∈ ps) : Within ps rs as (hotRegs u) s (windowCounted s u o) :=
  (Within.setReg hp (by simp [hotRegs])).trans (Within.setReg hp (by simp [hotRegs]))

theorem reg_windowCounted_cnt :
    (windowCounted s u o).reg (rtrReg u Off.RTR_HOTSPOT_CNT) = (s.reg (rtrReg u Off.RTR_HOTSPOT_CNT)).satInc := by
  rw [windowCounted, State.setReg_ne (by simp [rtrReg, Off.RTR_HOTSPOT_CNT, Off.RTR_HOTSPOT_INFO]), incSat, State.setReg_same]

theorem reg_windowCounted_info : (windowCounted s u o).reg (rtrReg u Off.RTR_HOTSPOT_INFO) =
    W.at 0 5 o ||| W.at 5 8 (waitingClasses s u o) := State.setReg_same

theorem eventPasses_windowCounted (hu : u < 64) (passes : eventPasses s (.rtr u)) :
    eventPasses (windowCounted s u o) (.rtr u) := by
  have counted := within_windowCounted (ps := [.regs]) (rs := []) (as := []) (s := s) (u := u) (o := o) (by simp)
  have far : extReg Off.EXT_INST ∉ hotRegs u := by
    simp [hotRegs, extReg_ne_rtrReg hu, Off.RTR_HOTSPOT_CNT, Off.RTR_HOTSPOT_INFO]
  exact eventPasses_congr (counted.evq (by simp)) (counted.inst far) passes

/-- The window is counted; at most once in 1 s it is logged too. -/
theorem saturated_cases (hu : u < 64) (passes : eventPasses s (.rtr u)) : saturated s u o = windowCounted s u o ∨
    ∃ q, saturated s u o = modRt { windowCounted s u o with evq := q } u (fun x => { x with hotFc := some s.fc }) := by
  by_cases due : rateOk s (s.rt u).hotFc fcOf1s = true
  · have logged : saturated s u o = modRt (logTile (windowCounted s u o) u EvC.HOTSPOT
        [W.at 0 5 o ||| W.at 5 8 (waitingClasses s u o)]) u (fun x => { x with hotFc := some s.fc }) := if_pos due
    rw [logged, logTile_of_passes rfl (eventPasses_windowCounted hu passes)]
    exact .inr ⟨_, rfl⟩
  · exact .inl (if_neg due)

/-- Beyond the two registers a saturated window changes the log and the time of its last event. -/
theorem within_saturated (hu : u < 64) (passes : eventPasses s (.rtr u)) :
    Within [.log, .routers] [u] [] [] (windowCounted s u o) (saturated s u o) := by
  obtain silent | ⟨q, logged⟩ := saturated_cases hu passes
  · rw [silent]
    exact Within.refl
  · rw [logged]
    exact (Within.ofEvq (by simp)).trans (Within.setRt (by simp) (by simp))

theorem inq_saturated (hu : u < 64) (passes : eventPasses s (.rtr u)) : ((saturated s u o).rt v).inq = (s.rt v).inq := by
  have counted : (windowCounted s u o).rt v = s.rt v :=
    (within_windowCounted (ps := [.regs]) (rs := []) (as := []) (by simp)).routers v (by simp)
  obtain silent | ⟨q, logged⟩ := saturated_cases hu passes
  · rw [silent, counted]
  · have stamped := part_modRt (s := { windowCounted s u o with evq := q }) (u := u) (v := v)
      (f := fun x => { x with hotFc := some s.fc }) Router.inq fun _ => rfl
    rw [logged, stamped, rt_evq, counted]

end

/-- Settles O24: halves change at both ends in one step, a lost link sets the fences and the halves of both its routers before
it is logged, and a saturated window counts before it may be logged. -/
theorem linksChangeForm : Obligations.LinksChangeForm := by
  unfold Obligations.LinksChangeForm
  refine ⟨fun u i h s standing due other => ?narrow, fun u i h s fenced unwanted empty => ?widen,
    fun u i s _ passes inq trail inqR trailR => ?lost, fun u o s ready passes => ?window⟩
  case narrow =>
    have runs : exec (.narrow u i h) s = .next (setEnds s (across u i) (portTo (across u i) u) u i h true) := by
      simp only [exec, execNarrow, narrowArrives, standing, due, other, Bool.false_eq_true, if_false, if_true,
        Bool.false_and]
      rfl
    exact ⟨_, runs, txFenced_setEnds, rxFenced_setEnds, within_setEnds.regs, within_setEnds.pieces⟩
  case widen =>
    have runs : exec (.widen u i h) s = .next (setEnds s (across u i) (portTo (across u i) u) u i h false) := by
      simp only [exec, execWiden, widenArrives, fenced, unwanted, empty, Bool.not_false, Bool.and_true, if_true]
      rfl
    exact ⟨_, runs, txFenced_setEnds, rxFenced_setEnds, within_setEnds.regs, within_setEnds.pieces⟩
  case lost =>
    have runs : exec (.linkLost u i) s = .next (linkNoted s u i) := by
      rw [← loseLink_of_empty u.isLt i.isLt passes ⟨inq, trail⟩ ⟨inqR, trailR⟩]
      rfl
    have within := within_linkNoted (s := s) (u := u) (i := i)
    obtain ⟨here, there⟩ := fenced_linkNoted (s := s) u.isLt i.isLt
    obtain ⟨tx0, tx1⟩ := txFenced_linkNoted (s := s) (u := u) (i := i)
    obtain ⟨rx0, rx1⟩ := rxFenced_linkNoted (s := s) (u := u) (i := i)
    exact ⟨_, runs, here, there, tx0, tx1, rx0, rx1, evq_linkNoted, within.regs, ta_linkNoted,
      fun v hv => within.agents v (by simpa using hv), within.pieces, within.routers⟩
  case window =>
    have runs : exec (.saturatedWindow u o) s = .next (saturated s u o) := by
      simp [exec, execSaturatedWindow, ready, when_]
    have noted := within_saturated (o := o) u.isLt passes
    have within : Within [.routers, .regs, .log] [u.val] [] (hotRegs u) s (saturated s u o) :=
      (within_windowCounted (by simp)).trans (noted.mono (by simp) (List.Subset.refl _) (by simp) (by simp))
    refine ⟨_, runs, ?count, ?info, within.regs, within.pieces, within.routers, inq_saturated u.isLt passes⟩
    · rw [noted.regs _ (by simp), reg_windowCounted_cnt]
    · rw [noted.regs _ (by simp), reg_windowCounted_info]

end Sys2Proof.Machine

/-! Proofs of the family of 04_classes_and_overload: the two statements that a state of the model contradicts (O16 and O17),
and HOTSPOT (O60): the classes that wait, RTR_HOTSPOT_INFO, and when a saturated window is logged. -/

namespace Sys2Proof.Machine

/-! ### A grant for a request that a reset of the unit has withdrawn (R51, R115) -/

def standingGrantFrom9 : Pkt := { opc := Opc.RSVGNT, src := 9, cnt := 2, tag := 1 }
def requestWithdrawn : RsvOut := { dst := 9, sc := 0, cnt := 2, standing := true, withdrawn := true, gone := true }
/-- NI(0, 0) has a standing grant of node 9 in its eject FIFO; a reset of its unit, which is over, has withdrawn the
request. -/
def grantAfterReset : State := poweredUp.setNi 0 { rsv := some requestWithdrawn, eject := [standingGrantFrom9] }

theorem rsvgnt_of_gone {n : NiId} {p : Pkt} {r : RsvOut} {s s1 : State}
    (h : takeRsv s n.idx Opc.RSVGNT (fun _ => true) = some (p, s1)) (hp : p.poisoned = false)
    (hr : (s1.ni n.idx).rsv = some r) (hd : r.dst = p.src) (gone : r.gone = true) :
    exec (.rsvgnt n) s = .next (advance (returnGrant (modNi s1 n.idx (fun x => { x with rsv := none })) n.idx p) n.idx) := by
  simp [exec, execRsvgnt, h, hp, takeGrant, hr, hd, gone, ok]

/-- Refutes O16: what is granted for a request that a reset of the unit has withdrawn goes back at once (R51), and the clause
on standing grants says that it becomes credit. -/
theorem not_answersToReservation : ¬ Obligations.AnswersToReservation := by
  unfold Obligations.AnswersToReservation
  rintro ⟨-, -, credited, -⟩
  have after := (credited ⟨0, 0⟩ standingGrantFrom9 [] requestWithdrawn grantAfterReset (by decide +kernel) (by decide +kernel)
    (by decide +kernel) (by decide +kernel) (by decide +kernel) (by decide +kernel) (by decide +kernel)).of_next
      (rsvgnt_of_gone (n := ⟨0, 0⟩) (r := requestWithdrawn) rfl rfl (by decide +kernel) rfl rfl)
  exact absurd (congrArg (fun x => x.stage.length) after.1) (by decide +kernel)

/-! ### A standing handle that a copy has taken (R116, R117) -/

def copyFrom9 : Pkt := { opc := Opc.CELLMC, src := 9 }
def standingReturnFrom9 : Pkt := { opc := Opc.RSVREL, src := 9, cnt := 2, tag := 1 }
/-- NI(0, 0) holds two standing handles for node 9; in its eject FIFO a copy from there, which has taken the first, stands
before the return of the set. -/
def returnBehindCopy : State :=
  poweredUp.setNi 0 { standing := [(9, [5, 6])], eject := [copyFrom9, standingReturnFrom9] }

theorem rsvrelStanding_of_take {n : NiId} {p : Pkt} {s s1 : State}
    (h : takeRsv s n.idx Opc.RSVREL (fun p => decide (p.tag % 2 = 1)) = some (p, s1)) (hp : p.poisoned = false) :
    exec (.rsvrelStanding n) s = .next (standReturn s1 n.idx p.src p.cnt) := by
  simp [exec, execRsvrelStanding, h, hp, ok]

/-- Refutes O17: a handle of the standing set that a copy in the eject FIFO has taken (R116) does not go back with the set,
and the clause on standing returns says that all of the set does. -/
theorem not_handlesReturned : ¬ Obligations.HandlesReturned := by
  unfold Obligations.HandlesReturned
  rintro ⟨-, -, returned, -⟩
  have after := (returned ⟨0, 0⟩ standingReturnFrom9 [copyFrom9] returnBehindCopy (by decide +kernel) (by decide +kernel)
    (by decide +kernel) (by decide +kernel)).of_next (rsvrelStanding_of_take (n := ⟨0, 0⟩) rfl rfl)
  exact absurd (congrArg List.length after.1) (by decide +kernel)

end Sys2Proof.Machine

namespace Sys2Proof.W

variable {lo len v : Nat}

theorem toNat_at_lt : (W.at lo len v).toNat < 2 ^ (lo + len) := by
  have cut : (v % 2 ^ len) <<< lo < 2 ^ (lo + len) := by
    rw [Nat.shiftLeft_eq, Nat.pow_add, Nat.mul_comm]
    exact Nat.mul_lt_mul_of_pos_left (Nat.mod_lt _ (Nat.two_pow_pos len)) (Nat.two_pow_pos lo)
  rw [W.at, BitVec.toNat_ofNat]
  exact Nat.lt_of_le_of_lt (Nat.mod_le _ _) cut

end Sys2Proof.W

namespace Sys2Proof.Machine

section
variable {s t : State} {u o k m x d : Nat} {f : Nat → Bool}

/-! ### The classes that wait for an output (R92) -/

/-- The number whose bits below n are those of `f`. -/
def bitsBelow (f : Nat → Bool) (n : Nat) : Nat := (List.range n).foldl (fun m c => if f c then m + 2 ^ c else m) 0

theorem bitsBelow_succ : bitsBelow f (k + 1) = if f k then bitsBelow f k + 2 ^ k else bitsBelow f k := by
  simp [bitsBelow, List.range_succ]

theorem bitsBelow_lt : bitsBelow f k < 2 ^ k := by
  induction k with
  | zero => simp [bitsBelow]
  | succ k ih =>
    rw [bitsBelow_succ, Nat.pow_succ]
    split <;> omega

theorem testBit_bitsBelow : (bitsBelow f m).testBit k = (decide (k < m) && f k) := by
  induction m with
  | zero => simp [bitsBelow]
  | succ m ih =>
    rw [bitsBelow_succ]
    obtain below | rfl | above := Nat.lt_trichotomy k m
    · have le : k < m + 1 := Nat.lt_succ_of_lt below
      split
      · rw [Nat.add_comm, Nat.testBit_two_pow_add_gt below, ih]
        simp [below, le]
      · simp [ih, below, le]
    · have clear : (bitsBelow f k).testBit k = false := Nat.testBit_lt_two_pow bitsBelow_lt
      split
      next set => rw [Nat.add_comm, Nat.testBit_two_pow_add_eq, clear]; simp [set]
      next unset => simp [clear, unset]
    · have small : bitsBelow f (m + 1) < 2 ^ k :=
        Nat.lt_of_lt_of_le bitsBelow_lt (Nat.pow_le_pow_right (by decide) above)
      rw [← bitsBelow_succ, Nat.testBit_lt_two_pow small]
      simp [Nat.not_lt.2 above]

/-- A head of class k waits for output o. -/
def classWaits (s : State) (u o k : Nat) : Bool := (s.rt u).inq.any (fun f => decide (f.out = some o ∧ f.pkt.sc = k))

theorem testBit_waitingClasses (hk : k < 8) : (waitingClasses s u o).testBit k = classWaits s u o k := by
  have bits : waitingClasses s u o = bitsBelow (classWaits s u o) 8 := rfl
  rw [bits, testBit_bitsBelow]
  simp [hk]

/-! ### RTR_HOTSPOT_INFO (R92) -/

/-- The port index and the classes whose heads wait. -/
def hotInfo (s : State) (u o : Nat) : W := W.at 0 5 o ||| W.at 5 8 (waitingClasses s u o)

theorem fld_hotInfo (ho : o < 2 ^ 5) : (hotInfo s u o).fld 0 5 = o := by
  refine Nat.eq_of_testBit_eq fun i => ?_
  by_cases hi : i < 5
  · have clear : ¬ 5 ≤ i := by omega
    simp [W.testBit_fld, hotInfo, W.getLsbD_at, hi, clear]
    omega
  · have : o < 2 ^ i := Nat.lt_of_lt_of_le ho (Nat.pow_le_pow_right (by decide) (Nat.le_of_not_lt hi))
    simp [W.testBit_fld, hi, Nat.testBit_lt_two_pow this]

theorem bit_hotInfo (hk : k < 8) : (hotInfo s u o).bit (5 + k) = classWaits s u o k := by
  have inWord : 5 + k < 36 := by omega
  rw [← testBit_waitingClasses hk]
  simp only [W.bit, hotInfo, BitVec.getLsbD_or, W.getLsbD_at]
  simp [hk, inWord]

theorem toNat_hotInfo_lt : (hotInfo s u o).toNat < 2 ^ 13 := by
  rw [hotInfo, BitVec.toNat_or]
  exact Nat.or_lt_two_pow (Nat.lt_trans W.toNat_at_lt (by decide)) W.toNat_at_lt

/-! ### When a saturated window is logged (R92) -/

/-- The router has logged no HOTSPOT within the last second. -/
abbrev hotDue (s : State) (u : Nat) : Prop := rateOk s (s.rt u).hotFc fcOf1s = true

theorem hotDue_iff : hotDue s u ↔ ∀ x, (s.rt u).hotFc = some x → x + 2400000000 ≤ s.fc := by
  unfold hotDue rateOk
  cases (s.rt u).hotFc with
  | none => simp
  | some y =>
    simp only [decide_eq_true_eq, Option.some.injEq, forall_eq']
    rw [fcOf1s]

theorem saturated_of_not_due (h : ¬ hotDue s u) : saturated s u o = windowCounted s u o := if_neg h

/-- HOTSPOT reaches the crossing, which may be full, and the router notes the time. -/
theorem saturated_of_due (h : hotDue s u) : saturated s u o =
    modRt (logTile (windowCounted s u o) u EvC.HOTSPOT [hotInfo s u o]) u (fun x => { x with hotFc := some s.fc }) := if_pos h

theorem rt_windowCounted : (windowCounted s u o).rt u = s.rt u := rfl
theorem evq_windowCounted : (windowCounted s u o).evq = s.evq := rfl
theorem eventPasses_fc (passes : eventPasses s (.rtr u)) : eventPasses { s with fc := k } (.rtr u) :=
  eventPasses_congr rfl rfl passes
theorem evq_fc : ({ s with fc := k } : State).evq = s.evq := rfl
theorem hotDue_fc : hotDue { s with fc := k } u ↔ ∀ x, (s.rt u).hotFc = some x → x + 2400000000 ≤ k := hotDue_iff

/-- HOTSPOT of an output. -/
def hotEvent (s : State) (u o : Nat) : Ev := mkEv (ftTile s u) (nodeTP s u 5) EvC.HOTSPOT [hotInfo s u o]

theorem inst_windowCounted (hu : u < 64) : inst (windowCounted s u o) = inst s := by
  refine (within_windowCounted (ps := [.regs]) (rs := []) (as := []) (by simp)).inst ?_
  simp [hotRegs, extReg_ne_rtrReg hu, Off.RTR_HOTSPOT_CNT, Off.RTR_HOTSPOT_INFO]

theorem logTile_windowCounted (hu : u < 64) (passes : eventPasses s (.rtr u)) :
    logTile (windowCounted s u o) u EvC.HOTSPOT [hotInfo s u o] =
      { windowCounted s u o with evq := s.evq ++ [hotEvent s u o] } := by
  rw [logTile_of_passes rfl (eventPasses_windowCounted hu passes), nodeTP, inst_windowCounted hu]
  rfl

theorem evq_saturated_of_due (hu : u < 64) (passes : eventPasses s (.rtr u)) (h : hotDue s u) :
    (saturated s u o).evq = s.evq ++ [hotEvent s u o] := by
  rw [saturated_of_due h, logTile_windowCounted hu passes, modRt, State.setRt_evq]

theorem evq_saturated_of_not_due (h : ¬ hotDue s u) : (saturated s u o).evq = s.evq := by
  rw [saturated_of_not_due h, evq_windowCounted]

/-- A window logs at most one event. -/
theorem length_evq_saturated_le (hu : u < 64) (passes : eventPasses s (.rtr u)) :
    (saturated s u o).evq.length ≤ s.evq.length + 1 := by
  by_cases due : hotDue s u
  · simp [evq_saturated_of_due hu passes due]
  · simp [evq_saturated_of_not_due due]

theorem hotFc_saturated_of_due (h : hotDue s u) : ((saturated s u o).rt u).hotFc = some s.fc := by
  rw [saturated_of_due h, modRt, State.setRt_same]

/-- Beyond its two registers a window writes the log, the registers of the crossing and the time of the last event. -/
theorem within_saturated_crossing : Within [.log, .regs, .routers] [u] [] (crossingRegs u) (windowCounted s u o)
    (saturated s u o) := by
  by_cases due : hotDue s u
  · rw [saturated_of_due due]
    exact (Within.logRouter rfl (by simp) (by simp) (List.Subset.refl _)).trans (Within.setRt (by simp) (by simp))
  · rw [saturated_of_not_due due]
    exact Within.refl

/-- Of the router a window changes nothing but the time of the last event. -/
theorem rt_saturated : { (saturated s u o).rt u with hotFc := (s.rt u).hotFc } = s.rt u := by
  by_cases due : hotDue s u
  · have logged : Within [.log, .regs] [] [] (crossingRegs u) (windowCounted s u o)
        (logTile (windowCounted s u o) u EvC.HOTSPOT [hotInfo s u o]) :=
      Within.logRouter rfl (by simp) (by simp) (List.Subset.refl _)
    rw [saturated_of_due due, modRt, State.setRt_same, logged.routers u (by simp), rt_windowCounted]
  · rw [saturated_of_not_due due, rt_windowCounted]

theorem rtrReg_ne_taReg {a b : Nat} (ha : a < 0xC000) : rtrReg u a ≠ taReg u b := by
  unfold rtrReg taReg
  omega

theorem hotReg_not_mem_crossingRegs {a : Nat} (ha : a ∈ hotRegs u) : a ∉ crossingRegs u := by
  simp only [hotRegs, List.mem_cons, List.not_mem_nil, or_false] at ha
  obtain rfl | rfl := ha <;> simp [crossingRegs, rtrReg_ne_taReg, Off.RTR_HOTSPOT_CNT, Off.RTR_HOTSPOT_INFO]

theorem reg_saturated_cnt : (saturated s u o).reg (rtrReg u Off.RTR_HOTSPOT_CNT) =
    (s.reg (rtrReg u Off.RTR_HOTSPOT_CNT)).satInc := by
  rw [within_saturated_crossing.regs _ (hotReg_not_mem_crossingRegs (by simp [hotRegs])), reg_windowCounted_cnt]

theorem reg_saturated_info : (saturated s u o).reg (rtrReg u Off.RTR_HOTSPOT_INFO) = hotInfo s u o := by
  rw [within_saturated_crossing.regs _ (hotReg_not_mem_crossingRegs (by simp [hotRegs])), reg_windowCounted_info, hotInfo]

theorem exec_saturatedWindow {u : Fin 64} {o : Fin 23} (ready : readyHeads s u o ≠ []) :
    exec (.saturatedWindow u o) s = .next (saturated s u o) := by
  simp [exec, execSaturatedWindow, ready, when_]

/-- Whether or not the window counts, what holds of both states holds after the command. -/
theorem completes_saturatedWindow {u : Fin 64} {o : Fin 23} {P : State → Prop} (same : P s) (counted : P (saturated s u o)) :
    Completes (.saturatedWindow u o) s P := by
  refine ⟨_, rfl, ?_⟩
  split
  · exact counted
  · exact same

/-- A second window less than a second later adds nothing to what the first has logged, or is the first to log. -/
theorem length_evq_second_window {p : Nat} (hu : u < 64) (hd : d < 2400000000) (passes : eventPasses s (.rtr u)) :
    (saturated { saturated s u o with fc := s.fc + d } u p).evq.length ≤ s.evq.length + 1 := by
  by_cases due : hotDue s u
  · have early : ¬ hotDue { saturated s u o with fc := s.fc + d } u := by
      rw [hotDue_fc]
      intro late
      have := late s.fc (hotFc_saturated_of_due due)
      omega
    rw [evq_saturated_of_not_due early, evq_fc]
    exact length_evq_saturated_le hu passes
  · have again := length_evq_saturated_le (o := p) hu
      (eventPasses_fc (k := s.fc + d) (eventPasses_windowCounted (o := o) hu passes))
    rw [evq_fc, evq_windowCounted] at again
    rwa [saturated_of_not_due due]

end

/-- Settles O60: the window counts before it may be logged, and the time of the last event says whether it is. -/
theorem hotspotLogged : Obligations.HotspotLogged := by
  unfold Obligations.HotspotLogged
  refine ⟨fun u o s ready => ?counted, fun u o s ready late passes => ?logged, fun u o x s ready last early => ?silent,
    fun u o p d s hd passes _ ready _ => ?atMostOne⟩
  case counted =>
    have counts := within_windowCounted (ps := [.regs, .routers, .log]) (rs := [u.val]) (as := []) (s := s) (u := u) (o := o)
      (by simp)
    have within := (counts.mono (ls' := hotRegs u ++ crossingRegs u) (List.Subset.refl _) (List.Subset.refl _)
      (List.Subset.refl _) (by simp)).trans (within_saturated_crossing.mono (by simp) (List.Subset.refl _)
      (List.Subset.refl _) (by simp))
    refine ⟨_, exec_saturatedWindow ready, reg_saturated_cnt, ?port, ?classes, ?small, ?regs, within.pieces, within.routers,
      rt_saturated⟩
    case port => rw [getFld, reg_saturated_info, fld_hotInfo (Nat.lt_trans o.isLt (by decide))]
    case classes =>
      intro k hk
      rw [regBit, reg_saturated_info, bit_hotInfo hk, classWaits]
    case small => rw [reg_saturated_info]; exact toNat_hotInfo_lt
    case regs => exact fun a ha => within.regs a (by simpa [hotRegs, crossingRegs, and_comm] using ha)
  case logged =>
    have due : hotDue s u := hotDue_iff.2 late
    refine ⟨_, exec_saturatedWindow ready, ?_, hotFc_saturated_of_due due⟩
    rw [logs, evq_saturated_of_due u.isLt passes due, reg_saturated_info, hotEvent]
  case silent =>
    have recent : ¬ hotDue s u := fun due => Nat.not_lt.2 (hotDue_iff.1 due x last) early
    refine ⟨_, exec_saturatedWindow ready, ?_⟩
    rw [saturated_of_not_due recent]
    exact ⟨rfl, rfl, last⟩
  case atMostOne =>
    refine ⟨_, exec_saturatedWindow ready, completes_saturatedWindow ?_ ?_⟩
    · exact length_evq_saturated_le u.isLt passes
    · exact length_evq_second_window u.isLt hd passes

end Sys2Proof.Machine

/-! Proofs of the family of 06_memory_semantics: every step keeps the invariant (O57) and the state after reset has it (O58);
for the other statements a state that each leaves out. -/

namespace Sys2Proof.Machine

section
-- One declaration after another: a proof that evaluates the model waits for all before it, and holds a thread while it waits.
set_option Elab.async false

/-! ### The invariant (O57, O58) -/

/-- Every command completes and keeps what `Up` says of a state. -/
theorem exec_up {o s : State} (c : Instr) (h : Up o s) : UpR o (exec c s) :=
  match c with
  | .rd .. => execRd_up h
  | .ldres .. => execLdres_up h
  | .wr .. => execWr_up h
  | .stcond .. => execStcond_up h
  | .storeBufferDrain .. => execStoreBufferDrain_up h
  | .fop .. => execFop_up h
  | .lkacq .. => execLkacq_up h
  | .lkrnw .. => execLkrnw_up h
  | .lkrel .. => execLkrel_up h
  | .barAgent .. => execBarAgent_up h
  | .barTile .. => execBarTile_up h
  | .barSys .. => execBarSys_up h
  | .barrierComplete .. => execBarrierComplete_up h
  | .barTimeout .. => execBarTimeout_up h
  | .msg .. => execMsg_up h
  | .rdresp .. => execRdresp_up h
  | .wrack .. => execWrack_up h
  | .fopresp .. => execFopresp_up h
  | .lkresp .. => execLkresp_up h
  | .cell .. => execCell_up h
  | .cellmc .. => execCellmc_up h
  | .orphanFlit .. => execOrphanFlit_up h
  | .sequenceFail .. => execSequenceFail_up h
  | .niInject .. => execNiInject_up h
  | .pktTo .. => execPktTo_up h
  | .unitReset .. => execUnitReset_up h
  | .unitResetRelease .. => execUnitResetRelease_up h
  | .drain .. => execDrain_up h
  | .drainEnd .. => execDrainEnd_up h
  | .drainTimeout .. => execDrainTimeout_up h
  | .niEnable .. => execNiEnable_up h
  | .inboundRequest .. => execInboundRequest_up h
  | .responseReceived .. => execResponseReceived_up h
  | .kill .. => execKill_up h
  | .routerKill .. => execRouterKill_up h
  | .fstage .. => execFstage_up h
  | .fstgdSend .. => execFstgdSend_up h
  | .timStrobe .. => execTimStrobe_up h
  | .rsvreq .. => execRsvreq_up h
  | .rsvreqStanding .. => execRsvreqStanding_up h
  | .rsvgnt .. => execRsvgnt_up h
  | .rsvref .. => execRsvref_up h
  | .rsvrel .. => execRsvrel_up h
  | .rsvrelWithdraw .. => execRsvrelWithdraw_up h
  | .rsvrelStanding .. => execRsvrelStanding_up h
  | .niRsvPush .. => execNiRsvPush_up h
  | .rsvIdle .. => execRsvIdle_up h
  | .mcLinger .. => execMcLinger_up h
  | .mcRefill .. => execMcRefill_up h
  | .admissionTimeout .. => execAdmissionTimeout_up h
  | .rsvAnswerLost .. => execRsvAnswerLost_up h
  | .reorderSkip .. => execReorderSkip_up h
  | .handleReclaim .. => execHandleReclaim_up h
  | .cellDeliver .. => execCellDeliver_up h
  | .reorderPresent .. => execReorderPresent_up h
  | .cellmcCopy .. => execCellmcCopy_up h
  | .groupCacheFill .. => execGroupCacheFill_up h
  | .niPhold .. => execNiPhold_up h
  | .phold .. => execPhold_up h
  | .niMcInv .. => execNiMcInv_up h
  | .spraySeedWrite .. => execSpraySeedWrite_up h
  | .tokenRefill .. => execTokenRefill_up h
  | .puntToken .. => execPuntToken_up h
  | .headRoute .. => execHeadRoute_up h
  | .replicate .. => execReplicate_up h
  | .startNext .. => execStartNext_up h
  | .pip .. => execPip_up h
  | .linkFlit .. => execLinkFlit_up h
  | .nak .. => execNak_up h
  | .nakRetry .. => execNakRetry_up h
  | .returnParityFail .. => execReturnParityFail_up h
  | .resyncReq .. => execResyncReq_up h
  | .resyncMark .. => execResyncMark_up h
  | .resyncGrant .. => execResyncGrant_up h
  | .narrow .. => execNarrow_up h
  | .widen .. => execWiden_up h
  | .linkLost .. => execLinkLost_up h
  | .sliceFault .. => execSliceFault_up h
  | .saturatedWindow .. => execSaturatedWindow_up h
  | .routeChange => execRouteChange_up h
  | .emptyScan => execEmptyScan_up h
  | .tmemRd .. => execTmemRd_up h
  | .tmemLdres .. => execTmemLdres_up h
  | .tmemWr .. => execTmemWr_up h
  | .tmemStcond .. => execTmemStcond_up h
  | .add36 .. => execAdd36_up h
  | .add72 .. => execAdd72_up h
  | .swap36 .. => execSwap36_up h
  | .cas36 .. => execCas36_up h
  | .max36 .. => execMax36_up h
  | .min36 .. => execMin36_up h
  | .and36 .. => execAnd36_up h
  | .or36 .. => execOr36_up h
  | .tmemLkacq .. => execTmemLkacq_up h
  | .tmemLkrnw .. => execTmemLkrnw_up h
  | .tmemLkrel .. => execTmemLkrel_up h
  | .epochUpdate .. => execEpochUpdate_up h
  | .scrub .. => execScrub_up h
  | .rowMigration .. => execRowMigration_up h
  | .migrationDone .. => execMigrationDone_up h
  | .bankMigration .. => execBankMigration_up h
  | .hrpRequest .. => execHrpRequest_up h
  | .dbgRequest .. => execDbgRequest_up h
  | .bridgeWrite .. => execBridgeWrite_up h
  | .registerWrite .. => execRegisterWrite_up h
  | .rcRead .. => execRcRead_up h
  | .mtxRemap .. => execMtxRemap_up h
  | .mtxRstTile .. => execMtxRstTile_up h
  | .mtxRstNi .. => execMtxRstNi_up h
  | .opcRstHold .. => execOpcRstHold_up h
  | .opcRstPulse .. => execOpcRstPulse_up h
  | .tileRst .. => execTileRst_up h
  | .niRst .. => execNiRst_up h
  | .opcRst .. => execOpcRst_up h
  | .fabRst => execFabRst_up h
  | .grdUpdateHold .. => execGrdUpdateHold_up h
  | .grdEnable .. => execGrdEnable_up h
  | .grdDisable .. => execGrdDisable_up h
  | .grdRegionWrite .. => execGrdRegionWrite_up h
  | .grdUpdTo .. => execGrdUpdTo_up h
  | .tcEdge => execTcEdge_up h
  | .beat => execBeat_up h
  | .treeCalibrate .. => execTreeCalibrate_up h
  | .tkSwitchWrite => execTkSwitchWrite_up h
  | .beatMissing => execBeatMissing_up h
  | .switchoverDone => execSwitchoverDone_up h
  | .tkLostBoth .. => execTkLostBoth_up h
  | .tkSnap => execTkSnap_up h
  | .tkFadj .. => execTkFadj_up h
  | .tkPstep .. => execTkPstep_up h
  | .stepEdge => execStepEdge_up h
  | .ppsEdge .. => execPpsEdge_up h
  | .alarm => execAlarm_up h
  | .holdoverTick => execHoldoverTick_up h
  | .fnfCmdGo .. => execFnfCmdGo_up h
  | .fnfCmdStageOnly .. => execFnfCmdStageOnly_up h
  | .fnfCmdStop .. => execFnfCmdStop_up h
  | .fnfCmdAbort .. => execFnfCmdAbort_up h
  | .fstgd .. => execFstgd_up h
  | .farm .. => execFarm_up h
  | .arm .. => execArm_up h
  | .stgTo .. => execStgTo_up h
  | .lost .. => execLost_up h
  | .launch .. => execLaunch_up h
  | .launchEdge .. => execLaunchEdge_up h
  | .abort .. => execAbort_up h
  | .fabrt .. => execFabrt_up h
  | .deferredReset => execDeferredReset_up h
  | .busy .. => execBusy_up h
  | .freeingEnd .. => execFreeingEnd_up h
  | .abortedEnd .. => execAbortedEnd_up h
  | .fnfStatRead .. => execFnfStatRead_up h
  | .pwrWarnAssert => execPwrWarnAssert_up h
  | .brace => execBrace_up h
  | .braceEnd => execBraceEnd_up h
  | .release => execRelease_up h
  | .xarm => execXarm_up h
  | .xstaged => execXstaged_up h
  | .xconfirm => execXconfirm_up h
  | .xabort => execXabort_up h
  | .xconfirmDeadline .. => execXconfirmDeadline_up h
  | .noconfirm .. => execNoconfirm_up h
  | .xreportSend .. => execXreportSend_up h
  | .xreport => execXreport_up h
  | .commitReport .. => execCommitReport_up h
  | .extMsgOut => execExtMsgOut_up h
  | .extFrameIn .. => execExtFrameIn_up h
  | .mbxDb .. => execMbxDb_up h
  | .mbxSession => execMbxSession_up h
  | .sessionResetRun => execSessionResetRun_up h
  | .commandStart => execCommandStart_up h
  | .commandComplete => execCommandComplete_up h
  | .badop => execBadop_up h
  | .shadowScan => execShadowScan_up h
  | .budgetCheck => execBudgetCheck_up h
  | .ticketGo => execTicketGo_up h
  | .ticketAbort .. => execTicketAbort_up h
  | .heartbeat .. => execHeartbeat_up h
  | .opcTrap .. => execOpcTrap_up h
  | .takeover => execTakeover_up h
  | .bootRomStart => execBootRomStart_up h
  | .imageCheckDone => execImageCheckDone_up h
  | .handover => execHandover_up h
  | .opcClkSel .. => execOpcClkSel_up h
  | .c1Run => execC1Run_up h
  | .sessionReset => execSessionReset_up h
  | .sessionInfo => execSessionInfo_up h
  | .cfgStatus => execCfgStatus_up h
  | .fenceSlice => execFenceSlice_up h
  | .fenceLink => execFenceLink_up h
  | .tileService => execTileService_up h
  | .unitEnable => execUnitEnable_up h
  | .topoRead => execTopoRead_up h
  | .profileSet => execProfileSet_up h
  | .mcGroupSet => execMcGroupSet_up h
  | .mcGroupClear => execMcGroupClear_up h
  | .mcGroupRead => execMcGroupRead_up h
  | .missSet => execMissSet_up h
  | .puntSet => execPuntSet_up h
  | .clsTbSet => execClsTbSet_up h
  | .clsDestSet => execClsDestSet_up h
  | .clsWrrSet => execClsWrrSet_up h
  | .admSet => execAdmSet_up h
  | .mcCfgSet => execMcCfgSet_up h
  | .lateSet => execLateSet_up h
  | .clsRead => execClsRead_up h
  | .grdSet => execGrdSet_up h
  | .grdOff => execGrdOff_up h
  | .grdRead => execGrdRead_up h
  | .tkSwitch => execTkSwitch_up h
  | .alarmSet => execAlarmSet_up h
  | .alarmRead => execAlarmRead_up h
  | .fnfRun => execFnfRun_up h
  | .fnfStage => execFnfStage_up h
  | .fnfXrun => execFnfXrun_up h
  | .fnfStop => execFnfStop_up h
  | .fnfAbort => execFnfAbort_up h
  | .fnfStatus => execFnfStatus_up h
  | .pwrTileSet => execPwrTileSet_up h
  | .tileClaim => execTileClaim_up h
  | .pwrRetain => execPwrRetain_up h
  | .pwrRead => execPwrRead_up h
  | .bistCfg => execBistCfg_up h
  | .bistTurn => execBistTurn_up h
  | .bistResult => execBistResult_up h
  | .fwLoad => execFwLoad_up h
  | .fwCommit => execFwCommit_up h
  | .fwInfo => execFwInfo_up h
  | .logRead => execLogRead_up h
  | .cntRead => execCntRead_up h
  | .targetRun .. => execTargetRun_up h
  | .targetLowGear .. => execTargetLowGear_up h
  | .targetSlim .. => execTargetSlim_up h
  | .targetDoze .. => execTargetDoze_up h
  | .targetOff .. => execTargetOff_up h
  | .pwrClaim .. => execPwrClaim_up h
  | .pwrRelease .. => execPwrRelease_up h
  | .profileWrite .. => execProfileWrite_up h
  | .loadInterval .. => execLoadInterval_up h
  | .gearDown .. => execGearDown_up h
  | .vtransEnd .. => execVtransEnd_up h
  | .dozeEntry .. => execDozeEntry_up h
  | .wakeFlag .. => execWakeFlag_up h
  | .piccoloSample .. => execPiccoloSample_up h
  | .wakeComplete .. => execWakeComplete_up h
  | .retentionEntry => execRetentionEntry_up h
  | .wake => execWake_up h
  | .retentionWake .. => execRetentionWake_up h
  | .backup => execBackup_up h
  | .post .. => execPost_up h
  | .postDone => execPostDone_up h
  | .turnTick => execTurnTick_up h
  | .turnGo .. => execTurnGo_up h
  | .narrowTimeout .. => execNarrowTimeout_up h
  | .partDone .. => execPartDone_up h
  | .turnAbandon .. => execTurnAbandon_up h
  | .widenRouter .. => execWidenRouter_up h
  | .testStale .. => execTestStale_up h
  | .readmitTest .. => execReadmitTest_up h
  | .train .. => execTrain_up h
  | .trainDone .. => execTrainDone_up h
  | .laneRepair .. => execLaneRepair_up h
  | .scanRequest => execScanRequest_up h
  | .zeroizeDone => execZeroizeDone_up h
  | .debugHalt .. => execDebugHalt_up h
  | .debugResume .. => execDebugResume_up h
  | .eventRecord => execEventRecord_up h
  | .evlPost .. => execEvlPost_up h
  | .mirrorGap .. => execMirrorGap_up h
  | .unitInterrupt .. => execUnitInterrupt_up h
  | .fuseBlow .. => execFuseBlow_up h
  | .fabRstAssert => execFabRstAssert_up h
  | .hrpRst => execHrpRst_up h
  | .dbgRst => execDbgRst_up h
  | .ocOk .. => execOcOk_up h
  | .tkStbyOk .. => execTkStbyOk_up h
  | .opcStbyOk => execOpcStbyOk_up h
  | .lnkWinEnd => execLnkWinEnd_up h
  | .vddAonUp => execVddAonUp_up h

theorem step_of_cons {c : Instr} {rest : List Instr} {s : State} (h : s.pending = c :: rest) :
    step s = exec c { s with pending := rest } := by
  simp [step, h]

theorem step_of_nil {s : State} (h : s.pending = []) : step s = .next s := by
  simp [step, h]

/-- Settles O57: the block idles, or the command that it takes keeps the invariant, the blown fuses and the rest of the
queue. -/
theorem invariantKept : Obligations.InvariantKept := by
  unfold Obligations.InvariantKept
  intro s inv
  cases hp : s.pending with
  | nil => exact ⟨s, step_of_nil hp, inv, fun _ blown => blown, hp⟩
  | cons c rest =>
    obtain ⟨t, runs, queue, fuses, kept⟩ := exec_up c (Up.refl (s := { s with pending := rest }))
    exact ⟨t, (step_of_cons hp).trans runs, kept inv, fuses, queue⟩

/-- Settles O58: after reset no register or word is listed, and every queue is empty. -/
theorem resetHasInvariant : Obligations.ResetHasInvariant := by
  unfold Obligations.ResetHasInvariant
  have registers : Regs.wf State.reset.regs = true := rfl
  exact ⟨registers, Memory.wf_reset, Nat.zero_le _, Nat.zero_le _, Nat.zero_le _⟩

/-! ### Barriers: a map of NIs that is out of order (R148), and a dark tile (R302) -/

/-- NI(0, 0) is enabled and has one request outstanding; the map of NIs lists it behind NI(0, 1), out of the order of their
numbers. -/
def nisOutOfOrder : State :=
  { poweredUp.setReg (niReg 0 Off.NI_CTRL) 1 with
    nis := [(1, {}), (0, { outst := [{ id := 4, tag := 3, opc := Opc.RD, sc := 0, addr := 0x100000000, words := 1 }] })] }
def barSysHead : Head := { opc := 0x0F, tag := 5, flg := 2 }

/-- Refutes O3: an update of an NI that the map lists out of order enters it a second time, so that BAR.SYS finds its request
twice and marks it twice; the statement is about every state, also one whose maps are not in canonical form. -/
theorem not_barrierStarts : ¬ Obligations.BarrierStarts := by
  unfold Obligations.BarrierStarts
  rintro ⟨-, ofSystem⟩
  obtain ⟨-, marked, -⟩ :=
    (ofSystem ⟨0, 0⟩ barSysHead nisOutOfOrder (by decide +kernel) (by decide +kernel) (by decide +kernel)).of_next
      (t := acceptOreq nisOutOfOrder 0 barSysHead) rfl
  have twice : ((acceptOreq nisOutOfOrder 0 barSysHead).ni 0).bar.map Bar.marks = some [4, 4] := by decide +kernel
  have once := twice.symm.trans (congrArg (fun x => x.bar.map Bar.marks) marked)
  exact absurd once (by decide +kernel)

/-- Refutes O4: BARACK waits until a dark tile wakes (R302), and the clause on the end of a barrier says that it is presented at
once. -/
theorem not_barrierEnds : ¬ Obligations.BarrierEnds := by
  unfold Obligations.BarrierEnds
  rintro ⟨ends, -⟩
  obtain ⟨presented, -⟩ :=
    (ends ⟨0, 0⟩ { scope := 0, tag := 3, marks := [] } barrierInDoze (by decide +kernel) (by decide +kernel)
      (by decide +kernel) (by decide +kernel)).of_next (t := readHeaders (coreSettle (barrierOp barrierInDoze 0))) rfl
  have waits : ((readHeaders (coreSettle (barrierOp barrierInDoze 0))).ni 0).out.length = 0 := by decide +kernel
  have one := waits.symm.trans (congrArg (fun x => x.out.length) presented)
  exact absurd one (by decide +kernel)

/-! ### Requests of an Opcon core at a controller (R136, R142) -/

theorem tmemRd_of_head {u : Fin 64} {e : MemErr} {r : TReq} {q : List TReq} {s : State} (hq : (s.tmc u).q = r :: q)
    (hk : isPlainRead r = true) : exec (.tmemRd u e) s = .next (serveRead s u r e) := by
  simp [exec, execTmemRd, hq, hk, when_]

theorem tmemWr_of_head {u : Fin 64} {r : TReq} {q : List TReq} {s : State} (hq : (s.tmc u).q = r :: q)
    (hw : r.pkt.opc = Opc.WR) (hs : r.pkt.isStcond = false) : exec (.tmemWr u) s = .next (serveWrite s u r) := by
  simp [exec, execTmemWr, hq, hw, hs, when_]

/-- A read of core 0 that touches no word. -/
def coreReadOfNone : TReq := { pkt := { opc := Opc.RD, cnt := 0 }, via := .mem (.core 0) }
def coreReadWaits : State := poweredUp.setTmc 0 { q := [coreReadOfNone] }

/-- Refutes O25: a read of no words is answered to an Opcon core without data, as an acknowledgement that the core keeps; the
clause on good words does not name the cores among what changes. -/
theorem not_tileMemoryReads : ¬ Obligations.TileMemoryReads := by
  unfold Obligations.TileMemoryReads
  rintro ⟨good, -⟩
  have waits : (coreReadWaits.tmc 0).q = [coreReadOfNone] := by decide +kernel
  obtain ⟨-, -, -, -, -, -, only⟩ :=
    (good 0 coreReadOfNone [] coreReadWaits waits (by decide +kernel) (by decide +kernel) (by decide +kernel)
      (by decide +kernel)).of_next (tmemRd_of_head waits (by decide +kernel))
  have cores : pieceKept coreReadWaits (serveRead coreReadWaits 0 coreReadOfNone .clean) .cores := only .cores (by simp)
  exact absurd (cores 0) (by decide +kernel)

def coreWrite7 : TReq := { pkt := { opc := Opc.WR, cnt := 1, arg := 0x100000000, words := [7] }, via := .mem (.core 0) }
def launchedWord : TReq := { pkt := { opc := Opc.WR, cnt := 1, arg := 0x100000001, words := [9] }, via := .entry }
/-- A write of core 0 is at the head of the queue of tile 0, and the word of a launch stands behind it. -/
def coreWriteBeforeLaunch : State := poweredUp.setTmc 0 { q := [coreWrite7, launchedWord] }

/-- Refutes O26: a core keeps the acknowledgement of its write (R142), also where the word of a launch stands behind it; the
clause on such a word does not name the cores among what changes. -/
theorem not_tileMemoryWrites : ¬ Obligations.TileMemoryWrites := by
  unfold Obligations.TileMemoryWrites
  rintro ⟨-, -, -, -, beforeLaunch⟩
  have waits : (coreWriteBeforeLaunch.tmc 0).q = [coreWrite7, launchedWord] := by decide +kernel
  obtain ⟨-, -, -, -, -, -, -, only⟩ :=
    (beforeLaunch 0 coreWrite7 launchedWord [] coreWriteBeforeLaunch waits (by decide +kernel) (by decide +kernel)
      (by decide +kernel) (by decide +kernel)).of_next (tmemWr_of_head waits (by decide +kernel) (by decide +kernel))
  have cores : pieceKept coreWriteBeforeLaunch (serveWrite coreWriteBeforeLaunch 0 coreWrite7) .cores := only .cores (by simp)
  exact absurd (cores 0) (by decide +kernel)

/-! ### Locks (R152, R158, R337) -/

theorem tmemLkacq_of_head {u : Fin 64} {e : MemErr} {r : TReq} {q : List TReq} {s : State} (hq : (s.tmc u).q = r :: q)
    (hk : lockIs Opc.LKACQ r = true) : exec (.tmemLkacq u e) s = .next (lockStep s u r e (acquire u r.pkt)) := by
  simp [exec, execTmemLkacq, hq, hk, when_]

/-- LKACQ of node 9, of the lock whose words stand on both sides of the end of a line. -/
def acquireOverLines : TReq := { pkt := { opc := Opc.LKACQ, src := 9, arg := 0x10000000F, words := [5] } }
/-- Node 9 holds that lock, and its lease is as long as the one that it asks for; node 8 has a reservation on the line of the
lease word. -/
def lockOverLines : State :=
  ((poweredUp.setWord 0x10000000F (lkWord 9 0 true false)).setWord 0x100000010 (leaseWord (usecTile poweredUp 0) 5)).setTmc 0
    { q := [acquireOverLines], resv := [(8, 0x100000010)] }

/-- Refutes O29: an LKACQ that leaves both words as they are ends the reservations on the line of the lock word only, and the
clause on the owner's live lock ends those on the line of the lease word too; it does not say that a lock stands in one line. -/
theorem not_locksAcquired : ¬ Obligations.LocksAcquired := by
  unfold Obligations.LocksAcquired
  rintro ⟨-, renewed, -⟩
  have waits : (lockOverLines.tmc 0).q = [acquireOverLines] := by decide +kernel
  obtain ⟨-, -, -, -, -, ended, -⟩ :=
    (renewed 0 acquireOverLines [] lockOverLines waits (by decide +kernel) (by decide +kernel) (by decide +kernel)
      (by decide +kernel) (by decide +kernel)).of_next (tmemLkacq_of_head waits (by decide +kernel))
  have stays : ((lockStep lockOverLines 0 acquireOverLines .clean (acquire 0 acquireOverLines.pkt)).tmc 0).resv =
      [(8, 0x100000010)] := by decide +kernel
  exact absurd (stays.symm.trans ended) (by decide +kernel)

def acquireOfPoison : TReq := { pkt := { opc := Opc.LKACQ, arg := 0x100000000, words := [5] } }
/-- The lock word and the lease word of a lock are uncorrectable. -/
def poisonedLock : State :=
  { poweredUp with poison := [0x100000000, 0x100000001] }.setTmc 0 { q := [acquireOfPoison] }

/-- Refutes O30: LKACQ reads both words of the lock, so that a lock of two uncorrectable words counts twice (R337); the clause
on an uncorrectable lock word counts once, whatever the lease word is. -/
theorem not_locksRenewedAndReleased : ¬ Obligations.LocksRenewedAndReleased := by
  unfold Obligations.LocksRenewedAndReleased
  rintro ⟨-, -, -, -, poisoned, -⟩
  have waits : (poisonedLock.tmc 0).q = [acquireOfPoison] := by decide +kernel
  obtain ⟨-, -, -, -, -, -, -, -, -, -, -, once, -⟩ :=
    (poisoned 0 acquireOfPoison [] poisonedLock waits (by decide +kernel) (by decide +kernel) (by decide +kernel)).of_next
      (tmemLkacq_of_head waits (by decide +kernel))
  have twice : (lockStep poisonedLock 0 acquireOfPoison .clean (acquire 0 acquireOfPoison.pkt)).reg
      (tmemReg 0 Off.TMEM_UE_CNT) = 2 := by decide +kernel
  exact absurd (twice.symm.trans once) (by decide +kernel)

/-! ### A round with a write of the debug access port (R139, R316) -/

/-- Sixteen requests of the debug access port have not been answered: its FIFO is full. -/
def debugPortFull : State := { poweredUp with dbgQ := List.replicate 16 { id := 0, wr := false, len := 0 } }

/-- Refutes O33: the debug access port takes no seventeenth request (R316), so that its write of a round is not applied; the
clause on a round of one write asks for room at the host register port only. -/
theorem not_bridgeAndRounds : ¬ Obligations.BridgeAndRounds := by
  unfold Obligations.BridgeAndRounds
  rintro ⟨-, -, -, -, -, oneWrite, -⟩
  obtain ⟨applied, -⟩ :=
    (oneWrite 7 62 (BitVec.ofNat 36 (evlReg Off.EVL_MSI_ADDR)) .evl Off.EVL_MSI_ADDR
      { off := 0x20, acc := .rw, flds := [fl 0 36] } debugPortFull (by decide +kernel) (by decide +kernel) (by decide +kernel)
      (by decide +kernel) (by decide +kernel) (by decide +kernel)).of_next
      (t := coreSettle (writeRound debugPortFull (evlReg Off.EVL_MSI_ADDR) [(62, 7)])) rfl
  have unwritten : (coreSettle (writeRound debugPortFull (evlReg Off.EVL_MSI_ADDR) [(62, 7)])).reg
      (evlReg Off.EVL_MSI_ADDR) = 0 := by decide +kernel
  exact absurd (unwritten.symm.trans applied) (by decide +kernel)

/-! ### OC_OK after a wake (R218) -/

/-- Clock 0 is selected and not yet good, and after a wake firmware waits for it to release core 1. -/
def clockAwaited : State := { poweredUp.setReg (opcReg (Off.OPC_CLK 0)) 1 with c1Wait := true }

theorem ocOk_of_selected {c : Fin 2} {s : State} (h : regBit s (opcReg (Off.OPC_CLK c)) 0 = true) :
    exec (.ocOk c) s = .next (releaseC1
      (setBit (setBit s (opcReg (Off.OPC_CLK c)) 2 true) (opcReg (Off.OPC_CLK c)) 1 true) c) :=
  congrArg ok (if_pos h)

/-- Refutes O34: as OC_OK of core 0 rises after a wake, firmware releases core 1 through OPC_CTRL (R218), which the clause on
OC_OK says stays as it was. -/
theorem not_hostWritesThatAct : ¬ Obligations.HostWritesThatAct := by
  unfold Obligations.HostWritesThatAct
  rintro ⟨-, -, -, -, -, -, -, -, clockGood, -⟩
  obtain ⟨-, -, -, others, -⟩ :=
    (clockGood 0 clockAwaited).of_next (ocOk_of_selected (s := clockAwaited) (by decide +kernel))
  exact absurd (others (opcReg Off.OPC_CTRL) (by decide +kernel)) (by decide +kernel)

end

end Sys2Proof.Machine

/-! Proofs of the family of 07_access_guards: writes of guard registers as the statement has them (O36). -/

namespace Sys2Proof.Machine

section
variable {s t : State} {ps : List Piece} {rs as ls : List Nat} {a g n o o' bit i j : Nat} {c : EvCode} {data : List W}
  {was : Bool}

/-! ### The registers of a guard (R178) -/

theorem guardNum_lt {g : GuardId} : guardNum g < 450 := by
  cases g with
  | ni n =>
    obtain ⟨u, p⟩ := n
    simp only [guardNum, NiId.idx]
    omega
  | core c =>
    simp only [guardNum]
    omega

@[simp] theorem guardReg_inj : guardReg g o = guardReg g o' ↔ o = o' := by
  unfold guardReg opcReg globalReg
  split
  · simp
  · omega

/-- What a write of a guard register may change of the registers, its regions apart. -/
def guardRegs (g : Nat) : List Nat := [guardReg g Off.GRD_CTRL, guardReg g Off.GRD_STAT, guardReg g Off.GRD_ERR]

/-- The blocks from the mailbox block on hold no guard. -/
theorem not_mem_guardRegs (hg : g < 450) (ha : mbxReg 0 ≤ a) : a ∉ guardRegs g := by
  have below {o : Nat} (ho : o < 3) : a ≠ guardReg g o := by
    unfold guardReg opcReg niReg tileBase globalReg
    unfold mbxReg globalReg at ha
    split <;> omega
  simp [guardRegs, below, Off.GRD_CTRL, Off.GRD_STAT, Off.GRD_ERR]

theorem region_not_mem_guardRegs (ho : 0x10 ≤ o) : guardReg g o ∉ guardRegs g := by
  have apart : o ≠ 0 ∧ o ≠ 1 ∧ o ≠ 2 := by omega
  simpa [guardRegs, Off.GRD_CTRL, Off.GRD_STAT, Off.GRD_ERR] using apart

/-! ### What depends on no guard register -/

theorem Within.reg_beyond_guards (w : Within ps rs as ls s t) (hg : g < 450) (hl : ls ⊆ guardRegs g) (ha : mbxReg 0 ≤ a) :
    t.reg a = s.reg a :=
  w.regs a fun h => not_mem_guardRegs hg ha (hl h)

theorem Within.inst_of_guard (w : Within ps rs as ls s t) (hg : g < 450) (hl : ls ⊆ guardRegs g) :
    Machine.inst t = Machine.inst s :=
  w.inst fun h => not_mem_guardRegs hg (by decide) (hl h)

theorem Within.headersRead (w : Within ps rs as ls s t) (hp : .firmware ∉ ps) (hg : g < 450) (hl : ls ⊆ guardRegs g) :
    headersRead t = headersRead s := by
  have boxes (n : Nat) : mbxState t n = mbxState s n :=
    congrArg (fun v => W.fld v 0 2) (w.reg_beyond_guards hg hl (by simp only [mbxReg, globalReg]; omega))
  obtain ⟨-, -, hdrs, -⟩ := w.pieces .firmware hp
  simp [Machine.headersRead, queuedBoxes, headerOf, boxes, hdrs]

theorem Within.coresIdle (w : Within ps rs as ls s t) (hp : .cores ∉ ps) (idle : coresIdle s) : coresIdle t := by
  have same := w.pieces .cores hp
  rwa [Machine.coresIdle, same, same]

theorem Within.quietNi (w : Within ps rs as ls s t) (hp : .nis ∉ ps) (quiet : quietNi (s.ni n)) : quietNi (t.ni n) := by
  rwa [w.pieces .nis hp n]

theorem Within.overlapPair (w : Within ps rs as ls s t) (hl : ls ⊆ guardRegs g) : overlapPair t g = overlapPair s g := by
  have region {o : Nat} (ho : 0x10 ≤ o) : t.reg (guardReg g o) = s.reg (guardReg g o) :=
    w.regs _ fun h => region_not_mem_guardRegs ho (hl h)
  have start (k : Nat) : grdStart t g k = grdStart s g k := congrArg BitVec.toNat (region (Nat.le_add_right ..))
  have stop (k : Nat) : grdEnd t g k = grdEnd s g k := congrArg BitVec.toNat (region (by simp only [Off.GRD_END]; omega))
  have perm (k : Nat) : grdPerm t g k = grdPerm s g k := region (by simp only [Off.GRD_PERM]; omega)
  have meet : regionsMeet t g = regionsMeet s g := by
    funext i j
    simp [regionsMeet, regionOn, start, stop, perm]
  rw [Machine.overlapPair, meet, Machine.overlapPair]

/-! ### Events of an NI (R321, R348) -/

theorem Within.nodeOf (w : Within ps rs as ls s t) (hg : g < 450) (hl : ls ⊆ guardRegs g) :
    Machine.nodeOf t n = Machine.nodeOf s n := by
  simp only [Machine.nodeOf, nodeTP, w.inst_of_guard hg hl]

/-- An event of an NI passes as before where only guard registers have changed. -/
theorem Within.eventPasses (w : Within ps rs as ls s t) (hp : .log ∉ ps) (hg : g < 450) (hl : ls ⊆ guardRegs g)
    (passes : eventPasses s (.ni n)) : eventPasses t (.ni n) := by
  have held : crossHeld t (.ni n) = crossHeld s (.ni n) := by
    rw [crossHeld, Xing.node, w.nodeOf hg hl, w.evq hp, crossHeld, Xing.node]
  rwa [Machine.eventPasses, held, w.evq hp]

/-- An event of an NI that passes its crossing and finds room. -/
theorem logNi_of_passes (passes : eventPasses s (.ni n)) :
    logNi s n c data = { s with evq := s.evq ++ [mkEv (ftNow s) (nodeOf s n) c data] } := by
  obtain ⟨held, room⟩ := passes
  simp [logNi, logCross, held, logAt, pushEv, room, ftTile, Xing.node]

theorem within_logNi (hp : .log ∈ ps) (passes : eventPasses s (.ni n)) : Within ps rs as ls s (logNi s n c data) := by
  rw [logNi_of_passes passes]
  exact Within.ofLog hp

theorem reg_logNi (passes : eventPasses s (.ni n)) : (logNi s n c data).reg a = s.reg a := by
  rw [logNi_of_passes passes]
  rfl

/-! ### Error bits of a guard (R172) -/

/-- An error bit of guard g is set. -/
def grdErrSet (s : State) (g bit : Nat) : State := setBit s (guardReg g Off.GRD_ERR) bit true

theorem within_grdErrSet (hp : .regs ∈ ps) (hl : guardReg g Off.GRD_ERR ∈ ls) : Within ps rs as ls s (grdErrSet s g bit) :=
  within_setBit hp hl

theorem regBit_grdErrSet (hb : bit < 36) : regBit (grdErrSet s g bit) (guardReg g Off.GRD_ERR) bit = true :=
  regBit_setBit_same hb

theorem reg_grdErrSet (ho : o ≠ Off.GRD_ERR) : (grdErrSet s g bit).reg (guardReg g o) = s.reg (guardReg g o) :=
  State.setReg_ne (by simpa using ho)

theorem onlyErr_grdErrSet : Within [.regs] [] [] [guardReg g Off.GRD_ERR] s (grdErrSet s g bit) :=
  within_grdErrSet (by simp) (by simp)

theorem eventPasses_grdErrSet (hg : g < 450) (passes : eventPasses s (.ni n)) : eventPasses (grdErrSet s g bit) (.ni n) :=
  onlyErr_grdErrSet.eventPasses (by simp) hg (by simp [guardRegs]) passes

/-- A bit that another event names is set, and nothing else. -/
theorem raiseGrd_of_named : raiseGrd s g bit true = grdErrSet s g bit := by
  simp [raiseGrd, raiseBit, grdErrSet]

/-- A bit that no other event names is set, and NI_ERROR may follow. -/
theorem raiseGrd_of_unnamed : raiseGrd s g bit false = grdErrSet s g bit ∨
    ∃ data, raiseGrd s g bit false = logNi (grdErrSet s g bit) (guardNi g) EvC.NI_ERROR data := by
  simp only [raiseGrd, raiseBit, grdErrSet]
  split
  · exact .inl rfl
  · exact .inr ⟨_, rfl⟩

theorem within_raiseGrd (hg : g < 450) (passes : eventPasses s (.ni (guardNi g))) :
    Within [.regs, .log] [] [] [guardReg g Off.GRD_ERR] s (raiseGrd s g bit false) := by
  rcases raiseGrd_of_unnamed with e | ⟨data, e⟩ <;> rw [e]
  · exact within_grdErrSet (by simp) (by simp)
  · exact (within_grdErrSet (by simp) (by simp)).trans (within_logNi (by simp) (eventPasses_grdErrSet hg passes))

theorem regBit_raiseGrd (hb : bit < 36) (hg : g < 450) (passes : eventPasses s (.ni (guardNi g))) :
    regBit (raiseGrd s g bit false) (guardReg g Off.GRD_ERR) bit = true := by
  rcases raiseGrd_of_unnamed with e | ⟨data, e⟩ <;> rw [e]
  · exact regBit_grdErrSet hb
  · rw [regBit, reg_logNi (eventPasses_grdErrSet hg passes)]
    exact regBit_grdErrSet hb

/-! ### What a guard held goes on (R173) -/

theorem within_setNi_self : Within ps rs as ls s (s.setNi n (s.ni n)) := by
  refine ⟨fun p _ => ?_, fun _ _ => State.setNi_rt, fun _ _ => State.setNi_ta, fun _ _ => State.setNi_reg⟩
  cases p with
  | nis =>
    intro m
    by_cases hm : m = n
    · rw [hm, State.setNi_same]
    · exact State.setNi_ne hm
  | mem => exact fun _ => ⟨rfl, rfl⟩
  | _ => simp [pieceKept]

/-- With no read held and nothing in the queue, what was held is nothing. -/
theorem within_grdRelease (quiet : quietNi (s.ni (guardNi g))) : Within ps rs as ls s (grdRelease s g was) := by
  obtain ⟨oq, held⟩ := quiet
  have nothing : atStage1 (s.ni (guardNi g)) = [] := by simp [atStage1, oq, held]
  simp only [grdRelease, nothing, forEach, ite_self]
  rcases settle_of_writes held (by simp [oq]) with e | e <;> rw [e]
  · exact Within.refl
  · exact within_setNi_self

theorem reg_grdRelease (quiet : quietNi (s.ni (guardNi g))) : (grdRelease s g was).reg a = s.reg a :=
  (within_grdRelease (ps := []) (rs := []) (as := []) (ls := []) quiet).regs a (by simp)

/-! ### Writes of GRD_CTRL (R167, R175) -/

/-- UPD = 1 and EN = 0: the guard holds, and nothing goes on. -/
theorem writeGrdCtrl_hold : writeGrdCtrl s g 2 = s.setReg (guardReg g Off.GRD_CTRL) 2 := rfl

theorem guardHeld : Within [.regs] [] [] [guardReg g Off.GRD_CTRL] s (writeGrdCtrl s g 2) ∧
    (writeGrdCtrl s g 2).reg (guardReg g Off.GRD_CTRL) = 2 := by
  rw [writeGrdCtrl_hold]
  exact ⟨Within.setReg (by simp) (by simp), State.setReg_same⟩

theorem writeGrdCtrl_open :
    writeGrdCtrl s g 0 = grdRelease (s.setReg (guardReg g Off.GRD_CTRL) 0) g (grdUpd s g) := rfl

/-- EN = 0 and UPD = 0: the guard is open, and nothing that it held is left to go on. -/
theorem guardOpened (quiet : quietNi (s.ni (guardNi g))) :
    Within [.regs] [] [] [guardReg g Off.GRD_CTRL] s (writeGrdCtrl s g 0) ∧
      (writeGrdCtrl s g 0).reg (guardReg g Off.GRD_CTRL) = 0 := by
  have quiet' : quietNi ((s.setReg (guardReg g Off.GRD_CTRL) 0).ni (guardNi g)) := quiet
  rw [writeGrdCtrl_open, reg_grdRelease quiet']
  exact ⟨(Within.setReg (by simp) (by simp)).trans (within_grdRelease quiet'), State.setReg_same⟩

/-- The write of EN = 1, before the overlap check. -/
def guardSwitchedOn (s : State) (g : Nat) : State := s.setReg (guardReg g Off.GRD_CTRL) 1

theorem within_guardSwitchedOn (hp : .regs ∈ ps) (hl : guardReg g Off.GRD_CTRL ∈ ls) :
    Within ps rs as ls s (guardSwitchedOn s g) := Within.setReg hp hl

theorem reg_guardSwitchedOn : (guardSwitchedOn s g).reg (guardReg g Off.GRD_CTRL) = 1 := State.setReg_same

theorem onlyCtrl_guardSwitchedOn : Within [.regs] [] [] [guardReg g Off.GRD_CTRL] s (guardSwitchedOn s g) :=
  within_guardSwitchedOn (by simp) (by simp)

theorem writeGrdCtrl_enable :
    writeGrdCtrl s g 1 = grdRelease (overlapCheck (guardSwitchedOn s g) g) g (grdUpd s g) := rfl

theorem overlapPair_guardSwitchedOn : overlapPair (guardSwitchedOn s g) g = overlapPair s g :=
  onlyCtrl_guardSwitchedOn.overlapPair (by simp [guardRegs])

theorem eventPasses_guardSwitchedOn (hg : g < 450) (passes : eventPasses s (.ni n)) :
    eventPasses (guardSwitchedOn s g) (.ni n) :=
  onlyCtrl_guardSwitchedOn.eventPasses (by simp) hg (by simp [guardRegs]) passes

/-- GRD_STAT as the overlap check leaves it where regions i and j meet. -/
def overlapStat (i j : Nat) : W := W.at 2 1 1 ||| W.at 4 4 i ||| W.at 8 4 j
/-- The pair is recorded, and OVERLAP is set. -/
def overlapNoted (s : State) (g i j : Nat) : State :=
  grdErrSet (s.setReg (guardReg g Off.GRD_STAT) (overlapStat i j)) g GrdB.OVERLAP

theorem within_overlapNoted (hp : .regs ∈ ps) (hs : guardReg g Off.GRD_STAT ∈ ls) (he : guardReg g Off.GRD_ERR ∈ ls) :
    Within ps rs as ls s (overlapNoted s g i j) :=
  (Within.setReg hp hs).trans (within_grdErrSet hp he)

theorem reg_overlapNoted : (overlapNoted s g i j).reg (guardReg g Off.GRD_STAT) = overlapStat i j :=
  (reg_grdErrSet (by decide)).trans State.setReg_same

theorem overlapCheck_of_apart (h : overlapPair s g = none) : overlapCheck s g = s.setReg (guardReg g Off.GRD_STAT) 0 := by
  simp [overlapCheck, h]

/-- Regions i and j meet: unless it is masked, GUARD_OVERLAP follows. -/
theorem overlapCheck_meet_cases (h : overlapPair s g = some (i, j)) : overlapCheck s g = overlapNoted s g i j ∨
    overlapCheck s g = logNi (overlapNoted s g i j) (guardNi g) EvC.GUARD_OVERLAP [overlapStat i j] := by
  simp only [overlapCheck, h, raiseGrd_of_named]
  split
  · exact .inl rfl
  · exact .inr rfl

/-- The overlap check of regions that meet: the pair and OVERLAP, whether or not the event is masked. -/
theorem overlapCheck_of_meet (h : overlapPair s g = some (i, j)) (hg : g < 450) (passes : eventPasses s (.ni (guardNi g))) :
    Within [.regs, .log] [] [] [guardReg g Off.GRD_STAT, guardReg g Off.GRD_ERR] s (overlapCheck s g) ∧
      (overlapCheck s g).reg (guardReg g Off.GRD_STAT) = overlapStat i j ∧
      regBit (overlapCheck s g) (guardReg g Off.GRD_ERR) GrdB.OVERLAP = true := by
  have noted {ps : List Piece} (hp : .regs ∈ ps) :
      Within ps [] [] [guardReg g Off.GRD_STAT, guardReg g Off.GRD_ERR] s (overlapNoted s g i j) :=
    within_overlapNoted hp (by simp) (by simp)
  have open_ : eventPasses (overlapNoted s g i j) (.ni (guardNi g)) :=
    (noted (ps := [.regs]) (by simp)).eventPasses (by simp) hg (by simp [guardRegs]) passes
  rcases overlapCheck_meet_cases h with e | e <;> rw [e]
  · exact ⟨noted (by simp), reg_overlapNoted, regBit_grdErrSet (by decide)⟩
  · rw [regBit, reg_logNi open_, reg_logNi open_]
    exact ⟨(noted (by simp)).trans (within_logNi (by simp) open_), reg_overlapNoted, regBit_grdErrSet (by decide)⟩

/-- EN = 1 at a guard none of whose regions meet. -/
theorem guardEnabled_of_apart (h : overlapPair s g = none) (quiet : quietNi (s.ni (guardNi g))) :
    Within [.regs] [] [] [guardReg g Off.GRD_CTRL, guardReg g Off.GRD_STAT] s (writeGrdCtrl s g 1) ∧
      (writeGrdCtrl s g 1).reg (guardReg g Off.GRD_CTRL) = 1 ∧ (writeGrdCtrl s g 1).reg (guardReg g Off.GRD_STAT) = 0 := by
  have quiet' : quietNi (((guardSwitchedOn s g).setReg (guardReg g Off.GRD_STAT) 0).ni (guardNi g)) := quiet
  rw [writeGrdCtrl_enable, overlapCheck_of_apart (overlapPair_guardSwitchedOn.trans h), reg_grdRelease quiet',
    reg_grdRelease quiet']
  refine ⟨?_, ?_, State.setReg_same⟩
  · exact ((within_guardSwitchedOn (by simp) (by simp)).trans (Within.setReg (by simp) (by simp))).trans
      (within_grdRelease quiet')
  · exact (State.setReg_ne (by simp [Off.GRD_CTRL, Off.GRD_STAT])).trans reg_guardSwitchedOn

/-- EN = 1 at a guard two of whose regions meet. -/
theorem guardEnabled_of_meet (h : overlapPair s g = some (i, j)) (hg : g < 450) (quiet : quietNi (s.ni (guardNi g)))
    (passes : eventPasses s (.ni (guardNi g))) :
    Within [.regs, .log] [] [] (guardRegs g) s (writeGrdCtrl s g 1) ∧
      (writeGrdCtrl s g 1).reg (guardReg g Off.GRD_CTRL) = 1 ∧
      (writeGrdCtrl s g 1).reg (guardReg g Off.GRD_STAT) = overlapStat i j ∧
      regBit (writeGrdCtrl s g 1) (guardReg g Off.GRD_ERR) GrdB.OVERLAP = true := by
  obtain ⟨checked, stat, err⟩ := overlapCheck_of_meet (overlapPair_guardSwitchedOn.trans h) hg
    (eventPasses_guardSwitchedOn hg passes)
  have quiet' := checked.quietNi (n := guardNi g) (by simp) quiet
  rw [writeGrdCtrl_enable, regBit, reg_grdRelease quiet', reg_grdRelease quiet', reg_grdRelease quiet']
  refine ⟨?_, ?_, stat, err⟩
  · exact ((within_guardSwitchedOn (by simp) (by simp [guardRegs])).trans
      (checked.mono (by simp) (by simp) (by simp) (by simp [guardRegs]))).trans (within_grdRelease quiet')
  · exact (checked.regs _ (by simp [Off.GRD_CTRL, Off.GRD_STAT, Off.GRD_ERR])).trans reg_guardSwitchedOn

/-! ### The commands that write a guard (R173 to R176) -/

theorem readHeaders_of_read (h : headersRead s = true) : readHeaders s = s := by
  have all (l : List Nat) (hl : ∀ n ∈ l, (headerOf s n).isSome = true) :
      forEach (fun n st => if (headerOf st n).isSome then st else keepHeader st n) l s = s := by
    induction l with
    | nil => rfl
    | cons n l ih => simp [forEach, hl n, ih fun m hm => hl m (List.mem_cons_of_mem n hm)]
  simp [readHeaders, all (queuedBoxes s) (List.all_eq_true.1 h)]

/-- A write of GRD_CTRL that leaves the cores and firmware as they were frees no direct access of a core, and no header is
left to read. -/
theorem writeCtrlAt_of_within {v : W} (w : Within ps rs as ls s (writeGrdCtrl s g v)) (hc : .cores ∉ ps)
    (hf : .firmware ∉ ps) (hg : g < 450) (hl : ls ⊆ guardRegs g) (aw : awake s (guardReg g Off.GRD_CTRL) = true)
    (idle : coresIdle s) (read : headersRead s = true) : writeCtrlAt s g v = writeGrdCtrl s g v := by
  rw [writeCtrlAt, reached_of_awake aw, coreSettle_of_idle (w.coresIdle hc idle)]
  exact readHeaders_of_read ((w.headersRead hf hg hl).trans read)

theorem writeRegion_of_closed {k : Nat} {f : RegionWord} {v : W} (h : grdEn s g = false) :
    writeRegion s g k f v = s.setReg (guardReg g (regionOff k f))
      (if f = .perm then W.at 0 4 (v.fld 0 (if g < 448 then 3 else 4)) else v) := by
  cases f <;> simp [writeRegion, h]

theorem writeRegion_of_enabled {k : Nat} {f : RegionWord} {v : W} (h : grdEn s g = true) :
    writeRegion s g k f v = raiseGrd s g GrdB.LIVEWR false := by
  simp [writeRegion, h]

/-- R176: UPD_TO is set and logged as the NI ends the hold. -/
def updToNoted (s : State) (n : Nat) : State := logNi (grdErrSet s n GrdB.UPD_TO) n EvC.GUARD_UPD_TO []

theorem within_updToNoted (hg : n < 450) (passes : eventPasses s (.ni n)) :
    Within [.regs, .log] [] [] (guardRegs n) s (updToNoted s n) :=
  (within_grdErrSet (by simp) (by simp [guardRegs])).trans (within_logNi (by simp) (eventPasses_grdErrSet hg passes))

theorem regBit_updToNoted (hg : n < 450) (passes : eventPasses s (.ni n)) :
    regBit (updToNoted s n) (guardReg n Off.GRD_ERR) GrdB.UPD_TO = true := by
  rw [regBit, updToNoted, reg_logNi (eventPasses_grdErrSet hg passes)]
  exact regBit_grdErrSet (by decide)

theorem evq_updToNoted (hg : n < 450) (passes : eventPasses s (.ni n)) :
    (updToNoted s n).evq = s.evq ++ [mkEv (ftNow s) (nodeOf s n) EvC.GUARD_UPD_TO []] := by
  have node : nodeOf (grdErrSet s n GrdB.UPD_TO) n = nodeOf s n :=
    onlyErr_grdErrSet.nodeOf hg (by simp [guardRegs])
  rw [updToNoted, logNi_of_passes (eventPasses_grdErrSet hg passes), node]
  rfl

theorem grdUpdTo_of_held {m : NiId} (h : grdUpd s m.idx = true) : exec (.grdUpdTo m) s = .next (updTimeout s m.idx) := by
  simp [exec, execGrdUpdTo, when_, h]

theorem updTimeout_of_unmasked (h : regBit s (guardReg n Off.GRD_ERR_MASK) GrdB.UPD_TO = false) :
    updTimeout s n = writeGrdCtrl (updToNoted s n) n 1 := by
  have unmasked : (s.reg (guardReg n Off.GRD_ERR_MASK)).bit GrdB.UPD_TO = false := h
  simp [updTimeout, raiseGrd_of_named, unmasked, updToNoted]

theorem niIdx_lt {n : NiId} : n.idx < 448 := by
  unfold NiId.idx
  omega

/-- Settles O36: each write of GRD_CTRL goes on at an awake register as `writeGrdCtrl` does, and neither a core nor a header
waits for it; a region register is written or LIVEWR is raised; a timeout raises UPD_TO, logs it and enables the guard. -/
theorem guardsWritten : Obligations.GuardsWritten := by
  unfold Obligations.GuardsWritten
  refine ⟨fun g s aw idle read => ?held, fun g s apart held oq aw idle read => ?enabled,
    fun g i j s meet held oq aw idle passes read => ?overlapping, fun g s held oq aw idle read => ?opened,
    fun g k f v s en aw => ?regionWritten, fun g k f v s en aw passes => ?regionKept,
    fun n s upd apart held oq unmasked passes => ?timedOut, fun g k f v a s c hc ht => ?missed⟩
  case held =>
    obtain ⟨w, ctrl⟩ := guardHeld (s := s) (g := guardNum g)
    have runs := writeCtrlAt_of_within w (by simp) (by simp) guardNum_lt (by simp [guardRegs]) aw idle read
    exact ⟨_, congrArg ok runs, ctrl, w.regs, w.pieces⟩
  case enabled =>
    obtain ⟨w, ctrl, stat⟩ := guardEnabled_of_apart apart ⟨oq, held⟩
    have runs := writeCtrlAt_of_within w (by simp) (by simp) guardNum_lt (by simp [guardRegs]) aw idle read
    exact ⟨_, congrArg ok runs, ctrl, stat, w.regs, w.pieces⟩
  case overlapping =>
    obtain ⟨w, ctrl, stat, err⟩ := guardEnabled_of_meet meet guardNum_lt ⟨oq, held⟩ passes
    have runs := writeCtrlAt_of_within w (by simp) (by simp) guardNum_lt (List.Subset.refl _) aw idle read
    exact ⟨_, congrArg ok runs, ctrl, stat, err, w.regs, w.pieces⟩
  case opened =>
    obtain ⟨w, ctrl⟩ := guardOpened ⟨oq, held⟩
    have runs := writeCtrlAt_of_within w (by simp) (by simp) guardNum_lt (by simp [guardRegs]) aw idle read
    exact ⟨_, congrArg ok runs, ctrl, w.regs, w.pieces⟩
  case regionWritten =>
    exact ⟨_, congrArg ok ((reached_of_awake aw).trans (writeRegion_of_closed en)), State.setReg_same,
      regsBut_setReg (by simp), changesOnly_setReg (by simp)⟩
  case regionKept =>
    have w := within_raiseGrd (bit := GrdB.LIVEWR) guardNum_lt passes
    exact ⟨_, congrArg ok ((reached_of_awake aw).trans (writeRegion_of_enabled en)),
      regBit_raiseGrd (by decide) guardNum_lt passes, w.regs, w.pieces⟩
  case timedOut =>
    have hn : n.idx < 450 := Nat.lt_trans niIdx_lt (by decide)
    have own : guardNi n.idx = n.idx := if_pos niIdx_lt
    have noted := within_updToNoted hn passes
    have quiet : quietNi ((updToNoted s n.idx).ni (guardNi n.idx)) :=
      noted.quietNi (by simp) (by rw [own]; exact ⟨oq, held⟩)
    obtain ⟨w, ctrl, stat⟩ := guardEnabled_of_apart ((noted.overlapPair (List.Subset.refl _)).trans apart) quiet
    have whole := noted.trans (w.mono (by simp) (by simp) (by simp) (by simp [guardRegs]))
    refine ⟨_, (grdUpdTo_of_held upd).trans (congrArg ok (updTimeout_of_unmasked unmasked)), ctrl, ?_, stat,
      (w.evq (by simp)).trans (evq_updToNoted hn passes), ?_, whole.pieces⟩
    · rw [regBit, w.regs _ (by simp [Off.GRD_CTRL, Off.GRD_STAT, Off.GRD_ERR])]
      exact regBit_updToNoted hn passes
    · exact (whole.mono (List.Subset.refl _) (List.Subset.refl _) (List.Subset.refl _) (by simp [guardRegs])).regs
  case missed =>
    rcases hc with ⟨rfl, rfl⟩ | ⟨rfl, rfl⟩ | ⟨rfl, rfl⟩ | ⟨rfl, rfl⟩ <;>
      exact ⟨_, congrArg ok (reached_of_miss ht), missNoted_decodeMiss, regsBut_decodeMiss, changesOnly_decodeMiss⟩

end

end Sys2Proof.Machine

/-! Proofs of the family of 08_fabric_time_and_fanfare: the statements that a state of the model contradicts (O39, O41, O42
and O43), then the Time Keepers (O38): switchover, the loss of both, the alarm. -/

namespace Sys2Proof.Machine

/-! ### ABORT of a slot with an entry that has not been sent (R192, R196) -/

/-- Refutes O39: as with O40, an entry that has not been sent holds no place in a slot that has aborted, and the clause on
ABORT of a staging slot says that the slot keeps its entries. -/
theorem not_fanfareCommands : ¬ Obligations.FanfareCommands := by
  unfold Obligations.FanfareCommands
  rintro ⟨-, -, -, -, abort, -⟩
  obtain ⟨-, -, -, slot, -⟩ :=
    (abort 0 oneEntryUnsent (by decide +kernel) (by decide +kernel) (by decide +kernel)).of_next
      (t := poke oneEntryUnsent (hrpNode oneEntryUnsent) (slotReg 0 Off.FNF_CMD) 4) rfl
  exact absurd (congrArg (fun x => x.ents.length) slot) (by decide +kernel)

/-! ### A strobe that is lost, and its record with it (R29, R196, R321) -/

def withdrawal : Pkt := { opc := Opc.FABRT }
def entryOfFid0 : HoldEnt := { fid := 0, addr := 0x100000000, data := [7], last := true }
/-- FABRT of the fanfare with FID 0 has come to NI(0, 0), which holds an entry of it; the strobe queue of its unit and the
crossing of its events are full. -/
def withdrawalUnstrobed : State :=
  { poweredUp.setNi 0
      { eject := [withdrawal], hold := [entryOfFid0], strobes := List.replicate 8 { apply := true, fid := 1 } } with
    evq := List.replicate 15 (mkEv 0 0 EvC.NI_ERROR []) }

theorem fabrt_of_take {n : NiId} {p : Pkt} {s s1 : State} (h : takeOpc s n.idx Opc.FABRT = some (p, s1)) :
    exec (.fabrt n) s = .next (takeFabrt s1 n.idx p.tag) := by
  simp [exec, execFabrt, h, ok]

/-- Refutes O41: the record of a lost strobe passes the crossing of its NI, and where that is full CDC_LOST_EVT counts it
(R321); the clause on FABRT at an NI leaves that register out. -/
theorem not_launchesRunAndEnd : ¬ Obligations.LaunchesRunAndEnd := by
  unfold Obligations.LaunchesRunAndEnd
  rintro ⟨-, -, -, fabrt, -⟩
  obtain ⟨-, -, regs, -⟩ :=
    (fabrt ⟨0, 0⟩ withdrawal [] withdrawalUnstrobed (by decide +kernel) (by decide +kernel)).of_next (fabrt_of_take rfl)
  exact absurd (regs (niReg 0 Off.CDC_LOST_EVT) (by decide +kernel)) (by decide +kernel)

/-! ### A cell of the bridge and a full inject FIFO (R202, R316) -/

def cellOfFrame : Head := { opc := 0x21, cnt := 10, tag := 5, w0 := 9, flg := 3, words := [7] }
/-- A cell of four flits, and so of four beats at a p6, that has been read and not injected. -/
def cellOf4Beats : Staged := { ch := .cpo, pkt := { opc := Opc.CELL, len := 3 } }
/-- A cell of a frame waits at the bridge; four cells before it fill the inject FIFO of CPO_ at NI(56, 6). -/
def bridgeBehindFifo : State :=
  { (poweredUp.setReg (niReg bridgeNi Off.NI_CTRL) 5).setNi bridgeNi { stage := List.replicate 4 cellOf4Beats } with
    xcells := [cellOfFrame] }

/-- Refutes O42: a cell waits at the bridge while the inject FIFO of its NI, of 16 beats, has no room for it (R316), and the
clause on a cell of a frame has the NI take it. -/
theorem not_crossInstanceFanfares : ¬ Obligations.CrossInstanceFanfares := by
  unfold Obligations.CrossInstanceFanfares
  rintro ⟨-, -, -, -, -, -, -, -, -, -, -, -, -, cell, -⟩
  obtain ⟨left, -⟩ :=
    (cell cellOfFrame [] bridgeBehindFifo (by decide +kernel) (by decide +kernel) (by decide +kernel) (by decide +kernel)
      (by decide +kernel) (by decide +kernel) (by decide +kernel) (by decide +kernel) (by decide +kernel)
      (by decide +kernel)).of_next (t := feedBridge (frameOut bridgeBehindFifo)) rfl
  exact absurd (congrArg List.length left) (by decide +kernel)

/-! ### A launch that a later brace keeps, and its release edge (R198, R199) -/

def freedLaunch : Launch := { fid := 1, lt := 0, lt0 := 0, aseq := 0, held := true, nis := [5] }
def keptLaunch : Launch := { fid := 2, lt := 0, lt0 := 0, aseq := 1, held := true, minEdge := 1, nis := [5] }
/-- At edge 0 the first brace is released; the second, from edge 1 on, keeps a launch with entries at the tile of the one
that is freed, and its release edge is edge 3. -/
def releaseBeforeKept : State :=
  { poweredUp with braces := [(0, some 0), (1, some 3)], braceOn := true, launches := [freedLaunch, keptLaunch] }

/-- Refutes O43: a launch that a later brace keeps uses the apply path at the release edge of that brace (R198), where this is
known; the clause on the release edge asks no distance from it, and with 3 tc between the two the freed launch moves. -/
theorem not_brace : ¬ Obligations.Brace := by
  unfold Obligations.Brace
  rintro ⟨-, -, -, release⟩
  obtain ⟨-, -, launches, -⟩ :=
    (release 0 0 [(1, some 3)] releaseBeforeKept (by decide +kernel) (by decide +kernel) (by decide +kernel)
      (by decide +kernel) (by decide +kernel)).of_next (t := releaseNow releaseBeforeKept) rfl
  exact absurd (congrArg (List.map Launch.edge) launches) (by decide +kernel)

end Sys2Proof.Machine

namespace Sys2Proof.Machine

section
variable {s t : State} {ps : List Piece} {rs as ls : List Nat} {a k n u : Nat} {c : EvCode} {data : List W}

/-! ### Events of a global block (R347, R348) -/

theorem logGlobal_of_room (room : s.evq.length < 16) :
    logGlobal s c data = { s with evq := s.evq ++ [mkEv (ftNow s) (nodeTP s 0 7) c data] } := if_pos room

/-- An event for the writer's queue changes what stands there, or the counts of lost ones. -/
theorem pushEv_eq {e : Ev} : pushEv s e = { s with
    evq := (pushEv s e).evq, evLost := (pushEv s e).evLost, evLostFirst := (pushEv s e).evLostFirst,
    evLostLast := (pushEv s e).evLostLast } := by
  unfold pushEv
  split <;> rfl

theorem logGlobal_eq : logGlobal s c data = { s with
    evq := (logGlobal s c data).evq, evLost := (logGlobal s c data).evLost,
    evLostFirst := (logGlobal s c data).evLostFirst, evLostLast := (logGlobal s c data).evLostLast } := pushEv_eq

theorem reg_pushEv {e : Ev} : (pushEv s e).reg a = s.reg a := by
  rw [pushEv_eq]
  rfl

theorem reg_logGlobal : (logGlobal s c data).reg a = s.reg a := reg_pushEv

theorem within_logGlobal (hp : .log ∈ ps) : Within ps rs as ls s (logGlobal s c data) := Within.pushEv hp

/-- Other times of the switchover, of the calibration round and of the Time Keepers' return. -/
theorem within_ofTime {ua kn : Bool} {e : Option Nat} {d cd : Nat} {b : Sparse (Option Nat)} (hp : .time ∈ ps) :
    Within ps rs as ls s { s with tkUnasked := ua, tkNone := kn, swEnd := e, tkDead := d, tkBack := b, calDue := cd } := by
  refine ⟨fun p hn => ?_, fun _ _ => rfl, fun _ _ => rfl, fun _ _ => rfl⟩
  cases p with
  | time => exact absurd hp hn
  | mem => exact fun _ => ⟨rfl, rfl⟩
  | regs | nis | routers | tmcs | agents | slots | cores => exact fun _ => rfl
  | _ => simp [pieceKept]

/-- A global block logs after a change that leaves the log, the time and INST. -/
theorem logs_logGlobal (room : s.evq.length < 16) (queue : t.evq = s.evq) (time : ftNow t = ftNow s)
    (node : inst t = inst s) : logs s (logGlobal t c data) (mkEv (ftNow s) (nodeTP s 0 7) c data) := by
  rw [logs, logGlobal_of_room (queue ▸ room), queue, time, nodeTP, nodeTP, node]

/-! ### TK_CTRL.SWITCH (R185) -/

/-- TK_CTRL is written with SWITCH = 1 and its fields as they stood. -/
def switchWritten (s : State) : State :=
  s.setReg (tkReg Off.TK_CTRL) (W.at 0 3 ((s.reg (tkReg Off.TK_CTRL)).fld 0 3))

theorem fld_or_switch {w : W} : (w ||| 8).fld 0 3 = w.fld 0 3 := by
  refine Nat.eq_of_testBit_eq fun i => ?_
  simp only [W.testBit_fld, BitVec.getLsbD_or]
  by_cases h : i < 3
  · obtain rfl | rfl | rfl : i = 0 ∨ i = 1 ∨ i = 2 := by omega
    all_goals simp
  · simp [h]

theorem target_tkCtrl :
    target s (tkReg Off.TK_CTRL) = some (.tk, Off.TK_CTRL, { off := 0x00, acc := .rw, flds := [fl 0 3] }) := by
  have listed : regAt (tkReg Off.TK_CTRL) = some (.tk, Off.TK_CTRL, { off := 0x00, acc := .rw, flds := [fl 0 3] }) := by decide
  simp [target, listed, served, alwaysOn, blockTile]

theorem legal_switch {w : W} : legalizeAt .tk Off.TK_CTRL { off := 0x00, acc := .rw, flds := [fl 0 3] } (w ||| 8) =
    W.at 0 3 (w.fld 0 3) := by
  have inRange : clampTo 0 (2 ^ 3 - 1) (w.fld 0 3) = w.fld 0 3 := by
    have : w.fld 0 3 < 2 ^ 3 := W.fld_lt
    unfold clampTo
    split <;> [omega; split <;> omega]
  simp only [legalizeAt, legalize, legalFld, fl, List.foldl, fld_or_switch, inRange]
  exact BitVec.zero_or

theorem poke_tkCtrl {node : Nat} {v : W} (hb : braced s = false) (asks : v.bit 3 = true) :
    poke s node (tkReg Off.TK_CTRL) v = askSwitch (s.setReg (tkReg Off.TK_CTRL)
      (legalizeAt .tk Off.TK_CTRL { off := 0x00, acc := .rw, flds := [fl 0 3] } v)) := by
  simp [poke, writeWord, target_tkCtrl, hb, wakeFor, blockTile, writeAt, writeTk, plain, asks]

theorem exec_tkSwitchWrite (hb : braced s = false) : exec .tkSwitchWrite s = .next (askSwitch (switchWritten s)) := by
  have asks : (s.reg (tkReg Off.TK_CTRL) ||| 8).bit 3 = true := by simp [W.bit]
  exact congrArg ok ((poke_tkCtrl hb asks).trans (by rw [legal_switch]; rfl))

theorem reg_tkStat_switchWritten : (switchWritten s).reg (tkReg Off.TK_STAT) = s.reg (tkReg Off.TK_STAT) :=
  State.setReg_ne (by decide)

theorem reg_tkCtrl_switchWritten :
    (switchWritten s).reg (tkReg Off.TK_CTRL) = W.at 0 3 ((s.reg (tkReg Off.TK_CTRL)).fld 0 3) := State.setReg_same

theorem within_switchWritten (hp : .regs ∈ ps) (hl : tkReg Off.TK_CTRL ∈ ls) : Within ps rs as ls s (switchWritten s) :=
  Within.setReg hp hl

theorem inst_switchWritten : inst (switchWritten s) = inst s :=
  (within_switchWritten (ps := [.regs]) (rs := []) (as := []) (by simp) (List.mem_singleton_self _)).inst (by decide)

theorem askSwitch_of_standby (standby : stbyOk s = true) (active : s.tkNone = false) (idle : switching s = false) :
    askSwitch s = startSwitch s false := by
  simp [askSwitch, standby, active, idle]

theorem askSwitch_refused (none_ : stbyOk s = false ∨ s.tkNone = true) :
    askSwitch s = logGlobal s EvC.SWITCH_REFUSED [] := by
  rcases none_ with h | h <;> simp [askSwitch, h]

theorem stbyOk_switchWritten : stbyOk (switchWritten s) = stbyOk s := by
  rw [stbyOk, tkBit, regBit, reg_tkStat_switchWritten]
  rfl
theorem switching_switchWritten : switching (switchWritten s) = switching s := by
  rw [switching, tkBit, regBit, reg_tkStat_switchWritten]
  rfl

/-! ### Switchover (R185, R269) -/

theorem reg_tkStat_startSwitch {unasked : Bool} :
    (startSwitch s unasked).reg (tkReg Off.TK_STAT) = (s.reg (tkReg Off.TK_STAT)).put 2 1 1 := State.setReg_same

theorem within_startSwitch {unasked : Bool} (hp : [.regs, .time] ⊆ ps) (hl : tkReg Off.TK_STAT ∈ ls) :
    Within ps rs as ls s (startSwitch s unasked) := (within_setBit (hp (by simp)) hl).trans (within_ofTime (hp (by simp)))

theorem beatMissing_of_standby (there : s.tkDead.testBit (1 - activeTk s) = false) (active : s.tkNone = false)
    (idle : switching s = false) : exec .beatMissing s = .next (startSwitch s true) := by
  simp [exec, execBeatMissing, stbyThere, there, active, idle, when_]

/-- The other Time Keeper is active, and the switch is counted. -/
def switchedOver (s : State) : State :=
  incWrap { setFld (setTk s 2 false) (tkReg Off.TK_STAT) 0 1 (1 - activeTk s) with swEnd := some (tcNow s) }
    (tkReg Off.TK_SW_CNT)

theorem reg_tkStat_switchedOver : (switchedOver s).reg (tkReg Off.TK_STAT) =
    ((s.reg (tkReg Off.TK_STAT)).put 2 1 0).put 0 1 (1 - activeTk s) := by
  rw [switchedOver, incWrap, State.setReg_ne (by decide)]
  exact State.setReg_same.trans (by rw [setTk, setBit, setFld, State.setReg_same]; rfl)

theorem reg_tkSwCnt_switchedOver : (switchedOver s).reg (tkReg Off.TK_SW_CNT) = s.reg (tkReg Off.TK_SW_CNT) + 1 := by
  rw [switchedOver, incWrap, State.setReg_same]
  exact congrArg (· + 1) ((State.setReg_ne (by decide)).trans (State.setReg_ne (by decide)))

/-- The registers that a switchover writes. -/
def switchRegs : List Nat := [tkReg Off.TK_STAT, tkReg Off.TK_SW_CNT]

theorem within_switchedOver (hp : [.regs, .time] ⊆ ps) (hl : switchRegs ⊆ ls) : Within ps rs as ls s (switchedOver s) := by
  have hr : Piece.regs ∈ ps := hp (by simp)
  have hs : tkReg Off.TK_STAT ∈ ls := hl (by simp [switchRegs])
  exact (((within_setBit hr hs).trans (Within.setReg hr hs)).trans (within_ofTime (hp (by simp)))).trans
    (Within.setReg hr (hl (by simp [switchRegs])))

theorem inst_switchedOver : inst (switchedOver s) = inst s :=
  (within_switchedOver (ps := [.regs, .time]) (rs := []) (as := []) (List.Subset.refl _) (List.Subset.refl _)).inst (by decide)

theorem switchoverDone_of_switching (h : switching s = true) : exec .switchoverDone s = .next (switchDone s) := by
  simp [exec, execSwitchoverDone, h, when_]

theorem switchDone_of_asked (h : s.tkUnasked = false) : switchDone s = logGlobal (switchedOver s) EvC.TK_SWITCH [] :=
  if_neg (by simp [h])

theorem restartTk_of_first (first : Sparse.get (fun _ => none) s.tkBack k = none) : restartTk s k = s := by
  simp [restartTk, first]

/-- The other Time Keeper has still to measure its branches after an unasked switchover. -/
def unaskedOver (s : State) : State :=
  { setTk (logGlobal (switchedOver s) EvC.TK_SWITCH []) 1 false with tkUnasked := false, calDue := 64 }

/-- An unasked switchover with no launch to issue, from a Time Keeper that had not come back before. -/
theorem switchDone_of_unasked (h : s.tkUnasked = true) (hl : s.launches = [])
    (first : Sparse.get (fun _ => none) s.tkBack (activeTk s) = none) : switchDone s = unaskedOver s := by
  have back : (unaskedOver s).tkBack = s.tkBack := by
    rw [unaskedOver, logGlobal_eq]
    rfl
  have launches : (unaskedOver s).launches = [] := by
    rw [unaskedOver, logGlobal_eq]
    exact hl
  have restarted : restartTk (unaskedOver s) (activeTk s) = unaskedOver s := restartTk_of_first (by rw [back]; exact first)
  calc switchDone s
    _ = forEach (fun l st => if overdue st l then issueLaunch st l else st)
          (restartTk (unaskedOver s) (activeTk s)).launches (restartTk (unaskedOver s) (activeTk s)) := if_pos h
    _ = unaskedOver s := by rw [restarted, launches]; rfl

theorem reg_tkStat_unaskedOver : (unaskedOver s).reg (tkReg Off.TK_STAT) =
    (((s.reg (tkReg Off.TK_STAT)).put 2 1 0).put 0 1 (1 - activeTk s)).put 1 1 0 := by
  refine State.setReg_same.trans ?_
  rw [reg_logGlobal, reg_tkStat_switchedOver]
  rfl

theorem reg_tkSwCnt_unaskedOver : (unaskedOver s).reg (tkReg Off.TK_SW_CNT) = s.reg (tkReg Off.TK_SW_CNT) + 1 :=
  (State.setReg_ne (by decide)).trans (reg_logGlobal.trans reg_tkSwCnt_switchedOver)

theorem within_unaskedOver : Within [.regs, .log, .time] [] [] switchRegs s (unaskedOver s) :=
  (((within_switchedOver (by simp) (List.Subset.refl _)).trans (within_logGlobal (by simp))).trans
    (within_setBit (by simp) (by simp [switchRegs]))).trans (within_ofTime (by simp))

theorem times_unaskedOver : (unaskedOver s).swEnd = some (tcNow s) ∧ (unaskedOver s).tkDead = s.tkDead ∧
    (unaskedOver s).tkNone = s.tkNone ∧ (unaskedOver s).ft = s.ft ∧ (unaskedOver s).fc = s.fc := by
  rw [unaskedOver, logGlobal_eq]
  exact ⟨rfl, rfl, rfl, rfl, rfl⟩

/-! ### A Time Keeper that comes back (R269, R341) -/

theorem tkStbyOk_of_ready {k : Fin 2} (alive : s.tkDead.testBit k.val = false) (held : holdover s = false)
    (idle : switching s = false) (measured : s.calDue = 0)
    (wanted : s.tkNone = true ∨ k.val ≠ activeTk s ∧ stbyOk s = false) : exec (.tkStbyOk k) s = .next (tkReady s k) := by
  rcases wanted with none_ | ⟨other, out⟩
  · simp [exec, execTkStbyOk, alive, held, idle, measured, none_, when_]
  · simp [exec, execTkStbyOk, alive, held, idle, measured, other, out, when_]

/-- Time Keeper k is back. -/
def cameBack (s : State) (k : Nat) : State :=
  { s with tkBack := Sparse.set (fun _ => none) s.tkBack k (some (ftNow s)) }

theorem within_cameBack (hp : .time ∈ ps) : Within ps rs as ls s (cameBack s k) := within_ofTime hp

theorem tkBack_cameBack : Sparse.get (fun _ => none) (cameBack s k).tkBack k = some (ftNow s) := by
  rw [cameBack, Sparse.get_set_same]

theorem tkReady_of_active (active : s.tkNone = false) : tkReady s k = setTk (cameBack s k) 1 true :=
  if_neg (by simp [active])

/-- Every tile has its time tree again. -/
def treesBack (s : State) : State :=
  forEach (fun u st => modTa st u (fun a => { a with tkLost := false })) (List.range 64) s

theorem tkReady_of_none (none_ : s.tkNone = true) : tkReady s k =
    treesBack { setFld (cameBack s k) (tkReg Off.TK_STAT) 0 1 k with tkNone := false, calDue := 64 } :=
  if_pos none_

/-- An update of each tile agent of a list, one after the other, changes the tile agents only. -/
theorem forEach_modTa_eq {f : Agent → Agent} {l : List Nat} :
    ∃ agents, forEach (fun u st => modTa st u f) l s = { s with agents := agents } := by
  induction l generalizing s with
  | nil => exact ⟨_, rfl⟩
  | cons v l ih =>
    obtain ⟨agents, same⟩ := ih (s := modTa s v f)
    exact ⟨agents, same⟩

theorem ta_forEach_modTa {f : Agent → Agent} {l : List Nat} (nodup : l.Nodup) :
    (forEach (fun u st => modTa st u f) l s).ta u = if u ∈ l then f (s.ta u) else s.ta u := by
  induction l generalizing s with
  | nil => rfl
  | cons v l ih =>
    obtain ⟨hv, nodup⟩ := List.nodup_cons.1 nodup
    rw [forEach, ih nodup]
    by_cases h : u = v
    · subst h
      simp [hv, modTa]
    · simp [h, modTa, State.setTa_ne]

theorem ta_treesBack (hu : u < 64) : (treesBack s).ta u = { s.ta u with tkLost := false } := by
  rw [treesBack, ta_forEach_modTa List.nodup_range, if_pos (List.mem_range.2 hu)]

theorem treesBack_eq : ∃ agents, treesBack s = { s with agents := agents } := forEach_modTa_eq

/-! ### The alarm (R187, R306) -/

/-- The alarm has fired, and its arming is gone. -/
def alarmFired (s : State) : State := setBit (setBit s (tkReg Off.TK_ALARM_STAT) 0 true) (tkReg Off.TK_ALARM_CTRL) 0 false

/-- The registers that the alarm writes. -/
def alarmRegs : List Nat := [tkReg Off.TK_ALARM_STAT, tkReg Off.TK_ALARM_CTRL]

theorem alarm_of_due (armed : regBit s (tkReg Off.TK_ALARM_CTRL) 0 = true) (due : alarmFt s ≤ ftNow s) :
    exec .alarm s = .next (fireAlarm s) := by
  simp [exec, execAlarm, armed, due, when_]

theorem fireAlarm_of_up (rail : s.onCell = false) (stays : fstate s ≠ 2 ∨ regBit s (pwrReg Off.PWR_WAKE_CFG) 0 = false) :
    fireAlarm s = alarmFired s := by
  rcases stays with h | h <;> simp [fireAlarm, rail, h, alarmFired]

theorem fireAlarm_of_retention (rail : s.onCell = false) (retained : fstate s = 2)
    (wakes : regBit s (pwrReg Off.PWR_WAKE_CFG) 0 = true) : fireAlarm s = startWake (alarmFired s) 1 := by
  simp [fireAlarm, rail, retained, wakes, alarmFired]

theorem within_alarmFired (hp : .regs ∈ ps) (hl : alarmRegs ⊆ ls) : Within ps rs as ls s (alarmFired s) :=
  (within_setBit hp (hl (by simp [alarmRegs]))).trans (within_setBit hp (hl (by simp [alarmRegs])))

theorem reg_alarmStat_alarmFired : (alarmFired s).reg (tkReg Off.TK_ALARM_STAT) =
    (s.reg (tkReg Off.TK_ALARM_STAT)).put 0 1 1 :=
  (State.setReg_ne (by decide)).trans State.setReg_same

theorem reg_alarmCtrl_alarmFired : (alarmFired s).reg (tkReg Off.TK_ALARM_CTRL) =
    (s.reg (tkReg Off.TK_ALARM_CTRL)).put 0 1 0 :=
  State.setReg_same.trans (congrArg (fun w => W.put w 0 1 0) (State.setReg_ne (by decide)))

/-- The registers that a wake writes as it begins. -/
def wakeRegs : List Nat :=
  [pwrReg Off.PWR_WAKE_CAUSE, pwrReg Off.PWR_WAKE_FT_H, pwrReg Off.PWR_WAKE_FT_L, pwrReg Off.PWR_STAT]

theorem within_startWake (hp : .regs ∈ ps) (hl : wakeRegs ⊆ ls) : Within ps rs as ls s (startWake s n) :=
  (((Within.setReg hp (hl (by simp [wakeRegs]))).trans (Within.setReg hp (hl (by simp [wakeRegs])))).trans
    (Within.setReg hp (hl (by simp [wakeRegs])))).trans (Within.setReg hp (hl (by simp [wakeRegs])))

theorem startWake_noted : (startWake s n).reg (pwrReg Off.PWR_WAKE_CAUSE) = W.at 0 4 n ∧
    (startWake s n).reg (pwrReg Off.PWR_WAKE_FT_H) = ftHi (ftNow s) ∧
    (startWake s n).reg (pwrReg Off.PWR_WAKE_FT_L) = ftLo (ftNow s) := by
  simp (disch := decide) only [startWake, setFld, State.setReg_ne, State.setReg_same, and_self]

theorem fstate_startWake : fstate (startWake s n) = 3 := getFld_setFld_same (by decide) (by decide)

end

section
variable {s t : State} {ps : List Piece} {rs as ls l : List Nat} {a k j n m u o fid : Nat} {c : EvCode} {data : List W}

/-! ### Discarded entries (R195, R196, R319) -/

/-- The registers in which NI n counts the strobes and the events that it loses. -/
def lostRegsOf (n : Nat) : List Nat := [niReg n Off.CDC_LOST_TIM, niReg n Off.CDC_STAT, niReg n Off.CDC_LOST_EVT]

theorem within_setNi {x : Ni} (hp : .nis ∈ ps) : Within ps rs as ls s (s.setNi n x) :=
  ⟨changesOnly_setNi hp, fun _ _ => State.setNi_rt, fun _ _ => State.setNi_ta, fun _ _ => State.setNi_reg⟩

/-- An event of an NI, also where its crossing is full. -/
theorem within_logNi_or_lost (hp : [.regs, .log] ⊆ ps) (hl : lostRegsOf n ⊆ ls) :
    Within ps rs as ls s (logNi s n c data) := by
  have hr : Piece.regs ∈ ps := hp (by simp)
  have hg : Piece.log ∈ ps := hp (by simp)
  unfold logNi logCross
  split
  · exact Within.pushEv hg
  · have counted : Within ps rs as ls s (setBit (incSat s (niReg n Off.CDC_LOST_EVT)) (niReg n Off.CDC_STAT) 0 true) :=
      (Within.setReg hr (hl (by simp [lostRegsOf]))).trans (within_setBit hr (hl (by simp [lostRegsOf])))
    simp only [loseCrossing, overrun]
    split
    · exact counted
    · exact counted.trans (Within.pushEv hg)

theorem evq_prefix_pushEv {e : Ev} : s.evq <+: (pushEv s e).evq := by
  unfold pushEv
  split
  · exact List.prefix_append _ _
  · exact List.prefix_rfl

theorem evq_prefix_logNi : s.evq <+: (logNi s n c data).evq := by
  unfold logNi logCross
  split
  · exact evq_prefix_pushEv
  · simp only [loseCrossing, overrun]
    split
    · exact List.prefix_rfl
    · exact evq_prefix_pushEv (s := setBit (incSat s (niReg n Off.CDC_LOST_EVT)) (niReg n Off.CDC_STAT) 0 true)

/-- A strobe for which the queue of the unit has no room. -/
def strobeDropped (s : State) (n fid : Nat) : State :=
  logNi (setBit (incSat s (niReg n Off.CDC_LOST_TIM)) (niReg n Off.CDC_STAT) 1 true) n EvC.TIME_LATE [natW fid]

theorem within_strobeDropped (hp : [.regs, .log] ⊆ ps) (hl : lostRegsOf n ⊆ ls) :
    Within ps rs as ls s (strobeDropped s n fid) :=
  ((Within.setReg (hp (by simp)) (hl (by simp [lostRegsOf]))).trans
    (within_setBit (hp (by simp)) (hl (by simp [lostRegsOf])))).trans (within_logNi_or_lost hp hl)

/-- A strobe goes to no unit, or into the queue of its unit, or is lost where that queue is full. -/
theorem pushStrobe_cases {apply : Bool} :
    (n % 7 = 5 ∨ populated s n = false) ∧ pushStrobe s n fid apply = s ∨
    (n % 7 ≠ 5 ∧ populated s n = true) ∧ (s.ni n).strobes.length < 8 ∧
      pushStrobe s n fid apply = modNi s n (fun x => { x with strobes := x.strobes ++ [{ apply := apply, fid := fid }] }) ∨
    (n % 7 ≠ 5 ∧ populated s n = true) ∧ ¬ (s.ni n).strobes.length < 8 ∧
      pushStrobe s n fid apply = strobeDropped s n fid := by
  by_cases hu : n % 7 = 5 ∨ populated s n = false
  · exact .inl ⟨hu, if_pos (by simpa using hu)⟩
  · have unit : (decide (n % 7 = 5) || !populated s n) = false := by simpa using hu
    obtain ⟨h5, hp⟩ := not_or.1 hu
    have pop : n % 7 ≠ 5 ∧ populated s n = true := ⟨h5, by simpa using hp⟩
    by_cases room : (s.ni n).strobes.length < 8
    · exact .inr (.inl ⟨pop, room, by simp [pushStrobe, unit, room]⟩)
    · exact .inr (.inr ⟨pop, room, by simp [pushStrobe, unit, room, raiseBit, strobeDropped]⟩)

theorem within_pushStrobe {apply : Bool} (hp : [.nis, .regs, .log] ⊆ ps) (hl : lostRegsOf n ⊆ ls) :
    Within ps rs as ls s (pushStrobe s n fid apply) := by
  rcases pushStrobe_cases (s := s) (n := n) (fid := fid) (apply := apply)
    with ⟨-, e⟩ | ⟨-, -, e⟩ | ⟨-, -, e⟩ <;> rw [e]
  · exact Within.refl
  · exact within_setNi (hp (by simp))
  · exact within_strobeDropped (fun _ h => hp (List.mem_cons_of_mem _ h)) hl

theorem evq_prefix_pushStrobe {apply : Bool} : s.evq <+: (pushStrobe s n fid apply).evq := by
  rcases pushStrobe_cases (s := s) (n := n) (fid := fid) (apply := apply)
    with ⟨-, e⟩ | ⟨-, -, e⟩ | ⟨-, -, e⟩ <;> rw [e]
  · exact List.prefix_rfl
  · exact evq_prefix_logNi (s := setBit (incSat s (niReg n Off.CDC_LOST_TIM)) (niReg n Off.CDC_STAT) 1 true)

/-- NI n without its entries of a fanfare. -/
def withoutEntries (s : State) (fid n : Nat) : State :=
  modNi s n (fun x => { x with hold := x.hold.filter (fun e => decide (e.fid ≠ fid)) })

theorem discardAt_of_holding (h : (s.ni n).hold.any (fun e => decide (e.fid = fid)) = true) :
    discardAt fid n s = pushStrobe (withoutEntries s fid n) n fid false := if_pos h

theorem discardAt_of_not_holding (h : (s.ni n).hold.any (fun e => decide (e.fid = fid)) = false) : discardAt fid n s = s :=
  if_neg (by simp [h])

theorem within_discardAt (hp : [.nis, .regs, .log] ⊆ ps) (hl : lostRegsOf n ⊆ ls) :
    Within ps rs as ls s (discardAt fid n s) := by
  cases h : (s.ni n).hold.any (fun e => decide (e.fid = fid)) with
  | false =>
    rw [discardAt_of_not_holding h]
    exact Within.refl
  | true =>
    rw [discardAt_of_holding h]
    exact (within_setNi (hp (by simp))).trans (within_pushStrobe hp hl)

theorem evq_prefix_discardAt : s.evq <+: (discardAt fid n s).evq := by
  cases h : (s.ni n).hold.any (fun e => decide (e.fid = fid)) with
  | false =>
    rw [discardAt_of_not_holding h]
  | true =>
    rw [discardAt_of_holding h]
    exact evq_prefix_pushStrobe (s := withoutEntries s fid n)

theorem populated_congr (h : t.fusesSensed = s.fusesSensed) : populated t n = populated s n := by
  simp [populated, h]

theorem populated_discardAt : populated (discardAt fid n s) m = populated s m := by
  have kept := (within_discardAt (rs := []) (as := []) (s := s) (n := n) (fid := fid) (List.Subset.refl _)
    (List.Subset.refl _)).pieces .fuses (by simp)
  obtain ⟨-, -, sensed, -⟩ := kept
  exact populated_congr sensed

/-- What NI n holds once it has discarded its entries of a fanfare; `pop` says whether it has a unit to strobe. -/
def discarded (pop : Bool) (fid n : Nat) (x : Ni) : Ni :=
  if x.hold.any (fun e => decide (e.fid = fid)) then
    { x with hold := x.hold.filter (fun e => decide (e.fid ≠ fid)),
             strobes :=
               if n % 7 ≠ 5 ∧ pop = true ∧ x.strobes.length < 8 then x.strobes ++ [{ apply := false, fid := fid }]
               else x.strobes }
  else x

theorem hold_discarded {pop : Bool} {x : Ni} :
    (discarded pop fid n x).hold = x.hold.filter (fun e => decide (e.fid ≠ fid)) := by
  unfold discarded
  split
  · rfl
  · next h =>
    refine (List.filter_eq_self.2 fun e he => ?_).symm
    have other : e.fid ≠ fid := fun hf => h (List.any_eq_true.2 ⟨e, he, by simp [hf]⟩)
    simp [other]

theorem strobes_discarded {x : Ni} (h5 : n % 7 ≠ 5) (room : x.strobes.length < 8)
    (holds : x.hold.any (fun e => decide (e.fid = fid)) = true) :
    (discarded true fid n x).strobes = x.strobes ++ [{ apply := false, fid := fid }] := by
  simp [discarded, holds, h5, room]

theorem ni_strobeDropped : (strobeDropped s n fid).ni m = s.ni m :=
  (within_strobeDropped (rs := []) (as := []) (List.Subset.refl _) (List.Subset.refl _)).pieces .nis (by simp) m

theorem ni_withoutEntries_same : (withoutEntries s fid n).ni n =
    { s.ni n with hold := (s.ni n).hold.filter (fun e => decide (e.fid ≠ fid)) } := State.setNi_same

theorem ni_discardAt_same : (discardAt fid n s).ni n = discarded (populated s n) fid n (s.ni n) := by
  cases h : (s.ni n).hold.any (fun e => decide (e.fid = fid)) with
  | false =>
    rw [discardAt_of_not_holding h]
    simp [discarded, h]
  | true =>
    have pop : populated (withoutEntries s fid n) n = populated s n := rfl
    rw [discardAt_of_holding h, discarded, if_pos h]
    rcases pushStrobe_cases (s := withoutEntries s fid n) (n := n) (fid := fid) (apply := false)
      with ⟨no, e⟩ | ⟨⟨h5, hp⟩, room, e⟩ | ⟨-, room, e⟩ <;> rw [e]
    · rw [ni_withoutEntries_same, if_neg (by rw [pop] at no; rintro ⟨h5, hp, -⟩; simp [h5, hp] at no)]
    · rw [ni_withoutEntries_same] at room
      rw [modNi, State.setNi_same, ni_withoutEntries_same, if_pos ⟨h5, pop ▸ hp, room⟩]
    · rw [ni_withoutEntries_same] at room
      rw [ni_strobeDropped, ni_withoutEntries_same, if_neg (by rintro ⟨-, -, h⟩; exact room h)]

theorem ni_discardAt_ne (h : m ≠ n) : (discardAt fid n s).ni m = s.ni m := by
  have removed : (withoutEntries s fid n).ni m = s.ni m := State.setNi_ne h
  cases hh : (s.ni n).hold.any (fun e => decide (e.fid = fid)) with
  | false => rw [discardAt_of_not_holding hh]
  | true =>
    rw [discardAt_of_holding hh]
    rcases pushStrobe_cases (s := withoutEntries s fid n) (n := n) (fid := fid) (apply := false)
      with ⟨-, e⟩ | ⟨-, -, e⟩ | ⟨-, -, e⟩ <;> rw [e]
    · exact removed
    · exact (State.setNi_ne h).trans removed
    · exact ni_strobeDropped.trans removed

/-- Every NI of a list discards its entries of a fanfare. -/
def discardAll (s : State) (fid : Nat) (l : List Nat) : State := forEach (discardAt fid) l s

theorem ni_discardAll (nodup : l.Nodup) :
    (discardAll s fid l).ni m = if m ∈ l then discarded (populated s m) fid m (s.ni m) else s.ni m := by
  induction l generalizing s with
  | nil => rfl
  | cons n l ih =>
    obtain ⟨hn, nodup⟩ := List.nodup_cons.1 nodup
    rw [discardAll, forEach]
    refine (ih nodup).trans ?_
    rw [populated_discardAt]
    by_cases h : m = n
    · subst h
      simp [hn, ni_discardAt_same]
    · simp [h, ni_discardAt_ne]

theorem within_discardAll (hp : [.nis, .regs, .log] ⊆ ps) (hl : l.flatMap lostRegsOf ⊆ ls) :
    Within ps rs as ls s (discardAll s fid l) :=
  Within.forEach fun _ hn _ => within_discardAt hp fun _ ha => hl (List.mem_flatMap.2 ⟨_, hn, ha⟩)

theorem evq_prefix_discardAll : s.evq <+: (discardAll s fid l).evq := by
  induction l generalizing s with
  | nil => exact List.prefix_rfl
  | cons n l ih => exact evq_prefix_discardAt.trans ih

/-- No NI counts in a register of the fanfare block. -/
theorem fnfReg_not_mem_lostRegs (ho : o < 0x4000) : fnfReg o ∉ l.flatMap lostRegsOf := by
  intro h
  obtain ⟨n, -, h⟩ := List.mem_flatMap.1 h
  have apart {b : Nat} (hb : b < 0x800) : fnfReg o ≠ niReg n b := by
    unfold fnfReg globalReg niReg tileBase
    omega
  simp only [lostRegsOf, List.mem_cons, List.not_mem_nil, or_false] at h
  rcases h with h | h | h
  · exact apart (by decide) h
  · exact apart (by decide) h
  · exact apart (by decide) h

/-! ### The registers of the fanfare block (R211) -/

@[simp] theorem fnfReg_inj : fnfReg o = fnfReg m ↔ o = m := by simp [fnfReg, globalReg]

/-- A slot's register is none of another slot at another place of the slot. -/
theorem slotReg_ne_of_offset (ho : o < 16) (hm : m < 16) (h : o ≠ m) : slotReg j o ≠ slotReg k m := by
  simp only [slotReg, ne_eq, fnfReg_inj]
  omega

theorem slotReg_ne_of_slot (h : j ≠ k) : slotReg j o ≠ slotReg k o := by
  simp only [slotReg, ne_eq, fnfReg_inj]
  omega

/-- The registers before the slots' are none of a slot. -/
theorem slotReg_ne_fnfReg (hm : m < 0x100) : slotReg k o ≠ fnfReg m := by
  simp only [slotReg, ne_eq, fnfReg_inj]
  omega

/-! ### A slot that aborts, and the outcome that its part reports (R196, R206) -/

/-- Other launches, slots in staging, free words read, and reports of outcomes (R206). -/
theorem within_ofFanfare {ln : List Launch} {q : List Nat} {f x : Nat} {r : List XRep}
    (hp : [.fanfare, .ids, .extension] ⊆ ps) :
    Within ps rs as ls s { s with launches := ln, stageQ := q, freeN := f, xrep := r, xhistN := x } := by
  refine ⟨fun p hn => ?_, fun _ _ => rfl, fun _ _ => rfl, fun _ _ => rfl⟩
  cases p with
  | fanfare | ids | extension => exact absurd (hp (by simp)) hn
  | mem => exact fun _ => ⟨rfl, rfl⟩
  | regs | nis | routers | tmcs | agents | slots | cores => exact fun _ => rfl
  | _ => simp [pieceKept]

theorem within_setSlot {x : Slot} (hp : .slots ∈ ps) : Within ps rs as ls s (s.setSlot k x) := by
  refine ⟨fun p hn => ?_, fun _ _ => State.setSlot_rt, fun _ _ => State.setSlot_ta, fun _ _ => State.setSlot_reg⟩
  cases p with
  | slots => exact absurd hp hn
  | mem => exact fun _ => ⟨rfl, rfl⟩
  | _ => simp [pieceKept]

/-- The pieces that the loss of a slot's fanfare may change before its targets discard their entries. -/
def slotPieces : List Piece := [.regs, .slots, .fanfare, .log, .ids, .extension]

/-- The registers that an aborted slot writes. -/
def abortRegs (k : Nat) : List Nat := [slotReg k Off.FNF_STAT, slotReg k Off.FNF_BAD, fnfReg Off.FNF_ABORT_CNT]

theorem within_slotAborted {reason : Nat} {idx node : Option Nat} :
    Within slotPieces [] [] (abortRegs k) s (slotAborted s k reason idx node) := by
  have stat {st : State} {v : W} : Within slotPieces [] [] (abortRegs k) st (st.setReg (slotReg k Off.FNF_STAT) v) :=
    Within.setReg (by simp [slotPieces]) (by simp [abortRegs])
  have bad {st : State} : Within slotPieces [] [] (abortRegs k) st (setBad st k idx node) :=
    (within_ofFanfare (by simp [slotPieces])).trans (Within.setReg (by simp [slotPieces]) (by simp [abortRegs]))
  have emptied {st : State} {x : Slot} {q : List Nat} :
      Within slotPieces [] [] (abortRegs k) st { st.setSlot k x with stageQ := q } :=
    (within_setSlot (by simp [slotPieces])).trans (within_ofFanfare (by simp [slotPieces]))
  have counted {st : State} : Within slotPieces [] [] (abortRegs k) st (incWrap st (fnfReg Off.FNF_ABORT_CNT)) :=
    Within.setReg (by simp [slotPieces]) (by simp [abortRegs])
  exact (((((stat.trans stat).trans bad).trans emptied).trans counted)).trans (within_logGlobal (by simp [slotPieces]))

theorem reg_stat_slotAborted {reason : Nat} {idx node : Option Nat} :
    (slotAborted s k reason idx node).reg (slotReg k Off.FNF_STAT) =
      ((s.reg (slotReg k Off.FNF_STAT)).put 0 4 SS.ABORTED).put 29 5 reason := by
  rw [slotAborted, reg_logGlobal, incWrap, State.setReg_ne (slotReg_ne_fnfReg (by decide))]
  refine (State.setReg_ne (slotReg_ne_of_offset (by decide) (by decide) (by decide))).trans ?_
  exact State.setReg_same.trans (congrArg (fun w => W.put w 29 5 reason) State.setReg_same)

theorem reg_abortCnt_slotAborted {reason : Nat} {idx node : Option Nat} :
    (slotAborted s k reason idx node).reg (fnfReg Off.FNF_ABORT_CNT) = s.reg (fnfReg Off.FNF_ABORT_CNT) + 1 := by
  have apart {st : State} {p : Nat} {v : W} : (st.setReg (slotReg k p) v).reg (fnfReg Off.FNF_ABORT_CNT) =
      st.reg (fnfReg Off.FNF_ABORT_CNT) := State.setReg_ne (Ne.symm (slotReg_ne_fnfReg (by decide)))
  rw [slotAborted, reg_logGlobal, incWrap, State.setReg_same]
  exact congrArg (· + 1) (apart.trans (apart.trans apart))

theorem slotsBut_slotAborted {reason : Nat} {idx node : Option Nat} : slotsBut k s (slotAborted s k reason idx node) := by
  intro j hj
  rw [slotAborted, logGlobal_eq]
  exact State.setSlot_ne hj

theorem launches_slotAborted {reason : Nat} {idx node : Option Nat} :
    (slotAborted s k reason idx node).launches = s.launches := by
  rw [slotAborted, logGlobal_eq]
  rfl

theorem evq_prefix_logGlobal (h : t.evq = s.evq) : s.evq <+: (logGlobal t c data).evq :=
  h ▸ evq_prefix_pushEv

theorem evq_prefix_slotAborted {reason : Nat} {idx node : Option Nat} : s.evq <+: (slotAborted s k reason idx node).evq := by
  unfold slotAborted
  exact evq_prefix_logGlobal rfl

/-- The registers of entry j of the history of outcomes (R208). -/
def histRegs (j : Nat) : List Nat := [fnfReg (Off.FNF_XHIST j), fnfReg (Off.FNF_XHIST j + 1)]

theorem within_xoutcome {outcome ft : Nat} :
    Within slotPieces [] [] (histRegs (s.xhistN % 64)) s (xoutcome s k outcome ft) := by
  have hist : Within slotPieces [] [] (histRegs (s.xhistN % 64)) s (keepHist s (slotGfid s k) outcome) :=
    ((within_ofFanfare (by simp [slotPieces])).trans
      (Within.setReg (by simp [slotPieces]) (by simp [histRegs]))).trans
        (Within.setReg (by simp [slotPieces]) (by simp [histRegs]))
  have closed {st : State} {x : Slot} : Within slotPieces [] [] (histRegs (s.xhistN % 64)) st (st.setSlot k x) :=
    within_setSlot (by simp [slotPieces])
  have reported {st : State} {r : List XRep} :
      Within slotPieces [] [] (histRegs (s.xhistN % 64)) st { st with xrep := r } := within_ofFanfare (by simp [slotPieces])
  simp only [xoutcome]
  split <;> split
  · exact (hist.trans closed).trans reported
  · exact closed.trans reported
  · exact hist.trans closed
  · exact closed

theorem slotsBut_xoutcome {outcome ft : Nat} : slotsBut k s (xoutcome s k outcome ft) := by
  intro j hj
  simp only [xoutcome]
  split <;> split <;> exact State.setSlot_ne hj

theorem launches_xoutcome {outcome ft : Nat} : (xoutcome s k outcome ft).launches = s.launches := by
  simp only [xoutcome]
  split <;> split <;> rfl

theorem evq_xoutcome {outcome ft : Nat} : (xoutcome s k outcome ft).evq = s.evq := by
  simp only [xoutcome]
  split <;> split <;> rfl

/-- The history of outcomes stands behind the other registers of the block. -/
theorem reg_fnf_xoutcome {outcome ft : Nat} (ho : o < 0x400) :
    (xoutcome s k outcome ft).reg (fnfReg o) = s.reg (fnfReg o) := by
  refine within_xoutcome.regs _ ?_
  simp only [histRegs, Off.FNF_XHIST, List.mem_cons, fnfReg_inj, List.not_mem_nil, or_false, not_or]
  omega

/-! ### The armed fanfare of a slot is lost (R341) -/

/-- The fanfare of slot k is lost; its targets still hold its entries. -/
def slotLost (s : State) (k : Nat) : State :=
  xoutcome (slotAborted (dropLaunch s (slotFid s k)) k Rsn.LOST none none) k XO.LOST 0

theorem loseSlot_eq : loseSlot k s = discardAll (slotLost s k) (slotFid s k) (sentNis (s.slot k)) := rfl

/-- The registers that the loss writes in the fanfare block. -/
def lossRegs (s : State) (k : Nat) : List Nat :=
  abortRegs k ++ histRegs ((slotAborted (dropLaunch s (slotFid s k)) k Rsn.LOST none none).xhistN % 64)

theorem within_slotLost : Within slotPieces [] [] (lossRegs s k) s (slotLost s k) := by
  have dropped : Within slotPieces [] [] (lossRegs s k) s (dropLaunch s (slotFid s k)) :=
    within_ofFanfare (by simp [slotPieces])
  have aborted : Within slotPieces [] [] (lossRegs s k) (dropLaunch s (slotFid s k))
      (slotAborted (dropLaunch s (slotFid s k)) k Rsn.LOST none none) :=
    within_slotAborted.mono (List.Subset.refl _) (List.Subset.refl _) (List.Subset.refl _) (List.subset_append_left _ _)
  exact (dropped.trans aborted).trans (within_xoutcome.mono (List.Subset.refl _) (List.Subset.refl _)
    (List.Subset.refl _) (List.subset_append_right _ _))

theorem launches_slotLost : (slotLost s k).launches = s.launches.filter (fun l => decide (l.fid ≠ slotFid s k)) :=
  launches_xoutcome.trans launches_slotAborted

theorem evq_prefix_slotLost : s.evq <+: (slotLost s k).evq := by
  rw [slotLost, evq_xoutcome]
  exact evq_prefix_slotAborted (s := dropLaunch s (slotFid s k))

theorem slotsBut_slotLost : slotsBut k s (slotLost s k) := fun _ hj =>
  (slotsBut_xoutcome _ hj).trans (slotsBut_slotAborted (s := dropLaunch s (slotFid s k)) _ hj)

/-- The pieces that the loss of an armed fanfare may change. -/
def lossPieces : List Piece := .nis :: slotPieces

theorem within_loseSlot :
    Within lossPieces [] [] (lossRegs s k ++ (sentNis (s.slot k)).flatMap lostRegsOf) s (loseSlot k s) :=
  (within_slotLost.mono (by simp [lossPieces]) (List.Subset.refl _) (List.Subset.refl _)
    (List.subset_append_left _ _)).trans
      (within_discardAll (by simp [lossPieces, slotPieces]) (List.subset_append_right _ _))

theorem reg_fnf_discardAll (ho : o < 0x4000) : (discardAll s fid l).reg (fnfReg o) = s.reg (fnfReg o) :=
  (within_discardAll (ps := [.nis, .regs, .log]) (rs := []) (as := []) (List.Subset.refl _)
    (List.Subset.refl _)).regs _ (fnfReg_not_mem_lostRegs ho)

theorem reg_stat_loseSlot (hk : k < 8) : (loseSlot k s).reg (slotReg k Off.FNF_STAT) =
    ((s.reg (slotReg k Off.FNF_STAT)).put 0 4 SS.ABORTED).put 29 5 Rsn.LOST := by
  have place : 0x100 + 0x10 * k + Off.FNF_STAT < 0x400 := by
    unfold Off.FNF_STAT
    omega
  rw [loseSlot_eq]
  exact (reg_fnf_discardAll (by omega)).trans ((reg_fnf_xoutcome place).trans reg_stat_slotAborted)

theorem reg_abortCnt_loseSlot : (loseSlot k s).reg (fnfReg Off.FNF_ABORT_CNT) = s.reg (fnfReg Off.FNF_ABORT_CNT) + 1 := by
  rw [loseSlot_eq]
  exact (reg_fnf_discardAll (by decide)).trans ((reg_fnf_xoutcome (by decide)).trans reg_abortCnt_slotAborted)

theorem slotState_loseSlot_same (hk : k < 8) : slotState (loseSlot k s) k = SS.ABORTED := by
  rw [slotState, getFld, reg_stat_loseSlot hk, W.fld_put_apart (by decide), W.fld_put_same (by decide) (by decide)]

theorem reason_loseSlot (hk : k < 8) : getFld (loseSlot k s) (slotReg k Off.FNF_STAT) 29 5 = Rsn.LOST := by
  rw [getFld, reg_stat_loseSlot hk, W.fld_put_same (by decide) (by decide)]

theorem slotState_loseSlot_ne (hj : j < 8) (h : j ≠ k) : slotState (loseSlot k s) j = slotState s j := by
  have place : 0x100 + 0x10 * j + Off.FNF_STAT < 0x400 := by
    unfold Off.FNF_STAT
    omega
  have apart : slotReg j Off.FNF_STAT ∉ abortRegs k := by
    simp only [abortRegs, List.mem_cons, List.not_mem_nil, or_false, not_or]
    exact ⟨slotReg_ne_of_slot h, slotReg_ne_of_offset (by decide) (by decide) (by decide), slotReg_ne_fnfReg (by decide)⟩
  rw [slotState, getFld, loseSlot_eq]
  exact congrArg (fun w => W.fld w 0 4) ((reg_fnf_discardAll (by omega)).trans ((reg_fnf_xoutcome place).trans
    (within_slotAborted.regs _ apart)))

theorem ni_loseSlot : (loseSlot k s).ni m =
    if m ∈ sentNis (s.slot k) then discarded (populated s m) (slotFid s k) m (s.ni m) else s.ni m := by
  have kept := within_slotLost (s := s) (k := k)
  obtain ⟨-, -, sensed, -⟩ := kept.pieces .fuses (by simp [slotPieces])
  have nodup : (sentNis (s.slot k)).Nodup := nodup_eraseDups _
  rw [loseSlot_eq, ni_discardAll nodup, populated_congr sensed, kept.pieces .nis (by simp [slotPieces]) m]

theorem evq_prefix_loseSlot : s.evq <+: (loseSlot k s).evq := evq_prefix_slotLost.trans evq_prefix_discardAll

theorem slotsBut_loseSlot : slotsBut k s (loseSlot k s) := fun j hj =>
  ((within_discardAll (ps := [.nis, .regs, .log]) (rs := []) (as := []) (s := slotLost s k) (List.Subset.refl _)
    (List.Subset.refl _)).pieces .slots (by simp) j).trans (slotsBut_slotLost j hj)

theorem launches_loseSlot : (loseSlot k s).launches = s.launches.filter (fun l => decide (l.fid ≠ slotFid s k)) := by
  obtain ⟨same, -⟩ := (within_discardAll (ps := [.nis, .regs, .log]) (rs := []) (as := []) (s := slotLost s k)
    (fid := slotFid s k) (l := sentNis (s.slot k)) (List.Subset.refl _) (List.Subset.refl _)).pieces .fanfare (by simp)
  exact same.trans launches_slotLost

/-! ### Every armed fanfare is lost (R341) -/

/-- Slot k loses its fanfare where s holds it armed. -/
def loseIfArmed (s : State) (k : Nat) (t : State) : State := if slotArmed s k then loseSlot k t else t

theorem loseIfArmed_of_idle (h : slotArmed s k = false) : loseIfArmed s k t = t := if_neg (by simp [h])

theorem loseIfArmed_of_armed (h : slotArmed s k = true) : loseIfArmed s k t = loseSlot k t := if_pos h

theorem loseArmed_eq : loseArmed s = forEach (loseIfArmed s) (List.range 8) s := rfl

theorem forEach_loseIfArmed_of_none (h : ∀ j ∈ l, slotArmed s j = false) : forEach (loseIfArmed s) l t = t := by
  induction l generalizing t with
  | nil => rfl
  | cons j l ih =>
    rw [forEach, loseIfArmed_of_idle (h j List.mem_cons_self)]
    exact ih fun i hi => h i (List.mem_cons_of_mem j hi)

theorem loseArmed_of_none (h : ∀ j < 8, slotArmed s j = false) : loseArmed s = s := by
  rw [loseArmed_eq]
  exact forEach_loseIfArmed_of_none fun j hj => h j (List.mem_range.1 hj)

theorem forEach_loseIfArmed_of_one (nodup : l.Nodup) (hk : k ∈ l) (armed : slotArmed s k = true)
    (others : ∀ j ∈ l, j ≠ k → slotArmed s j = false) : forEach (loseIfArmed s) l t = loseSlot k t := by
  induction l generalizing t with
  | nil => simp at hk
  | cons j l ih =>
    obtain ⟨hj, nodup⟩ := List.nodup_cons.1 nodup
    rw [forEach]
    by_cases h : j = k
    · subst h
      rw [loseIfArmed_of_armed armed]
      exact forEach_loseIfArmed_of_none fun i hi => others i (List.mem_cons_of_mem j hi) fun e => hj (e ▸ hi)
    · rw [loseIfArmed_of_idle (others j List.mem_cons_self h)]
      exact ih nodup ((List.mem_cons.1 hk).resolve_left (Ne.symm h)) fun i hi => others i (List.mem_cons_of_mem j hi)

theorem loseArmed_of_one (hk : k < 8) (armed : slotArmed s k = true) (others : ∀ j < 8, j ≠ k → slotArmed s j = false) :
    loseArmed s = loseSlot k s := by
  rw [loseArmed_eq]
  exact forEach_loseIfArmed_of_one List.nodup_range (List.mem_range.2 hk) armed fun j hj => others j (List.mem_range.1 hj)

/-! ### A tile loses both Time Keepers (R341) -/

/-- Tile u has lost its time tree, and reports it. -/
def treeLost (s : State) (u : Nat) : State :=
  logTile (modTa s u (fun a => { a with tkLost := true })) u EvC.TK_LOST_BOTH []

/-- The event with which tile u reports it. -/
def lostBothEvent (s : State) (u : Nat) : Ev := mkEv (ftNow s) (nodeTP s u 5) EvC.TK_LOST_BOTH []

theorem treeLost_eq : treeLost s u = pushEv (modTa s u (fun a => { a with tkLost := true })) (lostBothEvent s u) := by
  simp only [treeLost, logTile, EvC.TK_LOST_BOTH]
  rfl

theorem treeLost_of_room (room : s.evq.length < 16) :
    treeLost s u = { modTa s u (fun a => { a with tkLost := true }) with evq := s.evq ++ [lostBothEvent s u] } :=
  treeLost_eq.trans (if_pos room)

theorem within_treeLost : Within [.agents, .log] [] [u] [] s (treeLost s u) := by
  rw [treeLost_eq]
  exact (Within.setTa (by simp) (by simp)).trans (Within.pushEv (by simp))

theorem ta_treeLost : (treeLost s u).ta u = { s.ta u with tkLost := true } := by
  rw [treeLost_eq, pushEv_eq]
  exact State.setTa_same

/-- No Time Keeper is active. -/
def noneActive (s : State) : State := { setTk s 1 false with tkNone := true, calDue := 64 }

theorem within_noneActive (hp : [.regs, .time] ⊆ ps) (hl : tkReg Off.TK_STAT ∈ ls) : Within ps rs as ls s (noneActive s) :=
  (within_setBit (hp (by simp)) hl).trans (within_ofTime (hp (by simp)))

theorem reg_tkStat_noneActive : (noneActive s).reg (tkReg Off.TK_STAT) = (s.reg (tkReg Off.TK_STAT)).put 1 1 0 :=
  State.setReg_same

theorem tkLostBoth_of_active {u : Fin 64} (idle : switching s = false) (held : holdover s = false)
    (fresh : (s.ta u).tkLost = false) (active : s.tkNone = false) :
    exec (.tkLostBoth u) s = .next (noneActive (loseArmed (treeLost s u))) := by
  have still : (treeLost s u).tkNone = false := by
    rw [treeLost_eq, pushEv_eq]
    exact active
  have loses : loseTree s u = noneActive (loseArmed (treeLost s u)) := if_neg (by simpa [treeLost] using still)
  simp [exec, execTkLostBoth, idle, held, fresh, loses, when_]

theorem slotArmed_treeLost : slotArmed (treeLost s u) k = slotArmed s k := by
  rw [slotArmed, slotState, getFld, within_treeLost.regs _ (by simp)]
  rfl

/-- The NIs hold what they held; no fanfare register lies among those of the Time Keepers. -/
theorem reg_fnf_noneActive (ho : o < 0x10000) : (noneActive s).reg (fnfReg o) = s.reg (fnfReg o) := by
  refine State.setReg_ne ?_
  unfold fnfReg tkReg globalReg Off.TK_STAT
  omega

end

section
variable {s t : State} {j k n o u : Nat}

/-! ### The armed fanfare that a tile's loss of both Time Keepers ends (R341) -/

theorem reg_treeLost {a : Nat} : (treeLost s u).reg a = s.reg a := within_treeLost.regs _ (by simp)

theorem slot_treeLost : (treeLost s u).slot k = s.slot k := within_treeLost.pieces .slots (by simp) k

theorem slotFid_treeLost : slotFid (treeLost s u) k = slotFid s k := by
  rw [slotFid, getFld, reg_treeLost]
  rfl

theorem slotState_treeLost : slotState (treeLost s u) k = slotState s k := by
  rw [slotState, getFld, reg_treeLost]
  rfl

/-! ### The first Time Keeper that comes back (R341) -/

/-- Time Keeper k is the active one, and the other has still to measure its branches. -/
def firstActive (s : State) (k : Nat) : State :=
  treesBack { setFld (cameBack s k) (tkReg Off.TK_STAT) 0 1 k with tkNone := false, calDue := 64 }

theorem firstActive_eq : ∃ agents, firstActive s k =
    { setFld (cameBack s k) (tkReg Off.TK_STAT) 0 1 k with agents := agents, tkNone := false, calDue := 64 } :=
  treesBack_eq

theorem reg_firstActive {a : Nat} :
    (firstActive s k).reg a = (setFld (cameBack s k) (tkReg Off.TK_STAT) 0 1 k).reg a := by
  obtain ⟨agents, same⟩ := firstActive_eq (s := s) (k := k)
  rw [same]
  rfl

theorem tkBack_firstActive : (firstActive s k).tkBack = (cameBack s k).tkBack := by
  obtain ⟨agents, same⟩ := firstActive_eq (s := s) (k := k)
  rw [same]
  rfl

theorem tkStbyOk_of_none {k : Fin 2} (alive : s.tkDead.testBit k.val = false) (held : holdover s = false)
    (idle : switching s = false) (measured : s.calDue = 0) (none_ : s.tkNone = true) :
    exec (.tkStbyOk k) s = .next (firstActive s k) := by
  rw [tkStbyOk_of_ready alive held idle measured (.inl none_), tkReady_of_none none_, firstActive]

/-! ### The report of a tile that loses its time tree -/

/-- An event queue that goes on from the loss of the tree holds its report first. -/
theorem take_evq_of_treeLost_prefix (room : s.evq.length < 16) (goesOn : (treeLost s u).evq <+: t.evq) :
    t.evq.take (s.evq.length + 1) = s.evq ++ [lostBothEvent s u] := by
  rw [treeLost_of_room room] at goesOn
  simpa using (List.prefix_iff_eq_take.1 goesOn).symm

/-- Tile u has lost both Time Keepers, and the armed fanfare of slot k is lost with them. -/
def bothLost (s : State) (u k : Nat) : State := noneActive (loseSlot k (treeLost s u))

theorem tkLostBoth_of_armed {u : Fin 64} (idle : switching s = false) (held : holdover s = false)
    (fresh : (s.ta u).tkLost = false) (active : s.tkNone = false) (hk : k < 8) (armed : slotArmed s k = true)
    (others : ∀ j < 8, j ≠ k → slotArmed s j = false) : exec (.tkLostBoth u) s = .next (bothLost s u k) := by
  rw [tkLostBoth_of_active idle held fresh active, bothLost, loseArmed_of_one hk (slotArmed_treeLost.trans armed)
    fun j hj ne => slotArmed_treeLost.trans (others j hj ne)]

/-- The pieces that the loss of both Time Keepers with an armed fanfare may change. -/
def bothLostPieces : List Piece := [.regs, .agents, .slots, .nis, .fanfare, .log, .time, .extension, .ids]

/-- The registers that it may change. -/
def bothLostRegs (s : State) (u k : Nat) : List Nat :=
  tkReg Off.TK_STAT :: (lossRegs (treeLost s u) k ++ (sentNis ((treeLost s u).slot k)).flatMap lostRegsOf)

theorem within_bothLost : Within bothLostPieces [] [u] (bothLostRegs s u k) s (bothLost s u k) := by
  have reported : Within bothLostPieces [] [u] (bothLostRegs s u k) s (treeLost s u) :=
    within_treeLost.mono (by simp [bothLostPieces]) (List.Subset.refl _) (List.Subset.refl _) (List.nil_subset _)
  have lost : Within bothLostPieces [] [u] (bothLostRegs s u k) (treeLost s u) (loseSlot k (treeLost s u)) :=
    within_loseSlot.mono (by simp [bothLostPieces, lossPieces, slotPieces]) (List.Subset.refl _) (List.nil_subset _)
      (List.subset_cons_self _ _)
  exact (reported.trans lost).trans (within_noneActive (by simp [bothLostPieces]) List.mem_cons_self)

theorem ta_bothLost : (bothLost s u k).ta u = { s.ta u with tkLost := true } :=
  ((within_noneActive (ps := [.regs, .time]) (rs := []) (as := []) (List.Subset.refl _) (List.mem_singleton_self _)).agents
    u (by simp)).trans ((within_loseSlot.agents u (by simp)).trans ta_treeLost)

theorem reg_fnf_bothLost (ho : o < 0x10000) : (bothLost s u k).reg (fnfReg o) = (loseSlot k (treeLost s u)).reg (fnfReg o) :=
  reg_fnf_noneActive ho

theorem reg_stat_bothLost (hj : j < 8) : (bothLost s u k).reg (slotReg j Off.FNF_STAT) =
    (loseSlot k (treeLost s u)).reg (slotReg j Off.FNF_STAT) := by
  refine reg_fnf_bothLost ?_
  unfold Off.FNF_STAT
  omega

theorem slotState_bothLost_same (hk : k < 8) : slotState (bothLost s u k) k = SS.ABORTED := by
  rw [slotState, getFld, reg_stat_bothLost hk]
  exact slotState_loseSlot_same hk

theorem slotState_bothLost_ne (hj : j < 8) (h : j ≠ k) : slotState (bothLost s u k) j = slotState s j := by
  rw [slotState, getFld, reg_stat_bothLost hj]
  exact (slotState_loseSlot_ne hj h).trans slotState_treeLost

theorem reason_bothLost (hk : k < 8) : getFld (bothLost s u k) (slotReg k Off.FNF_STAT) 29 5 = Rsn.LOST := by
  rw [getFld, reg_stat_bothLost hk]
  exact reason_loseSlot hk

theorem reg_abortCnt_bothLost :
    (bothLost s u k).reg (fnfReg Off.FNF_ABORT_CNT) = s.reg (fnfReg Off.FNF_ABORT_CNT) + 1 := by
  rw [reg_fnf_bothLost (by decide), reg_abortCnt_loseSlot, reg_treeLost]

theorem launches_bothLost : (bothLost s u k).launches = s.launches.filter (fun l => decide (l.fid ≠ slotFid s k)) := by
  obtain ⟨same, -⟩ := (within_treeLost (s := s) (u := u)).pieces .fanfare (by simp)
  exact launches_loseSlot.trans (by rw [same, slotFid_treeLost])

theorem ni_bothLost : (bothLost s u k).ni n =
    if n ∈ sentNis (s.slot k) then discarded (populated s n) (slotFid s k) n (s.ni n) else s.ni n := by
  obtain ⟨-, -, sensed, -⟩ := (within_treeLost (s := s) (u := u)).pieces .fuses (by simp)
  refine (ni_loseSlot (s := treeLost s u)).trans ?_
  rw [slot_treeLost, slotFid_treeLost, populated_congr sensed, within_treeLost.pieces .nis (by simp) n]

theorem hold_bothLost : ((bothLost s u k).ni n).hold = if n ∈ sentNis (s.slot k)
    then (s.ni n).hold.filter (fun e => decide (e.fid ≠ slotFid s k)) else (s.ni n).hold := by
  rw [ni_bothLost]
  split
  · exact hold_discarded
  · rfl

theorem strobes_bothLost (sent : n ∈ sentNis (s.slot k)) (h5 : n % 7 ≠ 5) (pop : populated s n = true)
    (room : (s.ni n).strobes.length < 8) (holds : (s.ni n).hold.any (fun e => decide (e.fid = slotFid s k)) = true) :
    ((bothLost s u k).ni n).strobes = (s.ni n).strobes ++ [{ apply := false, fid := slotFid s k }] := by
  rw [ni_bothLost, if_pos sent, pop, strobes_discarded h5 room holds]

theorem slotsBut_bothLost : slotsBut k s (bothLost s u k) := fun j hj =>
  (slotsBut_loseSlot (s := treeLost s u) j hj).trans slot_treeLost

/-! ### A tile that loses both while no fanfare is armed -/

/-- Tile u has lost both Time Keepers; no fanfare was armed. -/
def onlyLost (s : State) (u : Nat) : State := noneActive (treeLost s u)

theorem tkLostBoth_of_unarmed {u : Fin 64} (idle : switching s = false) (held : holdover s = false)
    (fresh : (s.ta u).tkLost = false) (active : s.tkNone = false) (unarmed : ∀ j < 8, slotArmed s j = false) :
    exec (.tkLostBoth u) s = .next (onlyLost s u) := by
  rw [tkLostBoth_of_active idle held fresh active, onlyLost,
    loseArmed_of_none fun j hj => slotArmed_treeLost.trans (unarmed j hj)]

theorem within_onlyLost : Within [.regs, .agents, .log, .time] [] [u] [tkReg Off.TK_STAT] s (onlyLost s u) :=
  (within_treeLost.mono (by simp) (List.Subset.refl _) (List.Subset.refl _) (List.nil_subset _)).trans
    (within_noneActive (by simp) (by simp))

theorem onlyLost_of_room (room : s.evq.length < 16) : onlyLost s u =
    { s with regs := (onlyLost s u).regs, agents := (onlyLost s u).agents, evq := s.evq ++ [lostBothEvent s u],
             tkNone := true, calDue := 64 } := by
  simp only [onlyLost, treeLost_of_room room]
  rfl

end

/-- Settles O38: each command leaves a state written out above, a switchover, its refusal, the loss, the return or the
alarm, and what the clause asks is read off it. A fanfare lost while armed goes through `loseSlot`, whose targets discard
their entries one NI after the other. -/
theorem timeKeepersSwitch : Obligations.TimeKeepersSwitch := by
  unfold Obligations.TimeKeepersSwitch
  refine ⟨?asked, ?refused, ?beat, ?done, ?unasked, ?lost, ?standbyBack, ?firstBack, ?alarm, ?wakes, ?lostArmed⟩
  case asked =>
    intro s standby active idle _ unbraced
    have runs : exec .tkSwitchWrite s = .next (startSwitch (switchWritten s) false) := by
      rw [exec_tkSwitchWrite unbraced, askSwitch_of_standby (stbyOk_switchWritten.trans standby) active
        (switching_switchWritten.trans idle)]
    exact ⟨_, runs, reg_tkStat_startSwitch.trans (congrArg (W.put · 2 1 1) reg_tkStat_switchWritten),
      (State.setReg_ne (by decide)).trans reg_tkCtrl_switchWritten,
      ((within_switchWritten (ps := [.regs, .time]) (rs := []) (as := []) (by simp) (by simp)).trans
        (within_startSwitch (by simp) (by simp))).regs, rfl⟩
  case refused =>
    intro s out room _ unbraced
    have runs : exec .tkSwitchWrite s = .next (logGlobal (switchWritten s) EvC.SWITCH_REFUSED []) := by
      rw [exec_tkSwitchWrite unbraced, askSwitch_refused (out.imp_left stbyOk_switchWritten.trans)]
    have kept : Within [.log, .regs] [] [] [tkReg Off.TK_CTRL] s (logGlobal (switchWritten s) EvC.SWITCH_REFUSED []) :=
      (within_switchWritten (by simp) (by simp)).trans (within_logGlobal (by simp))
    exact ⟨_, runs, logs_logGlobal room rfl rfl inst_switchWritten, reg_logGlobal.trans reg_tkCtrl_switchWritten,
      kept.regs, kept.pieces⟩
  case beat =>
    intro s there active idle
    exact ⟨_, beatMissing_of_standby there active idle, reg_tkStat_startSwitch,
      (within_startSwitch (ps := [.regs, .time]) (rs := []) (as := []) (by simp) (by simp)).regs, rfl⟩
  case done =>
    intro s on asked room
    have runs : exec .switchoverDone s = .next (logGlobal (switchedOver s) EvC.TK_SWITCH []) := by
      rw [switchoverDone_of_switching on, switchDone_of_asked asked]
    have kept : Within [.regs, .log, .time] [] [] switchRegs s (logGlobal (switchedOver s) EvC.TK_SWITCH []) :=
      (within_switchedOver (by simp) (List.Subset.refl _)).trans (within_logGlobal (by simp))
    refine ⟨_, runs, reg_logGlobal.trans reg_tkStat_switchedOver, reg_logGlobal.trans reg_tkSwCnt_switchedOver,
      logs_logGlobal room rfl rfl inst_switchedOver, kept.regs, ?_⟩
    rw [logGlobal_of_room (show (switchedOver s).evq.length < 16 from room)]
    rfl
  case unasked =>
    intro s on unasked none_ first
    have runs : exec .switchoverDone s = .next (unaskedOver s) := by
      rw [switchoverDone_of_switching on, switchDone_of_unasked unasked none_ first]
    obtain ⟨ended, dead, active, ft, fc⟩ := times_unaskedOver (s := s)
    exact ⟨_, runs, reg_tkStat_unaskedOver, reg_tkSwCnt_unaskedOver, rfl, ended, rfl, dead, active, ft, fc,
      within_unaskedOver.regs, within_unaskedOver.pieces⟩
  case lost =>
    intro u s idle held fresh unarmed active room
    refine ⟨_, tkLostBoth_of_unarmed idle held fresh active unarmed, ?_, rfl, ?_, ?_, ?_, within_onlyLost.regs, ?_⟩
    · exact ta_treeLost
    · exact reg_tkStat_noneActive.trans (congrArg (W.put · 1 1 0) reg_treeLost)
    · rw [onlyLost_of_room room]
      rfl
    · exact fun v hv => within_onlyLost.agents v (by simpa using hv)
    · rw [onlyLost_of_room room]
  case standbyBack =>
    intro k s alive held idle active other out measured
    have runs : exec (.tkStbyOk k) s = .next (setTk (cameBack s k) 1 true) := by
      rw [tkStbyOk_of_ready alive held idle measured (.inr ⟨other, out⟩), tkReady_of_active active]
    exact ⟨_, runs, State.setReg_same, ((within_cameBack (ps := [.regs, .time]) (rs := []) (as := []) (by simp)).trans
      (within_setBit (by simp) (List.mem_singleton_self _))).regs, tkBack_cameBack, rfl⟩
  case firstBack =>
    intro k s alive held idle none_ measured
    refine ⟨_, tkStbyOk_of_none alive held idle measured none_, reg_firstActive.trans State.setReg_same,
      fun a ha => reg_firstActive.trans (State.setReg_ne (by simpa using ha)), ?_, ?_, ?_⟩
    · exact List.all_eq_true.2 fun u hu => decide_eq_true (ta_treesBack (List.mem_range.1 hu))
    · rw [tkBack_firstActive]
      exact tkBack_cameBack
    · obtain ⟨agents, same⟩ := firstActive_eq (s := s) (k := k)
      rw [same]
      rfl
  case alarm =>
    intro s armed due rail stays
    have runs : exec .alarm s = .next (alarmFired s) := by rw [alarm_of_due armed due, fireAlarm_of_up rail stays]
    have kept : Within [.regs] [] [] alarmRegs s (alarmFired s) := within_alarmFired (by simp) (List.Subset.refl _)
    exact ⟨_, runs, reg_alarmStat_alarmFired, reg_alarmCtrl_alarmFired, kept.regs, kept.pieces⟩
  case wakes =>
    intro s armed due rail retained wakes
    have runs : exec .alarm s = .next (startWake (alarmFired s) 1) := by
      rw [alarm_of_due armed due, fireAlarm_of_retention rail retained wakes]
    have kept : Within [.regs] [] [] (alarmRegs ++ wakeRegs) s (startWake (alarmFired s) 1) :=
      (within_alarmFired (by simp) (List.subset_append_left _ _)).trans
        (within_startWake (by simp) (List.subset_append_right _ _))
    have alarmKept {a : Nat} (ha : a ∉ wakeRegs) : (startWake (alarmFired s) 1).reg a = (alarmFired s).reg a :=
      (within_startWake (ps := [.regs]) (rs := []) (as := []) (by simp) (List.Subset.refl _)).regs a ha
    obtain ⟨cause, ftH, ftL⟩ := startWake_noted (s := alarmFired s) (n := 1)
    exact ⟨_, runs, (alarmKept (by decide)).trans reg_alarmStat_alarmFired,
      (alarmKept (by decide)).trans reg_alarmCtrl_alarmFired, cause.trans (by decide), ftH, ftL, fstate_startWake,
      kept.regs, kept.pieces⟩
  case lostArmed =>
    intro u k s idle held fresh active armed others
    exact ⟨_, tkLostBoth_of_armed idle held fresh active k.isLt armed others, rfl, rfl, ta_bothLost,
      slotState_bothLost_same k.isLt, reason_bothLost k.isLt, reg_abortCnt_bothLost, launches_bothLost,
      fun _ _ => hold_bothLost, fun _ sent _ h5 pop room holds => strobes_bothLost sent h5 pop room holds,
      fun room => take_evq_of_treeLost_prefix room evq_prefix_loseSlot, fun _ hj ne => slotState_bothLost_ne hj ne,
      fun v hv => within_bothLost.agents v (by simpa using hv), slotsBut_bothLost, within_bothLost.pieces⟩

end Sys2Proof.Machine

/-! Proofs of the family of 09_opcon_and_mailboxes: the two statements that a state of the model contradicts (O46 and O47). -/

namespace Sys2Proof.Machine

/-! ### A write of MBX_SESSION while a SESSION_RESET waits (R222, R231) -/

/-- A SESSION_RESET whose doorbell has been applied stands in mailbox 3; firmware has read its header and has not acted on
it. -/
def resetQueued : State :=
  { normalFirmware.setReg (mbxReg (Off.MBX_STAT 3)) 1 with hdrs := [(3, W.at 24 12 1)] }

theorem exec_mbxSession {s : State} :
    exec .mbxSession s = .next (poke s (hrpNode s) (mbxReg Off.MBX_SESSION) 1) := rfl

/-- Refutes O46: a SESSION_RESET takes effect at its doorbell, and a write of MBX_SESSION that comes after it is merged into
its request (R231); the clause on the first write of MBX_SESSION leaves a SESSION_RESET that waits out, and says that the
request is that of the write alone. -/
theorem not_mailboxes : ¬ Obligations.Mailboxes := by
  unfold Obligations.Mailboxes
  rintro ⟨-, -, -, firstWrite, -⟩
  obtain ⟨t, ht, -, -, only⟩ := firstWrite resetQueued (by decide +kernel)
  have same : poke resetQueued (hrpNode resetQueued) (mbxReg Off.MBX_SESSION) 1 = t :=
    Host.Outcome.next.inj (exec_mbxSession.symm.trans ht)
  have merged : (poke resetQueued (hrpNode resetQueued) (mbxReg Off.MBX_SESSION) 1).session.map Session.cmds = some [3] := by
    decide +kernel
  have alone : t.session.map Session.cmds = some [] := congrArg (fun u => u.session.map Session.cmds) only
  rw [same, alone] at merged
  exact absurd merged (by decide)

/-! ### A takeover with a poisoned header unread (R142, R222, R270) -/

/-- Core 0 has trapped while a handover to core 1 was due; mailbox 3 has been queued since, so that its header has not been
read (R222), and the word of the header is poisoned. -/
def trappedWithUnread : State :=
  { (((normalFirmware.setReg (opcReg Off.OPC_FW_STAT) (W.at 24 2 3 ||| W.at 27 1 1)).setReg (mbxReg Off.MBX_AVAIL)
      3).setReg (mbxReg (Off.MBX_STAT 3)) 1).setCore 0 { run := false, dead := 2 } |>.setCore 1 { run := true } with
    poison := [mbxArea 0 3], imgReady := some 1 }

theorem takeover_of_failed {s : State} (acts : stbyActs s = true) (free : (s.core (activeCore s)).halted = false)
    (mode : 2 ≤ fwMode s) (up : s.inReset = false) (failed : failCause s ≠ 0) : exec .takeover s = .next (takeOver s) := by
  simp [exec, execTakeover, acts, free, mode, up, failed, when_]

/-- Refutes O47: at the end of a takeover firmware reads the headers that are still unread (R222, R270), and a poisoned one
takes a free word (R142); the clause on a takeover says that every header is the word as it stands in the command area, and
that the count of free words is kept. -/
theorem not_opconCores : ¬ Obligations.OpconCores := by
  unfold Obligations.OpconCores
  rintro ⟨-, -, -, -, takeover, -⟩
  have acts : stbyActs trappedWithUnread = true := by decide +kernel
  have free : (trappedWithUnread.core (activeCore trappedWithUnread)).halted = false := by decide +kernel
  have mode : 2 ≤ fwMode trappedWithUnread := by decide +kernel
  have failed : failCause trappedWithUnread ≠ 0 := by decide +kernel
  obtain ⟨t, ht, -, -, -, -, -, -, -, -, -, -, -, -, -, only⟩ :=
    takeover trappedWithUnread acts (by decide +kernel) free mode (by decide +kernel) failed (by decide +kernel)
      (by decide +kernel) (by decide +kernel) (by decide +kernel) (by decide +kernel)
  have same : takeOver trappedWithUnread = t :=
    Host.Outcome.next.inj ((takeover_of_failed acts free mode (by decide +kernel) failed).symm.trans ht)
  have drawn : (takeOver trappedWithUnread).freeN = 1 := by decide +kernel
  have kept : t.freeN = trappedWithUnread.freeN := (congrArg State.freeN only :)
  rw [same, kept] at drawn
  exact absurd drawn (by decide +kernel)

end Sys2Proof.Machine

/-! Proofs of the family of 10_firmware_commands: the three statements that a state of the model contradicts (O44, O49 and
O50). -/

namespace Sys2Proof.Machine

/-! ### PWR_READ of a tile on its way to Doze (R252, R311) -/

/-- PWR_READ of tile 9, from mailbox 5. -/
def powerReadCmd : Running := { mbx := 5, copy := 0, hdr := W.at 24 12 0x704, args := [9] }
/-- Firmware runs that command; tile 9 has begun its entry to Doze, and its clamps have not engaged. -/
def enteringDoze : State := { normalFirmware.setTa 9 { entering := some 0 } with running := some powerReadCmd }

/-- Refutes O44: a tile on its way to Doze shows STATE 4 (R311), so PWR_READ answers 4; the clause on it gives the state that
the tile agent keeps, which is still Run. -/
theorem not_commandsThatRead : ¬ Obligations.CommandsThatRead := by
  unfold Obligations.CommandsThatRead
  rintro ⟨-, -, -, -, -, -, -, -, powerRead, -⟩
  obtain ⟨t, ht, answer, -⟩ := powerRead powerReadCmd enteringDoze (by decide +kernel) (by decide +kernel)
  have runs : exec .pwrRead enteringDoze = .next (pwrRead enteringDoze powerReadCmd) :=
    fwCmd_of_running (op := 0x704) (s := enteringDoze) (r := powerReadCmd) (by decide +kernel) (by decide +kernel)
      (by decide +kernel) (by decide +kernel) (by decide +kernel)
  have same : pwrRead enteringDoze powerReadCmd = t := Host.Outcome.next.inj (runs.symm.trans ht)
  have shows : (pwrRead enteringDoze powerReadCmd).running.map (fun x => wordAt x.data 0) = some 4 := by decide +kernel
  have keeps : t.running.map (fun x => wordAt x.data 0) = some (W.at 0 3 (tileState enteringDoze 9)) :=
    congrArg (Option.map fun x => wordAt x.data 0) answer
  rw [same, keeps] at shows
  exact absurd shows (by decide +kernel)

/-! ### UNIT_ENABLE of the bridge's NI while all its handles are granted (R97, R246, R376) -/

/-- UNIT_ENABLE of NI(56, 6) with EN = 1, from mailbox 5. -/
def enableBridgeCmd : Running := { mbx := 5, copy := 0, hdr := W.at 24 12 0x104, args := [454, 1] }
/-- A grant at the bridge's NI whose cell has not been delivered; its handle is none of the 16 that the bridge publishes. -/
def bridgeGrant (i : Nat) : Grant := { handle := 16 + i, src := 3, sc := 0 }
/-- Firmware runs that command; the bridge is on, its NI is disabled, and 2,048 handles are granted there. -/
def bridgeNiDisabled : State :=
  { ((normalFirmware.setReg (extReg Off.EXT_CTRL) 1).setReg (niReg 398 Off.NI_CTRL) 0xE).setNi 398
      { grants := (List.range 2048).map bridgeGrant } with running := some enableBridgeCmd }

/-- Refutes O49: once its NI is enabled the bridge publishes its handles anew (R376); a push beyond 2,048 handles, of which
those granted before count, sets NI_RSV_ERR (R97), and the clause on a rise of EN says that no such register changes. -/
theorem not_topologyAndFanfareCommands : ¬ Obligations.TopologyAndFanfareCommands := by
  unfold Obligations.TopologyAndFanfareCommands
  rintro ⟨-, -, -, -, -, -, -, -, enabled, -⟩
  obtain ⟨t, ht, -, -, -, -, -, only⟩ := enabled 398 enableBridgeCmd bridgeNiDisabled (by decide +kernel)
    (by decide +kernel) (by decide +kernel) (by decide +kernel) (by decide +kernel) (by decide +kernel)
  have runs : exec .unitEnable bridgeNiDisabled = .next (unitEnable bridgeNiDisabled enableBridgeCmd) :=
    fwCmd_of_running (op := 0x104) (s := bridgeNiDisabled) (r := enableBridgeCmd) (by decide +kernel) (by decide +kernel)
      (by decide +kernel) (by decide +kernel) (by decide +kernel)
  have same : unitEnable bridgeNiDisabled enableBridgeCmd = t := Host.Outcome.next.inj (runs.symm.trans ht)
  have raised : (unitEnable bridgeNiDisabled enableBridgeCmd).reg (niReg 398 Off.NI_RSV_ERR) = 1 := by decide +kernel
  have kept : t.reg (niReg 398 Off.NI_RSV_ERR) = bridgeNiDisabled.reg (niReg 398 Off.NI_RSV_ERR) :=
    only _ (by decide)
  rw [same, kept] at raised
  exact absurd raised (by decide +kernel)

/-! ### PWR_TILE Run while low gear waits for the end of brace (R252, R295, R308) -/

/-- PWR_TILE of tile 9 with STATE Run, from mailbox 5. -/
def permitRunCmd : Running := { mbx := 5, copy := 0, hdr := W.at 24 12 0x701, args := [9, 0] }
/-- Firmware runs that command in brace; tile 9 runs at full gear, and its transition to low gear waits for the end of
brace. -/
def lowGearDue : State :=
  { (normalFirmware.setReg (pwrReg Off.PWR_STAT) (W.at 2 1 1)).setTa 9 { vtDue := some false } with
    running := some permitRunCmd }

/-- Refutes O50: TARGET Run at a tile in full gear ends a transition to low gear that is due there; the clause on a permitted
state says that no tile agent changes. -/
theorem not_powerTestAndUpdateCommands : ¬ Obligations.PowerTestAndUpdateCommands := by
  unfold Obligations.PowerTestAndUpdateCommands
  rintro ⟨permit, -⟩
  obtain ⟨t, ht, -, -, -, -, -, -, -, only⟩ := permit 9 0 permitRunCmd lowGearDue (by decide +kernel) (by decide +kernel)
    (by decide +kernel) (by decide +kernel) (by decide +kernel) (by decide +kernel) (by decide +kernel) (by decide +kernel)
    (by decide +kernel) (by decide +kernel)
  have runs : exec .pwrTileSet lowGearDue = .next (pwrTileSet lowGearDue permitRunCmd) :=
    fwCmd_of_running (op := 0x701) (s := lowGearDue) (r := permitRunCmd) (by decide +kernel) (by decide +kernel)
      (by decide +kernel) (by decide +kernel) (by decide +kernel)
  have same : pwrTileSet lowGearDue permitRunCmd = t := Host.Outcome.next.inj (runs.symm.trans ht)
  have ended : ((pwrTileSet lowGearDue permitRunCmd).ta 9).vtDue = none := by decide +kernel
  have kept : (t.ta 9).vtDue = (lowGearDue.ta 9).vtDue := congrArg (fun x => (x.ta 9).vtDue) only
  rw [same, kept] at ended
  exact absurd ended (by decide +kernel)

end Sys2Proof.Machine

/-! Proofs of the family of 11_live_change_and_repair: scrub, row sparing and the standby bank (O31), and the statement that a
state of the model contradicts (O55). -/

namespace Sys2Proof.Machine

section
variable {s t r : State} {ps : List Piece} {rs as ls : List Nat} {u k b o o' off row j : Nat} {w v : W} {m : Mig} {x y : Tmc}
  {f : Tmc → Tmc} {l : List W}

/-! ### The registers of a controller (R338) -/

@[simp] theorem tmemReg_inj : tmemReg u o = tmemReg u o' ↔ o = o' := by simp [tmemReg]

@[simp] theorem tmemSpare_inj : Off.TMEM_SPARE k = Off.TMEM_SPARE j ↔ k = j := by simp [Off.TMEM_SPARE]

/-- A register of the controller is none of the tile agent. -/
theorem tmemReg_ne_taReg (ho : o < 0x5800) : tmemReg u o ≠ taReg u o' := by
  unfold tmemReg taReg
  omega

theorem tmemReg_not_mem_crossingRegs (ho : o < 0x5800) : tmemReg u o ∉ crossingRegs u := by
  simp [crossingRegs, tmemReg_ne_taReg ho]

/-- The spare entries stand behind the other registers of migrations and scrub. -/
theorem tmemReg_ne_spare (ho : o < 0x40) : tmemReg u o ≠ tmemReg u (Off.TMEM_SPARE k) := by
  simp only [ne_eq, tmemReg_inj, Off.TMEM_SPARE]
  omega

/-! ### The part of a controller -/

theorem Within.setTmc (hp : .tmcs ∈ ps) : Within ps rs as ls s (s.setTmc u x) := by
  refine ⟨fun p hn => ?_, fun _ _ => State.setTmc_rt, fun _ _ => State.setTmc_ta, fun _ _ => State.setTmc_reg⟩
  cases p with
  | tmcs => exact absurd hp hn
  | mem => exact fun _ => ⟨rfl, rfl⟩
  | _ => simp [pieceKept]

theorem tmcsBut_modTmc : tmcsBut u s (modTmc s u f) := fun _ hv => State.setTmc_ne hv

/-- From `s` to `t` only the registers `ls` change, and the controller of tile u, which becomes `x`. -/
structure Becomes (u : Nat) (x : Tmc) (ls : List Nat) (s t : State) : Prop where
  within : Within [.regs, .tmcs] [] [] ls s t
  here : t.tmc u = x
  others : tmcsBut u s t

theorem Becomes.ofRegs (h : Within [.regs] [] [] ls s t) : Becomes u (s.tmc u) ls s t :=
  have kept := h.pieces .tmcs (by simp)
  ⟨h.mono (by simp) (List.Subset.refl _) (List.Subset.refl _) (List.Subset.refl _), kept u, fun v _ => kept v⟩

theorem Becomes.modTmc : Becomes u (f (s.tmc u)) ls s (modTmc s u f) :=
  ⟨Within.setTmc (by simp), State.setTmc_same, tmcsBut_modTmc⟩

theorem Becomes.trans (h : Becomes u x ls s t) (g : Becomes u y ls t r) : Becomes u y ls s r :=
  ⟨h.within.trans g.within, g.here, fun v hv => (g.others v hv).trans (h.others v hv)⟩

theorem Becomes.thenSetReg (h : Becomes u x ls s t) {a : Nat} (ha : a ∈ ls) : Becomes u x ls s (t.setReg a v) :=
  h.trans (h.here ▸ Becomes.ofRegs (Within.setReg (by simp) ha))

theorem Becomes.thenModTmc (h : Becomes u x ls s t) : Becomes u (f x) ls s (Machine.modTmc t u f) :=
  h.trans (h.here ▸ Becomes.modTmc)

/-! ### A corrected word (R337, R339) -/

/-- An event of a controller changes the log, or the registers of the crossing into the tile agent. -/
theorem Within.logController {c : EvCode} {data : List W} (hc : tmemEvent c.code = true) (hp : .log ∈ ps) (hr : .regs ∈ ps)
    (hl : crossingRegs u ⊆ ls) : Within ps rs as ls s (logTile s u c data) := by
  by_cases router : rtrEvent c.code = true
  · exact Within.logRouter router hp hr hl
  simp only [logTile, router, hc, if_true, Bool.false_eq_true, if_false, logCross]
  split
  · exact Within.pushEv hp
  · have lost : Within ps rs as ls s
        (setBit (incFldSat s (taReg u Off.CDC_TA_LOST) 18 18) (taReg u Off.CDC_TA_STAT) 1 true) :=
      (Within.setReg hr (hl (by simp [crossingRegs]))).trans (Within.setReg hr (hl (by simp [crossingRegs])))
    simp only [loseCrossing, overrun]
    split
    · exact lost
    · exact lost.trans (Within.pushEv hp)

theorem tmc_askRow : ∃ l, (askRow s u b row).tmc u = { s.tmc u with rowDue := (s.tmc u).rowDue ++ l } := by
  simp only [askRow, modTmc, State.setTmc_same]
  split
  · exact ⟨[], by simp⟩
  · exact ⟨[(b, row)], rfl⟩

/-- The registers that an error in a row may write. -/
def rowRegs (u : Nat) : List Nat := tmemReg u Off.TMEM_ROW_TRK :: crossingRegs u

/-- The row's tracker counts, and at the threshold an event is logged. -/
theorem trackRow_cases : ∃ t, Within [.regs, .log] [] [] (rowRegs u) s t ∧
    (trackRow s u b row = t ∨ trackRow s u b row = askRow t u b row) := by
  have counted {v : W} : Within [.regs, .log] [] [] (rowRegs u) s (s.setReg (tmemReg u Off.TMEM_ROW_TRK) v) :=
    Within.setReg (by simp) (by simp [rowRegs])
  simp only [trackRow]
  split
  · exact ⟨_, counted.trans (Within.logController rfl (by simp) (by simp) (by simp [rowRegs])), .inr rfl⟩
  · exact ⟨_, counted, .inl rfl⟩

theorem within_trackRow : Within [.regs, .log, .tmcs] [] [] (rowRegs u) s (trackRow s u b row) := by
  obtain ⟨t, counted, same | asked⟩ := trackRow_cases (s := s) (u := u) (b := b) (row := row)
  · rw [same]
    exact counted.mono (by simp) (by simp) (by simp) (by simp)
  · rw [asked]
    exact (counted.mono (by simp) (by simp) (by simp) (by simp)).trans (Within.setTmc (by simp))

theorem tmcsBut_trackRow : tmcsBut u s (trackRow s u b row) := by
  obtain ⟨t, counted, same | asked⟩ := trackRow_cases (s := s) (u := u) (b := b) (row := row)
  · exact fun v _ => same ▸ counted.pieces .tmcs (by simp) v
  · exact fun v hv => asked ▸ (tmcsBut_modTmc v hv).trans (counted.pieces .tmcs (by simp) v)

/-- More rows of the tile may be due for a migration afterwards. -/
theorem tmc_trackRow : ∃ l, (trackRow s u b row).tmc u = { s.tmc u with rowDue := (s.tmc u).rowDue ++ l } := by
  obtain ⟨t, counted, same | asked⟩ := trackRow_cases (s := s) (u := u) (b := b) (row := row)
  · exact ⟨[], by rw [same, counted.pieces .tmcs (by simp) u, List.append_nil]⟩
  · rw [asked, ← counted.pieces .tmcs (by simp) u]
    exact tmc_askRow

/-- A corrected word of tile u counts, and so does its row. -/
theorem noteCe_eq : noteCe s u off =
    trackRow (incWrap s (tmemReg u Off.TMEM_CE_CNT)) u (bankOf off) (rowOfWord off) := rfl

/-- The registers that a corrected word may write. -/
def ceRegs (u : Nat) : List Nat := tmemReg u Off.TMEM_CE_CNT :: rowRegs u

theorem within_noteCe : Within [.regs, .log, .tmcs] [] [] (ceRegs u) s (noteCe s u off) :=
  (Within.setReg (by simp) (by simp [ceRegs])).trans
    (within_trackRow.mono (by simp) (by simp) (by simp) (by simp [ceRegs]))

theorem reg_ceCnt_noteCe :
    (noteCe s u off).reg (tmemReg u Off.TMEM_CE_CNT) = s.reg (tmemReg u Off.TMEM_CE_CNT) + 1 := by
  rw [noteCe_eq, within_trackRow.regs _ (by simp [rowRegs, tmemReg_not_mem_crossingRegs, Off.TMEM_CE_CNT, Off.TMEM_ROW_TRK]),
    incWrap, State.setReg_same]

theorem tmcsBut_noteCe : tmcsBut u s (noteCe s u off) := fun v hv => (tmcsBut_trackRow v hv).trans State.setReg_tmc

theorem tmc_noteCe : ∃ l, (noteCe s u off).tmc u = { s.tmc u with rowDue := (s.tmc u).rowDue ++ l } := by
  obtain ⟨l, due⟩ := tmc_trackRow (s := incWrap s (tmemReg u Off.TMEM_CE_CNT)) (u := u) (b := bankOf off)
    (row := rowOfWord off)
  refine ⟨l, ?_⟩
  rw [noteCe_eq, due, incWrap, State.setReg_tmc]

/-! ### The scrub walk (R338) -/

/-- The place of the walk. -/
abbrev scrubPos (s : State) (u : Nat) : Nat := getFld s (tmemReg u Off.TMEM_SCRUB_STAT) 0 17

theorem exec_scrub {u : Fin 64} {e : MemErr} (on : regBit s (tmemReg u Off.TMEM_ECC_CFG) 24 = true)
    (doze : tileState s u ≠ 2) (off : tileState s u ≠ 3) : exec (.scrub u e) s = .next (scrubOne s u e) := by
  simp [exec, execScrub, when_, on, doze, off]

/-- The last place of the walk is behind the scrubber: a pass counts, and the row tracker clears (R339). -/
def scrubPassed (s : State) (u : Nat) : State :=
  (incFld (setFld s (tmemReg u Off.TMEM_SCRUB_STAT) 0 17 0) (tmemReg u Off.TMEM_SCRUB_STAT) 17 19).setReg
    (tmemReg u Off.TMEM_ROW_TRK) 0

/-- The walk goes on by one place after a read that leaves `t`, or starts again and counts the pass. -/
def scrubNext (s t : State) (u : Nat) : State :=
  if scrubPos s u + 1 < scrubWords then setFld t (tmemReg u Off.TMEM_SCRUB_STAT) 0 17 (scrubPos s u + 1)
  else scrubPassed t u

/-- A good word that reads clean leaves nothing. -/
theorem scrubOne_clean (good : scrubGood s u (scrubPos s u) = true) : scrubOne s u .clean = scrubNext s s u := by
  unfold scrubGood at good
  simp only [scrubOne, scrubNext]
  cases place : scrubTarget s u (scrubPos s u) with
  | none => rfl
  | idle b row => rfl
  | word off =>
    rw [place] at good
    have sound : isPoison s (tmemAddr u off) = false := by simpa using good
    simp only [tmemRead, sound, Bool.false_eq_true, if_false]
    rfl

theorem scrubOne_ce (place : scrubTarget s u (scrubPos s u) = .word off) (sound : isPoison s (tmemAddr u off) = false) :
    scrubOne s u .ce = scrubNext s (noteCe s u off) u := by
  simp only [scrubOne, scrubNext, place, tmemRead, sound, Bool.false_eq_true, if_false]
  rfl

theorem scrubNext_of_lt (more : scrubPos s u + 1 < 122880) :
    scrubNext s t u = setFld t (tmemReg u Off.TMEM_SCRUB_STAT) 0 17 (scrubPos s u + 1) := if_pos more

/-- The registers that a corrected word of the walk may write. -/
def scrubCeRegs (u : Nat) : List Nat :=
  [tmemReg u Off.TMEM_SCRUB_STAT, tmemReg u Off.TMEM_ROW_TRK, tmemReg u Off.TMEM_CE_CNT, taReg u Off.CDC_TA_STAT,
   taReg u Off.CDC_TA_LOST]

theorem within_walked_noteCe : Within [.regs, .log, .tmcs] [] [] (scrubCeRegs u) s
    (setFld (noteCe s u off) (tmemReg u Off.TMEM_SCRUB_STAT) 0 17 j) :=
  (within_noteCe.mono (List.Subset.refl _) (List.Subset.refl _) (List.Subset.refl _)
    (by simp [ceRegs, rowRegs, crossingRegs, scrubCeRegs])).trans (Within.setReg (by simp) (by simp [scrubCeRegs]))

theorem reg_scrubStat_noteCe :
    (noteCe s u off).reg (tmemReg u Off.TMEM_SCRUB_STAT) = s.reg (tmemReg u Off.TMEM_SCRUB_STAT) :=
  within_noteCe.regs _ (by
    simp [ceRegs, rowRegs, tmemReg_not_mem_crossingRegs, Off.TMEM_SCRUB_STAT, Off.TMEM_CE_CNT, Off.TMEM_ROW_TRK])

theorem scrubNext_of_last (last : scrubPos s u + 1 = 122880) : scrubNext s t u = scrubPassed t u :=
  if_neg (by simp [last, scrubWords])

theorem within_scrubPassed :
    Within [.regs] [] [] [tmemReg u Off.TMEM_SCRUB_STAT, tmemReg u Off.TMEM_ROW_TRK] s (scrubPassed s u) :=
  ((Within.setReg (by simp) (by simp)).trans (Within.setReg (by simp) (by simp))).trans (Within.setReg (by simp) (by simp))

theorem reg_scrubStat_scrubPassed : (scrubPassed s u).reg (tmemReg u Off.TMEM_SCRUB_STAT) =
    ((s.reg (tmemReg u Off.TMEM_SCRUB_STAT)).put 0 17 0).put 17 19
      (getFld s (tmemReg u Off.TMEM_SCRUB_STAT) 17 19 + 1) := by
  rw [scrubPassed, State.setReg_ne (by simp [Off.TMEM_SCRUB_STAT, Off.TMEM_ROW_TRK]), incFld,
    getFld_setFld_apart (by decide), setFld, State.setReg_same, setFld, State.setReg_same]

/-! ### A migration starts, or waits (R265, R266, R285) -/

/-- The migration m runs. -/
def migRuns (s : State) (u : Nat) (m : Mig) : State :=
  (modTmc s u (fun x => { x with mig := some { m with since := s.fc } })).setReg (tmemReg u Off.TMEM_MIG_STAT)
    (W.at 0 1 1 ||| W.at 1 1 (b2n m.bank))

theorem startMig_of_idle (free : (s.tmc u).mig = none) (runs : (s.tmc u).session = false ∨ m.bank = true) :
    startMig s u m = migRuns s u m := by
  obtain h | h := runs <;> simp [startMig, migRuns, free, h]

theorem Becomes.runs (h : Becomes u x ls s t) (hl : tmemReg u Off.TMEM_MIG_STAT ∈ ls) :
    Becomes u { x with mig := some { m with since := t.fc } } ls s (migRuns t u m) :=
  (h.thenModTmc (f := fun x => { x with mig := some { m with since := t.fc } })).thenSetReg hl

theorem reg_migStat_migRuns :
    (migRuns s u m).reg (tmemReg u Off.TMEM_MIG_STAT) = if m.bank = true then 3 else 1 := by
  rw [migRuns, State.setReg_same]
  cases m.bank <;> rfl

theorem reg_spare_migRuns : (migRuns s u m).reg (tmemReg u (Off.TMEM_SPARE k)) = s.reg (tmemReg u (Off.TMEM_SPARE k)) :=
  State.setReg_ne (tmemReg_ne_spare (by decide)).symm

/-- The migration m waits. -/
def migWaits (s : State) (u : Nat) (m : Mig) : State := modTmc s u (fun x => { x with migWait := x.migWait ++ [m] })

/-- A row migration waits for the one that runs, and for the end of a bank session. -/
theorem startMig_of_busy (busy : (s.tmc u).mig.isSome = true ∨ (s.tmc u).session = true) (hm : m.bank = false) :
    startMig s u m = migWaits s u m := by
  obtain ⟨n, running⟩ | session := busy.imp_left Option.isSome_iff_exists.1
  · simp [startMig, migWaits, running]
  · simp [startMig, migWaits, session, hm]

/-- The word of an entry of TMEM_SPARE that is still to be valid. -/
def entryWordOf (b row : Nat) : W := W.at 0 3 b ||| W.at 3 7 row

/-- A word with bank and row is legal as it stands. -/
theorem entryWordOf_legal : ∀ (b : Fin 6) (row : Fin 128),
    (entryWordOf b row).fld 0 3 = b ∧ (entryWordOf b row).bit 10 = false ∧
    W.at 0 3 (clampTo 0 5 b) ||| W.at 3 8 ((entryWordOf b row).fld 3 8) = entryWordOf b row := by decide +kernel

theorem writeSpare_of_free {b : Fin 6} {row : Fin 128} (free : (s.reg (tmemReg u (Off.TMEM_SPARE k))).bit 10 = false) :
    writeSpare s u k (entryWordOf b row) =
      startMig (s.setReg (tmemReg u (Off.TMEM_SPARE k)) (entryWordOf b row)) u { bank := false, b := b, spare := k } := by
  obtain ⟨bank, valid, legal⟩ := entryWordOf_legal b row
  simp [writeSpare, bank, legal, free, valid]

/-- A row of the tile is not due any more. -/
def rowTaken (b row : Nat) (x : Tmc) : Tmc := { x with rowDue := x.rowDue.filter (fun e => decide (e ≠ (b, row))) }

/-- The entry names the row, whose migration is not due any more. -/
def rowNamed (s : State) (u k b row : Nat) : State :=
  (modTmc s u (rowTaken b row)).setReg (tmemReg u (Off.TMEM_SPARE k)) (entryWordOf b row)

theorem exec_rowMigration {u k : Fin 64} {b : Fin 6} {row : Fin 128} (free : spareFree s u k = true)
    (due : (s.tmc u).rowDue.contains (b.val, row.val) = true) : exec (.rowMigration u k b row) s =
      .next (startMig (rowNamed s u k b row) u { bank := false, b := b, spare := k }) := by
  have unused : (s.reg (tmemReg u (Off.TMEM_SPARE k))).bit 10 = false := by
    simp only [spareFree, Bool.and_eq_true] at free
    obtain ⟨⟨⟨invalid, -⟩, -⟩, -⟩ := free
    simpa [regBit] using invalid
  have goes : exec (.rowMigration u k b row) s =
      .next (writeSpare (modTmc s u (rowTaken b row)) u k (entryWordOf b row)) := by
    have asked : (spareFree s u k && ((s.tmc u).rowDue.contains (b.val, row.val) || turnNames s u b row)) = true := by
      rw [free, due]
      rfl
    exact congrArg Host.Outcome.next (if_pos asked)
  exact goes.trans (congrArg Host.Outcome.next (writeSpare_of_free unused))

theorem becomes_rowNamed : Becomes u (rowTaken b row (s.tmc u)) (tmemReg u (Off.TMEM_SPARE k) :: ls) s
    (rowNamed s u k b row) :=
  Becomes.modTmc.thenSetReg (by simp)

theorem reg_rowNamed : (rowNamed s u k b row).reg (tmemReg u (Off.TMEM_SPARE k)) = entryWordOf b row := State.setReg_same

/-! ### Spare entries given up and restored (R266, R285) -/

/-- A spare entry in use for bank b is given up. -/
def givenUp (b : Nat) (w : W) : W := if w.bit 10 && decide (w.fld 0 3 = b) then 0 else w

/-- A spare entry gives way. -/
def clearSpare (u b k : Nat) (s : State) : State :=
  if regBit s (tmemReg u (Off.TMEM_SPARE k)) 10 && getFld s (tmemReg u (Off.TMEM_SPARE k)) 0 3 = b
  then s.setReg (tmemReg u (Off.TMEM_SPARE k)) 0 else s

theorem clearSpares_eq : clearSpares s u b = forEach (clearSpare u b) (List.range 64) s := rfl

theorem reg_clearSpare : (clearSpare u b j s).reg (tmemReg u (Off.TMEM_SPARE k)) =
    if k = j then givenUp b (s.reg (tmemReg u (Off.TMEM_SPARE k))) else s.reg (tmemReg u (Off.TMEM_SPARE k)) := by
  have cleared :
      clearSpare u b j s = s.setReg (tmemReg u (Off.TMEM_SPARE j)) (givenUp b (s.reg (tmemReg u (Off.TMEM_SPARE j)))) ∨
      clearSpare u b j s = s ∧ givenUp b (s.reg (tmemReg u (Off.TMEM_SPARE j))) = s.reg (tmemReg u (Off.TMEM_SPARE j)) := by
    by_cases used : ((s.reg (tmemReg u (Off.TMEM_SPARE j))).bit 10 &&
        decide ((s.reg (tmemReg u (Off.TMEM_SPARE j))).fld 0 3 = b)) = true
    · exact .inl ((if_pos used).trans (congrArg _ (if_pos used).symm))
    · exact .inr ⟨if_neg used, if_neg used⟩
  obtain wrote | ⟨kept, same⟩ := cleared <;> by_cases here : k = j
  · simp [wrote, here]
  · simp [wrote, here, State.setReg_ne]
  · subst here
    simp [kept, same]
  · simp [kept, here]

theorem givenUp_givenUp : givenUp b (givenUp b w) = givenUp b w := by
  by_cases h : (w.bit 10 && decide (w.fld 0 3 = b)) = true
  · have zero : givenUp b w = 0 := if_pos h
    rw [zero]
    exact ite_self _
  · have same : givenUp b w = w := if_neg h
    rw [same, same]

theorem reg_forEach_clearSpare {l : List Nat} : (forEach (clearSpare u b) l s).reg (tmemReg u (Off.TMEM_SPARE k)) =
    if k ∈ l then givenUp b (s.reg (tmemReg u (Off.TMEM_SPARE k))) else s.reg (tmemReg u (Off.TMEM_SPARE k)) := by
  induction l generalizing s with
  | nil => rfl
  | cons j l ih =>
    rw [forEach, ih, reg_clearSpare]
    by_cases here : k = j <;> by_cases later : k ∈ l <;> simp [here, later, givenUp_givenUp]

theorem reg_clearSpares (hk : k < 64) : (clearSpares s u b).reg (tmemReg u (Off.TMEM_SPARE k)) =
    givenUp b (s.reg (tmemReg u (Off.TMEM_SPARE k))) := by
  rw [clearSpares_eq, reg_forEach_clearSpare, if_pos (List.mem_range.2 hk)]

/-- The entries of the spare rows. -/
def spareRegs (u : Nat) : List Nat := (List.range 64).map fun k => tmemReg u (Off.TMEM_SPARE k)

theorem spareReg_mem (hk : k < 64) : tmemReg u (Off.TMEM_SPARE k) ∈ spareRegs u :=
  List.mem_map.2 ⟨k, List.mem_range.2 hk, rfl⟩

theorem not_mem_spareRegs (ho : o < 0x40) : tmemReg u o ∉ spareRegs u := by
  intro h
  obtain ⟨k, -, same⟩ := List.mem_map.1 h
  exact tmemReg_ne_spare ho same.symm

theorem within_clearSpares : Within [.regs] [] [] (spareRegs u) s (clearSpares s u b) := by
  rw [clearSpares_eq]
  refine Within.forEach fun k hk s => ?_
  unfold clearSpare
  split
  · exact Within.setReg (by simp) (spareReg_mem (List.mem_range.1 hk))
  · exact Within.refl

/-- With no migration waiting, an entry left out of the test is restored unless another row has taken it. -/
theorem restoreSpare_of_none (waits : (s.tmc u).migWait = []) : restoreSpare u w s =
    if regBit s (tmemReg u (Off.TMEM_SPARE (w.fld 11 6))) 10 = true then s
    else s.setReg (tmemReg u (Off.TMEM_SPARE (w.fld 11 6))) (W.at 0 11 (w.fld 0 11)) := by
  simp [restoreSpare, waits]

theorem within_restoreSpare : Within [.regs] [] [] (spareRegs u) s (restoreSpare u w s) := by
  simp only [restoreSpare]
  split
  · exact Within.refl
  · exact Within.setReg (by simp) (spareReg_mem W.fld_lt)

theorem within_restoreSpares : Within [.regs] [] [] (spareRegs u) s (forEach (restoreSpare u) l s) :=
  Within.forEach fun _ _ _ => within_restoreSpare

/-- What an entry holds once those left out of the test are restored. -/
def restored (l : List W) (k : Nat) (w : W) : W :=
  if w.bit 10 = true then w
  else match l.find? (fun e => decide (e.fld 11 6 = k)) with
    | some e => W.at 0 11 (e.fld 0 11)
    | none => w

theorem restored_of_absent (absent : ∀ e ∈ l, e.fld 11 6 ≠ k) : restored l k w = w := by
  have none_ : l.find? (fun e => decide (e.fld 11 6 = k)) = none := by simpa using absent
  simp [restored, none_]

theorem reg_forEach_restoreSpare (waits : (s.tmc u).migWait = []) (nodup : (l.map (fun w => w.fld 11 6)).Nodup) :
    (forEach (restoreSpare u) l s).reg (tmemReg u (Off.TMEM_SPARE k)) =
      restored l k (s.reg (tmemReg u (Off.TMEM_SPARE k))) := by
  induction l generalizing s with
  | nil => exact (restored_of_absent (by simp)).symm
  | cons w l ih =>
    obtain ⟨fresh, nodup⟩ := List.nodup_cons.1 nodup
    have waits' : ((restoreSpare u w s).tmc u).migWait = [] := by
      rw [within_restoreSpare.pieces .tmcs (by simp) u, waits]
    rw [forEach, ih waits' nodup, restoreSpare_of_none waits]
    by_cases here : w.fld 11 6 = k
    · subst here
      have absent : ∀ e ∈ l, e.fld 11 6 ≠ w.fld 11 6 := fun e he same => fresh (List.mem_map.2 ⟨e, he, same⟩)
      rw [restored_of_absent absent]
      by_cases valid : (s.reg (tmemReg u (Off.TMEM_SPARE (w.fld 11 6)))).bit 10 = true <;> simp [restored, regBit, valid]
    · have passed : restored (w :: l) k (s.reg (tmemReg u (Off.TMEM_SPARE k))) =
          restored l k (s.reg (tmemReg u (Off.TMEM_SPARE k))) := by simp [restored, here]
      rw [passed]
      split
      · rfl
      · rw [State.setReg_ne (by simpa using fun h => here h.symm)]

/-! ### The end of a migration (R265, R266) -/

theorem nextMig_of_none (free : (s.tmc u).mig = none) (waits : (s.tmc u).migWait = []) : nextMig s u = s := by
  simp [nextMig, free, waits, takeFirst]

/-- The migration m is over: the controller is free, and TMEM_MIG_STAT shows it done. -/
def migOver (s : State) (u : Nat) (m : Mig) : State :=
  (modTmc s u (fun x => { x with mig := none })).setReg (tmemReg u Off.TMEM_MIG_STAT)
    (W.at 1 1 (b2n m.bank) ||| W.at 2 15 (if m.bank then 16384 else 128))

theorem Becomes.over (h : Becomes u x ls s t) (hl : tmemReg u Off.TMEM_MIG_STAT ∈ ls) :
    Becomes u { x with mig := none } ls s (migOver t u m) :=
  (h.thenModTmc (f := fun x => { x with mig := none })).thenSetReg hl

theorem reg_migOver {a : Nat} (ha : a ≠ tmemReg u Off.TMEM_MIG_STAT) : (migOver s u m).reg a = s.reg a :=
  State.setReg_ne ha

theorem reg_spare_migOver : (migOver s u m).reg (tmemReg u (Off.TMEM_SPARE k)) = s.reg (tmemReg u (Off.TMEM_SPARE k)) :=
  reg_migOver (tmemReg_ne_spare (by decide)).symm

theorem reg_migStat_migOver : (migOver s u m).reg (tmemReg u Off.TMEM_MIG_STAT) =
    W.at 1 1 (b2n m.bank) ||| W.at 2 15 (if m.bank then 16384 else 128) := State.setReg_same

/-- Nothing waits behind the migration that ends, so that the controller stays free. -/
theorem exec_migrationDone {u : Fin 64} (runs : (s.tmc u).mig = some m) (done : finishMig s u m = migOver t u m)
    (waits : (t.tmc u).migWait = []) : exec (.migrationDone u) s = .next (migOver t u m) := by
  have ended : exec (.migrationDone u) s = .next (nextMig (finishMig s u m) u) := by
    simp only [exec, execMigrationDone, migrationEnd, runs, ok]
  rw [ended, done, nextMig_of_none (by simp [migOver, modTmc]) (by simp [migOver, modTmc, waits])]

/-- The spare row answers. -/
def spareValid (s : State) (u : Nat) (m : Mig) : State := setBit s (tmemReg u (Off.TMEM_SPARE m.spare)) 10 true

theorem finishMig_row (hm : m.bank = false) (room : spareUsed (spareValid s u m) u ≠ 64) :
    finishMig s u m = migOver (spareValid s u m) u m := by
  simp only [spareValid] at room
  simp [finishMig, migOver, spareValid, hm, room]

/-- The standby bank answers, and the spare entries of the bank are given up. -/
def bankMoved (s : State) (u : Nat) (m : Mig) : State := clearSpares (setFld s (tmemReg u Off.TMEM_BANK_MAP) 0 3 m.b) u m.b

theorem finishMig_bank (hm : m.bank = true) (there : m.back = false) : finishMig s u m = migOver (bankMoved s u m) u m := by
  simp [finishMig, migOver, bankMoved, hm, there]

/-- The bank answers again, its session is over. -/
def bankBack (s : State) (u : Nat) (m : Mig) : State :=
  modTmc (clearSpares (setFld s (tmemReg u Off.TMEM_BANK_MAP) 0 3 6) u m.b) u
    (fun x => { x with leftOut := [], session := false })

theorem finishMig_back (hm : m.bank = true) (back : m.back = true) :
    finishMig s u m = migOver (forEach (restoreSpare u) (s.tmc u).leftOut (bankBack s u m)) u m := by
  simp [finishMig, migOver, bankBack, hm, back]

/-- The registers that the move of a bank may write. -/
def bankRegs (u : Nat) : List Nat := [tmemReg u Off.TMEM_BANK_MAP, tmemReg u Off.TMEM_MIG_STAT] ++ spareRegs u

theorem within_bankMap : Within [.regs] [] [] (bankRegs u) s
    (clearSpares (setFld s (tmemReg u Off.TMEM_BANK_MAP) 0 3 j) u b) :=
  (Within.setReg (by simp) (by simp [bankRegs])).trans
    (within_clearSpares.mono (List.Subset.refl _) (List.Subset.refl _) (List.Subset.refl _) (by simp [bankRegs]))

theorem reg_bankMap : (clearSpares (setFld s (tmemReg u Off.TMEM_BANK_MAP) 0 3 j) u b).reg (tmemReg u Off.TMEM_BANK_MAP) =
    (s.reg (tmemReg u Off.TMEM_BANK_MAP)).put 0 3 j := by
  rw [within_clearSpares.regs _ (not_mem_spareRegs (by decide)), setFld, State.setReg_same]

theorem reg_spare_bankMap (hk : k < 64) :
    (clearSpares (setFld s (tmemReg u Off.TMEM_BANK_MAP) 0 3 j) u b).reg (tmemReg u (Off.TMEM_SPARE k)) =
      givenUp b (s.reg (tmemReg u (Off.TMEM_SPARE k))) := by
  rw [reg_clearSpares hk, setFld, State.setReg_ne (tmemReg_ne_spare (by decide)).symm]

theorem becomes_bankMoved : Becomes u (s.tmc u) (bankRegs u) s (bankMoved s u m) := Becomes.ofRegs within_bankMap

theorem becomes_bankBack : Becomes u { s.tmc u with leftOut := [], session := false } (bankRegs u) s (bankBack s u m) :=
  (Becomes.ofRegs within_bankMap).thenModTmc (f := fun x => { x with leftOut := [], session := false })

theorem becomes_restored :
    Becomes u { s.tmc u with leftOut := [], session := false } (bankRegs u) s (forEach (restoreSpare u) l (bankBack s u m)) :=
  becomes_bankBack.trans (becomes_bankBack.here ▸ Becomes.ofRegs
    (within_restoreSpares.mono (List.Subset.refl _) (List.Subset.refl _) (List.Subset.refl _) (by simp [bankRegs])))

theorem reg_bankMap_restored : (forEach (restoreSpare u) l (bankBack s u m)).reg (tmemReg u Off.TMEM_BANK_MAP) =
    (s.reg (tmemReg u Off.TMEM_BANK_MAP)).put 0 3 6 := by
  rw [within_restoreSpares.regs _ (not_mem_spareRegs (by decide)), bankBack, modTmc, State.setTmc_reg, reg_bankMap]

theorem reg_spare_restored (hk : k < 64) (waits : (s.tmc u).migWait = []) (nodup : (l.map (fun w => w.fld 11 6)).Nodup) :
    (forEach (restoreSpare u) l (bankBack s u m)).reg (tmemReg u (Off.TMEM_SPARE k)) =
      restored l k (givenUp m.b (s.reg (tmemReg u (Off.TMEM_SPARE k)))) := by
  rw [reg_forEach_restoreSpare (by rw [becomes_bankBack.here, waits]) nodup, bankBack, modTmc, State.setTmc_reg,
    reg_spare_bankMap hk]

/-- An entry after the move back, as the statement has it. -/
theorem restored_givenUp : restored l k (givenUp b w) =
    if w.bit 10 = true ∧ w.fld 0 3 ≠ b then w
    else match l.find? (fun e => decide (e.fld 11 6 = k)) with
      | some e => W.at 0 11 (e.fld 0 11)
      | none => if w.bit 10 = true then 0 else w := by
  have zero : W.bit 0#36 10 = false := rfl
  by_cases valid : w.bit 10 = true <;> by_cases mine : w.fld 0 3 = b <;> simp [restored, givenUp, valid, mine, zero]

end

/-- Settles O31: the walk goes on from what the read leaves, a migration starts or waits behind the entry that names its row,
and its end leaves the spare entries as written out above. -/
theorem scrubAndMigrations : Obligations.ScrubAndMigrations := by
  unfold Obligations.ScrubAndMigrations
  refine ⟨?_, ?_, ?_, ?_, ?_, ?_, ?_, ?_, ?_⟩
  · intro u s on doze isOff more good
    refine ⟨_, exec_scrub on doze isOff, ?_⟩
    rw [scrubOne_clean good, scrubNext_of_lt more]
    exact ⟨State.setReg_same, regsBut_setReg (by simp), changesOnly_setReg (by simp)⟩
  · intro u off s on doze isOff more place sound
    refine ⟨_, exec_scrub on doze isOff, ?_⟩
    rw [scrubOne_ce place sound, scrubNext_of_lt more]
    obtain ⟨l, due⟩ := tmc_noteCe (s := s) (u := u) (off := off)
    refine ⟨?_, ?_, within_walked_noteCe.regs, ?_, ⟨l, ?_⟩, fun v hv => State.setReg_tmc.trans (tmcsBut_noteCe v hv),
      within_walked_noteCe.pieces⟩
    · rw [setFld, State.setReg_same, reg_scrubStat_noteCe]
    · rw [setFld, State.setReg_ne (by simp [Off.TMEM_CE_CNT, Off.TMEM_SCRUB_STAT]), reg_ceCnt_noteCe]
    · rw [setFld, State.setReg_tmc, due]
    · rw [setFld, State.setReg_tmc, due]
  · intro u s on doze isOff last good
    refine ⟨_, exec_scrub on doze isOff, ?_⟩
    rw [scrubOne_clean good, scrubNext_of_last last]
    refine ⟨?_, ?_, State.setReg_same, within_scrubPassed.regs, within_scrubPassed.pieces⟩
    · rw [getFld, reg_scrubStat_scrubPassed, W.fld_put_apart (by decide), W.fld_put_same (by decide) (by decide)]
    · rw [getFld, reg_scrubStat_scrubPassed, W.fld_put_mod (by decide)]
  · intro u k b w s free due idle session
    have named := becomes_rowNamed (s := s) (u := u) (k := k) (b := b) (row := w) (ls := [tmemReg u Off.TMEM_MIG_STAT])
    have starts := startMig_of_idle (s := rowNamed s u k b w) (u := u) (m := { bank := false, b := b, spare := k })
      (by rw [named.here]; exact idle) (.inl (by rw [named.here]; exact session))
    refine ⟨_, (exec_rowMigration free due).trans (congrArg _ starts), ?_⟩
    have after := named.runs (m := { bank := false, b := b, spare := k }) (by simp)
    exact ⟨reg_spare_migRuns.trans reg_rowNamed, after.here, reg_migStat_migRuns, after.within.regs, after.within.pieces,
      after.others⟩
  · intro u k b w s free due busy
    have named := becomes_rowNamed (s := s) (u := u) (k := k) (b := b) (row := w) (ls := [])
    have waits := startMig_of_busy (s := rowNamed s u k b w) (u := u) (m := { bank := false, b := b, spare := k })
      (by rw [named.here]; exact busy) rfl
    refine ⟨_, (exec_rowMigration free due).trans (congrArg _ waits), ?_⟩
    have after := named.thenModTmc (f := fun x => { x with migWait := x.migWait ++ [{ bank := false, b := b, spare := k }] })
    exact ⟨reg_rowNamed, after.here, after.within.regs, after.within.pieces, after.others⟩
  · intro u m s runs row idle room inside
    have valid : Becomes u (s.tmc u) [tmemReg u (Off.TMEM_SPARE m.spare), tmemReg u Off.TMEM_MIG_STAT] s (spareValid s u m) :=
      Becomes.ofRegs (within_setBit (by simp) (by simp))
    refine ⟨_, exec_migrationDone runs (finishMig_row row room) (by rw [valid.here, idle]), ?_⟩
    have after := valid.over (m := m) (by simp)
    refine ⟨?_, reg_spare_migOver.trans State.setReg_same, after.here, ?_, after.within.regs, after.within.pieces,
      after.others⟩
    · rw [regBit, reg_spare_migOver]
      exact regBit_setBit_same (by decide)
    · rw [reg_migStat_migOver, row]
      rfl
  · intro u b s standby idle
    have asked : exec (.bankMigration u b) s = .next (startMig s u { bank := true, b := b }) := by
      simp [exec, execBankMigration, when_, standby, idle]
    refine ⟨_, asked.trans (congrArg _ (startMig_of_idle idle (.inr rfl))), ?_⟩
    have after := (Becomes.ofRegs (u := u) (s := s) Within.refl).runs (m := { bank := true, b := b })
      (ls := [tmemReg u Off.TMEM_MIG_STAT]) (by simp)
    exact ⟨after.here, reg_migStat_migRuns, after.within.regs, after.within.pieces, after.others⟩
  · intro u m s runs bank there inside idle
    have moved := becomes_bankMoved (s := s) (u := u) (m := m)
    refine ⟨_, exec_migrationDone runs (finishMig_bank bank there) (by rw [moved.here, idle]), ?_⟩
    have after := moved.over (m := m) (by simp [bankRegs])
    refine ⟨after.here, ?_, ?_, ?_, after.within.regs, after.within.pieces, after.others⟩
    · rw [getFld, reg_migOver (by simp [Off.TMEM_BANK_MAP, Off.TMEM_MIG_STAT]), bankMoved, reg_bankMap,
        W.fld_put_same (by decide) (by omega)]
    · simp only [List.all_eq_true, List.mem_range, decide_eq_true_eq]
      intro k hk
      rw [reg_spare_migOver, bankMoved, reg_spare_bankMap hk]
      rfl
    · rw [reg_migStat_migOver, bank]
      rfl
  · intro u m s runs bank back nodup idle
    have answers := becomes_restored (s := s) (u := u) (m := m) (l := (s.tmc u).leftOut)
    refine ⟨_, exec_migrationDone runs (finishMig_back bank back) (by rw [answers.here, idle]), ?_⟩
    have after := answers.over (m := m) (by simp [bankRegs])
    refine ⟨after.here, ?_, ?_, ?_, after.within.regs, after.within.pieces, after.others⟩
    · rw [reg_migOver (by simp [Off.TMEM_BANK_MAP, Off.TMEM_MIG_STAT]), reg_bankMap_restored]
    · intro k hk
      rw [reg_spare_migOver, reg_spare_restored hk idle nodup]
      exact restored_givenUp
    · rw [reg_migStat_migOver, bank]
      rfl

/-! ### A reservation in a mailbox area when zeroization ends (R152, R288) -/

/-- A scan request has begun zeroization; node 9 holds a reservation on the first line of a mailbox area. -/
def zeroizingReserved : State :=
  { (poweredUp.setReg (bstReg Off.BST_ZERO_STAT) (W.at 0 1 1 ||| W.at 3 1 1)).setTmc 0 { resv := [(9, mbxArea 0 0)] } with
    scanReq := true, scanOn := true, safe := true }

theorem zeroizeDone_of_running {s : State} (on : s.scanOn = true) (runs : regBit s (bstReg Off.BST_ZERO_STAT) 0 = true) :
    exec .zeroizeDone s = .next (zeroizeEnds s) := by
  simp [exec, execZeroizeDone, when_, on, runs]

/-- Refutes O55: the reservations on the lines of the mailbox areas end as these are zeroed (R152), and the clause on the end of
zeroization says that no tile memory controller changes. -/
theorem not_trainingScanAndRecords : ¬ Obligations.TrainingScanAndRecords := by
  unfold Obligations.TrainingScanAndRecords
  rintro ⟨-, -, -, zeroized, -⟩
  obtain ⟨-, -, -, -, -, -, -, -, -, -, only⟩ :=
    (zeroized zeroizingReserved (by decide +kernel) (by decide +kernel) (by decide +kernel)).of_next
      (zeroizeDone_of_running (by decide +kernel) (by decide +kernel))
  exact absurd (congrArg Tmc.resv (only .tmcs (by decide) 0)) (by decide +kernel)

end Sys2Proof.Machine

/-! # The step (log entry 1) -/

namespace Sys2Proof.Machine

/-- Settles O56: the two cases of the queue. -/
theorem stepRunsCommand : Obligations.StepRunsCommand := by
  unfold Obligations.StepRunsCommand
  exact ⟨fun _ _ _ => step_of_cons, fun _ => step_of_nil⟩

end Sys2Proof.Machine

/-! # Entry to Retention (O53) -/

namespace Sys2Proof.Machine

/-! ### The command that runs as a tile goes to Off (R303, R305) -/

section
variable {α : Type} {s : State} {u a : Nat} {ws : List W} {l : List α}

theorem running_forEach {f : α → State → State} (keeps : ∀ x st, (f x st).running = st.running) :
    (forEach f l s).running = s.running := by
  induction l generalizing s with
  | nil => rfl
  | cons x l ih => exact ih.trans (keeps x s)

theorem running_foldl {f : State → α → State} (keeps : ∀ x st, (f st x).running = st.running) :
    (l.foldl f s).running = s.running := by
  induction l generalizing s with
  | nil => rfl
  | cons x l ih => exact ih.trans (keeps x s)

theorem running_writeWords : (writeWords s a ws).running = s.running := by
  induction ws generalizing s a with
  | nil => rfl
  | cons w ws ih => exact ih

theorem running_uintDrop : (uintDrop s u).running = s.running := by
  refine (running_foldl fun k st => ?_).trans (running_foldl fun k st => rfl)
  split <;> rfl

theorem running_enterOff : (enterOff s u).running = s.running := by
  simp only [enterOff, running_uintDrop, loseMemory, modTmc, State.setTmc_running, modTa, State.setTa_running, setTileState,
    setFld, State.setReg_running, saveTile, running_writeWords]

/-- The registers of the NIs of every tile that is not Off, as entry to Retention saves them first. -/
def nisSaved (s : State) : State :=
  forEach (fun t st => saveNiRegs st t) ((List.range 64).filter (fun t => decide (tileState s t ≠ TS.OFF))) s

/-- After the NIs of the cores have been disabled, entry to Retention leaves the running command as it stands. -/
theorem running_enterRetention : (enterRetention s).running = (coreNisOff (saveGlobals (nisSaved s))).running := by
  simp only [enterRetention, setTk, setBit, setFld, State.setReg_running]
  refine (running_forEach fun t st => ?_).trans (by simp only [coresOff, modCore, State.setCore_running, nisSaved])
  split
  · rfl
  · exact running_enterOff

theorem retentionEntry_of_mainLost (lost : fstate s = 1) (idle : braced s = false) (still : ∀ u < 64, taVtrans s u = false) :
    exec .retentionEntry s = .next (enterRetention s) := by
  have every : (List.range 64).all (fun t => !taVtrans s t) = true := by simpa using still
  simp [exec, execRetentionEntry, when_, lost, idle, every]

end

/-- The main rail is lost while tile 0 is in Off and firmware runs a command. -/
def lostWithTile0Off : State :=
  { (poweredUp.setReg (pwrReg Off.PWR_STAT) 1).setReg (taReg 0 Off.PWR_TA_STAT) 3 with
    running := some { mbx := 3, copy := 0, hdr := 0, args := [] } }

/-- Refutes O53: with tile 0 in Off, the write that disables NI(0, 6) after the save finds no register; firmware keeps the miss
with its running command (R216), and the clause on entry to Retention says that the running command stays as it was. -/
theorem not_retentionAndSelfTest : ¬ Obligations.RetentionAndSelfTest := by
  unfold Obligations.RetentionAndSelfTest
  rintro ⟨entry, -⟩
  obtain ⟨-, -, -, -, -, -, -, -, -, -, -, -, kept, -⟩ :=
    (entry lostWithTile0Off (by decide +kernel) (by decide +kernel) (by decide +kernel)).of_next
      (retentionEntry_of_mainLost (by decide +kernel) (by decide +kernel) (by decide +kernel))
  exact absurd (congrArg (Option.bind · Running.stop) (running_enterRetention.symm.trans kept)) (by decide +kernel)

end Sys2Proof.Machine
